-- ==== Sys2Proof/Word.lean ====
section
/-! DEFINITION. The words of the device: a register is 32 bits wide (R10), the smallest addressable unit is a byte. -/

namespace Sys2Proof

/-- A register's value (R10). -/
abbrev Word := BitVec 32

/-- One byte of memory. -/
abbrev Byte := BitVec 8

end Sys2Proof
end

