-- ==== Sys2Proof/Machine/TypesRx.lean ====
section
/-! DEFINITION. What the outside world hands to the device with a command: a received Amiuc frame, what a port's comparators saw. -/

namespace Sys2Proof

/-- A UDP datagram for Amiuc as an Ethernet port received it (R398, Table 14.2): port (0 A, 1 B), source MAC and IP address
(`v6`: IPv6), UDP source port, the VLAN tag, whether the datagram is one the stack accepts (R395: no fragment, no options, a
valid checksum, the port's own address), the UDP length, the header fields, the payload as it came (encrypted where flags.enc is
1), the authentication tag that followed it (R404), whether every page that FW_UPDATE programs reads back (R528), and the lines with errors that a bulk access meets, each with
its address and, for the near store, the bits in which the DRAM returns it changed (R358, R372, R416); for SRAM and the far store
any number but 0 is an uncorrectable error or poison. -/
structure Rx where
  port : Nat := 0
  mac : Nat := 0
  v6 : Bool := false
  ip : Nat := 0
  uport : Nat := 0
  vlan : Option Nat := none
  ipOk : Bool := true
  len : Nat := 32
  magic : Nat := 0x414D
  version : Nat := 1
  flags : Nat := 0
  session : Nat := 0
  channel : Nat := 0xFF
  seq : Nat := 0
  ack : Nat := 0
  sack : Nat := 0
  credit : Nat := 0
  length : Nat := 0
  sid : Nat := 0
  txc : Nat := 0
  payload : List Byte := []
  atag : List Byte := []
  flashOk : Bool := true
  bad : List (Nat × Nat) := []
  deriving DecidableEq, Repr

/-- What the comparators of a port show in a vector, by port pin index: CMPH and CMPL at C0, and the pins on which they
left the expected condition at some moment from C0 to C1 (R117). -/
structure Seen where
  cmph : BitVec 64
  cmpl : BitVec 64
  departed : BitVec 64
  deriving DecidableEq, Repr

/-- Which landing space a fetch fills. -/
inductive FetchKind where
  | ring
  | slot (owner dest : Nat)
  | reserve
  | tag (tier addr : Nat)
  deriving DecidableEq, Repr

end Sys2Proof
end

