-- ==== Sys2Proof/Syntax.lean ====
section
/-! DEFINITION. The commands of the block: one constructor per row of the table of operations and events. An operand is what the
command brings from outside: the unit, the written word, a received frame, what a sensor or a comparator showed. -/

namespace Sys2Proof

/-- A command. -/
inductive Instr where
  /-- REGISTER_WRITE (R43): A CSR write to a register that has no row of its own takes effect in the register's domain and then returns its completion. -/
  | registerWrite (addr : Nat) (v : Word)
  /-- FABRIC_REQUEST (R29): A requester that holds landing space and a tag issues a request, and the target accepts it. -/
  | fabricRequest (req : Fin 31) (addr : Nat) (write : Option (BitVec 512)) (enables : BitVec 64)
  /-- FABRIC_RESPONSE (R28): A response reaches its requester, is consumed on arrival and returns its tag. -/
  | fabricResponse (req : Fin 31) (addr k : Nat) (ue : Bool)
  /-- STRUCT_LOAD (R72): The host starts STRUCT_LOAD, which occupies the management channel and begins validation. -/
  | structLoad (rx : Rx)
  /-- STRUCT_CHECK_DONE (R72): Header, signature and section validation completes, and the load is rejected with a code or goes on. -/
  | structCheckDone
  /-- STRUCT_UNITS_STOPPED (R75): The affected ports have ended their current vectors, and engines, channels and WFGs are stopped, so earlier results are released. -/
  | structUnitsStopped
  /-- STRUCT_DOMAINS_SETTLED (R78): The domains being switched on are powered and settled, and the changed banks are zeroed. -/
  | structDomainsSettled
  /-- STRUCTURE_COMMIT (R78): An atomic SME routine writes every covered RWL field and the routing matrix. -/
  | structureCommit
  /-- STRUCT_LOAD_DONE (R81): Domains switched off are turned off, new blocks are calibrated, and the load ends with OK and source 444. -/
  | structLoadDone
  /-- STC_SWSTROBE (R60): A write to STC_SWSTROBE pulses software strobe sources for 2 TB cycles. -/
  | stcSwstrobe (v : BitVec 8)
  /-- PWR_DOMAIN_WRITE (R506): A host write of the power mask, taking effect at the HI word, switches domains or is refused. -/
  | pwrDomainWrite (hi : Bool) (v : Word)
  /-- VECTOR_PERIOD (R86): At each vector period boundary a port issues one vector: its states, edges, strobes, markers and samples. -/
  | vectorPeriod (p : Fin 8) (x : Seen) (dirErr sramErr : Bool)
  /-- JUMP_REQUEST_REGISTERED (R143): A condition request is registered W vectors after its source, taken or held. -/
  | jumpRequestRegistered (p : Fin 8)
  /-- JUMP_HOST_REQ (R142): A write setting PRT_JUMP_HOST.req arms a host request, which is produced at once if a HOST entry is running. -/
  | jumpHostReq (p : Fin 8)
  /-- JUMP_HOST_CANCEL (R142): A write of PRT_JUMP_HOST.cancel clears req. -/
  | jumpHostCancel (p : Fin 8)
  /-- PORT_WAIT_TIMEOUT (R151): A wait loop's time-out elapses and makes the pass in issue the last pass. -/
  | portWaitTimeout (p : Fin 8)
  /-- PORT_RUN (R156): A write of run = 1 clears the port state, arms a start, asks the planner to admit it, or refuses it. -/
  | portRun (p : Fin 8) (v : Word)
  /-- PORT_STOP (R158): A write of run = 0 cancels an armed start, or stops the port at the end of its current vector. -/
  | portStop (p : Fin 8) (v : Word)
  /-- PORT_START_EVENT (R156): The port event input selected by start_evt goes active and latches the start condition of mode 2. -/
  | portStartEvent (p : Fin 8)
  /-- PORT_TRAILHEAD_REACHED (R538): At the Trailhead of a mode-1 start, the start proceeds or is cancelled with cause 8 or 7. -/
  | portTrailheadReached (p : Fin 8)
  /-- PORT_FIRST_VECTOR (R156): Once admitted, locked and with its start condition met, the port issues its first vector and raises its started event. -/
  | portFirstVector (p : Fin 8) (phase : Nat) (x : Seen) (dirErr sramErr : Bool)
  /-- BAND_WRITE (R118): A write of PRT_TIMING_CTL.band while stopped sets the band and the PD divider; otherwise it is ignored. -/
  | bandWrite (p : Fin 8) (band : Fin 4)
  /-- RAMBLE_STEP (R161): After DWELL vectors a step program adds STEP to the offset. -/
  | rambleStep (p : Fin 8)
  /-- RAMBLE_SWEEP_UPDATE (R161): Every 128 ns a sweep program moves the offset toward its limit. -/
  | rambleSweepUpdate (p : Fin 8)
  /-- START_ADMITTED (R178): The prior reads and zeroing are done and the ring is primed, so the start is admitted. -/
  | startAdmitted (p : Fin 8)
  /-- ADMIT_TIMEOUT (R180): Admission has not come by its time-out, and the start is cancelled with code TIMEOUT. -/
  | admitTimeout (p : Fin 8)
  /-- RING_ZEROED (R171): The zeroing of a stopped port's ring and head slots completes. -/
  | ringZeroed (d : Fin 12)
  /-- STREAM_FETCH (R183): A fetcher or the planner holding a ring credit and a tag issues a streamed line read. -/
  | streamFetch (d : Fin 12) (kind : FetchKind)
  /-- STREAM_LINE_VALID (R166): A streamed line lands in the ring or a head slot and becomes valid. -/
  | streamLineValid (d : Fin 12)
  /-- HOLD_RESUME (R190): The fill reaches the prime level and the port leaves HOLD to issue the waiting vector. -/
  | holdResume (p : Fin 8) (phase : Nat)
  /-- HOLD_TIMEOUT (R191): A port held in HOLD for HOLD_TMO aborts with HOLD_TIMEOUT. -/
  | holdTimeout (p : Fin 8)
  /-- PAGE_AUTH_DONE (R199): The crypto engine decrypts an encrypted page in place and verifies or fails its tag. -/
  | pageAuthDone (p : Fin 8) (tier : Fin 4) (addr : Nat)
  /-- DPL_RUN (R211): A write of DPL_CTL.run = 1 from OFF or FAIL enters ACQUIRE at the committed word. -/
  | dplRun (d : Fin 12) (v : Word)
  /-- DPL_RUN_OFF (R211): A write of DPL_CTL.run = 0 enters OFF with the clocks low. -/
  | dplRunOff (d : Fin 12) (v : Word)
  /-- DPL_COMMIT (R210): A write of commit applies the staged word as a small or large change, or is refused. -/
  | dplCommit (d : Fin 12) (v : Word)
  /-- DPL_RESEED (R205): A write of reseed loads the dither LFSR from DPL_SEED. -/
  | dplReseed (d : Fin 12) (v : Word)
  /-- DPL_HANDOVER (R212): The MDLL comes within 500 ppm and the loop enters HANDOVER. -/
  | dplHandover (d : Fin 12)
  /-- DPL_LOCK_DECLARED (R220): The lock detector declares lock and the loop enters SETTLE. -/
  | dplLockDeclared (d : Fin 12)
  /-- DPL_SETTLED (R212): One microsecond after lock the clocks are ungated, the loop is LOCKED and a paused port resumes. -/
  | dplSettled (d : Fin 12) (phase : Nat)
  /-- DPL_LOSS_OF_LOCK (R220): The detector declares loss of lock, and the loop enters flask hold or ACQUIRE. -/
  | dplLossOfLock (d : Fin 12)
  /-- DPL_HOLD_TO_ACQUIRE (R219): A loop in HOLD enters ACQUIRE once its port has ended its current vector. -/
  | dplHoldToAcquire (d : Fin 12)
  /-- DPL_FAIL (R213): No lock within 200 us puts the loop in FAIL and stops a running port. -/
  | dplFail (d : Fin 12)
  /-- DPL_RAMP_UPDATE (R209): Every 128 ns a small change moves the commanded frequency toward its target. -/
  | dplRampUpdate (d : Fin 12)
  /-- DPL_RAMP_SETTLED (R209): The ramp has ended and settled, and the loop returns to LOCKED with settling 0. -/
  | dplRampSettled (d : Fin 12)
  /-- CEILING_SUPPRESS (R218): The ceiling monitor suppresses a clock phase that would be too short and counts it. -/
  | ceilingSuppress (clk : Option (Fin 12))
  /-- REF_ABSENT (R223): Four missing cycles declare REF_IN absent. -/
  | refAbsent
  /-- REF_PRESENT (R223): 1,024 good cycles declare REF_IN present. -/
  | refPresent
  /-- TBPLL_MDLL_READY (R225): The TBPLL's MDLL comes within 500 ppm and its fractional loop closes. -/
  | tbpllMdllReady
  /-- TBPLL_LOCKED (R225): LOCK_SENSE has been below 0.20 V for 1 ms and the TBPLL is declared locked, starting the count on first lock. -/
  | tbpllLocked
  /-- TBPLL_UNLOCKED (R225): LOCK_SENSE rises above 0.35 V and the TBPLL enters HOLDOVER. -/
  | tbpllUnlocked
  /-- TBPLL_RETURN (R227): After at least 100 us in HOLDOVER with the reference present, the TBPLL measures phi and re-closes by slew or STEP. -/
  | tbpllReturn (phi slew : Int)
  /-- TBPLL_ALIGNED (R227): The slew has removed phi, and the TBPLL returns to LOCKING. -/
  | tbpllAligned
  /-- HOLDOVER_LONG (R229): After 10 s in HOLDOVER, holdover_long is set and source 488 raised. -/
  | holdoverLong
  /-- TIMESTAMP_WRAP (R230): The count reaches 2^48 ns, wraps, and the epoch increments. -/
  | timestampWrap
  /-- TIME_BASE_ZERO (R231): At the delayed reference edge after an accepted EPOCH_IN, the time base is zeroed. -/
  | timeBaseZero (late : Bool)
  /-- TRAILHEAD_ARM (R535): A write of TMB_TRAILHEAD_CTL.arm latches the instant, or clears at once if it is past. -/
  | trailheadArm
  /-- TMB_TRAILHEAD_REACHED (R535): The armed instant is reached and source 0x0091 pulses. -/
  | tmbTrailheadReached
  /-- PHASE_SAMPLE_REQ (R233): A write of DPL_PHASE_CTL.sample requests one phase sample. -/
  | phaseSampleReq (d : Fin 12) (v : Word)
  /-- PHASE_SAMPLE (R233): At a whole microsecond a phase sample records its instant, offset and vector. -/
  | phaseSample (d : Fin 12) (ofs : BitVec 19)
  /-- ACQ_ARM (R265): A write of ACQ_CTL.arm = 1 runs the arm checks and enters WAIT or records a refusal. -/
  | acqArm (e : Fin 8) (v : Word)
  /-- ACQ_STOP (R260): A write of arm = 0 stops the run at the end of the present output sample. -/
  | acqStop (e : Fin 8) (v : Word)
  /-- ACQ_FORCE (R247): A write of ACQ_CTL.force registers trigger source 3 at the next output sample. -/
  | acqForce (e : Fin 8) (v : Word)
  /-- ACQ_RECORD_PUBLISH (R259): The drain has written a closed record to the drain ring and WR advances past it. -/
  | acqRecordPublish (e : Fin 8)
  /-- ACQ_DRAIN_RD_WRITE (R259): A write of ACQ_DRAIN_RD releases drain ring units, or is ignored if it is out of range. -/
  | acqDrainRdWrite (e : Fin 8) (v : Word)
  /-- TIM_ARM (R277): A write of TIM_CTL.arm = 1 runs the arm checks and enters ARMED. -/
  | timArm (t : Fin 32) (v : Word) (v1 v2 : BitVec 12)
  /-- TIM_STOP (R278): A write of arm = 0 stops the channel at that TB edge. -/
  | timStop (t : Fin 32) (v : Word)
  /-- TIM_MEAS_START (R277): The arm condition, DLL lock and lease all hold, and the channel enters MEAS. -/
  | timMeasStart (t : Fin 32)
  /-- TIM_EDGE (R274): A selected edge arrives in MEAS and is measured or lost. -/
  | timEdge (t : Fin 32) (at_ : Nat) (falling : Bool)
  /-- TIM_RESULT (R282): The edge's conversion completes and the channel produces its result, possibly entering DONE. -/
  | timResult (t : Fin 32) (x v1 v2 : BitVec 12)
  /-- TIM_GATE_END (R283): A FREQ gate ends, produces its result and opens the next gate. -/
  | timGateEnd (t : Fin 32)
  /-- TIM_HIST_UPDATE (R285): The quadrant histogram unit takes a result from X7 and updates a bin or a tally. -/
  | timHistUpdate (q : Fin 4)
  /-- TIM_HIST_CLEAR (R286): A write of TIM_HIST_CTL.clear starts zeroing the channel's histogram. -/
  | timHistClear (t : Fin 32) (v : Word)
  /-- TIM_HIST_CLEAR_DONE (R286): The histogram clear completes and busy returns to 0. -/
  | timHistClearDone (t : Fin 32)
  /-- TIM_DLL_LOCK (R272): The delay line declares lock after 1,024 good periods. -/
  | timDllLock (t : Fin 32)
  /-- TIM_DLL_UNLOCK (R272): The delay line declares loss of lock and edges are counted as lost. -/
  | timDllUnlock (t : Fin 32)
  /-- SECRET_PERIOD_END (R440): 100 ns after a secret entry's last vector, blanking ends and held PEB requests go on. -/
  | secretPeriodEnd (p : Fin 8)
  /-- WFG_RUN (R298): A write of WFG run = 1 refuses the start or waits for the ring to prime. -/
  | wfgRun (m : Fin 4) (v : Word)
  /-- WFG_STOP (R301): A write of run = 0 stops the WFG at the end of the present WD cycle. -/
  | wfgStop (m : Fin 4) (v : Word)
  /-- WFG_ADMITTED (R298): The WFG ring holds its prime and head slots, so the start is admitted. -/
  | wfgAdmitted (m : Fin 4)
  /-- WFG_ADMIT_TIMEOUT (R300): Admission takes longer than WFG_ADMIT_TMO and the start is cancelled. -/
  | wfgAdmitTimeout (m : Fin 4)
  /-- WFG_TRAILHEAD_REACHED (R300): At a mode-1 Trailhead the WFG starts or is cancelled. -/
  | wfgTrailheadReached (m : Fin 4)
  /-- WFG_FIRST_SAMPLE (R300): At the first admissible WD boundary the WFG outputs sample 0 and records its instant. -/
  | wfgFirstSample (m : Fin 4) (phase : Nat) (sramErr : Bool)
  /-- WFG_WD_CYCLE (R292): Each WD cycle outputs 16 resampled samples with markers and sequences entries. -/
  | wfgWdCycle (m : Fin 4) (sramErr : Bool)
  /-- WFG_REQUEST_REGISTERED (R295): A WFG condition request is registered at least 256 ns after its source. -/
  | wfgRequestRegistered (m : Fin 4)
  /-- WFG_JUMP_HOST_REQ (R295): A write setting WFG_JUMP_HOST.req arms a host request. -/
  | wfgJumpHostReq (m : Fin 4)
  /-- WFG_JUMP_HOST_CANCEL (R295): A write of WFG_JUMP_HOST.cancel clears req. -/
  | wfgJumpHostCancel (m : Fin 4)
  /-- WFG_WAIT_TIMEOUT (R295): A WFG wait loop's time-out elapses. -/
  | wfgWaitTimeout (m : Fin 4)
  /-- PDAC_CODE_WRITE (R305): A write to PDC_CODE loads the code in mode 0 or stages it in mode 1. -/
  | pdacCodeWrite (u : Fin 16) (code : BitVec 16)
  /-- PDAC_GROUP_LOAD (R305): A write to PDC_GLOAD loads every PDAC of the group. -/
  | pdacGroupLoad (q : Fin 4) (v : Word)
  /-- PDAC_MATRIX_LOAD (R305): A rising edge at destination 84 + g loads the group. -/
  | pdacMatrixLoad (g : Fin 4)
  /-- PDAC_HOLD_END (R306): After 600 ns the held output moves to the pending code. -/
  | pdacHoldEnd (u : Fin 16)
  /-- PDAC_LIMIT (R307): One microsecond at the current limit sets limit and raises the limiting event. -/
  | pdacLimit (u : Fin 16) (atLimit : Bool)
  /-- PDAC_SC_OFF (R307): 100 us of limiting with sc_off clears en and sets disabled. -/
  | pdacScOff (u : Fin 16)
  /-- SLK_ENABLE (R311): A write of SLK_CTL.en = 1 enters SYNC. -/
  | slkEnable (v : Word)
  /-- SLK_DISABLE (R311): A write of en = 0 enters OFF. -/
  | slkDisable (v : Word)
  /-- SLK_ALIGNED (R311): 1,024 valid characters declare the input aligned and enter FORM. -/
  | slkAligned
  /-- SLK_INPUT_LOST (R311): Loss of idles or code errors declares the input lost and enters SYNC. -/
  | slkInputLost
  /-- ANNOUNCE_TIMER (R312): The ANNOUNCE interval expires and the device sends its own ANNOUNCE. -/
  | announceTimer
  /-- ANNOUNCE (R312): A received ANNOUNCE frame is forwarded or removed, may complete formation, or causes FAULT. -/
  | announce (l : List Byte) (clean : Bool)
  /-- VOTE (R319): A received VOTE frame is counted for its round, possibly forming the verdict. -/
  | vote (l : List Byte) (clean : Bool)
  /-- ABANDON (R319): A received ABANDON frame forms its round as fail with cause 4. -/
  | abandon (l : List Byte) (clean : Bool)
  /-- BREAK (R314): A received BREAK puts a device in UP into FORM and is forwarded. -/
  | linkBreak (l : List Byte) (clean : Bool)
  /-- TRAILHEAD_FRAME (R321): A received TRAILHEAD frame writes the Trailheads of accepting ports and may arm them, or returns to its sender. -/
  | trailheadFrame (l : List Byte) (clean : Bool)
  /-- LOCAL_VOTE (R318): A port's vote reaches the site link and, when all local members have voted, forms the own vote and sends VOTE. -/
  | localVote
  /-- ROUND_TIMEOUT (R319): An open round reaches SLK_VERDICT_TMO, forms fail and sends ABANDON. -/
  | roundTimeout (site round : BitVec 8)
  /-- SLK_TH_SEND (R321): A write of SLK_TH_CTL.send in UP sends a TRAILHEAD frame. -/
  | slkThSend (v : Word)
  /-- SLK_TH_TIMEOUT (R321): A TRAILHEAD frame that has not returned in 100 us sets failed. -/
  | slkThTimeout
  /-- SCH_ALLOC (R326): A read of SCH_ALLOC moves the lowest FREE slot to HELD and returns it. -/
  | schAlloc
  /-- TASK_SUBMIT (R326): SCH_SUBMIT op 1 validates the descriptor and places the task in its first state. -/
  | taskSubmit (slot : BitVec 13)
  /-- TASK_CANCEL (R336): SCH_SUBMIT op 2 cancels a task, leaving a hole in its flow. -/
  | taskCancel (slot : BitVec 13)
  /-- SLOT_RETURN (R326): SCH_SUBMIT op 3 returns a HELD slot to FREE. -/
  | slotReturn (slot : BitVec 13)
  /-- BINDING_FIRE (R329): An event occurrence routed to the scheduler fires its binding's template. -/
  | bindingFire (k : Fin 64)
  /-- SCHED_TICK (R330): At each microsecond tick, delayed tasks expire and delay templates fire. -/
  | schedTick
  /-- TASK_WAIT_TIMEOUT (R332): A head task's wait time-out elapses and it becomes READY with timed_out. -/
  | taskWaitTimeout (j : Fin 48)
  /-- TASK_DISPATCH (R335): A READY task with reserved Hamper space is dispatched to a core, possibly pre-empting. -/
  | taskDispatch (g : Fin 4)
  /-- TASK_FINISH (R341): A core finishes a task's job and the task reaches DONE. -/
  | taskFinish (c : Fin 16) (bad : List Nat)
  /-- TASK_ERROR (R347): A read error or a core trap ends a task in error with an ERROR record. -/
  | taskError (c : Fin 16) (trap : Bool) (detail : Word) (addr : BitVec 64)
  /-- HAMPER_RELEASE (R348): A DONE task's Hamper is released once every lower sequence of its flow is released. -/
  | hamperRelease (slot : BitVec 13)
  /-- FAIL_RECORD_DRAIN (R339): Each PD cycle a fail record leaves the FIFO for the fail ring, or is dropped. -/
  | failRecordDrain (p : Fin 8)
  /-- FLOW_RESET (R348): A write of SCH_FLOW_CFG.reset sets NEXT and REL to 0, unless the flow holds a task. -/
  | flowReset (f : Fin 256) (v : Word)
  /-- CORE_RESET_DONE (R347): A result core that trapped completes its reset and becomes idle for dispatch again. -/
  | coreResetDone (c : Fin 16)
  /-- DDR_READ_COMPLETE (R358): A DRAM read burst completes and each codeword is decoded. -/
  | ddrReadComplete (c : Fin 4) (err : BitVec 640)
  /-- DDR_WRITE_ISSUED (R363): A write burst issued to the DRAM acknowledges its write. -/
  | ddrWriteIssued (c : Fin 4) (err : BitVec 640)
  /-- DDR_REFRESH (R365): The refresh interval expires and a refresh is issued or postponed. -/
  | ddrRefresh (c : Fin 4) (postpone : Bool)
  /-- DDR_MR4_READ (R365): Every 32 ms the controller reads MR4 to set the refresh interval. -/
  | ddrMr4Read (c : Fin 4) (v : BitVec 8)
  /-- DDR_FULL_TRAIN (R367): DDR_FULL_TRAIN is refused or starts training the channels in its mask. -/
  | ddrFullTrain (rx : Rx)
  /-- DDR_TRAIN_DONE (R366): Training ends with success into INIT or failure into FAILED. -/
  | ddrTrainDone (c : Fin 4) (code lane : BitVec 8)
  /-- DDR_INIT_GRANULE (R368): Initialisation zeroes a granule, and the channel enters READY after the last. -/
  | ddrInitGranule (c : Fin 4)
  /-- RETRAIN_ROUND_START (R369): The retraining period expires, or calibration requests a round. -/
  | retrainRoundStart (c : Fin 4)
  /-- RETRAIN_STEP (R369): A retraining step pauses one subchannel for at most 240 ns. -/
  | retrainStep (c : Fin 4) (sub : Fin 2) (late : Bool)
  /-- RETRAIN_ROUND_END (R370): A round applies new settings, or finds no working setting and may fence the channel. -/
  | retrainRoundEnd (c : Fin 4) (eyes : List (Nat × Nat))
  /-- FREEZE_RELEASE (R374): A write of DMC_FREEZE_CTL.release completes the causing read with error and executes the held requests. -/
  | freezeRelease (c : Fin 4)
  /-- DIAG_READ_RAW (R375): Diagnostic op 1 reads a line raw while frozen. -/
  | diagReadRaw (c : Fin 4) (v : Word)
  /-- DIAG_WRITE_PATTERN (R375): Diagnostic op 2 writes a pattern to a line and reads it raw. -/
  | diagWritePattern (c : Fin 4) (v : Word)
  /-- DIAG_DONE (R375): A diagnostic operation completes and fills DMC_DIAG_RAW and DMC_DIAG_SYN. -/
  | diagDone (c : Fin 4) (err : BitVec 640)
  /-- RETENTION_RETURN (R376): On the domain's return, the short training ends into INIT, READY or FAILED. -/
  | retentionReturn (c : Fin 4) (lost : Bool) (err : BitVec 640) (line : Nat)
  /-- CXL_ENABLE (R384): A write of CXH_CTL.en = 1 with domain 36 on starts training the halves. -/
  | cxlEnable (v : Word)
  /-- CXL_DISABLE (R384): A write of CXH_CTL.en = 0 puts both halves in OFF. -/
  | cxlDisable (v : Word)
  /-- CXL_REENUM (R386): A write of reenum moves halves in WAIT, DOWN or ABSENT to TRAINING. -/
  | cxlReenum (v : Word)
  /-- CXL_SETUP_RESULT (R384): A half's setup completes into UP or fails a step into WAIT. -/
  | cxlSetupResult (h : Fin 2) (width speed fail : Nat) (ide : Bool) (cap records : Nat)
  /-- CXL_RETRY_TIMER (R385): 100 ms in WAIT returns the half to TRAINING. -/
  | cxlRetryTimer (h : Fin 2)
  /-- CXL_WINDOW_END (R385): The 10 s window ends and a half not UP enters ABSENT. -/
  | cxlWindowEnd (h : Fin 2)
  /-- CXL_MEMDATA (R388): MemData for a read arrives and completes it, with error if poisoned. -/
  | cxlMemdata (nth : Nat) (poison : Bool) (replays : Nat)
  /-- CXL_CMP (R388): A Cmp acknowledges a MemWr. -/
  | cxlCmp (nth : Nat)
  /-- CXL_READ_TIMEOUT (R389): An unanswered read completes with error after CXH_TMO and may force Recovery. -/
  | cxlReadTimeout (nth : Nat)
  /-- CXL_RECOVERY_ENTER (R392): A half enters RECOVERY and completes its in-flight requests with error in order. -/
  | cxlRecoveryEnter (h : Fin 2)
  /-- CXL_RECOVERY_EXIT (R392): The link returns to L0 and the held requests are served. -/
  | cxlRecoveryExit (h : Fin 2)
  /-- CXL_LINK_DOWN (R392): The link goes down or misses 100 ms of recovery and the half enters DOWN. -/
  | cxlLinkDown (h : Fin 2)
  /-- CXL_IDE_FAIL (R391): An IDE integrity failure forces Recovery. -/
  | cxlIdeFail (h : Fin 2)
  /-- CXL_MSIX (R391): An MSI-X from an expander makes the host read and clear its event records. -/
  | cxlMsix (h : Fin 2) (records : Nat)
  /-- HELLO (R407): A received HELLO is answered with WELCOME or REJECT. -/
  | hello (rx : Rx)
  /-- CONFIRM (R403): A verified CONFIRM opens the session and is acknowledged. -/
  | confirm (rx : Rx)
  /-- ACK (R410): A received ACK updates acknowledgement and credit on a channel. -/
  | ack (rx : Rx)
  /-- KEEPALIVE (R408): A received KEEPALIVE refreshes the session. -/
  | keepalive (rx : Rx)
  /-- CLOSE (R406): A received CLOSE ends the session into FREE. -/
  | close (rx : Rx)
  /-- PENDING_TIMEOUT (R406): A PENDING slot without CONFIRM for 100 ms returns to its earlier state. -/
  | pendingTimeout (k : Fin 8)
  /-- KEEPALIVE_TIMER (R408): After 100 ms of silence to a session the device sends KEEPALIVE. -/
  | keepaliveTimer (k : Fin 8)
  /-- SESSION_TIMEOUT (R408): After 300 ms without a valid frame the session is DETACHED with TIMED_OUT. -/
  | sessionTimeout (k : Fin 8)
  /-- RESUME_TIMEOUT (R406): A DETACHED slot reaches NET_RESUME_TMO and becomes FREE. -/
  | resumeTimeout (k : Fin 8)
  /-- ACK_TIMER (R409): Within 20 us of a DATA frame the device acknowledges it. -/
  | ackTimer (k : Fin 8) (c : Fin 7)
  /-- RETRANSMIT_TIMER (R411): NET_RTO expires for the oldest unacknowledged frame, which is retransmitted with the timer doubled. -/
  | retransmitTimer (k : Fin 8) (c : Fin 7)
  /-- HAMPER_FRAME_SEND (R417): With credit available, the device sends the next frame of a released Hamper on channel 5. -/
  | hamperFrameSend (k : Fin 8)
  /-- EVENT_FRAME_SEND (R418): With records pending, credit and NET_EVT_MIN elapsed, the device sends an event frame. -/
  | eventFrameSend (k : Fin 8)
  /-- PROBE (R413): PROBE returns the device state and long-operation progress. -/
  | probe (rx : Rx)
  /-- CSR_READ (R413): CSR_READ reads n registers, stopping at the first address error. -/
  | csrRead (rx : Rx)
  /-- CSR_WRITE (R413): CSR_WRITE writes a list of registers in order, stopping at the first error. -/
  | csrWrite (rx : Rx)
  /-- GET_CERT (R413): GET_CERT returns part of the DIK certificate chain. -/
  | getCert (rx : Rx)
  /-- WARM_RESET (R498): WARM_RESET replies and applies a warm reset after the reply is acknowledged. -/
  | warmReset (rx : Rx)
  /-- CAL_FULL (R467): CAL_FULL makes every calibration unit pending and runs them in order. -/
  | calFull (rx : Rx)
  /-- FW_UPDATE (R434): FW_UPDATE checks three images and writes them to the slot not in use. -/
  | fwUpdate (rx : Rx)
  /-- SCRUB_FULL (R474): SCRUB_FULL makes one full scrub pass over SRAM and near store. -/
  | scrubFull (rx : Rx)
  /-- ENROL (R432): ENROL checks an owner package and atomically enters OWNED. -/
  | enrol (rx : Rx)
  /-- ZEROIZE (R446): ZEROIZE zeroes the key store and regions as an atomic routine. -/
  | zeroize (rx : Rx)
  /-- LONG_OP_END (R414): A long operation ends, replies once, records NET_LONG_RESULT and raises source 361. -/
  | longOpEnd
  /-- BULK_WRITE (R416): A bulk WRITE writes data at addr and may answer with WRITE_DONE. -/
  | bulkWrite (rx : Rx)
  /-- BULK_READ (R416): A bulk READ returns READ_DATA frames in address order. -/
  | bulkRead (rx : Rx)
  /-- ARP_REQUEST (R395): An ARP request for the port's address is answered. -/
  | arpRequest (p : Fin 2) (target mac ip : Nat)
  /-- NEIGHBOUR_SOLICITATION (R395): A neighbour solicitation for the port's addresses is answered. -/
  | neighbourSolicitation (p : Fin 2) (target mac ip : Nat)
  /-- ICMP_ECHO (R395): An ICMP echo is answered while READY. -/
  | icmpEcho (p : Fin 2) (v6 : Bool) (target mac ip : Nat) (payload : List Byte)
  /-- DHCP_RENEW (R395): At half the lease the DHCP client renews. -/
  | dhcpRenew (p : Fin 2)
  /-- DHCP_LEASE_LOST (R395): A lost lease invalidates the address and ends the port's sessions with TIMED_OUT. -/
  | dhcpLeaseLost (p : Fin 2)
  /-- ETH_LINK_UP (R394): An Ethernet port's link comes up. -/
  | ethLinkUp (p : Fin 2)
  /-- ETH_LINK_DOWN (R394): An Ethernet port's link goes down. -/
  | ethLinkDown (p : Fin 2)
  /-- NET_APPLY (R421): A write of NET_CTL.apply applies the staged port configuration and ends affected sessions. -/
  | netApply (v : Word)
  /-- DHCP_LEASE_OBTAINED (R395): The DHCPv4 client receives a lease, and the leased IPv4 address becomes valid with a gratuitous ARP. -/
  | dhcpLeaseObtained (p : Fin 2) (ip secs : Word)
  /-- DUPLICATE_ADDRESS_DETECTION (R395): Duplicate address detection on an address ends, making it valid or setting NET_PORT_STATUS.conflict. -/
  | duplicateAddressDetection (p : Fin 2) (global duplicate : Bool)
  /-- PAUSE_FRAME (R394): A received pause or PFC frame is discarded and counted in NET_PAUSE_RX. -/
  | pauseFrame (p : Fin 2)
  /-- UNKNOWN_OPCODE (R413): A management request with an opcode the device does not know is answered BAD_OPCODE. -/
  | unknownOpcode (rx : Rx)
  /-- GET_OWNER (R453): GET_OWNER returns lifecycle, epoch, cred_floor, policy and OAK. -/
  | getOwner (rx : Rx)
  /-- GET_CHALLENGE (R453): GET_CHALLENGE returns a fresh 32-byte challenge for a signed command. -/
  | getChallenge (rx : Rx)
  /-- LOAD_KEY (R435): LOAD_KEY derives a pattern key into a slot. -/
  | loadKey (rx : Rx)
  /-- CLEAR_KEY (R435): CLEAR_KEY zeroes a pattern key slot. -/
  | clearKey (rx : Rx)
  /-- RUCKSACK_OPEN (R436): RUCKSACK_OPEN checks a package and has the crypto engine decrypt it into a region. -/
  | rucksackOpen (rx : Rx)
  /-- RUCKSACK_LOCK (R436): The decrypted Rucksack's tag verifies and its region is locked, or the region is zeroed. -/
  | rucksackLock
  /-- RUCKSACK_CLOSE (R437): RUCKSACK_CLOSE zeroes and unlocks the port's region. -/
  | rucksackClose (rx : Rx)
  /-- REGION_ZEROED (R437): The zeroing of a locked region completes and the region is unlocked. -/
  | regionZeroed (p : Fin 8)
  /-- GET_RECEIPT (R439): GET_RECEIPT removes and returns the oldest receipt. -/
  | getReceipt (rx : Rx)
  /-- RECEIPT_QUEUED (R439): After a counted use ends, a signed receipt joins the queue and an exhausted region is zeroed. -/
  | receiptQueued (p : Fin 8)
  /-- TAMPER_LOG (R449): TAMPER_LOG returns one tamper-log entry. -/
  | tamperLog (rx : Rx)
  /-- SET_POLICY (R429): A signed SET_POLICY replaces the owner policy and raises cred_floor. -/
  | setPolicy (rx : Rx)
  /-- UNSEAL (R445): UNSEAL lifts the seal. -/
  | unsealDevice (rx : Rx)
  /-- RELEASE (R446): A signed RELEASE zeroes the key store and returns the device to PROVISIONED. -/
  | release (rx : Rx)
  /-- TAMPER_FIRE (R444): A tamper sensor fires and the response of its class is applied. -/
  | tamperFire (fired active : BitVec 8) (off : Bool) (aon : Nat)
  /-- SEC_CHALLENGE (R451): A capture of the SEC_CHALLENGE register loads 48 fresh random bytes. -/
  | secChallenge
  /-- SEC_UNLOCK (R452): An Update-DR of SEC_UNLOCK verifies the signature and opens JTAG, or refuses and fires sensor 4. -/
  | secUnlock (sig : List Byte)
  /-- SEC_BOOT (R433): The SEC_BOOT instruction shows the boot failure. -/
  | secBoot
  /-- EXTEST (R531): EXTEST drives balls from the boundary register. -/
  | extest (balls load : BitVec 3507)
  /-- IDCODE (R531): IDCODE selects the 32-bit identification register. -/
  | idcode
  /-- SAMPLE_PRELOAD (R531): SAMPLE/PRELOAD captures ball states into and loads the boundary register. -/
  | samplePreload (balls load : BitVec 3507)
  /-- CLAMP (R531): CLAMP holds outputs from the boundary register with bypass selected. -/
  | clamp
  /-- HIGHZ (R531): HIGHZ places outputs in high impedance with bypass selected. -/
  | highz
  /-- BYPASS (R531): BYPASS selects the 1-bit bypass register. -/
  | bypass
  /-- TEMP_SAMPLE (R460): Every 1 ms the temperature sensors are sampled. -/
  | tempSampleTick (temps : List Int)
  /-- CAL_RUN (R461): A write of CAL_RUN with go makes a unit or every unit pending. -/
  | calRun (u : BitVec 7)
  /-- CAL_SCAN (R462): Once per ms the controller starts a run on the first pending unit that is idle and leasable. -/
  | calScan
  /-- CAL_RUN_DONE (R462): A calibration run completes or fails its closing check. -/
  | calRunDone (q : List Nat)
  /-- CAL_STALE (R464): A unit pending for CAL_DEFER seconds becomes stale. -/
  | calStale (u : Fin 76)
  /-- CAL_T64_WRITE (R470): A write of a CAL_T64 field sets the user value, saturating with a clip event. -/
  | calT64Write (p : Fin 256) (path : Fin 3) (c : BitVec 16)
  /-- IST_CYCLE (R471): Every CAL_IST_PERIOD ms an in-service test cycle starts. -/
  | istCycle
  /-- IST_SLICE_DONE (R472): An in-service test slice completes and records a pass or a failure. -/
  | istSliceDone (outcome : Fin 3)
  /-- CRYPTO_KAT_RETRY (R473): Every 1 s during a hold the known-answer test is repeated and may end the hold. -/
  | cryptoKatRetry (pass : Bool)
  /-- SCRUB_READ (R474): The scrub reads a line, writing back corrections and reporting uncorrectable errors. -/
  | scrubRead (k : Fin 5) (err : BitVec 640) (sram : Fin 3)
  /-- SME_COMMIT_POINT (R477): At a commit point the SME abandons, suspends or continues the running routine. -/
  | smeCommitPoint (clocks : Nat)
  /-- SME_ROUTINE_END (R476): An SME routine ends and the next or a suspended routine runs. -/
  | smeRoutineEnd
  /-- SME_FAULT (R482): An invalid microword or patch parity error ends the routine and resets the SME. -/
  | smeFault (patchRam : Bool)
  /-- EVENT_ACCEPT (R488): An event occurrence reaching the controller is accepted, latched and routed, or discarded. -/
  | eventAccept (src : Fin 512) (merged : Bool)
  /-- EVENT_LATCH_CLEAR (R489): A write-1-to-clear of EVC_LATCH clears latches and may release ALERT_N. -/
  | eventLatchClear (k : Fin 16) (v : Word)
  /-- EVT_OUT_PULSE_END (R490): A pulse-mode EVT_OUT reaches its width and goes inactive. -/
  | evtOutPulseEnd (k : Fin 8)
  /-- INPUT_EDGE (R491): An input's filtered level changes after F samples, and an active edge is accepted or overruns. -/
  | inputEdge (input : Fin 17) (level : Bool) (samples cycles : Nat)
  /-- POWER_ON_RESET (R495): Power-good declares a power-on reset. -/
  | powerOnReset (freq : Option (Fin 4)) (storeOk : Bool)
  /-- POWER_FAIL (R519): A supply out of range for 2 us drops power-good and starts a power-on reset. -/
  | powerFail
  /-- RST_N_RESET (R495): RST_N low for at least 100 ns applies a device-wide reset. -/
  | rstNReset (ns : Nat)
  /-- RST_N_RELEASE (R495): The release of RST_N ends the reset hold and starts the boot timeline of Table 17.5. -/
  | rstNRelease
  /-- WATCHDOG_SERVICE (R499): The house firmware services the watchdog and restarts its count. -/
  | watchdogService
  /-- WATCHDOG_HALF (R499): The watchdog reaches half its time-out and raises source 507. -/
  | watchdogHalf
  /-- WATCHDOG_RESET (R499): The watchdog reaches its time-out and applies a watchdog reset. -/
  | watchdogReset
  /-- TAMPER_RESET (R501): After the last action of an ERASE or SCORCH response, a tamper reset is applied. -/
  | tamperReset
  /-- QUADRANT_RESET (R500): A write of GLB_QRESET.go starts a reset of a quadrant. -/
  | quadrantReset (go : BitVec 4)
  /-- QUADRANT_RESET_DONE (R500): A quadrant reset ends and raises source 508. -/
  | quadrantResetDone (q : Fin 4)
  /-- BOOT_VERIFIED (R433): The boot chain verifies boot firmware, house firmware and patch, or stays in the boot ROM. -/
  | bootVerified (slot0 slot1 : List (List Byte)) (config : List Byte)
  /-- DEVICE_READY (R503): The device reaches READY, advances rollback counters and enables the watchdog. -/
  | deviceReady (ms : Nat)
  /-- DOMAIN_SWITCH_DONE (R507): A power-domain switch-on or switch-off completes. -/
  | domainSwitchDone (d : Fin 44)
  /-- DOMAIN_FAULT (R508): A domain out of range for 1 us is isolated, switched off and its units stopped. -/
  | domainFault (d : Fin 44)
  /-- PEB_READY (R505): PE_READY_N low for 1 ms makes a PEB bus ready. -/
  | pebReady (b : Fin 8)
  /-- PE_READY_HIGH (R505): PE_READY_Nb going high makes PEB bus b finish its present transaction and wait again for 1 ms of low level. -/
  | peReadyHigh (b : Fin 8)
  /-- PEB_TXN_GO (R516): A write of PEB_TXN with go requests a transaction, or is ignored and sets err. -/
  | pebTxnGo (b : Fin 8) (v : Word)
  /-- PEB_TXN_START (R516): With the arbiter, ready and any secret period clear, the transaction drives chip select and starts. -/
  | pebTxnStart (b : Fin 8)
  /-- PEB_TXN_DONE (R516): The last byte ends, chip select is released and done is set. -/
  | pebTxnDone (b : Fin 8) (rx : List Byte)
  /-- PEB_ABORT (R516): A write of PEB_CTL.abort ends a running transaction after its present byte. -/
  | pebAbort (b : Fin 8) (rx : List Byte)
  /-- CLOSED_ROUND_EXPIRY (R319): A formed round's closed mark expires SLK_VERDICT_TMO after it formed, and later votes for it are no longer ignored as late. -/
  | closedRoundExpiry (site round : BitVec 8)
  deriving DecidableEq, Repr

end Sys2Proof
end

