-- ==== Sys2Proof/WellFormed.lean ====
section
/-! DEFINITION. Operands that a command can have: the bounds that their types do not give. -/

namespace Sys2Proof

/-- The fields of a received frame fit their places in the datagram (Table 14.2). -/
def Rx.wf (x : Rx) : Bool :=
  decide (x.port < 2) && decide (x.mac < 2 ^ 48) && decide (x.ip < 2 ^ 128) && decide (x.uport < 2 ^ 16) &&
  decide (x.len < 2 ^ 16) && decide (x.magic < 2 ^ 16) && decide (x.version < 2 ^ 8) && decide (x.flags < 2 ^ 8) &&
  decide (x.session < 2 ^ 8) && decide (x.channel < 2 ^ 8) && decide (x.seq < 2 ^ 32) && decide (x.ack < 2 ^ 32) &&
  decide (x.sack < 2 ^ 32) && decide (x.credit < 2 ^ 32) && decide (x.length < 2 ^ 16) && decide (x.sid < 2 ^ 32) &&
  decide (x.txc < 2 ^ 32) && decide (x.payload.length < 2 ^ 16)

/-- A command is well formed: its operands are ones the outside can give. -/
def Instr.wf : Instr → Bool
  | .registerWrite addr _ => decide (addr < 0x10000000)
  | .fabricRequest _ addr _ _ => decide (addr < 2 ^ 64)
  | .fabricResponse _ addr _ _ => decide (addr < 2 ^ 64)
  | .structLoad rx => rx.wf
  | .structCheckDone => true
  | .structUnitsStopped => true
  | .structDomainsSettled => true
  | .structureCommit => true
  | .structLoadDone => true
  | .stcSwstrobe _ => true
  | .pwrDomainWrite _ _ => true
  | .vectorPeriod _ _ _ _ => true
  | .jumpRequestRegistered _ => true
  | .jumpHostReq _ => true
  | .jumpHostCancel _ => true
  | .portWaitTimeout _ => true
  | .portRun _ _ => true
  | .portStop _ _ => true
  | .portStartEvent _ => true
  | .portTrailheadReached _ => true
  | .portFirstVector _ _ _ _ _ => true
  | .bandWrite _ _ => true
  | .rambleStep _ => true
  | .rambleSweepUpdate _ => true
  | .startAdmitted _ => true
  | .admitTimeout _ => true
  | .ringZeroed _ => true
  | .streamFetch _ _ => true
  | .streamLineValid _ => true
  | .holdResume _ _ => true
  | .holdTimeout _ => true
  | .pageAuthDone _ _ addr => decide (addr < 2 ^ 64)
  | .dplRun _ _ => true
  | .dplRunOff _ _ => true
  | .dplCommit _ _ => true
  | .dplReseed _ _ => true
  | .dplHandover _ => true
  | .dplLockDeclared _ => true
  | .dplSettled _ _ => true
  | .dplLossOfLock _ => true
  | .dplHoldToAcquire _ => true
  | .dplFail _ => true
  | .dplRampUpdate _ => true
  | .dplRampSettled _ => true
  | .ceilingSuppress _ => true
  | .refAbsent => true
  | .refPresent => true
  | .tbpllMdllReady => true
  | .tbpllLocked => true
  | .tbpllUnlocked => true
  | .tbpllReturn _ _ => true
  | .tbpllAligned => true
  | .holdoverLong => true
  | .timestampWrap => true
  | .timeBaseZero _ => true
  | .trailheadArm => true
  | .tmbTrailheadReached => true
  | .phaseSampleReq _ _ => true
  | .phaseSample _ _ => true
  | .acqArm _ _ => true
  | .acqStop _ _ => true
  | .acqForce _ _ => true
  | .acqRecordPublish _ => true
  | .acqDrainRdWrite _ _ => true
  | .timArm _ _ _ _ => true
  | .timStop _ _ => true
  | .timMeasStart _ => true
  | .timEdge _ _ _ => true
  | .timResult _ _ _ _ => true
  | .timGateEnd _ => true
  | .timHistUpdate _ => true
  | .timHistClear _ _ => true
  | .timHistClearDone _ => true
  | .timDllLock _ => true
  | .timDllUnlock _ => true
  | .secretPeriodEnd _ => true
  | .wfgRun _ _ => true
  | .wfgStop _ _ => true
  | .wfgAdmitted _ => true
  | .wfgAdmitTimeout _ => true
  | .wfgTrailheadReached _ => true
  | .wfgFirstSample _ _ _ => true
  | .wfgWdCycle _ _ => true
  | .wfgRequestRegistered _ => true
  | .wfgJumpHostReq _ => true
  | .wfgJumpHostCancel _ => true
  | .wfgWaitTimeout _ => true
  | .pdacCodeWrite _ _ => true
  | .pdacGroupLoad _ _ => true
  | .pdacMatrixLoad _ => true
  | .pdacHoldEnd _ => true
  | .pdacLimit _ _ => true
  | .pdacScOff _ => true
  | .slkEnable _ => true
  | .slkDisable _ => true
  | .slkAligned => true
  | .slkInputLost => true
  | .announceTimer => true
  | .announce l _ => decide (l.length ≤ 64)
  | .vote l _ => decide (l.length ≤ 64)
  | .abandon l _ => decide (l.length ≤ 64)
  | .linkBreak l _ => decide (l.length ≤ 64)
  | .trailheadFrame l _ => decide (l.length ≤ 64)
  | .localVote => true
  | .roundTimeout _ _ => true
  | .slkThSend _ => true
  | .slkThTimeout => true
  | .schAlloc => true
  | .taskSubmit _ => true
  | .taskCancel _ => true
  | .slotReturn _ => true
  | .bindingFire _ => true
  | .schedTick => true
  | .taskWaitTimeout _ => true
  | .taskDispatch _ => true
  | .taskFinish _ _ => true
  | .taskError _ _ _ _ => true
  | .hamperRelease _ => true
  | .failRecordDrain _ => true
  | .flowReset _ _ => true
  | .coreResetDone _ => true
  | .ddrReadComplete _ _ => true
  | .ddrWriteIssued _ _ => true
  | .ddrRefresh _ _ => true
  | .ddrMr4Read _ _ => true
  | .ddrFullTrain rx => rx.wf
  | .ddrTrainDone _ _ _ => true
  | .ddrInitGranule _ => true
  | .retrainRoundStart _ => true
  | .retrainStep _ _ _ => true
  | .retrainRoundEnd _ _ => true
  | .freezeRelease _ => true
  | .diagReadRaw _ _ => true
  | .diagWritePattern _ _ => true
  | .diagDone _ _ => true
  | .retentionReturn _ _ _ line => decide (line < 2 ^ 64)
  | .cxlEnable _ => true
  | .cxlDisable _ => true
  | .cxlReenum _ => true
  | .cxlSetupResult _ width speed fail _ _ _ => decide (width ≤ 16) && decide (speed ≤ 2) && decide (fail ≤ 6)
  | .cxlRetryTimer _ => true
  | .cxlWindowEnd _ => true
  | .cxlMemdata _ _ _ => true
  | .cxlCmp _ => true
  | .cxlReadTimeout _ => true
  | .cxlRecoveryEnter _ => true
  | .cxlRecoveryExit _ => true
  | .cxlLinkDown _ => true
  | .cxlIdeFail _ => true
  | .cxlMsix _ _ => true
  | .hello rx => rx.wf
  | .confirm rx => rx.wf
  | .ack rx => rx.wf
  | .keepalive rx => rx.wf
  | .close rx => rx.wf
  | .pendingTimeout _ => true
  | .keepaliveTimer _ => true
  | .sessionTimeout _ => true
  | .resumeTimeout _ => true
  | .ackTimer _ _ => true
  | .retransmitTimer _ _ => true
  | .hamperFrameSend _ => true
  | .eventFrameSend _ => true
  | .probe rx => rx.wf
  | .csrRead rx => rx.wf
  | .csrWrite rx => rx.wf
  | .getCert rx => rx.wf
  | .warmReset rx => rx.wf
  | .calFull rx => rx.wf
  | .fwUpdate rx => rx.wf
  | .scrubFull rx => rx.wf
  | .enrol rx => rx.wf
  | .zeroize rx => rx.wf
  | .longOpEnd => true
  | .bulkWrite rx => rx.wf
  | .bulkRead rx => rx.wf
  | .arpRequest _ target mac ip => decide (target < 2 ^ 32) && decide (mac < 2 ^ 48) && decide (ip < 2 ^ 32)
  | .neighbourSolicitation _ target mac ip => decide (mac < 2 ^ 48) && decide (target < 2 ^ 128) && decide (ip < 2 ^ 128)
  | .icmpEcho _ _ target mac ip _ => decide (mac < 2 ^ 48) && decide (target < 2 ^ 128) && decide (ip < 2 ^ 128)
  | .dhcpRenew _ => true
  | .dhcpLeaseLost _ => true
  | .ethLinkUp _ => true
  | .ethLinkDown _ => true
  | .netApply _ => true
  | .dhcpLeaseObtained _ _ _ => true
  | .duplicateAddressDetection _ _ _ => true
  | .pauseFrame _ => true
  | .unknownOpcode rx => rx.wf
  | .getOwner rx => rx.wf
  | .getChallenge rx => rx.wf
  | .loadKey rx => rx.wf
  | .clearKey rx => rx.wf
  | .rucksackOpen rx => rx.wf
  | .rucksackLock => true
  | .rucksackClose rx => rx.wf
  | .regionZeroed _ => true
  | .getReceipt rx => rx.wf
  | .receiptQueued _ => true
  | .tamperLog rx => rx.wf
  | .setPolicy rx => rx.wf
  | .unsealDevice rx => rx.wf
  | .release rx => rx.wf
  | .tamperFire _ _ _ _ => true
  | .secChallenge => true
  | .secUnlock sig => decide (sig.length = 96)
  | .secBoot => true
  | .extest _ _ => true
  | .idcode => true
  | .samplePreload _ _ => true
  | .clamp => true
  | .highz => true
  | .bypass => true
  | .tempSampleTick _ => true
  | .calRun _ => true
  | .calScan => true
  | .calRunDone _ => true
  | .calStale _ => true
  | .calT64Write _ _ _ => true
  | .istCycle => true
  | .istSliceDone _ => true
  | .cryptoKatRetry _ => true
  | .scrubRead _ _ _ => true
  | .smeCommitPoint _ => true
  | .smeRoutineEnd => true
  | .smeFault _ => true
  | .eventAccept _ _ => true
  | .eventLatchClear _ _ => true
  | .evtOutPulseEnd _ => true
  | .inputEdge _ _ _ _ => true
  | .powerOnReset _ _ => true
  | .powerFail => true
  | .rstNReset _ => true
  | .rstNRelease => true
  | .watchdogService => true
  | .watchdogHalf => true
  | .watchdogReset => true
  | .tamperReset => true
  | .quadrantReset _ => true
  | .quadrantResetDone _ => true
  | .bootVerified _ _ _ => true
  | .deviceReady _ => true
  | .domainSwitchDone _ => true
  | .domainFault _ => true
  | .pebReady _ => true
  | .peReadyHigh _ => true
  | .pebTxnGo _ _ => true
  | .pebTxnStart _ => true
  | .pebTxnDone _ rx => decide (rx.length ≤ 32)
  | .pebAbort _ rx => decide (rx.length ≤ 32)
  | .closedRoundExpiry _ _ => true

end Sys2Proof
end

