-- ==== Sys2Proof/Decode.lean ====
section
/-! DEFINITION. The commands of this block have no encoding: the table of operations and events gives no row any bits. -/

namespace Sys2Proof

/-- The command that a word spells by the table's bits. No row has any, so no word spells one. -/
def decodeTableWord (_nbits _w : Nat) : Option Instr := none

end Sys2Proof
end

