-- ==== Sys2Proof/Config.lean ====
section
/-! DEFINITION. What the spec leaves open. Each constant is opaque: nothing can evaluate it, so a claim about it holds
whatever it is. The counter State.fresh supplies a new argument for each use of a free value. -/

namespace Sys2Proof.Config

/-- A free word: the value of a random draw or of a datum the spec states no value for, by its number (log entry 6). -/
opaque freeValue : Nat → BitVec 384

/-- The private scalar of the device identity key, in OTP (R424; log entry 7). -/
opaque dik : Nat

/-- The digest in boot ROM of Svakoup's firmware key (R424, R433; log entry 7). -/
opaque firmwareDigest : Nat

/-- Svakoup's provisioning key, x and y; the spec gives a digest of it in boot ROM (R424; log entry 7). -/
opaque provisioningKey : List (BitVec 8)

/-- The nonce with which the device signs a message (R402, R439; log entry 7). -/
opaque signNonce : List (BitVec 8) → Nat

/-- A microword of the ROM of the service microengine, which the spec does not publish (R480; log entry 6). -/
opaque smeRom : Nat → BitVec 144

/-- What the ROM records of its words (R481; log entry 6), in SME clocks: the longest way from a commit point to the start of the word,
and from there to a commit point. -/
opaque romBefore : Nat → Nat
opaque romAfter : Nat → Nat

/-- The longest way to a commit point from where a routine of the ROM goes on after a call (R481; log entry 6). -/
opaque romReturn : Nat

/-- The DIK certificate chain of the device (R413; log entry 7). -/
opaque certChain : List (BitVec 8)

/-- The nominal bracket pair of a TIM channel in OTP (R271; log entry 6). -/
opaque bracket : Nat → BitVec 12 × BitVec 12

/-- The calibrated centre of a tap of a TIM channel's delay line, in 2⁻¹³ ns (R272; log entry 6): channel, tap. -/
opaque tapCentre : Nat → Nat → BitVec 13

/-- The check bits of a codeword (R357); the check matrix is not published (R358; log entry 6). -/
opaque checkBits : BitVec 64 → BitVec 16

/-- What the decoder makes of a codeword of 80 bits that is not as it was stored in more than two symbols, or that no write encoded
(R358; log entry 6): it depends on the check matrix. 0: detected; 1: taken as it is; else corrected, rightly or wrongly. -/
opaque decodeRaw : BitVec 80 → Nat

/-- Whether the rms of a TIM_JITTER record is taken about the mean or about 0, which the spec does not state (R345; log entry 6). -/
opaque rmsAboutMean : Bool

/-- The text that DATALOG writes for a value that is neither an integer nor a number in floating point (R346; log entry 6): the
bytes of the field. -/
opaque fieldText : List (BitVec 8) → List (BitVec 8)

end Sys2Proof.Config
end

