-- ==== Sys2Proof/Machine/Cells.lean ====
section
/-! DEFINITION. Sparse storage in canonical form: a list of (key, value) pairs with strictly rising keys, in which no
pair holds what its key reads as when it is not listed. Two stores that read alike are equal lists. The register file
and the memory are both kept so. -/

namespace Sys2Proof.Machine

/-- What key `k` reads as; `dflt k` where it is not listed. -/
def cellsGet {α : Type} (dflt : Nat → α) : List (Nat × α) → Nat → α
  | [], k => dflt k
  | (j, v) :: l, k => if j = k then v else if k < j then dflt k else cellsGet dflt l k

/-- Put `v` at key `k`; a key whose value is its default is not listed. -/
def cellsSet {α : Type} [DecidableEq α] (dflt : Nat → α) : List (Nat × α) → Nat → α → List (Nat × α)
  | [], k, v => if v = dflt k then [] else [(k, v)]
  | (j, u) :: l, k, v =>
    if k < j then (if v = dflt k then (j, u) :: l else (k, v) :: (j, u) :: l)
    else if j = k then (if v = dflt k then l else (k, v) :: l)
    else (j, u) :: cellsSet dflt l k v

/-- Every key for which `p` holds reads as its default again. -/
def cellsClear {α : Type} (p : Nat → Bool) (l : List (Nat × α)) : List (Nat × α) :=
  l.filter fun c => !p c.1

/-- The canonical form. -/
def cellsWf {α : Type} [DecidableEq α] (dflt : Nat → α) : List (Nat × α) → Bool
  | [] => true
  | (k, v) :: l => decide (v ≠ dflt k) && l.all (fun c => decide (k < c.1)) && cellsWf dflt l

end Sys2Proof.Machine
end

