-- ==== Sys2Proof/Machine/Regs.lean ====
section
/-! DEFINITION. The register map of the device: the blocks of R50 and R51 (Tables 1.7 and 1.8), and in each block its
registers as the register tables of the spec give them: offset, fields, access types and reset values (R13, R14, Table 0.4).
A bit that no field names is reserved (RSV): it reads 0 and a write to it is ignored. -/

namespace Sys2Proof.Machine

/-- The access types of Table 0.4 other than RSV. -/
inductive Access where
  | rw | ro | w1c | w1s | wo | rwl
  deriving DecidableEq, Repr

/-- One field of a register: bits `lo + w - 1 : lo`, its access type and its reset value. -/
structure RegField where
  lo : Nat
  w : Nat
  acc : Access
  reset : Nat
  deriving DecidableEq, Repr

/-- One register, or `count` like registers `stride` bytes apart, at offset `off` of its block. -/
structure Reg where
  name : String
  off : Nat
  count : Nat
  stride : Nat
  fields : List RegField
  deriving DecidableEq, Repr

/-- The blocks of Tables 1.7 and 1.8. `tbins` is the histogram memory of a TIM block, `timc` its common registers,
`pdcg` the group-load register of a PDC block. -/
inductive Blk where
  | glb | stc | evc | tmb | sec | sme | cal | sch | net | slk | pwr | peb | dmc | cxh
  | prt | acq | tim | timc | tbins | wfg | pdc | pdcg | oct | tst | dpl | seg
  deriving DecidableEq, Repr

/-- A named field of one register of the map: its address and its bits. -/
structure Fld where
  addr : Nat
  lo : Nat
  w : Nat
  deriving DecidableEq, Repr

/-! ## Block bases (Tables 1.7 and 1.8) -/

def GLB : Nat := 0x00000000
def STC : Nat := 0x00010000
def EVC : Nat := 0x00020000
def TMB : Nat := 0x00030000
def SEC : Nat := 0x00040000
def SME : Nat := 0x00050000
def CAL : Nat := 0x00060000
def SCH : Nat := 0x00070000
def NET : Nat := 0x00080000
def SLK : Nat := 0x00090000
def PWR : Nat := 0x000A0000
def PEB (b : Nat) : Nat := 0x000B0000 + 0x100 * b
def DMC (c : Nat) : Nat := 0x00100000 + 0x10000 * c
def CXH : Nat := 0x00180000
def SEG : Nat := 0x02000000
/-- Quadrant window q (Table 1.7). -/
def QWIN (q : Nat) : Nat := 0x01000000 + 0x00400000 * q
def PRT (n : Nat) : Nat := QWIN (n / 2) + 0x00080000 * (n % 2)
def ACQ (e : Nat) : Nat := QWIN (e / 2) + 0x00100000 + 0x00040000 * (e % 2)
def TIM (t : Nat) : Nat := QWIN (t / 8) + 0x00180000 + 0x100 * (t % 8)
def TIMC (q : Nat) : Nat := QWIN q + 0x0018F000
def BIN (t : Nat) : Nat := QWIN (t / 8) + 0x001A0000 + 0x4000 * (t % 8)
def WFG (m : Nat) : Nat := QWIN m + 0x001C0000
def PDC (u : Nat) : Nat := QWIN (u / 4) + 0x00200000 + 0x40 * (u % 4)
def PDCG (q : Nat) : Nat := QWIN q + 0x00200F00
def OCT (o : Nat) : Nat := QWIN (o / 8) + 0x00240000 + 0x1000 * (o % 8)
def TST (n : Nat) : Nat := QWIN (n / 2) + 0x00280000 + 0x00040000 * (n % 2)
/-- DPL slots: 0 and 1 are the port PLLs, 2 the waveform PLL of the quadrant. -/
def DPL (d : Nat) : Nat :=
  if d < 8 then QWIN (d / 2) + 0x00300000 + 0x1000 * (d % 2) else QWIN (d - 8) + 0x00302000

/-! ## Register addresses and fields -/

-- Table 2.14
def STC_STATUS : Nat := STC + 0x000
def STC_STATUS_state : Fld := ⟨STC_STATUS, 0, 2⟩
def STC_STATUS_last_scope : Fld := ⟨STC_STATUS, 2, 3⟩
def STC_STATUS_rwl_ignored : Fld := ⟨STC_STATUS, 8, 1⟩
def STC_STATUS_policy_raised : Fld := ⟨STC_STATUS, 9, 1⟩
-- Table 2.15
def STC_LOAD_RESULT : Nat := STC + 0x004
def STC_LOAD_RESULT_code : Fld := ⟨STC_LOAD_RESULT, 0, 8⟩
def STC_LOAD_RESULT_section : Fld := ⟨STC_LOAD_RESULT, 8, 8⟩
def STC_LOAD_RESULT_offset : Fld := ⟨STC_LOAD_RESULT, 16, 16⟩
-- Table 2.16
def STC_SERIAL_DEV : Nat := STC + 0x008
def STC_SERIAL_DEV_serial : Fld := ⟨STC_SERIAL_DEV, 0, 32⟩
def STC_SERIAL_Q (i : Nat) : Nat := STC + 0x010 + 4 * i
def STC_SERIAL_Q_serial (i : Nat) : Fld := ⟨STC_SERIAL_Q i, 0, 32⟩
-- Table 2.17
def STC_RWL_IGNORED : Nat := STC + 0x020
def STC_RWL_IGNORED_count : Fld := ⟨STC_RWL_IGNORED, 0, 32⟩
-- Table 2.18
def STC_OCT_OWNER (i : Nat) : Nat := STC + 0x030 + 4 * i
def STC_OCT_OWNER_octet_owner (i : Nat) : Fld := ⟨STC_OCT_OWNER i, 0, 16⟩
def STC_OCT_OWNER_site_a (i : Nat) : Fld := ⟨STC_OCT_OWNER i, 16, 8⟩
def STC_OCT_OWNER_site_b (i : Nat) : Fld := ⟨STC_OCT_OWNER i, 24, 8⟩
-- Table 2.19
def STC_BANK_OWNER (i : Nat) : Nat := STC + 0x040 + 4 * i
def STC_BANK_OWNER_owners (i : Nat) : Fld := ⟨STC_BANK_OWNER i, 0, 32⟩
-- Table 2.20
def STC_POWER_LO : Nat := STC + 0x070
def STC_POWER_LO_mask : Fld := ⟨STC_POWER_LO, 0, 32⟩
def STC_POWER_HI : Nat := STC + 0x074
def STC_POWER_HI_mask : Fld := ⟨STC_POWER_HI, 0, 32⟩
-- Table 2.21
def STC_SWSTROBE : Nat := STC + 0x080
def STC_SWSTROBE_strobe : Fld := ⟨STC_SWSTROBE, 0, 8⟩
-- Table 3.14
def PRT_TIMING_CTL (n : Nat) : Nat := PRT n + 0x100
def PRT_TIMING_CTL_band (n : Nat) : Fld := ⟨PRT_TIMING_CTL n, 0, 2⟩
-- Table 3.15
def PRT_TMG_STATUS (n : Nat) : Nat := PRT n + 0x104
def PRT_TMG_STATUS_code (n : Nat) : Fld := ⟨PRT_TMG_STATUS n, 0, 4⟩
def PRT_TMG_STATUS_aborted (n : Nat) : Fld := ⟨PRT_TMG_STATUS n, 4, 1⟩
def PRT_TMG_STATUS_pin (n : Nat) : Fld := ⟨PRT_TMG_STATUS n, 8, 8⟩
def PRT_TMG_STATUS_timeset (n : Nat) : Fld := ⟨PRT_TMG_STATUS n, 16, 10⟩
-- Table 3.16
def PRT_TMG_VEC_LO (n : Nat) : Nat := PRT n + 0x108
def PRT_TMG_VEC_LO_vector (n : Nat) : Fld := ⟨PRT_TMG_VEC_LO n, 0, 32⟩
def PRT_TMG_VEC_HI (n : Nat) : Nat := PRT n + 0x10C
def PRT_TMG_VEC_HI_vector (n : Nat) : Fld := ⟨PRT_TMG_VEC_HI n, 0, 32⟩
-- Table 3.17
def PRT_TMG_ADDR_LO (n : Nat) : Nat := PRT n + 0x110
def PRT_TMG_ADDR_LO_addr (n : Nat) : Fld := ⟨PRT_TMG_ADDR_LO n, 0, 32⟩
def PRT_TMG_ADDR_HI (n : Nat) : Nat := PRT n + 0x114
def PRT_TMG_ADDR_HI_addr (n : Nat) : Fld := ⟨PRT_TMG_ADDR_HI n, 0, 32⟩
-- Table 3.18
def PRT_ADJ_TOTAL (n : Nat) : Nat := PRT n + 0x118
def PRT_ADJ_TOTAL_count (n : Nat) : Fld := ⟨PRT_ADJ_TOTAL n, 0, 32⟩
-- Table 3.19
def PRT_PINS (n : Nat) : Nat := PRT n + 0x11C
def PRT_PINS_count (n : Nat) : Fld := ⟨PRT_PINS n, 0, 7⟩
-- Table 3.20
def OCT_PIN_CFG (o i : Nat) : Nat := OCT o + 0x000 + 4 * i
def OCT_PIN_CFG_tgroup (o i : Nat) : Fld := ⟨OCT_PIN_CFG o i, 0, 3⟩
def OCT_PIN_CFG_cap_src (o i : Nat) : Fld := ⟨OCT_PIN_CFG o i, 3, 1⟩
def OCT_PIN_CFG_cmp_mask (o i : Nat) : Fld := ⟨OCT_PIN_CFG o i, 4, 1⟩
-- Table 3.21
def OCT_PIN_OFS (o i : Nat) : Nat := OCT o + 0x020 + 4 * i
def OCT_PIN_OFS_drive_ofs (o i : Nat) : Fld := ⟨OCT_PIN_OFS o i, 0, 16⟩
def OCT_PIN_OFS_cmp_ofs (o i : Nat) : Fld := ⟨OCT_PIN_OFS o i, 16, 16⟩
-- Table 3.22
def OCT_ADJ_CNT (o i : Nat) : Nat := OCT o + 0x040 + 4 * i
def OCT_ADJ_CNT_count (o i : Nat) : Fld := ⟨OCT_ADJ_CNT o i, 0, 32⟩
-- Table 4.11
def PRT_SEQ_CTL (n : Nat) : Nat := PRT n + 0x000
def PRT_SEQ_CTL_run (n : Nat) : Fld := ⟨PRT_SEQ_CTL n, 0, 1⟩
def PRT_SEQ_CTL_start_mode (n : Nat) : Fld := ⟨PRT_SEQ_CTL n, 2, 2⟩
def PRT_SEQ_CTL_start_evt (n : Nat) : Fld := ⟨PRT_SEQ_CTL n, 4, 2⟩
-- Table 4.12
def PRT_SEQ_START (n : Nat) : Nat := PRT n + 0x004
def PRT_SEQ_START_entry (n : Nat) : Fld := ⟨PRT_SEQ_START n, 0, 16⟩
-- Table 4.13
def PRT_SEQ_STATUS (n : Nat) : Nat := PRT n + 0x008
def PRT_SEQ_STATUS_state (n : Nat) : Fld := ⟨PRT_SEQ_STATUS n, 0, 4⟩
def PRT_SEQ_STATUS_cause (n : Nat) : Fld := ⟨PRT_SEQ_STATUS n, 4, 4⟩
def PRT_SEQ_STATUS_code (n : Nat) : Fld := ⟨PRT_SEQ_STATUS n, 8, 4⟩
def PRT_SEQ_STATUS_done (n : Nat) : Fld := ⟨PRT_SEQ_STATUS n, 12, 1⟩
def PRT_SEQ_STATUS_aborted (n : Nat) : Fld := ⟨PRT_SEQ_STATUS n, 13, 1⟩
def PRT_SEQ_STATUS_cancelled (n : Nat) : Fld := ⟨PRT_SEQ_STATUS n, 14, 1⟩
-- Table 4.14
def PRT_SEQ_ENTRY (n : Nat) : Nat := PRT n + 0x00C
def PRT_SEQ_ENTRY_entry (n : Nat) : Fld := ⟨PRT_SEQ_ENTRY n, 0, 16⟩
def PRT_SEQ_ENTRY_depth (n : Nat) : Fld := ⟨PRT_SEQ_ENTRY n, 16, 5⟩
-- Table 4.15
def PRT_SEQ_PASS (n : Nat) : Nat := PRT n + 0x010
def PRT_SEQ_PASS_pass (n : Nat) : Fld := ⟨PRT_SEQ_PASS n, 0, 32⟩
-- Table 4.16
def PRT_SEQ_VEC_LO (n : Nat) : Nat := PRT n + 0x018
def PRT_SEQ_VEC_LO_vector (n : Nat) : Fld := ⟨PRT_SEQ_VEC_LO n, 0, 32⟩
def PRT_SEQ_VEC_HI (n : Nat) : Nat := PRT n + 0x01C
def PRT_SEQ_VEC_HI_vector (n : Nat) : Fld := ⟨PRT_SEQ_VEC_HI n, 0, 32⟩
-- Table 4.17
def PRT_TRAILHEAD_LO (n : Nat) : Nat := PRT n + 0x020
def PRT_TRAILHEAD_LO_ts (n : Nat) : Fld := ⟨PRT_TRAILHEAD_LO n, 0, 32⟩
def PRT_TRAILHEAD_HI (n : Nat) : Nat := PRT n + 0x024
def PRT_TRAILHEAD_HI_ts (n : Nat) : Fld := ⟨PRT_TRAILHEAD_HI n, 0, 32⟩
def PRT_TRAILHEAD_EP (n : Nat) : Nat := PRT n + 0x028
def PRT_TRAILHEAD_EP_epoch (n : Nat) : Fld := ⟨PRT_TRAILHEAD_EP n, 0, 16⟩
-- Table 4.18
def PRT_START_TS_LO (n : Nat) : Nat := PRT n + 0x030
def PRT_START_TS_LO_ts (n : Nat) : Fld := ⟨PRT_START_TS_LO n, 0, 32⟩
def PRT_START_TS_HI (n : Nat) : Nat := PRT n + 0x034
def PRT_START_TS_HI_ts (n : Nat) : Fld := ⟨PRT_START_TS_HI n, 0, 32⟩
def PRT_START_EP (n : Nat) : Nat := PRT n + 0x038
def PRT_START_EP_epoch (n : Nat) : Fld := ⟨PRT_START_EP n, 0, 16⟩
-- Table 4.19
def PRT_JUMP_HOST (n : Nat) : Nat := PRT n + 0x040
def PRT_JUMP_HOST_req (n : Nat) : Fld := ⟨PRT_JUMP_HOST n, 0, 1⟩
def PRT_JUMP_HOST_cancel (n : Nat) : Fld := ⟨PRT_JUMP_HOST n, 1, 1⟩
-- Table 4.20
def PRT_JUMP_STATUS (n : Nat) : Nat := PRT n + 0x044
def PRT_JUMP_STATUS_pending (n : Nat) : Fld := ⟨PRT_JUMP_STATUS n, 0, 1⟩
def PRT_JUMP_STATUS_cond (n : Nat) : Fld := ⟨PRT_JUMP_STATUS n, 1, 4⟩
def PRT_JUMP_STATUS_producer (n : Nat) : Fld := ⟨PRT_JUMP_STATUS n, 16, 16⟩
-- Table 4.21
def PRT_JUMP_TAKEN (n : Nat) : Nat := PRT n + 0x048
def PRT_JUMP_TAKEN_count (n : Nat) : Fld := ⟨PRT_JUMP_TAKEN n, 0, 32⟩
def PRT_JUMP_REPLACED (n : Nat) : Nat := PRT n + 0x04C
def PRT_JUMP_REPLACED_count (n : Nat) : Fld := ⟨PRT_JUMP_REPLACED n, 0, 32⟩
-- Table 4.22
def PRT_WINDOW (n : Nat) : Nat := PRT n + 0x050
def PRT_WINDOW_w (n : Nat) : Fld := ⟨PRT_WINDOW n, 0, 10⟩
def PRT_WINDOW_lmin (n : Nat) : Fld := ⟨PRT_WINDOW n, 16, 7⟩
-- Table 4.23
def PRT_WAIT_STATUS (n : Nat) : Nat := PRT n + 0x054
def PRT_WAIT_STATUS_result (n : Nat) : Fld := ⟨PRT_WAIT_STATUS n, 0, 2⟩
def PRT_WAIT_STATUS_entry (n : Nat) : Fld := ⟨PRT_WAIT_STATUS n, 16, 16⟩
def PRT_WAIT_PASSES (n : Nat) : Nat := PRT n + 0x058
def PRT_WAIT_PASSES_passes (n : Nat) : Fld := ⟨PRT_WAIT_PASSES n, 0, 32⟩
-- Table 4.24
def PRT_VERDICT_LATCH (n : Nat) : Nat := PRT n + 0x05C
def PRT_VERDICT_LATCH_site (n : Nat) : Fld := ⟨PRT_VERDICT_LATCH n, 0, 8⟩
def PRT_VERDICT_LATCH_fail (n : Nat) : Fld := ⟨PRT_VERDICT_LATCH n, 8, 1⟩
def PRT_VERDICT_LATCH_valid (n : Nat) : Fld := ⟨PRT_VERDICT_LATCH n, 9, 1⟩
-- Table 4.25
def PRT_MATCH_LO (n i : Nat) : Nat := PRT n + 0x060 + 8 * i
def PRT_MATCH_LO_pins (n i : Nat) : Fld := ⟨PRT_MATCH_LO n i, 0, 32⟩
def PRT_MATCH_HI (n i : Nat) : Nat := PRT n + 0x064 + 8 * i
def PRT_MATCH_HI_pins (n i : Nat) : Fld := ⟨PRT_MATCH_HI n i, 0, 32⟩
-- Table 4.26
def PRT_RET_STACK (n i : Nat) : Nat := PRT n + 0x0A0 + 4 * i
def PRT_RET_STACK_entry (n i : Nat) : Fld := ⟨PRT_RET_STACK n i, 0, 16⟩
-- Table 4.27
def PRT_MARKER (n : Nat) : Nat := PRT n + 0x0E0
def PRT_MARKER_level (n : Nat) : Fld := ⟨PRT_MARKER n, 0, 4⟩
-- Table 4.28
def PRT_RAMBLE_CTL (n : Nat) : Nat := PRT n + 0x200
def PRT_RAMBLE_CTL_mode (n : Nat) : Fld := ⟨PRT_RAMBLE_CTL n, 0, 2⟩
def PRT_RAMBLE_CTL_log_en (n : Nat) : Fld := ⟨PRT_RAMBLE_CTL n, 2, 1⟩
-- Table 4.29
def PRT_RAMBLE_STEP (n : Nat) : Nat := PRT n + 0x204
def PRT_RAMBLE_STEP_step (n : Nat) : Fld := ⟨PRT_RAMBLE_STEP n, 0, 32⟩
def PRT_RAMBLE_DWELL (n : Nat) : Nat := PRT n + 0x208
def PRT_RAMBLE_DWELL_dwell (n : Nat) : Fld := ⟨PRT_RAMBLE_DWELL n, 0, 32⟩
def PRT_RAMBLE_SLEW (n : Nat) : Nat := PRT n + 0x20C
def PRT_RAMBLE_SLEW_slew (n : Nat) : Fld := ⟨PRT_RAMBLE_SLEW n, 0, 32⟩
def PRT_RAMBLE_LIMIT (n : Nat) : Nat := PRT n + 0x210
def PRT_RAMBLE_LIMIT_limit (n : Nat) : Fld := ⟨PRT_RAMBLE_LIMIT n, 0, 32⟩
def PRT_RAMBLE_OFS (n : Nat) : Nat := PRT n + 0x214
def PRT_RAMBLE_OFS_ofs (n : Nat) : Fld := ⟨PRT_RAMBLE_OFS n, 0, 32⟩
-- Table 4.30
def PRT_RAMBLE_STATUS (n : Nat) : Nat := PRT n + 0x218
def PRT_RAMBLE_STATUS_active (n : Nat) : Fld := ⟨PRT_RAMBLE_STATUS n, 0, 1⟩
def PRT_RAMBLE_STATUS_refused (n : Nat) : Fld := ⟨PRT_RAMBLE_STATUS n, 1, 1⟩
def PRT_RAMBLE_STATUS_band_hold (n : Nat) : Fld := ⟨PRT_RAMBLE_STATUS n, 2, 1⟩
def PRT_RAMBLE_STATUS_at_limit (n : Nat) : Fld := ⟨PRT_RAMBLE_STATUS n, 3, 1⟩
-- Table 4.31
def PRT_RAMBLE_LOG_BASE_LO (n : Nat) : Nat := PRT n + 0x220
def PRT_RAMBLE_LOG_BASE_LO_addr (n : Nat) : Fld := ⟨PRT_RAMBLE_LOG_BASE_LO n, 0, 32⟩
def PRT_RAMBLE_LOG_BASE_HI (n : Nat) : Nat := PRT n + 0x224
def PRT_RAMBLE_LOG_BASE_HI_addr (n : Nat) : Fld := ⟨PRT_RAMBLE_LOG_BASE_HI n, 0, 32⟩
def PRT_RAMBLE_LOG_SIZE (n : Nat) : Nat := PRT n + 0x228
def PRT_RAMBLE_LOG_SIZE_size (n : Nat) : Fld := ⟨PRT_RAMBLE_LOG_SIZE n, 0, 5⟩
def PRT_RAMBLE_LOG_WR (n : Nat) : Nat := PRT n + 0x22C
def PRT_RAMBLE_LOG_WR_wr (n : Nat) : Fld := ⟨PRT_RAMBLE_LOG_WR n, 0, 32⟩
def PRT_RAMBLE_LOG_RD (n : Nat) : Nat := PRT n + 0x230
def PRT_RAMBLE_LOG_RD_rd (n : Nat) : Fld := ⟨PRT_RAMBLE_LOG_RD n, 0, 32⟩
def PRT_RAMBLE_LOG_DROP (n : Nat) : Nat := PRT n + 0x234
def PRT_RAMBLE_LOG_DROP_count (n : Nat) : Fld := ⟨PRT_RAMBLE_LOG_DROP n, 0, 32⟩
-- Table 5.6
def PRT_STRM_RING (n : Nat) : Nat := PRT n + 0x300
def PRT_STRM_RING_size (n : Nat) : Fld := ⟨PRT_STRM_RING n, 0, 11⟩
-- Table 5.7
def PRT_STRM_PRIME (n : Nat) : Nat := PRT n + 0x304
def PRT_STRM_PRIME_prime (n : Nat) : Fld := ⟨PRT_STRM_PRIME n, 0, 11⟩
def PRT_STRM_PRIME_panic (n : Nat) : Fld := ⟨PRT_STRM_PRIME n, 16, 11⟩
def PRT_STRM_PRIME_low (n : Nat) : Fld := ⟨PRT_STRM_PRIME n, 27, 5⟩
-- Table 5.8
def PRT_STRM_DEMAND_NEAR (n : Nat) : Nat := PRT n + 0x308
def PRT_STRM_DEMAND_NEAR_mbps (n : Nat) : Fld := ⟨PRT_STRM_DEMAND_NEAR n, 0, 31⟩
def PRT_STRM_DEMAND_NEAR_enc (n : Nat) : Fld := ⟨PRT_STRM_DEMAND_NEAR n, 31, 1⟩
def PRT_STRM_DEMAND_FAR (n : Nat) : Nat := PRT n + 0x30C
def PRT_STRM_DEMAND_FAR_mbps (n : Nat) : Fld := ⟨PRT_STRM_DEMAND_FAR n, 0, 31⟩
def PRT_STRM_DEMAND_FAR_enc (n : Nat) : Fld := ⟨PRT_STRM_DEMAND_FAR n, 31, 1⟩
-- Table 5.9
def PRT_STRM_ADMIT_TMO (n : Nat) : Nat := PRT n + 0x310
def PRT_STRM_ADMIT_TMO_ms (n : Nat) : Fld := ⟨PRT_STRM_ADMIT_TMO n, 0, 16⟩
def PRT_STRM_HOLD_TMO (n : Nat) : Nat := PRT n + 0x314
def PRT_STRM_HOLD_TMO_us (n : Nat) : Fld := ⟨PRT_STRM_HOLD_TMO n, 0, 24⟩
-- Table 5.10
def PRT_STRM_KEY (n : Nat) : Nat := PRT n + 0x318
def PRT_STRM_KEY_slot (n : Nat) : Fld := ⟨PRT_STRM_KEY n, 0, 6⟩
def PRT_STRM_IMAGE (n : Nat) : Nat := PRT n + 0x31C
def PRT_STRM_IMAGE_id (n : Nat) : Fld := ⟨PRT_STRM_IMAGE n, 0, 32⟩
-- Table 5.11
def PRT_STRM_TAG_NEAR_LO (n : Nat) : Nat := PRT n + 0x320
def PRT_STRM_TAG_NEAR_LO_addr (n : Nat) : Fld := ⟨PRT_STRM_TAG_NEAR_LO n, 0, 32⟩
def PRT_STRM_TAG_NEAR_HI (n : Nat) : Nat := PRT n + 0x324
def PRT_STRM_TAG_NEAR_HI_addr (n : Nat) : Fld := ⟨PRT_STRM_TAG_NEAR_HI n, 0, 32⟩
def PRT_STRM_TAG_FAR_LO (n : Nat) : Nat := PRT n + 0x328
def PRT_STRM_TAG_FAR_LO_addr (n : Nat) : Fld := ⟨PRT_STRM_TAG_FAR_LO n, 0, 32⟩
def PRT_STRM_TAG_FAR_HI (n : Nat) : Nat := PRT n + 0x32C
def PRT_STRM_TAG_FAR_HI_addr (n : Nat) : Fld := ⟨PRT_STRM_TAG_FAR_HI n, 0, 32⟩
-- Table 5.12
def PRT_STRM_STATUS (n : Nat) : Nat := PRT n + 0x330
def PRT_STRM_STATUS_code (n : Nat) : Fld := ⟨PRT_STRM_STATUS n, 0, 5⟩
def PRT_STRM_STATUS_adm (n : Nat) : Fld := ⟨PRT_STRM_STATUS n, 8, 4⟩
def PRT_STRM_STATUS_admitted (n : Nat) : Fld := ⟨PRT_STRM_STATUS n, 12, 1⟩
def PRT_STRM_STATUS_panic (n : Nat) : Fld := ⟨PRT_STRM_STATUS n, 13, 1⟩
def PRT_STRM_STATUS_hold (n : Nat) : Fld := ⟨PRT_STRM_STATUS n, 14, 1⟩
def PRT_STRM_STATUS_abort_seen (n : Nat) : Fld := ⟨PRT_STRM_STATUS n, 16, 1⟩
def PRT_STRM_STATUS_hold_seen (n : Nat) : Fld := ⟨PRT_STRM_STATUS n, 17, 1⟩
def PRT_STRM_STATUS_low_seen (n : Nat) : Fld := ⟨PRT_STRM_STATUS n, 18, 1⟩
def PRT_STRM_STATUS_auth_fail (n : Nat) : Fld := ⟨PRT_STRM_STATUS n, 19, 1⟩
-- Table 5.13
def PRT_STRM_VEC_LO (n : Nat) : Nat := PRT n + 0x334
def PRT_STRM_VEC_LO_vector (n : Nat) : Fld := ⟨PRT_STRM_VEC_LO n, 0, 32⟩
def PRT_STRM_VEC_HI (n : Nat) : Nat := PRT n + 0x338
def PRT_STRM_VEC_HI_vector (n : Nat) : Fld := ⟨PRT_STRM_VEC_HI n, 0, 32⟩
def PRT_STRM_ADDR_LO (n : Nat) : Nat := PRT n + 0x33C
def PRT_STRM_ADDR_LO_addr (n : Nat) : Fld := ⟨PRT_STRM_ADDR_LO n, 0, 32⟩
def PRT_STRM_ADDR_HI (n : Nat) : Nat := PRT n + 0x340
def PRT_STRM_ADDR_HI_addr (n : Nat) : Fld := ⟨PRT_STRM_ADDR_HI n, 0, 32⟩
def PRT_STRM_FILL (n : Nat) : Nat := PRT n + 0x344
def PRT_STRM_FILL_bytes (n : Nat) : Fld := ⟨PRT_STRM_FILL n, 0, 27⟩
def PRT_STRM_MINFILL (n : Nat) : Nat := PRT n + 0x348
def PRT_STRM_MINFILL_bytes (n : Nat) : Fld := ⟨PRT_STRM_MINFILL n, 0, 27⟩
-- Table 5.14
def PRT_STRM_HOLD_CNT (n : Nat) : Nat := PRT n + 0x34C
def PRT_STRM_HOLD_CNT_count (n : Nat) : Fld := ⟨PRT_STRM_HOLD_CNT n, 0, 32⟩
def PRT_STRM_HOLD_LAST (n : Nat) : Nat := PRT n + 0x350
def PRT_STRM_HOLD_LAST_ns (n : Nat) : Fld := ⟨PRT_STRM_HOLD_LAST n, 0, 32⟩
def PRT_STRM_HOLD_TOTAL (n : Nat) : Nat := PRT n + 0x354
def PRT_STRM_HOLD_TOTAL_us (n : Nat) : Fld := ⟨PRT_STRM_HOLD_TOTAL n, 0, 32⟩
def PRT_STRM_PANIC_CNT (n : Nat) : Nat := PRT n + 0x358
def PRT_STRM_PANIC_CNT_count (n : Nat) : Fld := ⟨PRT_STRM_PANIC_CNT n, 0, 32⟩
def PRT_STRM_BYTES_LO (n : Nat) : Nat := PRT n + 0x360
def PRT_STRM_BYTES_LO_bytes (n : Nat) : Fld := ⟨PRT_STRM_BYTES_LO n, 0, 32⟩
def PRT_STRM_BYTES_HI (n : Nat) : Nat := PRT n + 0x364
def PRT_STRM_BYTES_HI_bytes (n : Nat) : Fld := ⟨PRT_STRM_BYTES_HI n, 0, 32⟩
-- Table 6.7
def DPL_CTL (d : Nat) : Nat := DPL d + 0x000
def DPL_CTL_run (d : Nat) : Fld := ⟨DPL_CTL d, 0, 1⟩
def DPL_CTL_commit (d : Nat) : Fld := ⟨DPL_CTL d, 1, 1⟩
def DPL_CTL_dither (d : Nat) : Fld := ⟨DPL_CTL d, 2, 1⟩
def DPL_CTL_reseed (d : Nat) : Fld := ⟨DPL_CTL d, 3, 1⟩
-- Table 6.8
def DPL_INT (d : Nat) : Nat := DPL d + 0x004
def DPL_INT_int (d : Nat) : Fld := ⟨DPL_INT d, 0, 7⟩
def DPL_FRAC (d : Nat) : Nat := DPL d + 0x008
def DPL_FRAC_frac (d : Nat) : Fld := ⟨DPL_FRAC d, 0, 32⟩
def DPL_ODIV (d : Nat) : Nat := DPL d + 0x00C
def DPL_ODIV_odiv (d : Nat) : Fld := ⟨DPL_ODIV d, 0, 11⟩
-- Table 6.9
def DPL_SEED (d : Nat) : Nat := DPL d + 0x010
def DPL_SEED_seed (d : Nat) : Fld := ⟨DPL_SEED d, 0, 31⟩
def DPL_SLEW (d : Nat) : Nat := DPL d + 0x014
def DPL_SLEW_slew (d : Nat) : Fld := ⟨DPL_SLEW d, 0, 16⟩
-- Table 6.10
def DPL_STATUS (d : Nat) : Nat := DPL d + 0x018
def DPL_STATUS_state (d : Nat) : Fld := ⟨DPL_STATUS d, 0, 3⟩
def DPL_STATUS_locked (d : Nat) : Fld := ⟨DPL_STATUS d, 3, 1⟩
def DPL_STATUS_settling (d : Nat) : Fld := ⟨DPL_STATUS d, 4, 1⟩
def DPL_STATUS_m (d : Nat) : Fld := ⟨DPL_STATUS d, 5, 3⟩
def DPL_STATUS_refused (d : Nat) : Fld := ⟨DPL_STATUS d, 8, 1⟩
def DPL_STATUS_fail (d : Nat) : Fld := ⟨DPL_STATUS d, 9, 1⟩
def DPL_STATUS_lost (d : Nat) : Fld := ⟨DPL_STATUS d, 10, 1⟩
-- Table 6.11
def DPL_ACT_INT (d : Nat) : Nat := DPL d + 0x01C
def DPL_ACT_INT_int (d : Nat) : Fld := ⟨DPL_ACT_INT d, 0, 7⟩
def DPL_ACT_FRAC (d : Nat) : Nat := DPL d + 0x020
def DPL_ACT_FRAC_frac (d : Nat) : Fld := ⟨DPL_ACT_FRAC d, 0, 32⟩
def DPL_RELOCK_CNT (d : Nat) : Nat := DPL d + 0x024
def DPL_RELOCK_CNT_count (d : Nat) : Fld := ⟨DPL_RELOCK_CNT d, 0, 32⟩
def DPL_RELOCK_LAST (d : Nat) : Nat := DPL d + 0x028
def DPL_RELOCK_LAST_ns (d : Nat) : Fld := ⟨DPL_RELOCK_LAST d, 0, 32⟩
def DPL_CEIL_CNT (d : Nat) : Nat := DPL d + 0x02C
def DPL_CEIL_CNT_count (d : Nat) : Fld := ⟨DPL_CEIL_CNT d, 0, 32⟩
-- Table 6.12
def DPL_PHASE_CTL (d : Nat) : Nat := DPL d + 0x030
def DPL_PHASE_CTL_mode (d : Nat) : Fld := ⟨DPL_PHASE_CTL d, 0, 2⟩
def DPL_PHASE_CTL_sample (d : Nat) : Fld := ⟨DPL_PHASE_CTL d, 2, 1⟩
def DPL_PHASE_TS_LO (d : Nat) : Nat := DPL d + 0x034
def DPL_PHASE_TS_LO_ts (d : Nat) : Fld := ⟨DPL_PHASE_TS_LO d, 0, 32⟩
def DPL_PHASE_TS_HI (d : Nat) : Nat := DPL d + 0x038
def DPL_PHASE_TS_HI_ts (d : Nat) : Fld := ⟨DPL_PHASE_TS_HI d, 0, 32⟩
def DPL_PHASE_EP (d : Nat) : Nat := DPL d + 0x03C
def DPL_PHASE_EP_epoch (d : Nat) : Fld := ⟨DPL_PHASE_EP d, 0, 16⟩
def DPL_PHASE_OFS (d : Nat) : Nat := DPL d + 0x040
def DPL_PHASE_OFS_ofs (d : Nat) : Fld := ⟨DPL_PHASE_OFS d, 0, 19⟩
def DPL_PHASE_OFS_valid (d : Nat) : Fld := ⟨DPL_PHASE_OFS d, 31, 1⟩
def DPL_PHASE_VEC_LO (d : Nat) : Nat := DPL d + 0x044
def DPL_PHASE_VEC_LO_vector (d : Nat) : Fld := ⟨DPL_PHASE_VEC_LO d, 0, 32⟩
def DPL_PHASE_VEC_HI (d : Nat) : Nat := DPL d + 0x048
def DPL_PHASE_VEC_HI_vector (d : Nat) : Fld := ⟨DPL_PHASE_VEC_HI d, 0, 32⟩
-- Table 6.13
def TMB_CTL : Nat := TMB + 0x000
def TMB_CTL_policy : Fld := ⟨TMB_CTL, 0, 1⟩
def TMB_CTL_lock_int : Fld := ⟨TMB_CTL, 1, 1⟩
def TMB_CTL_tb_dither : Fld := ⟨TMB_CTL, 2, 1⟩
-- Table 6.14
def TMB_STATUS : Nat := TMB + 0x004
def TMB_STATUS_state : Fld := ⟨TMB_STATUS, 0, 3⟩
def TMB_STATUS_ref_present : Fld := ⟨TMB_STATUS, 3, 1⟩
def TMB_STATUS_locked : Fld := ⟨TMB_STATUS, 4, 1⟩
def TMB_STATUS_step_flag : Fld := ⟨TMB_STATUS, 5, 1⟩
def TMB_STATUS_holdover_long : Fld := ⟨TMB_STATUS, 6, 1⟩
def TMB_STATUS_epoch_late : Fld := ⟨TMB_STATUS, 7, 1⟩
def TMB_STATUS_ref_freq : Fld := ⟨TMB_STATUS, 8, 2⟩
def TMB_STATUS_ref_valid : Fld := ⟨TMB_STATUS, 10, 1⟩
-- Table 6.15
def TMB_NOW_LO : Nat := TMB + 0x008
def TMB_NOW_LO_ts : Fld := ⟨TMB_NOW_LO, 0, 32⟩
def TMB_NOW_HI : Nat := TMB + 0x00C
def TMB_NOW_HI_ts : Fld := ⟨TMB_NOW_HI, 0, 32⟩
def TMB_NOW_EP : Nat := TMB + 0x010
def TMB_NOW_EP_epoch : Fld := ⟨TMB_NOW_EP, 0, 16⟩
def TMB_EPOCH_CTL : Nat := TMB + 0x014
def TMB_EPOCH_CTL_mode : Fld := ⟨TMB_EPOCH_CTL, 0, 2⟩
def TMB_EPOCH_CTL_delay : Fld := ⟨TMB_EPOCH_CTL, 8, 8⟩
def TMB_EPOCH_LOAD : Nat := TMB + 0x018
def TMB_EPOCH_LOAD_epoch : Fld := ⟨TMB_EPOCH_LOAD, 0, 16⟩
def TMB_TRAILHEAD_LO : Nat := TMB + 0x020
def TMB_TRAILHEAD_LO_ts : Fld := ⟨TMB_TRAILHEAD_LO, 0, 32⟩
def TMB_TRAILHEAD_HI : Nat := TMB + 0x024
def TMB_TRAILHEAD_HI_ts : Fld := ⟨TMB_TRAILHEAD_HI, 0, 32⟩
def TMB_TRAILHEAD_EP : Nat := TMB + 0x028
def TMB_TRAILHEAD_EP_epoch : Fld := ⟨TMB_TRAILHEAD_EP, 0, 16⟩
def TMB_TRAILHEAD_CTL : Nat := TMB + 0x02C
def TMB_TRAILHEAD_CTL_arm : Fld := ⟨TMB_TRAILHEAD_CTL, 0, 1⟩
def TMB_PHASE_ERR : Nat := TMB + 0x030
def TMB_PHASE_ERR_phi : Fld := ⟨TMB_PHASE_ERR, 0, 32⟩
def TMB_SLEW : Nat := TMB + 0x034
def TMB_SLEW_ofs : Fld := ⟨TMB_SLEW, 0, 32⟩
def TMB_HOLD_TIME : Nat := TMB + 0x038
def TMB_HOLD_TIME_us : Fld := ⟨TMB_HOLD_TIME, 0, 32⟩
def TMB_STEP_CNT : Nat := TMB + 0x03C
def TMB_STEP_CNT_count : Fld := ⟨TMB_STEP_CNT, 0, 32⟩
def TMB_REF_LOSS_CNT : Nat := TMB + 0x040
def TMB_REF_LOSS_CNT_count : Fld := ⟨TMB_REF_LOSS_CNT, 0, 32⟩
def TMB_CEIL_CNT : Nat := TMB + 0x044
def TMB_CEIL_CNT_count : Fld := ⟨TMB_CEIL_CNT, 0, 32⟩
def TMB_TBPLL_SEED : Nat := TMB + 0x050
def TMB_TBPLL_SEED_seed : Fld := ⟨TMB_TBPLL_SEED, 0, 31⟩
-- Table 6.16
def TMB_LOCK_OUT : Nat := TMB + 0x048
def TMB_LOCK_OUT_en : Fld := ⟨TMB_LOCK_OUT, 0, 1⟩
def TMB_LOCK_OUT_pll : Fld := ⟨TMB_LOCK_OUT, 1, 4⟩
def TMB_LOCK_OUT_evt_out : Fld := ⟨TMB_LOCK_OUT, 5, 3⟩
-- Table 6.17
def TMB_DPL_EVT : Nat := TMB + 0x04C
def TMB_DPL_EVT_lost : Fld := ⟨TMB_DPL_EVT, 0, 12⟩
def TMB_DPL_EVT_fail : Fld := ⟨TMB_DPL_EVT, 16, 12⟩
-- Table 6.18
def PRT_START_RES (n : Nat) : Nat := PRT n + 0x400
def PRT_START_RES_res (n : Nat) : Fld := ⟨PRT_START_RES n, 0, 19⟩
def PRT_START_RES_valid (n : Nat) : Fld := ⟨PRT_START_RES n, 31, 1⟩
def PRT_START_COMP (n : Nat) : Nat := PRT n + 0x404
def PRT_START_COMP_en (n : Nat) : Fld := ⟨PRT_START_COMP n, 0, 1⟩
def PRT_START_COMP_VAL (n : Nat) : Nat := PRT n + 0x408
def PRT_START_COMP_VAL_comp (n : Nat) : Fld := ⟨PRT_START_COMP_VAL n, 0, 19⟩
def PRT_RATE_DEV (n : Nat) : Nat := PRT n + 0x40C
def PRT_RATE_DEV_ppm (n : Nat) : Fld := ⟨PRT_RATE_DEV n, 0, 32⟩
def PRT_PAUSE_CNT (n : Nat) : Nat := PRT n + 0x410
def PRT_PAUSE_CNT_count (n : Nat) : Fld := ⟨PRT_PAUSE_CNT n, 0, 32⟩
def PRT_PAUSE_LAST (n : Nat) : Nat := PRT n + 0x414
def PRT_PAUSE_LAST_ns (n : Nat) : Fld := ⟨PRT_PAUSE_LAST n, 0, 32⟩
def PRT_PAUSE_VEC_LO (n : Nat) : Nat := PRT n + 0x418
def PRT_PAUSE_VEC_LO_vector (n : Nat) : Fld := ⟨PRT_PAUSE_VEC_LO n, 0, 32⟩
def PRT_PAUSE_VEC_HI (n : Nat) : Nat := PRT n + 0x41C
def PRT_PAUSE_VEC_HI_vector (n : Nat) : Fld := ⟨PRT_PAUSE_VEC_HI n, 0, 32⟩
-- Table 7.8
def ACQ_CTL (e : Nat) : Nat := ACQ e + 0x000
def ACQ_CTL_arm (e : Nat) : Fld := ⟨ACQ_CTL e, 0, 1⟩
def ACQ_CTL_force (e : Nat) : Fld := ⟨ACQ_CTL e, 1, 1⟩
def ACQ_CTL_stop_with_port (e : Nat) : Fld := ⟨ACQ_CTL e, 2, 1⟩
-- Table 7.9
def ACQ_STATUS (e : Nat) : Nat := ACQ e + 0x004
def ACQ_STATUS_state (e : Nat) : Fld := ⟨ACQ_STATUS e, 0, 3⟩
def ACQ_STATUS_arm_code (e : Nat) : Fld := ⟨ACQ_STATUS e, 4, 4⟩
def ACQ_STATUS_end (e : Nat) : Fld := ⟨ACQ_STATUS e, 8, 4⟩
def ACQ_STATUS_seg_closed (e : Nat) : Fld := ⟨ACQ_STATUS e, 16, 1⟩
def ACQ_STATUS_gap (e : Nat) : Fld := ⟨ACQ_STATUS e, 17, 1⟩
def ACQ_STATUS_missed (e : Nat) : Fld := ⟨ACQ_STATUS e, 18, 1⟩
def ACQ_STATUS_panic (e : Nat) : Fld := ⟨ACQ_STATUS e, 19, 1⟩
def ACQ_STATUS_staged (e : Nat) : Fld := ⟨ACQ_STATUS e, 20, 1⟩
-- Table 7.10
def ACQ_SRC (e : Nat) : Nat := ACQ e + 0x008
def ACQ_SRC_source (e : Nat) : Fld := ⟨ACQ_SRC e, 0, 1⟩
def ACQ_SRC_signed (e : Nat) : Fld := ⟨ACQ_SRC e, 1, 1⟩
def ACQ_SRC_tim_half (e : Nat) : Fld := ⟨ACQ_SRC e, 2, 1⟩
def ACQ_SRC_width (e : Nat) : Fld := ⟨ACQ_SRC e, 8, 6⟩
def ACQ_SRC_decim (e : Nat) : Fld := ⟨ACQ_SRC e, 16, 16⟩
-- Table 7.11
def ACQ_MAP (e i : Nat) : Nat := ACQ e + 0x010 + 4 * i
def ACQ_MAP_pin0 (e i : Nat) : Fld := ⟨ACQ_MAP e i, 0, 6⟩
def ACQ_MAP_pin1 (e i : Nat) : Fld := ⟨ACQ_MAP e i, 8, 6⟩
def ACQ_MAP_pin2 (e i : Nat) : Fld := ⟨ACQ_MAP e i, 16, 6⟩
def ACQ_MAP_pin3 (e i : Nat) : Fld := ⟨ACQ_MAP e i, 24, 6⟩
-- Table 7.12
def ACQ_RS_CTL (e : Nat) : Nat := ACQ e + 0x030
def ACQ_RS_CTL_en (e : Nat) : Fld := ⟨ACQ_RS_CTL e, 0, 1⟩
def ACQ_RS_CTL_delay (e : Nat) : Fld := ⟨ACQ_RS_CTL e, 16, 11⟩
def ACQ_RS_RATIO_LO (e : Nat) : Nat := ACQ e + 0x034
def ACQ_RS_RATIO_LO_ratio (e : Nat) : Fld := ⟨ACQ_RS_RATIO_LO e, 0, 32⟩
def ACQ_RS_RATIO_HI (e : Nat) : Nat := ACQ e + 0x038
def ACQ_RS_RATIO_HI_ratio (e : Nat) : Fld := ⟨ACQ_RS_RATIO_HI e, 0, 16⟩
def ACQ_RS_COEF (e i : Nat) : Nat := ACQ e + 0x8000 + 4 * i
def ACQ_RS_COEF_coef (e i : Nat) : Fld := ⟨ACQ_RS_COEF e i, 0, 18⟩
-- Table 7.13
def ACQ_TRIG_CTL (e : Nat) : Nat := ACQ e + 0x040
def ACQ_TRIG_CTL_level_en (e : Nat) : Fld := ⟨ACQ_TRIG_CTL e, 0, 1⟩
def ACQ_TRIG_CTL_in0_en (e : Nat) : Fld := ⟨ACQ_TRIG_CTL e, 1, 1⟩
def ACQ_TRIG_CTL_in1_en (e : Nat) : Fld := ⟨ACQ_TRIG_CTL e, 2, 1⟩
def ACQ_TRIG_CTL_dir (e : Nat) : Fld := ⟨ACQ_TRIG_CTL e, 4, 2⟩
def ACQ_TRIG_CTL_interp (e : Nat) : Fld := ⟨ACQ_TRIG_CTL e, 8, 1⟩
def ACQ_TRIG_LEVEL (e : Nat) : Nat := ACQ e + 0x044
def ACQ_TRIG_LEVEL_level (e : Nat) : Fld := ⟨ACQ_TRIG_LEVEL e, 0, 32⟩
def ACQ_TRIG_HYST (e : Nat) : Nat := ACQ e + 0x048
def ACQ_TRIG_HYST_hyst (e : Nat) : Fld := ⟨ACQ_TRIG_HYST e, 0, 32⟩
def ACQ_TRIG_TS_LO (e : Nat) : Nat := ACQ e + 0x04C
def ACQ_TRIG_TS_LO_ts (e : Nat) : Fld := ⟨ACQ_TRIG_TS_LO e, 0, 32⟩
def ACQ_TRIG_TS_HI (e : Nat) : Nat := ACQ e + 0x050
def ACQ_TRIG_TS_HI_ts (e : Nat) : Fld := ⟨ACQ_TRIG_TS_HI e, 0, 32⟩
def ACQ_TRIG_EP (e : Nat) : Nat := ACQ e + 0x054
def ACQ_TRIG_EP_epoch (e : Nat) : Fld := ⟨ACQ_TRIG_EP e, 0, 16⟩
-- Table 7.14
def ACQ_SEG_PRE (e : Nat) : Nat := ACQ e + 0x058
def ACQ_SEG_PRE_pre (e : Nat) : Fld := ⟨ACQ_SEG_PRE e, 0, 19⟩
def ACQ_SEG_POST (e : Nat) : Nat := ACQ e + 0x05C
def ACQ_SEG_POST_post (e : Nat) : Fld := ⟨ACQ_SEG_POST e, 0, 32⟩
def ACQ_SEG_COUNT (e : Nat) : Nat := ACQ e + 0x060
def ACQ_SEG_COUNT_count (e : Nat) : Fld := ⟨ACQ_SEG_COUNT e, 0, 21⟩
def ACQ_STG_CFG (e : Nat) : Nat := ACQ e + 0x064
def ACQ_STG_CFG_base (e : Nat) : Fld := ⟨ACQ_STG_CFG e, 0, 11⟩
def ACQ_STG_CFG_size (e : Nat) : Fld := ⟨ACQ_STG_CFG e, 16, 11⟩
def ACQ_STG_PANIC (e : Nat) : Nat := ACQ e + 0x068
def ACQ_STG_PANIC_level (e : Nat) : Fld := ⟨ACQ_STG_PANIC e, 0, 11⟩
def ACQ_STG_FREE (e : Nat) : Nat := ACQ e + 0x06C
def ACQ_STG_FREE_bytes (e : Nat) : Fld := ⟨ACQ_STG_FREE e, 0, 27⟩
-- Table 7.15
def ACQ_DRAIN_WR (e : Nat) : Nat := ACQ e + 0x070
def ACQ_DRAIN_WR_wr (e : Nat) : Fld := ⟨ACQ_DRAIN_WR e, 0, 32⟩
def ACQ_DRAIN_RD (e : Nat) : Nat := ACQ e + 0x074
def ACQ_DRAIN_RD_rd (e : Nat) : Fld := ⟨ACQ_DRAIN_RD e, 0, 32⟩
def ACQ_DRAIN_SIZE (e : Nat) : Nat := ACQ e + 0x078
def ACQ_DRAIN_SIZE_units (e : Nat) : Fld := ⟨ACQ_DRAIN_SIZE e, 0, 32⟩
def ACQ_DRAIN_HWM (e : Nat) : Nat := ACQ e + 0x07C
def ACQ_DRAIN_HWM_units (e : Nat) : Fld := ⟨ACQ_DRAIN_HWM e, 0, 32⟩
def ACQ_SEG_DONE (e : Nat) : Nat := ACQ e + 0x080
def ACQ_SEG_DONE_count (e : Nat) : Fld := ⟨ACQ_SEG_DONE e, 0, 21⟩
def ACQ_MISSED (e : Nat) : Nat := ACQ e + 0x084
def ACQ_MISSED_count (e : Nat) : Fld := ⟨ACQ_MISSED e, 0, 32⟩
def ACQ_DROPPED (e : Nat) : Nat := ACQ e + 0x088
def ACQ_DROPPED_count (e : Nat) : Fld := ⟨ACQ_DROPPED e, 0, 32⟩
def ACQ_GAP_CNT (e : Nat) : Nat := ACQ e + 0x08C
def ACQ_GAP_CNT_count (e : Nat) : Fld := ⟨ACQ_GAP_CNT e, 0, 32⟩
def ACQ_TIM_DISCARD (e : Nat) : Nat := ACQ e + 0x090
def ACQ_TIM_DISCARD_count (e : Nat) : Fld := ⟨ACQ_TIM_DISCARD e, 0, 32⟩
def ACQ_RUN (e : Nat) : Nat := ACQ e + 0x094
def ACQ_RUN_run (e : Nat) : Fld := ⟨ACQ_RUN e, 0, 16⟩
-- Table 8.7
def TIM_CTL (t : Nat) : Nat := TIM t + 0x000
def TIM_CTL_arm (t : Nat) : Fld := ⟨TIM_CTL t, 0, 1⟩
def TIM_CTL_mode (t : Nat) : Fld := ⟨TIM_CTL t, 1, 1⟩
def TIM_CTL_kind (t : Nat) : Fld := ⟨TIM_CTL t, 2, 2⟩
def TIM_CTL_edge (t : Nat) : Fld := ⟨TIM_CTL t, 4, 2⟩
def TIM_CTL_arm_src (t : Nat) : Fld := ⟨TIM_CTL t, 6, 1⟩
def TIM_CTL_partner (t : Nat) : Fld := ⟨TIM_CTL t, 8, 3⟩
-- Table 8.8
def TIM_STATUS (t : Nat) : Nat := TIM t + 0x004
def TIM_STATUS_state (t : Nat) : Fld := ⟨TIM_STATUS t, 0, 3⟩
def TIM_STATUS_dll_locked (t : Nat) : Fld := ⟨TIM_STATUS t, 3, 1⟩
def TIM_STATUS_arm_code (t : Nat) : Fld := ⟨TIM_STATUS t, 4, 4⟩
def TIM_STATUS_done (t : Nat) : Fld := ⟨TIM_STATUS t, 8, 1⟩
def TIM_STATUS_lost (t : Nat) : Fld := ⟨TIM_STATUS t, 9, 1⟩
def TIM_STATUS_acq_drop (t : Nat) : Fld := ⟨TIM_STATUS t, 10, 1⟩
def TIM_STATUS_hist_drop (t : Nat) : Fld := ⟨TIM_STATUS t, 11, 1⟩
def TIM_STATUS_fault (t : Nat) : Fld := ⟨TIM_STATUS t, 12, 1⟩
def TIM_STATUS_noref (t : Nat) : Fld := ⟨TIM_STATUS t, 13, 1⟩
def TIM_STATUS_blanked (t : Nat) : Fld := ⟨TIM_STATUS t, 14, 1⟩
def TIM_STATUS_leased (t : Nat) : Fld := ⟨TIM_STATUS t, 15, 1⟩
def TIM_STATUS_dll_unlock (t : Nat) : Fld := ⟨TIM_STATUS t, 16, 1⟩
-- Table 8.9
def TIM_COUNT (t : Nat) : Nat := TIM t + 0x008
def TIM_COUNT_count (t : Nat) : Fld := ⟨TIM_COUNT t, 0, 32⟩
def TIM_GATE (t : Nat) : Nat := TIM t + 0x00C
def TIM_GATE_gate (t : Nat) : Fld := ⟨TIM_GATE t, 0, 32⟩
def TIM_RESULTS (t : Nat) : Nat := TIM t + 0x010
def TIM_RESULTS_count (t : Nat) : Fld := ⟨TIM_RESULTS t, 0, 32⟩
def TIM_LOST (t : Nat) : Nat := TIM t + 0x014
def TIM_LOST_count (t : Nat) : Fld := ⟨TIM_LOST t, 0, 32⟩
def TIM_EDGES_LO (t : Nat) : Nat := TIM t + 0x018
def TIM_EDGES_LO_edges (t : Nat) : Fld := ⟨TIM_EDGES_LO t, 0, 32⟩
def TIM_EDGES_HI (t : Nat) : Nat := TIM t + 0x01C
def TIM_EDGES_HI_edges (t : Nat) : Fld := ⟨TIM_EDGES_HI t, 0, 32⟩
def TIM_LAST_TS_LO (t : Nat) : Nat := TIM t + 0x020
def TIM_LAST_TS_LO_ts (t : Nat) : Fld := ⟨TIM_LAST_TS_LO t, 0, 32⟩
def TIM_LAST_TS_HI (t : Nat) : Nat := TIM t + 0x024
def TIM_LAST_TS_HI_ts (t : Nat) : Fld := ⟨TIM_LAST_TS_HI t, 0, 32⟩
def TIM_LAST_EP (t : Nat) : Nat := TIM t + 0x028
def TIM_LAST_EP_epoch (t : Nat) : Fld := ⟨TIM_LAST_EP t, 0, 16⟩
def TIM_LAST_RES_LO (t : Nat) : Nat := TIM t + 0x02C
def TIM_LAST_RES_LO_result (t : Nat) : Fld := ⟨TIM_LAST_RES_LO t, 0, 32⟩
def TIM_LAST_RES_HI (t : Nat) : Nat := TIM t + 0x030
def TIM_LAST_RES_HI_result (t : Nat) : Fld := ⟨TIM_LAST_RES_HI t, 0, 32⟩
def TIM_ACQ_DROP (t : Nat) : Nat := TIM t + 0x034
def TIM_ACQ_DROP_count (t : Nat) : Fld := ⟨TIM_ACQ_DROP t, 0, 32⟩
def TIM_HIST_DROP (t : Nat) : Nat := TIM t + 0x038
def TIM_HIST_DROP_count (t : Nat) : Fld := ⟨TIM_HIST_DROP t, 0, 32⟩
def TIM_FAULT_CNT (t : Nat) : Nat := TIM t + 0x03C
def TIM_FAULT_CNT_count (t : Nat) : Fld := ⟨TIM_FAULT_CNT t, 0, 32⟩
def TIM_NOREF (t : Nat) : Nat := TIM t + 0x040
def TIM_NOREF_count (t : Nat) : Fld := ⟨TIM_NOREF t, 0, 32⟩
def TIM_BRACKET (t : Nat) : Nat := TIM t + 0x044
def TIM_BRACKET_v1 (t : Nat) : Fld := ⟨TIM_BRACKET t, 0, 12⟩
def TIM_BRACKET_v2 (t : Nat) : Fld := ⟨TIM_BRACKET t, 16, 12⟩
-- Table 8.10
def TIM_HIST_CTL (t : Nat) : Nat := TIM t + 0x050
def TIM_HIST_CTL_en (t : Nat) : Fld := ⟨TIM_HIST_CTL t, 0, 1⟩
def TIM_HIST_CTL_clear (t : Nat) : Fld := ⟨TIM_HIST_CTL t, 1, 1⟩
def TIM_HIST_CTL_busy (t : Nat) : Fld := ⟨TIM_HIST_CTL t, 2, 1⟩
def TIM_HIST_CTL_shift (t : Nat) : Fld := ⟨TIM_HIST_CTL t, 8, 5⟩
def TIM_HIST_OFS (t : Nat) : Nat := TIM t + 0x054
def TIM_HIST_OFS_ofs (t : Nat) : Fld := ⟨TIM_HIST_OFS t, 0, 32⟩
def TIM_HIST_FOLD (t : Nat) : Nat := TIM t + 0x058
def TIM_HIST_FOLD_fold (t : Nat) : Fld := ⟨TIM_HIST_FOLD t, 0, 32⟩
def TIM_HIST_UNDER (t : Nat) : Nat := TIM t + 0x05C
def TIM_HIST_UNDER_count (t : Nat) : Fld := ⟨TIM_HIST_UNDER t, 0, 32⟩
def TIM_HIST_OVER (t : Nat) : Nat := TIM t + 0x060
def TIM_HIST_OVER_count (t : Nat) : Fld := ⟨TIM_HIST_OVER t, 0, 32⟩
def TIM_HIST_BIN (t i : Nat) : Nat := BIN t + 0x000 + 4 * i
def TIM_HIST_BIN_count (t i : Nat) : Fld := ⟨TIM_HIST_BIN t i, 0, 32⟩
-- Table 8.11
def TIM_QEVT (q : Nat) : Nat := TIMC q + 0x000
def TIM_QEVT_done (q : Nat) : Fld := ⟨TIM_QEVT q, 0, 8⟩
def TIM_QEVT_lost (q : Nat) : Fld := ⟨TIM_QEVT q, 8, 8⟩
def TIM_QEVT_fault (q : Nat) : Fld := ⟨TIM_QEVT q, 16, 8⟩
def TIM_QEVT_dll (q : Nat) : Fld := ⟨TIM_QEVT q, 24, 8⟩
def TIM_IN_THR (q i : Nat) : Nat := TIMC q + 0x010 + 4 * i
def TIM_IN_THR_thr (q i : Nat) : Fld := ⟨TIM_IN_THR q i, 0, 12⟩
def TIM_IN_THR_hyst (q i : Nat) : Fld := ⟨TIM_IN_THR q i, 12, 1⟩
-- Table 9.8
def WFG_CTL (m : Nat) : Nat := WFG m + 0x000
def WFG_CTL_run (m : Nat) : Fld := ⟨WFG_CTL m, 0, 1⟩
def WFG_CTL_start_mode (m : Nat) : Fld := ⟨WFG_CTL m, 2, 2⟩
def WFG_CTL_out_en (m : Nat) : Fld := ⟨WFG_CTL m, 4, 1⟩
-- Table 9.9
def WFG_STATUS (m : Nat) : Nat := WFG m + 0x008
def WFG_STATUS_state (m : Nat) : Fld := ⟨WFG_STATUS m, 0, 3⟩
def WFG_STATUS_code (m : Nat) : Fld := ⟨WFG_STATUS m, 4, 5⟩
def WFG_STATUS_done (m : Nat) : Fld := ⟨WFG_STATUS m, 12, 1⟩
def WFG_STATUS_aborted (m : Nat) : Fld := ⟨WFG_STATUS m, 13, 1⟩
def WFG_STATUS_cancelled (m : Nat) : Fld := ⟨WFG_STATUS m, 14, 1⟩
-- Table 9.10
def WFG_START (m : Nat) : Nat := WFG m + 0x004
def WFG_START_entry (m : Nat) : Fld := ⟨WFG_START m, 0, 16⟩
def WFG_ENTRY (m : Nat) : Nat := WFG m + 0x00C
def WFG_ENTRY_entry (m : Nat) : Fld := ⟨WFG_ENTRY m, 0, 16⟩
def WFG_ENTRY_depth (m : Nat) : Fld := ⟨WFG_ENTRY m, 16, 5⟩
def WFG_SAMPLE_LO (m : Nat) : Nat := WFG m + 0x010
def WFG_SAMPLE_LO_samples (m : Nat) : Fld := ⟨WFG_SAMPLE_LO m, 0, 32⟩
def WFG_SAMPLE_HI (m : Nat) : Nat := WFG m + 0x014
def WFG_SAMPLE_HI_samples (m : Nat) : Fld := ⟨WFG_SAMPLE_HI m, 0, 32⟩
def WFG_TRAILHEAD_LO (m : Nat) : Nat := WFG m + 0x018
def WFG_TRAILHEAD_LO_ts (m : Nat) : Fld := ⟨WFG_TRAILHEAD_LO m, 0, 32⟩
def WFG_TRAILHEAD_HI (m : Nat) : Nat := WFG m + 0x01C
def WFG_TRAILHEAD_HI_ts (m : Nat) : Fld := ⟨WFG_TRAILHEAD_HI m, 0, 32⟩
def WFG_TRAILHEAD_EP (m : Nat) : Nat := WFG m + 0x020
def WFG_TRAILHEAD_EP_epoch (m : Nat) : Fld := ⟨WFG_TRAILHEAD_EP m, 0, 16⟩
def WFG_START_TS_LO (m : Nat) : Nat := WFG m + 0x024
def WFG_START_TS_LO_ts (m : Nat) : Fld := ⟨WFG_START_TS_LO m, 0, 32⟩
def WFG_START_TS_HI (m : Nat) : Nat := WFG m + 0x028
def WFG_START_TS_HI_ts (m : Nat) : Fld := ⟨WFG_START_TS_HI m, 0, 32⟩
def WFG_START_EP (m : Nat) : Nat := WFG m + 0x02C
def WFG_START_EP_epoch (m : Nat) : Fld := ⟨WFG_START_EP m, 0, 16⟩
def WFG_JUMP_HOST (m : Nat) : Nat := WFG m + 0x030
def WFG_JUMP_HOST_req (m : Nat) : Fld := ⟨WFG_JUMP_HOST m, 0, 1⟩
def WFG_JUMP_HOST_cancel (m : Nat) : Fld := ⟨WFG_JUMP_HOST m, 1, 1⟩
def WFG_JUMP_TAKEN (m : Nat) : Nat := WFG m + 0x034
def WFG_JUMP_TAKEN_count (m : Nat) : Fld := ⟨WFG_JUMP_TAKEN m, 0, 32⟩
def WFG_JUMP_REPLACED (m : Nat) : Nat := WFG m + 0x038
def WFG_JUMP_REPLACED_count (m : Nat) : Fld := ⟨WFG_JUMP_REPLACED m, 0, 32⟩
def WFG_WAIT_STATUS (m : Nat) : Nat := WFG m + 0x03C
def WFG_WAIT_STATUS_result (m : Nat) : Fld := ⟨WFG_WAIT_STATUS m, 0, 2⟩
def WFG_WAIT_STATUS_entry (m : Nat) : Fld := ⟨WFG_WAIT_STATUS m, 16, 16⟩
def WFG_WAIT_PASSES (m : Nat) : Nat := WFG m + 0x040
def WFG_WAIT_PASSES_passes (m : Nat) : Fld := ⟨WFG_WAIT_PASSES m, 0, 32⟩
def WFG_DEMAND_NEAR (m : Nat) : Nat := WFG m + 0x044
def WFG_DEMAND_NEAR_mbps (m : Nat) : Fld := ⟨WFG_DEMAND_NEAR m, 0, 31⟩
def WFG_DEMAND_FAR (m : Nat) : Nat := WFG m + 0x048
def WFG_DEMAND_FAR_mbps (m : Nat) : Fld := ⟨WFG_DEMAND_FAR m, 0, 31⟩
def WFG_ADMIT_TMO (m : Nat) : Nat := WFG m + 0x04C
def WFG_ADMIT_TMO_ms (m : Nat) : Fld := ⟨WFG_ADMIT_TMO m, 0, 16⟩
def WFG_OUT (m : Nat) : Nat := WFG m + 0x050
def WFG_OUT_idle (m : Nat) : Fld := ⟨WFG_OUT m, 0, 14⟩
def WFG_OUT_fs (m : Nat) : Fld := ⟨WFG_OUT m, 16, 8⟩
def WFG_MKR_DLY (m i : Nat) : Nat := WFG m + 0x054 + 4 * i
def WFG_MKR_DLY_dly (m i : Nat) : Fld := ⟨WFG_MKR_DLY m i, 0, 11⟩
def WFG_FILL (m : Nat) : Nat := WFG m + 0x064
def WFG_FILL_bytes (m : Nat) : Fld := ⟨WFG_FILL m, 0, 20⟩
def WFG_PAUSE_CNT (m : Nat) : Nat := WFG m + 0x068
def WFG_PAUSE_CNT_count (m : Nat) : Fld := ⟨WFG_PAUSE_CNT m, 0, 32⟩
def WFG_RET_STACK (m i : Nat) : Nat := WFG m + 0x070 + 4 * i
def WFG_RET_STACK_entry (m i : Nat) : Fld := ⟨WFG_RET_STACK m i, 0, 16⟩
def WFG_RS_CTL (m : Nat) : Nat := WFG m + 0x0B0
def WFG_RS_CTL_en (m : Nat) : Fld := ⟨WFG_RS_CTL m, 0, 1⟩
def WFG_RS_CTL_delay (m : Nat) : Fld := ⟨WFG_RS_CTL m, 16, 11⟩
def WFG_RS_RATIO_LO (m : Nat) : Nat := WFG m + 0x0B4
def WFG_RS_RATIO_LO_ratio (m : Nat) : Fld := ⟨WFG_RS_RATIO_LO m, 0, 32⟩
def WFG_RS_RATIO_HI (m : Nat) : Nat := WFG m + 0x0B8
def WFG_RS_RATIO_HI_ratio (m : Nat) : Fld := ⟨WFG_RS_RATIO_HI m, 0, 16⟩
def WFG_RS_COEF (m i : Nat) : Nat := WFG m + 0x8000 + 4 * i
def WFG_RS_COEF_coef (m i : Nat) : Fld := ⟨WFG_RS_COEF m i, 0, 18⟩
-- Table 9.11
def PDC_CTL (u : Nat) : Nat := PDC u + 0x000
def PDC_CTL_en (u : Nat) : Fld := ⟨PDC_CTL u, 0, 1⟩
def PDC_CTL_range (u : Nat) : Fld := ⟨PDC_CTL u, 1, 1⟩
def PDC_CTL_mode (u : Nat) : Fld := ⟨PDC_CTL u, 2, 1⟩
def PDC_CTL_group (u : Nat) : Fld := ⟨PDC_CTL u, 3, 2⟩
def PDC_CTL_sc_off (u : Nat) : Fld := ⟨PDC_CTL u, 5, 1⟩
def PDC_CODE (u : Nat) : Nat := PDC u + 0x004
def PDC_CODE_code (u : Nat) : Fld := ⟨PDC_CODE u, 0, 16⟩
def PDC_OUT (u : Nat) : Nat := PDC u + 0x008
def PDC_OUT_code (u : Nat) : Fld := ⟨PDC_OUT u, 0, 16⟩
def PDC_STATUS (u : Nat) : Nat := PDC u + 0x00C
def PDC_STATUS_hold (u : Nat) : Fld := ⟨PDC_STATUS u, 0, 1⟩
def PDC_STATUS_limit (u : Nat) : Fld := ⟨PDC_STATUS u, 1, 1⟩
def PDC_STATUS_limit_seen (u : Nat) : Fld := ⟨PDC_STATUS u, 2, 1⟩
def PDC_STATUS_disabled (u : Nat) : Fld := ⟨PDC_STATUS u, 3, 1⟩
def PDC_HOLD_RESTART (u : Nat) : Nat := PDC u + 0x010
def PDC_HOLD_RESTART_count (u : Nat) : Fld := ⟨PDC_HOLD_RESTART u, 0, 32⟩
def PDC_GLOAD (q : Nat) : Nat := PDCG q + 0x000
def PDC_GLOAD_load (q : Nat) : Fld := ⟨PDC_GLOAD q, 0, 4⟩
-- Table 10.4
def SLK_CTL : Nat := SLK + 0x000
def SLK_CTL_en : Fld := ⟨SLK_CTL, 0, 1⟩
def SLK_CTL_position : Fld := ⟨SLK_CTL, 8, 5⟩
def SLK_CTL_members : Fld := ⟨SLK_CTL, 16, 6⟩
-- Table 10.5
def SLK_STATUS : Nat := SLK + 0x008
def SLK_STATUS_state : Fld := ⟨SLK_STATUS, 0, 3⟩
def SLK_STATUS_aligned : Fld := ⟨SLK_STATUS, 3, 1⟩
def SLK_STATUS_fault_code : Fld := ⟨SLK_STATUS, 4, 4⟩
def SLK_STATUS_up_seen : Fld := ⟨SLK_STATUS, 8, 1⟩
def SLK_STATUS_broken_seen : Fld := ⟨SLK_STATUS, 9, 1⟩
-- Table 10.6
def SLK_RING_ID : Nat := SLK + 0x004
def SLK_RING_ID_id : Fld := ⟨SLK_RING_ID, 0, 16⟩
def SLK_VERDICT_TMO : Nat := SLK + 0x00C
def SLK_VERDICT_TMO_us : Fld := ⟨SLK_VERDICT_TMO, 0, 16⟩
def SLK_RTT : Nat := SLK + 0x010
def SLK_RTT_ns : Fld := ⟨SLK_RTT, 0, 32⟩
def SLK_LAST_VERDICT : Nat := SLK + 0x014
def SLK_LAST_VERDICT_site : Fld := ⟨SLK_LAST_VERDICT, 0, 8⟩
def SLK_LAST_VERDICT_round : Fld := ⟨SLK_LAST_VERDICT, 8, 8⟩
def SLK_LAST_VERDICT_fail : Fld := ⟨SLK_LAST_VERDICT, 16, 1⟩
def SLK_LAST_VERDICT_cause : Fld := ⟨SLK_LAST_VERDICT, 17, 3⟩
def SLK_TH_TS_LO : Nat := SLK + 0x018
def SLK_TH_TS_LO_ts : Fld := ⟨SLK_TH_TS_LO, 0, 32⟩
def SLK_TH_TS_HI : Nat := SLK + 0x01C
def SLK_TH_TS_HI_ts : Fld := ⟨SLK_TH_TS_HI, 0, 32⟩
def SLK_TH_EP : Nat := SLK + 0x020
def SLK_TH_EP_epoch : Fld := ⟨SLK_TH_EP, 0, 16⟩
def SLK_TH_CTL : Nat := SLK + 0x024
def SLK_TH_CTL_send : Fld := ⟨SLK_TH_CTL, 0, 1⟩
def SLK_TH_CTL_arm : Fld := ⟨SLK_TH_CTL, 1, 1⟩
def SLK_TH_CTL_busy : Fld := ⟨SLK_TH_CTL, 2, 1⟩
def SLK_TH_CTL_done : Fld := ⟨SLK_TH_CTL, 3, 1⟩
def SLK_TH_CTL_failed : Fld := ⟨SLK_TH_CTL, 4, 1⟩
def SLK_TH_CTL_site : Fld := ⟨SLK_TH_CTL, 8, 8⟩
def SLK_CRC_ERR : Nat := SLK + 0x028
def SLK_CRC_ERR_count : Fld := ⟨SLK_CRC_ERR, 0, 32⟩
def SLK_LATE : Nat := SLK + 0x02C
def SLK_LATE_count : Fld := ⟨SLK_LATE, 0, 32⟩
def SLK_DELIV_DROP : Nat := SLK + 0x030
def SLK_DELIV_DROP_count : Fld := ⟨SLK_DELIV_DROP, 0, 32⟩
def SLK_TH_REJECT : Nat := SLK + 0x034
def SLK_TH_REJECT_count : Fld := ⟨SLK_TH_REJECT, 0, 32⟩
def SLK_BREAK_CNT : Nat := SLK + 0x038
def SLK_BREAK_CNT_count : Fld := ⟨SLK_BREAK_CNT, 0, 32⟩
def SLK_TMO_CNT : Nat := SLK + 0x03C
def SLK_TMO_CNT_count : Fld := ⟨SLK_TMO_CNT, 0, 32⟩
def SLK_PORT_CFG (i : Nat) : Nat := SLK + 0x080 + 4 * i
def SLK_PORT_CFG_vote_mode (i : Nat) : Fld := ⟨SLK_PORT_CFG i, 0, 2⟩
def SLK_PORT_CFG_listen_en (i : Nat) : Fld := ⟨SLK_PORT_CFG i, 2, 1⟩
def SLK_PORT_CFG_th_accept (i : Nat) : Fld := ⟨SLK_PORT_CFG i, 3, 1⟩
def SLK_PORT_CFG_listen_site (i : Nat) : Fld := ⟨SLK_PORT_CFG i, 8, 8⟩
def SLK_PORT_CFG_vote_entry (i : Nat) : Fld := ⟨SLK_PORT_CFG i, 16, 16⟩
def SLK_SITE_MASK (i : Nat) : Nat := SLK + 0x400 + 4 * i
def SLK_SITE_MASK_devices (i : Nat) : Fld := ⟨SLK_SITE_MASK i, 0, 32⟩
-- Table 11.11
def SCH_CTL : Nat := SCH + 0x000
def SCH_CTL_en : Fld := ⟨SCH_CTL, 0, 1⟩
def SCH_CTL_def_session : Fld := ⟨SCH_CTL, 1, 3⟩
-- Table 11.12
def SCH_STATUS : Nat := SCH + 0x004
def SCH_STATUS_free : Fld := ⟨SCH_STATUS, 0, 14⟩
def SCH_STATUS_hamper_full : Fld := ⟨SCH_STATUS, 16, 1⟩
def SCH_STATUS_fring_bad : Fld := ⟨SCH_STATUS, 17, 1⟩
def SCH_STATUS_error_seen : Fld := ⟨SCH_STATUS, 18, 1⟩
def SCH_STATUS_fail_drop : Fld := ⟨SCH_STATUS, 19, 1⟩
-- Table 11.13
def SCH_ALLOC : Nat := SCH + 0x008
def SCH_ALLOC_slot : Fld := ⟨SCH_ALLOC, 0, 13⟩
def SCH_ALLOC_none : Fld := ⟨SCH_ALLOC, 31, 1⟩
def SCH_SUBMIT : Nat := SCH + 0x00C
def SCH_SUBMIT_slot : Fld := ⟨SCH_SUBMIT, 0, 13⟩
def SCH_SUBMIT_op : Fld := ⟨SCH_SUBMIT, 16, 2⟩
def SCH_SUBMIT_RESULT : Nat := SCH + 0x010
def SCH_SUBMIT_RESULT_code : Fld := ⟨SCH_SUBMIT_RESULT, 0, 4⟩
def SCH_SUBMIT_RESULT_state : Fld := ⟨SCH_SUBMIT_RESULT, 16, 4⟩
def SCH_SLOT_SEL : Nat := SCH + 0x014
def SCH_SLOT_SEL_slot : Fld := ⟨SCH_SLOT_SEL, 0, 13⟩
def SCH_SLOT_SEL_state : Fld := ⟨SCH_SLOT_SEL, 16, 4⟩
def SCH_HAMPER_AREA : Nat := SCH + 0x018
def SCH_HAMPER_AREA_base : Fld := ⟨SCH_HAMPER_AREA, 0, 16⟩
def SCH_HAMPER_AREA_size : Fld := ⟨SCH_HAMPER_AREA, 16, 16⟩
-- Table 11.14
def SCH_ERR_CNT : Nat := SCH + 0x020
def SCH_ERR_CNT_count : Fld := ⟨SCH_ERR_CNT, 0, 32⟩
def SCH_CANCEL_CNT : Nat := SCH + 0x024
def SCH_CANCEL_CNT_count : Fld := ⟨SCH_CANCEL_CNT, 0, 32⟩
def SCH_REFUSE_CNT : Nat := SCH + 0x028
def SCH_REFUSE_CNT_count : Fld := ⟨SCH_REFUSE_CNT, 0, 32⟩
def SCH_PREEMPT_CNT : Nat := SCH + 0x02C
def SCH_PREEMPT_CNT_count : Fld := ⟨SCH_PREEMPT_CNT, 0, 32⟩
def SCH_TMO_CNT : Nat := SCH + 0x030
def SCH_TMO_CNT_count : Fld := ⟨SCH_TMO_CNT, 0, 32⟩
def SCH_CLONE_FAIL : Nat := SCH + 0x034
def SCH_CLONE_FAIL_count : Fld := ⟨SCH_CLONE_FAIL, 0, 32⟩
def SCH_CORE (i : Nat) : Nat := SCH + 0x100 + 4 * i
def SCH_CORE_state (i : Nat) : Fld := ⟨SCH_CORE i, 0, 2⟩
def SCH_CORE_prio (i : Nat) : Fld := ⟨SCH_CORE i, 8, 3⟩
def SCH_CORE_slot (i : Nat) : Fld := ⟨SCH_CORE i, 16, 13⟩
def SCH_GROUP (i : Nat) : Nat := SCH + 0x140 + 4 * i
def SCH_GROUP_ready (i : Nat) : Fld := ⟨SCH_GROUP i, 0, 14⟩
def SCH_GROUP_running (i : Nat) : Fld := ⟨SCH_GROUP i, 16, 3⟩
-- Table 11.15
def SCH_FRING_BASE_LO (n : Nat) : Nat := SCH + 0x200 + 0x20 * n + 0x000
def SCH_FRING_BASE_LO_addr (n : Nat) : Fld := ⟨SCH_FRING_BASE_LO n, 0, 32⟩
def SCH_FRING_BASE_HI (n : Nat) : Nat := SCH + 0x200 + 0x20 * n + 0x004
def SCH_FRING_BASE_HI_addr (n : Nat) : Fld := ⟨SCH_FRING_BASE_HI n, 0, 32⟩
def SCH_FRING_SIZE (n : Nat) : Nat := SCH + 0x200 + 0x20 * n + 0x008
def SCH_FRING_SIZE_size (n : Nat) : Fld := ⟨SCH_FRING_SIZE n, 0, 5⟩
def SCH_FRING_WR (n : Nat) : Nat := SCH + 0x200 + 0x20 * n + 0x00C
def SCH_FRING_WR_wr (n : Nat) : Fld := ⟨SCH_FRING_WR n, 0, 32⟩
def SCH_FRING_RD (n : Nat) : Nat := SCH + 0x200 + 0x20 * n + 0x010
def SCH_FRING_RD_rd (n : Nat) : Fld := ⟨SCH_FRING_RD n, 0, 32⟩
def SCH_FRING_DROP (n : Nat) : Nat := SCH + 0x200 + 0x20 * n + 0x014
def SCH_FRING_DROP_count (n : Nat) : Fld := ⟨SCH_FRING_DROP n, 0, 32⟩
def SCH_FRING_VEC_LO (n : Nat) : Nat := SCH + 0x200 + 0x20 * n + 0x018
def SCH_FRING_VEC_LO_vectors (n : Nat) : Fld := ⟨SCH_FRING_VEC_LO n, 0, 32⟩
def SCH_FRING_VEC_HI (n : Nat) : Nat := SCH + 0x200 + 0x20 * n + 0x01C
def SCH_FRING_VEC_HI_vectors (n : Nat) : Fld := ⟨SCH_FRING_VEC_HI n, 0, 32⟩
-- Table 11.16
def SCH_BIND (i : Nat) : Nat := SCH + 0x400 + 4 * i
def SCH_BIND_source (i : Nat) : Fld := ⟨SCH_BIND i, 0, 9⟩
def SCH_BIND_slot (i : Nat) : Fld := ⟨SCH_BIND i, 12, 13⟩
def SCH_BIND_en (i : Nat) : Fld := ⟨SCH_BIND i, 31, 1⟩
def SCH_FLOW_CFG (i : Nat) : Nat := SCH + 0x1000 + 16 * i
def SCH_FLOW_CFG_en (i : Nat) : Fld := ⟨SCH_FLOW_CFG i, 0, 1⟩
def SCH_FLOW_CFG_reset (i : Nat) : Fld := ⟨SCH_FLOW_CFG i, 1, 1⟩
def SCH_FLOW_CFG_session (i : Nat) : Fld := ⟨SCH_FLOW_CFG i, 8, 3⟩
def SCH_FLOW_NEXT (i : Nat) : Nat := SCH + 0x1004 + 16 * i
def SCH_FLOW_NEXT_seq (i : Nat) : Fld := ⟨SCH_FLOW_NEXT i, 0, 32⟩
def SCH_FLOW_REL (i : Nat) : Nat := SCH + 0x1008 + 16 * i
def SCH_FLOW_REL_seq (i : Nat) : Fld := ⟨SCH_FLOW_REL i, 0, 32⟩
def SCH_FLOW_STATUS (i : Nat) : Nat := SCH + 0x100C + 16 * i
def SCH_FLOW_STATUS_held (i : Nat) : Fld := ⟨SCH_FLOW_STATUS i, 0, 8⟩
def SCH_FLOW_STATUS_stalled (i : Nat) : Fld := ⟨SCH_FLOW_STATUS i, 16, 1⟩
-- Table 12.6
def DMC_CFG (c : Nat) : Nat := DMC c + 0x000
def DMC_CFG_rate (c : Nat) : Fld := ⟨DMC_CFG c, 0, 2⟩
def DMC_CFG_ranks (c : Nat) : Fld := ⟨DMC_CFG c, 2, 1⟩
def DMC_CFG_density (c : Nat) : Fld := ⟨DMC_CFG c, 3, 2⟩
def DMC_CFG_hash (c : Nat) : Fld := ⟨DMC_CFG c, 5, 1⟩
def DMC_CFG_fitted (c : Nat) : Fld := ⟨DMC_CFG c, 6, 1⟩
-- Table 12.7
def DMC_STATUS (c : Nat) : Nat := DMC c + 0x004
def DMC_STATUS_state (c : Nat) : Fld := ⟨DMC_STATUS c, 0, 3⟩
def DMC_STATUS_frozen (c : Nat) : Fld := ⟨DMC_STATUS c, 3, 1⟩
def DMC_STATUS_fenced (c : Nat) : Fld := ⟨DMC_STATUS c, 4, 1⟩
def DMC_STATUS_rt_fails (c : Nat) : Fld := ⟨DMC_STATUS c, 5, 2⟩
def DMC_STATUS_ce_seen (c : Nat) : Fld := ⟨DMC_STATUS c, 8, 1⟩
def DMC_STATUS_ue_seen (c : Nat) : Fld := ⟨DMC_STATUS c, 9, 1⟩
def DMC_STATUS_rt_fail_seen (c : Nat) : Fld := ⟨DMC_STATUS c, 10, 1⟩
def DMC_STATUS_retain_lost (c : Nat) : Fld := ⟨DMC_STATUS c, 11, 1⟩
-- Table 12.8
def DMC_CAPACITY (c : Nat) : Nat := DMC c + 0x008
def DMC_CAPACITY_units (c : Nat) : Fld := ⟨DMC_CAPACITY c, 0, 10⟩
def DMC_INIT_LEFT (c : Nat) : Nat := DMC c + 0x00C
def DMC_INIT_LEFT_granules (c : Nat) : Fld := ⟨DMC_INIT_LEFT c, 0, 17⟩
def DMC_SCHED_CFG (c : Nat) : Nat := DMC c + 0x010
def DMC_SCHED_CFG_age_cap (c : Nat) : Fld := ⟨DMC_SCHED_CFG c, 0, 8⟩
def DMC_SCHED_CFG_wr_hi (c : Nat) : Fld := ⟨DMC_SCHED_CFG c, 16, 8⟩
def DMC_SCHED_CFG_wr_lo (c : Nat) : Fld := ⟨DMC_SCHED_CFG c, 24, 8⟩
def DMC_PAGE_CFG (c : Nat) : Nat := DMC c + 0x014
def DMC_PAGE_CFG_idle (c : Nat) : Fld := ⟨DMC_PAGE_CFG c, 0, 16⟩
def DMC_PAGE_HINT0 (c : Nat) : Nat := DMC c + 0x018
def DMC_PAGE_HINT0_hints (c : Nat) : Fld := ⟨DMC_PAGE_HINT0 c, 0, 32⟩
def DMC_PAGE_HINT1 (c : Nat) : Nat := DMC c + 0x01C
def DMC_PAGE_HINT1_hints (c : Nat) : Fld := ⟨DMC_PAGE_HINT1 c, 0, 32⟩
def DMC_RETRAIN_CFG (c : Nat) : Nat := DMC c + 0x020
def DMC_RETRAIN_CFG_period (c : Nat) : Fld := ⟨DMC_RETRAIN_CFG c, 0, 16⟩
def DMC_RETRAIN_CFG_min_w (c : Nat) : Fld := ⟨DMC_RETRAIN_CFG c, 16, 8⟩
def DMC_RETRAIN_CFG_min_h (c : Nat) : Fld := ⟨DMC_RETRAIN_CFG c, 24, 8⟩
-- Table 12.9
def DMC_CE_CNT (c : Nat) : Nat := DMC c + 0x030
def DMC_CE_CNT_count (c : Nat) : Fld := ⟨DMC_CE_CNT c, 0, 32⟩
def DMC_UE_CNT (c : Nat) : Nat := DMC c + 0x034
def DMC_UE_CNT_count (c : Nat) : Fld := ⟨DMC_UE_CNT c, 0, 32⟩
def DMC_PANIC_CNT (c : Nat) : Nat := DMC c + 0x038
def DMC_PANIC_CNT_count (c : Nat) : Fld := ⟨DMC_PANIC_CNT c, 0, 32⟩
def DMC_AGE_CNT (c : Nat) : Nat := DMC c + 0x03C
def DMC_AGE_CNT_count (c : Nat) : Fld := ⟨DMC_AGE_CNT c, 0, 32⟩
def DMC_REF_POSTPONE_CNT (c : Nat) : Nat := DMC c + 0x040
def DMC_REF_POSTPONE_CNT_count (c : Nat) : Fld := ⟨DMC_REF_POSTPONE_CNT c, 0, 32⟩
def DMC_RETRAIN_CNT (c : Nat) : Nat := DMC c + 0x044
def DMC_RETRAIN_CNT_count (c : Nat) : Fld := ⟨DMC_RETRAIN_CNT c, 0, 32⟩
def DMC_RETRAIN_FAIL_CNT (c : Nat) : Nat := DMC c + 0x048
def DMC_RETRAIN_FAIL_CNT_count (c : Nat) : Fld := ⟨DMC_RETRAIN_FAIL_CNT c, 0, 32⟩
-- Table 12.10
def DMC_CE_ADDR_LO (c : Nat) : Nat := DMC c + 0x050
def DMC_CE_ADDR_LO_addr (c : Nat) : Fld := ⟨DMC_CE_ADDR_LO c, 0, 32⟩
def DMC_CE_ADDR_HI (c : Nat) : Nat := DMC c + 0x054
def DMC_CE_ADDR_HI_addr (c : Nat) : Fld := ⟨DMC_CE_ADDR_HI c, 0, 32⟩
def DMC_CE_SYN (c : Nat) : Nat := DMC c + 0x058
def DMC_CE_SYN_symbol (c : Nat) : Fld := ⟨DMC_CE_SYN c, 0, 5⟩
def DMC_CE_SYN_magnitude (c : Nat) : Fld := ⟨DMC_CE_SYN c, 8, 4⟩
def DMC_CE_SYN_codeword (c : Nat) : Fld := ⟨DMC_CE_SYN c, 12, 3⟩
def DMC_CE_SYN_requester (c : Nat) : Fld := ⟨DMC_CE_SYN c, 16, 5⟩
def DMC_CE_SYN_op (c : Nat) : Fld := ⟨DMC_CE_SYN c, 21, 2⟩
def DMC_FRZ_ADDR_LO (c : Nat) : Nat := DMC c + 0x060
def DMC_FRZ_ADDR_LO_addr (c : Nat) : Fld := ⟨DMC_FRZ_ADDR_LO c, 0, 32⟩
def DMC_FRZ_ADDR_HI (c : Nat) : Nat := DMC c + 0x064
def DMC_FRZ_ADDR_HI_addr (c : Nat) : Fld := ⟨DMC_FRZ_ADDR_HI c, 0, 32⟩
def DMC_FRZ_LOC (c : Nat) : Nat := DMC c + 0x068
def DMC_FRZ_LOC_row (c : Nat) : Fld := ⟨DMC_FRZ_LOC c, 0, 18⟩
def DMC_FRZ_LOC_bank (c : Nat) : Fld := ⟨DMC_FRZ_LOC c, 18, 2⟩
def DMC_FRZ_LOC_bgroup (c : Nat) : Fld := ⟨DMC_FRZ_LOC c, 20, 3⟩
def DMC_FRZ_LOC_sub (c : Nat) : Fld := ⟨DMC_FRZ_LOC c, 23, 1⟩
def DMC_FRZ_LOC_rank (c : Nat) : Fld := ⟨DMC_FRZ_LOC c, 24, 1⟩
def DMC_FRZ_LOC_codeword (c : Nat) : Fld := ⟨DMC_FRZ_LOC c, 25, 3⟩
def DMC_FRZ_INFO (c : Nat) : Nat := DMC c + 0x06C
def DMC_FRZ_INFO_column (c : Nat) : Fld := ⟨DMC_FRZ_INFO c, 0, 11⟩
def DMC_FRZ_INFO_requester (c : Nat) : Fld := ⟨DMC_FRZ_INFO c, 11, 5⟩
def DMC_FRZ_INFO_op (c : Nat) : Fld := ⟨DMC_FRZ_INFO c, 16, 2⟩
def DMC_FRZ_INFO_ce_before (c : Nat) : Fld := ⟨DMC_FRZ_INFO c, 18, 1⟩
def DMC_FRZ_TS_LO (c : Nat) : Nat := DMC c + 0x070
def DMC_FRZ_TS_LO_ts (c : Nat) : Fld := ⟨DMC_FRZ_TS_LO c, 0, 32⟩
def DMC_FRZ_TS_HI (c : Nat) : Nat := DMC c + 0x074
def DMC_FRZ_TS_HI_ts (c : Nat) : Fld := ⟨DMC_FRZ_TS_HI c, 0, 32⟩
def DMC_FRZ_EP (c : Nat) : Nat := DMC c + 0x078
def DMC_FRZ_EP_epoch (c : Nat) : Fld := ⟨DMC_FRZ_EP c, 0, 16⟩
def DMC_FREEZE_CTL (c : Nat) : Nat := DMC c + 0x07C
def DMC_FREEZE_CTL_release (c : Nat) : Fld := ⟨DMC_FREEZE_CTL c, 0, 1⟩
def DMC_FREEZE_CTL_held (c : Nat) : Fld := ⟨DMC_FREEZE_CTL c, 16, 9⟩
-- Table 12.11
def DMC_DIAG_ADDR_LO (c : Nat) : Nat := DMC c + 0x080
def DMC_DIAG_ADDR_LO_addr (c : Nat) : Fld := ⟨DMC_DIAG_ADDR_LO c, 0, 32⟩
def DMC_DIAG_ADDR_HI (c : Nat) : Nat := DMC c + 0x084
def DMC_DIAG_ADDR_HI_addr (c : Nat) : Fld := ⟨DMC_DIAG_ADDR_HI c, 0, 32⟩
def DMC_DIAG_CTL (c : Nat) : Nat := DMC c + 0x088
def DMC_DIAG_CTL_op (c : Nat) : Fld := ⟨DMC_DIAG_CTL c, 0, 2⟩
def DMC_DIAG_CTL_busy (c : Nat) : Fld := ⟨DMC_DIAG_CTL c, 2, 1⟩
def DMC_DIAG_CTL_result (c : Nat) : Fld := ⟨DMC_DIAG_CTL c, 3, 2⟩
def DMC_DIAG_CTL_pattern (c : Nat) : Fld := ⟨DMC_DIAG_CTL c, 8, 8⟩
def DMC_DIAG_SYN (c i : Nat) : Nat := DMC c + 0x090 + 4 * i
def DMC_DIAG_SYN_result (c i : Nat) : Fld := ⟨DMC_DIAG_SYN c i, 0, 2⟩
def DMC_DIAG_SYN_symbol (c i : Nat) : Fld := ⟨DMC_DIAG_SYN c i, 2, 5⟩
def DMC_DIAG_SYN_magnitude (c i : Nat) : Fld := ⟨DMC_DIAG_SYN c i, 8, 4⟩
def DMC_RETAIN (c : Nat) : Nat := DMC c + 0x0B0
def DMC_RETAIN_ranks (c : Nat) : Fld := ⟨DMC_RETAIN c, 0, 2⟩
def DMC_TRAIN_RESULT (c : Nat) : Nat := DMC c + 0x0B4
def DMC_TRAIN_RESULT_code (c : Nat) : Fld := ⟨DMC_TRAIN_RESULT c, 0, 4⟩
def DMC_TRAIN_RESULT_lane (c : Nat) : Fld := ⟨DMC_TRAIN_RESULT c, 8, 8⟩
def DMC_DIAG_RAW (c i : Nat) : Nat := DMC c + 0x100 + 4 * i
def DMC_DIAG_RAW_raw (c i : Nat) : Fld := ⟨DMC_DIAG_RAW c i, 0, 32⟩
def DMC_EYE (c i : Nat) : Nat := DMC c + 0x200 + 4 * i
def DMC_EYE_width (c i : Nat) : Fld := ⟨DMC_EYE c i, 0, 10⟩
def DMC_EYE_height (c i : Nat) : Fld := ⟨DMC_EYE c i, 16, 10⟩
-- Table 13.4
def CXH_CTL : Nat := CXH + 0x000
def CXH_CTL_en : Fld := ⟨CXH_CTL, 0, 1⟩
def CXH_CTL_bifurcate : Fld := ⟨CXH_CTL, 1, 1⟩
def CXH_CTL_interleave : Fld := ⟨CXH_CTL, 2, 1⟩
def CXH_CTL_max_speed : Fld := ⟨CXH_CTL, 3, 1⟩
def CXH_CTL_ide_req : Fld := ⟨CXH_CTL, 4, 1⟩
def CXH_CTL_reenum : Fld := ⟨CXH_CTL, 5, 1⟩
def CXH_CTL_base1 : Fld := ⟨CXH_CTL, 16, 13⟩
-- Table 13.5
def CXH_LINK (i : Nat) : Nat := CXH + 0x010 + 4 * i
def CXH_LINK_state (i : Nat) : Fld := ⟨CXH_LINK i, 0, 3⟩
def CXH_LINK_width (i : Nat) : Fld := ⟨CXH_LINK i, 8, 5⟩
def CXH_LINK_speed (i : Nat) : Fld := ⟨CXH_LINK i, 16, 2⟩
def CXH_LINK_ide (i : Nat) : Fld := ⟨CXH_LINK i, 18, 1⟩
def CXH_LINK_degraded (i : Nat) : Fld := ⟨CXH_LINK i, 19, 1⟩
def CXH_LINK_fail_step (i : Nat) : Fld := ⟨CXH_LINK i, 20, 3⟩
-- Table 13.6
def CXH_CAP (i : Nat) : Nat := CXH + 0x020 + 4 * i
def CXH_CAP_gib (i : Nat) : Fld := ⟨CXH_CAP i, 0, 13⟩
def CXH_FAR_SIZE : Nat := CXH + 0x030
def CXH_FAR_SIZE_gib : Fld := ⟨CXH_FAR_SIZE, 0, 13⟩
def CXH_TMO : Nat := CXH + 0x034
def CXH_TMO_us : Fld := ⟨CXH_TMO, 0, 16⟩
def CXH_TAGS : Nat := CXH + 0x038
def CXH_TAGS_used : Fld := ⟨CXH_TAGS, 0, 12⟩
def CXH_POISON_CNT : Nat := CXH + 0x040
def CXH_POISON_CNT_count : Fld := ⟨CXH_POISON_CNT, 0, 32⟩
def CXH_TMO_CNT : Nat := CXH + 0x044
def CXH_TMO_CNT_count : Fld := ⟨CXH_TMO_CNT, 0, 32⟩
def CXH_RECOVERY_CNT : Nat := CXH + 0x048
def CXH_RECOVERY_CNT_count : Fld := ⟨CXH_RECOVERY_CNT, 0, 32⟩
def CXH_REPLAY_CNT : Nat := CXH + 0x04C
def CXH_REPLAY_CNT_count : Fld := ⟨CXH_REPLAY_CNT, 0, 32⟩
def CXH_ERRCPL_CNT : Nat := CXH + 0x050
def CXH_ERRCPL_CNT_count : Fld := ⟨CXH_ERRCPL_CNT, 0, 32⟩
def CXH_EXP_EVT_CNT : Nat := CXH + 0x054
def CXH_EXP_EVT_CNT_count : Fld := ⟨CXH_EXP_EVT_CNT, 0, 32⟩
def CXH_IDE_FAIL_CNT : Nat := CXH + 0x058
def CXH_IDE_FAIL_CNT_count : Fld := ⟨CXH_IDE_FAIL_CNT, 0, 32⟩
def CXH_ERR_ADDR_LO : Nat := CXH + 0x060
def CXH_ERR_ADDR_LO_addr : Fld := ⟨CXH_ERR_ADDR_LO, 0, 32⟩
def CXH_ERR_ADDR_HI : Nat := CXH + 0x064
def CXH_ERR_ADDR_HI_addr : Fld := ⟨CXH_ERR_ADDR_HI, 0, 32⟩
def CXH_ERR_INFO : Nat := CXH + 0x068
def CXH_ERR_INFO_kind : Fld := ⟨CXH_ERR_INFO, 0, 2⟩
def CXH_ERR_INFO_half : Fld := ⟨CXH_ERR_INFO, 2, 1⟩
def CXH_ERR_INFO_requester : Fld := ⟨CXH_ERR_INFO, 3, 5⟩
-- Table 14.12
def NET_CTL : Nat := NET + 0x000
def NET_CTL_a_en : Fld := ⟨NET_CTL, 0, 1⟩
def NET_CTL_b_en : Fld := ⟨NET_CTL, 1, 1⟩
def NET_CTL_apply : Fld := ⟨NET_CTL, 2, 1⟩
-- Table 14.13
def NET_STATUS : Nat := NET + 0x004
def NET_STATUS_ready : Fld := ⟨NET_STATUS, 0, 1⟩
def NET_STATUS_a_link : Fld := ⟨NET_STATUS, 1, 1⟩
def NET_STATUS_b_link : Fld := ⟨NET_STATUS, 2, 1⟩
def NET_STATUS_a_addr : Fld := ⟨NET_STATUS, 3, 1⟩
def NET_STATUS_b_addr : Fld := ⟨NET_STATUS, 4, 1⟩
def NET_STATUS_open : Fld := ⟨NET_STATUS, 8, 8⟩
def NET_STATUS_long_op : Fld := ⟨NET_STATUS, 16, 1⟩
-- Table 14.14
def NET_RTO : Nat := NET + 0x010
def NET_RTO_us : Fld := ⟨NET_RTO, 0, 16⟩
def NET_EVT_MIN : Nat := NET + 0x014
def NET_EVT_MIN_us : Fld := ⟨NET_EVT_MIN, 0, 16⟩
def NET_RESUME_TMO : Nat := NET + 0x018
def NET_RESUME_TMO_ms : Fld := ⟨NET_RESUME_TMO, 0, 16⟩
def NET_LONG_OP : Nat := NET + 0x020
def NET_LONG_OP_opcode : Fld := ⟨NET_LONG_OP, 0, 16⟩
def NET_LONG_OP_session : Fld := ⟨NET_LONG_OP, 16, 3⟩
def NET_LONG_OP_progress : Fld := ⟨NET_LONG_OP, 20, 10⟩
def NET_LONG_LEFT : Nat := NET + 0x024
def NET_LONG_LEFT_ms : Fld := ⟨NET_LONG_LEFT, 0, 32⟩
def NET_LONG_RESULT : Nat := NET + 0x028
def NET_LONG_RESULT_result : Fld := ⟨NET_LONG_RESULT, 0, 32⟩
-- Table 14.15
def NET_MAC_LO (p : Nat) : Nat := NET + 0x100 + 0x80 * p + 0x000
def NET_MAC_LO_mac (p : Nat) : Fld := ⟨NET_MAC_LO p, 0, 32⟩
def NET_MAC_HI (p : Nat) : Nat := NET + 0x100 + 0x80 * p + 0x004
def NET_MAC_HI_mac (p : Nat) : Fld := ⟨NET_MAC_HI p, 0, 16⟩
def NET_PORT_CFG (p : Nat) : Nat := NET + 0x100 + 0x80 * p + 0x008
def NET_PORT_CFG_phy (p : Nat) : Fld := ⟨NET_PORT_CFG p, 0, 1⟩
def NET_PORT_CFG_v4_en (p : Nat) : Fld := ⟨NET_PORT_CFG p, 1, 1⟩
def NET_PORT_CFG_dhcp (p : Nat) : Fld := ⟨NET_PORT_CFG p, 2, 1⟩
def NET_PORT_CFG_v6_en (p : Nat) : Fld := ⟨NET_PORT_CFG p, 3, 1⟩
def NET_PORT_CFG_vlan_en (p : Nat) : Fld := ⟨NET_PORT_CFG p, 4, 1⟩
def NET_PORT_CFG_vlan_id (p : Nat) : Fld := ⟨NET_PORT_CFG p, 16, 12⟩
def NET_IP4_ADDR (p : Nat) : Nat := NET + 0x100 + 0x80 * p + 0x00C
def NET_IP4_ADDR_addr (p : Nat) : Fld := ⟨NET_IP4_ADDR p, 0, 32⟩
def NET_IP6_ADDR (p i : Nat) : Nat := NET + 0x100 + 0x80 * p + 0x010 + 4 * i
def NET_IP6_ADDR_addr (p i : Nat) : Fld := ⟨NET_IP6_ADDR p i, 0, 32⟩
def NET_PORT_STATUS (p : Nat) : Nat := NET + 0x100 + 0x80 * p + 0x020
def NET_PORT_STATUS_link (p : Nat) : Fld := ⟨NET_PORT_STATUS p, 0, 1⟩
def NET_PORT_STATUS_fec_lock (p : Nat) : Fld := ⟨NET_PORT_STATUS p, 1, 1⟩
def NET_PORT_STATUS_v4_valid (p : Nat) : Fld := ⟨NET_PORT_STATUS p, 2, 1⟩
def NET_PORT_STATUS_v6_valid (p : Nat) : Fld := ⟨NET_PORT_STATUS p, 3, 1⟩
def NET_PORT_STATUS_conflict (p : Nat) : Fld := ⟨NET_PORT_STATUS p, 4, 1⟩
def NET_RX_OK (p : Nat) : Nat := NET + 0x100 + 0x80 * p + 0x030
def NET_RX_OK_count (p : Nat) : Fld := ⟨NET_RX_OK p, 0, 32⟩
def NET_TX_OK (p : Nat) : Nat := NET + 0x100 + 0x80 * p + 0x034
def NET_TX_OK_count (p : Nat) : Fld := ⟨NET_TX_OK p, 0, 32⟩
def NET_FEC_CE (p : Nat) : Nat := NET + 0x100 + 0x80 * p + 0x038
def NET_FEC_CE_count (p : Nat) : Fld := ⟨NET_FEC_CE p, 0, 32⟩
def NET_FEC_UE (p : Nat) : Nat := NET + 0x100 + 0x80 * p + 0x03C
def NET_FEC_UE_count (p : Nat) : Fld := ⟨NET_FEC_UE p, 0, 32⟩
def NET_BAD_FRAME (p : Nat) : Nat := NET + 0x100 + 0x80 * p + 0x040
def NET_BAD_FRAME_count (p : Nat) : Fld := ⟨NET_BAD_FRAME p, 0, 32⟩
def NET_DROP_BOOT (p : Nat) : Nat := NET + 0x100 + 0x80 * p + 0x044
def NET_DROP_BOOT_count (p : Nat) : Fld := ⟨NET_DROP_BOOT p, 0, 32⟩
def NET_POLICE_DROP (p : Nat) : Nat := NET + 0x100 + 0x80 * p + 0x048
def NET_POLICE_DROP_count (p : Nat) : Fld := ⟨NET_POLICE_DROP p, 0, 32⟩
def NET_PAUSE_RX (p : Nat) : Nat := NET + 0x100 + 0x80 * p + 0x04C
def NET_PAUSE_RX_count (p : Nat) : Fld := ⟨NET_PAUSE_RX p, 0, 32⟩
-- Table 14.16
def NET_SESS_STATUS (k : Nat) : Nat := NET + 0x400 + 0x20 * k + 0x000
def NET_SESS_STATUS_state (k : Nat) : Fld := ⟨NET_SESS_STATUS k, 0, 2⟩
def NET_SESS_STATUS_enc (k : Nat) : Fld := ⟨NET_SESS_STATUS k, 2, 1⟩
def NET_SESS_STATUS_port (k : Nat) : Fld := ⟨NET_SESS_STATUS k, 3, 1⟩
def NET_SESS_STATUS_resumed (k : Nat) : Fld := ⟨NET_SESS_STATUS k, 4, 1⟩
def NET_SESS_STATUS_end (k : Nat) : Fld := ⟨NET_SESS_STATUS k, 8, 8⟩
def NET_SESS_CFG (k : Nat) : Nat := NET + 0x400 + 0x20 * k + 0x004
def NET_SESS_CFG_evt_en (k : Nat) : Fld := ⟨NET_SESS_CFG k, 0, 1⟩
def NET_SESS_SID (k : Nat) : Nat := NET + 0x400 + 0x20 * k + 0x008
def NET_SESS_SID_sid (k : Nat) : Fld := ⟨NET_SESS_SID k, 0, 32⟩
def NET_SESS_TXC (k : Nat) : Nat := NET + 0x400 + 0x20 * k + 0x00C
def NET_SESS_TXC_txc (k : Nat) : Fld := ⟨NET_SESS_TXC k, 0, 32⟩
def NET_SESS_RETX (k : Nat) : Nat := NET + 0x400 + 0x20 * k + 0x010
def NET_SESS_RETX_count (k : Nat) : Fld := ⟨NET_SESS_RETX k, 0, 32⟩
def NET_SESS_AUTHFAIL (k : Nat) : Nat := NET + 0x400 + 0x20 * k + 0x014
def NET_SESS_AUTHFAIL_count (k : Nat) : Fld := ⟨NET_SESS_AUTHFAIL k, 0, 32⟩
def NET_SESS_REPLAY (k : Nat) : Nat := NET + 0x400 + 0x20 * k + 0x018
def NET_SESS_REPLAY_count (k : Nat) : Fld := ⟨NET_SESS_REPLAY k, 0, 32⟩
-- Table 15.15
def SEC_STATUS : Nat := SEC + 0x000
def SEC_STATUS_lifecycle : Fld := ⟨SEC_STATUS, 0, 2⟩
def SEC_STATUS_sealed : Fld := ⟨SEC_STATUS, 2, 1⟩
def SEC_STATUS_jtag_open : Fld := ⟨SEC_STATUS, 3, 1⟩
def SEC_STATUS_owner_lost : Fld := ⟨SEC_STATUS, 4, 1⟩
def SEC_STATUS_erased_seen : Fld := ⟨SEC_STATUS, 5, 1⟩
def SEC_STATUS_epoch : Fld := ⟨SEC_STATUS, 8, 6⟩
def SEC_SERIAL_LO : Nat := SEC + 0x004
def SEC_SERIAL_LO_serial : Fld := ⟨SEC_SERIAL_LO, 0, 32⟩
def SEC_SERIAL_HI : Nat := SEC + 0x008
def SEC_SERIAL_HI_serial : Fld := ⟨SEC_SERIAL_HI, 0, 32⟩
def SEC_POLICY : Nat := SEC + 0x010
def SEC_POLICY_flags : Fld := ⟨SEC_POLICY, 0, 4⟩
def SEC_POLICY_tamper_floor : Fld := ⟨SEC_POLICY, 16, 14⟩
def SEC_TAMPER : Nat := SEC + 0x014
def SEC_TAMPER_active : Fld := ⟨SEC_TAMPER, 0, 7⟩
def SEC_TAMPER_seen : Fld := ⟨SEC_TAMPER, 8, 7⟩
def SEC_AUTH_RUN : Nat := SEC + 0x018
def SEC_AUTH_RUN_run : Fld := ⟨SEC_AUTH_RUN, 0, 8⟩
def SEC_AUTH_FAIL_CNT : Nat := SEC + 0x01C
def SEC_AUTH_FAIL_CNT_count : Fld := ⟨SEC_AUTH_FAIL_CNT, 0, 32⟩
def SEC_KEYS_LO : Nat := SEC + 0x020
def SEC_KEYS_LO_loaded : Fld := ⟨SEC_KEYS_LO, 0, 32⟩
def SEC_KEYS_HI : Nat := SEC + 0x024
def SEC_KEYS_HI_loaded : Fld := ⟨SEC_KEYS_HI, 0, 32⟩
def SEC_RK_REGION (i : Nat) : Nat := SEC + 0x040 + 4 * i
def SEC_RK_REGION_base (i : Nat) : Fld := ⟨SEC_RK_REGION i, 0, 11⟩
def SEC_RK_REGION_size (i : Nat) : Fld := ⟨SEC_RK_REGION i, 16, 11⟩
def SEC_RK_REGION_locked (i : Nat) : Fld := ⟨SEC_RK_REGION i, 31, 1⟩
def SEC_RK_ID (i : Nat) : Nat := SEC + 0x060 + 4 * i
def SEC_RK_ID_id (i : Nat) : Fld := ⟨SEC_RK_ID i, 0, 32⟩
def SEC_RK_LEFT (i : Nat) : Nat := SEC + 0x080 + 4 * i
def SEC_RK_LEFT_uses (i : Nat) : Fld := ⟨SEC_RK_LEFT i, 0, 32⟩
def SEC_RCPT : Nat := SEC + 0x0A0
def SEC_RCPT_queued : Fld := ⟨SEC_RCPT, 0, 7⟩
def SEC_LAST_RESULT : Nat := SEC + 0x0A4
def SEC_LAST_RESULT_code : Fld := ⟨SEC_LAST_RESULT, 0, 8⟩
def SEC_LAST_RESULT_opcode : Fld := ⟨SEC_LAST_RESULT, 16, 16⟩
def SEC_ROLLBACK : Nat := SEC + 0x0A8
def SEC_ROLLBACK_boot : Fld := ⟨SEC_ROLLBACK, 0, 6⟩
def SEC_ROLLBACK_house : Fld := ⟨SEC_ROLLBACK, 8, 6⟩
def SEC_ROLLBACK_patch : Fld := ⟨SEC_ROLLBACK, 16, 6⟩
def SEC_TLOG_CNT : Nat := SEC + 0x0AC
def SEC_TLOG_CNT_count : Fld := ⟨SEC_TLOG_CNT, 0, 32⟩
-- Table 16.8
def CAL_CTL : Nat := CAL + 0x000
def CAL_CTL_en : Fld := ⟨CAL_CTL, 0, 1⟩
def CAL_CTL_ist_en : Fld := ⟨CAL_CTL, 1, 1⟩
def CAL_CTL_scrub_en : Fld := ⟨CAL_CTL, 2, 1⟩
-- Table 16.9
def CAL_STATUS : Nat := CAL + 0x004
def CAL_STATUS_full_busy : Fld := ⟨CAL_STATUS, 0, 1⟩
def CAL_STATUS_any_stale : Fld := ⟨CAL_STATUS, 1, 1⟩
def CAL_STATUS_crypto_hold : Fld := ⟨CAL_STATUS, 2, 1⟩
def CAL_STATUS_t64_clip : Fld := ⟨CAL_STATUS, 8, 1⟩
def CAL_STATUS_ist_fail : Fld := ⟨CAL_STATUS, 9, 1⟩
def CAL_STATUS_scrub_ue : Fld := ⟨CAL_STATUS, 10, 1⟩
def CAL_STATUS_sensor_fault : Fld := ⟨CAL_STATUS, 11, 1⟩
-- Table 16.10
def CAL_TEMP_THR : Nat := CAL + 0x008
def CAL_TEMP_THR_thr : Fld := ⟨CAL_TEMP_THR, 0, 8⟩
def CAL_DEFER : Nat := CAL + 0x00C
def CAL_DEFER_s : Fld := ⟨CAL_DEFER, 0, 10⟩
def CAL_IST_PERIOD : Nat := CAL + 0x010
def CAL_IST_PERIOD_ms : Fld := ⟨CAL_IST_PERIOD, 0, 16⟩
def CAL_SCRUB_RATE : Nat := CAL + 0x014
def CAL_SCRUB_RATE_near : Fld := ⟨CAL_SCRUB_RATE, 0, 12⟩
def CAL_SCRUB_RATE_sram : Fld := ⟨CAL_SCRUB_RATE, 16, 12⟩
def CAL_RUN : Nat := CAL + 0x018
def CAL_RUN_unit : Fld := ⟨CAL_RUN, 0, 7⟩
def CAL_RUN_go : Fld := ⟨CAL_RUN, 31, 1⟩
def CAL_STALE (i : Nat) : Nat := CAL + 0x020 + 4 * i
def CAL_STALE_stale (i : Nat) : Fld := ⟨CAL_STALE i, 0, 32⟩
def CAL_TEMP (i : Nat) : Nat := CAL + 0x040 + 4 * i
def CAL_TEMP_temp (i : Nat) : Fld := ⟨CAL_TEMP i, 0, 13⟩
def CAL_TEMP_valid (i : Nat) : Fld := ⟨CAL_TEMP i, 31, 1⟩
def CAL_UNIT (i : Nat) : Nat := CAL + 0x400 + 4 * i
def CAL_UNIT_stale (i : Nat) : Fld := ⟨CAL_UNIT i, 0, 1⟩
def CAL_UNIT_pending (i : Nat) : Fld := ⟨CAL_UNIT i, 1, 1⟩
def CAL_UNIT_running (i : Nat) : Fld := ⟨CAL_UNIT i, 2, 1⟩
def CAL_UNIT_failed (i : Nat) : Fld := ⟨CAL_UNIT i, 3, 1⟩
def CAL_UNIT_runs (i : Nat) : Fld := ⟨CAL_UNIT i, 8, 8⟩
def CAL_UNIT_delta (i : Nat) : Fld := ⟨CAL_UNIT i, 16, 16⟩
-- Table 16.11
def CAL_RUN_CNT : Nat := CAL + 0x100
def CAL_RUN_CNT_count : Fld := ⟨CAL_RUN_CNT, 0, 32⟩
def CAL_ABANDON_CNT : Nat := CAL + 0x104
def CAL_ABANDON_CNT_count : Fld := ⟨CAL_ABANDON_CNT, 0, 32⟩
def CAL_FAIL_CNT : Nat := CAL + 0x108
def CAL_FAIL_CNT_count : Fld := ⟨CAL_FAIL_CNT, 0, 32⟩
def CAL_STALE_CNT : Nat := CAL + 0x10C
def CAL_STALE_CNT_count : Fld := ⟨CAL_STALE_CNT, 0, 32⟩
def CAL_IST_FAIL_CNT : Nat := CAL + 0x110
def CAL_IST_FAIL_CNT_count : Fld := ⟨CAL_IST_FAIL_CNT, 0, 32⟩
def CAL_SCRUB_CE_CNT : Nat := CAL + 0x114
def CAL_SCRUB_CE_CNT_count : Fld := ⟨CAL_SCRUB_CE_CNT, 0, 32⟩
def CAL_SCRUB_UE_CNT : Nat := CAL + 0x118
def CAL_SCRUB_UE_CNT_count : Fld := ⟨CAL_SCRUB_UE_CNT, 0, 32⟩
def CAL_T64_CLIP_CNT : Nat := CAL + 0x11C
def CAL_T64_CLIP_CNT_count : Fld := ⟨CAL_T64_CLIP_CNT, 0, 32⟩
def CAL_IST_LAST : Nat := CAL + 0x140
def CAL_IST_LAST_test : Fld := ⟨CAL_IST_LAST, 0, 4⟩
def CAL_IST_LAST_unit : Fld := ⟨CAL_IST_LAST, 8, 7⟩
def CAL_SCRUB_UE_ADDR_LO : Nat := CAL + 0x144
def CAL_SCRUB_UE_ADDR_LO_addr : Fld := ⟨CAL_SCRUB_UE_ADDR_LO, 0, 32⟩
def CAL_SCRUB_UE_ADDR_HI : Nat := CAL + 0x148
def CAL_SCRUB_UE_ADDR_HI_addr : Fld := ⟨CAL_SCRUB_UE_ADDR_HI, 0, 32⟩
-- Table 16.12
def CAL_Q_EDGE (i : Nat) : Nat := CAL + 0x1000 + 4 * i
def CAL_Q_EDGE_drive (i : Nat) : Fld := ⟨CAL_Q_EDGE i, 0, 10⟩
def CAL_Q_EDGE_enable (i : Nat) : Fld := ⟨CAL_Q_EDGE i, 10, 10⟩
def CAL_Q_EDGE_compare (i : Nat) : Fld := ⟨CAL_Q_EDGE i, 20, 10⟩
def CAL_Q_TIM (i : Nat) : Nat := CAL + 0x1400 + 4 * i
def CAL_Q_TIM_tac (i : Nat) : Fld := ⟨CAL_Q_TIM i, 0, 16⟩
def CAL_Q_TIM_dll (i : Nat) : Fld := ⟨CAL_Q_TIM i, 16, 16⟩
def CAL_Q_WFG (i : Nat) : Nat := CAL + 0x1480 + 4 * i
def CAL_Q_WFG_inl (i : Nat) : Fld := ⟨CAL_Q_WFG i, 0, 16⟩
def CAL_Q_PDAC (i : Nat) : Nat := CAL + 0x1490 + 4 * i
def CAL_Q_PDAC_inl (i : Nat) : Fld := ⟨CAL_Q_PDAC i, 0, 16⟩
def CAL_Q_TIN (i : Nat) : Nat := CAL + 0x14D0 + 4 * i
def CAL_Q_TIN_thr (i : Nat) : Fld := ⟨CAL_Q_TIN i, 0, 16⟩
def CAL_USER_EDGE_A (i : Nat) : Nat := CAL + 0x2000 + 8 * i
def CAL_USER_EDGE_A_drive (i : Nat) : Fld := ⟨CAL_USER_EDGE_A i, 0, 16⟩
def CAL_USER_EDGE_A_enable (i : Nat) : Fld := ⟨CAL_USER_EDGE_A i, 16, 16⟩
def CAL_USER_EDGE_B (i : Nat) : Nat := CAL + 0x2004 + 8 * i
def CAL_USER_EDGE_B_compare (i : Nat) : Fld := ⟨CAL_USER_EDGE_B i, 0, 16⟩
def CAL_USER_TIM (i : Nat) : Nat := CAL + 0x2800 + 4 * i
def CAL_USER_TIM_delay (i : Nat) : Fld := ⟨CAL_USER_TIM i, 0, 32⟩
def CAL_USER_WFG_OFS (i : Nat) : Nat := CAL + 0x2880 + 8 * i
def CAL_USER_WFG_OFS_ofs (i : Nat) : Fld := ⟨CAL_USER_WFG_OFS i, 0, 16⟩
def CAL_USER_PDAC_OFS (i : Nat) : Nat := CAL + 0x2900 + 8 * i
def CAL_USER_PDAC_OFS_ofs (i : Nat) : Fld := ⟨CAL_USER_PDAC_OFS i, 0, 16⟩
def CAL_USER_WFG_GAIN (i : Nat) : Nat := CAL + 0x2884 + 8 * i
def CAL_USER_WFG_GAIN_ppm (i : Nat) : Fld := ⟨CAL_USER_WFG_GAIN i, 0, 32⟩
def CAL_USER_PDAC_GAIN (i : Nat) : Nat := CAL + 0x2904 + 8 * i
def CAL_USER_PDAC_GAIN_ppm (i : Nat) : Fld := ⟨CAL_USER_PDAC_GAIN i, 0, 32⟩
def CAL_USER_TIN (i : Nat) : Nat := CAL + 0x2980 + 4 * i
def CAL_USER_TIN_ofs (i : Nat) : Fld := ⟨CAL_USER_TIN i, 0, 16⟩
def CAL_T64_A (i : Nat) : Nat := CAL + 0x4000 + 8 * i
def CAL_T64_A_drive (i : Nat) : Fld := ⟨CAL_T64_A i, 0, 16⟩
def CAL_T64_A_enable (i : Nat) : Fld := ⟨CAL_T64_A i, 16, 16⟩
def CAL_T64_B (i : Nat) : Nat := CAL + 0x4004 + 8 * i
def CAL_T64_B_compare (i : Nat) : Fld := ⟨CAL_T64_B i, 0, 16⟩
-- Table 16.13
def SME_STATUS : Nat := SME + 0x000
def SME_STATUS_state : Fld := ⟨SME_STATUS, 0, 3⟩
def SME_STATUS_routine : Fld := ⟨SME_STATUS, 8, 4⟩
def SME_STATUS_suspended : Fld := ⟨SME_STATUS, 12, 4⟩
def SME_PATCH : Nat := SME + 0x004
def SME_PATCH_version : Fld := ⟨SME_PATCH, 0, 16⟩
def SME_PATCH_words : Fld := ⟨SME_PATCH, 16, 10⟩
def SME_PATCH_loaded : Fld := ⟨SME_PATCH, 31, 1⟩
def SME_SUSPEND_CNT : Nat := SME + 0x010
def SME_SUSPEND_CNT_count : Fld := ⟨SME_SUSPEND_CNT, 0, 32⟩
def SME_FAULT_CNT : Nat := SME + 0x014
def SME_FAULT_CNT_count : Fld := ⟨SME_FAULT_CNT, 0, 32⟩
def SME_COMMIT_MAX : Nat := SME + 0x018
def SME_COMMIT_MAX_clocks : Fld := ⟨SME_COMMIT_MAX, 0, 16⟩
def SME_MATCH (i : Nat) : Nat := SME + 0x040 + 4 * i
def SME_MATCH_rom (i : Nat) : Fld := ⟨SME_MATCH i, 0, 15⟩
def SME_MATCH_target (i : Nat) : Fld := ⟨SME_MATCH i, 16, 9⟩
def SME_MATCH_en (i : Nat) : Fld := ⟨SME_MATCH i, 31, 1⟩
-- Table 17.7
def EVC_CTL : Nat := EVC + 0x000
def EVC_CTL_alert_en : Fld := ⟨EVC_CTL, 0, 1⟩
def EVC_STATUS : Nat := EVC + 0x004
def EVC_STATUS_alert : Fld := ⟨EVC_STATUS, 0, 1⟩
def EVC_STATUS_any : Fld := ⟨EVC_STATUS, 1, 1⟩
-- Table 17.8
def EVC_MERGED : Nat := EVC + 0x010
def EVC_MERGED_count : Fld := ⟨EVC_MERGED, 0, 32⟩
def EVC_LATCH (i : Nat) : Nat := EVC + 0x100 + 4 * i
def EVC_LATCH_latch (i : Nat) : Fld := ⟨EVC_LATCH i, 0, 32⟩
def EVC_ALERT_PEND (i : Nat) : Nat := EVC + 0x140 + 4 * i
def EVC_ALERT_PEND_pend (i : Nat) : Fld := ⟨EVC_ALERT_PEND i, 0, 32⟩
def EVC_OUT_CFG (i : Nat) : Nat := EVC + 0x400 + 4 * i
def EVC_OUT_CFG_mode (i : Nat) : Fld := ⟨EVC_OUT_CFG i, 0, 2⟩
def EVC_OUT_CFG_invert (i : Nat) : Fld := ⟨EVC_OUT_CFG i, 2, 1⟩
def EVC_OUT_CFG_width (i : Nat) : Fld := ⟨EVC_OUT_CFG i, 8, 8⟩
def EVC_SRC (i : Nat) : Nat := EVC + 0x1000 + 4 * i
def EVC_SRC_en (i : Nat) : Fld := ⟨EVC_SRC i, 0, 1⟩
def EVC_SRC_amiuc (i : Nat) : Fld := ⟨EVC_SRC i, 1, 1⟩
def EVC_SRC_alert (i : Nat) : Fld := ⟨EVC_SRC i, 2, 1⟩
def EVC_SRC_sched (i : Nat) : Fld := ⟨EVC_SRC i, 3, 1⟩
def EVC_SRC_out (i : Nat) : Fld := ⟨EVC_SRC i, 4, 1⟩
def EVC_SRC_out_idx (i : Nat) : Fld := ⟨EVC_SRC i, 5, 3⟩
-- Table 17.9
def EVC_IN_CFG (i : Nat) : Nat := EVC + 0x200 + 4 * i
def EVC_IN_CFG_filter (i : Nat) : Fld := ⟨EVC_IN_CFG i, 0, 16⟩
def EVC_IN_CFG_interval (i : Nat) : Fld := ⟨EVC_IN_CFG i, 16, 16⟩
def EVC_IN_OVR (i : Nat) : Nat := EVC + 0x280 + 4 * i
def EVC_IN_OVR_count (i : Nat) : Fld := ⟨EVC_IN_OVR i, 0, 32⟩
def EVC_IN_STATE : Nat := EVC + 0x300
def EVC_IN_STATE_level : Fld := ⟨EVC_IN_STATE, 0, 17⟩
def EVC_IN_EDGE : Nat := EVC + 0x304
def EVC_IN_EDGE_edge : Fld := ⟨EVC_IN_EDGE, 0, 17⟩
def EVC_IN_OVRF : Nat := EVC + 0x308
def EVC_IN_OVRF_ovr : Fld := ⟨EVC_IN_OVRF, 0, 17⟩
-- Table 17.10
def GLB_ID : Nat := GLB + 0x000
def GLB_ID_part : Fld := ⟨GLB_ID, 0, 16⟩
def GLB_ID_stepping : Fld := ⟨GLB_ID, 16, 16⟩
def GLB_STATE : Nat := GLB + 0x004
def GLB_STATE_ready : Fld := ⟨GLB_STATE, 0, 1⟩
def GLB_STATE_slot : Fld := ⟨GLB_STATE, 4, 1⟩
def GLB_RESET_CAUSE : Nat := GLB + 0x008
def GLB_RESET_CAUSE_cause : Fld := ⟨GLB_RESET_CAUSE, 0, 3⟩
def GLB_RESET_CAUSE_count : Fld := ⟨GLB_RESET_CAUSE, 16, 16⟩
def GLB_READY_MS : Nat := GLB + 0x00C
def GLB_READY_MS_ms : Fld := ⟨GLB_READY_MS, 0, 16⟩
def GLB_QRESET : Nat := GLB + 0x010
def GLB_QRESET_go : Fld := ⟨GLB_QRESET, 0, 4⟩
def GLB_QRESET_busy : Fld := ⟨GLB_QRESET, 8, 4⟩
def GLB_WDT_CTL : Nat := GLB + 0x014
def GLB_WDT_CTL_timeout : Fld := ⟨GLB_WDT_CTL, 0, 16⟩
def GLB_WDT_CTL_en : Fld := ⟨GLB_WDT_CTL, 16, 1⟩
def GLB_WDT_LEFT : Nat := GLB + 0x018
def GLB_WDT_LEFT_ms : Fld := ⟨GLB_WDT_LEFT, 0, 16⟩
-- Table 17.11
def PWR_DOMAIN_LO : Nat := PWR + 0x000
def PWR_DOMAIN_LO_mask : Fld := ⟨PWR_DOMAIN_LO, 0, 32⟩
def PWR_DOMAIN_HI : Nat := PWR + 0x004
def PWR_DOMAIN_HI_mask : Fld := ⟨PWR_DOMAIN_HI, 0, 32⟩
def PWR_STATE_LO : Nat := PWR + 0x008
def PWR_STATE_LO_on : Fld := ⟨PWR_STATE_LO, 0, 32⟩
def PWR_STATE_HI : Nat := PWR + 0x00C
def PWR_STATE_HI_on : Fld := ⟨PWR_STATE_HI, 0, 32⟩
def PWR_FAULT_LO : Nat := PWR + 0x010
def PWR_FAULT_LO_fault : Fld := ⟨PWR_FAULT_LO, 0, 32⟩
def PWR_FAULT_HI : Nat := PWR + 0x014
def PWR_FAULT_HI_fault : Fld := ⟨PWR_FAULT_HI, 0, 32⟩
def PWR_STATUS : Nat := PWR + 0x018
def PWR_STATUS_busy : Fld := ⟨PWR_STATUS, 0, 1⟩
def PWR_STATUS_refused : Fld := ⟨PWR_STATUS, 1, 1⟩
def PWR_STATUS_therm_warn : Fld := ⟨PWR_STATUS, 2, 1⟩
def PWR_TEMP_WARN : Nat := PWR + 0x01C
def PWR_TEMP_WARN_thr : Fld := ⟨PWR_TEMP_WARN, 0, 13⟩
def PWR_TEMP_WARN_hyst : Fld := ⟨PWR_TEMP_WARN, 16, 8⟩
def PWR_TJ_MAX : Nat := PWR + 0x020
def PWR_TJ_MAX_temp : Fld := ⟨PWR_TJ_MAX, 0, 13⟩
def PWR_SWITCH_CNT : Nat := PWR + 0x024
def PWR_SWITCH_CNT_count : Fld := ⟨PWR_SWITCH_CNT, 0, 32⟩
def PWR_FAULT_CNT : Nat := PWR + 0x028
def PWR_FAULT_CNT_count : Fld := ⟨PWR_FAULT_CNT, 0, 32⟩
-- Table 18.4
def PEB_CTL (b : Nat) : Nat := PEB b + 0x000
def PEB_CTL_div (b : Nat) : Fld := ⟨PEB_CTL b, 0, 4⟩
def PEB_CTL_abort (b : Nat) : Fld := ⟨PEB_CTL b, 8, 1⟩
def PEB_TXN (b : Nat) : Nat := PEB b + 0x004
def PEB_TXN_cs (b : Nat) : Fld := ⟨PEB_TXN b, 0, 3⟩
def PEB_TXN_bytes (b : Nat) : Fld := ⟨PEB_TXN b, 8, 6⟩
def PEB_TXN_go (b : Nat) : Fld := ⟨PEB_TXN b, 31, 1⟩
def PEB_STATUS (b : Nat) : Nat := PEB b + 0x008
def PEB_STATUS_busy (b : Nat) : Fld := ⟨PEB_STATUS b, 0, 1⟩
def PEB_STATUS_done (b : Nat) : Fld := ⟨PEB_STATUS b, 1, 1⟩
def PEB_STATUS_ready (b : Nat) : Fld := ⟨PEB_STATUS b, 2, 1⟩
def PEB_STATUS_held (b : Nat) : Fld := ⟨PEB_STATUS b, 3, 1⟩
def PEB_STATUS_alert (b : Nat) : Fld := ⟨PEB_STATUS b, 4, 1⟩
def PEB_STATUS_err (b : Nat) : Fld := ⟨PEB_STATUS b, 5, 1⟩
def PEB_STATUS_aborted (b : Nat) : Fld := ⟨PEB_STATUS b, 6, 1⟩
def PEB_DATA (b i : Nat) : Nat := PEB b + 0x020 + 4 * i
def PEB_DATA_data (b i : Nat) : Fld := ⟨PEB_DATA b i, 0, 32⟩
-- Table 16.12
def CAL_FACT_EDGE_A (i : Nat) : Nat := CAL + 0x3000 + 8 * i
def CAL_FACT_EDGE_A_drive (i : Nat) : Fld := ⟨CAL_FACT_EDGE_A i, 0, 16⟩
def CAL_FACT_EDGE_A_enable (i : Nat) : Fld := ⟨CAL_FACT_EDGE_A i, 16, 16⟩
def CAL_FACT_EDGE_B (i : Nat) : Nat := CAL + 0x3004 + 8 * i
def CAL_FACT_EDGE_B_compare (i : Nat) : Fld := ⟨CAL_FACT_EDGE_B i, 0, 16⟩
def CAL_FACT_TIM (i : Nat) : Nat := CAL + 0x3800 + 4 * i
def CAL_FACT_TIM_delay (i : Nat) : Fld := ⟨CAL_FACT_TIM i, 0, 32⟩
def CAL_FACT_WFG_OFS (i : Nat) : Nat := CAL + 0x3880 + 8 * i
def CAL_FACT_WFG_OFS_ofs (i : Nat) : Fld := ⟨CAL_FACT_WFG_OFS i, 0, 16⟩
def CAL_FACT_PDAC_OFS (i : Nat) : Nat := CAL + 0x3900 + 8 * i
def CAL_FACT_PDAC_OFS_ofs (i : Nat) : Fld := ⟨CAL_FACT_PDAC_OFS i, 0, 16⟩
def CAL_FACT_WFG_GAIN (i : Nat) : Nat := CAL + 0x3884 + 8 * i
def CAL_FACT_WFG_GAIN_ppm (i : Nat) : Fld := ⟨CAL_FACT_WFG_GAIN i, 0, 32⟩
def CAL_FACT_PDAC_GAIN (i : Nat) : Nat := CAL + 0x3904 + 8 * i
def CAL_FACT_PDAC_GAIN_ppm (i : Nat) : Fld := ⟨CAL_FACT_PDAC_GAIN i, 0, 32⟩
def CAL_FACT_TIN (i : Nat) : Nat := CAL + 0x3980 + 4 * i
def CAL_FACT_TIN_ofs (i : Nat) : Fld := ⟨CAL_FACT_TIN i, 0, 16⟩

/-- Word `k` (0 to 7) of timing group `g` of timeset `t` of port `n` (R106, Table 3.6). -/
def TST_WORD (n t g k : Nat) : Nat := TST n + 256 * t + 32 * g + 4 * k
/-- Word `k` (0 to 7) of directory entry `e` (R127). -/
def SEG_WORD (e k : Nat) : Nat := SEG + 32 * e + 4 * k

/-! ## The registers of each block -/

def regsSTC0 : List Reg := [
  ⟨"STC_STATUS", 0x000, 1, 1, [⟨0, 2, .ro, 0⟩, ⟨2, 3, .ro, 7⟩, ⟨8, 1, .w1c, 0⟩, ⟨9, 1, .w1c, 0⟩]⟩,
  ⟨"STC_LOAD_RESULT", 0x004, 1, 1, [⟨0, 8, .ro, 0⟩, ⟨8, 8, .ro, 0⟩, ⟨16, 16, .ro, 0⟩]⟩,
  ⟨"STC_SERIAL_DEV", 0x008, 1, 1, [⟨0, 32, .ro, 0⟩]⟩,
  ⟨"STC_SERIAL_Q", 0x010, 4, 4, [⟨0, 32, .ro, 0⟩]⟩,
  ⟨"STC_RWL_IGNORED", 0x020, 1, 1, [⟨0, 32, .rw, 0⟩]⟩,
  ⟨"STC_OCT_OWNER", 0x030, 4, 4, [⟨0, 16, .ro, 0⟩, ⟨16, 8, .ro, 0⟩, ⟨24, 8, .ro, 0⟩]⟩,
  ⟨"STC_BANK_OWNER", 0x040, 12, 4, [⟨0, 32, .ro, 0⟩]⟩,
  ⟨"STC_POWER_LO", 0x070, 1, 1, [⟨0, 32, .ro, 0⟩]⟩,
  ⟨"STC_POWER_HI", 0x074, 1, 1, [⟨0, 32, .ro, 0xfff⟩]⟩,
  ⟨"STC_SWSTROBE", 0x080, 1, 1, [⟨0, 8, .wo, 0⟩]⟩]
def regsPRT0 : List Reg := [
  ⟨"PRT_TIMING_CTL", 0x100, 1, 1, [⟨0, 2, .rw, 0⟩]⟩,
  ⟨"PRT_TMG_STATUS", 0x104, 1, 1, [⟨0, 4, .ro, 0⟩, ⟨4, 1, .w1c, 0⟩, ⟨8, 8, .ro, 0xff⟩, ⟨16, 10, .ro, 0⟩]⟩,
  ⟨"PRT_TMG_VEC_LO", 0x108, 1, 1, [⟨0, 32, .ro, 0⟩]⟩,
  ⟨"PRT_TMG_VEC_HI", 0x10C, 1, 1, [⟨0, 32, .ro, 0⟩]⟩,
  ⟨"PRT_TMG_ADDR_LO", 0x110, 1, 1, [⟨0, 32, .ro, 0⟩]⟩,
  ⟨"PRT_TMG_ADDR_HI", 0x114, 1, 1, [⟨0, 32, .ro, 0⟩]⟩,
  ⟨"PRT_ADJ_TOTAL", 0x118, 1, 1, [⟨0, 32, .rw, 0⟩]⟩,
  ⟨"PRT_PINS", 0x11C, 1, 1, [⟨0, 7, .ro, 0⟩]⟩,
  ⟨"PRT_SEQ_CTL", 0x000, 1, 1, [⟨0, 1, .rw, 0⟩, ⟨2, 2, .rw, 0⟩, ⟨4, 2, .rw, 0⟩]⟩,
  ⟨"PRT_SEQ_START", 0x004, 1, 1, [⟨0, 16, .rw, 0⟩]⟩,
  ⟨"PRT_SEQ_STATUS", 0x008, 1, 1, [⟨0, 4, .ro, 0⟩, ⟨4, 4, .ro, 0⟩, ⟨8, 4, .ro, 0⟩, ⟨12, 1, .w1c, 0⟩, ⟨13, 1, .w1c, 0⟩, ⟨14, 1, .w1c, 0⟩]⟩,
  ⟨"PRT_SEQ_ENTRY", 0x00C, 1, 1, [⟨0, 16, .ro, 0⟩, ⟨16, 5, .ro, 0⟩]⟩,
  ⟨"PRT_SEQ_PASS", 0x010, 1, 1, [⟨0, 32, .ro, 0⟩]⟩,
  ⟨"PRT_SEQ_VEC_LO", 0x018, 1, 1, [⟨0, 32, .ro, 0⟩]⟩,
  ⟨"PRT_SEQ_VEC_HI", 0x01C, 1, 1, [⟨0, 32, .ro, 0⟩]⟩,
  ⟨"PRT_TRAILHEAD_LO", 0x020, 1, 1, [⟨0, 32, .rw, 0⟩]⟩,
  ⟨"PRT_TRAILHEAD_HI", 0x024, 1, 1, [⟨0, 32, .rw, 0⟩]⟩,
  ⟨"PRT_TRAILHEAD_EP", 0x028, 1, 1, [⟨0, 16, .rw, 0⟩]⟩,
  ⟨"PRT_START_TS_LO", 0x030, 1, 1, [⟨0, 32, .ro, 0⟩]⟩,
  ⟨"PRT_START_TS_HI", 0x034, 1, 1, [⟨0, 32, .ro, 0⟩]⟩]
def regsPRT1 : List Reg := [
  ⟨"PRT_START_EP", 0x038, 1, 1, [⟨0, 16, .ro, 0⟩]⟩,
  ⟨"PRT_JUMP_HOST", 0x040, 1, 1, [⟨0, 1, .w1s, 0⟩, ⟨1, 1, .wo, 0⟩]⟩,
  ⟨"PRT_JUMP_STATUS", 0x044, 1, 1, [⟨0, 1, .ro, 0⟩, ⟨1, 4, .ro, 0⟩, ⟨16, 16, .ro, 0⟩]⟩,
  ⟨"PRT_JUMP_TAKEN", 0x048, 1, 1, [⟨0, 32, .rw, 0⟩]⟩,
  ⟨"PRT_JUMP_REPLACED", 0x04C, 1, 1, [⟨0, 32, .rw, 0⟩]⟩,
  ⟨"PRT_WINDOW", 0x050, 1, 1, [⟨0, 10, .ro, 0⟩, ⟨16, 7, .ro, 1⟩]⟩,
  ⟨"PRT_WAIT_STATUS", 0x054, 1, 1, [⟨0, 2, .ro, 0⟩, ⟨16, 16, .ro, 0⟩]⟩,
  ⟨"PRT_WAIT_PASSES", 0x058, 1, 1, [⟨0, 32, .ro, 0⟩]⟩,
  ⟨"PRT_VERDICT_LATCH", 0x05C, 1, 1, [⟨0, 8, .ro, 0⟩, ⟨8, 1, .ro, 0⟩, ⟨9, 1, .w1c, 0⟩]⟩,
  ⟨"PRT_MATCH_LO", 0x060, 8, 8, [⟨0, 32, .rw, 0⟩]⟩,
  ⟨"PRT_MATCH_HI", 0x064, 8, 8, [⟨0, 32, .rw, 0⟩]⟩,
  ⟨"PRT_RET_STACK", 0x0A0, 16, 4, [⟨0, 16, .ro, 0⟩]⟩,
  ⟨"PRT_MARKER", 0x0E0, 1, 1, [⟨0, 4, .ro, 0⟩]⟩,
  ⟨"PRT_RAMBLE_CTL", 0x200, 1, 1, [⟨0, 2, .rw, 0⟩, ⟨2, 1, .rw, 0⟩]⟩,
  ⟨"PRT_RAMBLE_STEP", 0x204, 1, 1, [⟨0, 32, .rw, 0⟩]⟩,
  ⟨"PRT_RAMBLE_DWELL", 0x208, 1, 1, [⟨0, 32, .rw, 0⟩]⟩,
  ⟨"PRT_RAMBLE_SLEW", 0x20C, 1, 1, [⟨0, 32, .rw, 0⟩]⟩,
  ⟨"PRT_RAMBLE_LIMIT", 0x210, 1, 1, [⟨0, 32, .rw, 0⟩]⟩,
  ⟨"PRT_RAMBLE_OFS", 0x214, 1, 1, [⟨0, 32, .ro, 0⟩]⟩,
  ⟨"PRT_RAMBLE_STATUS", 0x218, 1, 1, [⟨0, 1, .ro, 0⟩, ⟨1, 1, .w1c, 0⟩, ⟨2, 1, .w1c, 0⟩, ⟨3, 1, .ro, 0⟩]⟩]
def regsPRT2 : List Reg := [
  ⟨"PRT_RAMBLE_LOG_BASE_LO", 0x220, 1, 1, [⟨0, 32, .rw, 0⟩]⟩,
  ⟨"PRT_RAMBLE_LOG_BASE_HI", 0x224, 1, 1, [⟨0, 32, .rw, 0⟩]⟩,
  ⟨"PRT_RAMBLE_LOG_SIZE", 0x228, 1, 1, [⟨0, 5, .rw, 6⟩]⟩,
  ⟨"PRT_RAMBLE_LOG_WR", 0x22C, 1, 1, [⟨0, 32, .ro, 0⟩]⟩,
  ⟨"PRT_RAMBLE_LOG_RD", 0x230, 1, 1, [⟨0, 32, .rw, 0⟩]⟩,
  ⟨"PRT_RAMBLE_LOG_DROP", 0x234, 1, 1, [⟨0, 32, .rw, 0⟩]⟩,
  ⟨"PRT_STRM_RING", 0x300, 1, 1, [⟨0, 11, .rw, 0x40⟩]⟩,
  ⟨"PRT_STRM_PRIME", 0x304, 1, 1, [⟨0, 11, .rw, 0x20⟩, ⟨16, 11, .rw, 8⟩, ⟨27, 5, .rw, 1⟩]⟩,
  ⟨"PRT_STRM_DEMAND_NEAR", 0x308, 1, 1, [⟨0, 31, .rw, 0⟩, ⟨31, 1, .rw, 0⟩]⟩,
  ⟨"PRT_STRM_DEMAND_FAR", 0x30C, 1, 1, [⟨0, 31, .rw, 0⟩, ⟨31, 1, .rw, 0⟩]⟩,
  ⟨"PRT_STRM_ADMIT_TMO", 0x310, 1, 1, [⟨0, 16, .rw, 0x64⟩]⟩,
  ⟨"PRT_STRM_HOLD_TMO", 0x314, 1, 1, [⟨0, 24, .rw, 0x2710⟩]⟩,
  ⟨"PRT_STRM_KEY", 0x318, 1, 1, [⟨0, 6, .rw, 0⟩]⟩,
  ⟨"PRT_STRM_IMAGE", 0x31C, 1, 1, [⟨0, 32, .rw, 0⟩]⟩,
  ⟨"PRT_STRM_TAG_NEAR_LO", 0x320, 1, 1, [⟨0, 32, .rw, 0⟩]⟩,
  ⟨"PRT_STRM_TAG_NEAR_HI", 0x324, 1, 1, [⟨0, 32, .rw, 0⟩]⟩,
  ⟨"PRT_STRM_TAG_FAR_LO", 0x328, 1, 1, [⟨0, 32, .rw, 0⟩]⟩,
  ⟨"PRT_STRM_TAG_FAR_HI", 0x32C, 1, 1, [⟨0, 32, .rw, 0⟩]⟩,
  ⟨"PRT_STRM_STATUS", 0x330, 1, 1, [⟨0, 5, .ro, 0⟩, ⟨8, 4, .ro, 0⟩, ⟨12, 1, .ro, 0⟩, ⟨13, 1, .ro, 0⟩, ⟨14, 1, .ro, 0⟩, ⟨16, 1, .w1c, 0⟩, ⟨17, 1, .w1c, 0⟩, ⟨18, 1, .w1c, 0⟩, ⟨19, 1, .w1c, 0⟩]⟩,
  ⟨"PRT_STRM_VEC_LO", 0x334, 1, 1, [⟨0, 32, .ro, 0⟩]⟩]
def regsPRT3 : List Reg := [
  ⟨"PRT_STRM_VEC_HI", 0x338, 1, 1, [⟨0, 32, .ro, 0⟩]⟩,
  ⟨"PRT_STRM_ADDR_LO", 0x33C, 1, 1, [⟨0, 32, .ro, 0⟩]⟩,
  ⟨"PRT_STRM_ADDR_HI", 0x340, 1, 1, [⟨0, 32, .ro, 0⟩]⟩,
  ⟨"PRT_STRM_FILL", 0x344, 1, 1, [⟨0, 27, .ro, 0⟩]⟩,
  ⟨"PRT_STRM_MINFILL", 0x348, 1, 1, [⟨0, 27, .ro, 0⟩]⟩,
  ⟨"PRT_STRM_HOLD_CNT", 0x34C, 1, 1, [⟨0, 32, .rw, 0⟩]⟩,
  ⟨"PRT_STRM_HOLD_LAST", 0x350, 1, 1, [⟨0, 32, .ro, 0⟩]⟩,
  ⟨"PRT_STRM_HOLD_TOTAL", 0x354, 1, 1, [⟨0, 32, .rw, 0⟩]⟩,
  ⟨"PRT_STRM_PANIC_CNT", 0x358, 1, 1, [⟨0, 32, .rw, 0⟩]⟩,
  ⟨"PRT_STRM_BYTES_LO", 0x360, 1, 1, [⟨0, 32, .ro, 0⟩]⟩,
  ⟨"PRT_STRM_BYTES_HI", 0x364, 1, 1, [⟨0, 32, .ro, 0⟩]⟩,
  ⟨"PRT_START_RES", 0x400, 1, 1, [⟨0, 19, .ro, 0⟩, ⟨31, 1, .ro, 0⟩]⟩,
  ⟨"PRT_START_COMP", 0x404, 1, 1, [⟨0, 1, .rw, 0⟩]⟩,
  ⟨"PRT_START_COMP_VAL", 0x408, 1, 1, [⟨0, 19, .ro, 0⟩]⟩,
  ⟨"PRT_RATE_DEV", 0x40C, 1, 1, [⟨0, 32, .ro, 0⟩]⟩,
  ⟨"PRT_PAUSE_CNT", 0x410, 1, 1, [⟨0, 32, .rw, 0⟩]⟩,
  ⟨"PRT_PAUSE_LAST", 0x414, 1, 1, [⟨0, 32, .ro, 0⟩]⟩,
  ⟨"PRT_PAUSE_VEC_LO", 0x418, 1, 1, [⟨0, 32, .ro, 0⟩]⟩,
  ⟨"PRT_PAUSE_VEC_HI", 0x41C, 1, 1, [⟨0, 32, .ro, 0⟩]⟩]
def regsOCT0 : List Reg := [
  ⟨"OCT_PIN_CFG", 0x000, 8, 4, [⟨0, 3, .rw, 0⟩, ⟨3, 1, .rw, 0⟩, ⟨4, 1, .rw, 0⟩]⟩,
  ⟨"OCT_PIN_OFS", 0x020, 8, 4, [⟨0, 16, .rw, 0⟩, ⟨16, 16, .rw, 0⟩]⟩,
  ⟨"OCT_ADJ_CNT", 0x040, 8, 4, [⟨0, 32, .rw, 0⟩]⟩]
def regsDPL0 : List Reg := [
  ⟨"DPL_CTL", 0x000, 1, 1, [⟨0, 1, .rw, 0⟩, ⟨1, 1, .wo, 0⟩, ⟨2, 1, .rw, 1⟩, ⟨3, 1, .wo, 0⟩]⟩,
  ⟨"DPL_INT", 0x004, 1, 1, [⟨0, 7, .rw, 0x30⟩]⟩,
  ⟨"DPL_FRAC", 0x008, 1, 1, [⟨0, 32, .rw, 0⟩]⟩,
  ⟨"DPL_ODIV", 0x00C, 1, 1, [⟨0, 11, .rw, 0xc⟩]⟩,
  ⟨"DPL_SEED", 0x010, 1, 1, [⟨0, 31, .rw, 0x5a5a5a5a⟩]⟩,
  ⟨"DPL_SLEW", 0x014, 1, 1, [⟨0, 16, .rw, 0xc800⟩]⟩,
  ⟨"DPL_STATUS", 0x018, 1, 1, [⟨0, 3, .ro, 0⟩, ⟨3, 1, .ro, 0⟩, ⟨4, 1, .ro, 0⟩, ⟨5, 3, .ro, 0⟩, ⟨8, 1, .w1c, 0⟩, ⟨9, 1, .w1c, 0⟩, ⟨10, 1, .w1c, 0⟩]⟩,
  ⟨"DPL_ACT_INT", 0x01C, 1, 1, [⟨0, 7, .ro, 0x30⟩]⟩,
  ⟨"DPL_ACT_FRAC", 0x020, 1, 1, [⟨0, 32, .ro, 0⟩]⟩,
  ⟨"DPL_RELOCK_CNT", 0x024, 1, 1, [⟨0, 32, .rw, 0⟩]⟩,
  ⟨"DPL_RELOCK_LAST", 0x028, 1, 1, [⟨0, 32, .ro, 0⟩]⟩,
  ⟨"DPL_CEIL_CNT", 0x02C, 1, 1, [⟨0, 32, .rw, 0⟩]⟩,
  ⟨"DPL_PHASE_CTL", 0x030, 1, 1, [⟨0, 2, .rw, 0⟩, ⟨2, 1, .wo, 0⟩]⟩,
  ⟨"DPL_PHASE_TS_LO", 0x034, 1, 1, [⟨0, 32, .ro, 0⟩]⟩,
  ⟨"DPL_PHASE_TS_HI", 0x038, 1, 1, [⟨0, 32, .ro, 0⟩]⟩,
  ⟨"DPL_PHASE_EP", 0x03C, 1, 1, [⟨0, 16, .ro, 0⟩]⟩,
  ⟨"DPL_PHASE_OFS", 0x040, 1, 1, [⟨0, 19, .ro, 0⟩, ⟨31, 1, .ro, 0⟩]⟩,
  ⟨"DPL_PHASE_VEC_LO", 0x044, 1, 1, [⟨0, 32, .ro, 0⟩]⟩,
  ⟨"DPL_PHASE_VEC_HI", 0x048, 1, 1, [⟨0, 32, .ro, 0⟩]⟩]
def regsTMB0 : List Reg := [
  ⟨"TMB_CTL", 0x000, 1, 1, [⟨0, 1, .rw, 0⟩, ⟨1, 1, .rw, 0⟩, ⟨2, 1, .rw, 0⟩]⟩,
  ⟨"TMB_STATUS", 0x004, 1, 1, [⟨0, 3, .ro, 0⟩, ⟨3, 1, .ro, 0⟩, ⟨4, 1, .ro, 0⟩, ⟨5, 1, .ro, 0⟩, ⟨6, 1, .w1c, 0⟩, ⟨7, 1, .w1c, 0⟩, ⟨8, 2, .ro, 0⟩, ⟨10, 1, .ro, 0⟩]⟩,
  ⟨"TMB_NOW_LO", 0x008, 1, 1, [⟨0, 32, .ro, 0⟩]⟩,
  ⟨"TMB_NOW_HI", 0x00C, 1, 1, [⟨0, 32, .ro, 0⟩]⟩,
  ⟨"TMB_NOW_EP", 0x010, 1, 1, [⟨0, 16, .ro, 0⟩]⟩,
  ⟨"TMB_EPOCH_CTL", 0x014, 1, 1, [⟨0, 2, .rw, 0⟩, ⟨8, 8, .rw, 0x10⟩]⟩,
  ⟨"TMB_EPOCH_LOAD", 0x018, 1, 1, [⟨0, 16, .rw, 0⟩]⟩,
  ⟨"TMB_TRAILHEAD_LO", 0x020, 1, 1, [⟨0, 32, .rw, 0⟩]⟩,
  ⟨"TMB_TRAILHEAD_HI", 0x024, 1, 1, [⟨0, 32, .rw, 0⟩]⟩,
  ⟨"TMB_TRAILHEAD_EP", 0x028, 1, 1, [⟨0, 16, .rw, 0⟩]⟩,
  ⟨"TMB_TRAILHEAD_CTL", 0x02C, 1, 1, [⟨0, 1, .w1s, 0⟩]⟩,
  ⟨"TMB_PHASE_ERR", 0x030, 1, 1, [⟨0, 32, .ro, 0⟩]⟩,
  ⟨"TMB_SLEW", 0x034, 1, 1, [⟨0, 32, .ro, 0⟩]⟩,
  ⟨"TMB_HOLD_TIME", 0x038, 1, 1, [⟨0, 32, .ro, 0⟩]⟩,
  ⟨"TMB_STEP_CNT", 0x03C, 1, 1, [⟨0, 32, .rw, 0⟩]⟩,
  ⟨"TMB_REF_LOSS_CNT", 0x040, 1, 1, [⟨0, 32, .rw, 0⟩]⟩,
  ⟨"TMB_CEIL_CNT", 0x044, 1, 1, [⟨0, 32, .rw, 0⟩]⟩,
  ⟨"TMB_TBPLL_SEED", 0x050, 1, 1, [⟨0, 31, .rw, 0x5a5a5a5a⟩]⟩,
  ⟨"TMB_LOCK_OUT", 0x048, 1, 1, [⟨0, 1, .rw, 0⟩, ⟨1, 4, .rw, 0⟩, ⟨5, 3, .rw, 0⟩]⟩,
  ⟨"TMB_DPL_EVT", 0x04C, 1, 1, [⟨0, 12, .w1c, 0⟩, ⟨16, 12, .w1c, 0⟩]⟩]
def regsACQ0 : List Reg := [
  ⟨"ACQ_CTL", 0x000, 1, 1, [⟨0, 1, .rw, 0⟩, ⟨1, 1, .wo, 0⟩, ⟨2, 1, .rw, 1⟩]⟩,
  ⟨"ACQ_STATUS", 0x004, 1, 1, [⟨0, 3, .ro, 0⟩, ⟨4, 4, .ro, 0⟩, ⟨8, 4, .ro, 0⟩, ⟨16, 1, .w1c, 0⟩, ⟨17, 1, .w1c, 0⟩, ⟨18, 1, .w1c, 0⟩, ⟨19, 1, .ro, 0⟩, ⟨20, 1, .ro, 0⟩]⟩,
  ⟨"ACQ_SRC", 0x008, 1, 1, [⟨0, 1, .rw, 0⟩, ⟨1, 1, .rw, 0⟩, ⟨2, 1, .rw, 0⟩, ⟨8, 6, .rw, 0x20⟩, ⟨16, 16, .rw, 1⟩]⟩,
  ⟨"ACQ_MAP", 0x010, 8, 4, [⟨0, 6, .rw, 0⟩, ⟨8, 6, .rw, 1⟩, ⟨16, 6, .rw, 2⟩, ⟨24, 6, .rw, 3⟩]⟩,
  ⟨"ACQ_RS_CTL", 0x030, 1, 1, [⟨0, 1, .rw, 0⟩, ⟨16, 11, .rw, 0x3e0⟩]⟩,
  ⟨"ACQ_RS_RATIO_LO", 0x034, 1, 1, [⟨0, 32, .rw, 0⟩]⟩,
  ⟨"ACQ_RS_RATIO_HI", 0x038, 1, 1, [⟨0, 16, .rw, 0⟩]⟩,
  ⟨"ACQ_RS_COEF", 0x8000, 2048, 4, [⟨0, 18, .rw, 0⟩]⟩,
  ⟨"ACQ_TRIG_CTL", 0x040, 1, 1, [⟨0, 1, .rw, 0⟩, ⟨1, 1, .rw, 0⟩, ⟨2, 1, .rw, 0⟩, ⟨4, 2, .rw, 0⟩, ⟨8, 1, .rw, 0⟩]⟩,
  ⟨"ACQ_TRIG_LEVEL", 0x044, 1, 1, [⟨0, 32, .rw, 0⟩]⟩,
  ⟨"ACQ_TRIG_HYST", 0x048, 1, 1, [⟨0, 32, .rw, 0⟩]⟩,
  ⟨"ACQ_TRIG_TS_LO", 0x04C, 1, 1, [⟨0, 32, .ro, 0⟩]⟩,
  ⟨"ACQ_TRIG_TS_HI", 0x050, 1, 1, [⟨0, 32, .ro, 0⟩]⟩,
  ⟨"ACQ_TRIG_EP", 0x054, 1, 1, [⟨0, 16, .ro, 0⟩]⟩,
  ⟨"ACQ_SEG_PRE", 0x058, 1, 1, [⟨0, 19, .rw, 0⟩]⟩,
  ⟨"ACQ_SEG_POST", 0x05C, 1, 1, [⟨0, 32, .rw, 1⟩]⟩,
  ⟨"ACQ_SEG_COUNT", 0x060, 1, 1, [⟨0, 21, .rw, 1⟩]⟩,
  ⟨"ACQ_STG_CFG", 0x064, 1, 1, [⟨0, 11, .rw, 0⟩, ⟨16, 11, .rw, 0x20⟩]⟩,
  ⟨"ACQ_STG_PANIC", 0x068, 1, 1, [⟨0, 11, .rw, 8⟩]⟩,
  ⟨"ACQ_STG_FREE", 0x06C, 1, 1, [⟨0, 27, .ro, 0⟩]⟩]
def regsACQ1 : List Reg := [
  ⟨"ACQ_DRAIN_WR", 0x070, 1, 1, [⟨0, 32, .ro, 0⟩]⟩,
  ⟨"ACQ_DRAIN_RD", 0x074, 1, 1, [⟨0, 32, .rw, 0⟩]⟩,
  ⟨"ACQ_DRAIN_SIZE", 0x078, 1, 1, [⟨0, 32, .ro, 0⟩]⟩,
  ⟨"ACQ_DRAIN_HWM", 0x07C, 1, 1, [⟨0, 32, .rw, 0⟩]⟩,
  ⟨"ACQ_SEG_DONE", 0x080, 1, 1, [⟨0, 21, .ro, 0⟩]⟩,
  ⟨"ACQ_MISSED", 0x084, 1, 1, [⟨0, 32, .rw, 0⟩]⟩,
  ⟨"ACQ_DROPPED", 0x088, 1, 1, [⟨0, 32, .rw, 0⟩]⟩,
  ⟨"ACQ_GAP_CNT", 0x08C, 1, 1, [⟨0, 32, .rw, 0⟩]⟩,
  ⟨"ACQ_TIM_DISCARD", 0x090, 1, 1, [⟨0, 32, .rw, 0⟩]⟩,
  ⟨"ACQ_RUN", 0x094, 1, 1, [⟨0, 16, .ro, 0⟩]⟩]
def regsTIM0 : List Reg := [
  ⟨"TIM_CTL", 0x000, 1, 1, [⟨0, 1, .rw, 0⟩, ⟨1, 1, .rw, 0⟩, ⟨2, 2, .rw, 0⟩, ⟨4, 2, .rw, 0⟩, ⟨6, 1, .rw, 0⟩, ⟨8, 3, .rw, 0⟩]⟩,
  ⟨"TIM_STATUS", 0x004, 1, 1, [⟨0, 3, .ro, 0⟩, ⟨3, 1, .ro, 0⟩, ⟨4, 4, .ro, 0⟩, ⟨8, 1, .w1c, 0⟩, ⟨9, 1, .w1c, 0⟩, ⟨10, 1, .w1c, 0⟩, ⟨11, 1, .w1c, 0⟩, ⟨12, 1, .w1c, 0⟩, ⟨13, 1, .w1c, 0⟩, ⟨14, 1, .ro, 0⟩, ⟨15, 1, .ro, 0⟩, ⟨16, 1, .w1c, 0⟩]⟩,
  ⟨"TIM_COUNT", 0x008, 1, 1, [⟨0, 32, .rw, 0⟩]⟩,
  ⟨"TIM_GATE", 0x00C, 1, 1, [⟨0, 32, .rw, 0x1e848⟩]⟩,
  ⟨"TIM_RESULTS", 0x010, 1, 1, [⟨0, 32, .ro, 0⟩]⟩,
  ⟨"TIM_LOST", 0x014, 1, 1, [⟨0, 32, .rw, 0⟩]⟩,
  ⟨"TIM_EDGES_LO", 0x018, 1, 1, [⟨0, 32, .ro, 0⟩]⟩,
  ⟨"TIM_EDGES_HI", 0x01C, 1, 1, [⟨0, 32, .ro, 0⟩]⟩,
  ⟨"TIM_LAST_TS_LO", 0x020, 1, 1, [⟨0, 32, .ro, 0⟩]⟩,
  ⟨"TIM_LAST_TS_HI", 0x024, 1, 1, [⟨0, 32, .ro, 0⟩]⟩,
  ⟨"TIM_LAST_EP", 0x028, 1, 1, [⟨0, 16, .ro, 0⟩]⟩,
  ⟨"TIM_LAST_RES_LO", 0x02C, 1, 1, [⟨0, 32, .ro, 0⟩]⟩,
  ⟨"TIM_LAST_RES_HI", 0x030, 1, 1, [⟨0, 32, .ro, 0⟩]⟩,
  ⟨"TIM_ACQ_DROP", 0x034, 1, 1, [⟨0, 32, .rw, 0⟩]⟩,
  ⟨"TIM_HIST_DROP", 0x038, 1, 1, [⟨0, 32, .rw, 0⟩]⟩,
  ⟨"TIM_FAULT_CNT", 0x03C, 1, 1, [⟨0, 32, .rw, 0⟩]⟩,
  ⟨"TIM_NOREF", 0x040, 1, 1, [⟨0, 32, .rw, 0⟩]⟩,
  ⟨"TIM_BRACKET", 0x044, 1, 1, [⟨0, 12, .ro, 0⟩, ⟨16, 12, .ro, 0⟩]⟩,
  ⟨"TIM_HIST_CTL", 0x050, 1, 1, [⟨0, 1, .rw, 0⟩, ⟨1, 1, .wo, 0⟩, ⟨2, 1, .ro, 0⟩, ⟨8, 5, .rw, 0⟩]⟩,
  ⟨"TIM_HIST_OFS", 0x054, 1, 1, [⟨0, 32, .rw, 0⟩]⟩]
def regsTIM1 : List Reg := [
  ⟨"TIM_HIST_FOLD", 0x058, 1, 1, [⟨0, 32, .rw, 0⟩]⟩,
  ⟨"TIM_HIST_UNDER", 0x05C, 1, 1, [⟨0, 32, .ro, 0⟩]⟩,
  ⟨"TIM_HIST_OVER", 0x060, 1, 1, [⟨0, 32, .ro, 0⟩]⟩]
def regsBIN0 : List Reg := [
  ⟨"TIM_HIST_BIN", 0x000, 4096, 4, [⟨0, 32, .ro, 0⟩]⟩]
def regsTIMC0 : List Reg := [
  ⟨"TIM_QEVT", 0x000, 1, 1, [⟨0, 8, .w1c, 0⟩, ⟨8, 8, .w1c, 0⟩, ⟨16, 8, .w1c, 0⟩, ⟨24, 8, .w1c, 0⟩]⟩,
  ⟨"TIM_IN_THR", 0x010, 4, 4, [⟨0, 12, .rw, 0x7d0⟩, ⟨12, 1, .rw, 0⟩]⟩]
def regsWFG0 : List Reg := [
  ⟨"WFG_CTL", 0x000, 1, 1, [⟨0, 1, .rw, 0⟩, ⟨2, 2, .rw, 0⟩, ⟨4, 1, .rw, 0⟩]⟩,
  ⟨"WFG_STATUS", 0x008, 1, 1, [⟨0, 3, .ro, 0⟩, ⟨4, 5, .ro, 0⟩, ⟨12, 1, .w1c, 0⟩, ⟨13, 1, .w1c, 0⟩, ⟨14, 1, .w1c, 0⟩]⟩,
  ⟨"WFG_START", 0x004, 1, 1, [⟨0, 16, .rw, 0⟩]⟩,
  ⟨"WFG_ENTRY", 0x00C, 1, 1, [⟨0, 16, .ro, 0⟩, ⟨16, 5, .ro, 0⟩]⟩,
  ⟨"WFG_SAMPLE_LO", 0x010, 1, 1, [⟨0, 32, .ro, 0⟩]⟩,
  ⟨"WFG_SAMPLE_HI", 0x014, 1, 1, [⟨0, 32, .ro, 0⟩]⟩,
  ⟨"WFG_TRAILHEAD_LO", 0x018, 1, 1, [⟨0, 32, .rw, 0⟩]⟩,
  ⟨"WFG_TRAILHEAD_HI", 0x01C, 1, 1, [⟨0, 32, .rw, 0⟩]⟩,
  ⟨"WFG_TRAILHEAD_EP", 0x020, 1, 1, [⟨0, 16, .rw, 0⟩]⟩,
  ⟨"WFG_START_TS_LO", 0x024, 1, 1, [⟨0, 32, .ro, 0⟩]⟩,
  ⟨"WFG_START_TS_HI", 0x028, 1, 1, [⟨0, 32, .ro, 0⟩]⟩,
  ⟨"WFG_START_EP", 0x02C, 1, 1, [⟨0, 16, .ro, 0⟩]⟩,
  ⟨"WFG_JUMP_HOST", 0x030, 1, 1, [⟨0, 1, .w1s, 0⟩, ⟨1, 1, .wo, 0⟩]⟩,
  ⟨"WFG_JUMP_TAKEN", 0x034, 1, 1, [⟨0, 32, .rw, 0⟩]⟩,
  ⟨"WFG_JUMP_REPLACED", 0x038, 1, 1, [⟨0, 32, .rw, 0⟩]⟩,
  ⟨"WFG_WAIT_STATUS", 0x03C, 1, 1, [⟨0, 2, .ro, 0⟩, ⟨16, 16, .ro, 0⟩]⟩,
  ⟨"WFG_WAIT_PASSES", 0x040, 1, 1, [⟨0, 32, .ro, 0⟩]⟩,
  ⟨"WFG_DEMAND_NEAR", 0x044, 1, 1, [⟨0, 31, .rw, 0⟩]⟩,
  ⟨"WFG_DEMAND_FAR", 0x048, 1, 1, [⟨0, 31, .rw, 0⟩]⟩,
  ⟨"WFG_ADMIT_TMO", 0x04C, 1, 1, [⟨0, 16, .rw, 0x64⟩]⟩]
def regsWFG1 : List Reg := [
  ⟨"WFG_OUT", 0x050, 1, 1, [⟨0, 14, .rw, 0⟩, ⟨16, 8, .rw, 0x60⟩]⟩,
  ⟨"WFG_MKR_DLY", 0x054, 4, 4, [⟨0, 11, .rw, 0⟩]⟩,
  ⟨"WFG_FILL", 0x064, 1, 1, [⟨0, 20, .ro, 0⟩]⟩,
  ⟨"WFG_PAUSE_CNT", 0x068, 1, 1, [⟨0, 32, .rw, 0⟩]⟩,
  ⟨"WFG_RET_STACK", 0x070, 16, 4, [⟨0, 16, .ro, 0⟩]⟩,
  ⟨"WFG_RS_CTL", 0x0B0, 1, 1, [⟨0, 1, .rw, 0⟩, ⟨16, 11, .rw, 0x3e0⟩]⟩,
  ⟨"WFG_RS_RATIO_LO", 0x0B4, 1, 1, [⟨0, 32, .rw, 0⟩]⟩,
  ⟨"WFG_RS_RATIO_HI", 0x0B8, 1, 1, [⟨0, 16, .rw, 0⟩]⟩,
  ⟨"WFG_RS_COEF", 0x8000, 2048, 4, [⟨0, 18, .rw, 0⟩]⟩]
def regsPDC0 : List Reg := [
  ⟨"PDC_CTL", 0x000, 1, 1, [⟨0, 1, .rw, 0⟩, ⟨1, 1, .rw, 0⟩, ⟨2, 1, .rw, 0⟩, ⟨3, 2, .rw, 0⟩, ⟨5, 1, .rw, 0⟩]⟩,
  ⟨"PDC_CODE", 0x004, 1, 1, [⟨0, 16, .rw, 0⟩]⟩,
  ⟨"PDC_OUT", 0x008, 1, 1, [⟨0, 16, .ro, 0⟩]⟩,
  ⟨"PDC_STATUS", 0x00C, 1, 1, [⟨0, 1, .ro, 0⟩, ⟨1, 1, .ro, 0⟩, ⟨2, 1, .w1c, 0⟩, ⟨3, 1, .w1c, 0⟩]⟩,
  ⟨"PDC_HOLD_RESTART", 0x010, 1, 1, [⟨0, 32, .rw, 0⟩]⟩]
def regsPDCG0 : List Reg := [
  ⟨"PDC_GLOAD", 0x000, 1, 1, [⟨0, 4, .wo, 0⟩]⟩]
def regsSLK0 : List Reg := [
  ⟨"SLK_CTL", 0x000, 1, 1, [⟨0, 1, .rw, 0⟩, ⟨8, 5, .rw, 0⟩, ⟨16, 6, .rw, 1⟩]⟩,
  ⟨"SLK_STATUS", 0x008, 1, 1, [⟨0, 3, .ro, 0⟩, ⟨3, 1, .ro, 0⟩, ⟨4, 4, .ro, 0⟩, ⟨8, 1, .w1c, 0⟩, ⟨9, 1, .w1c, 0⟩]⟩,
  ⟨"SLK_RING_ID", 0x004, 1, 1, [⟨0, 16, .rw, 0⟩]⟩,
  ⟨"SLK_VERDICT_TMO", 0x00C, 1, 1, [⟨0, 16, .rw, 0x32⟩]⟩,
  ⟨"SLK_RTT", 0x010, 1, 1, [⟨0, 32, .ro, 0⟩]⟩,
  ⟨"SLK_LAST_VERDICT", 0x014, 1, 1, [⟨0, 8, .ro, 0⟩, ⟨8, 8, .ro, 0⟩, ⟨16, 1, .ro, 0⟩, ⟨17, 3, .ro, 0⟩]⟩,
  ⟨"SLK_TH_TS_LO", 0x018, 1, 1, [⟨0, 32, .rw, 0⟩]⟩,
  ⟨"SLK_TH_TS_HI", 0x01C, 1, 1, [⟨0, 32, .rw, 0⟩]⟩,
  ⟨"SLK_TH_EP", 0x020, 1, 1, [⟨0, 16, .rw, 0⟩]⟩,
  ⟨"SLK_TH_CTL", 0x024, 1, 1, [⟨0, 1, .wo, 0⟩, ⟨1, 1, .rw, 0⟩, ⟨2, 1, .ro, 0⟩, ⟨3, 1, .w1c, 0⟩, ⟨4, 1, .w1c, 0⟩, ⟨8, 8, .rw, 0⟩]⟩,
  ⟨"SLK_CRC_ERR", 0x028, 1, 1, [⟨0, 32, .rw, 0⟩]⟩,
  ⟨"SLK_LATE", 0x02C, 1, 1, [⟨0, 32, .rw, 0⟩]⟩,
  ⟨"SLK_DELIV_DROP", 0x030, 1, 1, [⟨0, 32, .rw, 0⟩]⟩,
  ⟨"SLK_TH_REJECT", 0x034, 1, 1, [⟨0, 32, .rw, 0⟩]⟩,
  ⟨"SLK_BREAK_CNT", 0x038, 1, 1, [⟨0, 32, .rw, 0⟩]⟩,
  ⟨"SLK_TMO_CNT", 0x03C, 1, 1, [⟨0, 32, .rw, 0⟩]⟩,
  ⟨"SLK_PORT_CFG", 0x080, 8, 4, [⟨0, 2, .rw, 0⟩, ⟨2, 1, .rw, 0⟩, ⟨3, 1, .rw, 0⟩, ⟨8, 8, .rw, 0⟩, ⟨16, 16, .rw, 0⟩]⟩,
  ⟨"SLK_SITE_MASK", 0x400, 256, 4, [⟨0, 32, .rw, 0⟩]⟩]
def regsSCH0 : List Reg := [
  ⟨"SCH_CTL", 0x000, 1, 1, [⟨0, 1, .rw, 1⟩, ⟨1, 3, .rw, 0⟩]⟩,
  ⟨"SCH_STATUS", 0x004, 1, 1, [⟨0, 14, .ro, 0x2000⟩, ⟨16, 1, .ro, 0⟩, ⟨17, 1, .w1c, 0⟩, ⟨18, 1, .w1c, 0⟩, ⟨19, 1, .w1c, 0⟩]⟩,
  ⟨"SCH_ALLOC", 0x008, 1, 1, [⟨0, 13, .ro, 0⟩, ⟨31, 1, .ro, 0⟩]⟩,
  ⟨"SCH_SUBMIT", 0x00C, 1, 1, [⟨0, 13, .wo, 0⟩, ⟨16, 2, .wo, 0⟩]⟩,
  ⟨"SCH_SUBMIT_RESULT", 0x010, 1, 1, [⟨0, 4, .ro, 0⟩, ⟨16, 4, .ro, 0⟩]⟩,
  ⟨"SCH_SLOT_SEL", 0x014, 1, 1, [⟨0, 13, .rw, 0⟩, ⟨16, 4, .ro, 0⟩]⟩,
  ⟨"SCH_HAMPER_AREA", 0x018, 1, 1, [⟨0, 16, .rw, 8⟩, ⟨16, 16, .rw, 0x20⟩]⟩,
  ⟨"SCH_ERR_CNT", 0x020, 1, 1, [⟨0, 32, .rw, 0⟩]⟩,
  ⟨"SCH_CANCEL_CNT", 0x024, 1, 1, [⟨0, 32, .rw, 0⟩]⟩,
  ⟨"SCH_REFUSE_CNT", 0x028, 1, 1, [⟨0, 32, .rw, 0⟩]⟩,
  ⟨"SCH_PREEMPT_CNT", 0x02C, 1, 1, [⟨0, 32, .rw, 0⟩]⟩,
  ⟨"SCH_TMO_CNT", 0x030, 1, 1, [⟨0, 32, .rw, 0⟩]⟩,
  ⟨"SCH_CLONE_FAIL", 0x034, 1, 1, [⟨0, 32, .rw, 0⟩]⟩,
  ⟨"SCH_CORE", 0x100, 16, 4, [⟨0, 2, .ro, 0⟩, ⟨8, 3, .ro, 0⟩, ⟨16, 13, .ro, 0⟩]⟩,
  ⟨"SCH_GROUP", 0x140, 8, 4, [⟨0, 14, .ro, 0⟩, ⟨16, 3, .ro, 0⟩]⟩,
  ⟨"SCH_FRING_BASE_LO", 0x200, 8, 32, [⟨0, 32, .rw, 0⟩]⟩,
  ⟨"SCH_FRING_BASE_HI", 0x204, 8, 32, [⟨0, 32, .rw, 0⟩]⟩,
  ⟨"SCH_FRING_SIZE", 0x208, 8, 32, [⟨0, 5, .rw, 0⟩]⟩,
  ⟨"SCH_FRING_WR", 0x20C, 8, 32, [⟨0, 32, .ro, 0⟩]⟩,
  ⟨"SCH_FRING_RD", 0x210, 8, 32, [⟨0, 32, .rw, 0⟩]⟩]
def regsSCH1 : List Reg := [
  ⟨"SCH_FRING_DROP", 0x214, 8, 32, [⟨0, 32, .rw, 0⟩]⟩,
  ⟨"SCH_FRING_VEC_LO", 0x218, 8, 32, [⟨0, 32, .ro, 0⟩]⟩,
  ⟨"SCH_FRING_VEC_HI", 0x21C, 8, 32, [⟨0, 32, .ro, 0⟩]⟩,
  ⟨"SCH_BIND", 0x400, 64, 4, [⟨0, 9, .rw, 0⟩, ⟨12, 13, .rw, 0⟩, ⟨31, 1, .rw, 0⟩]⟩,
  ⟨"SCH_FLOW_CFG", 0x1000, 256, 16, [⟨0, 1, .rw, 0⟩, ⟨1, 1, .wo, 0⟩, ⟨8, 3, .rw, 0⟩]⟩,
  ⟨"SCH_FLOW_NEXT", 0x1004, 256, 16, [⟨0, 32, .ro, 0⟩]⟩,
  ⟨"SCH_FLOW_REL", 0x1008, 256, 16, [⟨0, 32, .ro, 0⟩]⟩,
  ⟨"SCH_FLOW_STATUS", 0x100C, 256, 16, [⟨0, 8, .ro, 0⟩, ⟨16, 1, .ro, 0⟩]⟩]
def regsDMC0 : List Reg := [
  ⟨"DMC_CFG", 0x000, 1, 1, [⟨0, 2, .rw, 3⟩, ⟨2, 1, .rw, 1⟩, ⟨3, 2, .rw, 2⟩, ⟨5, 1, .rw, 1⟩, ⟨6, 1, .rw, 1⟩]⟩,
  ⟨"DMC_STATUS", 0x004, 1, 1, [⟨0, 3, .ro, 0⟩, ⟨3, 1, .ro, 0⟩, ⟨4, 1, .ro, 0⟩, ⟨5, 2, .ro, 0⟩, ⟨8, 1, .w1c, 0⟩, ⟨9, 1, .w1c, 0⟩, ⟨10, 1, .w1c, 0⟩, ⟨11, 1, .w1c, 0⟩]⟩,
  ⟨"DMC_CAPACITY", 0x008, 1, 1, [⟨0, 10, .ro, 0⟩]⟩,
  ⟨"DMC_INIT_LEFT", 0x00C, 1, 1, [⟨0, 17, .ro, 0⟩]⟩,
  ⟨"DMC_SCHED_CFG", 0x010, 1, 1, [⟨0, 8, .rw, 0x10⟩, ⟨16, 8, .rw, 0x40⟩, ⟨24, 8, .rw, 0x10⟩]⟩,
  ⟨"DMC_PAGE_CFG", 0x014, 1, 1, [⟨0, 16, .rw, 0xc8⟩]⟩,
  ⟨"DMC_PAGE_HINT0", 0x018, 1, 1, [⟨0, 32, .rw, 0x55555555⟩]⟩,
  ⟨"DMC_PAGE_HINT1", 0x01C, 1, 1, [⟨0, 32, .rw, 0x155⟩]⟩,
  ⟨"DMC_RETRAIN_CFG", 0x020, 1, 1, [⟨0, 16, .rw, 0x64⟩, ⟨16, 8, .rw, 0x1e⟩, ⟨24, 8, .rw, 0xf⟩]⟩,
  ⟨"DMC_CE_CNT", 0x030, 1, 1, [⟨0, 32, .rw, 0⟩]⟩,
  ⟨"DMC_UE_CNT", 0x034, 1, 1, [⟨0, 32, .rw, 0⟩]⟩,
  ⟨"DMC_PANIC_CNT", 0x038, 1, 1, [⟨0, 32, .rw, 0⟩]⟩,
  ⟨"DMC_AGE_CNT", 0x03C, 1, 1, [⟨0, 32, .rw, 0⟩]⟩,
  ⟨"DMC_REF_POSTPONE_CNT", 0x040, 1, 1, [⟨0, 32, .rw, 0⟩]⟩,
  ⟨"DMC_RETRAIN_CNT", 0x044, 1, 1, [⟨0, 32, .rw, 0⟩]⟩,
  ⟨"DMC_RETRAIN_FAIL_CNT", 0x048, 1, 1, [⟨0, 32, .rw, 0⟩]⟩,
  ⟨"DMC_CE_ADDR_LO", 0x050, 1, 1, [⟨0, 32, .ro, 0⟩]⟩,
  ⟨"DMC_CE_ADDR_HI", 0x054, 1, 1, [⟨0, 32, .ro, 0⟩]⟩,
  ⟨"DMC_CE_SYN", 0x058, 1, 1, [⟨0, 5, .ro, 0⟩, ⟨8, 4, .ro, 0⟩, ⟨12, 3, .ro, 0⟩, ⟨16, 5, .ro, 0⟩, ⟨21, 2, .ro, 0⟩]⟩,
  ⟨"DMC_FRZ_ADDR_LO", 0x060, 1, 1, [⟨0, 32, .ro, 0⟩]⟩]
def regsDMC1 : List Reg := [
  ⟨"DMC_FRZ_ADDR_HI", 0x064, 1, 1, [⟨0, 32, .ro, 0⟩]⟩,
  ⟨"DMC_FRZ_LOC", 0x068, 1, 1, [⟨0, 18, .ro, 0⟩, ⟨18, 2, .ro, 0⟩, ⟨20, 3, .ro, 0⟩, ⟨23, 1, .ro, 0⟩, ⟨24, 1, .ro, 0⟩, ⟨25, 3, .ro, 0⟩]⟩,
  ⟨"DMC_FRZ_INFO", 0x06C, 1, 1, [⟨0, 11, .ro, 0⟩, ⟨11, 5, .ro, 0⟩, ⟨16, 2, .ro, 0⟩, ⟨18, 1, .ro, 0⟩]⟩,
  ⟨"DMC_FRZ_TS_LO", 0x070, 1, 1, [⟨0, 32, .ro, 0⟩]⟩,
  ⟨"DMC_FRZ_TS_HI", 0x074, 1, 1, [⟨0, 32, .ro, 0⟩]⟩,
  ⟨"DMC_FRZ_EP", 0x078, 1, 1, [⟨0, 16, .ro, 0⟩]⟩,
  ⟨"DMC_FREEZE_CTL", 0x07C, 1, 1, [⟨0, 1, .wo, 0⟩, ⟨16, 9, .ro, 0⟩]⟩,
  ⟨"DMC_DIAG_ADDR_LO", 0x080, 1, 1, [⟨0, 32, .rw, 0⟩]⟩,
  ⟨"DMC_DIAG_ADDR_HI", 0x084, 1, 1, [⟨0, 32, .rw, 0⟩]⟩,
  ⟨"DMC_DIAG_CTL", 0x088, 1, 1, [⟨0, 2, .wo, 0⟩, ⟨2, 1, .ro, 0⟩, ⟨3, 2, .ro, 0⟩, ⟨8, 8, .rw, 0⟩]⟩,
  ⟨"DMC_DIAG_SYN", 0x090, 8, 4, [⟨0, 2, .ro, 0⟩, ⟨2, 5, .ro, 0⟩, ⟨8, 4, .ro, 0⟩]⟩,
  ⟨"DMC_RETAIN", 0x0B0, 1, 1, [⟨0, 2, .rw, 0⟩]⟩,
  ⟨"DMC_TRAIN_RESULT", 0x0B4, 1, 1, [⟨0, 4, .ro, 0⟩, ⟨8, 8, .ro, 0xff⟩]⟩,
  ⟨"DMC_DIAG_RAW", 0x100, 20, 4, [⟨0, 32, .ro, 0⟩]⟩,
  ⟨"DMC_EYE", 0x200, 80, 4, [⟨0, 10, .ro, 0⟩, ⟨16, 10, .ro, 0⟩]⟩]
def regsCXH0 : List Reg := [
  ⟨"CXH_CTL", 0x000, 1, 1, [⟨0, 1, .rw, 1⟩, ⟨1, 1, .rw, 0⟩, ⟨2, 1, .rw, 0⟩, ⟨3, 1, .rw, 0⟩, ⟨4, 1, .rw, 0⟩, ⟨5, 1, .wo, 0⟩, ⟨16, 13, .rw, 0x800⟩]⟩,
  ⟨"CXH_LINK", 0x010, 2, 4, [⟨0, 3, .ro, 0⟩, ⟨8, 5, .ro, 0⟩, ⟨16, 2, .ro, 0⟩, ⟨18, 1, .ro, 0⟩, ⟨19, 1, .ro, 0⟩, ⟨20, 3, .ro, 0⟩]⟩,
  ⟨"CXH_CAP", 0x020, 2, 4, [⟨0, 13, .ro, 0⟩]⟩,
  ⟨"CXH_FAR_SIZE", 0x030, 1, 1, [⟨0, 13, .ro, 0⟩]⟩,
  ⟨"CXH_TMO", 0x034, 1, 1, [⟨0, 16, .rw, 0x32⟩]⟩,
  ⟨"CXH_TAGS", 0x038, 1, 1, [⟨0, 12, .ro, 0⟩]⟩,
  ⟨"CXH_POISON_CNT", 0x040, 1, 1, [⟨0, 32, .rw, 0⟩]⟩,
  ⟨"CXH_TMO_CNT", 0x044, 1, 1, [⟨0, 32, .rw, 0⟩]⟩,
  ⟨"CXH_RECOVERY_CNT", 0x048, 1, 1, [⟨0, 32, .rw, 0⟩]⟩,
  ⟨"CXH_REPLAY_CNT", 0x04C, 1, 1, [⟨0, 32, .rw, 0⟩]⟩,
  ⟨"CXH_ERRCPL_CNT", 0x050, 1, 1, [⟨0, 32, .rw, 0⟩]⟩,
  ⟨"CXH_EXP_EVT_CNT", 0x054, 1, 1, [⟨0, 32, .rw, 0⟩]⟩,
  ⟨"CXH_IDE_FAIL_CNT", 0x058, 1, 1, [⟨0, 32, .rw, 0⟩]⟩,
  ⟨"CXH_ERR_ADDR_LO", 0x060, 1, 1, [⟨0, 32, .ro, 0⟩]⟩,
  ⟨"CXH_ERR_ADDR_HI", 0x064, 1, 1, [⟨0, 32, .ro, 0⟩]⟩,
  ⟨"CXH_ERR_INFO", 0x068, 1, 1, [⟨0, 2, .ro, 0⟩, ⟨2, 1, .ro, 0⟩, ⟨3, 5, .ro, 0⟩]⟩]
def regsNET0 : List Reg := [
  ⟨"NET_CTL", 0x000, 1, 1, [⟨0, 1, .rw, 1⟩, ⟨1, 1, .rw, 1⟩, ⟨2, 1, .wo, 0⟩]⟩,
  ⟨"NET_STATUS", 0x004, 1, 1, [⟨0, 1, .ro, 0⟩, ⟨1, 1, .ro, 0⟩, ⟨2, 1, .ro, 0⟩, ⟨3, 1, .ro, 0⟩, ⟨4, 1, .ro, 0⟩, ⟨8, 8, .ro, 0⟩, ⟨16, 1, .ro, 0⟩]⟩,
  ⟨"NET_RTO", 0x010, 1, 1, [⟨0, 16, .rw, 0xc8⟩]⟩,
  ⟨"NET_EVT_MIN", 0x014, 1, 1, [⟨0, 16, .rw, 0x3e8⟩]⟩,
  ⟨"NET_RESUME_TMO", 0x018, 1, 1, [⟨0, 16, .rw, 0x2710⟩]⟩,
  ⟨"NET_LONG_OP", 0x020, 1, 1, [⟨0, 16, .ro, 0⟩, ⟨16, 3, .ro, 0⟩, ⟨20, 10, .ro, 0⟩]⟩,
  ⟨"NET_LONG_LEFT", 0x024, 1, 1, [⟨0, 32, .ro, 0⟩]⟩,
  ⟨"NET_LONG_RESULT", 0x028, 1, 1, [⟨0, 32, .ro, 0⟩]⟩,
  ⟨"NET_MAC_LO", 0x100, 2, 128, [⟨0, 32, .ro, 0⟩]⟩,
  ⟨"NET_MAC_HI", 0x104, 2, 128, [⟨0, 16, .ro, 0⟩]⟩,
  ⟨"NET_PORT_CFG", 0x108, 2, 128, [⟨0, 1, .rw, 0⟩, ⟨1, 1, .rw, 1⟩, ⟨2, 1, .rw, 0⟩, ⟨3, 1, .rw, 0⟩, ⟨4, 1, .rw, 0⟩, ⟨16, 12, .rw, 0⟩]⟩,
  ⟨"NET_IP4_ADDR", 0x10C, 2, 128, [⟨0, 32, .rw, 0⟩]⟩,
  ⟨"NET_IP6_ADDR", 0x110, 4, 4, [⟨0, 32, .rw, 0⟩]⟩,
  ⟨"NET_IP6_ADDR", 0x190, 4, 4, [⟨0, 32, .rw, 0⟩]⟩,
  ⟨"NET_PORT_STATUS", 0x120, 2, 128, [⟨0, 1, .ro, 0⟩, ⟨1, 1, .ro, 0⟩, ⟨2, 1, .ro, 0⟩, ⟨3, 1, .ro, 0⟩, ⟨4, 1, .w1c, 0⟩]⟩,
  ⟨"NET_RX_OK", 0x130, 2, 128, [⟨0, 32, .rw, 0⟩]⟩,
  ⟨"NET_TX_OK", 0x134, 2, 128, [⟨0, 32, .rw, 0⟩]⟩,
  ⟨"NET_FEC_CE", 0x138, 2, 128, [⟨0, 32, .rw, 0⟩]⟩,
  ⟨"NET_FEC_UE", 0x13C, 2, 128, [⟨0, 32, .rw, 0⟩]⟩,
  ⟨"NET_BAD_FRAME", 0x140, 2, 128, [⟨0, 32, .rw, 0⟩]⟩]
def regsNET1 : List Reg := [
  ⟨"NET_DROP_BOOT", 0x144, 2, 128, [⟨0, 32, .rw, 0⟩]⟩,
  ⟨"NET_POLICE_DROP", 0x148, 2, 128, [⟨0, 32, .rw, 0⟩]⟩,
  ⟨"NET_PAUSE_RX", 0x14C, 2, 128, [⟨0, 32, .rw, 0⟩]⟩,
  ⟨"NET_SESS_STATUS", 0x400, 8, 32, [⟨0, 2, .ro, 0⟩, ⟨2, 1, .ro, 0⟩, ⟨3, 1, .ro, 0⟩, ⟨4, 1, .ro, 0⟩, ⟨8, 8, .ro, 0⟩]⟩,
  ⟨"NET_SESS_CFG", 0x404, 8, 32, [⟨0, 1, .rw, 1⟩]⟩,
  ⟨"NET_SESS_SID", 0x408, 8, 32, [⟨0, 32, .ro, 0⟩]⟩,
  ⟨"NET_SESS_TXC", 0x40C, 8, 32, [⟨0, 32, .ro, 0⟩]⟩,
  ⟨"NET_SESS_RETX", 0x410, 8, 32, [⟨0, 32, .rw, 0⟩]⟩,
  ⟨"NET_SESS_AUTHFAIL", 0x414, 8, 32, [⟨0, 32, .rw, 0⟩]⟩,
  ⟨"NET_SESS_REPLAY", 0x418, 8, 32, [⟨0, 32, .rw, 0⟩]⟩]
def regsSEC0 : List Reg := [
  ⟨"SEC_STATUS", 0x000, 1, 1, [⟨0, 2, .ro, 0⟩, ⟨2, 1, .ro, 0⟩, ⟨3, 1, .ro, 1⟩, ⟨4, 1, .w1c, 0⟩, ⟨5, 1, .w1c, 0⟩, ⟨8, 6, .ro, 0⟩]⟩,
  ⟨"SEC_SERIAL_LO", 0x004, 1, 1, [⟨0, 32, .ro, 0⟩]⟩,
  ⟨"SEC_SERIAL_HI", 0x008, 1, 1, [⟨0, 32, .ro, 0⟩]⟩,
  ⟨"SEC_POLICY", 0x010, 1, 1, [⟨0, 4, .rw, 0⟩, ⟨16, 14, .rw, 0⟩]⟩,
  ⟨"SEC_TAMPER", 0x014, 1, 1, [⟨0, 7, .ro, 0⟩, ⟨8, 7, .w1c, 0⟩]⟩,
  ⟨"SEC_AUTH_RUN", 0x018, 1, 1, [⟨0, 8, .ro, 0⟩]⟩,
  ⟨"SEC_AUTH_FAIL_CNT", 0x01C, 1, 1, [⟨0, 32, .rw, 0⟩]⟩,
  ⟨"SEC_KEYS_LO", 0x020, 1, 1, [⟨0, 32, .ro, 0⟩]⟩,
  ⟨"SEC_KEYS_HI", 0x024, 1, 1, [⟨0, 32, .ro, 0⟩]⟩,
  ⟨"SEC_RK_REGION", 0x040, 8, 4, [⟨0, 11, .ro, 0⟩, ⟨16, 11, .ro, 0⟩, ⟨31, 1, .ro, 0⟩]⟩,
  ⟨"SEC_RK_ID", 0x060, 8, 4, [⟨0, 32, .ro, 0⟩]⟩,
  ⟨"SEC_RK_LEFT", 0x080, 8, 4, [⟨0, 32, .ro, 0⟩]⟩,
  ⟨"SEC_RCPT", 0x0A0, 1, 1, [⟨0, 7, .ro, 0⟩]⟩,
  ⟨"SEC_LAST_RESULT", 0x0A4, 1, 1, [⟨0, 8, .ro, 0⟩, ⟨16, 16, .ro, 0⟩]⟩,
  ⟨"SEC_ROLLBACK", 0x0A8, 1, 1, [⟨0, 6, .ro, 0⟩, ⟨8, 6, .ro, 0⟩, ⟨16, 6, .ro, 0⟩]⟩,
  ⟨"SEC_TLOG_CNT", 0x0AC, 1, 1, [⟨0, 32, .ro, 0⟩]⟩]
def regsCAL0 : List Reg := [
  ⟨"CAL_CTL", 0x000, 1, 1, [⟨0, 1, .rw, 1⟩, ⟨1, 1, .rw, 1⟩, ⟨2, 1, .rw, 1⟩]⟩,
  ⟨"CAL_STATUS", 0x004, 1, 1, [⟨0, 1, .ro, 0⟩, ⟨1, 1, .ro, 1⟩, ⟨2, 1, .ro, 0⟩, ⟨8, 1, .w1c, 0⟩, ⟨9, 1, .w1c, 0⟩, ⟨10, 1, .w1c, 0⟩, ⟨11, 1, .w1c, 0⟩]⟩,
  ⟨"CAL_TEMP_THR", 0x008, 1, 1, [⟨0, 8, .rw, 0x20⟩]⟩,
  ⟨"CAL_DEFER", 0x00C, 1, 1, [⟨0, 10, .rw, 0x3c⟩]⟩,
  ⟨"CAL_IST_PERIOD", 0x010, 1, 1, [⟨0, 16, .rw, 0x2710⟩]⟩,
  ⟨"CAL_SCRUB_RATE", 0x014, 1, 1, [⟨0, 12, .rw, 0x40⟩, ⟨16, 12, .rw, 0x40⟩]⟩,
  ⟨"CAL_RUN", 0x018, 1, 1, [⟨0, 7, .wo, 0⟩, ⟨31, 1, .wo, 0⟩]⟩,
  ⟨"CAL_STALE", 0x020, 3, 4, [⟨0, 32, .ro, 0xffffffff⟩]⟩,
  ⟨"CAL_TEMP", 0x040, 16, 4, [⟨0, 13, .ro, 0⟩, ⟨31, 1, .ro, 0⟩]⟩,
  ⟨"CAL_UNIT", 0x400, 76, 4, [⟨0, 1, .ro, 1⟩, ⟨1, 1, .ro, 1⟩, ⟨2, 1, .ro, 0⟩, ⟨3, 1, .w1c, 0⟩, ⟨8, 8, .ro, 0⟩, ⟨16, 16, .ro, 0⟩]⟩,
  ⟨"CAL_RUN_CNT", 0x100, 1, 1, [⟨0, 32, .rw, 0⟩]⟩,
  ⟨"CAL_ABANDON_CNT", 0x104, 1, 1, [⟨0, 32, .rw, 0⟩]⟩,
  ⟨"CAL_FAIL_CNT", 0x108, 1, 1, [⟨0, 32, .rw, 0⟩]⟩,
  ⟨"CAL_STALE_CNT", 0x10C, 1, 1, [⟨0, 32, .rw, 0⟩]⟩,
  ⟨"CAL_IST_FAIL_CNT", 0x110, 1, 1, [⟨0, 32, .rw, 0⟩]⟩,
  ⟨"CAL_SCRUB_CE_CNT", 0x114, 1, 1, [⟨0, 32, .rw, 0⟩]⟩,
  ⟨"CAL_SCRUB_UE_CNT", 0x118, 1, 1, [⟨0, 32, .rw, 0⟩]⟩,
  ⟨"CAL_T64_CLIP_CNT", 0x11C, 1, 1, [⟨0, 32, .rw, 0⟩]⟩,
  ⟨"CAL_IST_LAST", 0x140, 1, 1, [⟨0, 4, .ro, 0⟩, ⟨8, 7, .ro, 0⟩]⟩,
  ⟨"CAL_SCRUB_UE_ADDR_LO", 0x144, 1, 1, [⟨0, 32, .ro, 0⟩]⟩]
def regsCAL1 : List Reg := [
  ⟨"CAL_SCRUB_UE_ADDR_HI", 0x148, 1, 1, [⟨0, 32, .ro, 0⟩]⟩,
  ⟨"CAL_Q_EDGE", 0x1000, 256, 4, [⟨0, 10, .ro, 0⟩, ⟨10, 10, .ro, 0⟩, ⟨20, 10, .ro, 0⟩]⟩,
  ⟨"CAL_Q_TIM", 0x1400, 32, 4, [⟨0, 16, .ro, 0⟩, ⟨16, 16, .ro, 0⟩]⟩,
  ⟨"CAL_Q_WFG", 0x1480, 4, 4, [⟨0, 16, .ro, 0⟩]⟩,
  ⟨"CAL_Q_PDAC", 0x1490, 16, 4, [⟨0, 16, .ro, 0⟩]⟩,
  ⟨"CAL_Q_TIN", 0x14D0, 4, 4, [⟨0, 16, .ro, 0⟩]⟩,
  ⟨"CAL_USER_EDGE_A", 0x2000, 256, 8, [⟨0, 16, .rw, 0⟩, ⟨16, 16, .rw, 0⟩]⟩,
  ⟨"CAL_USER_EDGE_B", 0x2004, 256, 8, [⟨0, 16, .rw, 0⟩]⟩,
  ⟨"CAL_USER_TIM", 0x2800, 32, 4, [⟨0, 32, .rw, 0⟩]⟩,
  ⟨"CAL_USER_WFG_OFS", 0x2880, 4, 8, [⟨0, 16, .rw, 0⟩]⟩,
  ⟨"CAL_USER_PDAC_OFS", 0x2900, 16, 8, [⟨0, 16, .rw, 0⟩]⟩,
  ⟨"CAL_USER_WFG_GAIN", 0x2884, 4, 8, [⟨0, 32, .rw, 0⟩]⟩,
  ⟨"CAL_USER_PDAC_GAIN", 0x2904, 16, 8, [⟨0, 32, .rw, 0⟩]⟩,
  ⟨"CAL_USER_TIN", 0x2980, 4, 4, [⟨0, 16, .rw, 0⟩]⟩,
  ⟨"CAL_T64_A", 0x4000, 256, 8, [⟨0, 16, .rw, 0⟩, ⟨16, 16, .rw, 0⟩]⟩,
  ⟨"CAL_T64_B", 0x4004, 256, 8, [⟨0, 16, .rw, 0⟩]⟩,
  ⟨"CAL_FACT_EDGE_A", 0x3000, 256, 8, [⟨0, 16, .ro, 0⟩, ⟨16, 16, .ro, 0⟩]⟩,
  ⟨"CAL_FACT_EDGE_B", 0x3004, 256, 8, [⟨0, 16, .ro, 0⟩]⟩,
  ⟨"CAL_FACT_TIM", 0x3800, 32, 4, [⟨0, 32, .ro, 0⟩]⟩,
  ⟨"CAL_FACT_WFG_OFS", 0x3880, 4, 8, [⟨0, 16, .ro, 0⟩]⟩]
def regsCAL2 : List Reg := [
  ⟨"CAL_FACT_PDAC_OFS", 0x3900, 16, 8, [⟨0, 16, .ro, 0⟩]⟩,
  ⟨"CAL_FACT_WFG_GAIN", 0x3884, 4, 8, [⟨0, 32, .ro, 0⟩]⟩,
  ⟨"CAL_FACT_PDAC_GAIN", 0x3904, 16, 8, [⟨0, 32, .ro, 0⟩]⟩,
  ⟨"CAL_FACT_TIN", 0x3980, 4, 4, [⟨0, 16, .ro, 0⟩]⟩]
def regsSME0 : List Reg := [
  ⟨"SME_STATUS", 0x000, 1, 1, [⟨0, 3, .ro, 0⟩, ⟨8, 4, .ro, 0⟩, ⟨12, 4, .ro, 0⟩]⟩,
  ⟨"SME_PATCH", 0x004, 1, 1, [⟨0, 16, .ro, 0⟩, ⟨16, 10, .ro, 0⟩, ⟨31, 1, .ro, 0⟩]⟩,
  ⟨"SME_SUSPEND_CNT", 0x010, 1, 1, [⟨0, 32, .rw, 0⟩]⟩,
  ⟨"SME_FAULT_CNT", 0x014, 1, 1, [⟨0, 32, .rw, 0⟩]⟩,
  ⟨"SME_COMMIT_MAX", 0x018, 1, 1, [⟨0, 16, .rw, 0⟩]⟩,
  ⟨"SME_MATCH", 0x040, 32, 4, [⟨0, 15, .ro, 0⟩, ⟨16, 9, .ro, 0⟩, ⟨31, 1, .ro, 0⟩]⟩]
def regsEVC0 : List Reg := [
  ⟨"EVC_CTL", 0x000, 1, 1, [⟨0, 1, .rw, 1⟩]⟩,
  ⟨"EVC_STATUS", 0x004, 1, 1, [⟨0, 1, .ro, 1⟩, ⟨1, 1, .ro, 0⟩]⟩,
  ⟨"EVC_MERGED", 0x010, 1, 1, [⟨0, 32, .rw, 0⟩]⟩,
  ⟨"EVC_LATCH", 0x100, 16, 4, [⟨0, 32, .w1c, 0⟩]⟩,
  ⟨"EVC_ALERT_PEND", 0x140, 16, 4, [⟨0, 32, .ro, 0⟩]⟩,
  ⟨"EVC_OUT_CFG", 0x400, 8, 4, [⟨0, 2, .rw, 0⟩, ⟨2, 1, .rw, 0⟩, ⟨8, 8, .rw, 0x14⟩]⟩,
  ⟨"EVC_SRC", 0x1000, 512, 4, [⟨0, 1, .rw, 1⟩, ⟨1, 1, .rw, 1⟩, ⟨2, 1, .rw, 0⟩, ⟨3, 1, .rw, 0⟩, ⟨4, 1, .rw, 0⟩, ⟨5, 3, .rw, 0⟩]⟩,
  ⟨"EVC_IN_CFG", 0x200, 17, 4, [⟨0, 16, .rw, 4⟩, ⟨16, 16, .rw, 0xc8⟩]⟩,
  ⟨"EVC_IN_OVR", 0x280, 17, 4, [⟨0, 32, .rw, 0⟩]⟩,
  ⟨"EVC_IN_STATE", 0x300, 1, 1, [⟨0, 17, .ro, 0⟩]⟩,
  ⟨"EVC_IN_EDGE", 0x304, 1, 1, [⟨0, 17, .w1c, 0⟩]⟩,
  ⟨"EVC_IN_OVRF", 0x308, 1, 1, [⟨0, 17, .w1c, 0⟩]⟩]
def regsGLB0 : List Reg := [
  ⟨"GLB_ID", 0x000, 1, 1, [⟨0, 16, .ro, 0x256⟩, ⟨16, 16, .ro, 0x3142⟩]⟩,
  ⟨"GLB_STATE", 0x004, 1, 1, [⟨0, 1, .ro, 0⟩, ⟨4, 1, .ro, 0⟩]⟩,
  ⟨"GLB_RESET_CAUSE", 0x008, 1, 1, [⟨0, 3, .ro, 0⟩, ⟨16, 16, .ro, 0⟩]⟩,
  ⟨"GLB_READY_MS", 0x00C, 1, 1, [⟨0, 16, .ro, 0⟩]⟩,
  ⟨"GLB_QRESET", 0x010, 1, 1, [⟨0, 4, .wo, 0⟩, ⟨8, 4, .ro, 0⟩]⟩,
  ⟨"GLB_WDT_CTL", 0x014, 1, 1, [⟨0, 16, .rw, 0x7d0⟩, ⟨16, 1, .rw, 1⟩]⟩,
  ⟨"GLB_WDT_LEFT", 0x018, 1, 1, [⟨0, 16, .ro, 0⟩]⟩]
def regsPWR0 : List Reg := [
  ⟨"PWR_DOMAIN_LO", 0x000, 1, 1, [⟨0, 32, .rwl, 0⟩]⟩,
  ⟨"PWR_DOMAIN_HI", 0x004, 1, 1, [⟨0, 32, .rwl, 0xfff⟩]⟩,
  ⟨"PWR_STATE_LO", 0x008, 1, 1, [⟨0, 32, .ro, 0⟩]⟩,
  ⟨"PWR_STATE_HI", 0x00C, 1, 1, [⟨0, 32, .ro, 0xfff⟩]⟩,
  ⟨"PWR_FAULT_LO", 0x010, 1, 1, [⟨0, 32, .w1c, 0⟩]⟩,
  ⟨"PWR_FAULT_HI", 0x014, 1, 1, [⟨0, 32, .w1c, 0⟩]⟩,
  ⟨"PWR_STATUS", 0x018, 1, 1, [⟨0, 1, .ro, 0⟩, ⟨1, 1, .w1c, 0⟩, ⟨2, 1, .w1c, 0⟩]⟩,
  ⟨"PWR_TEMP_WARN", 0x01C, 1, 1, [⟨0, 13, .rw, 0x640⟩, ⟨16, 8, .rw, 0x20⟩]⟩,
  ⟨"PWR_TJ_MAX", 0x020, 1, 1, [⟨0, 13, .ro, 0⟩]⟩,
  ⟨"PWR_SWITCH_CNT", 0x024, 1, 1, [⟨0, 32, .rw, 0⟩]⟩,
  ⟨"PWR_FAULT_CNT", 0x028, 1, 1, [⟨0, 32, .rw, 0⟩]⟩]
def regsPEB0 : List Reg := [
  ⟨"PEB_CTL", 0x000, 1, 1, [⟨0, 4, .rw, 1⟩, ⟨8, 1, .wo, 0⟩]⟩,
  ⟨"PEB_TXN", 0x004, 1, 1, [⟨0, 3, .rw, 0⟩, ⟨8, 6, .rw, 1⟩, ⟨31, 1, .wo, 0⟩]⟩,
  ⟨"PEB_STATUS", 0x008, 1, 1, [⟨0, 1, .ro, 0⟩, ⟨1, 1, .w1c, 0⟩, ⟨2, 1, .ro, 0⟩, ⟨3, 1, .ro, 0⟩, ⟨4, 1, .ro, 0⟩, ⟨5, 1, .w1c, 0⟩, ⟨6, 1, .w1c, 0⟩]⟩,
  ⟨"PEB_DATA", 0x020, 8, 4, [⟨0, 32, .rw, 0⟩]⟩]
/-- The timing-group words of Table 3.6: words 0 to 6 hold 20 bits, word 7 holds format, window and relative. -/
def regsTST : List Reg := [
  ⟨"TST_D0", 0x00, 8192, 32, [⟨0, 20, .rw, 0⟩, ⟨20, 12, .rw, 0⟩]⟩,
  ⟨"TST_D1", 0x04, 8192, 32, [⟨0, 20, .rw, 0⟩, ⟨20, 12, .rw, 0⟩]⟩,
  ⟨"TST_D2", 0x08, 8192, 32, [⟨0, 20, .rw, 0⟩, ⟨20, 12, .rw, 0⟩]⟩,
  ⟨"TST_E0", 0x0C, 8192, 32, [⟨0, 20, .rw, 0⟩, ⟨20, 12, .rw, 0⟩]⟩,
  ⟨"TST_E1", 0x10, 8192, 32, [⟨0, 20, .rw, 0⟩, ⟨20, 12, .rw, 0⟩]⟩,
  ⟨"TST_C0", 0x14, 8192, 32, [⟨0, 20, .rw, 0⟩, ⟨20, 12, .rw, 0⟩]⟩,
  ⟨"TST_C1", 0x18, 8192, 32, [⟨0, 20, .rw, 0⟩, ⟨20, 12, .rw, 0⟩]⟩,
  ⟨"TST_FORMAT", 0x1C, 8192, 32, [⟨0, 3, .rw, 0⟩, ⟨3, 1, .rw, 0⟩, ⟨4, 1, .rw, 0⟩, ⟨5, 27, .rw, 0⟩]⟩]
/-- The segment directory: 65,536 entries of eight words, each 0 after a power-on reset (R127). -/
def regsSEG : List Reg := [⟨"SEG", 0, 524288, 4, [⟨0, 32, .rw, 0⟩]⟩]

/-- The registers of a block. -/
def Blk.regs : Blk → List Reg
  | .stc => regsSTC0
  | .prt => regsPRT0 ++ regsPRT1 ++ regsPRT2 ++ regsPRT3
  | .oct => regsOCT0
  | .dpl => regsDPL0
  | .tmb => regsTMB0
  | .acq => regsACQ0 ++ regsACQ1
  | .tim => regsTIM0 ++ regsTIM1
  | .tbins => regsBIN0
  | .timc => regsTIMC0
  | .wfg => regsWFG0 ++ regsWFG1
  | .pdc => regsPDC0
  | .pdcg => regsPDCG0
  | .slk => regsSLK0
  | .sch => regsSCH0 ++ regsSCH1
  | .dmc => regsDMC0 ++ regsDMC1
  | .cxh => regsCXH0
  | .net => regsNET0 ++ regsNET1
  | .sec => regsSEC0
  | .cal => regsCAL0 ++ regsCAL1 ++ regsCAL2
  | .sme => regsSME0
  | .evc => regsEVC0
  | .glb => regsGLB0
  | .pwr => regsPWR0
  | .peb => regsPEB0
  | .tst => regsTST
  | .seg => regsSEG

end Sys2Proof.Machine
end

