-- ==== Sys2Proof/Machine/RegMap.lean ====
section
/-! DEFINITION. The register map as functions: which register an address is (R50, R51), its reset value (R14), its power
domain (R533), and what a write does to its bits by their access types (Table 0.4). -/

namespace Sys2Proof.Machine

/-- Bits `lo + w - 1 : lo` of a word. -/
def bitsOf (x lo w : Nat) : Nat := (x >>> lo) % 2 ^ w

/-- A number with bits `lo + w - 1 : lo` replaced by `v`. -/
def bitsPut (x lo w v : Nat) : Nat :=
  x % 2 ^ lo + (v % 2 ^ w) * 2 ^ lo + (x >>> (lo + w)) * 2 ^ (lo + w)

/-- The block, unit and offset of a CSR address inside quadrant window `q` (Table 1.8). -/
def locateQuad (q w : Nat) : Option (Blk × Nat × Nat) :=
  if w < 0x100000 then some (.prt, 2 * q + w / 0x80000, w % 0x80000)
  else if w < 0x180000 then some (.acq, 2 * q + (w - 0x100000) / 0x40000, (w - 0x100000) % 0x40000)
  else if w < 0x1C0000 then
    let o := w - 0x180000
    if o < 0x800 then some (.tim, 8 * q + o / 0x100, o % 0x100)
    else if 0xF000 ≤ o ∧ o < 0x10000 then some (.timc, q, o - 0xF000)
    else if 0x20000 ≤ o then some (.tbins, 8 * q + (o - 0x20000) / 0x4000, (o - 0x20000) % 0x4000)
    else none
  else if w < 0x200000 then some (.wfg, q, w - 0x1C0000)
  else if w < 0x240000 then
    let o := w - 0x200000
    if o < 0x100 then some (.pdc, 4 * q + o / 0x40, o % 0x40)
    else if 0xF00 ≤ o ∧ o < 0x1000 then some (.pdcg, q, o - 0xF00)
    else none
  else if w < 0x248000 then some (.oct, 8 * q + (w - 0x240000) / 0x1000, w % 0x1000)
  else if w < 0x280000 then none
  else if w < 0x300000 then some (.tst, 2 * q + (w - 0x280000) / 0x40000, (w - 0x280000) % 0x40000)
  else if w < 0x302000 then some (.dpl, 2 * q + (w - 0x300000) / 0x1000, w % 0x1000)
  else if w < 0x303000 then some (.dpl, 8 + q, w % 0x1000)
  else none

/-- The global block at 64 KiB slot `k` of the CSR space (Table 1.7). -/
def globalBlk : Nat → Option Blk
  | 0 => some .glb | 1 => some .stc | 2 => some .evc | 3 => some .tmb | 4 => some .sec | 5 => some .sme
  | 6 => some .cal | 7 => some .sch | 8 => some .net | 9 => some .slk | 10 => some .pwr
  | _ => none

/-- The block, unit and offset of a CSR address (R50, R51). -/
def locate (a : Nat) : Option (Blk × Nat × Nat) :=
  if a < 0xB0000 then (globalBlk (a / 0x10000)).map fun b => (b, 0, a % 0x10000)
  else if a < 0xB0800 then some (.peb, (a - 0xB0000) / 0x100, a % 0x100)
  else if 0x100000 ≤ a ∧ a < 0x140000 then some (.dmc, (a - 0x100000) / 0x10000, a % 0x10000)
  else if 0x180000 ≤ a ∧ a < 0x190000 then some (.cxh, 0, a % 0x10000)
  else if 0x01000000 ≤ a ∧ a < 0x02000000 then
    locateQuad ((a - 0x01000000) / 0x400000) ((a - 0x01000000) % 0x400000)
  else if 0x02000000 ≤ a ∧ a < 0x02200000 then some (.seg, 0, a - 0x02000000)
  else none

/-- Does the register (or array) hold offset `o` of its block? -/
def Reg.holds (r : Reg) (o : Nat) : Bool :=
  decide (r.off ≤ o) && (if r.count = 1 then decide (o = r.off)
    else decide ((o - r.off) % r.stride = 0) && decide ((o - r.off) / r.stride < r.count))

/-- The register at a CSR address, with its block and unit; none where no register lies there. -/
def regAt (a : Nat) : Option (Blk × Nat × Nat × Reg) :=
  match locate a with
  | none => none
  | some (b, u, o) => (b.regs.find? (·.holds o)).map fun r => (b, u, o, r)

/-- The reset value that the fields of a register give together. -/
def Reg.resetBits (r : Reg) : Nat := (r.fields.map fun f => f.reset * 2 ^ f.lo).sum

/-- Where the reset value differs from instance to instance of a register: the byte map and staging base of Tables 7.11
and 7.14, the m code of Table 6.10, the filter of input 16 (Table 17.9), the stale bits above unit 75 (Table 16.10). -/
def resetOf (b : Blk) (u o : Nat) (r : Reg) : Nat :=
  match b with
  | .acq =>
    if 0x010 ≤ o ∧ o < 0x030 then 0x03020100 + 0x01010101 * (o - 0x010)
    else if o = 0x064 then (32 * u) % 256 + 32 * 2 ^ 16
    else r.resetBits
  | .dpl => if o = 0x018 ∧ 8 ≤ u then 4 * 2 ^ 5 else r.resetBits
  | .evc => if o = 0x240 then 2 + 200 * 2 ^ 16 else r.resetBits
  | .cal => if o = 0x028 then 0xFFF else r.resetBits
  | _ => r.resetBits

/-- What a register reads as right after a power-on reset (R14); 0 where no register lies. -/
def regReset (a : Nat) : Word :=
  match regAt a with
  | none => 0
  | some (b, u, o, r) => BitVec.ofNat 32 (resetOf b u o r)

/-- The switched power domain of a register (R533, Table 1.9); none for the unswitched base. -/
def domainAt (a : Nat) : Option Nat :=
  match locate a with
  | some (.prt, n, _) => some (8 * (n / 2) + n % 2)
  | some (.tst, n, _) => some (8 * (n / 2) + n % 2)
  | some (.acq, e, _) => some (8 * (e / 2) + 6)
  | some (.tim, t, _) => some (8 * (t / 8) + 2 + (t % 8) / 2)
  | some (.tbins, t, _) => some (8 * (t / 8) + 2 + (t % 8) / 2)
  | some (.wfg, m, _) => some (8 * m + 7)
  | some (.oct, o, _) => some (8 * (o / 8) + 2 + (o % 8) / 2)
  | some (.dmc, c, _) => some (32 + c)
  | some (.cxh, _, _) => some 36
  | some (.net, _, o) => if 0x180 ≤ o ∧ o < 0x200 then some 37 else none
  | _ => none

/-- What a write of `new` leaves of one field that held `old` (Table 0.4). RWL fields are written by the operations that
own them. -/
def Access.write : Access → (old new : Nat) → (w : Nat) → Nat
  | .rw, _, new, _ => new
  | .ro, old, _, _ => old
  | .w1c, old, new, w => old &&& (new ^^^ (2 ^ w - 1))
  | .w1s, old, new, _ => old ||| new
  | .wo, _, _, _ => 0
  | .rwl, old, _, _ => old

/-- What a write of `new` leaves of a register that held `old`: every field by its access type, reserved bits 0. -/
def Reg.write (r : Reg) (old new : Nat) : Nat :=
  (r.fields.map fun f => (f.acc.write (bitsOf old f.lo f.w) (bitsOf new f.lo f.w) f.w) * 2 ^ f.lo).sum

end Sys2Proof.Machine
end

