-- ==== Sys2Proof/Machine/Entry.lean ====
section
/-! DEFINITION. The directory entry (R127, Table 4.1), its conditions (Table 4.2) and its validity (R135), and the pin
states (R86, Table 3.1). -/

namespace Sys2Proof.Machine

/-- The pin states of Table 3.1, in the order of their codes. -/
inductive PinSt where
  | d0 | d1 | dz | cl | ch | cm | cx | cap
  deriving DecidableEq, Repr

/-- The state of a 3-bit code. -/
def PinSt.ofCode : Nat → PinSt
  | 0 => .d0 | 1 => .d1 | 2 => .dz | 3 => .cl | 4 => .ch | 5 => .cm | 6 => .cx | _ => .cap

/-- D0 and D1 are the drive states; the other six are off states (R86). -/
def PinSt.drives : PinSt → Bool
  | .d0 | .d1 => true
  | _ => false

/-- The states with a compare at the strobe (Table 3.1). -/
def PinSt.compares : PinSt → Bool
  | .cl | .ch | .cm => true
  | _ => false

/-- The compare of Table 3.1 on one sample of CMPH and CMPL; a state without a compare passes (R87). -/
def PinSt.pass (st : PinSt) (cmph cmpl : Bool) : Bool :=
  match st with
  | .cl => !cmpl
  | .ch => cmph
  | .cm => cmpl && !cmph
  | _ => true

/-- The conditions of Table 4.2. -/
inductive Cond where
  | none | always | match_ | mismatch | event | verdictPass | verdictFail | host
  deriving DecidableEq, Repr

/-- The condition of a code 0 to 7; codes 8 to 15 are invalid. -/
def Cond.ofCode : Nat → Option Cond
  | 0 => some .none | 1 => some .always | 2 => some .match_ | 3 => some .mismatch
  | 4 => some .event | 5 => some .verdictPass | 6 => some .verdictFail | 7 => some .host
  | _ => Option.none

/-- The code of a condition. -/
def Cond.code : Cond → Nat
  | .none => 0 | .always => 1 | .match_ => 2 | .mismatch => 3
  | .event => 4 | .verdictPass => 5 | .verdictFail => 6 | .host => 7

/-- Conditions 2 to 7 can produce a condition request (R155). -/
def Cond.requests : Cond → Bool
  | .none | .always => false
  | _ => true

/-- A directory entry, field by field (Table 4.1). `cond` is the raw code. `rsvOk` says that every reserved bit is 0. -/
structure Entry where
  dataOffset : Nat := 0
  length : Nat := 0
  rep : Nat := 0
  next : Nat := 0
  target : Nat := 0
  cond : Nat := 0
  isLoop : Bool := false
  call : Bool := false
  ret : Bool := false
  halt : Bool := false
  param : Nat := 0
  matchN : Nat := 1
  tailAuto : Bool := false
  timeset : Nat := 0
  tsMode : Nat := 0
  tier : Nat := 0
  sparse : Bool := false
  markers : Nat := 0
  waypoint : Nat := 0
  capture : Bool := false
  secret : Bool := false
  nolog : Bool := false
  enc : Bool := false
  ramble : Nat := 0
  tmo : Nat := 0
  tmoScale : Nat := 0
  rsvOk : Bool := true
  deriving DecidableEq, Repr

/-- One bit of a number. -/
def bit (x i : Nat) : Bool := decide ((x >>> i) % 2 = 1)

/-- The entry that eight little-endian words spell (Table 4.1). -/
def Entry.ofWords (w : Nat → Nat) : Entry :=
  { dataOffset := w 0 + 2 ^ 32 * w 1
    length := w 2
    rep := w 3
    next := bitsOf (w 4) 0 16
    target := bitsOf (w 4) 16 16
    cond := bitsOf (w 5) 0 4
    isLoop := bit (w 5) 4
    call := bit (w 5) 5
    ret := bit (w 5) 6
    halt := bit (w 5) 7
    param := bitsOf (w 5) 8 8
    matchN := bitsOf (w 5) 16 12 + 1
    tailAuto := bit (w 5) 28
    timeset := bitsOf (w 6) 0 10
    tsMode := bitsOf (w 6) 10 2
    tier := bitsOf (w 6) 12 2
    sparse := bit (w 6) 14
    markers := bitsOf (w 6) 16 8
    waypoint := bitsOf (w 6) 24 2
    capture := bit (w 6) 26
    secret := bit (w 6) 27
    nolog := bit (w 6) 28
    enc := bit (w 6) 29
    ramble := bitsOf (w 6) 30 2
    tmo := bitsOf (w 7) 0 16
    tmoScale := bitsOf (w 7) 16 2
    rsvOk := decide (bitsOf (w 5) 29 3 = 0) && !bit (w 6) 15 && decide (bitsOf (w 7) 18 14 = 0) }

/-- The condition of an entry, where its code is valid. -/
def Entry.kind (e : Entry) : Cond := (Cond.ofCode e.cond).getD .none

/-- The unused param bits are 0 (Table 4.1, R135). -/
def Entry.paramOk (e : Entry) : Bool :=
  match Cond.ofCode e.cond with
  | some .match_ | some .mismatch => decide (e.param < 8)
  | some .event => decide (e.param < 4)
  | some .verdictPass | some .verdictFail => true
  | _ => decide (e.param = 0)

/-- The rules of R135 other than that of data_offset. -/
def Entry.valid (e : Entry) : Bool :=
  decide (e.length ≠ 0) && decide (e.tier ≠ 3) && decide (e.tsMode ≠ 3) && decide (e.waypoint ≠ 3) &&
  decide (e.cond < 8) && e.rsvOk && e.paramOk && !(e.halt && e.ret) &&
  (!e.isLoop || (decide (2 ≤ e.cond) && !e.call)) && (e.isLoop || decide (e.tmo = 0))

/-- The data_offset rule of R135, with the size of the entry's window. -/
def Entry.offsetOk (e : Entry) (window : Nat) : Bool :=
  decide (e.dataOffset % 8 = 0) && decide (e.dataOffset < window)

/-- Passes are endless (R138). -/
def Entry.endless (e : Entry) : Bool := decide (e.rep = 0xFFFFFFFF)

/-- The time-out of a wait loop in ns (Table 4.1, R151). -/
def Entry.tmoNs (e : Entry) : Nat := e.tmo * (8 * 32 ^ e.tmoScale)

/-- The vector blocks of a segment of `length` vectors (R92). -/
def Entry.blocks (e : Entry) : Nat := (e.length + 63) / 64

/-- The vectors of block `b` of the segment (R92). -/
def Entry.blockVectors (e : Entry) (b : Nat) : Nat :=
  if b + 1 < e.blocks then 64 else e.length - 64 * (e.blocks - 1)

end Sys2Proof.Machine
end

