-- ==== Sys2Proof/Machine/Block.lean ====
section
/-! DEFINITION. Vector blocks and sparse templates: their layouts (R91 to R102) and their checks in the order of R536. A
block is given as a function from word numbers (0 is the header) to 64-bit words. -/

namespace Sys2Proof.Machine

/-- One decompressed vector: the value of the timeset column, where the block has one, and a state for every pin. -/
structure Vec where
  ts : Option Nat
  pins : List PinSt
  deriving DecidableEq, Repr

/-- A checked sparse template (R99): the static states and the two stream lists. -/
structure Template where
  stat : List PinSt
  drive : List Nat
  cmp : List Nat
  deriving DecidableEq, Repr

/-- A failed check: a code of Table 3.5 with the pin field of PRT_TMG_STATUS, or a block that runs past its window. -/
inductive BlockFail where
  | tmg (code pin : Nat)
  | outOfWindow
  deriving DecidableEq, Repr

/-- The bit stream that starts at word `k` and holds `n` words (R93). -/
def streamOf (w : Nat → Nat) (k : Nat) : Nat → Nat
  | 0 => 0
  | n + 1 => w k + 2 ^ 64 * streamOf w (k + 1) n

/-- Words that hold `n` bits. -/
def wordsFor (n : Nat) : Nat := (n + 63) / 64

/-- A column of `V` values of `fw` bits at stream bit `b` in a coding of Table 3.3: the bits it takes, the values, and
whether the run lengths sum to `V` (R97). -/
def columnAt (stream V fw coding b : Nat) : Nat × List Nat × Bool :=
  match coding with
  | 0 => (fw, List.replicate V (bitsOf stream b fw), true)
  | 1 =>
    let r := bitsOf stream b 4 + 1
    let runs := (List.range r).map fun i =>
      (bitsOf stream (b + 4 + i * (fw + 6)) fw, bitsOf stream (b + 4 + i * (fw + 6) + fw) 6 + 1)
    (4 + r * (fw + 6), runs.flatMap fun x => List.replicate x.2 x.1, decide ((runs.map (·.2)).sum = V))
  | _ => (V * fw, (List.range V).map fun i => bitsOf stream (b + i * fw) fw, true)

/-- The pin columns one after the other (R96): for each descriptor code in order, starting at stream bit `b`. -/
def columnsAt (stream V : Nat) : Nat → List Nat → Nat × List (List Nat × Bool)
  | b, [] => (b, [])
  | b, c :: cs =>
    let col := columnAt stream V 3 c b
    let rest := columnsAt stream V (b + col.1) cs
    (rest.1, col.2 :: rest.2)

/-- The first index at which a flag of the list is false. -/
def firstFalse : List Bool → Option Nat
  | [] => none
  | b :: l => if b then (firstFalse l).map (· + 1) else some 0

/-- The first index at which a value of the list satisfies `p`. -/
def firstWith (p : Nat → Bool) : List Nat → Option Nat
  | [] => none
  | x :: l => if p x then some 0 else (firstWith p l).map (· + 1)

/-- Row `i` of a list of columns. -/
def rowAt (cols : List (List Nat)) (i : Nat) : List PinSt := cols.map fun c => PinSt.ofCode (c.getD i 0)

/-- The header fields that full and sparse blocks share (Table 3.2). -/
def hdrKind (h : Nat) : Nat := bitsOf h 0 2
def hdrVcountM1 (h : Nat) : Nat := bitsOf h 2 6
def hdrPins (h : Nat) : Nat := bitsOf h 8 8
def hdrTsMode (h : Nat) : Nat := bitsOf h 16 2
def hdrLength (h : Nat) : Nat := bitsOf h 32 16

/-- The reserved bits of a block header are 0 (Table 3.2). -/
def hdrRsvOk (h : Nat) : Bool := decide (bitsOf h 18 14 = 0) && decide (bitsOf h 48 16 = 0)

/-- The checks that every block takes before its body (R536, 1 to 6): the kind, reserved bits, pin count, vector count,
timeset mode and the extent against the `room` bytes left in the window. -/
def headChecks (kind h P V room : Nat) (tsOk : Bool) : Option BlockFail :=
  if hdrKind h ≠ kind then some (.tmg 1 0xFF)
  else if !hdrRsvOk h then some (.tmg 10 0xFF)
  else if hdrPins h ≠ P then some (.tmg 2 0xFF)
  else if hdrVcountM1 h + 1 ≠ V then some (.tmg 3 0xFF)
  else if !tsOk then some (.tmg 7 0xFF)
  else if room < 8 * hdrLength h then some .outOfWindow
  else none

/-- Check and decompress a full block of `V` vectors for a port of `P` pins (R94 to R98, R536); `bandC`: the port is in
Band C, where a timeset column is not allowed (R109). -/
def decodeFull (w : Nat → Nat) (P V room : Nat) (bandC : Bool) : Except BlockFail (List Vec) :=
  let h := w 0
  match headChecks 1 h P V room (!bandC || decide (hdrTsMode h = 0)) with
  | some f => .error f
  | none =>
    let nd := wordsFor (2 * P)
    let desc := streamOf w 1 nd
    if desc >>> (2 * P) ≠ 0 then .error (.tmg 10 0xFF)
    else
      let codes := (List.range P).map fun i => bitsOf desc (2 * i) 2
      match firstWith (· == 3) codes with
      | some i => .error (.tmg 5 i)
      | none =>
        -- no field of a block lies beyond 10 * 64 + (4 + 16 * 9) * 64 bits of its stream
        let stream := streamOf w (1 + nd) (wordsFor (640 + 192 * P))
        let tsCol := if hdrTsMode h = 0 then (0, [], true) else columnAt stream V 10 (hdrTsMode h - 1) 0
        let cols := columnsAt stream V tsCol.1 codes
        if !tsCol.2.2 then .error (.tmg 6 0xFE)
        else
          match firstFalse (cols.2.map (·.2)) with
          | some i => .error (.tmg 6 i)
          | none =>
            if hdrLength h ≠ 1 + nd + wordsFor cols.1 then .error (.tmg 4 0xFF)
            else .ok ((List.range V).map fun i =>
              { ts := if hdrTsMode h = 0 then none else tsCol.2.1[i]?
                pins := rowAt (cols.2.map (·.1)) i })

/-- No value of the list occurs twice. -/
def noRepeat : List Nat → Bool
  | [] => true
  | x :: l => !l.contains x && noRepeat l

/-- Check a sparse template for a port of `P` pins (R99, R100, R536). -/
def decodeTemplate (w : Nat → Nat) (P room : Nat) : Except BlockFail Template :=
  let h := w 0
  if hdrKind h ≠ 3 then .error (.tmg 1 0xFF)
  else if bitsOf h 2 6 ≠ 0 ∨ bitsOf h 23 1 ≠ 0 ∨ bitsOf h 31 1 ≠ 0 ∨ bitsOf h 48 16 ≠ 0 then .error (.tmg 10 0xFF)
  else if hdrPins h ≠ P then .error (.tmg 2 0xFF)
  else if room < 8 * hdrLength h then .error .outOfWindow
  else
    let nd := bitsOf h 16 7
    let nc := bitsOf h 24 7
    let bits := 3 * P + 6 * (nd + nc)
    let stream := streamOf w 1 (wordsFor bits)
    let drive := (List.range nd).map fun i => bitsOf stream (3 * P + 6 * i) 6
    let cmp := (List.range nc).map fun i => bitsOf stream (3 * P + 6 * nd + 6 * i) 6
    if P < nd + nc ∨ (drive ++ cmp).any (fun i => decide (P ≤ i)) ∨ !noRepeat (drive ++ cmp) then .error (.tmg 8 0xFF)
    else if hdrLength h ≠ 1 + wordsFor bits then .error (.tmg 4 0xFF)
    else .ok { stat := (List.range P).map fun i => PinSt.ofCode (bitsOf stream (3 * i) 3), drive := drive, cmp := cmp }

/-- The state that a compare code of a sparse block gives (R101). -/
def cmpCode : Nat → PinSt
  | 0 => .cx | 1 => .cl | 2 => .ch | _ => .cm

/-- One vector of a sparse block: the drive bits and compare codes at stream bit `b` over the static states (R100, R101). -/
def sparseVec (t : Template) (stream b : Nat) : Vec :=
  let driven := (List.range t.drive.length).foldl
    (fun l i => l.set (t.drive.getD i 0) (if bit stream (b + i) then .d1 else .d0)) t.stat
  let all := (List.range t.cmp.length).foldl
    (fun l i => l.set (t.cmp.getD i 0) (cmpCode (bitsOf stream (b + t.drive.length + 2 * i) 2))) driven
  { ts := none, pins := all }

/-- Check and decompress a sparse block of `V` vectors (R101, R102, R536). -/
def decodeSparse (w : Nat → Nat) (t : Template) (P V room : Nat) : Except BlockFail (List Vec) :=
  let h := w 0
  match headChecks 2 h P V room (decide (hdrTsMode h = 0)) with
  | some f => .error f
  | none =>
    let per := t.drive.length + 2 * t.cmp.length
    if hdrLength h ≠ 1 + wordsFor (V * per) then .error (.tmg 4 0xFF)
    else
      let stream := streamOf w 1 (wordsFor (V * per))
      .ok ((List.range V).map fun i => sparseVec t stream (i * per))

end Sys2Proof.Machine
end

