-- ==== Sys2Proof/Machine/TypesPort.lean ====
section
/-! DEFINITION. The hidden state of a port (sequencer, timing pipeline, streaming, Ramble) and of the rate domains and
the time base: what the registers of chapters 03 to 06 do not hold themselves. -/

namespace Sys2Proof.Machine

/-- A streamed line of 64 bytes in a ring, a head slot or the branch reserve (R169, R170, R174). -/
inductive LineSt where
  | flying   -- requested, not yet landed
  | landed   -- ciphertext of a page not yet verified (R199)
  | valid
  | bad      -- read with an uncorrectable error or poison (R193)
  | lost     -- its read completed in error because its store did not serve or answer it (R46, R389): never valid
  | failed   -- its page failed authentication (R199)
  deriving DecidableEq, Repr

/-- One line: its tier and management address, its state, its bytes, and when it became valid: the number of vectors the port had
issued (R188) and the TB time. -/
structure RLine where
  tier : Nat
  addr : Nat
  st : LineSt
  data : BitVec 512
  enc : Bool
  validAt : Nat
  validTb : Nat
  deriving DecidableEq, Repr

/-- A position of the planner's walk (R172): the entry and pass it is in, its copy of the return stack, the number of the
present block or frame (template included) and its offset in the window, the next offset to fetch, whether the walk
has ended, where it waits for head slots, and the entries of the resident loop in which it stands. -/
structure PlanPos where
  entry : Nat := 0
  pass : Nat := 0
  stack : List Nat := []
  block : Nat := 0
  blockAt : Nat := 0
  next : Nat := 0
  ended : Bool := true
  wait : Option (Nat × List Nat) := none
  again : List Nat := []
  deriving DecidableEq, Repr

/-- A head slot (R170): the conditional entry that needs it, the successor it holds, whether the walk of a registered
request asked for it (R174), its lines, the next offset to fetch, and whether the head is complete. -/
structure HeadSlot where
  owner : Nat
  dest : Nat
  branch : Bool
  lines : List RLine
  next : Nat
  left : Nat
  deriving DecidableEq, Repr

/-- The branch reserve of a registered request (R174): its destination, the owner of the head slot that holds it, the lines fetched for
it and the walk there. -/
structure Reserve where
  dest : Nat
  slot : Option Nat
  lines : List RLine
  plan : PlanPos
  left : Nat
  deriving DecidableEq, Repr

/-- A jump request on its way or held (R142 to R146): its producer, when it is registered (`due`: for a port the vector
in whose issue period that is, for a WFG the TB time in units of 1/8192 ps), the number of the pass that produced it, and the passes
that its producer had issued when it was left (R152). -/
structure JumpReq where
  producer : Nat
  e : Entry
  due : Nat
  order : Nat
  passes : Option Nat := none
  deriving DecidableEq, Repr

/-- A page's tag as its requester fetched it (R199); none where its read completed in error. -/
structure PageTag where
  tier : Nat
  page : Nat
  value : Option (BitVec 128)
  deriving DecidableEq, Repr

/-- The sequencer and stream of one unit: port 0 to 7, or WFG 8 to 11 (R138 to R155, R166 to R175, R294 to R299). -/
structure SeqH where
  -- the entry and pass in issue; `passVec` is the next vector or source sample of the pass
  e : Entry := {}
  pass : Nat := 0
  passVec : Nat := 0
  order : Nat := 0
  produced : Bool := false
  timedOut : Bool := false
  deadline : Option Nat := none
  -- jump requests
  inflight : List JumpReq := []
  held : Option JumpReq := none
  -- the next block or frame: its number and its offset in the window
  block : Nat := 0
  off : Nat := 0
  -- start, pause and stop: TB times in units of 1/8192 ps
  condMet : Bool := false
  trailMet : Bool := false
  admitted : Bool := false
  at_ : Nat := 0
  frac : Nat := 0
  fracDen : Nat := 1
  paused : Bool := false
  pauseAt : Nat := 0
  resume : Bool := false
  breakVec : Nat := 0
  stopReq : Bool := false
  -- streaming
  ring : List RLine := []
  plan : PlanPos := {}
  slots : List HeadSlot := []
  reserve : Option Reserve := none
  tags : List PageTag := []
  zeroing : Bool := false
  zeroSize : Nat := 0   -- PRT_STRM_RING.size of the run whose ring is to be zeroed
  deriving DecidableEq, Repr

/-- Where the data of a fabric read lands, or which write it acknowledges. -/
inductive FabDest where
  | ring (d : Fin 12)
  | slot (d : Fin 12) (owner dest : Nat)
  | reserve (d : Fin 12)
  | tag (d : Fin 12) (tier page ofs : Nat)   -- a page's tag, at this byte of the line (R199)
  | dropped (d : Fin 12)   -- landing space of discarded data (R174)
  | other
  deriving DecidableEq, Repr

/-- A fabric transaction that holds a tag (R26 to R29): requester, pool (0 to 3 a DDR channel, 4 CXL.mem, 5 SRAM and
other targets), the management address of its 64-byte line, its write data, whether its tag is of the shared remainder, the number
of its tag in the pool (R42, R388), the response space put aside for it (R28): where it lands, its answer (none yet, or the data and whether it came without error), when its target accepted it (TB time),
its byte enables, whether it is the held read that caused a freeze (R373), and whether it is a timed-out CXL read whose tag is
out of the pool until its late response comes (R389), whether it completed in error for want of its store, whether another entry keeps its
tag (R389), and how many hops of its
way back its response has passed (R31). -/
structure FabTx where
  req : Nat
  pool : Nat
  line : Nat
  write : Option (BitVec 512)
  shared : Bool
  dest : FabDest
  answer : Option (BitVec 512 × Bool)
  at_ : Nat := 0
  enables : BitVec 64 := BitVec.allOnes 64
  cause : Bool := false
  stale : Bool := false
  lost : Bool := false
  tag : Nat := 0
  noTag : Bool := false
  hops : Nat := 0
  deriving DecidableEq, Repr

/-- A request whose requester has put its response space aside and that waits for a tag (R28, R33): requester, pool, address, and for a
write its data and byte enables. -/
structure FabWait where
  req : Nat
  pool : Nat
  addr : Nat
  write : Option (BitVec 512)
  enables : BitVec 64
  deriving DecidableEq, Repr

/-- The two buffers of a crossing on the fabric (Table 1.2, R27, R31): the credits taken of its request buffer and of its response
buffer. -/
structure HopH where
  req : Nat := 0
  rsp : Nat := 0
  deriving DecidableEq, Repr

/-- The three edge paths of a pin (R121). -/
inductive EdgePath where
  | drive | enable | compare
  deriving DecidableEq, Repr

/-- One edge as it is issued (R121): the pin (port pin index), its path, its instant in units of 1/8192 ps, and the
level it sets (unused on the compare path). -/
structure EdgeOut where
  pin : Nat
  path : EdgePath
  instant : Int
  level : Bool
  deriving DecidableEq, Repr

/-- A running Ramble program (R160 to R163), with the register values taken at its start; `held`
at a band edge or its limit; `ret` marks the return to 0 that follows a program's end. -/
structure RamProg where
  sweep : Bool
  step : Int
  dwell : Nat
  slew : Nat
  limit : Int
  logEn : Bool
  startOfs : Int
  updates : Nat
  count : Nat
  held : Bool
  ret : Bool
  deriving DecidableEq, Repr

/-- A record that the port writes to its fail path (Table 11.5), before it has a place in the ring. -/
structure FailRec where
  vector : Nat
  pins : Nat
  entry : Nat
  timeset : Nat
  pass : Nat
  seq : Nat
  secret : Bool
  deriving DecidableEq, Repr

/-- A counted use of a Rucksack in the present run, and what its receipt says of the run (R438, R439). -/
structure RunUse where
  id : Nat
  use : Nat
  limit : Nat
  tsStart : Nat
  epStart : Nat
  tsEnd : Nat
  result : Nat
  vectors : Nat
  deriving DecidableEq, Repr

/-- What a port holds beside its registers, its sequencer and its stream. -/
structure PortH where
  matchOk : Bool := true
  lastW : Nat := 0
  markerLow : List (Nat × Nat) := []
  vecs : List Vec := []
  template : Option Template := none
  -- pins and edges
  drv : BitVec 64 := 0
  den : BitVec 64 := 0
  prevEdge : List (Nat × Int) := []
  edges : List EdgeOut := []
  strobes : BitVec 64 := 0
  compared : BitVec 64 := 0
  comp : Nat := 0
  vecAt : Nat := 0
  holdAt : Nat := 0
  evtSticky : List Nat := [0, 0, 0, 0]   -- until when the stretcher of each event input holds it (R60; TB time)
  x9 : List (Nat × Bool) := []           -- the verdicts in X9, oldest first: site, fail (R320)
  -- Ramble
  ram : Option RamProg := none
  ramFails : Nat := 0
  -- fail path and votes
  fifo : List FailRec := []
  failSeq : Nat := 0
  failOvf : Bool := false
  voteFail : Bool := false
  votes : Nat := 0
  -- secret entries (R438 to R440)
  use : Option RunUse := none
  owed : Option RunUse := none
  aggFail : Bool := false
  aggRun : Bool := false
  secretVecs : Nat := 0
  secretOn : Bool := false
  deriving DecidableEq, Repr

/-- What a domain PLL holds beside its registers: the committed word, r_max of R206 as a fraction of Hz, the seed that the dither
LFSR was loaded with and when (R205; TB time), the present commanded frequency during a ramp (in units of 2⁻²⁰ Hz), the relock in
progress, and when its trigger came (R216; TB time). -/
structure DplH where
  wN : Nat := 48
  wF : Nat := 0
  wO : Nat := 12
  wD : Bool := true
  rmaxNum : Nat := 1050000000
  rmaxDen : Nat := 1
  lfsr : Nat := 0
  lfsrAt : Nat := 0
  cur : Option Nat := none
  relock : Bool := false
  acqAt : Nat := 0
  trigAt : Option Nat := none
  phaseReq : Bool := false
  deriving DecidableEq, Repr

/-- What the time base holds beside its registers (R222 to R232): `count` in units of 1/8192 ps, whether it runs, the
TB time `clk` in the same units, which a STEP or a zeroing does not move (R229), the instant of entry to HOLDOVER, the
phase offset a STEP left, a slew in progress, the offset of R227 as a ramp (from, to, and the TB time at which it began), an accepted
EPOCH_IN that waits for its reference edge, the latched instant of an armed Trailhead, the seed that the TBPLL's dither LFSR was
loaded with and when, and when the count last jumped (a wrap, a zeroing or a STEP), with the count less the TB time, the epoch and the
step flag before it. -/
structure TmbH where
  count : Nat := 0
  clk : Nat := 0
  epoch : Nat := 0
  running : Bool := false
  holdAt : Nat := 0
  static : Int := 0
  slewing : Bool := false
  slewFrom : Int := 0
  slewTo : Int := 0
  slewAt : Nat := 0
  zeroMode : Nat := 0
  armTs : Nat := 0
  armEp : Nat := 0
  lfsr : Nat := 0
  lfsrAt : Nat := 0
  jumpAt : Nat := 0
  oldOfs : Int := 0
  oldEp : Nat := 0
  oldStep : Nat := 0
  deriving DecidableEq, Repr

/-- A window of Table 2.10: base and size in its units; size 0 is absent. -/
structure Win where
  base : Nat := 0
  size : Nat := 0
  deriving DecidableEq, Repr

/-- The windows of a STORE_PART record (R67). -/
structure QStore where
  nearA : Win := {}
  nearB : Win := {}
  nearW : Win := {}
  nearAcqA : Win := {}
  nearAcqB : Win := {}
  farA : Win := {}
  farB : Win := {}
  farW : Win := {}
  deriving DecidableEq, Repr

/-- A line of the routing matrix (R60, Table 2.9). -/
structure MLine where
  enable : Bool := false
  invert : Bool := false
  source : Nat := 0
  deriving DecidableEq, Repr

/-- A destination of the routing matrix. -/
structure MDest where
  enable : Bool := false
  line : Nat := 0
  deriving DecidableEq, Repr

/-- The committed structure (R82): what a structure load sets. `octOwner` holds 0 (no port), 1 (port 2q) or 2 (port
2q + 1) for each octet; `acqPort` the port that engine e is bound to; `floor` the POLICY payload's fields. -/
structure Committed where
  octOwner : List Nat := List.replicate 32 0
  site : List Nat := List.replicate 8 0
  acqPort : List Nat := [0, 1, 2, 3, 4, 5, 6, 7]
  acqEn : List Bool := List.replicate 8 false
  timSrc : List Nat := List.replicate 32 0
  lines : List MLine := List.replicate 64 {}
  dests : List MDest := List.replicate 96 {}
  bank : List Nat := (List.range 32).map (· / 4) ++ List.replicate 8 0x10 ++ List.replicate 4 0x20 ++ List.replicate 4 0x30
  store : List QStore := List.replicate 4 {}
  power : Nat := 0xFFF00000000
  floorFlags : Nat := 4
  floorTamper : Nat := 0
  deriving DecidableEq, Repr

end Sys2Proof.Machine
end

