-- ==== Sys2Proof/Machine/TypesAna.lean ====
section
/-! DEFINITION. The hidden state of the acquisition engines, TIM channels, waveform generators and precision DACs: what
the registers of chapters 07 to 09 do not hold themselves. -/

namespace Sys2Proof.Machine

/-- An input or output sample of an engine: its value, its instant in TB time (1/8192 ps) with the fraction of a unit beyond it, its time
stamp and epoch. -/
structure Smp where
  v : Int
  t : Nat
  ts : Nat
  ep : Nat
  frac : Nat × Nat := (0, 1)
  deriving DecidableEq, Repr

/-- A span of dropped samples (R262): cause, first and last instant, index in the segment, count. -/
structure GapSpan where
  cause : Nat
  first : Smp
  last : Smp
  index : Nat
  count : Nat
  deriving DecidableEq, Repr

/-- An open segment (R253, R254): its sample s, cause mask, primary cause and fraction, the pre-trigger samples, the
post-trigger samples taken, the values written after s (s included), its spans, the open one last, and the units of its data that the
drain has written into the ring. -/
structure OpenSeg where
  s : Smp
  mask : Nat
  primary : Nat
  frac : Nat
  pre : List Int
  post : Nat
  dropped : Nat
  data : List Int
  spans : List GapSpan
  spanOpen : Bool
  missed : Nat
  missedTs : Nat
  missedEp : Nat
  sent : Nat := 0
  deriving DecidableEq, Repr

/-- A record that waits for publication (R263): its bytes, its entries in the record queue, and whether it is a segment
and the last of its run. -/
structure AcqRec where
  bytes : List Byte
  entries : Nat
  isSeg : Bool
  last : Bool
  deriving DecidableEq, Repr

/-- A trigger that a cubic search holds until the next sample (R249): its output sample, its cause mask and the direction of its crossing. -/
structure CubicWait where
  x : Smp
  mask : Nat
  falling : Bool
  deriving DecidableEq, Repr

/-- What an engine holds beside its registers. -/
structure AcqH where
  capCount : Nat := 0                    -- capture vectors since the arm (R242)
  input : List Smp := []                 -- the last 64 input samples, newest first
  m : Nat := 0
  acc : Nat := 0
  out : List Smp := []                   -- the last three output samples, newest first
  primedUp : Bool := false
  primedDown : Bool := false
  latch : Nat := 0                       -- bit n: trigger source n waits for its output sample (R247)
  cubic : Option CubicWait := none
  hist : List Smp := []                  -- history, newest first
  lastHeld : Bool := true                -- the last output sample was written
  span : Option GapSpan := none          -- the open span between segments
  seg : Option OpenSeg := none
  segIdx : Nat := 0
  rearm : Nat := 0
  lastPost : Nat := 0
  missed : Nat := 0
  missedTs : Nat := 0
  missedEp : Nat := 0
  recs : List AcqRec := []
  recSeq : Nat := 0
  frozenWait : Bool := false
  stgPos : Nat := 0                      -- containers written into the share since the arm (R258)
  x6 : List (Nat × Nat) := []            -- TIM results in X6, oldest first: channel and word (Table 1.2)
  trgSticky : List Nat := [0, 0]         -- until when the stretcher of each trigger input holds it (R60; TB time)
  deriving DecidableEq, Repr

/-- A measured edge whose conversion runs (R270): the coarse edge (t2 or t_c) in units of 2⁻¹³ ns, its polarity, its
number, the selected edges since the previous measured edge, this one included, its epoch and the count less the TB time, its TB time,
its FREQ gate, and whether it belongs to a run that was stopped and armed anew. -/
structure TimPend where
  coarse : Nat
  falling : Bool
  number : Nat
  n : Nat
  ep : Nat
  ofs : Int
  at_ : Nat
  gate : Nat
  old : Bool := false
  deriving DecidableEq, Repr

/-- What a conversion gives (R271, R272): the edge time in 2⁻¹³ ns of the count and in TB time, the range flag and the cal flag. -/
structure TimConv where
  edge : Int
  tb : Int
  range : Bool
  cal : Bool
  deriving DecidableEq, Repr

/-- What the results of a stopped run need after an arm (R278): its t_prev, its partner memory and its lost flag. -/
structure TimOld where
  prev : Option Int := none
  edges : List Int := []
  lost : Bool := false
  deriving DecidableEq, Repr

/-- What a TIM channel holds beside its registers. -/
structure TimH where
  met : Bool := false
  good : Option (Nat × Nat) := none
  lastMeas : Option Int := none          -- the last measured edge, for the dead time; TB time
  prev : Option Int := none              -- t_prev of PERIOD; TB time
  edges : List Int := []                 -- partner memory: the partner's last measured edges, newest first; TB time
  wait : List (TimPend × TimConv) := []  -- converted edges of an INTERVAL channel whose partner still converts (R283)
  old : TimOld := {}
  since : Nat := 0                       -- selected edges since the last measured edge
  lost : Bool := false
  pend : List TimPend := []
  gFirst : Option (Int × Nat) := none    -- first and last measured edge of the gate: time stamp and edge number
  gLast : Option (Int × Nat) := none
  gFalling : Bool := false               -- polarity and flags of the last edge
  gRange : Bool := false
  gCal : Bool := false
  gAt : Nat := 0                         -- when the present FREQ gate opened (TB time), its number, and that of gFirst and gLast
  gate : Nat := 0
  gOf : Nat := 0
  gBad : List Nat := []                  -- gates that give no result
  cal : Int := 0                         -- the calibrated delay in force since the arm (R457)
  deriving DecidableEq, Repr

/-- What a WFG holds beside its registers, its sequencer and its stream. -/
structure WfgH where
  acc : Nat := 0
  hist : List (Int × Nat) := []          -- the last 64 source samples, value and markers, newest first
  m : Int := -1
  n : Nat := 0                           -- output samples since the start
  flush : Option Nat := none
  frame : List (Int × Nat) := []         -- source samples of the present frame not yet taken
  out : List Int := []                   -- the output samples of the last WD cycle of the run
  mkr : Nat := 0
  lastAt : Nat := 0                      -- TB time of the last source sample taken
  panic : Bool := false                  -- its waveform fetcher holds panic (R297)
  mkrAt : List Int := [0, 0, 0, 0]       -- TB time of the last edge at each MKR ball (R293)
  evtAt : Option Nat := none             -- TB cycle of the last rising edge at destination 80 + m (R300)
  ofs : Int := 0                         -- the correction in force since the start (R457): offset, gain in ppm
  gain : Int := 0
  deriving DecidableEq, Repr

/-- What a precision level DAC holds beside its registers. -/
structure PdacH where
  pend : Option Nat := none              -- the pending code of a hold (R306)
  wrAt : Option Nat := none              -- TB cycle of the last write of PDC_CODE, and the code staged before that cycle (R305)
  wrOld : Nat := 0
  loadAt : Option (Nat × Bool) := none   -- TB cycle of the last group load, and whether the matrix caused it (R305)
  enAt : Option Nat := none              -- TB cycle of the last write of PDC_CTL (R37, R307)
  ofs : Int := 0                         -- the correction in force since the last load (R308): offset, gain in ppm
  gain : Int := 0
  deriving DecidableEq, Repr

end Sys2Proof.Machine
end

