-- ==== Sys2Proof/Machine/TypesSys.lean ====
section
/-! DEFINITION. The hidden state of the system blocks: what the registers of chapters 10 to 18 do not hold themselves. -/

namespace Sys2Proof.Machine

/-! ## Site link (chapter 10) -/

/-- An open round (R319): site and round, when it opened (TB time), the mask in force then, the devices whose votes are
held, and whether one of them is fail. -/
structure SlkRound where
  site : Nat
  round : Nat
  openAt : Nat
  mask : Nat
  votes : Nat
  fail : Bool
  deriving DecidableEq, Repr

/-- Votes of local members for a round whose own vote is not formed yet (R318): the ports that voted, and a fail. -/
structure SlkLocal where
  site : Nat
  round : Nat
  ports : Nat
  fail : Bool
  deriving DecidableEq, Repr

/-- What the site link holds beside its registers: the present tag, the positions whose ANNOUNCE was received in FORM,
whether the own ANNOUNCE returned and its round trip in ns, when it was sent, a BREAK to send, the rounds, oldest first, and
the closed marks. -/
structure SlkH where
  tag : Nat := 0
  seen : Nat := 0
  ownBack : Bool := false
  rtt : Nat := 0
  annAt : Nat := 0
  breakDue : Bool := false
  rounds : List SlkRound := []
  closed : List (Nat × Nat) := []
  locals : List SlkLocal := []
  own : List (Nat × List Byte) := []     -- own frames that wait for the line, in the order of R316: when created, body with its CRC
  lineFree : Nat := 0                    -- until when the frames sent occupy the line (TB time)
  recent : List Nat := []                -- when each own frame at the end of SITE_OUT's list started
  deriving DecidableEq, Repr

/-! ## Result cores and the scheduler (chapter 11) -/

/-- A task descriptor (Table 11.1). -/
structure Desc where
  kind : Nat := 0
  prio : Nat := 0
  group : Nat := 0
  start : Nat := 0
  flow : Nat := 0
  test : Nat := 0
  site : Nat := 0
  port : Nat := 0
  wait : Nat := 0
  consume : Bool := false
  wsrc : Nat := 0
  wcount : Nat := 0
  wtmo : Nat := 0
  delay : Nat := 0
  period : Nat := 0
  cookie : Nat := 0
  param : Nat := 0
  plen : Nat := 0
  deriving DecidableEq, Repr

/-- A slot of the task pool that is not FREE (R324 to R327): its state of Table 11.3, the scheduler's copy of descriptor and
parameter block, its sequence number, the group it is placed in (4: none yet), and what its life has left: ticks to go, its
order of creation, when it became head (TB time), the items it claimed with their range, when it first became READY (order,
stamp, epoch), its flags, the core, its reserved Hamper space, the near-store channels read, and its outcome. -/
structure Task where
  st : Nat := 1
  d : Desc := {}
  param : List Byte := []
  seq : Nat := 0
  group : Nat := 4
  left : Nat := 0
  ord : Nat := 0
  headAt : Option Nat := none
  items : Nat := 0
  lo : Nat := 0
  ready : Option (Nat × Nat × Nat) := none
  started : Bool := false
  timedOut : Bool := false
  ended : Bool := false
  lost : Bool := false
  partialSpec : Bool := false
  hole : Bool := false
  core : Nat := 0xFF
  room : Nat := 0
  chans : Nat := 0
  status : Nat := 0
  doneAt : Nat × Nat × Nat := (0, 0, 0)  -- order, stamp, epoch
  body : List Byte := []
  records : Nat := 0
  hseq : Option Nat := none              -- set at the release of its Hamper
  deriving DecidableEq, Repr

/-- Items of a source of data-plane tasks (R331, R333): ring counters `lo` to `hi - 1`, the slot that claimed them, and
whether they may be released. -/
structure SchItem where
  lo : Nat
  hi : Nat
  owner : Option Nat
  free : Bool
  deriving DecidableEq, Repr

/-- A source of data-plane tasks: whether it runs, whether it has ended since it last ran, its cursor and its items. -/
structure SchSrc where
  on : Bool := false
  ended : Bool := false
  cursor : Nat := 0
  items : List SchItem := []
  freed : Option Nat := none      -- where the read pointer stands after the last items it was moved over
  deriving DecidableEq, Repr

/-- What the scheduler holds beside its registers: the slots that are not FREE, in ascending order; the sources (engines 0 to
7, ports 8 to 15, TIM channels 16 to 47); the queued occurrences; the next order number; Hampers released; and the
released Hampers that are not delivered, as (session, slot) in release order. -/
structure SchH where
  tasks : List (Nat × Task) := []
  src : Vector SchSrc 48 := Vector.replicate 48 {}
  binds : List (Nat × Option Nat) := []   -- queued occurrences, oldest first: binding, TB cycle of its arrival
  ord : Nat := 0
  hseq : Nat := 0
  out : List (Nat × Nat) := []
  blocked : List (Nat × Nat) := []   -- groups with the slot of the task that waits for Hamper space (R349)
  tickBase : Nat := 0                -- TB time at which the count was last set to 0, which ticks are counted from (R330)
  lastTick : Option Nat := none      -- TB time of the last tick
  deriving DecidableEq, Repr

/-! ## Near store (chapter 12) -/

/-- An open row of a channel (R361, R364): the bank as one number, the row, when it was last used (TB time), and whether it
closes after DMC_PAGE_CFG.idle. -/
structure OpenRow where
  bank : Nat
  row : Nat
  used : Nat
  adaptive : Bool
  deriving DecidableEq, Repr

/-- What a DDR controller holds beside its registers: the ranks and the hash committed at the last training (R366), a write
burst (R363), the open rows, postponed refreshes and the next bank to refresh (R365), what MR4 read, a retraining round, the
initialiser's next granule, the granules above it that are zeroed and the first granule it leaves alone (R368), a
diagnostic operation (its kind, line and pattern, R375), and the lines that a pattern was written to. -/
structure DmcH where
  ranks : Nat := 1
  hash : Bool := false
  burst : Bool := false
  rows : List OpenRow := []
  postponed : Nat := 0
  refBank : Nat := 0
  mr4 : Nat := 0
  round : Bool := false
  initNext : Nat := 0
  initDone : List Nat := []
  initEnd : Nat := 0
  stepDue : Option Nat := none           -- when the retraining step that waits for panic to end became due (TB time)
  steps : List (Nat × Nat) := []         -- subchannel, TB time of its last retraining step
  diag : Option (Nat × Nat × Nat) := none
  patterned : List (Nat × Nat) := []
  deriving DecidableEq, Repr

/-! ## Far store (chapter 13) -/

/-- What the CXL host holds for a half beside its registers: its window of R385 has ended; the times of its time-outs. -/
structure CxhH where
  windowOver : Bool := false
  timeouts : List Nat := []
  deriving DecidableEq, Repr

/-! ## Calibration, in-service test and the SME (chapter 16) -/

/-- What the calibration controller holds beside its registers: the sensor readings of each unit's last completed run (unit,
sensor, reading), when a run of a unit failed and when a unit became pending (TB time), when the last in-service cycle and the last
known-answer test of a hold began, the unit in a run, the progress of a CAL_FULL (next unit, units
skipped), the in-service test in progress (test code, unit), the scrub's next line in SRAM and in each channel, and a
SCRUB_FULL in progress (regions left as a mask, uncorrectable lines found). -/
structure CalH where
  ref : List (Nat × Nat × Int) := []
  failAt : List (Nat × Nat) := []
  pendAt : List (Nat × Nat) := []
  istAt : Option Nat := none
  katAt : Option Nat := none
  run : Option Nat := none
  full : Option (Nat × Nat) := none
  ist : Option (Nat × Nat) := none
  scrub : Vector Nat 5 := Vector.replicate 5 0
  scrubFull : Option (Nat × Nat) := none
  deriving DecidableEq, Repr

/-- A routine of the SME (Table 16.7): its number, and the unit or channel it works on. -/
structure SmeJob where
  routine : Nat
  unit : Nat
  deriving DecidableEq, Repr

/-- The SME: the words of the loaded patch RAM (R479), the running routine, the suspended ones (last suspended first), the requests in order of arrival. -/
structure SmeH where
  patch : List (BitVec 144) := []
  run : Option SmeJob := none
  susp : List SmeJob := []
  reqs : List SmeJob := []
  deriving DecidableEq, Repr

/-! ## Long operations (Table 14.9) -/

/-- The long operation that occupies the management channel (R414): its opcode, the session and session identifier, the
tag and seq of its request, when it was accepted (TB time), its bound in ms, and its outcome once it has one: the result
and the results of its reply. -/
structure LongOp where
  opcode : Nat
  sess : Nat
  sid : Nat
  tag : Nat
  seq : Nat
  at_ : Nat
  bound : Nat
  outcome : Option (Nat × List Byte) := none
  deriving DecidableEq, Repr

/-- A CSR command that waits for the clocks of a domain PLL (R215, R413): the session (8: it has none any more), the tag and the seq of
its request, whether it writes, the accesses still to be made (address, and the value of a write), how many are made, and the values
read. -/
structure CsrWait where
  sess : Nat
  tag : Nat
  seq : Nat
  write : Bool
  items : List (Nat × Nat)
  index : Nat := 0
  acc : List Byte := []
  deriving DecidableEq, Repr

/-! ## Structure loads (chapter 02) -/

/-- A STRUCT_LOAD in progress: its stage (1 validating, 2 validated, 3 units stopped, 4 domains settled, 5 committed),
STC_STATUS.state before it, where the bitstream lies, and from its validation on its scope (4: device), its serial number, the structure it gives, and whether a
POLICY field is below the owner policy (R71), and the domains that it switches on. -/
structure LoadH where
  stage : Nat
  before : Nat
  addr : Nat
  length : Nat
  scope : Nat := 4
  serial : Nat := 0
  new : Committed := {}
  raised : Bool := false
  ups : List Nat := []
  deriving DecidableEq, Repr

/-! ## The security block (chapter 15) -/

/-- An entry of the tamper log (R449). -/
structure TamperEntry where
  sensor : Nat
  cls : Nat
  flags : Nat
  aon : Nat
  ts : Nat
  deriving DecidableEq, Repr

/-- A RUCKSACK_OPEN whose package is being decrypted (R436): port, region in 64 KiB units, where the package lies, its id,
limit and plaintext bytes, and the request it answers: session, its seq and tag. -/
structure RkOpen where
  port : Nat
  base : Nat
  size : Nat
  addr : Nat
  id : Nat
  limit : Nat
  ptLen : Nat
  sess : Nat
  seq : Nat
  tag : Nat
  deriving DecidableEq, Repr

/-- What the security block holds beside its registers: the private scalar of the DIK (OTP), the digest of the firmware key and the
provisioning key (boot ROM), the fuses, the owner record (R432), the raises of SEC_POLICY (R429),
the pattern keys by slot, an open in progress, the locked regions being zeroed (port, and whether exhausted: R439), the
tamper log (newest first), the AON count at which sensor 2 came inside its limits again (R448), a scorch that waits for main power (R444), and a tamper reset that is due (R501). -/
structure SecH where
  dik : Nat := Config.dik
  fwDigest : Nat := Config.firmwareDigest
  provKey : List Byte := Config.provisioningKey
  provisioned : Bool := false
  dikOff : Bool := false
  owner : Bool := false
  ork : BitVec 256 := 0
  oak : List Byte := []
  polFlags : Nat := 0
  polTamper : Nat := 0
  credFloor : Nat := 0
  raiseFlags : Nat := 4
  raiseTamper : Nat := 0
  keys : List (Nat × BitVec 256) := []
  opening : Option RkOpen := none
  closing : List (Nat × Bool) := []
  tlog : List TamperEntry := []
  coolAt : Option Nat := none
  scorchPending : Bool := false
  resetDue : Bool := false
  deriving DecidableEq, Repr

/-! ## Amiuc (chapter 14) -/

/-- A DATA frame that the device sent and that is not acknowledged (R410, R411): its seq, payload, when it was last sent (TB
time), whether sack marks it, and the slot of the Hamper whose last frame it is. -/
structure TxFrame where
  seq : Nat
  payload : List Byte
  sentAt : Nat
  sacked : Bool
  hamper : Option Nat
  deriving DecidableEq, Repr

/-- A received DATA frame's payload as plaintext, whether the flash takes what it programs, and the lines of `bad` that a bulk read has met (R372). -/
structure RxItem where
  seq : Nat
  payload : List Byte
  flashOk : Bool := true
  bad : List (Nat × Nat) := []
  met : List Nat := []
  deriving DecidableEq, Repr

/-- A channel of a session (R409 to R411): the next seq to send and the next expected one, unacknowledged frames (oldest
first), payloads that wait for credit, frames received above the expected one, delivered requests not yet executed, the
credit in force with the txc it came with, the retransmission timer as a multiple of NET_RTO, and the DATA frames
received since the last acknowledgement. -/
structure ChanH where
  tx : Nat := 0
  rx : Nat := 0
  unacked : List TxFrame := []
  queue : List (List Byte) := []
  held : List RxItem := []
  todo : List RxItem := []
  credit : Nat := 0
  creditTxc : Nat := 0
  rto : Nat := 1
  ackDue : Nat := 0
  deriving DecidableEq, Repr

/-- Where a session's frames go (R396, R407). -/
structure Peer where
  port : Nat := 0
  mac : Nat := 0
  v6 : Bool := false
  ip : Nat := 0
  uport : Nat := 0
  deriving DecidableEq, Repr

/-- The keys and salts of an encrypted session, of what it receives and what it sends (R403). -/
structure SessKeys where
  rx : BitVec 256
  tx : BitVec 256
  rxSalt : BitVec 64
  txSalt : BitVec 64
  deriving DecidableEq, Repr

/-- A session that WELCOME offered and CONFIRM has not opened (R403, R407), when it was offered, with the txc values accepted for it. -/
structure Offer where
  sid : Nat
  at_ : Nat := 0
  keys : Option SessKeys
  enc : Bool
  resume : Bool
  peer : Peer
  perms : Nat
  limited : Bool
  hello : List Byte
  welcome : List Byte
  before : Nat
  seen : List Nat := []
  deriving DecidableEq, Repr

/-- What a session slot holds beside its registers: its keys (none where it has none: a plaintext session, or after R446), its offer, its peer, its permissions (R431), whether it was opened while
sealed (R445), the accepted txc values that R404 still tells apart, when it was detached, when a valid frame last came and the device last sent (TB time), the
channels, the pending event records (source, count, epoch, stamp: R418), when an event frame was last sent, the challenge
with the time it was given (R453), and the Hamper in transmission: its slot and the next offset (R417). -/
structure SessH where
  keys : Option SessKeys := none
  offer : Option Offer := none
  peer : Peer := {}
  perms : Nat := 0
  limited : Bool := false
  rxSeen : List Nat := []
  endAt : Nat := 0
  lastRx : Nat := 0
  lastTx : Nat := 0
  chans : Vector ChanH 7 := Vector.replicate 7 {}
  evts : List (Nat × Nat × Nat × Nat) := []
  lastEvt : Option Nat := none
  chal : Option (Nat × Nat) := none
  ham : Option (Nat × Nat) := none
  warm : Option Nat := none        -- the seq of the reply to WARM_RESET, until it is acknowledged (R498)
  deriving DecidableEq, Repr

/-- What an Ethernet port holds beside its registers: the configuration in force (R421), the leased address with when it was leased and for how many seconds, and the addresses
that passed duplicate address detection: link-local and global (R395). -/
structure NetPortH where
  cfg : Nat := 2
  ip4 : Nat := 0
  ip6 : Nat := 0
  lease : Option Nat := none
  leaseAt : Nat := 0
  leaseSecs : Nat := 0
  llOk : Bool := false
  glOk : Bool := false
  deriving DecidableEq, Repr

/-- A frame that the device sent: an Amiuc frame (its header and its payload, with the tag where it is encrypted, to a peer), or one of the protocols of
R395: an ARP reply, a gratuitous ARP, a neighbour advertisement, an echo reply, a DHCP renewal. -/
inductive NetOut where
  | amiuc (peer : Peer) (header payload : List Byte)
  | arpReply (port mac ip : Nat)
  | gratuitousArp (port ip : Nat)
  | advert (port mac ip : Nat)
  | echo (peer : Peer) (payload : List Byte)
  | dhcpRenew (port ip : Nat)
  | dhcpDiscover (port : Nat)
  | dadSolicit (port ip : Nat)
  deriving DecidableEq, Repr

/-- What the Ethernet ports and Amiuc hold beside their registers: the ports, the sessions, the policer's buckets (source MAC,
tokens, TB time of the last refill: R397), when source 362 was last raised, what was sent with its 802.1Q tag, oldest first, and the encrypted
frames that wait for the crypto engine, with their types (R473), and the master that CSR_PORT last granted (R35). -/
structure NetH where
  port : Vector NetPortH 2 := Vector.replicate 2 {}
  sess : Vector SessH 8 := Vector.replicate 8 {}
  buckets : List (Nat × Nat × Nat) := []
  dropAt : Option Nat := none
  out : List (Option Nat × NetOut) := []
  rxWait : List (Nat × Rx) := []
  csrLast : Nat := 10
  deriving DecidableEq, Repr

/-! ## Events, power, buses, boundary scan and boot (chapters 17 and 18) -/

/-- What the event controller holds beside its registers: the accepted levels of the inputs (R494), the inputs with an accepted
edge since reset (R492), the EVT_OUT pins in a pulse, with the TB time of its end (R490), and the sources whose occurrences were accepted, with the TB time of the
last one (R487). -/
structure EvcH where
  accepted : List (Nat × Nat) := []
  inActive : Nat := 0
  inSeen : Nat := 0
  pulse : List (Nat × Nat) := []
  deriving DecidableEq, Repr

/-- What the power controller holds beside its registers: the switches in progress in order (domain, on or off: R507), and that the
thermal warning waits for the reading to fall (R509). -/
structure PwrH where
  sw : List (Nat × Bool) := []
  hot : Bool := false
  deriving DecidableEq, Repr

/-- What a PEB bus holds beside its registers: the chip select that a running transaction drives low, and an abort that waits for
the end of its present byte (R516). -/
structure PebH where
  cs : Option Nat := none
  abort : Bool := false
  deriving DecidableEq, Repr

/-- The test access port (R450, R531, R532): the instruction in force, the boundary register, the data register last captured,
and the challenge not yet used (R451). -/
structure JtagH where
  ir : Nat := 1
  boundary : BitVec 3507 := 0
  dr : Nat := 0
  chal : Option (BitVec 384) := none
  deriving DecidableEq, Repr

/-- Where the device stands between reset and READY (R503): 0 held in reset by RST_N, 1 the boot ROM runs, 2 it stays in the boot
ROM, 3 firmware verified, 4 READY, 5 no power-good; the word of SEC_BOOT; the rollback of the images that run; when the watchdog was last
serviced (TB time); and the images that FW_UPDATE wrote to the boot flash, as slot and bytes. -/
structure BootH where
  stage : Nat := 1
  secBoot : Nat := 0
  rollback : List Nat := [0, 0, 0]
  serviced : Nat := 0
  flash : List (Nat × List Byte) := []
  deriving DecidableEq, Repr

end Sys2Proof.Machine
end

