-- ==== Sys2Proof/Machine/State.lean ====
section
/-! DEFINITION. The state of the machine, the reasons a step can stop, and the state after reset. -/

namespace Sys2Proof.Machine

/-- Why a step faults. No command of this block ends in a fault: what the spec calls an error is an effect on the state (an
address error, a refused start, a counted frame). -/
inductive Fault where
  deriving DecidableEq, Repr

/-- Why a step is refused. -/
inductive Refusal where
  /-- Raised by an arm of `exec` whose command has no meaning in the model; safe. No arm raises it. -/
  | notModelled (mnemonic : String)
  deriving DecidableEq, Repr

/-- The device. Registers are in `csr`; the other fields hold what the blocks keep beside their registers. -/
structure State where
  /-- The commands that wait, first in, first out: the model's own field (log entry 1). -/
  pending : List Instr := []
  /-- The register file (R10, R50, R51): CSR address and value, in canonical form; an unlisted register reads its reset value. -/
  csr : List (Nat × Word) := []
  /-- SRAM, near store and far store (Table 1.6): management address and byte, in canonical form; an unlisted byte reads 0. -/
  mem : List Host.Cell := []
  /-- High words that a read of a low word latched (R53): master, CSR address and value. Masters are sessions 0 to 7 and the
  result cores (8). -/
  shadow : List (Nat × Nat × Word) := []
  /-- Low words of 64-bit values that wait for their high word (R53). -/
  stagedLo : List (Nat × Word) := []
  /-- X16, and the master behind it (R17, R43): register writes that wait for the clocks of a domain PLL (R215) or behind one that does, in
  the order of issue: CSR address and value. -/
  waits : List (Nat × Word) := []
  /-- The CSR command that waits for the clocks of a domain PLL (R215, R413). -/
  csrWait : Option CsrWait := none
  /-- Occurrences on their way to the event controller (R487). -/
  raised : List Nat := []
  /-- The matrix sources that are in a pulse of 2 TB cycles (R60, R275): code, and the TB time at which it ends. -/
  pulses : List (Nat × Nat) := []
  /-- The ports (chapters 03 and 04). -/
  port : Vector PortH 8 := Vector.replicate 8 {}
  /-- Sequencers and streams: ports 0 to 7, WFGs 8 to 11 (chapters 04, 05, 09). -/
  seq : Vector SeqH 12 := Vector.replicate 12 {}
  /-- The acquisition engines (chapter 07). -/
  acq : Vector AcqH 8 := Vector.replicate 8 {}
  /-- The TIM channels (chapter 08). -/
  tim : Vector TimH 32 := Vector.replicate 32 {}
  /-- X7 of each quadrant: the results that wait for its histogram unit (R285), as channel and word. -/
  x7 : Vector (List (Nat × Nat)) 4 := Vector.replicate 4 []
  /-- The waveform generators (chapter 09). -/
  wfg : Vector WfgH 4 := Vector.replicate 4 {}
  /-- The precision level DACs (R304 to R308). -/
  pdac : Vector PdacH 16 := Vector.replicate 16 {}
  /-- The fabric transactions that hold a tag, in the order of issue (R26 to R29, R42). -/
  fab : List FabTx := []
  /-- The requests that wait for a tag, in the order of issue (R28, R33). -/
  fabWait : List FabWait := []
  /-- The hops of the fabric (R31): X11 of channels 0 to 3, X12, X13, X15. -/
  hop : Vector HopH 7 := Vector.replicate 7 {}
  /-- TAG_SHARED of each pool (Table 1.5): the requester it last granted. -/
  tagLast : Vector Nat 6 := Vector.replicate 6 30
  /-- FAB_OUT of each target (Table 1.5): the real-time requester and the bulk requester it last granted. -/
  outLast : Vector (Nat × Nat) 6 := Vector.replicate 6 (19, 30)
  /-- The domain PLLs (chapter 06). -/
  dpl : Vector DplH 12 := Vector.replicate 12 {}
  /-- The time base and the TBPLL (chapter 06). -/
  tmb : TmbH := {}
  /-- Votes of ports on their way to the site link: port, round, fail (R317). -/
  voteQ : List (Nat × Nat × Bool) := []
  /-- The use table of R438: id, uses counted, limit. -/
  useTab : List (Nat × Nat × Nat) := []
  /-- The receipt queue (R439). -/
  receipts : List (List Byte) := []
  /-- The committed structure (chapter 02). -/
  cs : Committed := {}
  /-- The site link (chapter 10). -/
  slk : SlkH := {}
  /-- The frames that SITE_OUT carried, oldest first: the body with its CRC, and whether it ended in an error end. -/
  siteOut : List (List Byte × Bool) := []
  /-- The scheduler (chapter 11). -/
  sch : SchH := {}
  /-- The DDR controllers (chapter 12). -/
  dmc : Vector DmcH 4 := Vector.replicate 4 {}
  /-- The halves of the CXL host (chapter 13). -/
  cxh : Vector CxhH 2 := Vector.replicate 2 {}
  /-- The calibration controller, the in-service test and the scrub (chapter 16). -/
  cal : CalH := {}
  /-- The service microengine (chapter 16). -/
  sme : SmeH := {}
  /-- The long operation in progress (R414). -/
  long : Option LongOp := none
  /-- The channels that a DDR_FULL_TRAIN still has to train, and its codes so far (R367, Table 14.9). -/
  trainLeft : List Nat := []
  trainCodes : List (Nat × Nat) := []
  /-- The structure load in progress (chapter 02). -/
  load : Option LoadH := none
  /-- The quadrant whose lines a quadrant load holds inactive (R78). -/
  lineHold : Option Nat := none
  /-- The security block (chapter 15). -/
  sec : SecH := {}
  /-- Amiuc and the Ethernet ports (chapter 14). -/
  net : NetH := {}
  /-- The event controller (chapter 17). -/
  evc : EvcH := {}
  /-- The power controller (chapter 17). -/
  pwr : PwrH := {}
  /-- The pin-electronics buses (chapter 18). -/
  peb : Vector PebH 8 := Vector.replicate 8 {}
  /-- The test access port (chapters 15 and 18). -/
  jtag : JtagH := {}
  /-- Boot, the watchdog and the boot flash (chapters 15 and 17). -/
  boot : BootH := {}
  /-- The number of the next free value: the model's own field (log entry 6). -/
  fresh : Nat := 0
  deriving DecidableEq, Repr

/-- The device right after a power-on reset: every register at the value of its Reset column (R14) or at the value that log entry 3
names, nothing in memory, every unit idle, no command waiting. -/
def State.reset : State := {}

end Sys2Proof.Machine
end

