-- ==== Sys2Proof/Machine/Ops.lean ====
section
/-! DEFINITION. The named operations over the register file, the memory, the events and the time base. -/

namespace Sys2Proof.Machine

/-! ## The register file -/

/-- What a register holds. -/
def State.rd (s : State) (a : Nat) : Word := cellsGet regReset s.csr a

/-- Put a value into a register, whatever its access types: the hardware's own update. -/
def State.wr (s : State) (a : Nat) (v : Word) : State := { s with csr := cellsSet regReset s.csr a v }

/-- A register as a number. -/
def State.rn (s : State) (a : Nat) : Nat := (s.rd a).toNat

/-- Put a number, modulo 2³², into a register. -/
def State.wn (s : State) (a v : Nat) : State := s.wr a (BitVec.ofNat 32 v)

/-- A field of a register. -/
def State.get (s : State) (f : Fld) : Nat := bitsOf (s.rn f.addr) f.lo f.w

/-- Put a number, modulo 2ʷ, into a field of a register. -/
def State.put (s : State) (f : Fld) (v : Nat) : State := s.wn f.addr (bitsPut (s.rn f.addr) f.lo f.w v)

/-- A one-bit field is 1. -/
def State.on (s : State) (f : Fld) : Bool := decide (s.get f = 1)

/-- A 64-bit value held in two registers (R53), the low word at `a`. -/
def State.rn64 (s : State) (a : Nat) : Nat := s.rn a + 2 ^ 32 * s.rn (a + 4)

/-- Put a 64-bit value into two registers, the low word at `a`. -/
def State.wn64 (s : State) (a v : Nat) : State := (s.wn a (v % 2 ^ 32)).wn (a + 4) (v / 2 ^ 32 % 2 ^ 32)

/-- A counter that saturates: add `n` to a 32-bit counter register. -/
def State.count (s : State) (a : Nat) (n : Nat := 1) : State := s.wn a (min (s.rn a + n) 0xFFFFFFFF)

/-- A counter field that saturates at its width. -/
def State.countF (s : State) (f : Fld) (n : Nat := 1) : State := s.put f (min (s.get f + n) (2 ^ f.w - 1))

/-- Set one bit of a register (a sticky bit set by hardware). -/
def State.setBit (s : State) (a i : Nat) : State := s.wr a (s.rd a ||| BitVec.ofNat 32 (2 ^ i))

/-- Clear one bit of a register. -/
def State.clearBit (s : State) (a i : Nat) : State := s.wr a (s.rd a &&& ~~~ BitVec.ofNat 32 (2 ^ i))

/-- Bit `i` of a register. -/
def State.bitAt (s : State) (a i : Nat) : Bool := bit (s.rn a) i

/-- The two's-complement reading of a `w`-bit number. -/
def toSigned (w x : Nat) : Int := if 2 ^ (w - 1) ≤ x % 2 ^ w then (x % 2 ^ w : Int) - 2 ^ w else (x % 2 ^ w : Int)

/-- The `w`-bit pattern of an integer. -/
def ofSigned (w : Nat) (x : Int) : Nat := (x % (2 ^ w : Int)).toNat

/-! ## Memory -/

/-- What a byte of memory reads as when nothing was written to it (R368, R496). -/
def memDefault (_ : Nat) : Byte := 0

/-- The canonical form of the memory. -/
def Memory.wf (m : List Host.Cell) : Bool := cellsWf memDefault m

/-- One byte of memory. -/
def State.byte (s : State) (a : Nat) : Byte := cellsGet memDefault s.mem a

/-- Write one byte of memory. -/
def State.setByte (s : State) (a : Nat) (v : Byte) : State := { s with mem := cellsSet memDefault s.mem a v }

/-- `n` bytes of memory from address `a`. -/
def State.bytes (s : State) (a : Nat) : Nat → List Byte
  | 0 => []
  | n + 1 => s.byte a :: s.bytes (a + 1) n

/-- Write bytes to memory from address `a`. -/
def State.setBytes (s : State) (a : Nat) : List Byte → State
  | [] => s
  | b :: l => (s.setByte a b).setBytes (a + 1) l

/-- A little-endian number of `n` bytes at address `a` (R10). -/
def State.le (s : State) (a : Nat) : Nat → Nat
  | 0 => 0
  | n + 1 => (s.byte a).toNat + 256 * s.le (a + 1) n

/-- The `n` little-endian bytes of a number. -/
def leBytes (x : Nat) : Nat → List Byte
  | 0 => []
  | n + 1 => BitVec.ofNat 8 x :: leBytes (x / 256) n

/-- The `n` big-endian bytes of a number. -/
def beBytes (x n : Nat) : List Byte := (leBytes x n).reverse

/-- The number that little-endian bytes spell. -/
def ofLe : List Byte → Nat
  | [] => 0
  | b :: l => b.toNat + 256 * ofLe l

/-- The number that big-endian bytes spell. -/
def ofBe (l : List Byte) : Nat := ofLe l.reverse

/-- Fill `n` bytes from address `a` with zeros. -/
def State.zeroMem (s : State) (a n : Nat) : State :=
  { s with mem := cellsClear (fun k => decide (a ≤ k) && decide (k < a + n)) s.mem }

/-! ## Events (R487) -/

/-- An occurrence of a source reaches the event controller's crossing. -/
def State.ev (s : State) (src : Nat) : State := { s with raised := s.raised ++ [src] }

/-- Raise a source where a condition holds. -/
def State.evIf (s : State) (c : Bool) (src : Nat) : State := if c then s.ev src else s

/-- Source `j` of port `n` (R126). -/
def portSrc (n j : Nat) : Nat := 64 * (n / 2) + 16 * (n % 2) + j

/-! ## Units -/

/-- Change the hidden state of port `p`. -/
def State.setPort (s : State) (p : Fin 8) (x : PortH) : State := { s with port := s.port.set p x }

/-- Change the sequencer and stream of unit `d`: port 0 to 7, WFG 8 to 11. -/
def State.setSeq (s : State) (d : Fin 12) (x : SeqH) : State := { s with seq := s.seq.set d x }

/-- Change the hidden state of domain PLL `d`. -/
def State.setDpl (s : State) (d : Fin 12) (x : DplH) : State := { s with dpl := s.dpl.set d x }

/-- The unit behind source `j` of the scheduler is armed: its next run has not ended (R331; DESIGN CHOICE, log entry 31); `clear`: its
counter starts at 0. -/
def State.sourceArmed (s : State) (j : Fin 48) (clear : Bool) : State :=
  let x := s.sch.src[j]
  { s with sch := { s.sch with src := s.sch.src.set j { x with ended := false, cursor := if clear then 0 else x.cursor } } }

/-! ## Time stamps (R11, R230) -/

/-- One ns in units of 1/8192 ps. -/
def tuPerNs : Nat := 8192000

/-- The present TB cycle; none while the time base does not run. -/
def State.tbCycle (s : State) : Option Nat := if s.tmb.running then some (s.tmb.clk / tuPerNs) else none

/-- A noted TB cycle is the present one. -/
def State.inTbCycle (s : State) (c : Option Nat) : Bool := c.isSome && decide (c = s.tbCycle)

/-- One step of 250 fs in the same units. -/
def tuPerStep : Nat := 2048

/-- The time stamp of an instant of the count: bits [63:1] in units of 2⁻¹⁵ ns, bit 0 the step flag (R11, R230). -/
def stampOf (count : Nat) (step : Nat) : Nat := 2 * (count / 250 % 2 ^ 63) + step

/-- The present time stamp. -/
def State.stamp (s : State) : Nat := stampOf s.tmb.count (s.get TMB_STATUS_step_flag)

/-- The count wraps at 2⁴⁸ ns (R230), in units of 1/8192 ps. -/
def wrapTu : Nat := 2 ^ 48 * tuPerNs

/-- The count less the TB time, the epoch and the step flag at an instant of TB time: those before the last jump of the count, or the
present ones. -/
def State.clockMap (s : State) (t : Nat) : Int × Nat × Nat :=
  if t < s.tmb.jumpAt then (s.tmb.oldOfs, s.tmb.oldEp, s.tmb.oldStep)
  else ((s.tmb.count : Int) - s.tmb.clk, s.tmb.epoch, s.get TMB_STATUS_step_flag)

/-- The count at an instant of TB time, before any wrap. -/
def State.countAt (s : State) (t : Nat) : Int := t + (s.clockMap t).1

/-- The time stamp of an instant of TB time. -/
def State.stampAt (s : State) (t : Nat) : Nat := stampOf ((s.countAt t) % wrapTu).toNat (s.clockMap t).2.2

/-- The epoch of an instant of TB time. -/
def State.epochAt (s : State) (t : Nat) : Nat := (((s.clockMap t).2.1 : Int) + s.countAt t / wrapTu).toNat % 2 ^ 16

/-- The count is about to jump: the clock map before it is kept. -/
def State.keepClock (s : State) : State :=
  { s with tmb := { s.tmb with
      jumpAt := s.tmb.clk, oldOfs := (s.tmb.count : Int) - s.tmb.clk, oldEp := s.tmb.epoch
      oldStep := s.get TMB_STATUS_step_flag } }

/-- The instant, in units of 1/8192 ps, that bits [63:1] of a written time stamp give (R11). -/
def instantOf (ts : Nat) : Nat := ts / 2 * 250

/-- A host-written instant against the present count and epoch (R535): past, or the units still to go where it lies in
the present epoch, or later than every instant of it. -/
inductive When where
  | past
  | inEpoch (left : Nat)
  | nextEpoch
  deriving DecidableEq, Repr

/-- Judge an instant (R535). -/
def State.when_ (s : State) (ts ep : Nat) : When :=
  if ep % 2 ^ 16 = s.tmb.epoch % 2 ^ 16 then
    if instantOf ts < s.tmb.count then .past else .inEpoch (instantOf ts - s.tmb.count)
  else if ep % 2 ^ 16 = (s.tmb.epoch + 1) % 2 ^ 16 then .nextEpoch
  else .past

/-- The instant is less than 1 µs ahead (R157, R535). -/
def State.tooNear (s : State) (ts ep : Nat) : Bool :=
  match s.when_ ts ep with
  | .past => true
  | .inEpoch left => decide (left < 1000 * tuPerNs)
  | .nextEpoch => false

/-- The instant has been reached: it lies in the present epoch and the count stands at or after it (R535). -/
def State.reached (s : State) (ts ep : Nat) : Bool :=
  decide (ep % 2 ^ 16 = s.tmb.epoch % 2 ^ 16) && decide (instantOf ts ≤ s.tmb.count)

/-- Let `n` units of time pass, if the time base runs. -/
def State.advance (s : State) (n : Nat) : State :=
  if s.tmb.running then { s with tmb := { s.tmb with count := s.tmb.count + n, clk := s.tmb.clk + n } } else s

/-- Let TB time stand no earlier than `t`, if the time base runs. -/
def State.advanceTo (s : State) (t : Nat) : State := s.advance (t - s.tmb.clk)

/-- Let the count stand no earlier than a host-written instant of the present epoch; whether it is reached then (R535). -/
def State.advanceToStamp (s : State) (ts ep : Nat) : State × Bool :=
  if s.tmb.running && decide (ep % 2 ^ 16 = s.tmb.epoch % 2 ^ 16) then
    (s.advance (instantOf ts - s.tmb.count), true)
  else (s, false)

/-! ## Domains and units that are on -/

/-- Switched domain `d` is on and settled (R507). -/
def State.domainOn (s : State) (d : Nat) : Bool :=
  if d < 32 then s.bitAt PWR_STATE_LO d else s.bitAt PWR_STATE_HI (d - 32)

/-- A draw of a free value. -/
def State.draw (s : State) : BitVec 384 × State := (Config.freeValue s.fresh, { s with fresh := s.fresh + 1 })

/-! ## The committed structure -/

/-- The port that owns octet `o`, if any (R58). -/
def Committed.ownerOf (c : Committed) (o : Nat) : Option Nat :=
  match c.octOwner.getD o 0 with
  | 1 => some (2 * (o / 8))
  | 2 => some (2 * (o / 8) + 1)
  | _ => none

/-- The octets of port `n`, in ascending order (R3). -/
def Committed.octets (c : Committed) (n : Nat) : List Nat :=
  (List.range 32).filter fun o => decide (c.ownerOf o = some n)

/-- The pins of port `n` in ascending order; the position in the list is the port pin index (R4). -/
def Committed.pins (c : Committed) (n : Nat) : List Nat :=
  (c.octets n).flatMap fun o => (List.range 8).map (8 * o + ·)

/-- P, the pin count of port `n`. -/
def Committed.pinCount (c : Committed) (n : Nat) : Nat := 8 * (c.octets n).length

/-- The SRAM banks with an owner code, in ascending order (R65). -/
def Committed.banks (c : Committed) (owner : Nat) : List Nat :=
  (List.range 48).filter fun b => decide (c.bank.getD b 0xFF = owner)

/-- The start address of an SRAM bank (R65). -/
def bankBase (b : Nat) : Nat := 0x100000000 + b * 0x200000

/-- The management address of byte `off` of the space that the banks with an owner code make, in ascending order. -/
def Committed.sramAddr (c : Committed) (owner off : Nat) : Option Nat :=
  (c.banks owner)[off / 0x200000]?.map fun b => bankBase b + off % 0x200000

/-- The windows of port `n` (R67). -/
def Committed.nearWin (c : Committed) (n : Nat) : Win :=
  let q := c.store.getD (n / 2) {}
  if n % 2 = 0 then q.nearA else q.nearB
def Committed.farWin (c : Committed) (n : Nat) : Win :=
  let q := c.store.getD (n / 2) {}
  if n % 2 = 0 then q.farA else q.farB
def Committed.acqWin (c : Committed) (e : Nat) : Win :=
  let q := c.store.getD (e / 2) {}
  if e % 2 = 0 then q.nearAcqA else q.nearAcqB

/-- The management address of near-store channel `c`, and of the far store (R48, R49). -/
def nearBase (c : Nat) : Nat := 0x10000000000 + c * 0x2000000000
def farBase : Nat := 0x100000000000

/-- 256 MiB and 1 GiB, the units of the windows (R67). -/
def nearUnit : Nat := 0x10000000
def farUnit : Nat := 0x40000000

end Sys2Proof.Machine
end

