-- ==== Sys2Proof/Machine/Numeric.lean ====
section
/-! DEFINITION. The arithmetic behind the figures of SPECTRUM and TIM_JITTER (R344, R345), in fixed point far finer than the figures: square
roots, roots of unity, logarithms, the normal distribution, the transform and the straight line. -/

namespace Sys2Proof.Machine

/-- The greatest integer whose square is at most `x`, below 2ᵏ. -/
def isqrt (x : Nat) : Nat → Nat → Nat
  | 0, r => r
  | k + 1, r => isqrt x k (if (r + 2 ^ k) * (r + 2 ^ k) ≤ x then r + 2 ^ k else r)

/-- The nearest integer to p / q, ties to even. -/
def nearestDiv (p q : Nat) : Nat :=
  let a := p / q
  let r := p % q
  if q < 2 * r ∨ (2 * r = q ∧ a % 2 = 1) then a + 1 else a

/-! ## binary32 -/

/-- The binary32 pattern nearest to p / q, ties to even (IEEE 754); q is not 0. -/
def binary32Of (p : Int) (q : Nat) : Nat :=
  let n := p.natAbs
  if n = 0 then 0
  else
    let sign := if p < 0 then 2 ^ 31 else 0
    let e0 : Int := (n.log2 : Int) - q.log2
    let below := if 0 ≤ e0 then decide (n < q * 2 ^ e0.toNat) else decide (n * 2 ^ (-e0).toNat < q)
    let e := max (-126) (if below then e0 - 1 else e0)
    let k : Int := 23 - e
    let m := if 0 ≤ k then nearestDiv (n * 2 ^ k.toNat) q else nearestDiv n (q * 2 ^ (-k).toNat)
    let x := (e + 126).toNat * 2 ^ 23 + m
    sign + min x (255 * 2 ^ 23)

/-- The value of a finite binary32 pattern in units of 2⁻¹⁴⁹; none for an infinity or a NaN. -/
def binary32Value (x : Nat) : Option Int :=
  let e := bitsOf x 23 8
  let f := bitsOf x 0 23
  if e = 255 then none
  else
    let m : Nat := if e = 0 then f else (2 ^ 23 + f) * 2 ^ (e - 1)
    some (if bit x 31 then -(m : Int) else (m : Int))

/-! ## Logarithms -/

/-- `n` more bits of the binary logarithm of `m` / 2¹²⁸, which lies in [1, 2). -/
def logBits : Nat → Nat → Nat
  | 0, _ => 0
  | n + 1, m =>
    let x := m * m / 2 ^ 128
    if 2 ^ 129 ≤ x then 2 ^ n + logBits n (x / 2) else logBits n x

/-- log₂ (p / q) in units of 2⁻⁶⁴; p and q are not 0. -/
def logTwo (p q : Nat) : Int :=
  let e0 : Int := (p.log2 : Int) - q.log2
  let norm := fun (e : Int) => if 0 ≤ e then p * 2 ^ 128 / (q * 2 ^ e.toNat) else p * 2 ^ (128 + (-e).toNat) / q
  let e := if norm e0 < 2 ^ 128 then e0 - 1 else e0
  e * 2 ^ 64 + logBits 64 (norm e)

/-- 10 log₁₀ (p / q) in units of 2⁻⁶⁴: 10 log₁₀ 2 is 3.01029995663981195213739... -/
def decibel (p q : Nat) : Int := logTwo p q * 301029995663981195213739 / 10 ^ 23

/-- A figure in dB, or `scale` times that: any binary32 value within 0.05 dB of the exact one `x`, in units of 2⁻⁶⁴ (R344). `free` is the one
that the hardware gives where it is within, else the nearest stands. -/
def figure (x bound : Int) (free : Nat) : Nat :=
  match binary32Value free with
  | some v => if (v - x * 2 ^ 85).natAbs ≤ bound.toNat * 2 ^ 85 then free else binary32Of x (2 ^ 64)
  | none => binary32Of x (2 ^ 64)

/-- 0.05 dB in units of 2⁻⁶⁴. -/
def dbBound : Int := 5 * 2 ^ 64 / 100

/-- A ratio of powers as a figure; where a power is 0 the spec states no result, and the figure is free (log entry 6). -/
def ratioFigure (p q free : Nat) : Nat := if p = 0 ∨ q = 0 then free else figure (decibel p q) dbBound free

/-! ## Roots of unity and windows -/

/-- A complex number in units of 2⁻¹⁹². -/
abbrev Cx := Int × Int

def cxMul (a b : Cx) : Cx := ((a.1 * b.1 - a.2 * b.2) / 2 ^ 192, (a.1 * b.2 + a.2 * b.1) / 2 ^ 192)

/-- exp (-2πi / 2ⁿ), each from the one before by the half-angle formulas. -/
def rootOf : Nat → Cx
  | 0 => (2 ^ 192, 0)
  | 1 => (-(2 ^ 192), 0)
  | 2 => (0, -(2 ^ 192))
  | n + 3 =>
    let r := rootOf (n + 2)
    let c := isqrt ((2 ^ 192 + r.1).toNat * 2 ^ 191) 193 0
    (c, r.2 * 2 ^ 191 / c)

/-- exp (-2πi k / 2ⁿ). -/
def rootPow (n k : Nat) : Cx :=
  (List.range n).foldl (fun (a : Cx) j => if bit k j then cxMul a (rootOf (n - j)) else a) (2 ^ 192, 0)

/-- The coefficients of a window in units of 10⁻⁵ (R344): rectangular, Hann, and the four-term Blackman-Harris window (PRESUMED, log entry
32). -/
def windowTerms : Nat → List Int
  | 0 => [100000]
  | 1 => [50000, 50000]
  | _ => [35875, 48829, 14128, 1168]

/-- The half width of a window's main lobe in bins (R344). -/
def windowHalf : Nat → Nat
  | 0 => 1
  | 1 => 2
  | _ => 4

/-- The window at sample `i` of 2ⁿ, in units of 10⁻⁵ 2⁻¹⁹²: its cosine sum over whole periods (DESIGN CHOICE, log entry 32). -/
def windowAt (win n i : Nat) : Int :=
  ((windowTerms win).zipIdx.map fun x => (if x.2 % 2 = 0 then x.1 else -x.1) * (rootPow n (x.2 * i % 2 ^ n)).1).sum

/-- The power of bin `b` of the windowed transform. -/
def binPower (win n : Nat) (l : List Int) (b : Nat) : Nat :=
  let z := l.zipIdx.foldl (fun (a : Cx) x =>
    let r := rootPow n (b * x.2 % 2 ^ n)
    let w := x.1 * windowAt win n x.2
    (a.1 + w * r.1 / 2 ^ 192, a.2 + w * r.2 / 2 ^ 192)) (0, 0)
  (z.1 * z.1 + z.2 * z.2).toNat

/-- The power that a sine of amplitude 2^(w-1) at the centre of a bin gives through the window, in the units of binPower. -/
def fullScalePower (win n w : Nat) : Nat :=
  let t := windowTerms win
  let sum := (t.map fun x => (x * x).toNat).sum + ((t.headD 0) * (t.headD 0)).toNat
  sum * 2 ^ (384 + 2 * (w - 1) + 2 * n) / 8

/-! ## SPECTRUM (R344) -/

/-- The figures of a SPECTRUM record: the fundamental bin and the seven binary32 words; `free` supplies the words that are free. -/
def spectrum (win harm n w : Nat) (l : List Int) (free : Nat) : Nat × List Nat :=
  let half := 2 ^ n / 2
  let h := windowHalf win
  let powers := (List.range (half + 1)).map (binPower win n l)
  let pw := fun (b : Nat) => powers.getD b 0
  let coarse := fun (b : Nat) => pw b / 2 ^ 170 / 2 ^ 170
  let f := (List.range (half + 1)).foldl (fun (m : Nat) b => if h < b ∧ coarse m < coarse b then b else m) (h + 1)
  let span := fun (c : Nat) => (List.range (half + 1)).filter fun b => decide (c ≤ b + h) && decide (b ≤ c + h)
  let sumOf := fun (bs : List Nat) => (bs.map pw).sum
  let dc := (List.range (half + 1)).filter fun b => decide (b ≤ h)
  let fund := span f
  let harms := (List.range harm).foldl (fun (a : List Nat) j =>
    if j < 1 then a
    else
      let m := (j + 1) * f % 2 ^ n
      let c := if half < m then 2 ^ n - m else m
      a ++ (span c).filter fun b => !dc.contains b && !fund.contains b && !a.contains b) []
  let noise := (List.range (half + 1)).filter fun b => !dc.contains b && !fund.contains b && !harms.contains b
  let pf := sumOf fund
  let ph := sumOf harms
  let pn := sumOf noise
  let spur := ((List.range (half + 1)).filter fun b => !dc.contains b && !fund.contains b).foldl (fun (m : Nat) b => max m (pw b)) 0
  let fs := fullScalePower win n w
  let fw := fun (i : Nat) => bitsOf free (32 * i) 32
  let enob := if pf = 0 ∨ pn + ph = 0 then fw 5
    else figure ((decibel pf (pn + ph) - 176 * 2 ^ 64 / 100) * 100 / 602) (dbBound * 100 / 602) (fw 5)
  (f, [ratioFigure pf fs (fw 0), ratioFigure pf pn (fw 1), ratioFigure pf (pn + ph) (fw 2), ratioFigure ph pf (fw 3),
    ratioFigure pf spur (fw 4), enob, if noise = [] then fw 6 else ratioFigure pn (fs * noise.length) (fw 6)])

/-! ## The normal distribution (R345) -/

/-- The terms of the series of Φ from `t`, the present power over its factorial, in units of 2⁻¹⁶⁰: `y` is z² / 2 in units of 2⁻⁶⁴. -/
def phiTerms (y : Nat) : Nat → Nat → Int → Int
  | 0, _, _ => 0
  | fuel + 1, n, t => t / (2 * n + 1) + phiTerms y fuel (n + 1) (-(t * y / ((n + 1) * 2 ^ 64)))

/-- Φ(-z) in units of 2⁻¹⁶⁰, for z in units of 2⁻⁶⁴ up to 8: 1 / √2π is 0.398942280401432677939946059934... -/
def phiNeg (z : Nat) : Int :=
  2 ^ 159 - (z * phiTerms (z * z / 2 ^ 65) 220 0 (2 ^ 160) / 2 ^ 64) * 398942280401432677939946059934381868475858631164 / 10 ^ 48

/-- -Φ⁻¹(p / q) in units of 2⁻⁶⁴, for a fraction below one half: the greatest z found by halving with Φ(-z) above it. -/
def phiInv (p q : Nat) : Nat → Nat → Nat
  | 0, z => z
  | k + 1, z =>
    let y := z + 2 ^ k
    phiInv p q k (if (p : Int) * 2 ^ 160 ≤ phiNeg y * q then y else z)

/-! ## TIM_JITTER (R345) -/

/-- The points of a tail: bins, from its outer end, whose cumulative count is at most 1% of the total, with a count of at least 4: -Φ⁻¹(F) and the
value in half units of 2⁻¹³ ns. -/
def tailPoints (value : Nat → Int) (total : Nat) : Nat → List (Nat × Nat) → List (Nat × Int)
  | _, [] => []
  | cum, (b, n) :: l =>
    if 100 * (cum + n) ≤ total then
      (if 4 ≤ n then [(phiInv (cum + n) total 67 0, value b)] else []) ++ tailPoints value total (cum + n) l
    else []

/-- The least-squares line through points: slope and intercept as fractions of one denominator, x in units of 2⁻⁶⁴. -/
def fitLine (l : List (Nat × Int)) : Int × Int × Nat :=
  let n : Int := l.length
  let sx : Int := (l.map fun x => (x.1 : Int)).sum
  let sy : Int := (l.map fun x => x.2).sum
  let sxx : Int := (l.map fun x => (x.1 : Int) * x.1).sum
  let sxy : Int := (l.map fun x => (x.1 : Int) * x.2).sum
  (n * sxy - sx * sy, sy * sxx - sx * sxy, (n * sxx - sx * sx).toNat)

/-- The figures of a TIM_JITTER record with results: mean, rms, rj, dj and tj as binary32 in ps, and the two fit bits. `q` is the parameter, `bins` the
occupied bins in ascending order, `value` a bin's value in half units of 2⁻¹³ ns, each 125 / 2,048 ps; `free` supplies the tj of a q that is
no number. Whether rms is taken about the mean or about 0 the spec does not state (log entry 6). -/
def jitter (q : Nat) (value : Nat → Int) (bins : List (Nat × Nat)) (free : Nat) : List Nat × Bool × Bool :=
  let total := (bins.map (·.2)).sum
  let sum : Int := (bins.map fun x => value x.1 * x.2).sum
  let sqs : Int := (bins.map fun x => value x.1 * value x.1 * x.2).sum
  let square : Int := if Config.rmsAboutMean then total * sqs - sum * sum else total * sqs
  -- rms in half units of 2⁻¹³ ns times 2⁶⁴
  let rms : Int := isqrt (square.toNat * 2 ^ 128 / (total * total)) 128 0
  let left := tailPoints value total 0 bins
  let right := tailPoints value total 0 bins.reverse
  let both := decide (3 ≤ left.length) && decide (3 ≤ right.length)
  let a := fitLine left
  let b := fitLine right
  -- sigma is the size of a slope, which counts per 2⁻⁶⁴ of x; both in half units times 2⁶⁴
  let sigma := fun (f : Int × Int × Nat) => ((f.1.natAbs : Int) * 2 ^ 128) / max 1 f.2.2
  let mu := fun (f : Int × Int × Nat) => f.2.1 * 2 ^ 64 / max 1 f.2.2
  let rj := if both then (sigma a + sigma b) / 2 else rms
  let dj := if both then mu b - mu a else 0
  let ps := fun (x : Int) => binary32Of (x * 125) (2048 * 2 ^ 64)
  let tj := match binary32Value q with
    | some v => if v = 0 then ps (dj + 2 * 7034 * rj / 1000) else ps (dj + 2 * v * rj / 2 ^ 149)
    | none => free
  ([binary32Of (sum * 125) (2048 * total), ps rms, ps rj, ps dj, tj], decide (3 ≤ left.length), decide (3 ≤ right.length))

end Sys2Proof.Machine
end

