-- ==== Sys2Proof/Machine/Crypto.lean ====
section
/-! DEFINITION. SHA-384 (FIPS 180-4) and the verification of ECDSA P-384 signatures (FIPS 186-5), which the spec names (R57, chapter 15). -/

namespace Sys2Proof.Machine

/-! ## SHA-384 -/

/-- The round constants. -/
def shaK : List Nat := [
  0x428A2F98D728AE22, 0x7137449123EF65CD, 0xB5C0FBCFEC4D3B2F, 0xE9B5DBA58189DBBC, 0x3956C25BF348B538,
  0x59F111F1B605D019, 0x923F82A4AF194F9B, 0xAB1C5ED5DA6D8118, 0xD807AA98A3030242, 0x12835B0145706FBE,
  0x243185BE4EE4B28C, 0x550C7DC3D5FFB4E2, 0x72BE5D74F27B896F, 0x80DEB1FE3B1696B1, 0x9BDC06A725C71235,
  0xC19BF174CF692694, 0xE49B69C19EF14AD2, 0xEFBE4786384F25E3, 0x0FC19DC68B8CD5B5, 0x240CA1CC77AC9C65,
  0x2DE92C6F592B0275, 0x4A7484AA6EA6E483, 0x5CB0A9DCBD41FBD4, 0x76F988DA831153B5, 0x983E5152EE66DFAB,
  0xA831C66D2DB43210, 0xB00327C898FB213F, 0xBF597FC7BEEF0EE4, 0xC6E00BF33DA88FC2, 0xD5A79147930AA725,
  0x06CA6351E003826F, 0x142929670A0E6E70, 0x27B70A8546D22FFC, 0x2E1B21385C26C926, 0x4D2C6DFC5AC42AED,
  0x53380D139D95B3DF, 0x650A73548BAF63DE, 0x766A0ABB3C77B2A8, 0x81C2C92E47EDAEE6, 0x92722C851482353B] ++ [
  0xA2BFE8A14CF10364, 0xA81A664BBC423001, 0xC24B8B70D0F89791, 0xC76C51A30654BE30, 0xD192E819D6EF5218,
  0xD69906245565A910, 0xF40E35855771202A, 0x106AA07032BBD1B8, 0x19A4C116B8D2D0C8, 0x1E376C085141AB53,
  0x2748774CDF8EEB99, 0x34B0BCB5E19B48A8, 0x391C0CB3C5C95A63, 0x4ED8AA4AE3418ACB, 0x5B9CCA4F7763E373,
  0x682E6FF3D6B2B8A3, 0x748F82EE5DEFB2FC, 0x78A5636F43172F60, 0x84C87814A1F0AB72, 0x8CC702081A6439EC,
  0x90BEFFFA23631E28, 0xA4506CEBDE82BDE9, 0xBEF9A3F7B2C67915, 0xC67178F2E372532B, 0xCA273ECEEA26619C,
  0xD186B8C721C0C207, 0xEADA7DD6CDE0EB1E, 0xF57D4F7FEE6ED178, 0x06F067AA72176FBA, 0x0A637DC5A2C898A6,
  0x113F9804BEF90DAE, 0x1B710B35131C471B, 0x28DB77F523047D84, 0x32CAAB7B40C72493, 0x3C9EBE0A15C9BEBC,
  0x431D67C49C100D4C, 0x4CC5D4BECB3E42B6, 0x597F299CFC657E2A, 0x5FCB6FAB3AD6FAEC, 0x6C44198C4A475817]

/-- The initial hash value. -/
def shaInit : List Nat := [
  0xCBBB9D5DC1059ED8, 0x629A292A367CD507, 0x9159015A3070DD17, 0x152FECD8F70E5939, 0x67332667FFC00B31,
  0x8EB44A8768581511, 0xDB0C2E0D64F98FA7, 0x47B5481DBEFA4FA4]

/-- A 64-bit word rotated right. -/
def ror64 (x k : Nat) : Nat := x / 2 ^ k + x % 2 ^ k * 2 ^ (64 - k)

def shaSum0 (x : Nat) : Nat := ror64 x 28 ^^^ ror64 x 34 ^^^ ror64 x 39
def shaSum1 (x : Nat) : Nat := ror64 x 14 ^^^ ror64 x 18 ^^^ ror64 x 41
def shaSig0 (x : Nat) : Nat := ror64 x 1 ^^^ ror64 x 8 ^^^ x / 2 ^ 7
def shaSig1 (x : Nat) : Nat := ror64 x 19 ^^^ ror64 x 61 ^^^ x / 2 ^ 6

/-- The eight working variables. -/
structure ShaVars where
  a : Nat
  b : Nat
  c : Nat
  d : Nat
  e : Nat
  f : Nat
  g : Nat
  h : Nat

def ShaVars.ofList (l : List Nat) : ShaVars :=
  { a := l.getD 0 0, b := l.getD 1 0, c := l.getD 2 0, d := l.getD 3 0, e := l.getD 4 0, f := l.getD 5 0, g := l.getD 6 0, h := l.getD 7 0 }

def ShaVars.list (v : ShaVars) : List Nat := [v.a, v.b, v.c, v.d, v.e, v.f, v.g, v.h]

/-- One round with constant `k`; `w` holds the next 16 words of the schedule. -/
def shaRound (v : ShaVars) (k w : Nat) : ShaVars :=
  let t1 := v.h + shaSum1 v.e + ((v.e &&& v.f) ^^^ ((2 ^ 64 - 1 - v.e) &&& v.g)) + k + w
  let t2 := shaSum0 v.a + ((v.a &&& v.b) ^^^ (v.a &&& v.c) ^^^ (v.b &&& v.c))
  { a := (t1 + t2) % 2 ^ 64, b := v.a, c := v.b, d := v.c, e := (v.d + t1) % 2 ^ 64, f := v.e, g := v.f, h := v.g }

/-- The rounds of a block over the constants that are left. -/
def shaRounds : List Nat → ShaVars → List Nat → ShaVars
  | [], v, _ => v
  | k :: ks, v, w =>
    let x := (shaSig1 (w.getD 14 0) + w.getD 9 0 + shaSig0 (w.getD 1 0) + w.headD 0) % 2 ^ 64
    shaRounds ks (shaRound v k (w.headD 0)) (w.tail ++ [x])

/-- The hash value after a block of 128 bytes. -/
def shaBlock (h : List Nat) (l : List Byte) : List Nat :=
  let w := (List.range 16).map fun i => ofBe ((l.drop (8 * i)).take 8)
  List.zipWith (fun a b => (a + b) % 2 ^ 64) h (shaRounds shaK (ShaVars.ofList h) w).list

def shaBlocks : Nat → List Nat → List Byte → List Nat
  | 0, h, _ => h
  | n + 1, h, l => shaBlocks n (shaBlock h (l.take 128)) (l.drop 128)

/-- The SHA-384 digest of bytes, as a number with its first byte highest. -/
def sha384 (l : List Byte) : Nat :=
  let pad := (239 - l.length % 128) % 128
  let m := l ++ [0x80] ++ List.replicate pad 0 ++ beBytes (8 * l.length) 16
  ((shaBlocks (m.length / 128) shaInit m).take 6).foldl (fun (a : Nat) x => a * 2 ^ 64 + x) 0

/-! ## P-384 -/

def p384p : Nat := 2 ^ 256 * 2 ^ 128 - 2 ^ 128 - 2 ^ 96 + 2 ^ 32 - 1
def p384n : Nat := 0xFFFFFFFFFFFFFFFFFFFFFFFFFFFFFFFFFFFFFFFFFFFFFFFFC7634D81F4372DDF581A0DB248B0A77AECEC196ACCC52973
def p384b : Nat := 0xB3312FA7E23EE7E4988E056BE3F82D19181D9C6EFE8141120314088F5013875AC656398D8A2ED19D2A85C8EDD3EC2AEF
def p384gx : Nat := 0xAA87CA22BE8B05378EB1C71EF320AD746E1D3B628BA79B9859F741E082542A385502F25DBF55296C3A545E3872760AB7
def p384gy : Nat := 0x3617DE4A96262C6F5D9E98BF9292DC29F8F41DBD289A147CE9DA3113B5F0B8C00A60B1CE1D7E819D7A431D7C90EA0E5F

/-- A point in Jacobian coordinates; z 0 is the point at infinity. -/
structure EcPoint where
  x : Nat
  y : Nat
  z : Nat

/-- a - b modulo p. -/
def subP (a b : Nat) : Nat := (a + p384p - b) % p384p

def EcPoint.double (q : EcPoint) : EcPoint :=
  let p := p384p
  let yy := q.y * q.y % p
  let zz := q.z * q.z % p
  let s := 4 * q.x * yy % p
  let m := 3 * (subP q.x zz) * (q.x + zz) % p
  let x := subP (m * m % p) (2 * s % p)
  { x := x, y := subP (m * subP s x % p) (8 * yy * yy % p), z := 2 * q.y * q.z % p }

def EcPoint.add (q r : EcPoint) : EcPoint :=
  let p := p384p
  if q.z = 0 then r
  else if r.z = 0 then q
  else
    let zq := q.z * q.z % p
    let zr := r.z * r.z % p
    let u := q.x * zr % p
    let s := q.y * zr * r.z % p
    let h := subP (r.x * zq % p) u
    let d := subP (r.y * zq * q.z % p) s
    if h = 0 then (if d = 0 then q.double else { x := 1, y := 1, z := 0 })
    else
      let hh := h * h % p
      let v := u * hh % p
      let x := subP (d * d % p) ((hh * h + 2 * v) % p)
      { x := x, y := subP (d * subP v x % p) (s * hh * h % p), z := q.z * r.z * h % p }

/-- u G + v Q by one pass over the bits of both, highest first; `t` is G + Q. -/
def EcPoint.mulTwo (g q t : EcPoint) (u v : Nat) : Nat → EcPoint → EcPoint
  | 0, a => a
  | k + 1, a =>
    let b := a.double
    EcPoint.mulTwo g q t u v k
      (match bit u k, bit v k with
      | true, true => b.add t
      | true, false => b.add g
      | false, true => b.add q
      | false, false => b)

/-- The inverse modulo `m` of a number prime to it, by its extended Euclidean algorithm. -/
def invMod : Nat → Nat → Nat → Nat → Int → Int → Nat
  | 0, _, _, _, _, _ => 0
  | fuel + 1, m, a, b, x, y => if b = 0 then (x % m).toNat else invMod fuel m b (a % b) y (x - (a / b : Nat) * y)

/-- An ECDSA P-384 signature (r, s) over a digest is that of the public key (qx, qy). -/
def ecdsaOk (qx qy digest r s : Nat) : Bool :=
  let p := p384p
  let n := p384n
  let onCurve := decide (qx < p) && decide (qy < p) && decide (qy * qy % p = (qx * qx * qx + (p - 3) * qx + p384b) % p)
  let w := invMod 1200 n s n 1 0
  let g : EcPoint := { x := p384gx, y := p384gy, z := 1 }
  let q : EcPoint := { x := qx, y := qy, z := 1 }
  let a := EcPoint.mulTwo g q (g.add q) (digest * w % n) (r * w % n) 384 { x := 1, y := 1, z := 0 }
  -- the affine x of the sum is r modulo n: r, or r + n where that is below p
  let same := fun (c : Nat) => decide (c < p) && decide (c * (a.z * a.z % p) % p = a.x)
  decide (0 < r) && decide (r < n) && decide (0 < s) && decide (s < n) && onCurve && decide (a.z ≠ 0) && (same r || same (r + n))

/-- The signature of 96 bytes, r and s big-endian, over a message verifies under a public key of 96 bytes, x and y big-endian. -/
def sigVerifies (key msg sig : List Byte) : Bool :=
  decide (key.length = 96) && decide (sig.length = 96) &&
  ecdsaOk (ofBe (key.take 48)) (ofBe (key.drop 48)) (sha384 msg) (ofBe (sig.take 48)) (ofBe (sig.drop 48))

/-! ## HKDF with SHA-384 (RFC 5869) -/

/-- The SHA-384 digest as bytes. -/
def shaBytes (l : List Byte) : List Byte := beBytes (sha384 l) 48

/-- HMAC with SHA-384. -/
def hmac (key msg : List Byte) : List Byte :=
  let k := if 128 < key.length then shaBytes key else key
  let pad := k ++ List.replicate (128 - k.length) 0
  shaBytes (pad.map (· ^^^ 0x5C) ++ shaBytes (pad.map (· ^^^ 0x36) ++ msg))

def hkdfExtract (salt ikm : List Byte) : List Byte := hmac salt ikm

/-- The blocks T(i) of HKDF-Expand from the one before. -/
def hkdfBlocks (prk info : List Byte) : Nat → Nat → List Byte → List Byte
  | 0, _, _ => []
  | fuel + 1, i, prev =>
    let t := hmac prk (prev ++ info ++ beBytes i 1)
    t ++ hkdfBlocks prk info fuel (i + 1) t

def hkdfExpand (prk info : List Byte) (n : Nat) : List Byte := (hkdfBlocks prk info ((n + 47) / 48) 1 []).take n

/-! ## ECDH and signing on P-384 -/

/-- k times a point, and its affine coordinates; those of the point at infinity are 0. -/
def EcPoint.mul (q : EcPoint) (k : Nat) : Nat × Nat :=
  let a := EcPoint.mulTwo q q q k 0 384 { x := 1, y := 1, z := 0 }
  let w := invMod 1200 p384p a.z p384p 1 0
  let zz := w * w % p384p
  (a.x * zz % p384p, a.y * (zz * w % p384p) % p384p)

/-- A point of 96 bytes, x and y big-endian. -/
def pointOf (l : List Byte) : EcPoint := { x := ofBe (l.take 48), y := ofBe (l.drop 48), z := 1 }

/-- The public point of a private scalar, as 96 bytes. -/
def publicPoint (d : Nat) : List Byte :=
  let q := EcPoint.mul { x := p384gx, y := p384gy, z := 1 } d
  beBytes q.1 48 ++ beBytes q.2 48

/-- The x-coordinate of the ECDH shared point, 48 bytes. -/
def ecdh (d : Nat) (peer : List Byte) : List Byte := beBytes ((pointOf peer).mul d).1 48

/-- The ECDSA signature r and s, 96 bytes, of a message by a private scalar with a nonce `k`. -/
def ecdsaSign (d k : Nat) (msg : List Byte) : List Byte :=
  let r := (EcPoint.mul { x := p384gx, y := p384gy, z := 1 } k).1 % p384n
  let s := invMod 1200 p384n (k % p384n) p384n 1 0 * (sha384 msg + r * d) % p384n
  beBytes r 48 ++ beBytes s 48

end Sys2Proof.Machine
end

