-- ==== Sys2Proof/Machine/Cipher.lean ====
section
/-! DEFINITION. AES-256 (FIPS 197) in Galois/Counter Mode (NIST SP 800-38D), which the spec names for frames, pages, packages and
patches (R197, R404, R432, R436, R479). Blocks are numbers of 128 bits, byte 0 highest. -/

namespace Sys2Proof.Machine

/-! ## AES-256 -/

/-- The substitution box: 64 bytes to a number, entry 0 lowest. -/
def aesBox : List Nat := [
  0x75B227EBE28012079A059618C323C7041531D871F1E5A534CCF73F362693FDB7C072A49CAFA2D4ADF04759FA7DC982CA76ABD7FE2B670130C56F6BF27B777C63,
  0xD2F3FF1021DAB6BCF5389D928F40A351A89F3C507F02F94585334D43FBAAEFD0CF584C4A39BECB6A5BB1FC20ED00D153842FE329B3D63B52A05A6E1B1A2C8309,
  0x08AE7A65EAF4566CA94ED58D6D37C8E779E4959162ACD3C25C2406490A3A32E0DB0B5EDE14B8EE4688902A22DC4F816073195D643D7EA7C41744975FEC130CCD,
  0x16BB54B00F2D99416842E6BF0D89A18CDF2855CEE9871E9B948ED9691198F8E19E1DC186B95735610EF6034866B53E708A8BBD4B1F74DDE8C6B4A61C2E2578BA]

def subByte (x : Nat) : Nat := aesBox.getD (x / 64) 0 >>> (x % 64 * 8) % 256

/-- Each byte of a word of 32 bits substituted. -/
def subWord (x : Nat) : Nat :=
  subByte (x / 2 ^ 24 % 256) * 2 ^ 24 + subByte (x / 2 ^ 16 % 256) * 2 ^ 16 + subByte (x / 2 ^ 8 % 256) * 2 ^ 8 + subByte (x % 256)

def rotWord (x : Nat) : Nat := x % 2 ^ 24 * 2 ^ 8 + x / 2 ^ 24

/-- Multiplication by x in the field of AES. -/
def xtime (x : Nat) : Nat := if x < 128 then 2 * x else (2 * x) % 256 ^^^ 0x1B

/-- The words of the key schedule, newest first, from the eight of the key; `i` words stand, `rcon` is the next round constant. -/
def aesExpand : Nat → Nat → Nat → List Nat → List Nat
  | 0, _, _, w => w
  | fuel + 1, i, rcon, w =>
    let t := w.headD 0
    let u := if i % 8 = 0 then subWord (rotWord t) ^^^ rcon * 2 ^ 24 else if i % 8 = 4 then subWord t else t
    aesExpand fuel (i + 1) (if i % 8 = 0 then xtime rcon else rcon) ((w.getD 7 0 ^^^ u) :: w)

/-- The 15 round keys of a 256-bit key, each four words as one number. -/
def aesKeys (key : Nat) : List Nat :=
  let w := (aesExpand 52 8 1 ((List.range 8).map fun i => key / 2 ^ (32 * i) % 2 ^ 32)).reverse
  (List.range 15).map fun r => ((w.drop (4 * r)).take 4).foldl (fun (a : Nat) x => a * 2 ^ 32 + x) 0

/-- The 16 bytes of a block, byte 0 first. -/
def blockBytes (x : Nat) : List Nat := (List.range 16).map fun i => x / 2 ^ (120 - 8 * i) % 256

def blockOf (l : List Nat) : Nat := l.foldl (fun (a : Nat) x => a * 256 + x) 0

/-- Row r of the state rotates left by r: byte i of the result is byte 5 i modulo 16. -/
def shiftRows (l : List Nat) : List Nat := (List.range 16).map fun i => l.getD (5 * i % 16) 0

/-- One column of the state mixed. -/
def mixColumn (l : List Nat) : List Nat :=
  let a := l.getD 0 0
  let b := l.getD 1 0
  let c := l.getD 2 0
  let d := l.getD 3 0
  let t := a ^^^ b ^^^ c ^^^ d
  [a ^^^ t ^^^ xtime (a ^^^ b), b ^^^ t ^^^ xtime (b ^^^ c), c ^^^ t ^^^ xtime (c ^^^ d), d ^^^ t ^^^ xtime (d ^^^ a)]

def mixColumns (l : List Nat) : List Nat := (List.range 4).flatMap fun i => mixColumn ((l.drop (4 * i)).take 4)

/-- The rounds over the round keys that are left; the last mixes no columns. -/
def aesRounds : List Nat → Nat → Nat
  | [], x => x
  | [k], x => blockOf (shiftRows ((blockBytes x).map subByte)) ^^^ k
  | k :: l, x => aesRounds l (blockOf (mixColumns (shiftRows ((blockBytes x).map subByte))) ^^^ k)

/-- A block encrypted under the round keys of a key. -/
def aesBlock (keys : List Nat) (x : Nat) : Nat := aesRounds keys.tail (x ^^^ keys.headD 0)

/-! ## Galois/Counter Mode -/

/-- The product in the field of GHASH, over the bits of `x` that are left, highest first. -/
def ghashMul (x : Nat) : Nat → Nat → Nat → Nat
  | 0, _, z => z
  | k + 1, v, z => ghashMul x k (if v % 2 = 1 then v / 2 ^^^ 0xE1000000000000000000000000000000 else v / 2) (if bit x k then z ^^^ v else z)

/-- Bytes in blocks of 16, the last filled up with zeros, each as a number. -/
def blocksOf : Nat → List Byte → List Nat
  | 0, _ => []
  | fuel + 1, l => if l = [] then [] else ofBe ((l.take 16) ++ List.replicate (16 - l.length) 0) :: blocksOf fuel (l.drop 16)

def ghash (h : Nat) (l : List Nat) : Nat := l.foldl (fun (y : Nat) x => ghashMul (y ^^^ x) 128 h 0) 0

/-- Bytes combined with the key stream of counter blocks from `ctr` on; only the low 32 bits of a counter block count. -/
def gcmStream (keys : List Nat) : Nat → Nat → List Byte → List Byte
  | 0, _, _ => []
  | fuel + 1, ctr, l =>
    if l = [] then []
    else
      List.zipWith (fun (a b : Byte) => a ^^^ b) l (beBytes (aesBlock keys ctr) 16) ++
        gcmStream keys fuel (ctr / 2 ^ 32 * 2 ^ 32 + (ctr + 1) % 2 ^ 32) (l.drop 16)

/-- The plaintext of a ciphertext, or the ciphertext of a plaintext, under a key and a nonce of 96 bits. -/
def gcmCrypt (key nonce : Nat) (l : List Byte) : List Byte := gcmStream (aesKeys key) (l.length / 16 + 1) (nonce * 2 ^ 32 + 2) l

/-- The tag over additional data and a ciphertext. -/
def gcmTag (key nonce : Nat) (aad ct : List Byte) : List Byte :=
  let keys := aesKeys key
  let blocks := blocksOf (aad.length / 16 + 1) aad ++ blocksOf (ct.length / 16 + 1) ct ++ [8 * aad.length * 2 ^ 64 + 8 * ct.length]
  beBytes (ghash (aesBlock keys 0) blocks ^^^ aesBlock keys (nonce * 2 ^ 32 + 1)) 16

/-- A ciphertext with its tag opened: the plaintext, none where the tag does not verify. -/
def gcmOpen (key nonce : Nat) (aad ct tag : List Byte) : Option (List Byte) :=
  if gcmTag key nonce aad ct = tag then some (gcmCrypt key nonce ct) else none

/-- A plaintext sealed: the ciphertext followed by its tag. -/
def gcmSeal (key nonce : Nat) (aad text : List Byte) : List Byte :=
  let ct := gcmCrypt key nonce text
  ct ++ gcmTag key nonce aad ct

end Sys2Proof.Machine
end

