-- ==== Sys2Proof/Machine/Keys.lean ====
section
/-! DEFINITION. The keys that the security block and Amiuc derive, and the signatures of the device identity key (R402 to R404, R424,
R425, R430). -/

namespace Sys2Proof.Machine

/-- The device serial, 8 bytes big-endian (R425). -/
def State.serialBytes (s : State) : List Byte := beBytes (s.rn64 SEC_SERIAL_LO) 8

/-- PRK_o, from "EZILE-T256-OWNER" and the ORK (R425). -/
def SecH.prk (x : SecH) : List Byte := hkdfExtract (beBytes 0x455A494C452D543235362D4F574E4552 16) (beBytes x.ork.toNat 32)

/-- K_pat of a key_id: "EZPK" (R425). -/
def SecH.patternKey (x : SecH) (keyId : Nat) : BitVec 256 :=
  BitVec.ofNat 256 (ofBe (hkdfExpand x.prk (beBytes 0x455A504B 4 ++ beBytes keyId 4) 32))

/-- K_rk of a Rucksack: "EZRK" (R425). -/
def State.rucksackKey (s : State) (id : Nat) : Nat :=
  ofBe (hkdfExpand s.sec.prk (beBytes 0x455A524B 4 ++ beBytes id 4 ++ beBytes (s.get SEC_STATUS_epoch) 2 ++ s.serialBytes) 32)

/-- K_en of an enrolment from the owner's ephemeral point: "EZEN" (R425). -/
def State.enrolKey (s : State) (eph : List Byte) : Nat :=
  ofBe (hkdfExpand (hkdfExtract s.serialBytes (ecdh s.sec.dik eph)) (beBytes 0x455A454E 4) 32)

/-- The key under which the owner's authority, or in MANUFACTURE and PROVISIONED Svakoup's, is verified (R430, R451, Table 15.1). -/
def SecH.authority (x : SecH) : List Byte := if x.owner && x.provisioned && !x.dikOff then x.oak else x.provKey

/-- The signature of the device over bytes, by the DIK (R402, R439); the nonce is a free value (log entry 7). -/
def State.dikSign (s : State) (msg : List Byte) : List Byte := ecdsaSign s.sec.dik (1 + Config.signNonce msg % (p384n - 1)) msg

/-- The keys of an encrypted session (R403), from the shared point, the nonces, the session identifier and the slot. -/
def sessKeys (z hostNonce devNonce : List Byte) (sid slot : Nat) : SessKeys :=
  let okm := hkdfExpand (hkdfExtract (hostNonce ++ devNonce) z) (beBytes 0x414D49554331 6 ++ beBytes sid 4 ++ beBytes slot 1) 80
  let f := fun (i n : Nat) => ofBe ((okm.drop i).take n)
  { rx := BitVec.ofNat 256 (f 0 32), tx := BitVec.ofNat 256 (f 32 32), rxSalt := BitVec.ofNat 64 (f 64 8)
    txSalt := BitVec.ofNat 64 (f 72 8) }

/-- The nonce of a frame: the direction's salt, then txc (R404). -/
def frameNonce (salt : BitVec 64) (txc : Nat) : Nat := salt.toNat * 2 ^ 32 + txc % 2 ^ 32

end Sys2Proof.Machine
end

