-- ==== Sys2Proof/Machine/Pdac.lean ====
section
/-! DEFINITION. The precision level DACs (R304 to R308): loads, holds, the current limit, and the meanings of their rows. -/

namespace Sys2Proof.Machine

/-- The upper six bits of a code, which drive the thermometer segments. -/
def pdacSegs (c : Nat) : Nat := c / 1024

/-- The output voltage of a PDAC in steps of 2.5 V / 65,536 (R304); none where the output is high-impedance. -/
def State.pdacOutput (s : State) (u : Fin 16) : Option Int :=
  if !s.on (PDC_CTL_en u) then none
  else some ((s.get (PDC_OUT_code u) : Int) - (if s.on (PDC_CTL_range u) then 32768 else 0))

/-- The effective offset, in 1/16 LSB, and gain, in ppm, of PDAC `u` (R456). -/
def State.pdacCal (s : State) (u : Fin 16) : Int × Int :=
  (toSigned 16 (s.get (CAL_FACT_PDAC_OFS_ofs u)) + toSigned 16 (s.get (CAL_USER_PDAC_OFS_ofs u)),
    toSigned 32 (s.rn (CAL_FACT_PDAC_GAIN u)) + toSigned 32 (s.rn (CAL_USER_PDAC_GAIN u)))

/-- What the DAC drives with the correction in force (R308), in 1/16,000,000 LSB: the gain acts on the nominal value, then the offset is
added (DESIGN CHOICE of the order, log entry 31). -/
def State.pdacDriven (s : State) (u : Fin 16) : Option Int :=
  (s.pdacOutput u).map fun v => 16 * v * (1000000 + s.pdac[u].gain) + 1000000 * s.pdac[u].ofs

def State.setPdac (s : State) (u : Fin 16) (x : PdacH) : State := { s with pdac := s.pdac.set u x }

/-- A load of a code (R305, R306): at once where the segments stay, else a hold of 600 ns; in a hold the new code replaces
the pending one, and ends the hold or restarts it. A load of the code already at the output does nothing, but for a hold. A load puts the
present correction in force (R308). -/
def State.pdacLoad (s : State) (u : Fin 16) (c : Nat) : State :=
  let o := s.get (PDC_OUT_code u)
  let x := { s.pdac[u] with ofs := (s.pdacCal u).1, gain := (s.pdacCal u).2 }
  match x.pend with
  | none =>
    if c = o then s
    else if pdacSegs c = pdacSegs o then (s.put (PDC_OUT_code u) c).setPdac u x
    else (s.put (PDC_STATUS_hold u) 1).setPdac u { x with pend := some c }
  | some _ =>
    if pdacSegs c = pdacSegs o then ((s.put (PDC_OUT_code u) c).put (PDC_STATUS_hold u) 0).setPdac u { x with pend := none }
    else (s.count (PDC_HOLD_RESTART u)).setPdac u { x with pend := some c }

/-- A write of PDC_CODE: a load in mode 0, staged in mode 1 (R305). The code staged before the TB cycle of the write is kept for a group
load that falls in that cycle. -/
def State.pdacCode (s : State) (u : Fin 16) (c : Nat) : State :=
  let x := s.pdac[u]
  let s0 := if s.inTbCycle x.wrAt then s
    else s.setPdac u { x with wrAt := s.tbCycle, wrOld := s.get (PDC_CODE_code u) }
  let s1 := s0.put (PDC_CODE_code u) c
  if s.get (PDC_CTL_mode u) = 0 then s1.pdacLoad u (c % 65536) else s1

/-- The TB cycle of a group load and its source are noted. -/
def State.pdacLoaded (s : State) (u : Fin 16) (edge : Bool) : State :=
  s.setPdac u { s.pdac[u] with loadAt := s.tbCycle.map fun c => (c, edge) }

/-- A group load: every PDAC in mode 1 of the group, in all quadrants, loads its staged code, `edge` from the matrix or else from a write of
PDC_GLOAD (R305). Two sources in one TB cycle make one load, and a write of PDC_CODE in the cycle of an edge comes after the load; two CSR
accesses never share a cycle. -/
def State.pdacGroup (s : State) (g : Nat) (edge : Bool) : State :=
  (List.finRange 16).foldl (fun (a : State) (u : Fin 16) =>
    let x := a.pdac[u]
    if a.get (PDC_CTL_mode u) = 1 ∧ a.get (PDC_CTL_group u) = g ∧ !a.inTbCycle (x.loadAt.bind fun l => if l.2 = edge then none else some l.1) then
      (a.pdacLoad u (if edge && a.inTbCycle x.wrAt then x.wrOld else a.get (PDC_CODE_code u))).pdacLoaded u edge
    else a) s

/-- 600 ns after the load that started or restarted a hold, the output moves to the pending code (R306). -/
def State.pdacHoldEnd (s : State) (u : Fin 16) : State :=
  match s.pdac[u].pend with
  | none => s
  | some c => ((s.put (PDC_OUT_code u) c).put (PDC_STATUS_hold u) 0).setPdac u { s.pdac[u] with pend := none }

/-- One µs at the current limit, or its end (R307). -/
def State.pdacLimit (s : State) (u : Fin 16) (atLimit : Bool) : State :=
  if atLimit then
    if s.on (PDC_STATUS_limit u) ∨ !s.on (PDC_CTL_en u) then s
    else ((s.put (PDC_STATUS_limit u) 1).put (PDC_STATUS_limit_seen u) 1).ev (64 * (u / 4) + 62)
  else s.put (PDC_STATUS_limit u) 0

/-- 100 µs of limiting without a break with sc_off clears en (R307); an en that software writes in the same TB cycle keeps the value
written (R37). -/
def State.pdacScOff (s : State) (u : Fin 16) : State :=
  if s.on (PDC_STATUS_limit u) ∧ s.on (PDC_CTL_sc_off u) then
    let s1 := if s.inTbCycle s.pdac[u].enAt then s else (s.put (PDC_CTL_en u) 0).put (PDC_STATUS_limit u) 0
    (s1.put (PDC_STATUS_disabled u) 1).ev (64 * (u / 4) + 63)
  else s

end Sys2Proof.Machine
end

