-- ==== Sys2Proof/Machine/Rate.lean ====
section
/-! DEFINITION. Rates and the domain PLLs: synthesis (R203, R204), r_max and m (R206, R207), small and large changes
(R208 to R212), the relock and its pause (R212 to R216), and the arithmetic of a vector period (R108, R120, R143, R154). -/

namespace Sys2Proof.Machine

/-- A frequency in Hz as a fraction. -/
structure Rate where
  num : Nat
  den : Nat
  deriving DecidableEq, Repr

/-- The least integer at or above a fraction. -/
def ceilDiv (a b : Nat) : Nat := (a + b - 1) / b

def Rate.le (a b : Rate) : Bool := decide (a.num * b.den ≤ b.num * a.den)
def Rate.lt (a b : Rate) : Bool := decide (a.num * b.den < b.num * a.den)
def Rate.eq (a b : Rate) : Bool := decide (a.num * b.den = b.num * a.den)
def Rate.hz (n : Nat) : Rate := ⟨n, 1⟩

/-- A word of a domain PLL with its dither setting (R204). -/
structure PllWord where
  n : Nat
  f : Nat
  odiv : Nat
  dither : Bool
  deriving DecidableEq, Repr

/-- f_VCO in units of 250 MHz × 2⁻³³ (R203). -/
def PllWord.vco (x : PllWord) : Nat := 2 ^ 33 * x.n + 2 * x.f + (if x.dither then 1 else 0)

/-- f_out (R203). -/
def PllWord.rate (x : PllWord) : Rate := ⟨250000000 * x.vco, 2 ^ 33 * x.odiv⟩

/-- The word is valid (R204). -/
def PllWord.valid (x : PllWord) : Bool :=
  decide (32 ≤ x.n) && decide (x.n ≤ 64) && decide (1 ≤ x.odiv) && decide (x.odiv ≤ 1024) &&
  decide (32 * 2 ^ 33 ≤ x.vco) && decide (x.vco ≤ 64 * 2 ^ 33)

/-- A rate with an offset in 2⁻¹⁰ ppm: multiplied by 1 + o × 2⁻¹⁰ × 10⁻⁶. -/
def Rate.offset (r : Rate) (o : Int) : Rate := ⟨r.num * (1024000000 + o).toNat, r.den * 1024000000⟩

/-- Two rates lie within ±2,000 ppm of the second (R208). -/
def Rate.near (new present : Rate) : Bool :=
  let a := new.num * present.den
  let b := present.num * new.den
  decide (1000000 * a ≤ 1002000 * b) && decide (998000 * b ≤ 1000000 * a)

/-- The bottom and top rate of a band in Hz (Table 3.7). -/
def bandLow : Nat → Nat
  | 0 => 12500000 | 1 => 2000000000 | _ => 8000000000
def bandTop : Nat → Nat
  | 0 => 2000000000 | 1 => 8000000000 | _ => 16000000000

/-- The rate lies in the band, ends included (R112). -/
def Rate.inBand (r : Rate) (band : Nat) : Bool :=
  (Rate.hz (bandLow band)).le r && r.le (Rate.hz (bandTop band))

/-- r_max of R206: the lower of the band's top rate and 1.05 × f_out, but never below f_out. -/
def rMax (band : Nat) (f : Rate) : Rate :=
  let a := Rate.hz (bandTop band)
  let b : Rate := ⟨21 * f.num, 20 * f.den⟩
  let c := if a.lt b then a else b
  if c.lt f then f else c

/-- log2 of m (R206): the smallest of 1, 2, 4, 8, 16 for which r_max / m ≤ 1 GHz. -/
def mCode (rmax : Rate) : Nat :=
  if rmax.le (Rate.hz 1000000000) then 0
  else if rmax.le (Rate.hz 2000000000) then 1
  else if rmax.le (Rate.hz 4000000000) then 2
  else if rmax.le (Rate.hz 8000000000) then 3
  else 4

/-- A period in units of 1/8192 ps, rounded down. -/
def Rate.periodTu (r : Rate) : Nat := 8192000000000000 * r.den / r.num

/-- W of R143: ⌈48 ns / T⌉ − 1. -/
def Rate.window (r : Rate) : Nat := ceilDiv (48 * r.num) (1000000000 * r.den) - 1

/-- Lmin of R154: max(1, ⌈4 ns / T⌉). -/
def Rate.lmin (r : Rate) : Nat := max 1 (ceilDiv (4 * r.num) (1000000000 * r.den))

/-- K of R188: ⌈40 ns / T⌉. -/
def Rate.checkLead (r : Rate) : Nat := ceilDiv (40 * r.num) (1000000000 * r.den)

/-- A relative edge field f in steps (R108): ⌊f × P / 2²⁰ + 1/2⌋, with P the period in steps of 250 fs. -/
def Rate.relSteps (r : Rate) (f : Nat) : Nat :=
  (2 * f * 4000000000000 * r.den + 2 ^ 20 * r.num) / (2 * 2 ^ 20 * r.num)

/-- An absolute edge field is not below the period (R120). -/
def Rate.clamps (r : Rate) (t : Nat) : Bool := decide (4000000000000 * r.den ≤ t * r.num)

/-- The largest whole step count below the period (R120). -/
def Rate.lastStep (r : Rate) : Nat := ceilDiv (4000000000000 * r.den) r.num - 1

/-! ## The domain of a port or WFG -/

/-- The committed word of domain PLL `d`. -/
def State.word (s : State) (d : Fin 12) : PllWord :=
  { n := s.dpl[d].wN, f := s.dpl[d].wF, odiv := s.dpl[d].wO, dither := s.dpl[d].wD }

/-- The staged word (R236). -/
def State.staged (s : State) (d : Fin 12) : PllWord :=
  { n := s.get (DPL_INT_int d), f := s.get (DPL_FRAC_frac d), odiv := s.get (DPL_ODIV_odiv d),
    dither := s.on (DPL_CTL_dither d) }

/-- The Ramble offset of a domain, 0 for a waveform PLL. -/
def State.rambleOfs (s : State) (d : Fin 12) : Int :=
  if d.val < 8 then toSigned 32 (s.rn (PRT_RAMBLE_OFS d)) else 0

/-- The frequency that the committed word and the Ramble offset command. -/
def State.targetRate (s : State) (d : Fin 12) : Rate := (s.word d).rate.offset (s.rambleOfs d)

/-- The present commanded frequency: on the way to the target during a ramp (R209). -/
def State.rate (s : State) (d : Fin 12) : Rate :=
  match s.dpl[d].cur with
  | none => s.targetRate d
  | some c => ⟨c, 2 ^ 20⟩

/-- The PLL of port `p`. -/
def portPll (p : Fin 8) : Fin 12 := ⟨p.val, by omega⟩
/-- The PLL of WFG `m`. -/
def wfgPll (m : Fin 4) : Fin 12 := ⟨8 + m.val, by omega⟩

/-- The present vector rate of a port. -/
def State.portRate (s : State) (p : Fin 8) : Rate := s.rate (portPll p)

/-- The port is ARMED, RUNNING or in HOLD (Table 4.4). -/
def State.portActive (s : State) (p : Fin 8) : Bool :=
  decide (1 ≤ s.get (PRT_SEQ_STATUS_state p)) && decide (s.get (PRT_SEQ_STATUS_state p) ≤ 3)

/-- The port is RUNNING or in HOLD. -/
def State.portRuns (s : State) (p : Fin 8) : Bool :=
  decide (2 ≤ s.get (PRT_SEQ_STATUS_state p)) && decide (s.get (PRT_SEQ_STATUS_state p) ≤ 3)

/-- WFG `m` is ARMED or RUNNING (Table 9.2). -/
def State.wfgActive (s : State) (m : Fin 4) : Bool :=
  decide (s.get (WFG_STATUS_state m) = 1) || decide (s.get (WFG_STATUS_state m) = 2)

/-- The port or WFG of a domain is ARMED, RUNNING or in HOLD. -/
def State.unitActive (s : State) (d : Fin 12) : Bool :=
  if h : d.val < 8 then s.portActive ⟨d.val, h⟩ else s.wfgActive ⟨d.val - 8, by omega⟩

/-- r_max and m fixed from a rate and the port's band (R206); m is always 16 for a waveform PLL (Table 6.10). -/
def State.fixM (s : State) (d : Fin 12) (f : Rate) : State :=
  if d.val < 8 then
    let r := rMax (s.get (PRT_TIMING_CTL_band d)) f
    (s.setDpl d { s.dpl[d] with rmaxNum := r.num, rmaxDen := r.den }).put (DPL_STATUS_m d) (mCode r)
  else s

/-- The vectors of one PD logic clock cycle, m (R206). -/
def State.mOf (s : State) (p : Fin 8) : Nat := 2 ^ s.get (DPL_STATUS_m (portPll p))

/-- A Ramble offset passes R207 and R118: the rate is at most r_max, f_VCO is in range, and the rate lies in the band. -/
def State.offsetOk (s : State) (p : Fin 8) (o : Int) : Bool :=
  let d := portPll p
  let r := (s.word d).rate.offset o
  let v : Rate := (⟨250000000 * (s.word d).vco, 2 ^ 33⟩ : Rate).offset o
  r.le ⟨s.dpl[d].rmaxNum, s.dpl[d].rmaxDen⟩ && (Rate.hz 8000000000).le v && v.le (Rate.hz 16000000000) &&
  r.inBand (s.get (PRT_TIMING_CTL_band p))

/-- The port of a domain completes its current vector and pauses (R212, R214); a running WFG completes its WD cycle and
pauses (R302). A trigger before the next vector of an earlier pause keeps that pause going. -/
def State.pauseUnit (s : State) (d : Fin 12) : State :=
  let pauses := if h : d.val < 8 then s.portActive ⟨d.val, h⟩ else decide (s.get (WFG_STATUS_state (d.val - 8)) = 2)
  if pauses then
    s.setSeq d { s.seq[d] with
      paused := true, pauseAt := if s.seq[d].paused then s.seq[d].pauseAt else s.seq[d].at_, resume := false }
  else s

/-! ## The divider sequence (R203, R205) -/

/-- One advance of the dither LFSR: x³¹ + x²⁸ + 1 (R205). -/
def lfsrStep (x : Nat) : Nat := (x * 2 + (bitsOf x 30 1 + bitsOf x 27 1) % 2) % 2 ^ 31

/-- The third-order MASH modulator: its accumulators, the carries that its differences still need, and the LFSR. -/
structure Mash where
  a1 : Nat := 0
  a2 : Nat := 0
  a3 : Nat := 0
  c2 : Nat := 0
  c3 : Nat := 0
  c3b : Nat := 0
  lfsr : Nat := 1
  deriving DecidableEq, Repr

/-- One PFD cycle: the LFSR advances, its bit is added to the fraction where dither is on, and the carries give y (R203). -/
def Mash.step (f : Nat) (dither : Bool) (m : Mash) : Mash × Int :=
  let l : Nat := lfsrStep m.lfsr
  let x1 : Nat := m.a1 + f + (if dither then l % 2 else 0)
  let x2 : Nat := m.a2 + x1 % 2 ^ 32
  let x3 : Nat := m.a3 + x2 % 2 ^ 32
  let c1 : Nat := x1 / 2 ^ 32
  let c2 : Nat := x2 / 2 ^ 32
  let c3 : Nat := x3 / 2 ^ 32
  ({ a1 := x1 % 2 ^ 32, a2 := x2 % 2 ^ 32, a3 := x3 % 2 ^ 32, c2 := c2, c3 := c3, c3b := m.c3, lfsr := l },
   (c1 : Int) + (c2 : Int) - m.c2 + ((c3 : Int) - 2 * m.c3 + m.c3b))

/-- The modulator `n` PFD cycles after its load. -/
def Mash.after (f : Nat) (dither : Bool) (m : Mash) : Nat → Mash
  | 0 => m
  | n + 1 => Mash.after f dither (m.step f dither).1 n

/-- The divide value N + y of the `n`-th PFD cycle after the LFSR was loaded with `seed` (R203, R205); the accumulators start at 0
(log entry 2). -/
def PllWord.divide (x : PllWord) (seed n : Nat) : Int :=
  x.n + ((Mash.after x.f x.dither { lfsr := seed } n).step x.f x.dither).2

/-- Load the dither LFSR from DPL_SEED; a seed of 0 loads 1 (R205). -/
def State.loadLfsr (s : State) (d : Fin 12) : State :=
  s.setDpl d { s.dpl[d] with lfsr := if s.get (DPL_SEED_seed d) = 0 then 1 else s.get (DPL_SEED_seed d), lfsrAt := s.tmb.clk }

/-- The divide value of a domain PLL in the present PFD cycle of 4 ns. -/
def State.divideNow (s : State) (d : Fin 12) : Int :=
  (s.word d).divide s.dpl[d].lfsr ((s.tmb.clk - s.dpl[d].lfsrAt) / (4 * tuPerNs))

/-- The word of the TBPLL (R207): N = 8,000 MHz / f_REF, F = 0; its dither as TMB_CTL.tb_dither. -/
def State.tbWord (s : State) : PllWord :=
  { n := match s.get TMB_STATUS_ref_freq with | 0 => 800 | 1 => 320 | 2 => 80 | _ => 32
    f := 0, odiv := 1, dither := s.on TMB_CTL_tb_dither }

/-- The period of the reference in units of 2⁻¹⁶ ns (R222). -/
def State.refPeriod (s : State) : Nat :=
  65536 * (match s.get TMB_STATUS_ref_freq with | 0 => 100 | 1 => 40 | 2 => 10 | _ => 4)

/-- The divide value of the TBPLL in its present PFD cycle, one reference period long. -/
def State.tbDivideNow (s : State) : Int :=
  s.tbWord.divide s.tmb.lfsr ((s.tmb.clk - s.tmb.lfsrAt) / (125 * s.refPeriod))

/-- Enter ACQUIRE (Table 6.4): the clocks are gated, the LFSR is loaded (R205). -/
def State.acquire (s : State) (d : Fin 12) : State :=
  let s1 := (((s.put (DPL_STATUS_state d) 1).put (DPL_STATUS_locked d) 0).put (DPL_STATUS_settling d) 0).loadLfsr d
  s1.setDpl d { s1.dpl[d] with cur := none, acqAt := s1.tmb.clk }

/-- A large change starts a relock (R212): counted, with a pause of an active port or WFG. -/
def State.relock (s : State) (d : Fin 12) : State :=
  let s1 := ((s.count (DPL_RELOCK_CNT d)).pauseUnit d).acquire d
  s1.setDpl d { s1.dpl[d] with relock := true, trigAt := some s1.tmb.clk }

/-- The relock in progress was triggered in this TB cycle (R216). -/
def State.sameCycle (s : State) (d : Fin 12) : Bool :=
  s.dpl[d].relock && match s.dpl[d].trigAt with
    | some t => decide (t / tuPerNs = s.tmb.clk / tuPerNs)
    | none => false

/-- The domain is in a relock: ACQUIRE, HANDOVER, SETTLE or HOLD (R210). -/
def State.inRelock (s : State) (d : Fin 12) : Bool :=
  let x := s.get (DPL_STATUS_state d)
  decide (x = 1) || decide (x = 2) || decide (x = 3) || decide (x = 6)

/-- The loop is LOCKED or in RAMP. -/
def State.dplLocked (s : State) (d : Fin 12) : Bool :=
  decide (s.get (DPL_STATUS_state d) = 4) || decide (s.get (DPL_STATUS_state d) = 5)

/-- Follow a change of the commanded frequency from `present` (R208, R209, R212): a small change keeps lock and ramps
(or completes at once where nothing changes), a large change relocks. `sameDiv`: the change keeps odiv. In OFF and FAIL
nothing follows. -/
def State.follow (s : State) (d : Fin 12) (present : Rate) (sameDiv : Bool) : State :=
  if s.dplLocked d then
    let new := s.targetRate d
    if sameDiv && new.near present then
      if new.eq present then s
      else
        let s1 := (s.put (DPL_STATUS_state d) 5).put (DPL_STATUS_settling d) 1
        s1.setDpl d { s1.dpl[d] with cur := some (2 ^ 20 * present.num / present.den) }
    else s.relock d
  else s

/-- Set the Ramble offset of a port and let its domain follow (R161, R164); a change during a relock is a trigger of
R216 and only counts. -/
def State.setOffset (s : State) (p : Fin 8) (o : Int) : State :=
  let d := portPll p
  let present := s.rate d
  let s1 := s.wn (PRT_RAMBLE_OFS p) (ofSigned 32 o)
  if s1.inRelock d then s1.count (DPL_RELOCK_CNT d) else s1.follow d present true

/-- A commit of the staged word (R208 to R211, R216, R236). A large change in the cycle of a loss of lock is part of its relock, which
then has the new word. -/
def State.commitWord (s : State) (d : Fin 12) : State :=
  let x := s.staged d
  let st := s.get (DPL_STATUS_state d)
  let sameDiv := decide (x.odiv = (s.word d).odiv)
  let newRate := x.rate.offset (s.rambleOfs d)
  let present := s.rate d
  let large := !(sameDiv && newRate.near present)
  let ramble := decide (d.val < 8) && s.on (PRT_RAMBLE_STATUS_active d)
  let bandBad := decide (d.val < 8) && s.unitActive d && large &&
    !(newRate.inBand (s.get (PRT_TIMING_CTL_band d)))
  let joins := decide (st = 6) && s.sameCycle d && large
  if !x.valid || (s.inRelock d && !joins) || ramble || bandBad then s.put (DPL_STATUS_refused d) 1
  else
    let s1 := s.setDpl d { s.dpl[d] with wN := x.n, wF := x.f, wO := x.odiv, wD := x.dither }
    let s2 := s1.fixM d x.rate
    if joins then s2
    else if st = 7 then s2.acquire d
    else s2.follow d present sameDiv

/-- The present divide value of a domain in units of 2⁻³³, Ramble included (Table 6.11). -/
def State.actWord (s : State) (d : Fin 12) : Nat :=
  (s.word d).vco * (1024000000 + s.rambleOfs d).toNat / 1024000000

/-- W and Lmin at the present rate, as PRT_WINDOW shows them (Table 4.22). -/
def State.showWindow (s : State) (p : Fin 8) : State :=
  (s.put (PRT_WINDOW_w p) (s.portRate p).window).put (PRT_WINDOW_lmin p) (s.portRate p).lmin

/-! ## The offset of the time base (R227) -/

/-- The present offset in 2⁻¹⁰ ppm, on its way to its target at 10 ppm/µs. -/
def State.slewNow (s : State) : Int :=
  let x := s.tmb
  let room : Nat := 10240 * (x.clk - x.slewAt) / (1000 * tuPerNs)
  let lim : Int := room
  let d := x.slewTo - x.slewFrom
  if d < -lim then x.slewFrom - lim else if lim < d then x.slewFrom + lim else x.slewTo

/-- A port that runs notes the offset where it is the largest of the run (PRT_RATE_DEV). The offset moves one way between two changes of its
target, so it is largest at one of them. -/
def State.notePort (s : State) (p : Fin 8) : State :=
  if s.portRuns p then s.wn (PRT_RATE_DEV p) (max (s.rn (PRT_RATE_DEV p)) s.slewNow.natAbs) else s

/-- Every port notes the offset. -/
def State.noteSlew (s : State) : State := (List.finRange 8).foldl (fun (a : State) (p : Fin 8) => a.notePort p) s

end Sys2Proof.Machine
end

