-- ==== Sys2Proof/Machine/Tags.lean ====
section
/-! DEFINITION. The tag pools of the fabric (Table 1.4) and the life of a transaction from its tag to its response (R26 to
R29, R42). -/

namespace Sys2Proof.Machine

/-- The tag pool of a management address (Table 1.4): 0 to 3 a DDR channel, 4 CXL.mem, 5 SRAM and other targets. -/
def poolOf (a : Nat) : Nat :=
  if 0x10000000000 ≤ a ∧ a < 0x90000000000 then (a - 0x10000000000) / 0x2000000000 % 4
  else if farBase ≤ a then 4
  else 5

/-- The requesters that a pool lists (Table 1.4). -/
def poolLists (pool req : Nat) : Bool :=
  if pool < 4 then decide (req < 31)
  else if pool = 4 then decide (req = 20) || (decide (22 ≤ req) && decide (req ≤ 28))
  else decide (12 ≤ req) && decide (req < 31)

/-- The reserved share of a requester in a pool (Table 1.4); the eight acquisition writers hold the staging drain's share of
pool 5 together. -/
def reservedTags (pool req : Nat) : Nat :=
  if pool < 4 then
    if req = 2 * pool ∨ req = 2 * pool + 1 ∨ req = 8 + pool ∨ req = 12 + 2 * pool ∨ req = 13 + 2 * pool then 32
    else if req = 20 then 64 else 0
  else if pool = 4 then (if req = 20 then 1792 else if req = 27 ∨ req = 28 then 64 else 0)
  else if req = 29 then 32
  else if req = 21 then 64
  else if req = 20 then 128
  else if 12 ≤ req ∧ req ≤ 19 then 64 else 0

/-- The shared remainder of a pool (Table 1.4). -/
def sharedTags (pool : Nat) : Nat := if pool < 4 then 160 else if pool = 4 then 128 else 224

/-- The tags of a pool (Table 1.4). -/
def poolTags (pool : Nat) : Nat := if pool < 4 then 384 else if pool = 4 then 2048 else 512

/-- Two requesters draw on one reserved share. -/
def sameShare (pool a b : Nat) : Bool :=
  decide (a = b) || (decide (pool = 5) && decide (12 ≤ a) && decide (a ≤ 19) && decide (12 ≤ b) && decide (b ≤ 19))

/-- Reserved tags of a requester in use. -/
def State.reservedUsed (s : State) (pool req : Nat) : Nat :=
  s.fab.countP fun t => decide (t.pool = pool) && !t.shared && !t.noTag && sameShare pool t.req req

/-- Shared tags of a pool in use. -/
def State.sharedUsed (s : State) (pool : Nat) : Nat :=
  s.fab.countP fun t => decide (t.pool = pool) && t.shared && !t.noTag

/-- The tag a requester can take now (R26, R29): none, or whether it is one of the shared remainder. -/
def State.freeTag (s : State) (pool req : Nat) : Option Bool :=
  if !poolLists pool req then none
  else if s.reservedUsed pool req < reservedTags pool req then some false
  else if s.sharedUsed pool < sharedTags pool then some true
  else none

/-- The line of an address. -/
def lineOf (a : Nat) : Nat := a / 64 * 64

/-- The 64 bytes of a line as one number, byte 0 lowest. -/
def State.lineData (s : State) (a : Nat) : BitVec 512 := BitVec.ofNat 512 (s.le (lineOf a) 64)

/-- Write the 64 bytes of a line. -/
def State.setLine (s : State) (a : Nat) (v : BitVec 512) : State := s.setBytes (lineOf a) (leBytes v.toNat 64)

/-! ## Hops and their credits (R27, R31) -/

/-- The crossings that a request passes on its way to its target (Table 1.2): X13 of the result cores and X15 of the management path,
then X11 or X12. The response passes them the other way. -/
def hopsOf (pool req : Nat) : List (Fin 7) :=
  (if 22 ≤ req ∧ req ≤ 25 then [5] else if req = 29 then [6] else []) ++ (if h : pool < 5 then [⟨pool, by omega⟩] else [])

/-- The entries that each buffer of a crossing holds (Table 1.2). -/
def hopDepth (h : Fin 7) : Nat := if h.val = 4 then 128 else if h.val = 6 then 16 else 64

/-- The response buffer of a crossing has a credit. -/
def State.hopFree (s : State) (h : Fin 7) : Bool := decide (s.hop[h].rsp < hopDepth h)

/-- A credit of the request buffer, or of the response buffer, of a crossing is taken. -/
def State.takeHop (s : State) (h : Fin 7) (rsp : Bool) : State :=
  { s with hop := s.hop.set h (if rsp then { s.hop[h] with rsp := s.hop[h].rsp + 1 } else { s.hop[h] with req := s.hop[h].req + 1 }) }

/-- An entry leaves a buffer of a crossing, and its credit returns; none where the entry comes from its target or its requester. -/
def State.giveHop (s : State) (h : Option (Fin 7)) (rsp : Bool) : State :=
  match h with
  | none => s
  | some h =>
    { s with hop := s.hop.set h (if rsp then { s.hop[h] with rsp := s.hop[h].rsp - 1 } else { s.hop[h] with req := s.hop[h].req - 1 }) }

/-- A request that holds a tag passes its hops: each takes a credit of the next buffer before it gives its own back, and the target
accepts it at once (R30, R31). Requests therefore stand in no buffer between two commands. -/
def State.passRequest (s : State) : Option (Fin 7) → List (Fin 7) → State
  | prev, [] => s.giveHop prev false
  | prev, h :: l => ((s.takeHop h false).giveHop prev false).passRequest (some h) l

/-- A response that has passed `k` hops of `path` goes on while the next buffer has a credit (R31). -/
def State.passResponse (s : State) (path : List (Fin 7)) : Nat → Nat → State × Nat
  | 0, k => (s, k)
  | fuel + 1, k =>
    match path[k]? with
    | none => (s, k)
    | some h =>
      if s.hopFree h then ((s.takeHop h true).giveHop (if k = 0 then none else path[k - 1]?) true).passResponse path fuel (k + 1)
      else (s, k)

/-- The answered transactions of a list move on, the oldest first. -/
def State.passAll (s : State) : List FabTx → State × List FabTx
  | [] => (s, [])
  | t :: l =>
    let path := (hopsOf t.pool t.req).reverse
    let (s1, k) := if t.answer.isSome then s.passResponse path path.length t.hops else (s, t.hops)
    let (s2, r) := s1.passAll l
    (s2, { t with hops := k } :: r)

/-- Responses go on towards their requesters as far as credits allow. -/
def State.forward (s : State) : State :=
  let (s1, l) := s.passAll s.fab
  { s1 with fab := l }

/-- The response stands at its requester. -/
def FabTx.arrived (t : FabTx) : Bool := t.answer.isSome && decide ((hopsOf t.pool t.req).length ≤ t.hops)

/-- Put a transaction that holds a tag on the fabric. -/
def State.putTx (s : State) (t : FabTx) : State := { s with fab := s.fab ++ [t] }.forward

/-- The lowest tag number of a pool that no transaction holds. -/
def freeNo (used : List Nat) : Nat → Nat → Nat
  | 0, k => k
  | fuel + 1, k => if used.contains k then freeNo used fuel (k + 1) else k
def State.tagNo (s : State) (pool : Nat) : Nat :=
  let used := (s.fab.filter fun t => decide (t.pool = pool) && !t.noTag).map (·.tag)
  freeNo used used.length 0

/-- A request with its response space and its tag is issued: it takes the number of its tag, passes its hops and is accepted (R29 to
R31, R33). -/
def State.issueTx (s : State) (t : FabTx) : State :=
  (s.passRequest none (hopsOf t.pool t.req)).putTx { t with tag := s.tagNo t.pool }

/-- The oldest transaction for which `p` holds. -/
def State.findTx (s : State) (p : FabTx → Bool) : Option FabTx := s.fab.find? p

/-- The oldest transaction for which `p` holds is consumed: it leaves the last buffer on its way, and its tag returns (R29, R31). -/
def State.dropTx (s : State) (p : FabTx → Bool) : State :=
  let s1 := match s.findTx p with
    | none => s
    | some t => s.giveHop (if t.hops = 0 then none else (hopsOf t.pool t.req).reverse[t.hops - 1]?) true
  { s1 with fab := s1.fab.eraseP p }.forward

/-- Replace the oldest element for which `p` holds. -/
def replaceFirst {α : Type} (p : α → Bool) (f : α → α) : List α → List α
  | [] => []
  | x :: l => if p x then f x :: l else x :: replaceFirst p f l

/-- Change the oldest transaction that equals `t`. -/
def State.updateTx (s : State) (t : FabTx) (f : FabTx → FabTx) : State :=
  { s with fab := replaceFirst (fun x => decide (x = t)) f s.fab }.forward

/-- Answer every unanswered transaction for which `p` holds, in error (R46, R392). -/
def State.failTxs (s : State) (p : FabTx → Bool) : State :=
  { s with fab := s.fab.map fun (t : FabTx) => if t.answer.isNone && p t then { t with answer := some (0, false), lost := true } else t }.forward

/-- The landing space of unit `d`. -/
def FabDest.ofUnit (d : Fin 12) : FabDest → Bool
  | .ring x | .slot x _ _ | .reserve x | .tag x _ _ _ | .dropped x => decide (x = d)
  | .other => false

/-- Reads of unit `d` are still in flight (R171). -/
def State.inFlight (s : State) (d : Fin 12) : Bool := s.fab.any fun t => t.dest.ofUnit d

/-- The data that the reads in flight of unit `d` would have filled is discarded (R174): those for which `p` holds land in
their reserved space and are dropped there. -/
def State.discardTxs (s : State) (d : Fin 12) (p : FabDest → Bool) : State :=
  { s with fab := s.fab.map fun t => if t.dest.ofUnit d && p t.dest then { t with dest := .dropped d } else t }

/-! ## Units that move data within one command (R25, R29, R32) -/

/-- The requester holds panic (R185, R264, R297). -/
def State.panicOf (s : State) (req : Nat) : Bool :=
  if req < 8 then s.on (PRT_STRM_STATUS_panic req)
  else if req < 12 then (s.wfg.toList.getD (req - 8) {}).panic
  else if req < 20 then s.on (ACQ_STATUS_panic (req - 12))
  else false

/-- The queued requests of a pool's target in order of arrival. -/
def State.queueOf (s : State) (pool : Nat) : List FabTx := s.fab.filter fun t => decide (t.pool = pool) && t.answer.isNone && !t.stale

/-- Requester `req` may access `n` bytes at `a` now, within one command: it can take a tag of the pool (R29), no earlier request to one
of the lines waits (R42, R362), and at a DDR channel no request under panic goes before it (R34, R361). The tag is held for the
command only. -/
def State.mayMove (s : State) (req a n : Nat) : Bool :=
  let pool := poolOf a
  (s.freeTag pool req).isSome &&
  (s.queueOf pool).all fun t =>
    !(decide (a < t.line + 64) && decide (t.line < a + n)) && (decide (4 ≤ pool) || s.panicOf req || !s.panicOf t.req)

/-! ## Round-robin (R35) -/

/-- The first requester of a list, in ascending order with wrap-around, after the one last granted. -/
def rrFirst (last : Nat) (l : List Nat) : Option Nat :=
  match (l.filter fun x => decide (last < x)).min? with
  | some x => some x
  | none => l.min?

/-! ## The stores as the data plane sees them -/

/-- Channel `c` serves new demand (R178, R265, R298): powered, trained, READY, not frozen and not fenced. -/
def State.chanUp (s : State) (c : Nat) : Bool :=
  s.domainOn (32 + c) && decide (s.get (DMC_STATUS_state c) = 3) && !s.on (DMC_STATUS_frozen c) &&
  !s.on (DMC_STATUS_fenced c)

/-- One GiB and 4 TiB. -/
def gib : Nat := 0x40000000
def farTop : Nat := 0x40000000000

/-- The base of half 1 in GiB (Table 13.4). -/
def State.farBase1 (s : State) : Nat :=
  let b := s.get CXH_CTL_base1
  if 1 ≤ b ∧ b ≤ 4095 then b else 2048

/-- The state of a half; in an interleaved far store the state of the other half counts where it is not UP (R382). -/
def State.halfState (s : State) (h : Nat) : Nat :=
  let a := s.get (CXH_LINK_state h)
  if s.on CXH_CTL_interleave ∧ a = 3 then s.get (CXH_LINK_state (1 - h)) else a

/-- The range of far offsets that half `h` maps (R381); with interleave both halves map the whole (R382). -/
def State.halfRange (s : State) (h : Nat) : Nat × Nat :=
  let c0 := s.get (CXH_CAP_gib 0) * gib
  let c1 := s.get (CXH_CAP_gib 1) * gib
  let b := s.farBase1 * gib
  if s.on CXH_CTL_interleave then (0, min (2 * min c0 c1) farTop)
  else if !s.on CXH_CTL_bifurcate then (if h = 0 then (0, min c0 farTop) else (0, 0))
  else if h = 0 then (0, min c0 b) else (b, b + min c1 (farTop - b))

/-- The half that far offset `f` lies on; none where it is unmapped (R381, R382). -/
def State.farHalf (s : State) (f : Nat) : Option Nat :=
  let r0 := s.halfRange 0
  let r1 := s.halfRange 1
  if s.on CXH_CTL_interleave then (if f < r0.2 then some (f / 4096 % 2) else none)
  else if r0.1 ≤ f ∧ f < r0.2 then some 0
  else if r1.1 ≤ f ∧ f < r1.2 then some 1
  else none

/-- Far offsets `lo` to `hi - 1` are all mapped by halves that are UP (R383). -/
def State.farCovered (s : State) (lo hi : Nat) : Bool :=
  let r0 := s.halfRange 0
  let r1 := s.halfRange 1
  let u0 := decide (s.halfState 0 = 3)
  let u1 := decide (s.halfState 1 = 3)
  if s.on CXH_CTL_interleave then u0 && u1 && decide (hi ≤ r0.2)
  else if hi ≤ r0.2 then u0
  else if r1.1 ≤ lo then u1 && decide (hi ≤ r1.2)
  else u0 && u1 && decide (r0.2 = r1.1) && decide (hi ≤ r1.2)

/-- The far store serves a window: the window lies wholly on halves that are UP (R383). Without a window, the far store is not absent,
and a link is up (Table 5.2, check 5). -/
def State.farWinUp (s : State) (w : Win) : Bool :=
  if w.size = 0 then decide (s.halfState 0 = 3) || decide (s.halfState 1 = 3)
  else s.farCovered (w.base * farUnit) ((w.base + w.size) * farUnit)

/-- The cap of the far store in MB/s: of each half in use, or of one x16 link (R380). -/
def State.farCap (s : State) (h : Nat) : Nat :=
  let sp := s.get (CXH_LINK_speed h)
  100000 * s.get (CXH_LINK_width h) * (if sp = 2 then 2 else sp) / 32

end Sys2Proof.Machine
end

