-- ==== Sys2Proof/Machine/Seq.lean ====
section
/-! DEFINITION. The sequencer that ports (units 0 to 7) and waveform generators (units 8 to 11) share: entries and windows
(R127, R128), the return stack (R141), jump requests (R142 to R146) and the choice at a jump point (R139). -/

namespace Sys2Proof.Machine

/-- The unit of port `p` and of WFG `m`. -/
abbrev portUnit (p : Fin 8) : Fin 12 := portPll p
abbrev wfgUnit (m : Fin 4) : Fin 12 := wfgPll m

/-! ## The registers of a unit -/

def seqEntryF (d : Fin 12) : Fld := if d.val < 8 then PRT_SEQ_ENTRY_entry d else WFG_ENTRY_entry (d - 8)
def seqDepthF (d : Fin 12) : Fld := if d.val < 8 then PRT_SEQ_ENTRY_depth d else WFG_ENTRY_depth (d - 8)
def seqStackF (d : Fin 12) (i : Nat) : Fld :=
  if d.val < 8 then PRT_RET_STACK_entry d i else WFG_RET_STACK_entry (d - 8) i
def seqTaken (d : Fin 12) : Nat := if d.val < 8 then PRT_JUMP_TAKEN d else WFG_JUMP_TAKEN (d - 8)
def seqReplaced (d : Fin 12) : Nat := if d.val < 8 then PRT_JUMP_REPLACED d else WFG_JUMP_REPLACED (d - 8)
def seqWaitResultF (d : Fin 12) : Fld :=
  if d.val < 8 then PRT_WAIT_STATUS_result d else WFG_WAIT_STATUS_result (d - 8)
def seqWaitEntryF (d : Fin 12) : Fld :=
  if d.val < 8 then PRT_WAIT_STATUS_entry d else WFG_WAIT_STATUS_entry (d - 8)
def seqWaitPasses (d : Fin 12) : Nat := if d.val < 8 then PRT_WAIT_PASSES d else WFG_WAIT_PASSES (d - 8)
def seqHostF (d : Fin 12) : Fld := if d.val < 8 then PRT_JUMP_HOST_req d else WFG_JUMP_HOST_req (d - 8)
def seqVecA (d : Fin 12) : Nat := if d.val < 8 then PRT_SEQ_VEC_LO d else WFG_SAMPLE_LO (d - 8)

/-- Event source of a unit: `j` of a port (R126), `k` of a WFG (Table 9.12). -/
def unitSrc (d : Fin 12) (j k : Nat) : Nat := if d.val < 8 then portSrc d j else 64 * (d - 8) + k

/-- Vectors issued, or source samples taken, since the start: the number of the next one. -/
def State.seqVec (s : State) (d : Fin 12) : Nat := s.rn64 (seqVecA d)

/-- The unit is RUNNING, or a port is in HOLD. -/
def State.unitRuns (s : State) (d : Fin 12) : Bool :=
  if h : d.val < 8 then s.portRuns ⟨d.val, h⟩ else decide (s.get (WFG_STATUS_state (d - 8)) = 2)

/-- The unit is ARMED. -/
def State.unitArmed (s : State) (d : Fin 12) : Bool :=
  if d.val < 8 then decide (s.get (PRT_SEQ_STATUS_state d) = 1) else decide (s.get (WFG_STATUS_state (d - 8)) = 1)

/-! ## Entries and windows -/

/-- Directory entry `e` (R127): its present words, also where it is rewritten while a port may reach it (R137; DESIGN CHOICE, log entry
29). -/
def State.entryAt (s : State) (e : Nat) : Entry := Entry.ofWords fun k => s.rn (SEG_WORD (e % 65536) k)

/-- The window of a unit in tier 1 or 2 (R128, R294). -/
def State.storeWin (s : State) (d : Fin 12) (tier : Nat) : Win :=
  if d.val < 8 then (if tier = 1 then s.cs.nearWin d else s.cs.farWin d)
  else
    let q := s.cs.store.getD (d - 8) {}
    if tier = 1 then q.nearW else q.farW

/-- The stream ring of a unit in bytes (R169, R297). -/
def State.ringSize (s : State) (d : Fin 12) : Nat :=
  if d.val < 8 then 0x10000 * s.get (PRT_STRM_RING_size d) else 0x80000

/-- The segment store of a port in bytes. -/
def State.segStore (s : State) (d : Fin 12) : Nat := 0x200000 * (s.cs.banks d).length

/-- The size in bytes of the window that a tier names (R128, R169); a WFG has no tier 0. -/
def State.windowSize (s : State) (d : Fin 12) (tier : Nat) : Nat :=
  match tier with
  | 0 => if d.val < 8 then s.segStore d - s.ringSize d else 0
  | 1 => nearUnit * (s.storeWin d 1).size
  | 2 => farUnit * (s.storeWin d 2).size
  | _ => 0

/-- The near-store channel of a unit's quadrant. -/
def unitChan (d : Fin 12) : Nat := if d.val < 8 then d / 2 else d - 8

/-- The management address of a byte of a window. -/
def State.windowAddr (s : State) (d : Fin 12) (tier off : Nat) : Nat :=
  match tier with
  | 0 => (s.cs.sramAddr d off).getD 0
  | 1 => nearBase (unitChan d) + nearUnit * (s.storeWin d 1).base + off
  | _ => farBase + farUnit * (s.storeWin d 2).base + off

/-- The declared demand of a unit for a tier in MB/s (R176). -/
def State.demand (s : State) (d : Fin 12) (tier : Nat) : Nat :=
  if d.val < 8 then
    (if tier = 1 then s.get (PRT_STRM_DEMAND_NEAR_mbps d) else s.get (PRT_STRM_DEMAND_FAR_mbps d))
  else if tier = 1 then s.get (WFG_DEMAND_NEAR_mbps (d - 8)) else s.get (WFG_DEMAND_FAR_mbps (d - 8))

/-- The rules that R294 adds to R135 for an entry that a WFG runs; `next`-path and length rules as R135. -/
def Entry.wfgValid (e : Entry) : Bool :=
  decide (e.length ≠ 0) && (decide (e.tier = 1) || decide (e.tier = 2)) &&
  (decide (e.cond = 0) || decide (e.cond = 1) || decide (e.cond = 4) || decide (e.cond = 7)) &&
  decide (e.param = 0) && e.rsvOk && !(e.halt && e.ret) && (!e.isLoop || (decide (2 ≤ e.cond) && !e.call)) &&
  (e.isLoop || decide (e.tmo = 0)) && decide (e.timeset = 0) && decide (e.tsMode = 0) && !e.sparse &&
  decide (e.markers = 0) && decide (e.waypoint = 0) && !e.capture && !e.secret && !e.nolog && !e.enc &&
  decide (e.ramble = 0) && decide (e.matchN = 1) && !e.tailAuto

/-- An entry is valid for a unit but for its data_offset (R135, R294). -/
def Entry.validFor (e : Entry) (d : Fin 12) : Bool := if d.val < 8 then e.valid else e.wfgValid

/-- The blocks of a pass, a sparse segment's template included, or the frames of a WFG pass (R92, R291). -/
def Entry.units (e : Entry) (d : Fin 12) : Nat :=
  if d.val < 8 then e.blocks + (if e.sparse then 1 else 0) else (e.length + 27) / 28

/-! ## The return stack (R141) -/

/-- The present return stack, top first. -/
def State.retStack (s : State) (d : Fin 12) : List Nat :=
  ((List.range (s.get (seqDepthF d))).map fun i => s.get (seqStackF d i)).reverse

/-- Push a return address; none at depth 16. -/
def State.pushRet (s : State) (d : Fin 12) (x : Nat) : Option State :=
  let n := s.get (seqDepthF d)
  if n < 16 then some ((s.put (seqStackF d n) x).put (seqDepthF d) (n + 1)) else none

/-- Pop a return address; none at depth 0. -/
def State.popRet (s : State) (d : Fin 12) : Option (Nat × State) :=
  let n := s.get (seqDepthF d)
  if n = 0 then none else some (s.get (seqStackF d (n - 1)), s.put (seqDepthF d) (n - 1))

/-! ## Jump requests -/

/-- The pass in issue produces its request (R142), to be registered at `due`. -/
def State.produceAt (s : State) (d : Fin 12) (due : Nat) : State :=
  let q := s.seq[d]
  let r : JumpReq := { producer := s.get (seqEntryF d), e := q.e, due := due, order := q.order }
  s.setSeq d { q with produced := true, inflight := q.inflight ++ [r] }

/-- W at the period of vector `x` of a port (R143): that of the last vector issued, or of the one about to be. -/
def State.windowOf (s : State) (p : Fin 8) (x : Nat) : Nat :=
  if x + 1 = s.seqVec (portUnit p) then s.get (PRT_WINDOW_w p) else (s.portRate p).window

/-- The pass in issue produces its request (R143). `x` is the vector whose issue period contains the source instant; a WFG
registers by time, at least 256 ns later (R295). -/
def State.produce (s : State) (d : Fin 12) (x : Nat) : State :=
  s.produceAt d (if h : d.val < 8 then x + s.windowOf ⟨d.val, h⟩ x else s.tmb.clk + 256 * tuPerNs)

/-- PRT_JUMP_STATUS shows the held request (Table 4.20). -/
def State.showHeld (s : State) (d : Fin 12) (r : Option JumpReq) : State :=
  if d.val < 8 then
    match r with
    | none => s.wn (PRT_JUMP_STATUS d) 0
    | some x => ((s.put (PRT_JUMP_STATUS_pending d) 1).put (PRT_JUMP_STATUS_cond d) x.e.cond).put
        (PRT_JUMP_STATUS_producer d) x.producer
  else s

/-- What a jump point chooses (R139): another pass of the entry, the start of an entry (by a taken request, which leaves
the predicted path, or not), the end of the program, or a fault of the return stack. -/
inductive Jump where
  | again
  | begin_ (dest : Nat) (taken : Bool)
  | done
  | overflow
  | underflow
  deriving DecidableEq, Repr

/-- leave_by_next of R139. -/
def State.leaveByNext (s : State) (d : Fin 12) (x : Entry) (taken : Bool) : State × Jump :=
  if x.halt then (s, .done)
  else if x.ret then
    match s.popRet d with
    | none => (s, .underflow)
    | some (a, s1) => (s1, .begin_ a taken)
  else (s, .begin_ x.next taken)

/-- Begin the target of an entry, with a push of `back` where it calls. -/
def State.leaveByTarget (s : State) (d : Fin 12) (x : Entry) (back : Nat) (taken : Bool) : State × Jump :=
  if x.call then
    match s.pushRet d back with
    | none => (s, .overflow)
    | some s1 => (s1, .begin_ x.target taken)
  else (s, .begin_ x.target taken)

/-- set_wait of R139 and R152: the loop's entry, its result and the passes it issued. -/
def State.setWait (s : State) (d : Fin 12) (producer result passes : Nat) : State :=
  let s1 := ((s.put (seqWaitResultF d) result).put (seqWaitEntryF d) producer).wn (seqWaitPasses d) passes
  s1.evIf (decide (result ≠ 1)) (unitSrc d 6 61)

/-- The current entry is left: the requests it produced keep the passes it issued (R152). -/
def State.leavePasses (s : State) (d : Fin 12) : State :=
  let q := s.seq[d]
  let f := fun (r : JumpReq) => { r with passes := some (r.passes.getD (q.pass + 1)) }
  s.setSeq d { q with inflight := q.inflight.map f, held := q.held.map f }

/-- The choice at the jump point after the present pass (R139). -/
def State.choose (s : State) (d : Fin 12) : State × Jump :=
  let q := s.seq[d]
  match q.held with
  | some r =>
    let s1 := (((s.setSeq d { q with held := none }).showHeld d none).count (seqTaken d)).leavePasses d
    if r.e.isLoop then (s1.setWait d r.producer 1 (r.passes.getD (q.pass + 1))).leaveByNext d r.e true
    else s1.leaveByTarget d r.e q.e.next true
  | none =>
    if !q.timedOut && (q.e.endless || decide (q.pass < q.e.rep)) then (s, .again)
    else if q.e.isLoop then
      ((s.leavePasses d).setWait d (s.get (seqEntryF d)) (if q.timedOut then 3 else 2) (q.pass + 1),
        .begin_ q.e.target q.e.endless)
    else if q.e.kind = .always then (s.leavePasses d).leaveByTarget d q.e q.e.next false
    else (s.leavePasses d).leaveByNext d q.e false

/-- The destination of a held request as the present return stack gives it (R144). -/
def State.destOf (s : State) (d : Fin 12) (r : JumpReq) : Option Nat :=
  if r.e.isLoop then
    if r.e.halt then none else if r.e.ret then (s.retStack d).head? else some r.e.next
  else some r.e.target

end Sys2Proof.Machine
end

