-- ==== Sys2Proof/Machine/Stream.lean ====
section
/-! DEFINITION. Pattern and waveform streaming (chapter 05, R297): the planner's walk along the predicted path, the ring,
the head slots and the branch reserve, what a unit finds when it needs a block, and the fill. -/

namespace Sys2Proof.Machine

/-! ## Reading the store as the planner does -/

/-- The nonce and key of page `page` of an encrypted entry (R197): the slot, and image number and store page number. -/
def State.pageNonce (s : State) (d : Fin 12) (tier off : Nat) : Nat :=
  let storeOff := s.windowAddr d tier off - (if tier = 1 then nearBase (unitChan d) else farBase)
  s.rn (PRT_STRM_IMAGE d) * 2 ^ 64 + storeOff / 4096

/-- The pattern key in a slot (R435); 0 where it is empty. -/
def State.patKey (s : State) (slot : Nat) : BitVec 256 := (s.sec.keys.lookup slot).getD 0

/-- The plaintext of the page that holds window offset `off` (R197). -/
def State.pagePlain (s : State) (d : Fin 12) (tier off : Nat) : List Byte :=
  let base := off / 4096 * 4096
  gcmCrypt (s.patKey (s.get (PRT_STRM_KEY_slot d))).toNat (s.pageNonce d tier base) (s.bytes (s.windowAddr d tier base) 4096)

/-- The 64-bit word at a window offset of an entry's data, decrypted where the entry says so. -/
def State.planWord (s : State) (d : Fin 12) (e : Entry) (off : Nat) : Nat :=
  if e.enc then ofLe (((s.pagePlain d e.tier off).drop (off % 4096)).take 8)
  else s.le (s.windowAddr d e.tier off) 8

/-- The bytes of the block, template or frame at a window offset: its length field in words, or 64. -/
def State.unitBytes (s : State) (d : Fin 12) (e : Entry) (off : Nat) : Nat :=
  if d.val < 8 then 8 * max 1 (hdrLength (s.planWord d e off)) else 64

/-- The end offset of an entry's data, or the first block boundary at or after `limit`. -/
def State.dataEnd (s : State) (d : Fin 12) (e : Entry) (limit : Nat) : Nat → Nat → Nat → Nat
  | 0, _, off => off
  | fuel + 1, n, off =>
    if n = 0 ∨ limit ≤ off then off else s.dataEnd d e limit fuel (n - 1) (off + s.unitBytes d e off)

/-- The fetch unit of an entry: a line, or a page where the data is encrypted (R197). -/
def Entry.grain (e : Entry) : Nat := if e.enc then 4096 else 64

/-! ## The predicted path (R172) -/

/-- The predicted successor of an entry and the walk's stack there; none at the end of the path. -/
def predicted (e : Entry) (stack : List Nat) : Option (Nat × List Nat) :=
  if e.endless then none
  else if e.isLoop then some (e.target, stack)
  else if e.kind = .always then
    if e.call then (if stack.length < 16 then some (e.target, e.next :: stack) else none) else some (e.target, stack)
  else if e.halt then none
  else if e.ret then
    match stack with
    | [] => none
    | x :: l => some (x, l)
  else some (e.next, stack)

/-- The successors of a conditional entry that the walk does not take (R155, R170). -/
def offPath (e : Entry) (stack : List Nat) : List Nat :=
  if !e.kind.requests then []
  else
    let nextPath := if e.halt then [] else if e.ret then stack.take 1 else [e.next]
    if e.endless then nextPath ++ (if nextPath = [e.target] then [] else [e.target])
    else if e.isLoop then (if nextPath = [e.target] then [] else nextPath)
    else if nextPath = [e.target] then [] else [e.target]

/-- The head slots a unit has (R170, R297), and their size. -/
def slotMax (d : Fin 12) : Nat := if d.val < 8 then 32 else 8
def headBytes : Nat := 4096

/-- A new head slot for successor `dest` of entry `owner` (R155). -/
def State.newSlot (s : State) (d : Fin 12) (owner dest : Nat) (branch : Bool) : HeadSlot :=
  let e := s.entryAt dest
  let first := e.dataOffset / e.grain * e.grain
  let fin := s.dataEnd d e (e.dataOffset + headBytes) 600 (e.units d) e.dataOffset
  let stop := min fin (e.dataOffset + headBytes)
  { owner := owner, dest := dest, branch := branch, lines := [], next := first
    left := ceilDiv (ceilDiv stop e.grain * e.grain - first) 64 }

/-- The slots that entry `x` needs are asked for; false where a slot beyond the last would be needed. -/
def State.askSlots (s : State) (d : Fin 12) (x : Nat) (stack : List Nat) (branch : Bool) : State × Bool :=
  let need := (offPath (s.entryAt x) stack).filter fun t => decide ((s.entryAt t).tier ≠ 0)
  if slotMax d < s.seq[d].slots.length + need.length then (s, false)
  else
    (s.setSeq d { s.seq[d] with slots := s.seq[d].slots ++ need.map fun t => s.newSlot d x t branch }, true)

/-- The walk enters entry `x` and goes on through resident entries to the next one it must fetch from (R172). `seen` holds
the resident entries and stacks passed: in a resident loop the walk stands, with the slots that the loop needs; where the slots do not
suffice it waits for one. -/
def State.walk (s : State) (d : Fin 12) (branch : Bool) : Nat → List (Nat × List Nat) → List Nat → Nat → State × PlanPos
  | 0, _, _, _ => (s, {})
  | fuel + 1, seen, stack, x =>
    let e := s.entryAt x
    if !e.validFor d then (s, {})
    else if seen.contains (x, stack) then
      (s, { again := x :: (seen.takeWhile fun y => decide (y ≠ (x, stack))).map (·.1) })
    else
      let (s1, ok) := s.askSlots d x stack branch
      if !ok then (s1, { wait := some (x, stack) })
      else if e.tier ≠ 0 then
        if s.demand d e.tier = 0 then (s1, {})
        else
          (s1, { entry := x, pass := 0, stack := stack, block := 0, blockAt := e.dataOffset
                 next := e.dataOffset / e.grain * e.grain, ended := false })
      else
        match predicted e stack with
        | none => (s1, {})
        | some (y, st) => s1.walk d branch fuel ((x, stack) :: seen) st y

/-- Fuel for a walk: every entry of the directory once. -/
def walkFuel : Nat := 65536

/-- Blocks that lie wholly before the next offset to fetch are passed. -/
def State.passUnits (s : State) (d : Fin 12) (e : Entry) : Nat → PlanPos → PlanPos
  | 0, p => p
  | fuel + 1, p =>
    if e.units d ≤ p.block ∨ p.next ≤ p.blockAt then p
    else
      let n := s.unitBytes d e p.blockAt
      if p.blockAt + n ≤ p.next then s.passUnits d e fuel { p with block := p.block + 1, blockAt := p.blockAt + n }
      else p

/-- The walk goes on by one line; past the last block of a pass it goes to the next pass or the predicted successor. -/
def State.planStep (s : State) (d : Fin 12) (branch : Bool) (p : PlanPos) : State × PlanPos :=
  let e := s.entryAt p.entry
  let p1 := s.passUnits d e 16 { p with next := p.next + 64 }
  if e.units d ≤ p1.block ∧ p1.next % e.grain = 0 then
    if e.endless || decide (p.pass < e.rep) then
      (s, { p1 with pass := p.pass + 1, block := 0, blockAt := e.dataOffset, next := e.dataOffset / e.grain * e.grain })
    else
      match predicted e p.stack with
      | none => (s, {})
      | some (y, st) => s.walk d branch walkFuel [] st y
  else (s, p1)

/-- Set the planner to the start of a path (R181). -/
def State.planFrom (s : State) (d : Fin 12) (x : Nat) : State :=
  let (s1, p) := s.walk d false walkFuel [] (s.retStack d) x
  s1.setSeq d { s1.seq[d] with plan := p }

/-! ## Lines -/

/-- The branch reserve of a unit in bytes (R174, R297). -/
def reserveBytes (d : Fin 12) : Nat := if d.val < 8 then 0x40000 else 0x8000

/-- A line that was requested. -/
def flyingLine (tier addr : Nat) (enc : Bool) : RLine :=
  { tier := tier, addr := addr, st := .flying, data := 0, enc := enc, validAt := 0, validTb := 0 }

/-- A fetched line lands in the first flying line of its address. -/
def landLine (addr : Nat) (data : BitVec 512) (ok lost : Bool) (vec now : Nat) : List RLine → List RLine :=
  replaceFirst (fun l => decide (l.addr = addr) && decide (l.st = .flying)) fun l =>
    { l with
      data := data, st := if lost then .lost else if !ok then .bad else if l.enc then .landed else .valid
      validAt := vec, validTb := now }

/-- The line is on chip: valid, or bad or failed data that counts where it is consumed (R195). -/
def RLine.arrived (l : RLine) : Bool := decide (l.st ≠ .flying) && decide (l.st ≠ .landed) && decide (l.st ≠ .lost)

/-- The bytes of data a list of lines holds valid. -/
def validBytes (l : List RLine) : Nat := 64 * l.countP fun x => decide (x.st = .valid)

/-- The fill of a unit (R184): valid bytes of the ring ahead of the decompressor. -/
def State.fill (s : State) (d : Fin 12) : Nat :=
  let q := s.seq[d]
  match q.ring with
  | [] => 0
  | l :: _ =>
    let at_ := s.windowAddr d q.e.tier q.off
    validBytes q.ring - (if l.addr = lineOf at_ ∧ l.st = .valid then at_ % 64 else 0)

/-- Lines up to the one at `addr` leave the ring (R183); all of them where that line is not in it. -/
def dropTo (addr : Nat) : List RLine → List RLine
  | [] => []
  | l :: r => if l.addr = addr then l :: r else dropTo addr r

/-- The state of the lines that a block needs (Table 5.4). -/
inductive BlockSt where
  | ready
  | empty
  | memError
  | authFail
  deriving DecidableEq, Repr

/-- Look up the `n` lines from `addr` in order; a valid line counts where it came in time. -/
def linesSt (inTime : RLine → Bool) (ring : List RLine) : Nat → Nat → BlockSt
  | 0, _ => .ready
  | n + 1, addr =>
    let rest := linesSt inTime ring n (addr + 64)
    let pageBad := fun (l : RLine) => ring.any fun x =>
      l.enc && decide (x.st = .bad) && decide (x.addr / 4096 = l.addr / 4096)
    match ring.find? fun l => decide (l.addr = addr) with
    | none => if rest = .memError ∨ rest = .authFail then rest else .empty
    | some l =>
      if l.st = .bad ∨ pageBad l then .memError
      else if rest = .memError then rest
      else if l.st = .failed then .authFail
      else if rest = .authFail then rest
      else if l.st = .valid ∧ inTime l then rest
      else .empty

/-- The 64-bit word of a block in issue: of the store for tier 0, of the ring otherwise. The checks that come before LENGTH read on past
the end of a block whose length is too short, and take 0 where the ring holds no such line (R536; DESIGN CHOICE, log entry 29). -/
def State.dataWord (s : State) (d : Fin 12) (e : Entry) (off : Nat) : Nat :=
  let a := s.windowAddr d e.tier off
  if e.tier = 0 then s.le a 8
  else
    match s.seq[d].ring.find? fun l => decide (l.addr = lineOf a) with
    | none => 0
    | some l => (l.data.toNat >>> (8 * (a % 64))) % 2 ^ 64

/-- The length in bytes of the block or frame at `off`, as the data in issue gives it. -/
def State.issueBytes (s : State) (d : Fin 12) (e : Entry) (off : Nat) : Nat :=
  if d.val < 8 then 8 * max 1 (hdrLength (s.dataWord d e off)) else 64

/-- What a unit finds when it needs the block or frame at window offset `off` (R188, R189, R299): every line from its header to its end,
which the header gives, or the planner while the header is missing. -/
def State.blockState (s : State) (d : Fin 12) (e : Entry) (off : Nat) (inTime : RLine → Bool) : BlockSt :=
  if e.tier = 0 then .ready
  else
    let a := lineOf (s.windowAddr d e.tier off)
    let n := match linesSt inTime s.seq[d].ring 1 a with
      | .ready => s.issueBytes d e off
      | _ => s.unitBytes d e off
    linesSt inTime s.seq[d].ring (ceilDiv (s.windowAddr d e.tier (off + n) - a) 64) a

/-- The ring moves on to window offset `off` of the entry in issue (R183); after the last block of a pass the line, or the
page of encrypted data, that holds the last byte goes too. -/
def State.consume (s : State) (d : Fin 12) (e : Entry) (off : Nat) (passEnd : Bool) : State :=
  if e.tier = 0 then s
  else
    let a := s.windowAddr d e.tier off
    let ring := s.seq[d].ring
    let r := if passEnd then (dropTo (ceilDiv a e.grain * e.grain - 64) ring).drop 1 else dropTo (lineOf a) ring
    s.setSeq d { s.seq[d] with ring := r }

/-! ## Fill, panic and low water -/

/-- Show the fill, and raise or lower panic and low water at its crossings (R184 to R186). -/
def State.showFill (s : State) (d : Fin 12) : State :=
  let f := s.fill d
  if h : d.val < 8 then
    let p : Fin 8 := ⟨d.val, h⟩
    let old := s.rn (PRT_STRM_FILL p)
    let s1 := s.wn (PRT_STRM_FILL p) f
    let s2 := if s.portRuns p then s1.wn (PRT_STRM_MINFILL p) (min (s1.rn (PRT_STRM_MINFILL p)) f) else s1
    let level := 0x10000 * s.get (PRT_STRM_PRIME_panic p)
    let low := 0x10000 * s.get (PRT_STRM_PRIME_low p)
    let s3 := if s.portRuns p && decide (level ≤ old) && decide (f < level) && !s.on (PRT_STRM_STATUS_panic p) then
        ((s2.put (PRT_STRM_STATUS_panic p) 1).count (PRT_STRM_PANIC_CNT p)).ev (portSrc p 13)
      else if s.on (PRT_STRM_STATUS_panic p) && decide (level + 0x20000 ≤ f) then s2.put (PRT_STRM_STATUS_panic p) 0
      else s2
    if decide (s.get (PRT_SEQ_STATUS_state p) = 2) && decide (low ≤ old) && decide (f < low) then
      (s3.put (PRT_STRM_STATUS_low_seen p) 1).ev (portSrc p 15)
    else s3
  else
    let m : Fin 4 := ⟨d.val - 8, by omega⟩
    let panic := if f < 0x20000 then s.unitRuns d else s.wfg[m].panic && decide (f < 0x30000)
    { (s.wn (WFG_FILL m) f) with wfg := s.wfg.set m { s.wfg[m] with panic := panic } }

/-! ## Branches -/

/-- The planner starts at a destination that no reserve was walked for, behind its head where a slot held it. -/
def State.planAfter (s : State) (d : Fin 12) (dest : Nat) (slot : Option HeadSlot) : State :=
  let s1 := s.planFrom d dest
  match slot with
  | none => s1
  | some h =>
    if s1.seq[d].plan.ended ∨ s1.seq[d].plan.entry ≠ dest then s1
    else s1.setSeq d { s1.seq[d] with plan := s1.passUnits d (s1.entryAt dest) 600 { s1.seq[d].plan with next := h.next } }

/-- The reads for a replaced or discarded request are discarded (R175). -/
def State.dropReserve (s : State) (d : Fin 12) : State :=
  let s1 := s.discardTxs d fun x => match x with
    | .reserve _ => true
    | .slot _ o t => s.seq[d].slots.any fun h => h.branch && decide (h.owner = o) && decide (h.dest = t)
    | _ => false
  let kept := s.seq[d].reserve.bind fun r => r.slot.map fun o => (o, r.dest)
  s1.setSeq d { s1.seq[d] with
    reserve := none
    slots := s1.seq[d].slots.filter fun h =>
      !h.branch && (decide (kept ≠ some (h.owner, h.dest)) || decide (h.owner = s.get (seqEntryF d))) }

/-- A slot that holds the whole head of `dest`, or whose last read is in flight. -/
def HeadSlot.holds (h : HeadSlot) (dest : Nat) : Bool := !h.branch && decide (h.dest = dest) && decide (h.left ≤ h.lines.length)

/-- The planner walks from the destination of a registered request (R174): beyond its head where a slot holds it, from its
first byte otherwise. -/
def State.openReserve (s : State) (d : Fin 12) (dest : Nat) : State :=
  let e := s.entryAt dest
  let slot := s.seq[d].slots.find? fun h => h.holds dest
  let (s1, p) := s.walk d true walkFuel [] (s.retStack d) dest
  let p1 := match slot with
    | some h => if !p.ended ∧ p.entry = dest then s1.passUnits d e 600 { p with next := h.next } else p
    | none => p
  let p2 := if p1.ended then p1
    else if e.tier ≠ 0 ∧ (s1.entryAt p1.entry).units d ≤ p1.block then (s1.planStep d true { p1 with next := p1.next - 64 }).2
    else p1
  s1.setSeq d { s1.seq[d] with
    reserve := some { dest := dest, slot := slot.map (·.owner), lines := [], plan := p2, left := reserveBytes d / 64 } }

/-- A registered request is held; one held before is replaced (R146, R175). -/
def State.register (s : State) (d : Fin 12) (r : JumpReq) : State :=
  let s1 := if s.seq[d].held.isSome then
      ((s.dropReserve d).count (seqReplaced d)).ev (unitSrc d 5 60)
    else s
  let s2 := (s1.setSeq d { s1.seq[d] with held := some r }).showHeld d (some r)
  match s2.destOf d r with
  | none => s2
  | some dest => s2.openReserve d dest

/-- Register every request on its way that is due by `limit`, in the order of their passes. -/
def State.registerDue (s : State) (d : Fin 12) (limit : Nat) : State :=
  let due := s.seq[d].inflight.filter fun r => decide (r.due ≤ limit)
  let rest := s.seq[d].inflight.filter fun r => !decide (r.due ≤ limit)
  due.foldl (fun a r => a.register d r) (s.setSeq d { s.seq[d] with inflight := rest })

/-- A page that some line of a list needs. -/
def hasPage (tier page : Nat) (l : List RLine) : Bool :=
  l.any fun x => x.enc && decide (x.tier = tier) && decide (x.addr / 4096 = page)

/-- The copies of a page that a list of lines begins. -/
def pageCopies (tier page : Nat) (l : List RLine) : Nat :=
  l.countP fun x => x.enc && decide (x.tier = tier) && decide (x.addr = 4096 * page) &&
    (decide (x.st = .flying) || decide (x.st = .landed))

/-- All the lines of a unit: those of its ring, its slots and its reserve. -/
def SeqH.allLines (q : SeqH) : List RLine :=
  q.ring ++ q.slots.flatMap (·.lines) ++ (match q.reserve with | some r => r.lines | none => [])

/-- A request is taken (R174): the ring's data and its reads are discarded, and the head slot of the destination, followed
by the branch reserve, becomes the front of the ring. -/
def State.takeBranch (s : State) (d : Fin 12) (dest : Nat) : State :=
  let q := s.seq[d]
  let fits := match q.reserve with | some r => decide (r.dest = dest) | none => false
  let slot := match q.reserve with
    | some r => if r.dest = dest then r.slot.bind fun o => q.slots.find? fun h => h.holds dest && decide (h.owner = o)
        else q.slots.find? fun h => h.holds dest
    | none => q.slots.find? fun h => h.holds dest
  let mine := fun (o t : Nat) => match slot with | some h => decide (h.owner = o) && decide (t = dest) | none => false
  let s1 := s.discardTxs d fun x => match x with
    | .ring _ => true
    | .reserve _ => !fits
    | .slot _ o t => !mine o t && q.slots.any fun h => (!fits || !h.branch) && decide (h.owner = o) && decide (h.dest = t)
    | _ => false
  let s2 := { s1 with fab := s1.fab.map fun (t : FabTx) => match t.dest with
    | .reserve x => if x = d then { t with dest := FabDest.ring d } else t
    | .slot x o k => if x = d ∧ mine o k then { t with dest := FabDest.ring d } else t
    | _ => t }
  let head := match slot with | some h => h.lines | none => []
  let keep := fun (a : State) => a.setSeq d { a.seq[d] with
    tags := a.seq[d].tags.filter fun t => hasPage t.tier t.page a.seq[d].allLines }
  match q.reserve with
  | some r =>
    if r.dest = dest then
      keep (s2.setSeq d { q with ring := head ++ r.lines, plan := r.plan, reserve := none
                                 slots := (q.slots.filter (·.branch)).map fun (h : HeadSlot) => { h with branch := false } })
    else keep ((s2.setSeq d { q with ring := head, reserve := none, slots := [] }).planAfter d dest slot)
  | none => keep ((s2.setSeq d { q with ring := head, slots := [] }).planAfter d dest slot)

/-- A walk that waits for head slots goes on when one comes free (R172). -/
def State.replan (s : State) (d : Fin 12) : State :=
  match s.seq[d].plan.wait with
  | none => s
  | some (x, stack) =>
    let (s1, p) := s.walk d false walkFuel [] stack x
    s1.setSeq d { s1.seq[d] with plan := p }

/-- The slots of an entry are given back when it is left by its predicted path, whether or not their last lines have landed; `stack` is
the return stack it ran with. Kept are the slot of a registered request's destination, and those of a resident loop that needs them
again (R170, R172, R174; DESIGN CHOICE, log entry 29). -/
def State.leaveSlots (s : State) (d : Fin 12) (owner : Nat) (stack : List Nat) : State :=
  let q := s.seq[d]
  let kept := q.reserve.bind fun r => r.slot.map fun o => (o, r.dest)
  if q.plan.again.contains owner then s
  else
    let need := (offPath (s.entryAt owner) stack).filter fun t => decide (kept ≠ some (owner, t))
    let slots := need.foldl (fun l t => l.eraseP fun h => !h.branch && decide (h.owner = owner) && decide (h.dest = t)) q.slots
    (s.setSeq d { q with slots := slots }).replan d

/-- The slot that entry `x` needs for successor `t` is filled, and was so in time (R155, R188). -/
def State.slotFilled (s : State) (d : Fin 12) (x : Nat) (inTime : RLine → Bool) (t : Nat) : Bool :=
  s.seq[d].slots.any fun h =>
    !h.branch && decide (h.owner = x) && decide (h.dest = t) && decide (h.lines.length = h.left) &&
    h.lines.all fun l => l.arrived && inTime l

/-- The successors for which entry `x` needs a slot (R155, R170). -/
def State.slotNeeds (s : State) (d : Fin 12) (x : Nat) : List Nat :=
  (offPath (s.entryAt x) (s.retStack d)).filter fun t => decide ((s.entryAt t).tier ≠ 0)

/-- Every slot that the entry about to be issued requires is filled, and was so in time. -/
def State.slotsFilled (s : State) (d : Fin 12) (x : Nat) (inTime : RLine → Bool) : Bool :=
  (s.slotNeeds d x).all (s.slotFilled d x inTime)

/-! ## Fetching (R166, R183) -/

/-- A ring credit: 64 bytes of free ring space outside the branch reserve (R174, R183) and, in the ring of a WFG, outside its head slots
(R297). -/
def State.ringCredit (s : State) (d : Fin 12) : Bool :=
  decide (64 * (s.seq[d].ring.length + s.fab.countP (fun t => decide (t.dest = .dropped d)) + 1) + reserveBytes d +
    (if d.val < 8 then 0 else slotMax d * headBytes) ≤ s.ringSize d)

/-- The requester that reads a tier for a unit (R166, R297). -/
def fetchReq (d : Fin 12) (tier : Nat) : Nat := if tier = 1 then d.val else 20

/-- The tag of a streamed read (R168, R183, R297): a port's tier-2 reads hold its own share of 224 CXL.mem tags; a WFG's
use the shared remainder; tier-1 reads take a tag of the channel. -/
def State.fetchTag (s : State) (d : Fin 12) (tier : Nat) : Option Bool :=
  if tier = 1 then s.freeTag (unitChan d) d.val
  else if d.val < 8 then
    if s.fab.countP (fun t => decide (t.pool = 4) && t.dest.ofUnit d) < 224 ∧ s.reservedUsed 4 20 < reservedTags 4 20 then some false
    else none
  else if s.sharedUsed 4 < sharedTags 4 then some true else none

/-- The far half or the channel answers a request in error at once where it is not served (Table 12.2, Table 13.2). -/
def State.storeServes (s : State) (d : Fin 12) (tier addr : Nat) : Bool :=
  if tier = 1 then
    s.domainOn (32 + unitChan d) && decide (1 ≤ s.get (DMC_STATUS_state (unitChan d))) &&
      decide (s.get (DMC_STATUS_state (unitChan d)) ≤ 3)
  else
    match s.farHalf (addr - farBase) with
    | none => false
    | some h => decide (s.halfState h = 3) || decide (s.halfState h = 4)

/-- Issue the read of one line for a unit, its landing space already put aside. A line outside the tier's store is served by none. -/
def State.issueRead (s : State) (d : Fin 12) (tier addr : Nat) (dest : FabDest) (shared : Bool) : State :=
  let pool := if tier = 1 then unitChan d else 4
  let ok := decide (poolOf addr = pool) && s.storeServes d tier addr
  s.issueTx { req := fetchReq d tier, pool := pool, line := lineOf addr, write := none, shared := shared, dest := dest, at_ := s.tmb.clk
              answer := (if ok then none else some (0, false)), lost := !ok }

/-- The management address of the tag of page `page` of a port's window in a tier (R197, R198). -/
def State.tagAddr (s : State) (d : Fin 12) (tier page : Nat) : Nat :=
  (if tier = 1 then s.rn64 (PRT_STRM_TAG_NEAR_LO d) else s.rn64 (PRT_STRM_TAG_FAR_LO d)) +
    16 * ((4096 * page - s.windowAddr d tier 0) / 4096)

/-- A copy of the page stands in the landing space without its tag, and no read of it is in flight (R199). -/
def State.tagWanted (s : State) (d : Fin 12) (tier page : Nat) : Bool :=
  let q := s.seq[d]
  decide (q.tags.countP (fun t => decide (t.tier = tier) && decide (t.page = page)) + s.fab.countP (fun t => match t.dest with
    | .tag x k g _ => decide (x = d) && decide (k = tier) && decide (g = page)
    | _ => false) < pageCopies tier page q.allLines)

/-- A fetcher or the planner issues one streamed line read, if it holds landing space and a tag (R166, R172, R183). -/
def State.streamFetch (s : State) (d : Fin 12) (k : FetchKind) : State :=
  let q := s.seq[d]
  if q.zeroing || !(s.unitArmed d || s.unitRuns d) then s
  else
    match k with
    | .ring =>
      if q.plan.ended || !s.ringCredit d then s
      else
        let e := s.entryAt q.plan.entry
        match s.fetchTag d e.tier with
        | none => s
        | some sh =>
          let a := s.windowAddr d e.tier q.plan.next
          let (s1, p) := s.planStep d false q.plan
          (s1.setSeq d { s1.seq[d] with plan := p, ring := q.ring ++ [flyingLine e.tier (lineOf a) e.enc] }).issueRead
            d e.tier a (.ring d) sh
    | .slot o t =>
      match q.slots.find? fun h => decide (h.owner = o) && decide (h.dest = t) && decide (h.lines.length < h.left) with
      | none => s
      | some h =>
        let e := s.entryAt t
        match s.fetchTag d e.tier with
        | none => s
        | some sh =>
          let a := s.windowAddr d e.tier h.next
          let slots := replaceFirst (fun x => decide (x = h))
            (fun x => { x with next := x.next + 64, lines := x.lines ++ [flyingLine e.tier (lineOf a) e.enc] }) q.slots
          (s.setSeq d { q with slots := slots }).issueRead d e.tier a (.slot d o t) sh
    | .reserve =>
      match q.reserve with
      | none => s
      | some r =>
        if r.plan.ended ∨ r.left ≤ r.lines.length then s
        else
          let e := s.entryAt r.plan.entry
          match s.fetchTag d e.tier with
          | none => s
          | some sh =>
            let a := s.windowAddr d e.tier r.plan.next
            let (s1, p) := s.planStep d true r.plan
            (s1.setSeq d { s1.seq[d] with
              reserve := some { r with plan := p, lines := r.lines ++ [flyingLine e.tier (lineOf a) e.enc] } }).issueRead
              d e.tier a (.reserve d) sh
    | .tag tier addr =>
      let page := addr / 4096
      if !s.tagWanted d tier page then s
      else
        match s.fetchTag d tier with
        | none => s
        | some sh =>
          let a := s.tagAddr d tier page
          s.issueRead d tier a (.tag d tier page (a % 64)) sh

/-- The oldest read of a unit whose response has arrived lands: its tag returns, and the line becomes valid, landed, bad, or is dropped
(R29, R166, R174, R193, R199). -/
def State.streamLand (s : State) (d : Fin 12) : State :=
  let mine := fun (t : FabTx) => t.dest.ofUnit d && t.arrived
  match s.findTx mine with
  | none => s
  | some t =>
    let (data, ok) := t.answer.getD (0, false)
    let s1 := s.dropTx mine
    let land := fun (l : List RLine) => landLine t.line data ok t.lost (s.seqVec d) s.tmb.clk l
    let q := s1.seq[d]
    let s2 := match t.dest with
      | .ring _ => s1.setSeq d { q with ring := land q.ring }
      | .slot _ o x => s1.setSeq d { q with
          slots := replaceFirst (fun (h : HeadSlot) => decide (h.owner = o) && decide (h.dest = x) &&
            h.lines.any fun (l : RLine) => decide (l.addr = t.line) && decide (l.st = LineSt.flying))
            (fun (h : HeadSlot) => { h with lines := land h.lines }) q.slots }
      | .reserve _ => s1.setSeq d { q with
          reserve := q.reserve.map fun (r : Reserve) => { r with lines := land r.lines } }
      | .tag _ tier page ofs =>
        let v := if ok then some (BitVec.ofNat 128 (data.toNat >>> (8 * ofs))) else none
        if hasPage tier page q.allLines then s1.setSeq d { q with tags := q.tags ++ [({ tier := tier, page := page, value := v } : PageTag)] } else s1
      | _ => s1
    s2.showFill d

/-- What the crypto engine makes of a page that has landed (R199): its plaintext; no line of it, where its tag does not verify; or bad
lines, where the tag could not be read. -/
inductive PageEnd where
  | plain (b : List Byte)
  | failed
  | bad
  deriving DecidableEq, Repr

/-- The lines of a page after its authentication (R199). -/
def authLines (r : PageEnd) (vec now : Nat) (l : List RLine) : List RLine :=
  l.map fun x =>
    match r with
    | .failed => { x with data := 0, st := .failed }
    | .bad => { x with data := 0, st := .bad }
    | .plain b =>
      { x with data := BitVec.ofNat 512 (ofLe ((b.drop (x.addr % 4096)).take 64)), st := .valid, validAt := vec, validTb := now }

/-- A list of lines begins with a copy of the page that has landed whole. -/
def pageHere (tier page : Nat) (l : List RLine) : Bool :=
  decide ((l.take 64).length = 64) && (l.take 64).all fun x =>
    x.enc && decide (x.tier = tier) && decide (x.addr / 4096 = page) && decide (x.st = .landed)

/-- The first copy of a page that has landed whole: the lines before it, its own and those after it. -/
def findPage (tier page : Nat) : List RLine → Option (List RLine × List RLine × List RLine)
  | [] => none
  | x :: l =>
    if pageHere tier page (x :: l) then some ([], (x :: l).take 64, (x :: l).drop 64)
    else (findPage tier page l).map fun y => (x :: y.1, y.2.1, y.2.2)

/-- The landed page of a unit that the crypto engine takes next, and how its lines are put back: of the ring, of a head slot, or of the
branch reserve. -/
def SeqH.nextPage (q : SeqH) (tier page : Nat) : Option (List RLine × (List RLine → SeqH)) :=
  match findPage tier page q.ring with
  | some (a, b, c) => some (b, fun l => { q with ring := a ++ l ++ c })
  | none =>
    match q.slots.findSome? fun h => (findPage tier page h.lines).map fun y => (h, y) with
    | some (h, a, b, c) => some (b, fun l => { q with
        slots := replaceFirst (fun (x : HeadSlot) => decide (x = h)) (fun (x : HeadSlot) => { x with lines := a ++ l ++ c }) q.slots })
    | none =>
      match q.reserve with
      | none => none
      | some r => (findPage tier page r.lines).map fun y =>
          (y.2.1, fun l => { q with reserve := some { r with lines := y.1 ++ l ++ y.2.2 } })

/-- The crypto engine takes the page of a unit that holds a management address, once its ciphertext and its tag have landed, decrypts
it in place and checks the tag (R197, R199): the state, and whether the tag verified, none where nothing was checked. The failure count
of the security block is the caller's. -/
def State.pageAuth (s : State) (d : Fin 12) (tier addr : Nat) : State × Option Bool :=
  if (s.freeTag 5 21).isNone then (s, none) else
  let page := addr / 4096
  let q := s.seq[d]
  let mine := fun (t : PageTag) => decide (t.tier = tier) && decide (t.page = page)
  match q.tags.find? mine, q.nextPage tier page with
  | some t, some (l, put) =>
    let text := l.flatMap fun x => leBytes x.data.toNat 64
    let key := (s.patKey (s.get (PRT_STRM_KEY_slot d))).toNat
    let nonce := s.pageNonce d tier (4096 * page - s.windowAddr d tier 0)
    let r : PageEnd := match t.value with
      | none => .bad
      | some v => match gcmOpen key nonce [] text (leBytes v.toNat 16) with
        | some l => .plain l
        | none => .failed
    let q1 := put (authLines r (s.seqVec d) s.tmb.clk l)
    let s1 := (s.setSeq d { q1 with tags := q.tags.eraseP mine }).showFill d
    match r with
    | .plain _ => (s1, some true)
    | .bad => (s1, none)
    | .failed => (if d.val < 8 then (s1.put (PRT_STRM_STATUS_auth_fail d) 1).ev (portSrc d 14) else s1, some false)
  | _, _ => (s, none)

/-! ## The end of a run -/

/-- The unit leaves its run: its ring, slots and reserve are to be zeroed once its last read has completed (R171). -/
def State.endStream (s : State) (d : Fin 12) : State :=
  let s1 := s.discardTxs d fun _ => true
  s1.setSeq d { s1.seq[d] with
    ring := [], slots := [], reserve := none, tags := [], plan := {}, zeroing := true
    zeroSize := max (if s.seq[d].zeroing then s.seq[d].zeroSize else 0) (if d.val < 8 then s.get (PRT_STRM_RING_size d) else 0)
    inflight := [], held := none
    deadline := none, paused := false, resume := false, stopReq := false, produced := false, condMet := false
    trailMet := false, admitted := false }

/-- The bytes of the ring of a port's last run, at the top of its segment store, are zeroed (R169, R171). -/
def State.zeroRing (s : State) (d : Fin 12) : State :=
  let first := s.segStore d / 0x10000 - s.seq[d].zeroSize
  (List.range s.seq[d].zeroSize).foldl (fun (a : State) n =>
    match a.cs.sramAddr d (0x10000 * (first + n)) with
    | some x => a.zeroMem x 0x10000
    | none => a) s

/-- The zeroing completes, after the last read in flight (R171). A WFG's ring is no SRAM of the management map (R297). -/
def State.ringZeroed (s : State) (d : Fin 12) : State :=
  if s.seq[d].zeroing && !s.inFlight d then
    let s1 := if d.val < 8 then s.zeroRing d else s
    s1.setSeq d { s1.seq[d] with zeroing := false }
  else s

end Sys2Proof.Machine
end

