-- ==== Sys2Proof/Machine/Matrix.lean ====
section
/-! DEFINITION. The routing matrix (R60 to R64): levels and pulses of its sources, and what a rising edge does at each
destination of Table 2.8; with it the conditions that reach a running entry (R142): events, verdicts and host requests. -/

namespace Sys2Proof.Machine

/-! ## Conditions of a running entry -/

/-- The vector in whose issue period the present instant falls (R142, R235). In HOLD or in a relock pause no vector is in issue: the last
one issued stands for it (DESIGN CHOICE, log entry 29). -/
def State.vecInIssue (s : State) (d : Fin 12) : Nat :=
  let q := s.seq[d]
  let comp := if h : d.val < 8 then tuPerStep * s.port[(⟨d.val, h⟩ : Fin 8)].comp else 0
  if q.at_ + comp ≤ s.tmb.clk ∧ !q.paused ∧ !(decide (d.val < 8) && decide (s.get (PRT_SEQ_STATUS_state d) = 3)) then s.seqVec d
  else s.seqVec d - 1

/-- A pass of an entry with a condition for which `p` holds is in issue and has produced no request yet. -/
def State.wants (s : State) (d : Fin 12) (p : Entry → Bool) : Bool :=
  s.unitRuns d && !s.seq[d].produced && p s.seq[d].e

/-- Event input `k` of a port, or the start input of a WFG, rises: a start condition of mode 2 is met (R156, R300), and an
EVENT entry produces its request (R142, R295). A WFG notes the TB cycle of the edge (R300). -/
def State.eventRise (s : State) (d : Fin 12) (k : Nat) : State :=
  let mode := if d.val < 8 then s.get (PRT_SEQ_CTL_start_mode d) else s.get (WFG_CTL_start_mode (d - 8))
  let input := if d.val < 8 then s.get (PRT_SEQ_CTL_start_evt d) else 0
  let s0 := if h : d.val < 8 then s
    else
      let m : Fin 4 := ⟨d.val - 8, by omega⟩
      { s with wfg := s.wfg.set m { s.wfg[m] with evtAt := s.tbCycle } }
  let s1 := if s.unitArmed d && decide (mode = 2) && decide (input = k) then
      s0.setSeq d { s.seq[d] with condMet := true } else s0
  if s1.wants d fun e => decide (e.kind = .event) && decide (e.param = k) then s1.produce d (s1.vecInIssue d) else s1

/-- A host request is armed; it is produced at once where a HOST entry is in issue, and req then reads 0 (R142, R38). -/
def State.hostReq (s : State) (d : Fin 12) : State :=
  if s.wants d fun e => decide (e.kind = .host) then (s.produce d (s.vecInIssue d)).put (seqHostF d) 0
  else s.put (seqHostF d) 1

/-- A verdict arrives at a port through X9: it is latched, and used where an entry waits for it (R142). -/
def State.verdictArrives (s : State) (p : Fin 8) (site : Nat) (fail : Bool) : State :=
  let s1 := (((s.put (PRT_VERDICT_LATCH_site p) site).put (PRT_VERDICT_LATCH_fail p) (if fail then 1 else 0)).put
    (PRT_VERDICT_LATCH_valid p) 1)
  let want : Cond := if fail then .verdictFail else .verdictPass
  if s1.wants (portUnit p) fun e => decide (e.kind = want) && decide (e.param = site) then
    (s1.produce (portUnit p) (s1.vecInIssue (portUnit p))).put (PRT_VERDICT_LATCH_valid p) 0
  else s1

/-- The verdicts in X9 arrive at a port whose clocks are not gated (R215, R320). -/
def State.x9Go (s : State) (p : Fin 8) : State :=
  let st := s.get (DPL_STATUS_state (portPll p))
  if 1 ≤ st ∧ st ≤ 3 then s
  else s.port[p].x9.foldl (fun (a : State) x => a.verdictArrives p x.1 x.2) (s.setPort p { s.port[p] with x9 := [] })

/-! ## Levels -/

/-- A TB time lies ahead, and the time base runs towards it. -/
def State.ahead (s : State) (t : Nat) : Bool := s.tmb.running && decide (s.tmb.clk < t)

/-- A source is in a pulse of 2 TB cycles. -/
def State.pulseOn (s : State) (code : Nat) : Bool := s.pulses.any fun x => decide (x.1 = code) && s.ahead x.2

/-- The level of a matrix source (Table 2.7). -/
def State.srcLevel (s : State) (code : Nat) : Bool :=
  if code < 8 then bit s.evc.inActive code
  else if 0x10 ≤ code ∧ code < 0x30 then bit (s.get (PRT_MARKER_level ((code - 0x10) / 4))) (code % 4)
  else if 0x70 ≤ code ∧ code < 0x80 then bit (s.wfg[(code - 0x70) / 4 % 4]'(Nat.mod_lt _ (by decide))).mkr (code % 4)
  else if code = 0x90 then bit s.evc.inActive 16
  else s.pulseOn code

/-- A code that Table 2.7 lists (R62). -/
def srcListed (code : Nat) : Bool :=
  decide (code < 8) || (decide (0x10 ≤ code) && decide (code < 0x30)) || (decide (0x40 ≤ code) && decide (code < 0x48)) ||
  (decide (0x50 ≤ code) && decide (code < 0x80)) || decide (code = 0x90) || decide (code = 0x91) ||
  (decide (0xA0 ≤ code) && decide (code < 0xA8))

/-- Line `l` of the committed structure. -/
def State.mline (s : State) (l : Nat) : MLine := s.cs.lines.getD l {}

/-- The quadrant of a matrix source (Table 2.7); none for the global ones. -/
def srcQuadrant (code : Nat) : Option Nat :=
  if 0x10 ≤ code ∧ code < 0x30 then some ((code - 0x10) / 8)
  else if 0x40 ≤ code ∧ code < 0x48 then some ((code - 0x40) / 2)
  else if 0x50 ≤ code ∧ code < 0x70 then some ((code - 0x50) / 8)
  else if 0x70 ≤ code ∧ code < 0x80 then some ((code - 0x70) / 4)
  else none

/-- A line is enabled, and no quadrant load holds it inactive (R60, R78). -/
def State.lineOn (s : State) (l : Nat) : Bool :=
  (s.mline l).enable && match s.lineHold with
    | none => true
    | some q => !(decide (l / 16 = q) || decide (srcQuadrant (s.mline l).source = some q))

/-- The level a line presents (R60). -/
def State.lineLevel (s : State) (l : Nat) : Bool :=
  s.lineOn l && Bool.xor (s.srcLevel (s.mline l).source) (s.mline l).invert

/-- The level at a destination: inactive where it is disabled. -/
def State.destLevel (s : State) (dst : Nat) : Bool :=
  let x := s.cs.dests.getD dst {}
  x.enable && s.lineLevel x.line

/-- The pulse stretcher of a crossing into PD domain `p` holds a sticky level until TB time `t`, or for as long as the clocks are gated:
the destination samples nothing then (R60). -/
def State.held (s : State) (p : Fin 8) (t : Nat) : Bool :=
  s.ahead t || (decide (t ≠ 0) && decide (s.dpl[portPll p].acqAt < t) && decide (1 ≤ s.get (DPL_STATUS_state (portPll p))) &&
    decide (s.get (DPL_STATUS_state (portPll p)) ≤ 3))

/-- Until when a sticky level that is set now stays: 2 PD cycles. -/
def State.stickyEnd (s : State) (p : Fin 8) : Nat := s.tmb.clk + 2 * s.mOf p * (s.portRate p).periodTu

/-- Event input `k` of a port is active at the port: the line is, or the pulse stretcher still holds it (R60). -/
def State.evtActive (s : State) (p : Fin 8) (k : Nat) : Bool :=
  s.destLevel (4 * p + k) || s.held p (s.port[p].evtSticky.getD k 0)

/-- The clocks of a port's domain are back: its stretchers, and those of the engines bound to it, let go 2 PD cycles from now at the
earliest (R60). -/
def State.stickyGo (s : State) (p : Fin 8) : State :=
  let f := fun (t : Nat) => if s.dpl[portPll p].acqAt < t then s.stickyEnd p else t
  let s1 := s.setPort p { s.port[p] with evtSticky := s.port[p].evtSticky.map f }
  (List.finRange 8).foldl (fun (a : State) (e : Fin 8) =>
    if a.cs.acqPort.getD e 0 = p.val then { a with acq := a.acq.set e { a.acq[e] with trgSticky := a.acq[e].trgSticky.map f } } else a) s1

/-- A rising edge at a destination (Table 2.8, R60). In a PD domain it sets a sticky level, or merges into the one that is active. -/
def State.destRise (s : State) (dst : Nat) : State :=
  if h : dst < 32 then
    let p : Fin 8 := ⟨dst / 4, by omega⟩
    if s.held p (s.port[p].evtSticky.getD (dst % 4) 0) then s
    else
      let s1 := s.setPort p { s.port[p] with evtSticky := s.port[p].evtSticky.set (dst % 4) (s.stickyEnd p) }
      s1.eventRise (portUnit p) (dst % 4)
  else if h2 : dst < 48 then
    let e : Fin 8 := ⟨(dst - 32) / 2, by omega⟩
    let p : Fin 8 := Fin.ofNat 8 (s.cs.acqPort.getD e 0)
    let st := s.get (ACQ_STATUS_state e)
    let x := s.acq[e]
    if s.held p (x.trgSticky.getD (dst % 2) 0) then s
    else
      { s with acq := s.acq.set e { x with
          trgSticky := x.trgSticky.set (dst % 2) (s.stickyEnd p)
          latch := if 1 ≤ st ∧ st ≤ 3 then x.latch ||| 2 ^ (1 + dst % 2) else x.latch } }
  else if h3 : dst < 80 then
    let t : Fin 32 := ⟨dst - 48, by omega⟩
    if s.get (TIM_STATUS_state t) = 2 ∧ s.on (TIM_CTL_arm_src t) then
      { s with tim := s.tim.set t { s.tim[t] with met := true } }
    else s
  else if h4 : dst < 84 then s.eventRise (wfgUnit ⟨dst - 80, by omega⟩) 0
  else if dst < 88 then s.pdacGroup (dst - 84) true
  else s

/-- A rising edge at every destination that takes an enabled line of which `p` holds. -/
def State.riseWhere (s : State) (p : MLine → Bool) : State :=
  (List.range 96).foldl (fun (a : State) dst =>
    let x := s.cs.dests.getD dst {}
    let l := s.mline x.line
    if x.enable && a.lineOn x.line && p l then a.destRise dst else a) s

/-- A source pulses for 2 TB cycles: the line rises, at the start of the pulse or, where it is inverted, at its end. A source that is
active already stays so for 2 more cycles, with no new edge (R60, R275). -/
def State.pulse (s : State) (code : Nat) : State :=
  let s1 := { s with pulses := (code, s.tmb.clk + 2 * tuPerNs) :: s.pulses.filter fun x => decide (x.1 ≠ code) && s.ahead x.2 }
  if s.pulseOn code then s1 else s1.riseWhere fun l => decide (l.source = code)

/-- A source has changed to a level. -/
def State.levelTo (s : State) (code : Nat) (level : Bool) : State :=
  s.riseWhere fun l => decide (l.source = code) && Bool.xor level l.invert

/-- Set the level of marker `k` of a port, and tell the matrix (R130). -/
def State.setMarker (s : State) (p : Fin 8) (k : Nat) (level : Bool) : State :=
  let old := bit (s.get (PRT_MARKER_level p)) k
  if old = level then s
  else
    let s1 := s.put (PRT_MARKER_level p)
      (if level then s.get (PRT_MARKER_level p) ||| 2 ^ k else s.get (PRT_MARKER_level p) - 2 ^ k)
    s1.levelTo (0x10 + 4 * p + k) level

/-- The levels at the destinations. -/
def State.destLevels (s : State) : List Bool := (List.range 96).map s.destLevel

/-- The lines or their selection have changed: a destination whose level was inactive and is active now sees a rising edge. -/
def State.settleDests (s : State) (old : List Bool) : State :=
  (List.range 96).foldl (fun (a : State) dst => if !old.getD dst false && s.destLevel dst then a.destRise dst else a) s

/-- Software strobes pulse the sources of the bits set (STC_SWSTROBE). -/
def State.swStrobe (s : State) (v : Nat) : State :=
  (List.range 8).foldl (fun (a : State) k => if bit v k then a.pulse (0xA0 + k) else a) s

end Sys2Proof.Machine
end

