-- ==== Sys2Proof/Machine/Acq.lean ====
section
/-! DEFINITION. The acquisition engines (chapter 07): words, resampling, triggers, segments, staging, the drain ring and
arming. The samples also stand in the bytes of the share, one container after the other from its start (DESIGN CHOICE, log entry 8); the
drain moves data out of it as long as the drain ring has room (log entry 9). -/

namespace Sys2Proof.Machine

def State.setAcq (s : State) (e : Fin 8) (x : AcqH) : State := { s with acq := s.acq.set e x }

/-- Source `j` of engine `e` (Table 7.16). -/
def acqSrc (e : Fin 8) (j : Nat) : Nat := 64 * (e / 2) + 32 + 8 * (e % 2) + j

/-- The engine is in WAIT, POST or REARM. -/
def State.acqRuns (s : State) (e : Fin 8) : Bool :=
  decide (1 ≤ s.get (ACQ_STATUS_state e)) && decide (s.get (ACQ_STATUS_state e) ≤ 3)

/-- The port an engine is bound to. -/
def State.acqPortOf (s : State) (e : Fin 8) : Nat := s.cs.acqPort.getD e 0

/-- w (Table 7.10). -/
def State.acqWidth (s : State) (e : Fin 8) : Nat :=
  let w := s.get (ACQ_SRC_width e)
  if 1 ≤ w ∧ w ≤ 32 then w else 32

/-- log2 of the bytes of a container (R258). -/
def State.acqCont (s : State) (e : Fin 8) : Nat :=
  if s.acqWidth e ≤ 8 then 0 else if s.acqWidth e ≤ 16 then 1 else 2

/-- The value of a word (R244). -/
def State.acqValue (s : State) (e : Fin 8) (word : Nat) : Int :=
  let w := s.acqWidth e
  if s.on (ACQ_SRC_signed e) then toSigned w word else (word % 2 ^ w : Nat)

/-- The drain ring in units of 64 bytes (Table 7.15) and its free units. -/
def State.drainSize (s : State) (e : Fin 8) : Nat := (s.cs.acqWin e).size * (nearUnit / 64)
def State.drainUsed (s : State) (e : Fin 8) : Nat :=
  (s.rn (ACQ_DRAIN_WR e) + 2 ^ 32 - s.rn (ACQ_DRAIN_RD e)) % 2 ^ 32
def State.drainFree (s : State) (e : Fin 8) : Nat :=
  if s.on (DMC_STATUS_frozen (e / 2)) then 0 else s.drainSize e - s.drainUsed e

/-- The units that waiting records and the open segment still need in the drain ring. -/
def AcqH.pendingUnits (h : AcqH) (cont : Nat) : Nat :=
  (h.recs.map fun r => r.bytes.length / 64).sum +
    match h.seg with
    | none => 0
    | some g => 1 + ceilDiv ((g.pre.length + g.data.length) * 2 ^ cont) 64 + g.spans.length

/-- Bytes held in the share: the history, and what the drain ring has no room for (R258, R263). -/
def State.stagedBytes (s : State) (e : Fin 8) : Nat :=
  let h := s.acq[e]
  2 ^ s.acqCont e * min h.hist.length (s.get (ACQ_SEG_PRE_pre e)) + 64 * (h.pendingUnits (s.acqCont e) - s.drainFree e)

/-- Free bytes of the share (Table 7.14). -/
def State.stagingFree (s : State) (e : Fin 8) : Nat := 0x10000 * s.get (ACQ_STG_CFG_size e) - s.stagedBytes e

/-- The entries of the record queue that are taken: those of the records that wait, of the open segment with its gap records, and of an
open span between segments (R263). -/
def AcqH.entries (h : AcqH) : Nat :=
  (h.recs.map (·.entries)).sum + (match h.seg with | none => 0 | some g => 1 + g.spans.length) + (if h.span.isSome then 1 else 0)

/-- Why a sample cannot be written now: none, or the cause of a gap record (R262, R263, Table 7.5). Of the 64 entries the last is kept
for a gap record. -/
def State.acqBlocked (s : State) (e : Fin 8) : Option Nat :=
  if s.stagingFree e < 2 ^ s.acqCont e then some 0
  else if 63 ≤ s.acq[e].entries then some 1
  else none

/-- The management address of byte `k` of the share of an engine (R258). -/
def State.shareAddr (s : State) (e : Fin 8) (k : Nat) : Option Nat :=
  s.cs.sramAddr 0x10 (0x10000 * s.get (ACQ_STG_CFG_base e) + k)

/-- A sample is written into the share, in its container (R258). -/
def State.stage (s : State) (e : Fin 8) (v : Int) : State :=
  let n := 2 ^ s.acqCont e
  let h := s.acq[e]
  let s1 := s.setAcq e { h with stgPos := h.stgPos + 1 }
  match s.shareAddr e (n * h.stgPos % max n (0x10000 * s.get (ACQ_STG_CFG_size e))) with
  | none => s1
  | some a => s1.setBytes a (leBytes (ofSigned (8 * n) v) n)

/-- Raise or lower staging panic (R264). -/
def State.acqPanic (s : State) (e : Fin 8) : State :=
  let level := 0x10000 * s.get (ACQ_STG_PANIC_level e)
  let free := s.stagingFree e
  let s1 := s.put (ACQ_STG_FREE_bytes e) free
  if !s.on (ACQ_STATUS_panic e) && decide (free < level) && s.acqRuns e then
    (s1.put (ACQ_STATUS_panic e) 1).ev (acqSrc e 6)
  else if s.on (ACQ_STATUS_panic e) && decide (level + 0x20000 ≤ free) then s1.put (ACQ_STATUS_panic e) 0
  else s1

/-! ## Records (Tables 7.4 and 7.5) -/

/-- Bytes padded with zeros to a multiple of 64. -/
def pad64 (l : List Byte) : List Byte := l ++ List.replicate ((64 - l.length % 64) % 64) 0

/-- A gap record. -/
def gapBytes (e port segIndex : Nat) (standalone : Bool) (g : GapSpan) (recSeq : Nat) : List Byte :=
  leBytes 2 1 ++ leBytes g.cause 1 ++ leBytes 0 1 ++ leBytes (if standalone then 0 else 1) 1 ++ leBytes e 1 ++
  leBytes port 1 ++ leBytes 0 2 ++ leBytes (if standalone then 0xFFFFFFFF else segIndex) 4 ++ leBytes g.first.ep 2 ++
  leBytes g.last.ep 2 ++ leBytes g.first.ts 8 ++ leBytes g.last.ts 8 ++
  leBytes (if standalone then 0 else g.index) 4 ++ leBytes g.count 4 ++ leBytes 0 20 ++ leBytes recSeq 4

/-- A segment header. -/
def segBytes (e port w cont run segIndex endCode : Nat) (g : OpenSeg) (dataBytes recSeq : Nat) : List Byte :=
  leBytes 1 1 ++ leBytes g.mask 1 ++ leBytes g.primary 1 ++
  leBytes (endCode + (if g.spans = [] then 0 else 4) + (if g.missed < 0xFFFFFFFF then 0 else 8)) 1 ++ leBytes e 1 ++
  leBytes port 1 ++ leBytes w 1 ++ leBytes cont 1 ++ leBytes segIndex 4 ++ leBytes g.frac 2 ++ leBytes g.s.ep 2 ++
  leBytes g.s.ts 8 ++ leBytes g.pre.length 4 ++ leBytes g.post 4 ++ leBytes g.missed 4 ++ leBytes g.missedEp 2 ++
  leBytes (min g.spans.length 0xFFFF) 2 ++ leBytes g.missedTs 8 ++ leBytes g.dropped 4 ++ leBytes dataBytes 4 ++
  leBytes run 2 ++ leBytes 0 2 ++ leBytes recSeq 4

/-- Gap records with rising record numbers. -/
def gapList (e port segIndex : Nat) : Nat → List GapSpan → List Byte
  | _, [] => []
  | n, g :: l => gapBytes e port segIndex false g n ++ gapList e port segIndex (n + 1) l

/-- A standalone span closes: its record is queued (R262). -/
def State.closeSpan (s : State) (e : Fin 8) : State :=
  let h := s.acq[e]
  match h.span with
  | none => s
  | some g =>
    let r : AcqRec := { bytes := gapBytes e (s.acqPortOf e) 0 true g h.recSeq, entries := 1, isSeg := false, last := false }
    (s.setAcq e { h with span := none, recs := h.recs ++ [r], recSeq := (h.recSeq + 1) % 2 ^ 32 }).count (ACQ_GAP_CNT e)

/-- A sample is dropped: it is counted, and opens or extends a span (R262). -/
def dropInto (g : Option GapSpan) (cause index : Nat) (x : Smp) : GapSpan :=
  match g with
  | none => { cause := cause, first := x, last := x, index := index, count := 1 }
  | some y => { y with last := x, count := y.count + 1 }

def State.dropped (s : State) (e : Fin 8) (opens : Bool) : State :=
  ((s.count (ACQ_DROPPED e)).put (ACQ_STATUS_gap e) 1).evIf opens (acqSrc e 2)

/-! ## Segments -/

/-- The open segment closes (R253): its record is queued, and the run goes to REARM or DONE (end 0), or as `st` says. -/
def State.closeSeg (s : State) (e : Fin 8) (endCode : Nat) (lastT : Nat) : State :=
  let h := s.acq[e]
  match h.seg with
  | none => s
  | some g =>
    let cont := s.acqCont e
    let data := pad64 ((g.pre ++ g.data).flatMap fun v => leBytes (ofSigned (8 * 2 ^ cont) v) (2 ^ cont))
    let port := s.acqPortOf e
    let hd := segBytes e port (s.acqWidth e) cont (s.get (ACQ_RUN_run e)) h.segIdx endCode g data.length h.recSeq
    let gaps := gapList e port h.segIdx ((h.recSeq + 1) % 2 ^ 32) g.spans
    let last := decide (s.get (ACQ_SEG_COUNT_count e) ≤ h.segIdx + 1) && decide (endCode = 0)
    let r : AcqRec := { bytes := hd ++ data ++ gaps, entries := 1 + g.spans.length, isSeg := true, last := last }
    let s1 := (s.setAcq e { h with
      seg := none, segIdx := h.segIdx + 1, hist := [], lastHeld := true, recs := h.recs ++ [r]
      recSeq := (h.recSeq + 1 + g.spans.length) % 2 ^ 32, rearm := 0, lastPost := lastT }).count (ACQ_GAP_CNT e)
      g.spans.length
    if endCode ≠ 0 then s1
    else if last then ((s1.put (ACQ_STATUS_state e) 4).put (ACQ_STATUS_end e) 1).put (ACQ_CTL_arm e) 0
    else s1.put (ACQ_STATUS_state e) 3

/-- Write bytes into the drain ring from unit `u`, wrapping at its end (R259). -/
def State.drainWrite (s : State) (e : Fin 8) (u : Nat) (l : List Byte) : State :=
  let w := s.cs.acqWin e
  let base := nearBase (e / 2) + nearUnit * w.base
  let at_ := 64 * (u % max 1 (s.drainSize e))
  let room := 64 * s.drainSize e - at_
  (s.setBytes (base + at_) (l.take room)).setBytes base (l.drop room)

/-- The management address of the next unit of the drain ring. -/
def State.drainAddr (s : State) (e : Fin 8) : Nat :=
  nearBase (e / 2) + nearUnit * (s.cs.acqWin e).base + 64 * (s.rn (ACQ_DRAIN_WR e) % max 1 (s.drainSize e))

/-- The writer of an engine, requester 12 + e, can read staging and write a line of its channel now (R29, R264). -/
def State.writerGo (s : State) (e : Fin 8) (a : Nat) : Bool :=
  (s.freeTag 5 (12 + e)).isSome && s.mayMove (12 + e) a 64

/-- The whole units of the open segment's data go into the ring behind the unit of its header, as far as the ring has room (R259). -/
def State.drainSeg (s : State) (e : Fin 8) : State :=
  let h := s.acq[e]
  match h.seg with
  | none => s
  | some g =>
    let n := 2 ^ s.acqCont e
    let behind := (h.recs.map fun r => r.bytes.length / 64).sum + 1
    let units := min ((g.pre.length + g.data.length) * n / 64) (s.drainFree e - behind)
    let u := s.rn (ACQ_DRAIN_WR e) + behind + g.sent
    let a := nearBase (e / 2) + nearUnit * (s.cs.acqWin e).base + 64 * (u % max 1 (s.drainSize e))
    if units ≤ g.sent || !s.writerGo e a then s
    else
      let bytes := (((g.pre ++ g.data).drop (64 * g.sent / n)).take (64 * (units - g.sent) / n)).flatMap fun v => leBytes (ofSigned (8 * n) v) n
      (s.setAcq e { h with seg := some { g with sent := units } }).drainWrite e u bytes

/-- A sample of the open segment is taken (R253, R262). -/
def State.segTake (s : State) (e : Fin 8) (x : Smp) (cause : Option Nat) : State :=
  let h := s.acq[e]
  match h.seg with
  | none => s
  | some g =>
    let s1 := match cause with
      | none => ((s.setAcq e { h with
          lastHeld := true, seg := some { g with post := g.post + 1, data := g.data ++ [x.v], spanOpen := false } }).stage e
            x.v).drainSeg e
      | some c =>
        let spans := if g.spanOpen then g.spans.dropLast ++ [dropInto g.spans.getLast? c 0 x]
          else g.spans ++ [dropInto none c (g.pre.length + g.post) x]
        (s.setAcq e { h with lastHeld := false, seg := some { g with
          post := g.post + 1, dropped := g.dropped + 1, spans := spans, spanOpen := true } }).dropped e (!g.spanOpen)
    if s.rn (ACQ_SEG_POST e) ≤ g.post + 1 then s1.closeSeg e 0 x.t else s1

/-- A sample outside a segment goes to the history (R254, R258, R262). -/
def State.addHist (s : State) (e : Fin 8) (x : Smp) : State :=
  match s.acqBlocked e with
  | none =>
    let s1 := (s.closeSpan e).stage e x.v
    let h := s1.acq[e]
    s1.setAcq e { h with hist := (x :: h.hist).take (s.get (ACQ_SEG_PRE_pre e) + 1), lastHeld := true }
  | some c =>
    let h := s.acq[e]
    (s.setAcq e { h with hist := [], lastHeld := false, span := some (dropInto h.span c 0 x) }).dropped e h.span.isNone

/-- REARM counts a sample; it ends after 16 samples and 64 ns (R255). -/
def State.rearmTake (s : State) (e : Fin 8) (x : Smp) : State :=
  let s1 := s.addHist e x
  let h := s1.acq[e]
  let s2 := s1.setAcq e { h with rearm := h.rearm + 1 }
  if 16 ≤ h.rearm + 1 ∧ h.lastPost + 64 * tuPerNs ≤ x.t then s2.put (ACQ_STATUS_state e) 1 else s2

/-- A trigger is missed (R256). -/
def State.missTrigger (s : State) (e : Fin 8) (at_ : Smp) : State :=
  let h := s.acq[e]
  let s1 := s.setAcq e { h with
    missed := min (h.missed + 1) 0xFFFFFFFF
    missedTs := if h.missed = 0 then at_.ts else h.missedTs, missedEp := if h.missed = 0 then at_.ep else h.missedEp }
  (((s1.count (ACQ_MISSED e)).put (ACQ_STATUS_missed e) 1)).evIf (decide (h.missed = 0)) (acqSrc e 5)

/-- A trigger opens a segment at sample `at_` (R252, R254); `pre` are the samples before it, newest first. -/
def State.openSeg (s : State) (e : Fin 8) (at_ : Smp) (mask primary frac : Nat) (pre : List Smp) : State :=
  let s0 := s.closeSpan e
  let h := s0.acq[e]
  let g : OpenSeg := {
    s := at_, mask := mask, primary := primary, frac := frac
    pre := ((pre.take (s.get (ACQ_SEG_PRE_pre e))).map (·.v)).reverse
    post := 0, dropped := 0, data := [], spans := [], spanOpen := false
    missed := h.missed, missedTs := h.missedTs, missedEp := h.missedEp }
  let s1 := (s0.setAcq e { h with seg := some g, hist := [], missed := 0, missedTs := 0, missedEp := 0 }).put
    (ACQ_STATUS_state e) 2
  ((s1.wn64 (ACQ_TRIG_TS_LO e) at_.ts).put (ACQ_TRIG_EP_epoch e) at_.ep).pulse (0x40 + e)

/-! ## Triggers -/

/-- The interpolant at u = k / 1024 is at or above L (R249). -/
def aboveAt (cubic : Bool) (x0 x1 x2 x3 L : Int) (k : Int) : Bool :=
  if cubic then
    decide (2147483648 * L ≤ 2147483648 * x1 + 1048576 * (x2 - x0) * k + 1024 * (2 * x0 - 5 * x1 + 4 * x2 - x3) * k * k +
      (-x0 + 3 * x1 - 3 * x2 + x3) * k * k * k)
  else decide (1024 * L ≤ 1024 * x1 + (x2 - x1) * k)

/-- Ten steps of the bisection of R249. -/
def bisect (f : Int → Bool) : Nat → Nat → Nat → Nat
  | 0, _, hi => hi
  | n + 1, lo, hi => if f (((lo + hi) / 2 : Nat) : Int) then bisect f n lo ((lo + hi) / 2) else bisect f n ((lo + hi) / 2) hi

/-- The place of a level trigger (R249): at the sample before (true) with its fraction, or at the sample itself. -/
def crossing (cubic falling : Bool) (x0 x1 x2 x3 L : Int) : Bool × Nat :=
  let sgn : Int := if falling then -1 else 1
  let hi := bisect (aboveAt cubic (sgn * x0) (sgn * x1) (sgn * x2) (sgn * x3) (sgn * L)) 10 0 1024
  if hi = 1024 then (false, 0) else (true, hi)

/-- The lowest-numbered source of a mask (R251). -/
def primaryOf (mask : Nat) : Nat := if bit mask 0 then 0 else if bit mask 1 then 1 else if bit mask 2 then 2 else 3

/-- The sample `x` before the one that fires a trigger was dropped and belongs to the new segment (R249, R262): it leaves the span between
segments for a span of the segment, and is counted no second time. -/
def State.segAdopt (s : State) (e : Fin 8) (x : Smp) (cause : Nat) (opens : Bool) : State :=
  let h := s.acq[e]
  match h.seg with
  | none => s
  | some g =>
    let y := dropInto none cause g.pre.length x
    let s1 := (s.setAcq e { h with lastHeld := false, seg := some { g with
      post := g.post + 1, dropped := g.dropped + 1, spans := g.spans ++ [y], spanOpen := true } }).evIf opens (acqSrc e 2)
    if s.rn (ACQ_SEG_POST e) ≤ g.post + 1 then s1.closeSeg e 0 x.t else s1

/-- The last sample of the open span between segments is taken out of it. -/
def GapSpan.shrink (g : GapSpan) (last : Smp) : Option GapSpan :=
  if g.count ≤ 1 then none else some { g with count := g.count - 1, last := last }

/-- Take output sample `x` with the triggers that register in it (R253 to R257); `look` is the next value, for a cubic
search. -/
def State.acqTake (s : State) (e : Fin 8) (x : Smp) (mask : Nat) (falling : Bool) (look : Int) : State :=
  let h := s.acq[e]
  let prim := primaryOf mask
  let place := if prim = 0 ∧ s.get (ACQ_SRC_source e) = 0 then
      match h.out with
      | [] => (false, 0)
      | x1 :: l =>
        crossing (s.on (ACQ_TRIG_CTL_interp e)) falling ((l.head?.getD x1).v) x1.v x.v look
          (toSigned 32 (s.rn (ACQ_TRIG_LEVEL e)))
    else (false, 0)
  let at_ := if place.1 then h.out.head?.getD x else x
  let s1 := match s.get (ACQ_STATUS_state e) with
    | 1 =>
      if mask = 0 then s.addHist e x
      else if place.1 then
        let rest := h.span.bind fun g => g.shrink ((h.out.drop 1).head?.getD at_)
        let s3 := if h.lastHeld then (s.openSeg e at_ mask prim place.2 (h.hist.drop 1)).segTake e at_ none
          else
            ((s.setAcq e { h with span := rest }).openSeg e at_ mask prim place.2 []).segAdopt e at_
              (match h.span with | some g => g.cause | none => 0) rest.isSome
        if s3.get (ACQ_STATUS_state e) = 2 then s3.segTake e x (s3.acqBlocked e)
        else if s3.get (ACQ_STATUS_state e) = 3 then s3.rearmTake e x
        else s3
      else
        let s2 := s.openSeg e at_ mask prim place.2 h.hist
        s2.segTake e x (s2.acqBlocked e)
    | 2 =>
      let s2 := if mask = 0 then s else s.missTrigger e at_
      s2.segTake e x (s2.acqBlocked e)
    | 3 => (if mask = 0 then s else s.missTrigger e at_).rearmTake e x
    | _ => s
  (s1.setAcq e { s1.acq[e] with out := x :: h.out.take 2 }).acqPanic e

/-- Resolve a cubic trigger that waits for the next sample (R249). Where the run ends first, it does not register, and another that
registered in its sample is missed (R260). -/
def State.acqResolve (s : State) (e : Fin 8) (look : Option Int) : State :=
  match s.acq[e].cubic with
  | none => s
  | some c =>
    let s1 := s.setAcq e { s.acq[e] with cubic := none }
    match look with
    | some v => s1.acqTake e c.x c.mask c.falling v
    | none => (if c.mask / 2 = 0 then s1 else s1.missTrigger e c.x).acqTake e c.x 0 c.falling 0

/-- An output sample enters the detectors and the segment logic (R247, R248). -/
def State.acqOutput (s : State) (e : Fin 8) (x : Smp) : State :=
  if !s.acqRuns e then s
  else
    let s1 := s.acqResolve e (some x.v)
    if !s1.acqRuns e then s1
    else
      let h := s1.acq[e]
      let L := toSigned 32 (s.rn (ACQ_TRIG_LEVEL e))
      let H := toSigned 32 (s.rn (ACQ_TRIG_HYST e))
      let up := h.primedUp && decide (L ≤ x.v)
      let down := h.primedDown && decide (x.v ≤ L)
      let dir := s.get (ACQ_TRIG_CTL_dir e)
      let level := s.on (ACQ_TRIG_CTL_level_en e) && ((up && decide (dir ≠ 1)) || (down && decide (dir ≠ 0)))
      let falling := !(up && decide (dir ≠ 1))
      let mask := (if level then 1 else 0) + (if bit h.latch 1 && s.on (ACQ_TRIG_CTL_in0_en e) then 2 else 0) +
        (if bit h.latch 2 && s.on (ACQ_TRIG_CTL_in1_en e) then 4 else 0) + (if bit h.latch 3 then 8 else 0)
      let s2 := s1.setAcq e { h with
        latch := 0, primedUp := (h.primedUp && !up) || decide (x.v < L - H)
        primedDown := (h.primedDown && !down) || decide (L + H < x.v) }
      if level && s.on (ACQ_TRIG_CTL_interp e) && decide (s.get (ACQ_SRC_source e) = 0) then
        s2.setAcq e { s2.acq[e] with cubic := some { x := x, mask := mask, falling := falling } }
      else s2.acqTake e x mask falling 0

/-! ## Resampling (R245, R246) -/

/-- ρ of an engine. -/
def State.acqRho (s : State) (e : Fin 8) : Nat :=
  s.rn (ACQ_RS_RATIO_LO e) + 2 ^ 32 * s.get (ACQ_RS_RATIO_HI_ratio e)

/-- The least and greatest value of a word (R244). -/
def State.acqRange (s : State) (e : Fin 8) : Int × Int :=
  let w := s.acqWidth e
  if s.on (ACQ_SRC_signed e) then (-(2 ^ (w - 1) : Int), 2 ^ (w - 1) - 1) else (0, 2 ^ w - 1)

def clampInt (lo hi x : Int) : Int := if x < lo then lo else if hi < x then hi else x

/-- An arithmetic shift right by 16 of a sum with half added: nearest, ties up. -/
def round16 (x : Int) : Int := (x + 32768) / 65536

/-- The instant `n` / `d` of the way from one sample to another, exact, in whole units below (R246). -/
def between (a b : Smp) (n d : Nat) : Nat :=
  let x := (a.t * a.frac.2 + a.frac.1) * b.frac.2
  let y := (b.t * b.frac.2 + b.frac.1) * a.frac.2
  (x * (d - n) + y * n) / (a.frac.2 * b.frac.2 * d)

/-- An input sample is taken: it is an output sample, or enters the resampler (R245). -/
def State.acqInput (s : State) (e : Fin 8) (v : Int) (t : Nat) (frac : Nat × Nat) : State :=
  let x : Smp := { v := v, t := t, ts := s.stampAt t, ep := s.epochAt t, frac := frac }
  let h := s.acq[e]
  if !s.on (ACQ_RS_CTL_en e) then s.acqOutput e x
  else
    let input := (x :: h.input).take 64
    let rho := s.acqRho e
    let acc := h.acc + rho
    if acc < 2 ^ 48 ∨ rho = 0 then s.setAcq e { h with input := input, m := h.m + 1, acc := acc % 2 ^ 48 }
    else
      let r := acc - 2 ^ 48
      let s1 := s.setAcq e { h with input := input, m := h.m + 1, acc := r }
      if h.m < 32 then s1
      else
        let p := 64 * r / rho
        let sum := ((List.range 32).map fun k =>
          toSigned 18 (s.get (ACQ_RS_COEF_coef e (32 * p + k))) * (input.getD (31 - k) x).v).foldl (· + ·) 0
        let y := clampInt (s.acqRange e).1 (s.acqRange e).2 (round16 sum)
        let num := 64 * rho * h.m - 64 * r - s.get (ACQ_RS_CTL_delay e) * rho
        let k := num / (64 * rho)
        let rem := num % (64 * rho)
        let a := input.getD (h.m - k) x
        let b := input.getD (h.m - k - 1) x
        let t2 := between a b rem (64 * rho)
        s1.acqOutput e { v := y, t := t2, ts := s.stampAt t2, ep := s.epochAt t2 }

/-- A capture vector of the bound port (R240, R242): `bits` is the raw word, `t` the start of its issue period. -/
def State.acqCapture (s : State) (e : Fin 8) (bits : Nat) (t : Nat) (frac : Nat × Nat) : State :=
  if !s.acqRuns e ∨ s.get (ACQ_SRC_source e) ≠ 0 then s
  else
    let k := max 1 (s.get (ACQ_SRC_decim e))
    let n := s.acq[e].capCount
    let s1 := s.setAcq e { s.acq[e] with capCount := n + 1 }
    if n % k = 0 then s1.acqInput e (s.acqValue e bits) t frac else s1

/-- The bound port of an engine issues a vector in which it captures (R243). -/
def State.acqListens (s : State) (e : Fin 8) : Bool :=
  let n := s.acqPortOf e
  if h : n < 8 then
    let d : Fin 12 := ⟨n, by omega⟩
    decide (s.get (PRT_SEQ_STATUS_state n) = 2) && !s.seq[d].paused && s.seq[d].e.capture && !s.seq[d].e.secret
  else false

/-- A TIM result reaches the engine from X6 (R243). -/
def State.acqTimResult (s : State) (e : Fin 8) (word : Nat) : State :=
  if s.get (ACQ_SRC_source e) ≠ 1 then s
  else if s.acqRuns e && s.acqListens e then
    let w := if s.on (ACQ_SRC_tim_half e) then word / 2 ^ 32 % 2 ^ 32 else word % 2 ^ 32
    s.acqInput e (s.acqValue e w) (s.port[(Fin.ofNat 8 (s.acqPortOf e))]).vecAt (0, 1)
  else s.count (ACQ_TIM_DISCARD e)

/-- The results of one vector in X6, in ascending channel order. -/
def byChannel (l : List (Nat × Nat)) : List (Nat × Nat) := (List.range 32).flatMap fun k => l.filter fun x => decide (x.1 = k)

/-- X6 of an engine runs empty: the results that arrived in the vector that ends are taken (R243). -/
def State.flushX6 (s : State) (e : Fin 8) : State :=
  (byChannel s.acq[e].x6).foldl (fun (a : State) x => a.acqTimResult e x.2) (s.setAcq e { s.acq[e] with x6 := [] })

/-- X6 of every engine bound to a port. -/
def State.flushPort (s : State) (p : Fin 8) : State :=
  (List.finRange 8).foldl (fun (a : State) (e : Fin 8) =>
    if a.acqPortOf e = p.val ∧ a.acq[e].x6 ≠ [] then a.flushX6 e else a) s

/-- A TIM result enters X6, which holds 32 (R22, R284): it stays there while its engine's port issues the vector in which it came, or has no
clocks; false where X6 is full. -/
def State.pushX6 (s : State) (e : Fin 8) (t word : Nat) : State × Bool :=
  let h := s.acq[e]
  let d := s.acqPortOf e
  if 32 ≤ h.x6.length then (s, false)
  else
    let s1 := s.setAcq e { h with x6 := h.x6 ++ [(t, word)] }
    let st := s.get (DPL_STATUS_state d)
    (if s.acqListens e || (decide (1 ≤ st) && decide (st ≤ 3)) then s1 else s1.flushX6 e, true)

/-! ## Arming, stopping, publication -/

/-- The shares of two engines overlap. -/
def State.sharesMeet (s : State) (a b : Fin 8) : Bool :=
  let x := s.get (ACQ_STG_CFG_base a)
  let y := s.get (ACQ_STG_CFG_base b)
  decide (x < y + s.get (ACQ_STG_CFG_size b)) && decide (y < x + s.get (ACQ_STG_CFG_size a))

/-- The first failing check of Table 7.6; 1 where all pass. -/
def State.acqArmCode (s : State) (e : Fin 8) : Nat :=
  let cont := 2 ^ s.acqCont e
  let npre := s.get (ACQ_SEG_PRE_pre e)
  let npost := s.rn (ACQ_SEG_POST e)
  let size := s.get (ACQ_STG_CFG_size e)
  let units := 32 * (s.cs.banks 0x10).length
  let n := s.acqPortOf e
  let src := s.get (ACQ_SRC_source e)
  let d : Fin 12 := ⟨n % 8, by omega⟩
  let busy := (List.finRange 8).any fun (f : Fin 8) =>
    decide (f ≠ e) && s.sharesMeet e f && (s.acqRuns f || decide (s.acq[f].recs ≠ []))
  let map := (List.range (s.acqWidth e)).any fun i =>
    decide (s.cs.pinCount n ≤ bitsOf (s.rn (ACQ_MAP e (i / 4))) (8 * (i % 4)) 6)
  if !s.cs.acqEn.getD e false then 2
  else if s.acq[e].recs ≠ [] ∨ s.acq[e].frozenWait then 3
  else if units < s.get (ACQ_STG_CFG_base e) + size ∨ busy ∨ 0x10000 * size < npre * cont + 0x20000 ∨
      size ≤ s.get (ACQ_STG_PANIC_level e) then 4
  else if (s.cs.acqWin e).size = 0 ∨ !s.chanUp (e / 2) ∨ s.drainSize e < 2 + ceilDiv ((npre + npost) * cont) 64 then 5
  else if src = 0 ∧ map then 6
  else if src = 0 ∧ 2000000000 * s.dpl[d].rmaxDen * max 1 (s.get (ACQ_SRC_decim e)) < s.dpl[d].rmaxNum then 7
  else if s.get (ACQ_TRIG_CTL_dir e) = 3 ∨ toSigned 32 (s.rn (ACQ_TRIG_HYST e)) < 0 ∨
      (s.on (ACQ_TRIG_CTL_interp e) ∧ src = 1) then 8
  else if (s.on (ACQ_RS_CTL_en e) ∧ s.acqRho e = 0) ∨ 1984 < s.get (ACQ_RS_CTL_delay e) then 9
  else if s.get (ACQ_SEG_COUNT_count e) = 0 ∨ 1048576 < s.get (ACQ_SEG_COUNT_count e) ∨ npost = 0 ∨ 262144 < npre then 10
  else if src = 1 ∧ (max 1 (s.get (ACQ_SRC_decim e)) ≠ 1 ∨ s.on (ACQ_RS_CTL_en e)) then 11
  else 1

/-- A write of ACQ_CTL.arm = 1 (R265, Table 7.3). -/
def State.acqArm (s : State) (e : Fin 8) : State :=
  if s.acqRuns e then s
  else
    let c := s.acqArmCode e
    let s1 := s.put (ACQ_STATUS_arm_code e) c
    if c ≠ 1 then s1.ev (acqSrc e 3)
    else
      let h := s.acq[e]
      let s2 := s1.setAcq e { recSeq := h.recSeq }
      ((((((s2.put (ACQ_CTL_arm e) 1).put (ACQ_STATUS_state e) 1).put (ACQ_STATUS_end e) 0).put (ACQ_SEG_DONE_count e) 0).put
        (ACQ_RUN_run e) (s.get (ACQ_RUN_run e) + 1))).acqPanic e

/-- A run ends: a cubic trigger that waits does not register, an open segment closes as cut, an open span closes (R260,
R261). -/
def State.acqEnd (s : State) (e : Fin 8) (st endCode segEnd : Nat) : State :=
  if !s.acqRuns e then s
  else
    let s1 := (s.flushX6 e).acqResolve e none
    let s2 := (s1.closeSeg e segEnd 0).closeSpan e
    let s3 := if s1.acqRuns e then
        ((s2.put (ACQ_STATUS_state e) st).put (ACQ_STATUS_end e) endCode).ev (acqSrc e 4)
      else s2
    ((s3.put (ACQ_CTL_arm e) 0).setAcq e { s3.acq[e] with hist := [], latch := 0 }).acqPanic e

/-- A write of arm = 0 (R260, end reason 2). -/
def State.acqStop (s : State) (e : Fin 8) : State := s.acqEnd e 5 2 1

/-- The port left RUNNING and HOLD: its engines stop where stop_with_port says so (R260, end reason 3). -/
def State.acqPortEnds (s : State) (p : Fin 8) : State :=
  (List.finRange 8).foldl (fun (a : State) (e : Fin 8) =>
    if a.acqPortOf e = p ∧ a.cs.acqEn.getD e false ∧ a.on (ACQ_CTL_stop_with_port e) then a.acqEnd e 5 3 1 else a) s

/-- Channel `c` froze: the runs of its engines end (R261, end reason 5). -/
def State.acqFreeze (s : State) (c : Nat) : State :=
  (List.finRange 8).foldl (fun (a : State) (e : Fin 8) =>
    if e.val / 2 = c then
      let b := if a.acqRuns e then a.acqEnd e 6 5 2 else a
      b.setAcq e { b.acq[e] with frozenWait := a.acqRuns e || decide (b.acq[e].recs ≠ []) }
    else a) s

/-- The freeze of channel `c` is released: what was staged can be published again (R261). -/
def State.acqUnfreeze (s : State) (c : Nat) : State :=
  (List.finRange 8).foldl (fun (a : State) (e : Fin 8) =>
    if e.val / 2 = c then a.setAcq e { a.acq[e] with frozenWait := false } else a) s

/-- Zero 64 bytes of a segment record at line `k` of its data and mark it as cut by error (R261). -/
def zeroLine (k : Nat) (l : List Byte) : List Byte :=
  let a := 64 * (k % max 1 (ofLe ((l.drop 52).take 4) / 64) + 1)
  let b := l.take a ++ (((l.drop a).take 64).map fun _ => 0) ++ l.drop (a + 64)
  b.set 3 (BitVec.ofNat 8 ((b.getD 3 0).toNat / 4 * 4 + 2))

/-- The drain read an uncorrectable SRAM error (R261, end reason 6): the oldest segment record that waits, or the open segment, holds the
line and is cut by error. -/
def State.acqSramError (s : State) (e : Fin 8) (k : Nat) : State :=
  let s1 := s.acqEnd e 6 6 2
  let h := s1.acq[e]
  s1.setAcq e { h with recs := h.recs.modify (h.recs.findIdx (·.isSeg)) fun r => { r with bytes := zeroLine k r.bytes } }

/-- The drain has written the oldest closed record: WR advances past it (R259, Table 7.16). -/
def State.acqPublish (s : State) (e : Fin 8) : State :=
  match s.acq[e].recs with
  | [] => s
  | r :: l =>
    let n := r.bytes.length / 64
    if s.drainFree e < n then s
    else
      let wr := s.rn (ACQ_DRAIN_WR e)
      let used := s.drainUsed e
      let hwm := s.rn (ACQ_DRAIN_HWM e)
      let s1 := (s.drainWrite e wr r.bytes).wn (ACQ_DRAIN_WR e) ((wr + n) % 2 ^ 32)
      let s2 := s1.setAcq e { s1.acq[e] with recs := l }
      let s3 := if r.isSeg then
          ((s2.put (ACQ_SEG_DONE_count e) (s2.get (ACQ_SEG_DONE_count e) + 1)).put (ACQ_STATUS_seg_closed e) 1).ev (acqSrc e 1)
        else s2
      let s4 := s3.evIf r.last (acqSrc e 0)
      (s4.evIf (decide (hwm ≠ 0) && decide (used < hwm) && decide (hwm ≤ used + n)) (acqSrc e 7)).acqPanic e

/-- A write of ACQ_DRAIN_RD, ignored where WR - RD would leave its range (Table 7.15). -/
def State.acqDrainRd (s : State) (e : Fin 8) (v : Nat) : State :=
  if (s.rn (ACQ_DRAIN_WR e) + 2 ^ 32 - v % 2 ^ 32) % 2 ^ 32 ≤ s.drainSize e then (s.wn (ACQ_DRAIN_RD e) v).acqPanic e else s

/-- A write of ACQ_CTL.force (R247). -/
def State.acqForce (s : State) (e : Fin 8) : State :=
  if s.acqRuns e then s.setAcq e { s.acq[e] with latch := s.acq[e].latch ||| 8 } else s

end Sys2Proof.Machine
end

