-- ==== Sys2Proof/Machine/Dpl.lean ====
section
/-! DEFINITION. The domain PLLs (chapter 06): the operations on their states, and the meanings of the rows DPL_RUN to
CEILING_SUPPRESS that touch no port beyond its pause, with the phase samples. -/

namespace Sys2Proof.Machine

/-- A write of DPL_CTL.run = 1: ACQUIRE from OFF or FAIL (Table 6.4, Table 6.7). -/
def State.dplRun (s : State) (d : Fin 12) : State :=
  let s1 := s.put (DPL_CTL_run d) 1
  if s1.get (DPL_STATUS_state d) = 0 ∨ s1.get (DPL_STATUS_state d) = 7 then s1.acquire d else s1

/-- A write of DPL_CTL.run = 0: OFF with the clocks low, ignored while the unit of the domain is active (R236). -/
def State.dplRunOff (s : State) (d : Fin 12) : State :=
  if s.unitActive d then s
  else
    let s1 := (((s.put (DPL_CTL_run d) 0).put (DPL_STATUS_state d) 0).put (DPL_STATUS_locked d) 0).put
      (DPL_STATUS_settling d) 0
    s1.setDpl d { s1.dpl[d] with cur := none, relock := false }

/-- A write of DPL_CTL.reseed, ignored while the unit of the domain is active (R205, R236). -/
def State.dplReseed (s : State) (d : Fin 12) : State :=
  if s.unitActive d then s else s.loadLfsr d

/-- The MDLL is within 500 ppm: HANDOVER, once the TBPLL has locked for the first time (R212, R219). -/
def State.dplHandover (s : State) (d : Fin 12) : State :=
  if s.get (DPL_STATUS_state d) = 1 ∧ s.tmb.running then s.put (DPL_STATUS_state d) 2 else s

/-- Lock is declared: SETTLE (R220); the time from ACQUIRE to lock of a relock is recorded. -/
def State.dplLock (s : State) (d : Fin 12) : State :=
  if s.get (DPL_STATUS_state d) = 2 then
    let s1 := (s.put (DPL_STATUS_state d) 3).put (DPL_STATUS_locked d) 1
    if s.dpl[d].relock then
      s1.wn (DPL_RELOCK_LAST d) (min ((s.tmb.clk - s.dpl[d].acqAt) / tuPerNs) 0xFFFFFFFF)
    else s1
  else s

/-- The pause of an ARMED port ends (R212, R214): the first vector after it is vector 0, and its length, from a last vector
that there is none of, is a free value (log entry 6). -/
def State.armedPauseEnd (s : State) (p : Fin 8) : State :=
  let s1 := s.setSeq (portPll p) { s.seq[portPll p] with paused := false, resume := false }
  ((s1.draw.2.count (PRT_PAUSE_CNT p)).wr (PRT_PAUSE_LAST p) (s1.draw.1.extractLsb' 0 32)).wn64 (PRT_PAUSE_VEC_LO p) 0

/-- A relock pause ends with the run: it is counted, and its length and the first vector after it, which there is none of, are free values
(R214; log entry 6). -/
def State.endedPause (s : State) (p : Fin 8) : State :=
  let (a, s1) := s.draw
  let (b, s2) := s1.draw
  ((s2.count (PRT_PAUSE_CNT p)).wr (PRT_PAUSE_LAST p) (a.extractLsb' 0 32)).wn64 (PRT_PAUSE_VEC_LO p) (b.toNat % 2 ^ 64)

/-- One µs after lock: LOCKED with the clocks ungated (R212); a paused unit resumes at its first boundary, which lies
`phase` after this instant (within one period); the end of a relock raises source 493 (R220). -/
def State.dplSettled (s : State) (d : Fin 12) (phase : Nat) : State :=
  if s.get (DPL_STATUS_state d) = 3 then
    let s1 := (s.put (DPL_STATUS_state d) 4).put (DPL_STATUS_settling d) 0
    let s2 := (s1.setDpl d { s1.dpl[d] with relock := false, cur := none }).evIf s.dpl[d].relock 493
    if !s2.seq[d].paused then s2
    else if h : d.val < 8 ∧ s2.get (PRT_SEQ_STATUS_state d) = 1 then s2.armedPauseEnd ⟨d.val, h.1⟩
    else
      s2.setSeq d { s2.seq[d] with resume := true, at_ := s2.tmb.clk + phase % max 1 (s2.targetRate d).periodTu }
  else s

/-- The bits and events of a loss of lock (R220). -/
def State.dplLost (s : State) (d : Fin 12) : State :=
  ((((s.put (DPL_STATUS_locked d) 0).put (DPL_STATUS_lost d) 1).setBit TMB_DPL_EVT d.val)).ev 492

/-- Loss of lock (R212, R216, R220): flask hold from LOCKED or RAMP, with the pause of an active unit; ACQUIRE again from
SETTLE; in HANDOVER the relock goes on. A trigger during a relock is counted. A loss in the cycle in which a large change has taken
the loop to ACQUIRE is one trigger with it. -/
def State.dplLoss (s : State) (d : Fin 12) : State :=
  match s.get (DPL_STATUS_state d) with
  | 1 => if s.sameCycle d then s.dplLost d else s
  | 2 => (s.dplLost d).count (DPL_RELOCK_CNT d)
  | 3 => ((s.dplLost d).count (DPL_RELOCK_CNT d)).acquire d
  | 4 | 5 =>
    let s1 := (((((s.dplLost d).count (DPL_RELOCK_CNT d)).pauseUnit d).put (DPL_STATUS_state d) 6).put
      (DPL_STATUS_settling d) 0)
    s1.setDpl d { s1.dpl[d] with relock := true, trigAt := some s1.tmb.clk }
  | _ => s

/-- HOLD ends in ACQUIRE once the unit has ended its current vector (Table 6.4). -/
def State.dplHoldToAcquire (s : State) (d : Fin 12) : State :=
  if s.get (DPL_STATUS_state d) = 6 then s.acquire d else s

/-- No lock within 200 µs: FAIL (R213). The stop of the unit is the caller's. -/
def State.dplEnterFail (s : State) (d : Fin 12) : State :=
  let s1 := (((((s.put (DPL_STATUS_state d) 7).put (DPL_STATUS_locked d) 0).put (DPL_STATUS_settling d) 0).put
    (DPL_STATUS_fail d) 1).setBit TMB_DPL_EVT (16 + d.val)).ev 494
  s1.setDpl d { s1.dpl[d] with relock := false, cur := none }

/-- The ramp limit of a domain in 2⁻¹⁰ ppm/µs (Table 6.9). -/
def State.dplSlew (s : State) (d : Fin 12) : Nat :=
  let x := s.get (DPL_SLEW_slew d)
  if x = 0 ∨ 51200 < x then 51200 else x

/-- One 128 ns update of a ramp: the commanded frequency moves toward its target by at most DPL_SLEW (R209). -/
def State.dplRampUpdate (s : State) (d : Fin 12) : State :=
  match s.dpl[d].cur with
  | none => s
  | some c =>
    if s.get (DPL_STATUS_state d) = 5 then
      let r := s.targetRate d
      let target := 2 ^ 20 * r.num / r.den
      let w := (s.word d).rate
      let step := 2 ^ 20 * w.num * s.dplSlew d * 128 / (w.den * 1024000000 * 1000)
      if c < target then
        s.setDpl d { s.dpl[d] with cur := if target ≤ c + step then none else some (c + step) }
      else s.setDpl d { s.dpl[d] with cur := if c ≤ target + step then none else some (c - step) }
    else s

/-- The ramp has ended and settled: LOCKED (R209). -/
def State.dplRampSettled (s : State) (d : Fin 12) : State :=
  if s.get (DPL_STATUS_state d) = 5 ∧ s.dpl[d].cur = none then
    (s.put (DPL_STATUS_state d) 4).put (DPL_STATUS_settling d) 0
  else s

/-- A suppression of a clock phase, of a domain or of another clock (R218). -/
def State.ceiling (s : State) (clk : Option (Fin 12)) : State :=
  (match clk with
  | some d => s.count (DPL_CEIL_CNT d)
  | none => s.count TMB_CEIL_CNT).ev 495

/-- A write of DPL_PHASE_CTL.sample in mode 0 requests one sample (R233). -/
def State.phaseReq (s : State) (d : Fin 12) : State :=
  if s.get (DPL_PHASE_CTL_mode d) = 0 then s.setDpl d { s.dpl[d] with phaseReq := true } else s

/-- The next instant at which the count is a multiple of 1,000 ns, after the one of the last sample (R233). -/
def State.phaseInstant (s : State) (d : Fin 12) : Nat :=
  let us := 1000 * tuPerNs
  let n := ceilDiv s.tmb.count us * us
  let last := s.rn64 (DPL_PHASE_TS_LO d) / 2 * 250
  if s.on (DPL_PHASE_OFS_valid d) && decide (last = n) && decide (s.rn (DPL_PHASE_EP d) = s.tmb.epoch) then n + us else n

/-- The number of the vector that starts at the first boundary at or after an instant `ahead` of the present, where the next vector of the
port starts at its instant (R233). -/
def State.vecFrom (s : State) (d : Fin 12) (at_ : Nat) : Nat :=
  let r := s.rate d
  let x : Int := ((at_ : Int) - s.seq[d].at_) * r.num
  ((s.rn64 (PRT_SEQ_VEC_LO d) : Int) - (-x) / (8192000000000000 * r.den)).toNat

/-- A phase sample at the next whole µs of the count (R233), with the offset to the next boundary in steps, below one period. -/
def State.phaseSample (s0 : State) (d : Fin 12) (ofs : BitVec 19) : State :=
  if (s0.get (DPL_PHASE_CTL_mode d) = 1 ∨ s0.dpl[d].phaseReq) ∧ s0.tmb.running then
    let at_ := s0.phaseInstant d
    let s := s0.advance (at_ - s0.tmb.count)
    let st := s.get (DPL_STATUS_state d)
    let valid := decide (4 ≤ st) && decide (st ≤ 6)
    let s1 := ((s.wn64 (DPL_PHASE_TS_LO d) (stampOf at_ (s.get TMB_STATUS_step_flag))).put (DPL_PHASE_EP_epoch d)
      s.tmb.epoch).put (DPL_PHASE_OFS_ofs d) (ofs.toNat % ((s.rate d).lastStep + 1))
    let s2 := s1.put (DPL_PHASE_OFS_valid d) (if valid then 1 else 0)
    let vec := if d.val < 8 ∧ s.get (PRT_SEQ_STATUS_state d) = 2 then s.vecFrom d s.tmb.clk else 0
    let s3 := s2.wn64 (DPL_PHASE_VEC_LO d) vec
    s3.setDpl d { s3.dpl[d] with phaseReq := false }
  else s0

end Sys2Proof.Machine
end

