-- ==== Sys2Proof/Machine/PortEnd.lean ====
section
/-! DEFINITION. How a port leaves a run, and what goes on around it: the Ramble (R160 to R164), the fail path (R339), votes
(R317) and the end of a run (R90, R158, R159, R164, R171, R177, R439). -/

namespace Sys2Proof.Machine

/-! ## Ramble -/

/-- The log ring of a port is valid: size 6 to 24, aligned, and wholly in one fitted near-store channel (R163). -/
def State.ramLogOk (s : State) (p : Fin 8) : Bool :=
  let base := s.rn64 (PRT_RAMBLE_LOG_BASE_LO p)
  let size := s.get (PRT_RAMBLE_LOG_SIZE_size p)
  let c := poolOf base
  decide (6 ≤ size) && decide (size ≤ 24) && decide (base % 32 = 0) && decide (nearBase 0 ≤ base) && decide (c < 4) &&
  decide (base + 32 * 2 ^ size ≤ nearBase c + nearUnit * s.get (DMC_CAPACITY_units c))

/-- Write a Ramble log record, or drop it where the ring is full (R163, Table 4.7). The vector is the next one issued. A dropped record too
ends the count of fails since the record before (DESIGN CHOICE, log entry 29). -/
def State.ramLog (s : State) (p : Fin 8) (kind : Nat) : State :=
  match s.port[p].ram with
  | none => s
  | some r =>
    if !r.logEn then s
    else
      let size := s.get (PRT_RAMBLE_LOG_SIZE_size p)
      let wr := s.rn (PRT_RAMBLE_LOG_WR p)
      let used := (wr + 2 ^ 32 - s.rn (PRT_RAMBLE_LOG_RD p)) % 2 ^ 32
      let clear := fun (a : State) => a.setPort p { a.port[p] with ramFails := 0 }
      if used = 2 ^ size then (clear (s.count (PRT_RAMBLE_LOG_DROP p))).ev (portSrc p 8)
      else
        let d := portPll p
        let rec_ := leBytes (s.seqVec d) 8 ++ leBytes (s.stampAt s.seq[d].at_) 8 ++ leBytes (s.rn (PRT_RAMBLE_OFS p)) 4 ++
          leBytes s.port[p].ramFails 4 ++ leBytes (s.epochAt s.seq[d].at_) 2 ++ leBytes (s.get (PRT_SEQ_ENTRY_entry p)) 2 ++
          leBytes kind 1 ++ leBytes (s.get (DPL_STATUS_settling d)) 1 ++ leBytes (wr % 2 ^ 16) 2
        clear ((s.setBytes (s.rn64 (PRT_RAMBLE_LOG_BASE_LO p) + 32 * (wr % 2 ^ size)) rec_).wn (PRT_RAMBLE_LOG_WR p)
          ((wr + 1) % 2 ^ 32))

/-- A Ramble start is refused (R162). -/
def State.ramRefused (s : State) (p : Fin 8) : Bool :=
  let mode := s.get (PRT_RAMBLE_CTL_mode p)
  let step := toSigned 32 (s.rn (PRT_RAMBLE_STEP p))
  let limit := toSigned 32 (s.rn (PRT_RAMBLE_LIMIT p))
  let dwell := s.rn (PRT_RAMBLE_DWELL p)
  let slew := s.rn (PRT_RAMBLE_SLEW p)
  let o := s.rambleOfs (portPll p)
  let r := s.portRate p
  (decide (mode = 1) && (decide (2048000 < step.natAbs) || decide (step = 0) || decide ((0 < step) ≠ (0 < limit - o)) ||
    decide (dwell * r.den * 1000000 * 51200 < step.natAbs * r.num))) ||
  (decide (mode = 2) && (decide (slew = 0) || decide (51200 < slew))) ||
  decide (limit = o) || decide (mode = 0) || (s.on (PRT_RAMBLE_CTL_log_en p) && !s.ramLogOk p)

/-- Start the program of PRT_RAMBLE_CTL (R160, R162). -/
def State.ramStart (s : State) (p : Fin 8) : State :=
  if s.ramRefused p then (s.put (PRT_RAMBLE_STATUS_refused p) 1).ev (portSrc p 8)
  else
    let r : RamProg := {
      sweep := decide (s.get (PRT_RAMBLE_CTL_mode p) = 2), step := toSigned 32 (s.rn (PRT_RAMBLE_STEP p))
      dwell := s.rn (PRT_RAMBLE_DWELL p), slew := s.rn (PRT_RAMBLE_SLEW p), limit := toSigned 32 (s.rn (PRT_RAMBLE_LIMIT p))
      logEn := s.on (PRT_RAMBLE_CTL_log_en p), startOfs := s.rambleOfs (portPll p), updates := 0, count := 0
      held := false, ret := false }
    ((s.setPort p { s.port[p] with ram := some r, ramFails := 0 }).put (PRT_RAMBLE_STATUS_active p) 1).ramLog p 0

/-- The offset equals the limit (Table 4.30). -/
def State.ramAtLimit (s : State) (p : Fin 8) : State :=
  s.put (PRT_RAMBLE_STATUS_at_limit p) (if s.rn (PRT_RAMBLE_OFS p) = s.rn (PRT_RAMBLE_LIMIT p) then 1 else 0)

/-- Move the offset to `target`, clipped at the limit; a change outside the band is refused and the program holds (R161,
R162). `kind` is the record of a plain change. -/
def State.ramMove (s : State) (p : Fin 8) (r : RamProg) (target : Int) (kind : Nat) : State :=
  let up := decide (r.startOfs ≤ r.limit)
  let t := if up then min target r.limit else max target r.limit
  let keep := fun (a : State) (x : Option RamProg) => a.setPort p { a.port[p] with ram := x }
  if t = s.rambleOfs (portPll p) then keep s (some r)
  else if !s.offsetOk p t then
    (((keep s (some { r with held := true })).put (PRT_RAMBLE_STATUS_band_hold p) 1).ev (portSrc p 8)).ramLog p 4
  else
    let s1 := (s.setOffset p t).ramAtLimit p
    if r.ret then keep s1 (if t = r.limit then none else some r)
    else if t = r.limit then (keep s1 (some { r with held := true })).ramLog p 3
    else (keep s1 (some r)).ramLog p kind

/-- A Ramble program advances in RUNNING only, not in HOLD or a pause (R161, R190, R214). -/
def State.ramAdvances (s : State) (p : Fin 8) : Bool :=
  decide (s.get (PRT_SEQ_STATUS_state p) = 2) && !s.seq[portPll p].paused

/-- After DWELL vectors a step program adds STEP (R161). -/
def State.ramStep (s : State) (p : Fin 8) : State :=
  match s.port[p].ram with
  | none => s
  | some r =>
    if r.sweep || r.held || !s.ramAdvances p || decide (r.count < r.dwell) then s
    else s.ramMove p { r with count := r.count - r.dwell } (s.rambleOfs (portPll p) + r.step) 1

/-- Every 128 ns a sweep program moves the offset toward its limit (R161). -/
def State.ramSweep (s : State) (p : Fin 8) : State :=
  match s.port[p].ram with
  | none => s
  | some r =>
    if !r.sweep || r.held || !s.ramAdvances p then s
    else
      let k := r.updates + 1
      let moved : Int := (k * r.slew * 16 / 125 : Nat)
      s.ramMove p { r with updates := k } (if r.startOfs ≤ r.limit then r.startOfs + moved else r.startOfs - moved) 2

/-- The program ends: its end record is written (R160, R164). -/
def State.ramEnd (s : State) (p : Fin 8) : State :=
  match s.port[p].ram with
  | none => s
  | some r =>
    let s1 := if r.ret then s else s.ramLog p 5
    (s1.setPort p { s1.port[p] with ram := none }).put (PRT_RAMBLE_STATUS_active p) 0

/-- An entry's ramble field acts at the start of its first vector, on its first pass (R160). -/
def State.ramEntry (s : State) (p : Fin 8) (code : Nat) : State :=
  match code with
  | 1 => s.ramStart p
  | 2 => s.ramEnd p
  | 3 =>
    let s1 := s.ramEnd p
    let o := s1.rambleOfs (portPll p)
    if o = 0 then s1
    else
      let slew := s.rn (PRT_RAMBLE_SLEW p)
      let r : RamProg := {
        sweep := true, step := 0, dwell := 0, slew := if slew = 0 then 51200 else slew, limit := 0, logEn := false
        startOfs := o, updates := 0, count := 0, held := false, ret := true }
      s1.setPort p { s1.port[p] with ram := some r }
  | _ => s

/-! ## The fail path (R339, R340) -/

/-- The fail ring of a port is usable (R340). -/
def State.failRingOk (s : State) (p : Fin 8) : Bool :=
  let base := s.rn64 (SCH_FRING_BASE_LO p)
  let size := s.get (SCH_FRING_SIZE_size p)
  let len := 32 * 2 ^ size
  let banks := s.cs.banks 0x20
  let b := (base - bankBase 0) / 0x200000
  let first := (banks.findIdx? (· == b)).getD 0
  let off := 0x200000 * first + base % 0x200000
  let ha := 0x10000 * s.get SCH_HAMPER_AREA_base
  let hb := ha + 0x10000 * s.get SCH_HAMPER_AREA_size
  decide (8 ≤ size) && decide (size ≤ 16) && decide (base % 32 = 0) && decide (bankBase 0 ≤ base) &&
  banks.contains b && banks.contains ((base + len - 1 - bankBase 0) / 0x200000) && decide (0x80000 ≤ off) &&
  (decide (off + len ≤ ha) || decide (hb ≤ off))

/-- A record enters the fail FIFO, or is dropped (R339, R340). -/
def State.failPush (s : State) (p : Fin 8) (r : FailRec) : State :=
  let h := s.port[p]
  let s0 := s.setPort p { h with failSeq := (h.failSeq + 1) % 2 ^ 32 }
  if !s.failRingOk p then s0.put SCH_STATUS_fring_bad 1
  else if 64 ≤ h.fifo.length then
    (((s0.setPort p { s0.port[p] with failOvf := true }).count (SCH_FRING_DROP p)).put SCH_STATUS_fail_drop 1).ev 453
  else s0.setPort p { s0.port[p] with fifo := h.fifo ++ [r] }

/-- The bytes of a fail record (Table 11.5). -/
def FailRec.bytes (r : FailRec) (overflow : Bool) : List Byte :=
  leBytes r.vector 8 ++ leBytes r.pins 8 ++ leBytes r.entry 2 ++ leBytes r.timeset 2 ++ leBytes r.pass 4 ++
  leBytes r.seq 4 ++ leBytes ((if overflow then 1 else 0) + (if r.secret then 2 else 0)) 4

/-- The oldest record leaves the FIFO for the ring, or is dropped where the ring is full (R339); a ring that may no longer be used takes
none (R340). -/
def State.failDrain (s : State) (p : Fin 8) : State :=
  let h := s.port[p]
  match h.fifo with
  | [] => s
  | r :: l =>
    let size := s.get (SCH_FRING_SIZE_size p)
    let wr := s.rn (SCH_FRING_WR p)
    let used := (wr + 2 ^ 32 - s.rn (SCH_FRING_RD p)) % 2 ^ 32
    if !s.failRingOk p then (s.setPort p { h with fifo := l }).put SCH_STATUS_fring_bad 1
    else if used = 2 ^ size then
      (((s.setPort p { h with fifo := l, failOvf := true }).count (SCH_FRING_DROP p)).put SCH_STATUS_fail_drop 1).ev 453
    else
      ((s.setBytes (s.rn64 (SCH_FRING_BASE_LO p) + 32 * (wr % 2 ^ size)) (r.bytes h.failOvf)).wn (SCH_FRING_WR p)
        ((wr + 1) % 2 ^ 32)).setPort p { h with fifo := l, failOvf := false }

/-- A port casts a vote (R317): it is on its way to the site link. -/
def State.castVote (s : State) (p : Fin 8) (fail : Bool) : State :=
  let h := s.port[p]
  let s1 := s.setPort p { h with votes := (h.votes + 1) % 256, voteFail := false }
  { s1 with voteQ := s1.voteQ ++ [(p.val, h.votes, fail)] }

/-! ## Leaving a run -/

/-- The time spent in HOLD so far is counted (Table 5.14). -/
def State.countHold (s : State) (p : Fin 8) (until_ : Nat) : State :=
  s.count (PRT_STRM_HOLD_TOTAL p) ((until_ - s.port[p].holdAt) / (1000 * tuPerNs))

/-- The use of a Rucksack that was counted in this run now owes its receipt (R439). -/
def State.oweReceipt (s : State) (p : Fin 8) (done : Bool) : State :=
  let h := s.port[p]
  match h.use with
  | none => s
  | some u =>
    s.setPort p { h with use := none, owed := some { u with
      tsEnd := s.stamp, vectors := h.secretVecs, result := if h.aggRun then 1 else if done then 0 else 2 } }

/-- The event of a way out of a run (Tables 3.23, 4.32, 5.15). -/
def leaveEvent (st cause : Nat) (cancelled : Bool) : Option Nat :=
  if cancelled then some 7
  else if st = 4 then some 3
  else if cause = 1 then some 4
  else if cause = 2 then some 0
  else if cause = 3 then some 12
  else none

/-- A port leaves ARMED, RUNNING or HOLD for `st` (4 DONE, 5 STOPPED, 6 ABORTED) with a cause of Table 4.6 (R90, R130,
R158, R159, R164, R171, R177, R260). -/
def State.portLeave (s : State) (p : Fin 8) (st cause code : Nat) (cancelled : Bool) : State :=
  let d := portPll p
  let ran := s.portRuns p
  let held := decide (s.get (PRT_SEQ_STATUS_state p) = 3)
  let s0 := ((if s.seq[d].paused then s.endedPause p else s).notePort p).flushPort p
  let s1 := if held then s0.countHold p s.tmb.clk else s0
  let s2 := (((s1.put (PRT_SEQ_STATUS_state p) st).put (PRT_SEQ_STATUS_cause p) cause).put (PRT_SEQ_CTL_run p) 0)
  let s3 := if cause = 1 then s2.put (PRT_SEQ_STATUS_code p) code else s2
  let s4 := if st = 4 then s3.put (PRT_SEQ_STATUS_done p) 1
    else if st = 6 then s3.put (PRT_SEQ_STATUS_aborted p) 1
    else if cancelled then s3.put (PRT_SEQ_STATUS_cancelled p) 1 else s3
  let s5 := (((s4.put (PRT_STRM_STATUS_admitted p) 0).put (PRT_STRM_STATUS_panic p) 0).put (PRT_STRM_STATUS_hold p) 0)
  let s6 := if ran then (List.range 4).foldl (fun (a : State) k => a.setMarker p k false) s5 else s5
  let s7 := ((s6.oweReceipt p (decide (st = 4))).ramEnd p)
  let s8 := if s7.rn (PRT_RAMBLE_OFS p) = 0 then s7 else s7.setOffset p 0
  let s9 := ((s8.endStream d).showHeld d none).wn (PRT_STRM_FILL p) 0
  let h := s9.port[p]
  let s10 := s9.setPort p { h with
    den := 0, edges := [], vecs := [], template := none, markerLow := [], comp := 0, aggFail := false }
  let s11 := if ran then s10.acqPortEnds p else s10
  match leaveEvent st cause cancelled with
  | none => s11
  | some j => s11.ev (portSrc p j)

/-- A start is refused or cancelled: STOPPED, cancelled, source 7 (R158). -/
def State.portCancel (s : State) (p : Fin 8) (cause : Nat) : State := s.portLeave p 5 cause 0 true

/-- A time-base STEP or zeroing cancels every start that is ARMED in mode 1, with cause 7 (R229). -/
def State.cancelTrailheads (s : State) : State :=
  (List.finRange 8).foldl (fun (a : State) (p : Fin 8) =>
    if a.get (PRT_SEQ_STATUS_state p) = 1 ∧ a.get (PRT_SEQ_CTL_start_mode p) = 1 then a.portCancel p 7 else a) s

/-- A timing-or-format abort or refused start (R104, R105). -/
def State.tmgFail (s : State) (p : Fin 8) (code pin ts vec addr : Nat) : State :=
  (((((s.put (PRT_TMG_STATUS_code p) code).put (PRT_TMG_STATUS_aborted p) 1).put (PRT_TMG_STATUS_pin p) pin).put
    (PRT_TMG_STATUS_timeset p) ts).wn64 (PRT_TMG_VEC_LO p) vec).wn64 (PRT_TMG_ADDR_LO p) addr

/-- A streaming abort at vector `v` (R189). -/
def State.strmAbort (s : State) (p : Fin 8) (code v addr : Nat) : State :=
  ((((s.put (PRT_STRM_STATUS_code p) code).put (PRT_STRM_STATUS_abort_seen p) 1).wn64 (PRT_STRM_VEC_LO p) v).wn64
    (PRT_STRM_ADDR_LO p) addr).portLeave p 6 3 0 false

end Sys2Proof.Machine
end

