-- ==== Sys2Proof/Machine/PortRun.lean ====
section
/-! DEFINITION. Starting and stopping a port: the run write (R156, R157, R538), admission (R176 to R180), the Trailhead,
HOLD (R190, R191), the wait time-out (R151), the band (R118) and the rows of these. -/

namespace Sys2Proof.Machine

/-! ## Admission (Table 5.2) -/

/-- The demands of other ports that hold theirs and for which `p` holds, summed by `f`. -/
def State.heldDemand (s : State) (me : Fin 8) (p : Fin 8 → Bool) (f : Fin 8 → Nat) : Nat :=
  ((List.finRange 8).map fun (n : Fin 8) =>
    if n ≠ me ∧ s.on (PRT_STRM_STATUS_admitted n) ∧ p n then f n else 0).sum

/-- The far demand of a port counts against half `h`: on one x16 link every port's does, on two halves that of a port whose far window
touches the half's range (Table 5.2, check 3). -/
def State.usesHalf (s : State) (p : Fin 8) (h : Nat) : Bool :=
  let w := s.cs.farWin p
  let r := s.halfRange h
  if s.on CXH_CTL_bifurcate then
    decide (w.size ≠ 0) && decide (w.base * farUnit < r.2) && decide (r.1 < (w.base + w.size) * farUnit)
  else decide (h = 0)

/-- Half `h` is in use: its link is up or recovers (R380). A half that is not has no cap. -/
def State.halfInUse (s : State) (h : Nat) : Bool :=
  decide (s.get (CXH_LINK_state h) = 3) || decide (s.get (CXH_LINK_state h) = 4)

/-- Check 1: the ring and its thresholds. -/
def State.ringConfigBad (s : State) (p : Fin 8) : Bool :=
  let size := s.get (PRT_STRM_RING_size p)
  let prime := s.get (PRT_STRM_PRIME_prime p)
  let panic := s.get (PRT_STRM_PRIME_panic p)
  let low := s.get (PRT_STRM_PRIME_low p)
  decide (size < 16) || decide (1536 < size) || decide (s.segStore (portPll p) < 0x10000 * size) ||
  decide (size < prime + 4) || decide (prime ≤ panic) || decide (panic ≤ low)

/-- Check 3: the caps that several ports share. -/
def State.sharedCapBad (s : State) (p : Fin 8) : Bool :=
  let near := fun (n : Fin 8) => s.get (PRT_STRM_DEMAND_NEAR_mbps n)
  let far := fun (n : Fin 8) => s.get (PRT_STRM_DEMAND_FAR_mbps n)
  let enc := fun (n : Fin 8) =>
    (if s.on (PRT_STRM_DEMAND_NEAR_enc n) then near n else 0) + (if s.on (PRT_STRM_DEMAND_FAR_enc n) then far n else 0)
  let nearBad := decide (near p ≠ 0) &&
    decide (56000 < near p + s.heldDemand p (fun n => decide (n.val / 2 = p.val / 2)) near)
  let farBad := decide (far p ≠ 0) &&
    (if s.on CXH_CTL_interleave then (s.halfInUse 0 || s.halfInUse 1) && decide (s.farCap 0 + s.farCap 1 < far p + s.heldDemand p (fun _ => true) far)
     else (List.range 2).any fun h => s.halfInUse h &&
       s.usesHalf p h && decide (s.farCap h < far p + s.heldDemand p (fun n => s.usesHalf n h) far))
  let encBad := decide (enc p ≠ 0) && decide (160000 < enc p + s.heldDemand p (fun _ => true) enc)
  nearBad || farBad || encBad

/-- The code of the first of checks 1 to 5 that fails; none where all pass. -/
def State.admission (s : State) (p : Fin 8) : Option Nat :=
  let near := s.get (PRT_STRM_DEMAND_NEAR_mbps p)
  let far := s.get (PRT_STRM_DEMAND_FAR_mbps p)
  if s.ringConfigBad p then some 8
  else if 40000 < near ∨ 20000 < far then some 2
  else if s.sharedCapBad p then some 3
  else if near ≠ 0 ∧ !s.chanUp (p / 2) then some 6
  else if far ≠ 0 ∧ !s.farWinUp (s.cs.farWin p) then some 7
  else none

/-- The ring holds min(prime, S) bytes of the path (check 7): the prime level, or the whole path to the end of the walk. -/
def State.primed (s : State) (d : Fin 12) (prime : Nat) : Bool :=
  decide (prime ≤ s.fill d) ||
  (s.seq[d].plan.ended && s.seq[d].ring.all (·.arrived))

def State.primeBytes (s : State) (p : Fin 8) : Nat := 0x10000 * s.get (PRT_STRM_PRIME_prime p)

/-! ## Run and stop -/

/-- What a run write clears (R156, Tables 4.13, 4.23, 5.12, 6.18), and the state ARMED. -/
def State.portArm (s : State) (p : Fin 8) : State :=
  let s1 := ((((((((s.put (seqDepthF (portPll p)) 0).wn64 (PRT_SEQ_VEC_LO p) 0).wn64 (PRT_STRM_BYTES_LO p) 0).put (PRT_TMG_STATUS_code p) 0).put
    (PRT_SEQ_STATUS_cause p) 0).put (PRT_SEQ_STATUS_code p) 0).wn (PRT_WAIT_STATUS p) 0).wn (PRT_RATE_DEV p) 0).put
    (PRT_STRM_STATUS_code p) 0
  let s2 := (s1.put (PRT_SEQ_STATUS_state p) 1).put (PRT_SEQ_CTL_run p) 1
  let q := s2.seq[portPll p]
  let h := s2.port[p]
  let s3 := s2.setSeq (portPll p) { zeroing := q.zeroing, zeroSize := q.zeroSize, at_ := q.at_ }
  (s3.setPort p { h with
    votes := 0, voteFail := false, failSeq := 0, failOvf := false, fifo := [], prevEdge := [], comp := 0, aggRun := false
    aggFail := false, secretVecs := 0, den := 0, drv := 0, use := none }).showHeld (portPll p) none |>.sourceArmed ⟨8 + p.val, by omega⟩ false

/-- A write of run = 1 (R156, R538). -/
def State.portRun (s : State) (p : Fin 8) : State :=
  if s.portActive p then s
  else if s.cs.pinCount p = 0 then
    (((s.put (PRT_SEQ_STATUS_state p) 5).put (PRT_SEQ_STATUS_cause p) 11).put (PRT_SEQ_STATUS_cancelled p) 1).ev
      (portSrc p 7)
  else
    let s1 := s.portArm p
    if !(s.portRate p).inBand (s.get (PRT_TIMING_CTL_band p)) then
      ((s1.tmgFail p 11 0xFF 0 0 0).ev (portSrc p 0)).portCancel p 2
    else if s.get (PRT_SEQ_CTL_start_mode p) = 1 ∧
        s.tooNear (s.rn64 (PRT_TRAILHEAD_LO p)) (s.rn (PRT_TRAILHEAD_EP p)) then s1.portCancel p 7
    else
      match s.admission p with
      | some c => (s1.put (PRT_STRM_STATUS_adm p) c).portCancel p 8
      | none =>
        let s2 := (s1.put (PRT_STRM_STATUS_admitted p) 1).planFrom (portPll p) (s.get (PRT_SEQ_START_entry p))
        if s.get (PRT_SEQ_CTL_start_mode p) = 2 ∧ s.evtActive p (s.get (PRT_SEQ_CTL_start_evt p)) then
          s2.setSeq (portPll p) { s2.seq[portPll p] with condMet := true }
        else s2

/-- The fields of PRT_SEQ_CTL beside run, as a write leaves them (Table 4.11). -/
def State.portCtlFields (s : State) (p : Fin 8) (mode evt : Nat) : State :=
  let s1 := if mode = 3 then s else s.put (PRT_SEQ_CTL_start_mode p) mode
  s1.put (PRT_SEQ_CTL_start_evt p) evt

/-- A write of run = 0 (R158, R192). -/
def State.portStop (s : State) (p : Fin 8) : State :=
  match s.get (PRT_SEQ_STATUS_state p) with
  | 1 => s.portCancel p 9
  | 2 =>
    if s.seq[portPll p].paused then s.portLeave p 5 5 0 false
    else s.setSeq (portPll p) { s.seq[portPll p] with stopReq := true }
  | 3 => s.portLeave p 5 5 0 false
  | _ => s

/-- The start input of a mode-2 start goes active (R156). -/
def State.portStartEvent (s : State) (p : Fin 8) : State :=
  if s.get (PRT_SEQ_STATUS_state p) = 1 ∧ s.get (PRT_SEQ_CTL_start_mode p) = 2 then
    s.setSeq (portPll p) { s.seq[portPll p] with condMet := true }
  else s

/-- The domain of a unit is LOCKED and not settling (R217). -/
def State.lockedSettled (s : State) (d : Fin 12) : Bool :=
  decide (s.get (DPL_STATUS_state d) = 4) && !s.on (DPL_STATUS_settling d)

/-- The Trailhead of a mode-1 start (R157, R180, R217, R538). -/
def State.portTrailhead (s : State) (p : Fin 8) : State :=
  if s.get (PRT_SEQ_STATUS_state p) ≠ 1 ∨ s.get (PRT_SEQ_CTL_start_mode p) ≠ 1 ∨ s.seq[portPll p].trailMet then s
  else
    let (s1, reached) := s.advanceToStamp (s.rn64 (PRT_TRAILHEAD_LO p)) (s.rn (PRT_TRAILHEAD_EP p))
    if !reached then s
    else if !s1.seq[portPll p].admitted then (s1.put (PRT_STRM_STATUS_adm p) 9).portCancel p 8
    else if !s1.lockedSettled (portPll p) then s1.portCancel p 7
    else s1.setSeq (portPll p) { s1.seq[portPll p] with trailMet := true }

/-- Checks 6 and 7 hold: the start is admitted (R178). -/
def State.startAdmitted (s : State) (p : Fin 8) : State :=
  let d := portPll p
  if s.get (PRT_SEQ_STATUS_state p) = 1 && !s.seq[d].admitted && !s.seq[d].zeroing && s.primed d (s.primeBytes p) &&
      s.slotsFilled d (s.get (PRT_SEQ_START_entry p)) (fun _ => true) then
    ((s.setSeq d { s.seq[d] with admitted := true }).put (PRT_STRM_STATUS_adm p) 1).ev (portSrc p 9)
  else s

/-- Admission has not come by its time-out (R180). -/
def State.admitTimeout (s : State) (p : Fin 8) : State :=
  if s.get (PRT_SEQ_STATUS_state p) = 1 ∧ s.seq[portPll p].admitted = false ∧ s.get (PRT_SEQ_CTL_start_mode p) ≠ 1 ∧
      s.get (PRT_STRM_ADMIT_TMO_ms p) ≠ 0 then (s.put (PRT_STRM_STATUS_adm p) 9).portCancel p 8
  else s

/-- The fill has reached the prime level in HOLD: the port goes on at the first boundary at least K × T later, `phase`
after that instant (R147, R190), and not within a relock pause (R214). -/
def State.holdResume (s : State) (p : Fin 8) (phase : Nat) : State :=
  let d := portPll p
  if s.get (PRT_SEQ_STATUS_state p) = 3 && !(s.seq[d].paused && !s.seq[d].resume) && s.primed d (s.primeBytes p) &&
      s.slotsFilled d (s.get (PRT_SEQ_ENTRY_entry p)) (fun _ => true) then
    let r := s.portRate p
    let start := max s.tmb.clk s.seq[d].at_ + r.checkLead * r.periodTu + phase % max 1 r.periodTu
    let v := s.seqVec d
    let s1 := (s.countHold p start).wn (PRT_STRM_HOLD_LAST p) (min ((start - s.port[p].holdAt) / tuPerNs) 0xFFFFFFFF)
    let s2 := s1.setSeq d { s1.seq[d] with at_ := start, breakVec := v }
    ((s2.put (PRT_SEQ_STATUS_state p) 2).put (PRT_STRM_STATUS_hold p) 0).ev (portSrc p 11)
  else s

/-- HOLD_TMO has elapsed (R191). -/
def State.holdTimeout (s : State) (p : Fin 8) : State :=
  if s.get (PRT_SEQ_STATUS_state p) = 3 ∧ s.get (PRT_STRM_HOLD_TMO_us p) ≠ 0 then
    s.strmAbort p 2 (s.seqVec (portPll p)) (s.rn64 (PRT_STRM_ADDR_LO p))
  else s

/-- The time-out of the wait loop in issue elapses: its pass becomes the last (R151). A pause at a jump point belongs to
the pass that begins after it. -/
def State.waitTimeout (s : State) (d : Fin 12) : State :=
  let q := s.seq[d]
  match q.deadline with
  | none => s
  | some t =>
    if !s.unitRuns d then s
    else
      let s1 := s.advanceTo (t + (if h : d.val < 8 then tuPerStep * s.port[(⟨d.val, h⟩ : Fin 8)].comp else 0))
      if q.paused && decide (q.passVec = q.e.length) then s1
      else s1.setSeq d { q with timedOut := true, deadline := none }

/-- A write of PRT_TIMING_CTL.band (R118, R206). -/
def State.bandWrite (s : State) (p : Fin 8) (band : Nat) : State :=
  if s.portActive p ∨ 3 ≤ band % 4 then s
  else (s.put (PRT_TIMING_CTL_band p) band).fixM (portPll p) (s.word (portPll p)).rate

end Sys2Proof.Machine
end

