-- ==== Sys2Proof/Machine/Tim.lean ====
section
/-! DEFINITION. The TIM channels (chapter 08): edges, conversions, results, histograms, arming and blanking. Time stamps are in units of
2⁻¹³ ns of the count; the dead time, gates and differences of edges go by TB time, which a wrap, a zeroing or a STEP of the count does not
move (R229; DESIGN CHOICE, log entry 27). -/

namespace Sys2Proof.Machine

def State.setTim (s : State) (t : Fin 32) (x : TimH) : State := { s with tim := s.tim.set t x }

/-- The quadrant of a channel. -/
def timQ (t : Fin 32) : Fin 4 := ⟨t.val / 8, by omega⟩

/-- The TIM source word of a channel (Table 2.6). -/
def State.timSource (s : State) (t : Fin 32) : Nat := s.cs.timSrc.getD t 0

/-- Set a flag of TIM_STATUS with its bit of TIM_QEVT; a flag that goes from 0 to 1 raises its source (R288). -/
def State.timFlag (s : State) (t : Fin 32) (f : Fld) (q src : Nat) : State :=
  ((s.put f 1).setBit (TIM_QEVT (t / 8)) (8 * q + t % 8)).evIf (!s.on f) (64 * (t / 8) + src)

/-- The units of the calibration controller: TIM channel `t` is unit 16 + t (Table 16.1). -/
def State.calStale (s : State) (u : Nat) : Bool := s.bitAt (CAL_STALE (u / 32)) (u % 32)

/-- The effective delay of a channel (R456). -/
def State.timCal (s : State) (t : Nat) : Int :=
  toSigned 32 (s.rn (CAL_FACT_TIM t)) + toSigned 32 (s.rn (CAL_USER_TIM t))

/-- The threshold of the comparator of TIM_IN `i`, in 0.3 mV, with its effective offset (R269, R456). -/
def State.tinThreshold (s : State) (i : Nat) : Int :=
  (min 4000 (s.get (TIM_IN_THR_thr 0 i)) : Nat) + toSigned 16 (s.get (CAL_FACT_TIN_ofs i)) + toSigned 16 (s.get (CAL_USER_TIN_ofs i))

/-! ## Arming -/

/-- The first failing check of Table 8.3; 1 where all pass. -/
def State.timArmCode (s : State) (t : Fin 32) : Nat :=
  let partner := 8 * (t.val / 8) + s.get (TIM_CTL_partner t)
  if s.get (TIM_CTL_edge t) = 3 then 3
  else if s.get (TIM_CTL_kind t) = 2 ∧ (partner = t ∨ s.get (TIM_STATUS_state partner) = 0) then 4
  else if s.get (TIM_CTL_kind t) = 3 ∧ s.rn (TIM_GATE t) = 0 then 5
  else if s.on (TIM_HIST_CTL_en t) ∧ 20 < s.get (TIM_HIST_CTL_shift t) then 6
  else 1

/-- A write of arm = 1 (R277): the checks, the clearing and, in TAC mode, a bracket pair `v1`, `v2`. A lease that calibration or the
in-service test holds stays until they yield (R280). Edges of a run before it that are still in conversion keep their results (R278). -/
def State.timArm (s : State) (t : Fin 32) (v1 v2 : BitVec 12) : State :=
  let st := s.get (TIM_STATUS_state t)
  if st = 1 ∨ st = 4 ∨ st = 5 then
    let c := s.timArmCode t
    let s1 := s.put (TIM_STATUS_arm_code t) c
    if c ≠ 1 then s1.ev (64 * (t / 8) + 54)
    else
      let h := s.tim[t]
      let s2 := ((s1.put (TIM_CTL_arm t) 1).put (TIM_STATUS_state t) 2).wn (TIM_RESULTS t) 0
      let s3 := (s2.wn64 (TIM_EDGES_LO t) 0).setTim t {
        cal := s.timCal t, lastMeas := h.lastMeas
        pend := h.pend.map fun (x : TimPend) => { x with old := true }
        wait := h.wait.map fun (x : TimPend × TimConv) => ({ x.1 with old := true }, x.2)
        old := if h.pend.all (·.old) then h.old else { prev := h.prev, edges := h.edges, lost := h.lost } }
      let s4 := s3.sourceArmed ⟨16 + t.val, by omega⟩ true
      if s.get (TIM_CTL_mode t) = 0 then (s4.put (TIM_BRACKET_v1 t) v1.toNat).put (TIM_BRACKET_v2 t) v2.toNat else s4
  else s

/-- The channel stops (R278): edges already at the interpolator still produce their results, an open gate does not. -/
def State.timStop (s : State) (t : Fin 32) : State :=
  let st := s.get (TIM_STATUS_state t)
  if st = 2 ∨ st = 3 then
    ((s.put (TIM_STATUS_state t) 5).put (TIM_CTL_arm t) 0).setTim t { s.tim[t] with
      met := false, gBad := s.tim[t].gate :: s.tim[t].gBad }
  else s

/-- The arm condition, the DLL lock and the lease all hold: MEAS (R277, R280). -/
def State.timMeasStart (s : State) (t : Fin 32) : State :=
  if s.get (TIM_STATUS_state t) = 2 && (!s.on (TIM_CTL_arm_src t) || s.tim[t].met) &&
      (!s.on (TIM_CTL_mode t) || s.on (TIM_STATUS_dll_locked t)) && !s.on (TIM_STATUS_leased t) then
    (s.put (TIM_STATUS_state t) 3).setTim t { s.tim[t] with
      met := false, gAt := s.tmb.clk, gate := 0, gOf := 0, gFirst := none, gLast := none
      gBad := if s.on (TIM_STATUS_blanked t) then [0] else [] }
  else s

/-- The delay line declares lock (R272). -/
def State.timDllLock (s : State) (t : Fin 32) : State :=
  if s.on (TIM_CTL_mode t) && decide (s.get (TIM_STATUS_state t) ≠ 0) then s.put (TIM_STATUS_dll_locked t) 1 else s

/-- The delay line declares loss of lock (R272). -/
def State.timDllUnlock (s : State) (t : Fin 32) : State :=
  if s.on (TIM_STATUS_dll_locked t) then (s.put (TIM_STATUS_dll_locked t) 0).timFlag t (TIM_STATUS_dll_unlock t) 3 53 else s

/-! ## Edges -/

/-- The dead time (R274) in TB time. -/
def State.timDead (s : State) (t : Fin 32) : Int := if s.on (TIM_CTL_mode t) then tuPerNs else 18 * tuPerNs

/-- TIM_CTL.edge selects the edge. -/
def State.timSelected (s : State) (t : Fin 32) (falling : Bool) : Bool :=
  match s.get (TIM_CTL_edge t) with
  | 0 => !falling
  | 1 => falling
  | 2 => true
  | _ => false

/-! ## Results -/

/-- The span of R271 with its range error. -/
def tacSpan (v1 v2 vx : Int) : Int × Bool :=
  let span := 4096 + (8192 * (vx - v1) + (v2 - v1)) / (2 * (v2 - v1))
  if vx < v1 - 16 ∨ v2 + 16 < vx then (clampInt 4096 8192 span, true) else (span, false)

/-- A pair is good: its gain lies within its limits (R271). -/
def pairGood (v1 v2 : Nat) : Bool := decide (v1 + 3936 ≤ v2) && decide (v2 ≤ v1 + 4064)

/-- The conversion of an edge whose code or tap is `x` (R271, R272), with the counts and flags of its faults. -/
def State.timConvert (s : State) (t : Fin 32) (p : TimPend) (x : Nat) : State × TimConv :=
  let h := s.tim[t]
  let tb := fun (e : Int) => 1000 * e - p.ofs
  let stale := s.calStale (16 + t)
  if s.on (TIM_CTL_mode t) then
    let e : Int := p.coarse + (Config.tapCentre t (x % 64)).toNat - h.cal
    (s, { edge := e, tb := tb e, range := false, cal := stale })
  else
    let v1 := s.get (TIM_BRACKET_v1 t)
    let v2 := s.get (TIM_BRACKET_v2 t)
    let good := pairGood v1 v2
    let nominal := Config.bracket t
    let use := if good then (v1, v2) else h.good.getD (nominal.1.toNat, nominal.2.toNat)
    let r := tacSpan use.1 use.2 x
    let faults := (if good then 0 else 1) + (if r.2 then 1 else 0)
    let s1 := if good then s.setTim t { h with good := some (v1, v2) } else s
    let s2 := if faults = 0 then s1 else (s1.count (TIM_FAULT_CNT t) faults).timFlag t (TIM_STATUS_fault t) 2 52
    let e : Int := p.coarse - r.1 - h.cal
    (s2, { edge := e, tb := tb e, range := r.2, cal := stale || !good })

/-- The result word of Table 8.4. -/
def timWord (t : Nat) (value : Nat) (falling lost range cal : Bool) (kind count : Nat) : Nat :=
  value % 2 ^ 32 + 2 ^ 32 * (t % 256) + (if falling then 2 ^ 40 else 0) + (if lost then 2 ^ 41 else 0) +
  (if range then 2 ^ 42 else 0) + (if cal then 2 ^ 43 else 0) + 2 ^ 44 * (kind % 16) + 2 ^ 48 * (count % 2 ^ 16)

/-- A result goes to the histogram unit's queue, or is not histogrammed (R285, R286). -/
def State.timToHist (s : State) (t : Fin 32) (word : Nat) (range : Bool) : State :=
  let q := timQ t
  if !s.on (TIM_HIST_CTL_en t) ∨ range then s
  else if s.on (TIM_HIST_CTL_busy t) ∨ 256 ≤ s.x7[q].length then
    (s.count (TIM_HIST_DROP t)).timFlag t (TIM_STATUS_hist_drop t) 2 51
  else { s with x7 := s.x7.set q (s.x7[q] ++ [(t.val, word)]) }

/-- A result goes to the selected engine, unless X6 is full (R284). -/
def State.timToAcq (s : State) (t : Fin 32) (word : Nat) : State :=
  let src := s.timSource t
  let e : Fin 8 := ⟨2 * (t.val / 8) + bitsOf src 13 1 % 2, by have := t.isLt; omega⟩
  if !bit src 12 then s
  else
    let (s1, taken) := s.pushX6 e t word
    if taken then s1 else (s1.count (TIM_ACQ_DROP t)).timFlag t (TIM_STATUS_acq_drop t) 2 50

/-- A result is produced (R281, R282): registers, engine and histogram, then DONE where the count is reached. A result of a stopped run
does not count in the run armed since (R278). -/
def State.timProduce (s : State) (t : Fin 32) (value : Nat) (falling range cal old : Bool) (count : Nat) : State :=
  let h := s.tim[t]
  let lost := if old then h.old.lost else h.lost
  let word := timWord t value falling lost range cal (s.get (TIM_CTL_kind t)) (min count 0xFFFF)
  let n := min (s.rn (TIM_RESULTS t) + 1) 0xFFFFFFFF
  let s1 := (s.setTim t (if old then { h with old := { h.old with lost := false } } else { h with lost := false })).wn64
    (TIM_LAST_RES_LO t) word
  let s2 := if old then s1 else s1.wn (TIM_RESULTS t) n
  let s3 := (s2.timToAcq t word).timToHist t word range
  if !old && decide (s.get (TIM_STATUS_state t) = 3 ∧ s.rn (TIM_COUNT t) ≠ 0 ∧ s.rn (TIM_COUNT t) ≤ n) then
    (((s3.put (TIM_STATUS_state t) 4).put (TIM_CTL_arm t) 0).setTim t { s3.tim[t] with pend := [], wait := [] }).timFlag t
      (TIM_STATUS_done t) 0 48
  else s3

/-- A difference of two edges in 2⁻¹³ ns. -/
def edgeDiff (a b : Int) : Int := (a - b) / 1000

/-! ### FREQ gates (R282, R283) -/

/-- A gate that has ended gives its result, if an edge was measured in it and nothing spoilt it. -/
def State.gateResult (s : State) (t : Fin 32) (gate : Nat) : State :=
  let h := s.tim[t]
  match h.gFirst, h.gLast with
  | some a, some b =>
    if h.gOf ≠ gate then s
    else
      let s1 := s.setTim t { h with gFirst := none, gLast := none }
      if h.gBad.contains gate then s1
      else
        let d := edgeDiff b.1 a.1
        let sat := decide (0xFFFFFFFF < d)
        s1.timProduce t (if sat then 0xFFFFFFFF else d.toNat) h.gFalling (h.gRange || sat)
          (h.gCal || s.calStale (16 + t)) false (b.2 - a.2)
  | _, _ => s

/-- The gates that have ended by now: each lasts TIM_GATE × 8 ns from the end of the one before. A result waits for the conversions of its
gate's edges. -/
def State.timGates (s : State) (t : Fin 32) : State :=
  let h := s.tim[t]
  let len := 8 * tuPerNs * s.rn (TIM_GATE t)
  let n := (s.tmb.clk - h.gAt) / max 1 len
  if s.get (TIM_STATUS_state t) ≠ 3 ∨ s.get (TIM_CTL_kind t) ≠ 3 ∨ len = 0 ∨ n = 0 then s
  else
    let bad := if s.on (TIM_STATUS_blanked t) then (h.gate + n) :: h.gBad else h.gBad
    let s1 := s.setTim t { h with gate := h.gate + n, gAt := h.gAt + n * len, gBad := bad.take 4 }
    if h.pend.any fun (x : TimPend) => decide (x.gate = h.gate) && !x.old then s1 else s1.gateResult t h.gate

/-- A FREQ gate ends and the next one opens. -/
def State.timGateEnd (s : State) (t : Fin 32) : State :=
  if s.get (TIM_STATUS_state t) = 3 ∧ s.get (TIM_CTL_kind t) = 3 then
    (s.advanceTo (s.tim[t].gAt + 8 * tuPerNs * s.rn (TIM_GATE t))).timGates t
  else s

/-- A measured edge of a FREQ channel enters its gate, which gives its result where it has ended and no other edge of it converts. -/
def State.gateEdge (s : State) (t : Fin 32) (p : TimPend) (c : TimConv) : State :=
  let h := s.tim[t]
  let new := decide (h.gOf ≠ p.gate) || h.gFirst.isNone
  let s1 := s.setTim t { h with
    gFirst := if new then some (c.tb, p.number) else h.gFirst
    gLast := some (c.tb, p.number), gOf := p.gate, gFalling := p.falling, gRange := c.range, gCal := c.cal }
  if p.gate < h.gate ∧ !h.pend.any (fun (x : TimPend) => decide (x.gate = p.gate) && !x.old) then s1.gateResult t p.gate else s1

/-! ### Edges -/

/-- An edge of the input at count instant `at_` (R270, R272, R274 to R276): discarded while blanked, lost in the dead time
or without DLL lock, measured otherwise. -/
def State.timEdge (s0 : State) (t : Fin 32) (at_ : Nat) (falling : Bool) : State :=
  let s := (s0.advance (1000 * at_ - s0.tmb.count)).timGates t
  if s.get (TIM_STATUS_state t) ≠ 3 ∨ !s.timSelected t falling ∨ s.on (TIM_STATUS_blanked t) then s
  else
    let h := s.tim[t]
    let number := s.rn64 (TIM_EDGES_LO t)
    let s1 := s.wn64 (TIM_EDGES_LO t) (number + 1)
    let inDead := match h.lastMeas with
      | none => false
      | some l => decide ((s.tmb.clk : Int) < l + s.timDead t)
    if inDead || (s.on (TIM_CTL_mode t) && !s.on (TIM_STATUS_dll_locked t)) then
      ((s1.setTim t { h with since := h.since + 1, lost := true }).count (TIM_LOST t)).timFlag t (TIM_STATUS_lost t) 1 49
    else
      let coarse := if s.on (TIM_CTL_mode t) then at_ / 4096 * 4096 else (at_ / 4096 + 2) * 4096
      let x : TimPend := { coarse := coarse, falling := falling, number := number, n := h.since + 1, ep := s.tmb.epoch
                           ofs := (s.tmb.count : Int) - s.tmb.clk, at_ := s.tmb.clk, gate := h.gate }
      (s1.setTim t { h with since := 0, lastMeas := some s.tmb.clk, pend := h.pend ++ [x] }).pulse (0x50 + t)

/-- The partner channel of a channel (Table 8.5). -/
def State.timPartner (s : State) (t : Fin 32) : Fin 32 := ⟨(8 * (t.val / 8) + s.get (TIM_CTL_partner t)) % 32, Nat.mod_lt _ (by decide)⟩

/-- An edge of the partner at or before TB time `tb` is still in conversion (R283). -/
def State.partnerBusy (s : State) (t : Fin 32) (tb : Int) : Bool :=
  let u := s.timPartner t
  s.tim[u].pend.any fun (x : TimPend) => decide ((x.at_ : Int) - 1000 * s.tim[u].cal ≤ tb)

/-- The result of an INTERVAL channel's edge (R283): none without an edge of the partner. -/
def State.timInterval (s : State) (t : Fin 32) (p : TimPend) (c : TimConv) : State :=
  let h := s.tim[t]
  match (if p.old then h.old.edges else h.edges).find? fun b => decide (b ≤ c.tb) with
  | none => (s.count (TIM_NOREF t)).timFlag t (TIM_STATUS_noref t) 2 55
  | some b =>
    let d := edgeDiff c.tb b
    let v := clampInt (-2147483647) 2147483647 d
    s.timProduce t (ofSigned 32 v) p.falling (c.range || decide (v ≠ d)) c.cal p.old (p.number % 2 ^ 16)

/-- The edges of an INTERVAL channel that waited for its partner give their results, as far as it has converted. -/
def State.timWaiting (t : Fin 32) : Nat → State → State
  | 0, s => s
  | fuel + 1, s =>
    match s.tim[t].wait with
    | [] => s
    | (p, c) :: l =>
      if s.partnerBusy t c.tb then s
      else State.timWaiting t fuel ((s.setTim t { s.tim[t] with wait := l }).timInterval t p c)

/-- Channels of the quadrant for which `t` is the partner take note of its measured edge, and their edges that waited for it give their
results (R283). -/
def State.timTellPartners (s : State) (t : Fin 32) (tb : Int) : State :=
  (List.finRange 32).foldl (fun (a : State) (u : Fin 32) =>
    if u.val / 8 = t.val / 8 ∧ a.get (TIM_CTL_partner u) = t.val % 8 ∧ 2 ≤ a.get (TIM_STATUS_state u) then
      let h := a.tim[u]
      let b := a.setTim u { h with
        edges := (tb :: h.edges).take 32, old := { h.old with edges := (tb :: h.old.edges).take 32 } }
      State.timWaiting u h.wait.length b
    else a) s

/-- The conversion of the oldest edge completes (R270, R273, R282, R283): `x` is its code or tap, `v1` and `v2` the
bracket pair that the channel takes after it in TAC mode. -/
def State.timResult (s : State) (t : Fin 32) (x : BitVec 12) (v1 v2 : BitVec 12) : State :=
  match s.tim[t].pend with
  | [] => s
  | p :: rest =>
    let (s1, c) := (s.setTim t { s.tim[t] with pend := rest }).timConvert t p x.toNat
    let s2 := if s.on (TIM_CTL_mode t) then s1
      else (s1.put (TIM_BRACKET_v1 t) v1.toNat).put (TIM_BRACKET_v2 t) v2.toNat
    let ts := 8 * c.edge + ((s.clockMap p.at_).2.2 : Int)
    let ep := if c.edge < 0 then (p.ep + 65535) % 65536 else p.ep
    let s3 := ((s2.wn64 (TIM_LAST_TS_LO t) (ofSigned 64 ts)).put (TIM_LAST_EP_epoch t) ep).timTellPartners t c.tb
    let h := s3.tim[t]
    let prev := if p.old then h.old.prev else h.prev
    let s4 := s3.setTim t (if p.old then { h with old := { h.old with prev := some c.tb } }
      else { h with prev := some c.tb, lastMeas := if rest = [] then some c.tb else h.lastMeas })
    match s.get (TIM_CTL_kind t) with
    | 0 => s4.timProduce t (ofSigned 32 c.edge) p.falling c.range c.cal p.old (p.number % 2 ^ 16)
    | 1 =>
      match prev with
      | none => s4
      | some b =>
        let d := edgeDiff c.tb b
        let sat := decide (0xFFFFFFFF < d)
        s4.timProduce t (if sat then 0xFFFFFFFF else d.toNat) p.falling (c.range || sat) c.cal p.old p.n
    | 2 =>
      if s4.tim[t].wait ≠ [] ∨ s4.partnerBusy t c.tb then s4.setTim t { s4.tim[t] with wait := s4.tim[t].wait ++ [(p, c)] }
      else s4.timInterval t p c
    | _ => if p.old then s4 else s4.gateEdge t p c

/-! ## Histograms (R285, R286) -/

/-- The histogram unit of a quadrant takes its oldest result. -/
def State.timHistUpdate (s : State) (q : Fin 4) : State :=
  match s.x7[q] with
  | [] => s
  | (k, word) :: l =>
    let s1 := { s with x7 := s.x7.set q l }
    let t : Fin 32 := ⟨k % 32, Nat.mod_lt _ (by decide)⟩
    let v0 : Int := if word / 2 ^ 44 % 16 = 2 then toSigned 32 word else (word % 2 ^ 32 : Nat)
    let fold := s.rn (TIM_HIST_FOLD t)
    let v := if fold = 0 then v0 else v0 % (fold : Int)
    let d := v - toSigned 32 (s.rn (TIM_HIST_OFS t))
    let b := d.toNat / 2 ^ s.get (TIM_HIST_CTL_shift t)
    if s.on (TIM_HIST_CTL_busy t) then (s1.count (TIM_HIST_DROP t)).timFlag t (TIM_STATUS_hist_drop t) 2 51
    else if d < 0 then s1.count (TIM_HIST_UNDER t)
    else if 4096 ≤ b then s1.count (TIM_HIST_OVER t)
    else if s.rn (TIM_HIST_BIN t b) ≠ 0xFFFFFFFF then s1.count (TIM_HIST_BIN t b)
    else s1.timFlag t (TIM_STATUS_hist_drop t) 2 51

/-- A write of TIM_HIST_CTL.clear = 1: busy while the bins are zeroed. -/
def State.timHistClear (s : State) (t : Fin 32) : State := s.put (TIM_HIST_CTL_busy t) 1

/-- The clear completes. -/
def State.timHistClearDone (s : State) (t : Fin 32) : State :=
  if s.on (TIM_HIST_CTL_busy t) then
    let lo := TIM_HIST_BIN t 0
    let s1 := { s with csr := cellsClear (fun k => decide (lo ≤ k) && decide (k < lo + 0x4000)) s.csr }
    ((s1.wn (TIM_HIST_UNDER t) 0).wn (TIM_HIST_OVER t) 0).put (TIM_HIST_CTL_busy t) 0
  else s

/-! ## Blanking (R276) -/

/-- The channel's source is a comparator of a pin that port `p` owns. -/
def State.timOnPort (s : State) (t : Fin 32) (p : Nat) : Bool :=
  let src := s.timSource t
  let kind := bitsOf src 14 2
  (decide (kind = 1) || decide (kind = 2)) && decide (s.cs.ownerOf (8 * (t.val / 8) + bitsOf src 0 6 / 8) = some p)

/-- Blanking starts or ends on the channels of a port's pins: the next measured edge starts anew. -/
def State.timBlank (s : State) (p : Nat) (on : Bool) : State :=
  (List.finRange 32).foldl (fun (a : State) (t : Fin 32) =>
    if a.timOnPort t p then
      let b := (a.put (TIM_STATUS_blanked t) (if on then 1 else 0)).setTim t { a.tim[t] with
        prev := if on then a.tim[t].prev else none, since := if on then a.tim[t].since else 0
        gBad := a.tim[t].gate :: a.tim[t].gBad }
      (List.finRange 32).foldl (fun (c : State) (u : Fin 32) =>
        if u.val / 8 = t.val / 8 ∧ c.get (TIM_CTL_partner u) = t.val % 8 then c.setTim u { c.tim[u] with edges := [] }
        else c) b
    else a) s

end Sys2Proof.Machine
end

