-- ==== Sys2Proof/Machine/PortIssue.lean ====
section
/-! DEFINITION. What a port does at a vector-period boundary: the jump point (R136 to R155, R537), the data it needs (R104,
R188 to R192), the vector it issues (R86 to R131, R339, R440) and the first vector of a start (R156, R234, R235). -/

namespace Sys2Proof.Machine

/-! ## Timing groups and edges (R106 to R121) -/

/-- The words of a timing group (Table 3.6). -/
structure Grp where
  d0 : Nat
  d1 : Nat
  d2 : Nat
  e0 : Nat
  e1 : Nat
  c0 : Nat
  c1 : Nat
  fmt : Nat
  window : Bool
  relative : Bool
  deriving DecidableEq, Repr

/-- Group `g` of timeset `t` of a port. -/
def State.grp (s : State) (p : Fin 8) (t g : Nat) : Grp :=
  let w := fun k => bitsOf (s.rn (TST_WORD p t g k)) 0 20
  let c := s.rn (TST_WORD p t g 7)
  { d0 := w 0, d1 := w 1, d2 := w 2, e0 := w 3, e1 := w 4, c0 := w 5, c1 := w 6
    fmt := bitsOf c 0 3, window := bit c 3, relative := bit c 4 }

/-- Group `g` of timeset `t` is valid in the band (R114). -/
def State.grpValid (s : State) (p : Fin 8) (band t g : Nat) : Bool :=
  let c := s.rn (TST_WORD p t g 7)
  ((List.range 7).all fun k => decide (s.rn (TST_WORD p t g k) < 2 ^ 20)) && decide (c < 32) &&
  (if band = 0 then decide (bitsOf c 0 3 < 4) else decide (bitsOf c 0 4 = 0))

/-- Every group of a timeset is valid in the band (Table 3.5, code 9). -/
def State.timesetOk (s : State) (p : Fin 8) (band t : Nat) : Bool :=
  (List.range 8).all fun g => s.grpValid p band t g

/-- The drive edges of a format in Band A with the level each sets (Table 3.8). -/
def driveEdges (g : Grp) (data : Bool) : List (EdgePath × Nat × Bool) :=
  match g.fmt with
  | 1 => [(.drive, g.d0, data), (.drive, g.d1, false)]
  | 2 => [(.drive, g.d0, data), (.drive, g.d1, true)]
  | 3 => [(.drive, g.d0, !data), (.drive, g.d1, data), (.drive, g.d2, !data)]
  | _ => [(.drive, g.d0, data)]

/-- The compare-path edges that a state uses (R121). -/
def compareEdges (g : Grp) (st : PinSt) : List (EdgePath × Nat × Bool) :=
  if st.compares then (.compare, g.c0, false) :: (if g.window then [(.compare, g.c1, false)] else [])
  else if st = .cap then [(.compare, g.c0, false)]
  else []

/-- The edges that a pin uses in a vector, each with its field and the level it sets (R113, R115, R116, R121). -/
def edgesOf (band : Nat) (g : Grp) (st : PinSt) : List (EdgePath × Nat × Bool) :=
  let data := decide (st = .d1)
  (match band with
  | 0 => if st.drives then driveEdges g data ++ [(.enable, g.e0, true)] else [(.enable, g.e1, false)]
  | 1 => (if st.drives then [(.drive, g.d0, data)] else []) ++ [(.enable, g.e0, st.drives)]
  | _ => (if st.drives then [(.drive, g.d0, data)] else []) ++ [(.enable, g.d0, st.drives)]) ++ compareEdges g st

/-- An edge field in steps, and whether it was clamped (R108, R120). -/
def edgeSteps (r : Rate) (relative : Bool) (f : Nat) : Nat × Bool :=
  if relative then (r.relSteps f, false) else if r.clamps f then (r.lastStep, true) else (f, false)

/-- The minimum spacing of a path in steps (R121). -/
def EdgePath.space : EdgePath → Int
  | .compare => 400
  | _ => 500

def EdgePath.code : EdgePath → Nat
  | .drive => 0 | .enable => 1 | .compare => 2

/-- The instant of an edge before its calibrated delay and offset, and whether it was clamped or adjusted (R120, R121);
`at_` is the start of the vector in units of 1/8192 ps. -/
def placed (r : Rate) (at_ band pin : Nat) (g : Grp) (prev : List (Nat × Int)) (path : EdgePath) (f : Nat) : Int × Bool :=
  let st := edgeSteps r g.relative f
  let t : Int := at_ + 2048 * st.1
  if band = 2 then (t, st.2)
  else
    match prev.lookup (4 * pin + path.code) with
    | none => (t, st.2)
    | some x => if t < x + 2048 * path.space then (x + 2048 * path.space, true) else (t, st.2)

/-- The calibrated delay plus the program offset of a path of a device pin, in steps (R119, R121, R456). -/
def State.pathOfs (s : State) (n : Nat) : EdgePath → Int
  | .drive => toSigned 16 (s.get (CAL_FACT_EDGE_A_drive n)) + toSigned 16 (s.get (CAL_USER_EDGE_A_drive n)) +
      toSigned 16 (s.get (OCT_PIN_OFS_drive_ofs (n / 8) (n % 8)))
  | .enable => toSigned 16 (s.get (CAL_FACT_EDGE_A_enable n)) + toSigned 16 (s.get (CAL_USER_EDGE_A_enable n)) +
      toSigned 16 (s.get (OCT_PIN_OFS_drive_ofs (n / 8) (n % 8)))
  | .compare => toSigned 16 (s.get (CAL_FACT_EDGE_B_compare n)) + toSigned 16 (s.get (CAL_USER_EDGE_B_compare n)) +
      toSigned 16 (s.get (OCT_PIN_OFS_cmp_ofs (n / 8) (n % 8)))

/-- The placing of a vector's edges so far: the last edge of each path, the edges issued, and the pins of the edges that
were clamped or adjusted, once each. -/
structure Placing where
  prev : List (Nat × Int)
  out : List EdgeOut
  adj : List Nat

/-- Place one edge of port pin index `i`, device pin `n` (R121); the D0 edge of Band C counts once though it moves both DRV
and DEN. -/
def State.placeEdge (s : State) (r : Rate) (at_ band comp : Nat) (g : Grp) (i n : Nat) (a : Placing)
    (x : EdgePath × Nat × Bool) : Placing :=
  let t := placed r at_ band i g a.prev x.1 x.2.1
  let key := 4 * i + x.1.code
  { prev := (key, t.1) :: a.prev.filter fun y => y.1 ≠ key
    out := a.out ++ [{ pin := i, path := x.1, instant := t.1 + 2048 * (s.pathOfs n x.1 + comp), level := x.2.2 }]
    adj := if t.2 && !(decide (band = 2) && decide (x.1 = .drive)) then a.adj ++ [i] else a.adj }

/-- The pins of a vector: port pin index, device pin, and the state in force, CAP being CX where nothing samples it (R88,
R131). -/
def State.vectorPins (s : State) (p : Fin 8) (e : Entry) (v : Vec) : List (Nat × Nat × PinSt) :=
  let bound := (List.range 8).any fun k => s.cs.acqEn.getD k false && decide (s.cs.acqPort.getD k 0 = p)
  let pins := s.cs.pins p
  (List.range pins.length).map fun i =>
    let st := v.pins.getD i .dz
    (i, pins.getD i 0, if st = .cap ∧ !(e.capture && bound) then .cx else st)

/-- The timing group of a device pin in a timeset (R107). -/
def State.pinGrp (s : State) (p : Fin 8) (t n : Nat) : Grp := s.grp p t (s.get (OCT_PIN_CFG_tgroup (n / 8) (n % 8)))

/-- Place every edge of a vector. -/
def State.placeAll (s : State) (p : Fin 8) (r : Rate) (at_ band t : Nat) (pins : List (Nat × Nat × PinSt)) : Placing :=
  pins.foldl (fun (a : Placing) (x : Nat × Nat × PinSt) =>
    let g := s.pinGrp p t x.2.1
    (edgesOf band g x.2.2).foldl (s.placeEdge r at_ band s.port[p].comp g x.1 x.2.1) a)
    { prev := s.port[p].prevEdge, out := [], adj := [] }

/-- The levels after a vector's edges on one path. -/
def levelsAfter (path : EdgePath) (old : BitVec 64) (l : List EdgeOut) : BitVec 64 :=
  l.foldl (fun (b : BitVec 64) (x : EdgeOut) =>
    if x.path = path then (if x.level then b ||| BitVec.ofNat 64 (2 ^ x.pin) else b &&& ~~~ BitVec.ofNat 64 (2 ^ x.pin))
    else b) old

/-- The clamps and adjustments are counted, but not in a secret entry (R122, Table 15.10). -/
def State.countAdjusted (s : State) (p : Fin 8) (adj : List Nat) : State :=
  let pins := s.cs.pins p
  adj.foldl (fun (a : State) (i : Nat) =>
    let n := pins.getD i 0
    ((a.count (OCT_ADJ_CNT (n / 8) (n % 8))).count (PRT_ADJ_TOTAL p)).ev (portSrc p 1)) s

/-- The pins whose compare failed, as a mask over port pin indices (R87, R117). -/
def State.failMask (s : State) (p : Fin 8) (band t : Nat) (x : Seen) (pins : List (Nat × Nat × PinSt)) : Nat :=
  (pins.map fun (y : Nat × Nat × PinSt) =>
    let n := y.2.1
    let win := decide (band = 0) && (s.pinGrp p t n).window
    let ok := !y.2.2.compares || s.on (OCT_PIN_CFG_cmp_mask (n / 8) (n % 8)) ||
      (y.2.2.pass (x.cmph.getLsbD y.1) (x.cmpl.getLsbD y.1) && !(win && x.departed.getLsbD y.1))
    if ok then 0 else 2 ^ y.1).sum

/-! ## Ways out at a data or format check -/

/-- The management address of a window offset of the entry in issue. -/
def State.dataAddr (s : State) (p : Fin 8) (off : Nat) : Nat := s.windowAddr (portUnit p) s.seq[portUnit p].e.tier off

/-- A check of Table 3.5 fails (R104, R105); in a secret entry only the code shows (Table 15.10). -/
def State.formatAbort (s : State) (p : Fin 8) (code pin ts addr : Nat) : State :=
  let secret := s.seq[portUnit p].e.secret
  (s.tmgFail p code (if secret then 0xFF else pin) (if secret then 0 else ts) (s.seqVec (portUnit p)) addr).portLeave
    p 6 2 0 false

/-- A check of a block or template fails (R536). -/
def State.blockAbort (s : State) (p : Fin 8) (f : BlockFail) (off : Nat) : State :=
  match f with
  | .tmg code pin => s.formatAbort p code pin 0 (s.dataAddr p off)
  | .outOfWindow => s.portLeave p 6 1 2 false

/-- The port enters HOLD at the vector about to be issued (R189, R190). -/
def State.enterHold (s : State) (p : Fin 8) (addr : Nat) : State :=
  let d := portUnit p
  let s1 := ((s.put (PRT_SEQ_STATUS_state p) 3).put (PRT_STRM_STATUS_hold p) 1).put (PRT_STRM_STATUS_hold_seen p) 1
  let s2 := ((s1.count (PRT_STRM_HOLD_CNT p)).wn64 (PRT_STRM_VEC_LO p) (s.seqVec d)).wn64 (PRT_STRM_ADDR_LO p) addr
  (s2.setPort p { s2.port[p] with holdAt := s.seq[d].at_ }).ev (portSrc p 10)

/-- The vector about to be issued is a waypoint (R134, Table 4.1). -/
def State.atWaypoint (s : State) (p : Fin 8) : Bool :=
  let q := s.seq[portUnit p]
  decide (q.e.waypoint = 2) || (decide (q.e.waypoint = 1) && decide (q.passVec = 0))

/-- The far store does not serve an address: in recovery, down or absent (Table 5.4, row 4). -/
def State.farOut (s : State) (addr : Nat) : Bool :=
  match s.farHalf (addr - farBase) with
  | none => true
  | some h => decide (s.halfState h ≠ 3)

/-- The outcome of missing or errored data of a tier at the vector about to be issued (Table 5.4, R192). -/
def State.dataOutcome (s : State) (p : Fin 8) (b : BlockSt) (tier addr : Nat) : State :=
  let v := s.seqVec (portUnit p)
  match b with
  | .ready => s
  | .memError => s.strmAbort p 3 v addr
  | .authFail => s.strmAbort p 6 v addr
  | .empty =>
    if tier = 1 ∧ s.on (DMC_STATUS_frozen (p / 2)) then s.strmAbort p 4 v addr
    else if tier = 2 ∧ s.farOut addr then s.strmAbort p 5 v addr
    else if s.atWaypoint p then
      if s.seq[portUnit p].stopReq then s.portLeave p 5 5 0 false else s.enterHold p addr
    else s.strmAbort p 1 v addr

/-- The worse of two block states: the first row of Table 5.4 that applies. -/
def BlockSt.worse : BlockSt → BlockSt → BlockSt
  | .memError, _ => .memError
  | _, .memError => .memError
  | .authFail, _ => .authFail
  | _, .authFail => .authFail
  | .empty, _ => .empty
  | _, x => x

/-- A sparse segment's template is due. -/
def State.templateDue (s : State) (p : Fin 8) : Bool :=
  s.seq[portUnit p].e.sparse && decide (s.seq[portUnit p].block = 0)

/-- The offset of the block that holds the vector about to be issued: behind its template where that is due. -/
def State.blockOff (s : State) (p : Fin 8) : Nat :=
  let d := portUnit p
  let q := s.seq[d]
  if s.templateDue p then q.off + s.issueBytes d q.e q.off else q.off

/-- A line was valid at the check instant of the vector about to be issued (R188): the start of vector v − K where the vectors from there
were issued without a break, else K periods before its own start. -/
def State.inTime (s : State) (p : Fin 8) (l : RLine) : Bool :=
  let d := portUnit p
  let r := s.portRate p
  let v := s.seqVec d
  if s.seq[d].breakVec + r.checkLead ≤ v then decide (l.validAt ≤ v - r.checkLead)
  else decide (l.validTb + r.checkLead * r.periodTu ≤ s.seq[d].at_ + tuPerStep * s.port[p].comp)

/-- What the port finds for the vector about to be issued among the data that came in time, with the tier and address that Table 5.4
goes by. -/
def State.dataBy (s : State) (p : Fin 8) (inTime : RLine → Bool) : BlockSt × Nat × Nat :=
  let d := portUnit p
  let q := s.seq[d]
  let x := s.get (seqEntryF d)
  let need := if s.port[p].vecs ≠ [] then (BlockSt.ready) else
    let b := s.blockState d q.e q.off inTime
    if s.templateDue p && decide (b = .ready) then s.blockState d q.e (s.blockOff p) inTime else b
  if need ≠ .ready then (need, q.e.tier, s.dataAddr p q.off)
  else if q.passVec = 0 ∧ q.pass = 0 ∧ q.e.kind.requests ∧ !s.slotsFilled d x inTime then
    let miss := (s.slotNeeds d x).find? fun t => !s.slotFilled d x inTime t
    let e := s.entryAt (miss.getD 0)
    (.empty, e.tier, s.windowAddr d e.tier e.dataOffset)
  else (.ready, 0, 0)

/-- The vector about to be issued begins a streamed block whose header line the ring holds. -/
def State.readsRing (s : State) (p : Fin 8) : Bool :=
  let d := portUnit p
  let q := s.seq[d]
  decide (s.port[p].vecs = []) && decide (q.e.tier ≠ 0) &&
  decide (linesSt (fun _ => true) q.ring 1 (lineOf (s.windowAddr d q.e.tier q.off)) = .ready)

/-- What the port finds at the check instant of the vector about to be issued (R188). -/
def State.dataCheck (s : State) (p : Fin 8) : BlockSt × Nat × Nat := s.dataBy p (s.inTime p)

/-- A row of Table 5.4 from 1 to 4 that comes to apply while the port is in HOLD aborts it (R191). -/
def State.holdFault (s : State) (p : Fin 8) : State :=
  if s.get (PRT_SEQ_STATUS_state p) ≠ 3 then s
  else
    let v := s.seqVec (portUnit p)
    match s.dataBy p (fun _ => true) with
    | (.memError, _, addr) => s.strmAbort p 3 v addr
    | (.authFail, _, addr) => s.strmAbort p 6 v addr
    | (.empty, tier, addr) =>
      if tier = 1 ∧ s.on (DMC_STATUS_frozen (p / 2)) then s.strmAbort p 4 v addr
      else if tier = 2 ∧ s.farOut addr then s.strmAbort p 5 v addr
      else s
    | (.ready, _, _) => s

/-- R191 over every port. -/
def State.holdFaults (s : State) : State := (List.finRange 8).foldl (fun (a : State) (p : Fin 8) => a.holdFault p) s

/-! ## Blocks -/

/-- Take the next block of the pass into the decompressor, with a template that is due (R104, R536). False where the port
left its run. -/
def State.loadBlock (s : State) (p : Fin 8) : State × Bool :=
  let d := portUnit p
  let q := s.seq[d]
  let P := s.cs.pinCount p
  let win := s.windowSize d q.e.tier
  let words := fun off k => s.dataWord d q.e (off + 8 * k)
  let off1 := s.blockOff p
  let n := if q.e.sparse then q.block - (if s.templateDue p then 0 else 1) else q.block
  let V := q.e.blockVectors n
  let tmpl : Except BlockFail (Option Template) :=
    if s.templateDue p then (decodeTemplate (words q.off) P (win - q.off)).map some else .ok s.port[p].template
  match tmpl with
  | .error f => (s.blockAbort p f q.off, false)
  | .ok t =>
    let body := match t with
      | some x => if q.e.sparse then decodeSparse (words off1) x P V (win - off1)
        else decodeFull (words off1) P V (win - off1) (decide (s.get (PRT_TIMING_CTL_band p) = 2))
      | none => decodeFull (words off1) P V (win - off1) (decide (s.get (PRT_TIMING_CTL_band p) = 2))
    match body with
    | .error f => (s.blockAbort p f off1, false)
    | .ok vs =>
      let fin := off1 + s.issueBytes d q.e off1
      let blk := q.block + (if s.templateDue p then 2 else 1)
      let s1 := s.consume d q.e fin (decide (q.e.units d ≤ blk))
      let s2 := if q.e.tier = 0 then s1
        else s1.wn64 (PRT_STRM_BYTES_LO p) ((s.rn64 (PRT_STRM_BYTES_LO p) + (fin - q.off)) % 2 ^ 64)
      let s3 := s2.setSeq d { s2.seq[d] with block := blk, off := fin }
      (s3.setPort p { s3.port[p] with vecs := vs, template := t }, true)

/-! ## The jump point -/

/-- The locked region of a port in bytes of its tier-0 window: base and end (R436). -/
def State.lockedRegion (s : State) (p : Fin 8) : Option (Nat × Nat) :=
  if s.on (SEC_RK_REGION_locked p) then
    let b := 0x10000 * s.get (SEC_RK_REGION_base p)
    some (b, b + 0x10000 * s.get (SEC_RK_REGION_size p))
  else none

/-- R133 or R437 is broken by an entry. -/
def State.secretRule (s : State) (p : Fin 8) (e : Entry) : Bool :=
  let d := portUnit p
  let fin := fun limit => s.dataEnd d e limit (e.units d) (e.units d) e.dataOffset
  if e.secret then
    decide (e.kind = .match_) || decide (e.kind = .mismatch) ||
    match s.lockedRegion p with
    | none => true
    | some (a, b) => decide (e.tier ≠ 0) || decide (e.dataOffset < a) || decide (b < fin (b + 1))
  else
    match s.lockedRegion p with
    | none => false
    | some (a, b) => decide (e.tier = 0) && decide (e.dataOffset < b) && decide (a < fin (a + 1))

/-- A pass is shorter than Lmin (R154). -/
def State.shortPass (s : State) (p : Fin 8) (e : Entry) : Bool := decide (e.length < (s.portRate p).lmin)

/-- A pass is too short for its match range (R150). -/
def State.matchShort (s : State) (p : Fin 8) (e : Entry) : Bool :=
  (decide (e.kind = .match_) || decide (e.kind = .mismatch)) &&
  (decide (e.length < e.matchN) || (e.tailAuto && decide (e.length < (s.portRate p).window + e.matchN)))

/-- Count a use of the port's Rucksack (R438); none where it is refused. -/
def State.countUse (s : State) (p : Fin 8) : Option State :=
  let id := s.rn (SEC_RK_ID p)
  match s.useTab.find? fun x => decide (x.1 = id) with
  | none => none
  | some (_, n, limit) =>
    if limit < n + 1 ∨ 64 ≤ s.receipts.length then none
    else
      let at_ := s.seq[portUnit p].at_
      let u : RunUse := {
        id := id, use := n + 1, limit := limit, tsStart := s.stampAt at_, epStart := s.epochAt at_, tsEnd := 0, result := 0
        vectors := 0 }
      let tab := s.useTab.map fun x => if x.1 = id then (id, n + 1, limit) else x
      let s1 := { s with useTab := tab }
      some (((s1.setPort p { s1.port[p] with use := some u }).wn (SEC_RK_LEFT p) (limit - (n + 1))).ev 398)

/-- The checks before an entry's first vector, in the order of R537; none where one of them ended the run. -/
def State.entryCheck (s : State) (p : Fin 8) (e : Entry) (dirErr : Bool) : State × Bool :=
  let d := portUnit p
  let addr := s.windowAddr d e.tier e.dataOffset
  let policy := s.get SEC_POLICY_flags
  let seq := fun code => (s.portLeave p 6 1 code false, false)
  let strm := fun code => (s.strmAbort p code (s.seqVec d) addr, false)
  if dirErr then seq 8
  else if !e.valid then seq 1
  else if !e.offsetOk (s.windowSize d e.tier) then seq 2
  else if s.secretRule p e then seq 5
  else if e.enc ∧ e.tier = 0 then strm 8
  else if e.tier ≠ 0 ∧ !e.enc ∧ policy % 4 ≠ 0 then strm 7
  else if e.tier ≠ 0 ∧ s.demand d e.tier = 0 then strm 9
  else if s.shortPass p e then seq 7
  else if s.matchShort p e then seq 6
  else if e.secret ∧ s.port[p].use = none then
    match s.countUse p with
    | none => ((s.ev 400).portLeave p 6 4 0 false, false)
    | some s1 => (s1, true)
  else (s, true)

/-- The sequencer stands at the first vector of a pass. -/
def State.beginPass (s : State) (p : Fin 8) (pass : Nat) : State :=
  let d := portUnit p
  let q := s.seq[d]
  let s1 := (s.wn (PRT_SEQ_PASS p) (pass % 2 ^ 32)).setSeq d { q with
    pass := pass, passVec := 0, order := q.order + 1, produced := false, block := 0, off := q.e.dataOffset }
  s1.setPort p { s1.port[p] with vecs := [], template := none, aggFail := false }

/-- Begin entry `dest` at its first pass (R140): the checks of R537, and the branch or the predicted path (R174), which may lower the fill
(R185). -/
def State.beginEntry (s : State) (p : Fin 8) (dest : Nat) (branch : State → State) (dirErr : Bool) : State × Bool :=
  let d := portUnit p
  let e := s.entryAt dest
  let (s1, ok) := s.entryCheck p e dirErr
  if !ok then (s1, false)
  else
    let s2 := (branch s1).put (PRT_SEQ_ENTRY_entry p) dest
    (((s2.setSeq d { s2.seq[d] with e := e, timedOut := false, deadline := none }).beginPass p 0).showFill d, true)

/-- The time-out of the wait loop in issue elapsed before the end of its pass (R151). -/
def State.passLate (s : State) (d : Fin 12) (jumpAt : Nat) : Bool :=
  match s.seq[d].deadline with
  | none => false
  | some t => decide (t < jumpAt)

/-- The jump point after a pass (R139, R144, R158, R192, R317); `jumpAt` is its instant, a pause that falls at it left out.
False where the port left its run. -/
def State.jumpPoint (s : State) (p : Fin 8) (jumpAt : Nat) (dirErr : Bool) : State × Bool :=
  let d := portUnit p
  let x := s.get (PRT_SEQ_ENTRY_entry p)
  let s0 := if s.get (SLK_PORT_CFG_vote_mode p) = 2 ∧ s.get (SLK_PORT_CFG_vote_entry p) = x then
      s.castVote p s.port[p].voteFail else s
  if s0.seq[d].stopReq then (s0.portLeave p 5 5 0 false, false)
  else
    let s1 := s0.registerDue d (s0.seqVec d - 1)
    let s2 := if s1.passLate d jumpAt then s1.setSeq d { s1.seq[d] with timedOut := true, deadline := none } else s1
    let stack := s2.retStack d
    match s2.choose d with
    | (s3, .again) =>
      if s3.shortPass p s3.seq[d].e then (s3.portLeave p 6 1 7 false, false)
      else if s3.matchShort p s3.seq[d].e then (s3.portLeave p 6 1 6 false, false)
      else (s3.beginPass p (s3.seq[d].pass + 1), true)
    | (s3, .begin_ dest taken) =>
      s3.beginEntry p dest (fun a => if taken then a.takeBranch d dest else a.leaveSlots d x stack) dirErr
    | (s3, .done) => (s3.portLeave p 4 0 0 false, false)
    | (s3, .overflow) => (s3.portLeave p 6 1 3 false, false)
    | (s3, .underflow) => (s3.portLeave p 6 1 4 false, false)

/-! ## Issue -/

/-- The timeset of a vector (R109, R129). -/
def State.timesetOf (s : State) (p : Fin 8) (e : Entry) (v : Vec) : Nat :=
  if s.get (PRT_TIMING_CTL_band p) = 2 then e.timeset
  else
    match e.tsMode, v.ts with
    | 0, some c => c
    | 2, some c => (c + e.timeset) % 1024
    | _, _ => e.timeset

/-- A start's first vector is issued (R130, R156, R234, R235): RUNNING, the started event, its instant and residual. -/
def State.started (s : State) (p : Fin 8) : State :=
  let d := portUnit p
  let at_ := s.seq[d].at_
  let s1 := ((s.put (PRT_SEQ_STATUS_state p) 2).wn64 (PRT_START_TS_LO p) (s.stampAt at_)).put (PRT_START_EP_epoch p)
    (s.epochAt at_)
  let s2 := ((s1.wn (PRT_STRM_MINFILL p) (s1.fill d)).wn64 (SCH_FRING_VEC_LO p) 0)
  let s3 := ((s2.wn (SCH_FRING_WR p) 0).wn (SCH_FRING_RD p) 0)
  let mode1 := decide (s.get (PRT_SEQ_CTL_start_mode p) = 1)
  let trail := (s.tmb.clk : Int) + instantOf (s.rn64 (PRT_TRAILHEAD_LO p)) - s.tmb.count
  let res := ((at_ : Int) - trail).toNat
  let s4 := ((s3.put (PRT_START_RES_res p) (if mode1 then res / tuPerStep else 0)).put (PRT_START_RES_valid p)
    (if mode1 then 1 else 0)).put (PRT_START_COMP_VAL_comp p) s3.port[p].comp
  s4.ev (portSrc p 2)

/-- The markers at the first vector of a pass (R130), and the ends of pulses: one that ends where the next begins gives a falling and then
a rising edge (DESIGN CHOICE, log entry 29). -/
def State.markersAt (s : State) (p : Fin 8) : State :=
  let d := portUnit p
  let q := s.seq[d]
  let v := s.seqVec d
  let ended := s.port[p].markerLow.filter fun x => decide (x.2 ≤ v)
  let s0 := ended.foldl (fun (a : State) x => a.setMarker p x.1 false)
    (s.setPort p { s.port[p] with markerLow := s.port[p].markerLow.filter fun x => !decide (x.2 ≤ v) })
  if q.passVec ≠ 0 then s0
  else
    (List.range 4).foldl (fun (a : State) k =>
      let code := bitsOf q.e.markers (2 * k) 2
      let low := a.port[p].markerLow.filter fun x => x.1 ≠ k
      match code with
      | 1 => if q.pass = 0 then (a.setPort p { a.port[p] with markerLow := low }).setMarker p k false else a
      | 2 => if q.pass = 0 then (a.setPort p { a.port[p] with markerLow := low }).setMarker p k true else a
      | 3 => (a.setPort p { a.port[p] with markerLow := (k, v + (s.portRate p).lmin) :: low }).setMarker p k true
      | _ => a) s0

/-- Conditions that hold already at the start of a pass's first vector (R142). -/
def State.passConditions (s : State) (p : Fin 8) : State :=
  let d := portUnit p
  let q := s.seq[d]
  if q.passVec ≠ 0 then s
  else
    let v := s.seqVec d
    let s1 := s.setPort p { s.port[p] with matchOk := true, lastW := (s.portRate p).window }
    match q.e.kind with
    | .event => if s1.evtActive p q.e.param then s1.produce d v else s1
    | .host => if s1.on (PRT_JUMP_HOST_req p) then (s1.produce d v).put (PRT_JUMP_HOST_req p) 0 else s1
    | .verdictPass | .verdictFail =>
      let want := if q.e.kind = .verdictFail then 1 else 0
      if s1.on (PRT_VERDICT_LATCH_valid p) && decide (s1.get (PRT_VERDICT_LATCH_fail p) = want) &&
          decide (s1.get (PRT_VERDICT_LATCH_site p) = q.e.param) then
        (s1.produce d v).put (PRT_VERDICT_LATCH_valid p) 0
      else s1
    | _ => s1

/-- The last vector of the match range of the pass in issue (R149). -/
def State.matchEnd (s : State) (p : Fin 8) : Nat :=
  let e := s.seq[portUnit p].e
  if e.tailAuto then e.length - 1 - s.port[p].lastW else e.length - 1

/-- The vector whose issue period contains the source instant of a match (R142): the latest C0 among the pins of the set,
or of the port where the set is empty, relative to the start of the vector in issue. -/
def State.matchVector (s : State) (p : Fin 8) (r : Rate) (band t set : Nat) : Nat :=
  let d := portUnit p
  let at_ := s.seq[d].at_
  let pins := s.cs.pins p
  let sel := (List.range pins.length).filter fun i => bit set i
  let idx := if sel = [] then List.range pins.length else sel
  let last := idx.foldl (fun (m : Int) (i : Nat) =>
    let n := pins.getD i 0
    let g := s.pinGrp p t n
    let c := (placed r at_ band i g s.port[p].prevEdge .compare g.c0).1 + 2048 * s.pathOfs n .compare - at_
    if m < c then c else m) (-(2 ^ 62))
  ((s.seqVec d : Int) + last * r.num / (8192000000000000 * r.den)).toNat

/-- The match logic of a vector (R142, R143, R149, R317). -/
def State.matchStep (s : State) (p : Fin 8) (r : Rate) (band t fails : Nat) : State :=
  let d := portUnit p
  let q := s.seq[d]
  if q.e.kind ≠ .match_ ∧ q.e.kind ≠ .mismatch then s
  else
    let last := s.matchEnd p
    let set := s.rn (PRT_MATCH_LO p q.e.param) + 2 ^ 32 * s.rn (PRT_MATCH_HI p q.e.param)
    let inRange := decide (last + 1 ≤ q.passVec + q.e.matchN) && decide (q.passVec ≤ last)
    let ok := s.port[p].matchOk && !(inRange && decide (fails &&& set ≠ 0))
    let s1 := s.setPort p { s.port[p] with matchOk := ok }
    if q.passVec ≠ last then s1
    else
      let votes := decide (s.get (SLK_PORT_CFG_vote_mode p) = 1) &&
        decide (s.get (SLK_PORT_CFG_vote_entry p) = s.get (PRT_SEQ_ENTRY_entry p))
      let s2 := if votes then s1.castVote p (!ok) else s1
      if ok = decide (q.e.kind = .match_) then
        if q.e.tailAuto then s2.produceAt d (s2.seqVec d + (q.e.length - 1 - q.passVec))
        else s2.produceAt d (s.matchVector p r band t set + r.window)
      else s2

/-- A vector that failed on the fail path: counted, noted for the vote and the Ramble log, and recorded (R163, R317,
R339). -/
def State.failVector (s : State) (p : Fin 8) (t pins : Nat) (secret : Bool) : State :=
  let d := portUnit p
  let h := s.port[p]
  let s1 := (s.wn64 (SCH_FRING_VEC_LO p) ((s.rn64 (SCH_FRING_VEC_LO p) + 1) % 2 ^ 64)).setPort p { h with
    voteFail := true, ramFails := min (h.ramFails + 1) 0xFFFFFFFF }
  s1.failPush p {
    vector := s.seqVec d, pins := pins, entry := s.get (PRT_SEQ_ENTRY_entry p), timeset := t, pass := s.seq[d].pass
    seq := h.failSeq, secret := secret }

/-- The fail path of a vector (R89, R132, R339, R440). -/
def State.failStep (s : State) (p : Fin 8) (t fails : Nat) : State :=
  let q := s.seq[portUnit p]
  if q.e.secret then
    let agg := s.port[p].aggFail || decide (fails ≠ 0)
    let last := decide (q.passVec + 1 = q.e.length)
    let s1 := s.setPort p { s.port[p] with aggFail := agg, aggRun := s.port[p].aggRun || (last && agg) }
    if last && agg && !q.e.nolog then s1.failVector p t 0 true else s1
  else if fails ≠ 0 ∧ !q.e.nolog then s.failVector p t fails false
  else s

/-- The samples of a vector go to the enabled engines bound to the port for which it is a capture vector (R240 to R242). -/
def State.captureStep (s : State) (p : Fin 8) (x : Seen) (pins : List (Nat × Nat × PinSt)) : State :=
  let q := s.seq[portUnit p]
  if !q.e.capture ∨ q.e.secret then s
  else
    let at_ := q.at_ + 2048 * s.port[p].comp
    (List.finRange 8).foldl (fun (a : State) (k : Fin 8) =>
      if a.cs.acqEn.getD k false ∧ a.acqPortOf k = p then
        let idx := (List.range (a.acqWidth k)).map fun i => bitsOf (a.rn (ACQ_MAP k (i / 4))) (8 * (i % 4)) 6
        let isCap := fun i => decide ((pins.getD i (0, 0, PinSt.dz)).2.2 = .cap)
        if idx.any isCap then
          let bits := (List.range idx.length).map fun i =>
            let j := idx.getD i 0
            let n := (pins.getD j (0, 0, PinSt.dz)).2.1
            let v := if s.on (OCT_PIN_CFG_cap_src (n / 8) (n % 8)) then x.cmpl.getLsbD j else x.cmph.getLsbD j
            if isCap j && v then 2 ^ i else 0
          a.acqCapture k bits.sum at_ (q.frac, q.fracDen)
        else a
      else a) s

/-- Time and counts move on to the next vector: the exact period is added to the start of this one. -/
def State.nextVector (s : State) (p : Fin 8) (r : Rate) : State :=
  let d := portUnit p
  let q := s.seq[d]
  let h := s.port[p]
  let acc := q.frac * r.num / q.fracDen + 8192000000000000 * r.den
  let s1 := s.setSeq d { q with
    passVec := q.passVec + 1, at_ := q.at_ + acc / r.num, frac := acc % r.num, fracDen := r.num }
  let s2 := s1.setPort p { h with
    vecs := h.vecs.drop 1
    ram := h.ram.map fun (x : RamProg) => { x with count := x.count + 1 } }
  (s2.wn64 (PRT_SEQ_VEC_LO p) ((s.seqVec d + 1) % 2 ^ 64)).showFill d

/-- The first vector of a wait loop is issued: its time-out counts from here (R151). -/
def State.startTimeout (s : State) (p : Fin 8) : State :=
  let d := portUnit p
  let q := s.seq[d]
  if q.passVec = 0 ∧ q.pass = 0 ∧ q.e.isLoop ∧ q.e.tmo ≠ 0 then
    s.setSeq d { q with deadline := some (q.at_ + q.e.tmoNs * tuPerNs) }
  else s

/-- Issue one vector whose timeset is valid (R86 to R131). Its timing is looked up here, with no lead (R110, R125; DESIGN CHOICE, log
entry 29). -/
def State.issue (s : State) (p : Fin 8) (x : Seen) (v : Vec) (t : Nat) : State :=
  let d := portUnit p
  let r := s.portRate p
  let band := s.get (PRT_TIMING_CTL_band p)
  let s0 := (if s.seqVec d = 0 then s.started p else s).startTimeout p
  let e := s0.seq[d].e
  let s1 := (s0.showWindow p).passConditions p
  let sm := s1.markersAt p
  let s2 := if sm.seq[d].passVec = 0 ∧ sm.seq[d].pass = 0 then sm.ramEntry p e.ramble else sm
  let s3 := if e.secret then
      let h := s2.port[p]
      let a := s2.setPort p { h with secretOn := true, secretVecs := h.secretVecs + 1 }
      if h.secretOn then a else a.timBlank p true
    else s2
  let pins := s3.vectorPins p e v
  let pl := s3.placeAll p r s3.seq[d].at_ band t pins
  let fails := s3.failMask p band t x pins
  let s4 := s3.matchStep p r band t fails
  let h := s4.port[p]
  let cmp := (pins.map fun (y : Nat × Nat × PinSt) => if y.2.2.compares then 2 ^ y.1 else 0).sum
  let s5 := s4.setPort p { h with
    prevEdge := pl.prev, edges := pl.out, drv := levelsAfter .drive h.drv pl.out, den := levelsAfter .enable h.den pl.out
    compared := BitVec.ofNat 64 cmp, strobes := BitVec.ofNat 64 fails, vecAt := s4.seq[d].at_ + 2048 * h.comp }
  let s6 := if e.secret then s5 else s5.countAdjusted p pl.adj
  let s7 := (s6.failStep p t fails).captureStep p x pins
  s7.nextVector p r

/-- The next vector of the pass (R104, R105, R188, R189): its data, its checks, its issue. `sramErr`: the read of its block from the ring
meets an uncorrectable SRAM error. -/
def State.passVector (s : State) (p : Fin 8) (x : Seen) (sramErr : Bool) : State :=
  let c := s.dataCheck p
  if sramErr ∧ s.readsRing p then s.dataOutcome p .memError 0 (s.dataAddr p s.seq[portUnit p].off)
  else if c.1 ≠ .ready then s.dataOutcome p c.1 c.2.1 c.2.2
  else if s.seq[portUnit p].stopReq then s.portLeave p 5 5 0 false
  else
    let (s1, ok) := if s.port[p].vecs = [] then s.loadBlock p else (s, true)
    if !ok then s1
    else
      match s1.port[p].vecs with
      | [] => s1
      | v :: _ =>
        let t := s1.timesetOf p s1.seq[portUnit p].e v
        if s1.timesetOk p (s1.get (PRT_TIMING_CTL_band p)) t then s1.issue p x v t
        else s1.formatAbort p 9 0xFF t 0

/-- A relock pause ends with the vector about to be issued (R214). -/
def State.endPause (s : State) (p : Fin 8) : State :=
  let d := portUnit p
  let q := s.seq[d]
  let v := s.seqVec d
  let s1 := ((s.count (PRT_PAUSE_CNT p)).wn (PRT_PAUSE_LAST p) (min ((q.at_ - q.pauseAt) / tuPerNs) 0xFFFFFFFF)).wn64
    (PRT_PAUSE_VEC_LO p) v
  s1.setSeq d { q with paused := false, resume := false, breakVec := v, frac := 0 }

/-- A vector-period boundary of a running port (R86, R138, R139). -/
def State.vectorPeriod (s : State) (p : Fin 8) (x : Seen) (dirErr sramErr : Bool) : State :=
  let d := portUnit p
  let q := s.seq[d]
  if s.get (PRT_SEQ_STATUS_state p) ≠ 2 ∨ (q.paused ∧ !q.resume) then s
  else
    let s0 := (s.advanceTo (q.at_ + tuPerStep * s.port[p].comp)).flushPort p
    let s1 := if q.paused then s0.endPause p else s0
    if q.passVec = q.e.length ∧ s.port[p].vecs = [] then
      let (s2, ok) := s1.jumpPoint p (if q.paused then q.pauseAt else q.at_) dirErr
      if ok then s2.passVector p x sramErr else s2
    else (s1.registerDue d (s1.seqVec d - 1)).passVector p x sramErr

/-! ## The first vector (R156, R217, R234, R235) -/

/-- The compensation of a start in steps (R235): T less the residual, to the nearest step with halves upward, at least 1. -/
def compOf (r : Rate) (res : Nat) : Nat :=
  max 1 ((2 * (8192000000000000 * r.den - res * r.num) + tuPerStep * r.num) / (2 * tuPerStep * r.num))

/-- The first vector of a start: admitted, locked and with its condition met, the port starts at its first boundary, which
lies `phase` into a period after that instant; the entry is checked before it. -/
def State.firstVector (s : State) (p : Fin 8) (phase : Nat) (x : Seen) (dirErr sramErr : Bool) : State :=
  let d := portUnit p
  let q := s.seq[d]
  let mode := s.get (PRT_SEQ_CTL_start_mode p)
  let cond := match mode with
    | 1 => q.trailMet
    | 2 => q.condMet
    | _ => true
  if s.get (PRT_SEQ_STATUS_state p) ≠ 1 ∨ !q.admitted ∨ !s.lockedSettled d ∨ !cond then s
  else
    let r := s.portRate p
    let ph := phase % max 1 r.periodTu
    let trail := ((s.tmb.clk : Int) + instantOf (s.rn64 (PRT_TRAILHEAD_LO p)) - s.tmb.count).toNat
    let at_ := (if mode = 1 then trail else s.tmb.clk) + ph
    let comp := if mode = 1 ∧ s.on (PRT_START_COMP_en p) then compOf r ph else 0
    let s1 := (s.setSeq d { q with at_ := at_, frac := 0, fracDen := 1 }).setPort p { s.port[p] with comp := comp }
    let (s2, ok) := (s1.advanceTo (at_ + tuPerStep * comp)).beginEntry p (s.get (PRT_SEQ_START_entry p)) id dirErr
    if ok then s2.passVector p x sramErr else s2

/-- 100 ns after the last vector of a secret entry, its period ends (R276, R440). The PEB requests it held are the caller's. -/
def State.secretEnd (s : State) (p : Fin 8) : State :=
  let q := s.seq[portUnit p]
  if s.port[p].secretOn && !(s.portRuns p && q.e.secret) then
    (s.setPort p { s.port[p] with secretOn := false }).timBlank p false
  else s

end Sys2Proof.Machine
end

