-- ==== Sys2Proof/Machine/Wfg.lean ====
section
/-! DEFINITION. The waveform generators (R289 to R303): starting, the resampler, the WD cycle and the ends of a run; with
them what a domain PLL's failure or relock does to the unit of its domain. -/

namespace Sys2Proof.Machine

def State.setWfg (s : State) (m : Fin 4) (x : WfgH) : State := { s with wfg := s.wfg.set m x }

/-- Source `k` of WFG `m` (Table 9.12). -/
def wfgSrc (m : Fin 4) (k : Nat) : Nat := 64 * m.val + k

/-- ρ (R292). -/
def State.wfgRho (s : State) (m : Fin 4) : Nat := s.rn (WFG_RS_RATIO_LO m) + 2 ^ 32 * s.get (WFG_RS_RATIO_HI_ratio m)

/-- The TB time at which marker `i` of an output sample of instant `t` has its edge at the MKR ball: the marker path is 1,600 ps shorter
than the DAC path, and WFG_MKR_DLY adds steps of 2 ps (R293). -/
def State.mkrEdge (s : State) (m : Fin 4) (i t : Nat) : Int := t + 8192 * (2 * (s.get (WFG_MKR_DLY_dly m i) : Int) - 1600)

/-- The marker bits of an output sample of instant `t`, all low with out_en 0 (R303): their edges at the MKR balls and at the matrix
(R293). -/
def State.wfgMarkers (s : State) (m : Fin 4) (k t : Nat) : State :=
  let new := if s.on (WFG_CTL_out_en m) then k else 0
  let old := s.wfg[m].mkr
  let at_ := (List.range 4).map fun i => if bit new i = bit old i then s.wfg[m].mkrAt.getD i 0 else s.mkrEdge m i t
  let s1 := s.setWfg m { s.wfg[m] with mkr := new, mkrAt := at_ }
  (List.range 4).foldl (fun (a : State) i =>
    if bit new i = bit old i then a else a.levelTo (0x70 + 4 * m + i) (bit new i)) s1

/-- The idle code as a value. -/
def State.wfgIdle (s : State) (m : Fin 4) : Int := toSigned 14 (s.get (WFG_OUT_idle m))

/-- The codes that the DAC of a WFG steers (R303): the samples of the last WD cycle of a run, else the idle code; code 0
with out_en 0. -/
def State.wfgDac (s : State) (m : Fin 4) : List Int :=
  if !s.on (WFG_CTL_out_en m) then [0]
  else if s.get (WFG_STATUS_state m) = 2 ∧ s.wfg[m].out ≠ [] then s.wfg[m].out else [s.wfgIdle m]

/-- The full-scale current of a WFG in µA, I_fs (R303). -/
def State.wfgFullScale (s : State) (m : Fin 4) : Nat := 8000 + 125 * min 192 (s.get (WFG_OUT_fs m))

/-- A WFG leaves ARMED or RUNNING (Tables 9.2, 9.3 and 9.12): `st` 4 DONE, 5 STOPPED, 6 ABORTED. -/
def State.wfgEnd (s : State) (m : Fin 4) (st code : Nat) (cancelled : Bool) : State :=
  let d := wfgUnit m
  let s1 := ((s.put (WFG_STATUS_state m) st).put (WFG_STATUS_code m) code).put (WFG_CTL_run m) 0
  let s2 := if st = 4 then (s1.put (WFG_STATUS_done m) 1).ev (wfgSrc m 57)
    else if st = 6 then (s1.put (WFG_STATUS_aborted m) 1).ev (wfgSrc m 58)
    else if cancelled then (s1.put (WFG_STATUS_cancelled m) 1).ev (wfgSrc m 59) else s1
  let s3 := s2.endStream d
  let s4 := (s3.setSeq d { s3.seq[d] with zeroing := false }).wn (WFG_FILL m) 0
  let s5 := s4.wfgMarkers m 0 (max s4.tmb.clk s4.seq[d].at_)
  s5.setWfg m { s5.wfg[m] with out := [], frame := [], flush := none }

/-! ## Starting -/

/-- f_s lies outside 250 MS/s to 12 GS/s (R289). -/
def State.wfgRateBad (s : State) (m : Fin 4) : Bool :=
  let r := s.rate (wfgPll m)
  r.lt (Rate.hz 250000000) || (Rate.hz 12000000000).lt r

/-- Why a start is refused at once (R298, R300); none where it goes on. -/
def State.wfgRefusal (s : State) (m : Fin 4) : Option Nat :=
  let near := s.get (WFG_DEMAND_NEAR_mbps m)
  let far := s.get (WFG_DEMAND_FAR_mbps m)
  if 40000 < near ∨ 8000 < far then some 1
  else if (near ≠ 0 ∧ !s.chanUp m) ∨ (far ≠ 0 ∧ !s.farWinUp (s.storeWin (wfgUnit m) 2)) ∨ s.wfgRateBad m then some 2
  else if s.get (WFG_CTL_start_mode m) = 1 ∧ s.tooNear (s.rn64 (WFG_TRAILHEAD_LO m)) (s.rn (WFG_TRAILHEAD_EP m)) then some 3
  else none

/-- The effective offset, in 1/16 LSB, and gain, in ppm, of WFG `m` (R456). -/
def State.wfgCal (s : State) (m : Fin 4) : Int × Int :=
  (toSigned 16 (s.get (CAL_FACT_WFG_OFS_ofs m)) + toSigned 16 (s.get (CAL_USER_WFG_OFS_ofs m)),
    toSigned 32 (s.rn (CAL_FACT_WFG_GAIN m)) + toSigned 32 (s.rn (CAL_USER_WFG_GAIN m)))

/-- A write of run = 1 (R298). The correction of the calibration is in force from here on (R457), and an edge at destination 80 + m in
the same TB cycle counts (R300). -/
def State.wfgRun (s : State) (m : Fin 4) : State :=
  if s.wfgActive m then s
  else
    let d := wfgUnit m
    let s1 := ((((s.put (seqDepthF d) 0).wn64 (WFG_SAMPLE_LO m) 0).put (WFG_STATUS_code m) 0).wn (WFG_WAIT_STATUS m) 0).wn
      (WFG_WAIT_PASSES m) 0
    let x := s.wfg[m]
    let s2 := ((s1.put (WFG_STATUS_state m) 1).put (WFG_CTL_run m) 1).setSeq d
      { condMet := decide (s.get (WFG_CTL_start_mode m) = 2) && s.inTbCycle x.evtAt }
    match s2.wfgRefusal m with
    | some c => s2.wfgEnd m 5 c true
    | none => (s2.setWfg m { mkr := x.mkr, mkrAt := x.mkrAt, evtAt := x.evtAt, ofs := (s.wfgCal m).1, gain := (s.wfgCal m).2 }).planFrom d
        (s.get (WFG_START_entry m))

/-- A write of run = 0 (R301): an armed start is cancelled, a run stops at the end of the present WD cycle, in a relock
pause at once. -/
def State.wfgStop (s : State) (m : Fin 4) : State :=
  match s.get (WFG_STATUS_state m) with
  | 1 => s.wfgEnd m 5 0 true
  | 2 =>
    let d := wfgUnit m
    if s.seq[d].paused then s.wfgEnd m 5 0 false
    else s.setSeq d { s.seq[d] with stopReq := true }
  | _ => s

/-- The ring holds its prime and the head slots of the first entry (R298). -/
def State.wfgAdmitted (s : State) (m : Fin 4) : State :=
  let d := wfgUnit m
  if s.get (WFG_STATUS_state m) = 1 ∧ s.primed d 0x40000 ∧ s.slotsFilled d (s.get (WFG_START_entry m)) (fun _ => true) then
    s.setSeq d { s.seq[d] with admitted := true }
  else s

/-- Admission takes longer than WFG_ADMIT_TMO (R300). -/
def State.wfgAdmitTimeout (s : State) (m : Fin 4) : State :=
  if s.get (WFG_STATUS_state m) = 1 ∧ s.seq[wfgUnit m].admitted = false ∧ s.get (WFG_CTL_start_mode m) ≠ 1 ∧
      s.get (WFG_ADMIT_TMO_ms m) ≠ 0 then s.wfgEnd m 5 3 true
  else s

/-- The Trailhead of a mode-1 start (R300). -/
def State.wfgTrailhead (s : State) (m : Fin 4) : State :=
  let d := wfgUnit m
  if s.get (WFG_STATUS_state m) ≠ 1 ∨ s.get (WFG_CTL_start_mode m) ≠ 1 ∨ s.seq[d].trailMet then s
  else
    let (s1, reached) := s.advanceToStamp (s.rn64 (WFG_TRAILHEAD_LO m)) (s.rn (WFG_TRAILHEAD_EP m))
    if !reached then s
    else if !s1.seq[d].admitted || !s1.lockedSettled d then s1.wfgEnd m 5 3 true
    else s1.setSeq d { s1.seq[d] with trailMet := true }

/-- Calibration or the in-service test holds the lease of a unit (UNIT_LEASE, Table 1.5). -/
def State.unitLeased (s : State) (u : Nat) : Bool :=
  decide (s.cal.run = some u) || match s.cal.ist with
    | some (_, x) => decide (x = u)
    | none => false

/-! ## Sequencing (R294 to R296) -/

/-- A pass lasts less than 64 ns of source time (R295). -/
def State.wfgShort (s : State) (m : Fin 4) (e : Entry) : Bool :=
  let r := s.rate (wfgPll m)
  let rho := if s.on (WFG_RS_CTL_en m) then s.wfgRho m else 2 ^ 48
  decide (e.length * 2 ^ 48 * r.den * 1000000000 < 64 * rho * r.num)

/-- The first sample of a pass, of instant `t`, is next; EVENT and HOST conditions that hold already produce their request with that
source instant (R142, R295). -/
def State.wfgBeginPass (s : State) (m : Fin 4) (pass t : Nat) : State :=
  let d := wfgUnit m
  let q := s.seq[d]
  let s1 := (s.setSeq d { q with
    pass := pass, passVec := 0, order := q.order + 1, produced := false, block := 0, off := q.e.dataOffset }).setWfg m
    { s.wfg[m] with frame := [] }
  match q.e.kind with
  | .event => if s1.destLevel (80 + m) then s1.produceAt d (t + 256 * tuPerNs) else s1
  | .host => if s1.on (WFG_JUMP_HOST_req m) then (s1.produceAt d (t + 256 * tuPerNs)).put (WFG_JUMP_HOST_req m) 0 else s1
  | _ => s1

/-- Begin entry `dest` at instant `t`, or end the run (R294, R295, Table 9.3). -/
def State.wfgBegin (s : State) (m : Fin 4) (dest t : Nat) (branch : State → State) : State × Bool :=
  let d := wfgUnit m
  let e := s.entryAt dest
  if !e.wfgValid then (s.wfgEnd m 6 8 false, false)
  else if e.dataOffset % 64 ≠ 0 ∨ s.windowSize d e.tier ≤ e.dataOffset then (s.wfgEnd m 6 9 false, false)
  else if s.wfgShort m e then (s.wfgEnd m 6 11 false, false)
  else
    let s1 := (branch s).put (WFG_ENTRY_entry m) dest
    let deadline := if e.isLoop ∧ e.tmo ≠ 0 then some (t + e.tmoNs * tuPerNs) else none
    ((s1.setSeq d { s1.seq[d] with e := e, timedOut := false, deadline := deadline }).wfgBeginPass m 0 t, true)

/-- The jump point before the sample of instant `t` (R139, R294, R296): false where the run or its source data ended. -/
def State.wfgJump (s : State) (m : Fin 4) (t : Nat) : State × Bool :=
  let d := wfgUnit m
  let x := s.get (WFG_ENTRY_entry m)
  let s1 := if s.passLate d t then s.setSeq d { s.seq[d] with timedOut := true, deadline := none } else s
  let stack := s1.retStack d
  match s1.choose d with
  | (s2, .again) =>
    if s2.wfgShort m s2.seq[d].e then (s2.wfgEnd m 6 11 false, false)
    else (s2.wfgBeginPass m (s2.seq[d].pass + 1) t, true)
  | (s2, .begin_ dest taken) =>
    s2.wfgBegin m dest t fun a => if taken then a.takeBranch d dest else a.leaveSlots d x stack
  | (s2, .done) =>
    if s2.on (WFG_RS_CTL_en m) then (s2.setWfg m { s2.wfg[m] with flush := some 32 }, false)
    else (s2.wfgEnd m 4 0 false, false)
  | (s2, .overflow) => (s2.wfgEnd m 6 10 false, false)
  | (s2, .underflow) => (s2.wfgEnd m 6 10 false, false)

/-- Source sample `j` of a frame: value and markers (Table 9.1). -/
def frameSample (w : Nat) (j : Nat) : Int × Nat := (toSigned 14 (bitsOf w (18 * j) 14), bitsOf w (18 * j + 14) 4)

/-- Take the next frame of the pass (R290, R291, R299): false where the run ended. `sramErr`: the ring's SRAM shows an uncorrectable
error in it. -/
def State.wfgFrame (s : State) (m : Fin 4) (t : Nat) (sramErr : Bool) : State × Bool :=
  let d := wfgUnit m
  let q := s.seq[d]
  let addr := s.windowAddr d q.e.tier q.off
  let fail := fun code => (s.wfgEnd m 6 code false, false)
  if s.windowSize d q.e.tier < q.off + 64 then fail 9
  else
    match s.blockState d q.e q.off (fun l => decide (l.validTb + 40 * tuPerNs ≤ t)) with
    | .memError | .authFail => fail 5
    | .empty =>
      if q.e.tier = 1 ∧ s.on (DMC_STATUS_frozen m) then fail 6
      else if q.e.tier = 2 ∧ s.farOut addr then fail 7
      else fail 4
    | .ready =>
      if sramErr then fail 5 else
      let w := (List.range 8).foldl (fun (n : Nat) k => n + 2 ^ (64 * k) * s.dataWord d q.e (q.off + 8 * k)) 0
      let n := min 28 (q.e.length - q.passVec)
      let last := decide (q.passVec + n = q.e.length)
      let s1 := s.consume d q.e (q.off + 64) last
      let s2 := s1.setSeq d { s1.seq[d] with off := q.off + 64, block := q.block + 1 }
      ((s2.setWfg m { s2.wfg[m] with frame := (List.range n).map (frameSample w) }).showFill d, true)

/-- A source sample enters the resampler's history. -/
def State.wfgPush (s : State) (m : Fin 4) (x : Int × Nat) : State :=
  let h := s.wfg[m]
  s.setWfg m { h with hist := (x :: h.hist).take 64, m := h.m + 1 }

/-- Take the next source sample at instant `t` (R292, R295, R296): false where the run ended before it. -/
def State.wfgTake (s : State) (m : Fin 4) (t : Nat) (sramErr : Bool) : State × Bool :=
  let d := wfgUnit m
  match s.wfg[m].flush with
  | some 0 => (s.wfgEnd m 4 0 false, false)
  | some (n + 1) => ((s.setWfg m { s.wfg[m] with flush := some n }).wfgPush m (0, 0), true)
  | none =>
    let q := s.seq[d]
    let (s1, go) := if q.passVec = q.e.length ∧ s.wfg[m].frame = [] then s.wfgJump m t else (s, true)
    if !go then
      match s1.wfg[m].flush with
      | some (n + 1) => ((s1.setWfg m { s1.wfg[m] with flush := some n }).wfgPush m (0, 0), true)
      | _ => (s1, false)
    else
      let (s2, ok) := if s1.wfg[m].frame = [] then s1.wfgFrame m t sramErr else (s1, true)
      if !ok then (s2, false)
      else
        match s2.wfg[m].frame with
        | [] => (s2, false)
        | x :: l =>
          let s3 := (s2.setWfg m { s2.wfg[m] with frame := l, lastAt := t }).wfgPush m x
          let s4 := s3.setSeq d { s3.seq[d] with passVec := s3.seq[d].passVec + 1 }
          ((s4.wn64 (WFG_SAMPLE_LO m) ((s4.seqVec d + 1) % 2 ^ 64)).registerDue d t, true)

/-! ## Output (R292, R293, R303) -/

/-- The resampled value and the marker bits of an output sample. -/
def State.wfgValue (s : State) (m : Fin 4) : Int × Nat :=
  let h := s.wfg[m]
  if s.on (WFG_RS_CTL_en m) then
    let p := 64 * h.acc / 2 ^ 48
    let sum := ((List.range 32).map fun k =>
      toSigned 18 (s.get (WFG_RS_COEF_coef m (32 * p + k))) * (h.hist.getD (31 - k) (0, 0)).1).foldl (· + ·) 0
    let pos := (64 * 2 ^ 48 * h.m + 64 * (h.acc : Int) - s.get (WFG_RS_CTL_delay m) * 2 ^ 48) / (64 * 2 ^ 48)
    (clampInt (-8192) 8191 (round16 sum), if pos < 0 then 0 else (h.hist.getD (h.m - pos).toNat (0, 0)).2)
  else h.hist.getD 0 (0, 0)

/-- One output sample at instant `t`: false where the run ended before it. -/
def State.wfgSample (s : State) (m : Fin 4) (t : Nat) (sramErr : Bool) : State × Bool :=
  let h := s.wfg[m]
  let en := s.on (WFG_RS_CTL_en m)
  let acc := if en then h.acc + s.wfgRho m else 2 ^ 48
  let s1 := s.setWfg m { h with acc := acc % 2 ^ 48 }
  let (s2, ok) := if 2 ^ 48 ≤ acc then s1.wfgTake m t sramErr else (s1, true)
  if !ok then (s2, false)
  else
    let v := s2.wfgValue m
    let s3 := s2.wfgMarkers m v.2 t
    let h3 := s3.wfg[m]
    (s3.setWfg m { h3 with n := h3.n + 1, out := h3.out ++ [v.1] }, true)

/-- The output samples of a WD cycle: `n` more, each one sample period after the other. -/
def State.wfgSamples (s : State) (m : Fin 4) (r : Rate) (sramErr : Bool) : Nat → State
  | 0 => s
  | n + 1 =>
    let d := wfgUnit m
    let (s1, ok) := s.wfgSample m s.seq[d].at_ sramErr
    if !ok then s1
    else
      let q := s1.seq[d]
      let acc := q.frac * r.num / q.fracDen + 8192000000000000 * r.den
      (s1.setSeq d { q with at_ := q.at_ + acc / r.num, frac := acc % r.num, fracDen := r.num }).wfgSamples m r sramErr n

/-- A WD cycle of a running WFG: 16 output samples (R289, R301, R302). -/
def State.wfgCycle (s : State) (m : Fin 4) (sramErr : Bool) : State :=
  let d := wfgUnit m
  let q := s.seq[d]
  if s.get (WFG_STATUS_state m) ≠ 2 ∨ (q.paused ∧ !q.resume) then s
  else
    let s1 := s.advanceTo q.at_
    let s2 := if q.paused then
        (s1.count (WFG_PAUSE_CNT m)).setSeq d { q with paused := false, resume := false, frac := 0 }
      else s1
    if q.stopReq then s2.wfgEnd m 5 0 false
    else (s2.setWfg m { s2.wfg[m] with out := [] }).wfgSamples m (s.rate (wfgPll m)) sramErr 16

/-- The first output sample of a start (R292, R293, R300): at the first WD boundary, `phase` into a cycle, at which it is
admitted, locked and has its condition; a lease that calibration or the in-service test holds is waited for (R293). -/
def State.wfgFirst (s : State) (m : Fin 4) (phase : Nat) (sramErr : Bool) : State :=
  let d := wfgUnit m
  let q := s.seq[d]
  let mode := s.get (WFG_CTL_start_mode m)
  let cond := match mode with
    | 1 => q.trailMet
    | 2 => q.condMet
    | _ => true
  if s.get (WFG_STATUS_state m) ≠ 1 ∨ !q.admitted ∨ !s.lockedSettled d ∨ !cond ∨ s.unitLeased (48 + m) then s
  else
    let r := s.rate (wfgPll m)
    let trail := ((s.tmb.clk : Int) + instantOf (s.rn64 (WFG_TRAILHEAD_LO m)) - s.tmb.count).toNat
    let at_ := (if mode = 1 then trail else s.tmb.clk) + phase % max 1 (16 * r.periodTu)
    let s1 := (s.setSeq d { q with at_ := at_, frac := 0, fracDen := 1 }).advanceTo at_
    let (s2, ok) := s1.wfgBegin m (s.get (WFG_START_entry m)) at_ id
    if !ok then s2
    else
      let s3 := ((s2.put (WFG_STATUS_state m) 2).wn64 (WFG_START_TS_LO m) (s2.stampAt at_)).put (WFG_START_EP_epoch m)
        (s2.epochAt at_)
      let s4 := s3.setWfg m { s3.wfg[m] with
        acc := 2 ^ 48 - s.wfgRho m, m := -1, n := 0, hist := List.replicate 32 (0, 0), flush := none }
      (s4.ev (wfgSrc m 56)).wfgCycle m sramErr

/-! ## The unit of a domain -/

/-- A WFG that has paused outputs the idle code with markers low (R302). -/
def State.wfgPaused (s : State) (d : Fin 12) : State :=
  if h : d.val < 8 then s
  else
    let m : Fin 4 := ⟨d.val - 8, by omega⟩
    if s.seq[d].paused ∧ !s.seq[d].resume then
      let s1 := s.wfgMarkers m 0 s.seq[d].at_
      s1.setWfg m { s1.wfg[m] with out := [] }
    else s

/-- No lock within 200 µs of ACQUIRE (R213, R302, Table 6.4): FAIL; a running port stops with cause 10, a running WFG ends with PLL_FAIL.
Before the TBPLL's first lock a loop in ACQUIRE waits without limit (R219, R222). -/
def State.dplFail (s : State) (d : Fin 12) : State :=
  let st := s.get (DPL_STATUS_state d)
  if st = 2 ∨ (st = 1 ∧ s.tmb.running) then
    let s1 := s.dplEnterFail d
    if h : d.val < 8 then
      let p : Fin 8 := ⟨d.val, h⟩
      if s.portRuns p then s1.portLeave p 5 10 0 false else s1
    else
      let m : Fin 4 := ⟨d.val - 8, by omega⟩
      if s.get (WFG_STATUS_state m) = 2 then s1.wfgEnd m 6 12 false else s1
  else s

/-- The clocks of a domain are ungated (R212), and with them the stretchers of its port (R60) and its X6 and X9. -/
def State.dplUngate (s : State) (d : Fin 12) (phase : Nat) : State :=
  if h : d.val < 8 ∧ s.get (DPL_STATUS_state d) = 3 then (((s.dplSettled d phase).stickyGo ⟨d.val, h.1⟩).flushPort ⟨d.val, h.1⟩).x9Go ⟨d.val, h.1⟩
  else s.dplSettled d phase

end Sys2Proof.Machine
end

