-- ==== Sys2Proof/Machine/Sch.lean ====
section
/-! DEFINITION. The hardware scheduler and the fail path's readers (chapter 11): the task pool, bindings and ticks, waits and
claims, dispatch and pre-emption, ordered flows and the release of Hampers. What a job computes is in Jobs.lean. -/

namespace Sys2Proof.Machine

def State.setSch (s : State) (x : SchH) : State := { s with sch := x }

/-! ## Descriptors (R324, R325) -/

/-- Bits of a little-endian byte list: `w` bits from bit `lo` of byte `i`. -/
def bytesBits (l : List Byte) (i lo w : Nat) : Nat := bitsOf (ofLe ((l.drop i).take 8)) lo w

/-- The descriptor that 64 bytes spell (Table 11.1). -/
def Desc.ofBytes (l : List Byte) : Desc :=
  { kind := bytesBits l 0 0 8, prio := bytesBits l 1 0 3, group := bytesBits l 1 3 3, start := bytesBits l 1 6 2
    flow := bytesBits l 2 0 16, test := bytesBits l 4 0 32, site := bytesBits l 8 0 8, port := bytesBits l 9 0 4
    wait := bytesBits l 10 0 2, consume := decide (bytesBits l 10 2 1 = 1), wsrc := bytesBits l 11 0 8
    wcount := bytesBits l 12 0 32, wtmo := bytesBits l 16 0 32, delay := bytesBits l 20 0 32
    period := bytesBits l 24 0 32, cookie := bytesBits l 28 0 32, param := bytesBits l 32 0 64
    plen := bytesBits l 40 0 32 }

/-- The reserved bits of a descriptor are 0. -/
def descRsvOk (l : List Byte) : Bool :=
  decide (bytesBits l 9 4 4 = 0) && decide (bytesBits l 10 3 5 = 0) && ((l.drop 44).take 20).all (· == 0)

/-- The bytes of a list from `i`, `n` of them, are 0. -/
def zeros (l : List Byte) (i n : Nat) : Bool := ((l.drop i).take n).all (· == 0)

/-- The parameters of a kind are valid (Tables 11.4 and 11.6). -/
def paramOk (d : Desc) (l : List Byte) : Bool :=
  match d.kind with
  | 1 => decide (d.plen = 0)
  | 2 =>
    decide (d.plen = 16) && decide (1 ≤ bytesBits l 0 0 8) && decide (bytesBits l 0 0 8 ≤ 64) && zeros l 1 7
  | 3 =>
    decide (d.plen = 136) && decide (1 ≤ bytesBits l 8 0 32) && decide (1 ≤ bytesBits l 12 0 8) &&
    decide (bytesBits l 12 0 8 ≤ 64) && zeros l 13 3 && decide (1 ≤ bytesBits l 24 0 64) &&
    decide (bytesBits l 24 0 64 ≤ 2 ^ 40) && (List.range 40).all fun j => decide (bytesBits l (96 + j) 6 1 = 0)
  | 4 =>
    decide (d.plen = 16) && decide (bytesBits l 0 1 2 ≠ 3) && decide (bytesBits l 0 3 5 = 0) &&
    decide (4 ≤ bytesBits l 1 0 5) && decide (bytesBits l 1 0 5 ≤ 16) && decide (bytesBits l 1 5 3 = 0) &&
    decide (2 ≤ bytesBits l 2 0 16) && decide (bytesBits l 2 0 16 ≤ 10) && zeros l 4 12
  | 5 => decide (d.plen = 8) && zeros l 4 4
  | 6 =>
    let n := bytesBits l 0 0 32
    decide (1 ≤ n) && decide (n ≤ 256) && decide (d.plen = 8 + 32 * n) && zeros l 4 4 &&
    (List.range n).all fun i =>
      decide (bytesBits l (8 + 32 * i) 0 64 % 4 = 0) && decide (bytesBits l (16 + 32 * i) 0 2 ≠ 3) &&
      decide (bytesBits l (16 + 32 * i) 4 4 = 0) && zeros l (17 + 32 * i) 7
  | 7 => decide (d.plen = 24) && decide (bytesBits l 12 0 32 ≤ 262064) && zeros l 16 8
  | _ => false

/-- The wait that a kind takes (Table 11.4). -/
def waitOk (d : Desc) : Bool :=
  match d.kind with
  | 1 | 2 | 3 => decide (d.wait = 2)
  | 4 => decide (d.wait = 1)
  | 5 => (decide (d.wait = 3) || decide (d.wait = 0)) && decide (d.wsrc < 32)
  | _ => decide (d.wait = 0)

/-- The largest Hamper of a kind (Table 11.4, R349): for DATALOG the header, a TEXT record of max_text and its header. -/
def largestHamper (d : Desc) (l : List Byte) : Nat :=
  match d.kind with
  | 1 => 344 | 2 => 2128 | 3 => 104 | 4 => 160 | 5 => 120 | 6 => 4176
  | _ => min 262144 (80 + (bytesBits l 12 0 32 + 7) / 8 * 8)

/-- The source of a data-plane task among the 48 sources. -/
def Desc.source (d : Desc) : Fin 48 :=
  if d.wait = 1 then ⟨d.wsrc % 8, by omega⟩
  else if d.wait = 2 then ⟨8 + d.wsrc % 8, by omega⟩
  else ⟨16 + d.wsrc % 32, by omega⟩

/-- The source exists and is enabled in the committed structure (R325). -/
def State.sourceOk (s : State) (d : Desc) : Bool :=
  match d.wait with
  | 1 => decide (d.wsrc < 8) && s.cs.acqEn.getD d.wsrc false
  | 2 => decide (d.wsrc < 8) && decide (s.cs.pinCount d.wsrc ≠ 0)
  | _ => decide (d.wsrc < 32) && decide (s.get (TIM_STATUS_state d.wsrc) ≠ 0)

/-- R325, other than group and flow. -/
def State.descOk (s : State) (l par : List Byte) : Bool :=
  let d := Desc.ofBytes l
  decide (1 ≤ d.kind) && decide (d.kind ≤ 7) && decide (d.group ≤ 4) && decide (d.start ≤ 2) && descRsvOk l &&
  (if d.wait = 0 then decide (d.wcount = 0) && decide (d.wtmo = 0)
    else decide (d.start ≤ 1) && decide (1 ≤ d.wcount) && s.sourceOk d) &&
  (if d.start = 2 then decide (1 ≤ d.delay) else decide (d.delay = 0) && decide (d.period = 0)) &&
  waitOk d && paramOk d par

/-! ## The pool (R324, R327) -/

/-- The task in a slot. -/
def State.task (s : State) (i : Nat) : Option Task := (s.sch.tasks.find? fun x => decide (x.1 = i)).map (·.2)

/-- The state of a slot (Table 11.3). -/
def State.slotState (s : State) (i : Nat) : Nat :=
  match s.task i with
  | none => 0
  | some t => t.st

/-- Put a task into a list of slots in ascending order. -/
def putSlot (i : Nat) (t : Task) : List (Nat × Task) → List (Nat × Task)
  | [] => [(i, t)]
  | x :: l => if i < x.1 then (i, t) :: x :: l else if i = x.1 then (i, t) :: l else x :: putSlot i t l

/-- The lowest number from `k` on that no slot of an ascending list has. -/
def lowestFree (k : Nat) : List (Nat × Task) → Nat
  | [] => k
  | x :: l => if x.1 = k then lowestFree (k + 1) l else k

/-- Group g is powered, and no structure load that has committed switches it off (R323, R338). -/
def State.groupOn (s : State) (g : Nat) : Bool :=
  s.domainOn (38 + g) && match s.load with
    | some x => decide (x.stage ≠ 5) || bit s.cs.power (38 + g)
    | none => true

/-- Change the slots, and the registers that count them (Tables 11.12 and 11.14). -/
def State.setTasks (s : State) (l : List (Nat × Task)) : State :=
  let s1 := (s.setSch { s.sch with tasks := l }).put SCH_STATUS_free (8192 - l.length)
  (List.range 4).foldl (fun (a : State) g =>
    (a.put (SCH_GROUP_ready g) (l.countP fun x => decide (x.2.st = 5) && decide (x.2.group = g))).put
      (SCH_GROUP_running g) (l.countP fun x => decide (x.2.st = 6) && decide (x.2.group = g))) s1

/-- Put a task into a slot. -/
def State.putTask (s : State) (i : Nat) (t : Task) : State := s.setTasks (putSlot i t s.sch.tasks)

/-- A slot becomes FREE. -/
def State.freeSlot (s : State) (i : Nat) : State := s.setTasks (s.sch.tasks.filter fun x => decide (x.1 ≠ i))

/-- The management address of slot `i` (R324). -/
def State.slotAddr (s : State) (i : Nat) : Nat := (s.cs.sramAddr 0x20 (64 * i)).getD 0

/-- A read of SCH_ALLOC (R326): the lowest FREE slot becomes HELD and is returned. -/
def State.schAlloc (s : State) : State :=
  let i := lowestFree 0 s.sch.tasks
  if i < 8192 then (s.putTask i {}).wn SCH_ALLOC i else s.wn SCH_ALLOC (2 ^ 31)

/-- The result of a write of SCH_SUBMIT (Table 11.2). -/
def State.schResult (s : State) (i code : Nat) : State :=
  (s.put SCH_SUBMIT_RESULT_code code).put SCH_SUBMIT_RESULT_state (s.slotState i)

/-! ## Flows (R348) -/

/-- Tasks that a flow holds: from its oldest unreleased sequence number to its newest. -/
def State.flowHeld (s : State) (f : Nat) : Nat := (s.rn (SCH_FLOW_NEXT f) + 2 ^ 32 - s.rn (SCH_FLOW_REL f)) % 2 ^ 32

/-- Take the next sequence number of a flow; 0 for an unordered task. -/
def State.takeSeq (s : State) (f : Nat) : Nat × State :=
  if f < 256 then
    let n := s.rn (SCH_FLOW_NEXT f)
    let s1 := s.wn (SCH_FLOW_NEXT f) ((n + 1) % 2 ^ 32)
    (n, s1.put (SCH_FLOW_STATUS_held f) (s1.flowHeld f))
  else (0, s)

/-- A write of SCH_FLOW_CFG.reset = 1. -/
def State.flowReset (s : State) (f : Nat) : State :=
  if s.flowHeld f = 0 then (s.wn (SCH_FLOW_NEXT f) 0).wn (SCH_FLOW_REL f) 0 else s

/-! ## Ready and done -/

/-- The next order number. -/
def State.nextOrd (s : State) : State := s.setSch { s.sch with ord := s.sch.ord + 1 }

/-- Core `c` is idle. -/
def State.coreIdle (s : State) (c : Nat) : Bool := decide (s.get (SCH_CORE_state c) = 0)

/-- The lowest-numbered idle core of a powered group. -/
def State.idleCore (s : State) (g : Nat) : Option Nat :=
  if s.groupOn g then ((List.range 4).map (4 * g + ·)).find? (s.coreIdle ·) else none

/-- The running core of a group that a task of priority `prio` may pre-empt (R335): lowest priority, highest number. -/
def State.victim (s : State) (g prio : Nat) : Option Nat :=
  let busy := ((List.range 4).map (4 * g + ·)).filter fun c => decide (s.get (SCH_CORE_state c) = 1)
  let low := busy.foldl (fun (m : Nat) c => min m (s.get (SCH_CORE_prio c))) 8
  if low < prio then (busy.reverse.find? fun c => decide (s.get (SCH_CORE_prio c) = low)) else none

/-- The group that a task of group 4 is placed in when it becomes READY (R334); 4 where no group is powered. -/
def State.placeGroup (s : State) (prio : Nat) : Nat :=
  let on := (List.range 4).filter fun g => s.groupOn g
  match on.find? fun g => (s.idleCore g).isSome with
  | some g => g
  | none =>
    match on.find? fun g => (s.victim g prio).isSome with
    | some g => g
    | none =>
      let few := on.foldl (fun (m : Nat) g => min m (s.get (SCH_GROUP_ready g))) 8192
      (on.find? fun g => decide (s.get (SCH_GROUP_ready g) = few)).getD 4

/-- A task becomes READY for the first time. -/
def State.becomeReady (s : State) (i : Nat) (t : Task) : State :=
  let g := if t.d.group = 4 then s.placeGroup t.d.prio else t.d.group
  (s.putTask i { t with st := 5, group := g, ready := some (s.sch.ord, s.stamp, s.tmb.epoch) }).nextOrd

/-- Hold a counter range against a read pointer: the pointer stands in it. -/
def inRange (rd lo hi : Nat) : Bool :=
  decide ((rd + 2 ^ 32 - lo % 2 ^ 32) % 2 ^ 32 < (hi + 2 ^ 32 - lo % 2 ^ 32) % 2 ^ 32)

/-- Move a read pointer over releasable items that lie next to it (R333). -/
def passItems : Nat → Nat → List SchItem → Nat × List SchItem
  | 0, rd, l => (rd, l)
  | fuel + 1, rd, l =>
    match l.find? fun x => x.free && inRange rd x.lo x.hi with
    | none => (rd, l)
    | some x => passItems fuel (x.hi % 2 ^ 32) (l.erase x)

/-- The read pointer of a source that has one. -/
def State.sourceRead (s : State) (j : Fin 48) : Nat :=
  if j.val < 8 then s.rn (ACQ_DRAIN_RD j) else if j.val < 16 then s.rn (SCH_FRING_RD (j - 8)) else 0

/-- Advance ACQ_DRAIN_RD of an engine or SCH_FRING_RD of a port over its releasable items (R333). -/
def State.releaseItems (s : State) (j : Fin 48) : State :=
  let x := s.sch.src[j]
  let go := fun (a : Nat) => passItems x.items.length (s.rn a) x.items
  let keep := fun (l : List SchItem) (b : State) =>
    b.setSch { b.sch with src := b.sch.src.set j { b.sch.src[j] with
      items := l, freed := if l.length = x.items.length then x.freed else some (b.sourceRead j) } }
  if h : j.val < 8 then
    let r := go (ACQ_DRAIN_RD j)
    keep r.2 ((s.wn (ACQ_DRAIN_RD j) r.1).acqPanic ⟨j.val, h⟩)
  else if j.val < 16 then
    let r := go (SCH_FRING_RD (j - 8))
    keep r.2 (s.wn (SCH_FRING_RD (j - 8)) r.1)
  else s

/-- The items of a task that reached DONE: releasable if it consumes, else no longer the scheduler's (R333). -/
def State.itemsDone (s : State) (i : Nat) (t : Task) : State :=
  if t.d.wait = 0 then s
  else
    let j := t.d.source
    let x := s.sch.src[j]
    let mine := fun (y : SchItem) => decide (y.owner = some i)
    let l := if t.d.consume then x.items.map fun y => if mine y then { y with owner := none, free := true } else y
      else x.items.filter fun y => !mine y
    (s.setSch { s.sch with src := s.sch.src.set j { x with items := l } }).releaseItems j

/-- The fail records that a task claimed (Table 11.5). -/
def State.failItems (s : State) (t : Task) : List (List Byte) :=
  let p := t.d.wsrc % 8
  let size := 2 ^ s.get (SCH_FRING_SIZE_size p)
  (List.range t.items).map fun i => s.bytes (s.rn64 (SCH_FRING_BASE_LO p) + 32 * ((t.lo + i) % size)) 32

/-- The overflow flag of a fail record. -/
def recOverflow (r : List Byte) : Bool := decide (bytesBits r 28 0 1 = 1)

/-- Unit `u` of the drain ring of engine `e` (R259). -/
def State.drainUnit (s : State) (e : Fin 8) (u : Nat) : List Byte :=
  s.bytes (nearBase (e / 2) + nearUnit * (s.cs.acqWin e).base + 64 * (u % max 1 (s.drainSize e))) 64

/-- The gap records that follow a published segment record. -/
def State.itemGaps (s : State) (e : Fin 8) (x : SchItem) : Nat :=
  (x.hi + 2 ^ 32 - x.lo) % 2 ^ 32 - 1 - bytesBits (s.drainUnit e x.lo) 52 0 32 / 64

/-- An item that the task of slot `i` claimed carries the overflow flag, or a gap record (Table 11.8). -/
def State.itemsLost (s : State) (i : Nat) (t : Task) : Bool :=
  match t.d.wait with
  | 1 => s.sch.src[t.d.source].items.any fun y =>
      decide (y.owner = some i) && decide (s.itemGaps ⟨t.d.wsrc % 8, by omega⟩ y ≠ 0)
  | 2 => (s.failItems t).any recOverflow
  | _ => false

/-- The near-store channels that hold bytes `a` to `a + n - 1`, as a mask. -/
def chanMask (a n : Nat) : Nat :=
  ((List.range 4).map fun c => if a < nearBase (c + 1) ∧ nearBase c < a + n then 2 ^ c else 0).sum

/-- The near-store channels that a task reads (R351): its drain ring, bitmap, items or input records. -/
def Task.inputChans (t : Task) : Nat :=
  match t.d.kind with
  | 3 => chanMask (bytesBits t.param 16 0 64) (bytesBits t.param 24 0 64 / 8 + 1)
  | 4 => 2 ^ (t.d.wsrc / 2)
  | 6 => (List.range (bytesBits t.param 0 0 32)).foldl (fun (m : Nat) i => m ||| chanMask (bytesBits t.param (8 + 32 * i) 0 64) 4) 0
  | 7 => chanMask (bytesBits t.param 0 0 64) (bytesBits t.param 8 0 32)
  | _ => 0

/-- A task reaches DONE with a status of Table 11.7. One that ran has read its inputs (R351; a job reads them when it ends: DESIGN CHOICE,
log entry 31). -/
def State.taskDone (s : State) (i : Nat) (t : Task) (status : Nat) : State :=
  ((s.putTask i { t with
    st := 7, status := status, doneAt := (s.sch.ord, s.stamp, s.tmb.epoch), lost := s.itemsLost i t
    chans := if t.st = 6 then t.inputChans else t.chans }).nextOrd).itemsDone i t

/-- The core that ran a task is idle again. -/
def State.coreFree (s : State) (c st : Nat) : State :=
  (((s.put (SCH_CORE_state c) st).put (SCH_CORE_prio c) 0).put (SCH_CORE_slot c) 0)

/-- The records of a Hamper with status 3 to 7: one ERROR record (R352, Table 11.9). -/
def errorRecord (code detail addr : Nat) : List Byte :=
  leBytes 0xFF 2 ++ leBytes 0 2 ++ leBytes 16 4 ++ leBytes code 4 ++ leBytes detail 4 ++ leBytes addr 8

/-! ## Waiting (R331, R332) -/

/-- The counter of published records or results of a source. -/
def State.sourceCount (s : State) (j : Fin 48) : Nat :=
  if j.val < 8 then s.rn (ACQ_DRAIN_WR j)
  else if j.val < 16 then s.rn (SCH_FRING_WR (j - 8))
  else s.rn (TIM_RESULTS (j - 16))

/-- The source runs: its end is the leaving of these states (R331). -/
def State.sourceRuns (s : State) (j : Fin 48) : Bool :=
  if h : j.val < 8 then s.acqRuns ⟨j.val, h⟩
  else if h : j.val < 16 then s.portRuns ⟨j.val - 8, by omega⟩
  else decide (s.get (TIM_STATUS_state (j - 16)) = 3)

/-- The oldest WAITING task of a source. -/
def State.headOf (s : State) (j : Fin 48) : Option (Nat × Task) :=
  (s.sch.tasks.filter fun x => decide (x.2.st = 4) && decide (x.2.d.source = j)).foldl
    (fun (b : Option (Nat × Task)) x => match b with
      | none => some x
      | some y => if x.2.ord < y.2.ord then some x else b) none

/-- Claim the first `n` unclaimed items of an engine's list. -/
def claimItems (i : Nat) : Nat → List SchItem → List SchItem
  | _, [] => []
  | n, x :: l =>
    if x.owner = none ∧ !x.free then (if 0 < n then { x with owner := some i } :: claimItems i (n - 1) l else x :: l)
    else x :: claimItems i n l

/-- The head claims what its source has, up to wcount (R331). -/
def State.claim (s : State) (j : Fin 48) (i : Nat) (t : Task) : State × Task :=
  let x := s.sch.src[j]
  let want := t.d.wcount - t.items
  let set := fun (y : SchSrc) => s.setSch { s.sch with src := s.sch.src.set j y }
  if j.val < 8 then
    let n := min want (x.items.countP fun y => decide (y.owner = none) && !y.free)
    (set { x with items := claimItems i n x.items }, { t with items := t.items + n })
  else
    let n := min want ((s.sourceCount j + 2 ^ 32 - x.cursor) % 2 ^ 32)
    let next := (x.cursor + n) % 2 ^ 32
    let lo := if t.items = 0 then x.cursor else t.lo
    let l := if j.val < 16 ∧ 0 < n then x.items ++ [{ lo := x.cursor, hi := next, owner := some i, free := false }]
      else x.items
    (set { x with cursor := next, items := l }, { t with items := t.items + n, lo := lo })

/-- Serve the queue of a source: each head claims items and becomes READY when it holds enough or the source has ended. -/
def State.serve : Nat → State → Fin 48 → State
  | 0, s, _ => s
  | fuel + 1, s, j =>
    match s.headOf j with
    | none => s
    | some (i, t) =>
      let t0 := { t with headAt := some (t.headAt.getD s.tmb.clk) }
      let (s1, t1) := s.claim j i t0
      if t.d.wcount ≤ t1.items then State.serve fuel (s1.becomeReady i t1) j
      else if s.sch.src[j].ended then State.serve fuel (s1.becomeReady i { t1 with ended := true }) j
      else s1.putTask i t1

/-- Serve a source. -/
def State.serveSource (s : State) (j : Fin 48) : State := s.serve (s.sch.tasks.length + 1) j

/-- Hold the recorded activity of a source against what it does now: an end serves its queue, a start begins its count
anew for ports and TIM channels (R331). -/
def State.syncSource (s : State) (j : Fin 48) : State :=
  let x := s.sch.src[j]
  let on := s.sourceRuns j
  if on = x.on then s
  else
    let y := if on then
        { x with on := true, ended := false, cursor := 0, items := if 8 ≤ j.val then [] else x.items }
      else { x with on := false, ended := true }
    (s.setSch { s.sch with src := s.sch.src.set j y }).serveSource j

/-- The sources are held against their units after a command that may stop or start them. -/
def State.syncSources (s : State) : State := (List.finRange 48).foldl (fun (a : State) (j : Fin 48) => a.syncSource j) s

/-- A segment record, or a standalone gap record, was published: units `lo` to `hi - 1` (R331). A gap record goes with the
segment before it; where that segment was released already, so is the gap record. -/
def State.schPublished (s : State) (e : Fin 8) (lo hi : Nat) (isSeg : Bool) : State :=
  let j : Fin 48 := ⟨e.val, by omega⟩
  let x := s.sch.src[j]
  let l := if isSeg then x.items ++ [{ lo := lo, hi := hi, owner := none, free := false }]
    else match x.items.getLast? with
      | none => if x.freed = some (lo % 2 ^ 32) then [{ lo := lo, hi := hi, owner := none, free := true }] else []
      | some y => if y.hi % 2 ^ 32 = lo % 2 ^ 32 then x.items.dropLast ++ [{ y with hi := hi }] else x.items
  ((s.setSch { s.sch with src := s.sch.src.set j { x with items := l } }).releaseItems j).serveSource j

/-- A wait loop's time-out: the head of a source becomes READY with timed_out (R332). -/
def State.taskTimeout (s : State) (j : Fin 48) : State :=
  match s.headOf j with
  | none => s
  | some (i, t) =>
    if t.d.wtmo = 0 then s
    else
      let s1 := s.advanceTo (t.headAt.getD s.tmb.clk + t.d.wtmo * 8 * tuPerNs)
      let (s2, t2) := s1.claim j i t
      if t.d.wcount ≤ t2.items then (s2.becomeReady i t2).serveSource j
      else (((s2.becomeReady i { t2 with timedOut := true }).count SCH_TMO_CNT).ev 452).serveSource j

/-! ## Creation (R326 to R330) -/

/-- A task is created in slot `i` (R327, R348). -/
def State.createTask (s : State) (i : Nat) (d : Desc) (par : List Byte) : State :=
  let (n, s1) := s.takeSeq d.flow
  let t : Task := { st := 4, d := d, param := par, seq := n, group := d.group, ord := s1.sch.ord }
  let s2 := s1.nextOrd
  if d.wait ≠ 0 then (s2.putTask i t).serveSource d.source else s2.becomeReady i t

/-- A write of SCH_SUBMIT with op 1 (R326). -/
def State.taskSubmit (s : State) (i : Nat) : State :=
  let l := s.bytes (s.slotAddr i) 64
  let d := Desc.ofBytes l
  let par := s.bytes d.param (min d.plen 8200)
  let template := decide (d.start = 1) || (decide (d.start = 2) && decide (1 ≤ d.period))
  let refuse := fun (c : Nat) => ((s.count SCH_REFUSE_CNT).ev 450).schResult i c
  if s.slotState i ≠ 1 then refuse 1
  else if !s.descOk l par then refuse 2
  else if d.group < 4 ∧ !s.groupOn d.group then refuse 4
  else if d.flow ≠ 0xFFFF ∧ (256 ≤ d.flow ∨ !s.on (SCH_FLOW_CFG_en d.flow)) then refuse 5
  else if !template ∧ d.flow < 256 ∧ 128 ≤ s.flowHeld d.flow then refuse 3
  else if template then
    (s.putTask i { st := 2, d := d, param := par, group := d.group, left := d.delay }).schResult i 0
  else if d.start = 2 then
    let (n, s1) := s.takeSeq d.flow
    ((s1.putTask i { st := 3, d := d, param := par, seq := n, group := d.group, left := d.delay, ord := s1.sch.ord }).nextOrd
      ).schResult i 0
  else (s.createTask i d par).schResult i 0

/-- A write of SCH_SUBMIT with op 3. -/
def State.slotReturn (s : State) (i : Nat) : State :=
  if s.slotState i = 1 then (s.freeSlot i).schResult i 0 else s.schResult i 1

/-- A template fires: it is cloned into the lowest FREE slot, or the clone fails (R328). -/
def State.cloneTask (s : State) (t : Task) : State :=
  let i := lowestFree 0 s.sch.tasks
  if 8192 ≤ i ∨ (t.d.flow < 256 ∧ 128 ≤ s.flowHeld t.d.flow) then (s.count SCH_CLONE_FAIL).ev 451
  else s.createTask i t.d t.param

/-- An occurrence of a source that the event controller routes to the scheduler joins the queues of its bindings, of 16 occurrences each;
a binding whose template is not in TEMPLATE does nothing (R329). -/
def State.schRoute (s : State) (src : Nat) : State :=
  (List.range 64).foldl (fun (a : State) k =>
    if a.on (SCH_BIND_en k) ∧ a.get (SCH_BIND_source k) = src ∧ a.slotState (a.get (SCH_BIND_slot k)) = 2 then
      if a.sch.binds.countP (fun x => decide (x.1 = k)) < 16 then
        a.setSch { a.sch with binds := a.sch.binds ++ [(k, a.tbCycle)] }
      else (a.count SCH_CLONE_FAIL).ev 451
    else a) s

/-- The oldest occurrence of binding `k` fires its template, after those of lower bindings that arrived in the same cycle (R329). -/
def State.bindingFire (s : State) (k : Nat) : State :=
  match s.sch.binds.find? fun x => decide (x.1 = k) with
  | none => s
  | some x =>
    if x.2.isSome && s.sch.binds.any fun y => decide (y.1 < k) && decide (y.2 = x.2) then s
    else
      let s1 := s.setSch { s.sch with binds := s.sch.binds.erase x }
      match s1.task (s1.get (SCH_BIND_slot k)) with
      | some t => if t.st = 2 then s1.cloneTask t else s1
      | none => s1

/-- A delayed task or a delay template at a tick (R330). -/
def State.tickSlot (s : State) (i : Nat) : State :=
  match s.task i with
  | none => s
  | some t =>
    if t.st = 3 ∨ (t.st = 2 ∧ t.d.start = 2) then
      if 1 < t.left then s.putTask i { t with left := t.left - 1 }
      else if t.st = 3 then s.becomeReady i { t with left := 0 }
      else (s.putTask i { t with left := t.d.period }).cloneTask t
    else s

/-- TB time of the next tick: whole microseconds after the count was last set to 0, whatever STEPs came since (R330). -/
def State.nextTick (s : State) : Nat :=
  let us := 1000 * tuPerNs
  let t := s.sch.tickBase + (s.tmb.clk - s.sch.tickBase + us - 1) / us * us
  if s.sch.lastTick = some t then t + us else t

/-- The next tick: the delays that it ends, in ascending slot order (R330). -/
def State.schTick (s : State) : State :=
  if s.tmb.running then
    let s0 := s.advanceTo s.nextTick
    let s1 := s0.setSch { s0.sch with lastTick := some s.nextTick }
    (s1.sch.tasks.map (·.1)).foldl (fun (a : State) i => a.tickSlot i) s1
  else s

/-! ## Dispatch (R335, R349, R351) -/

/-- Hamper space that is reserved (R349). -/
def State.hamperUsed (s : State) : Nat := (s.sch.tasks.map fun x => x.2.room).sum

/-- Near-store channels that are frozen, as a mask. -/
def State.frozenMask (s : State) : Nat := ((List.range 4).map fun c => if s.on (DMC_STATUS_frozen c) then 2 ^ c else 0).sum

/-- The task that a group dispatches next: highest priority, then the order of becoming ready; a task suspended by a freeze
is passed over (R335, R351). -/
def State.nextReady (s : State) (g : Nat) : Option (Nat × Task) :=
  (s.sch.tasks.filter fun x => decide (x.2.st = 5) && (decide (x.2.group = g) || decide (x.2.group = 4)) &&
      decide (x.2.inputChans &&& s.frozenMask = 0)).foldl
    (fun (b : Option (Nat × Task)) x => match b with
      | none => some x
      | some y =>
        let before := decide (y.2.d.prio < x.2.d.prio) || (decide (y.2.d.prio = x.2.d.prio) &&
          decide ((x.2.ready.getD (0, 0, 0)).1 < (y.2.ready.getD (0, 0, 0)).1))
        if before then some x else b) none

/-- A running task goes back to READY (R335, R351). -/
def State.unrun (s : State) (c : Nat) : State :=
  let i := s.get (SCH_CORE_slot c)
  match s.task i with
  | some t => (s.putTask i { t with st := 5 }).coreFree c 0
  | none => s.coreFree c 0

/-- The tasks that read from channel `c`, which has just frozen, are suspended, and their cores take other work (R351). -/
def State.suspendReaders (s : State) (c : Nat) : State :=
  (List.range 16).foldl (fun (a : State) k =>
    match a.task (a.get (SCH_CORE_slot k)) with
    | some t => if a.get (SCH_CORE_state k) = 1 ∧ bit t.inputChans c then a.unrun k else a
    | none => a) s

/-- The slot of the task for which group `g` waits for Hamper space, while it is READY and not suspended (R349). -/
def State.blockedSlot (s : State) (g : Nat) : Option (Nat × Task) :=
  match s.sch.blocked.lookup g with
  | none => none
  | some i => (s.task i).bind fun t => if t.st = 5 ∧ t.inputChans &&& s.frozenMask = 0 then some (i, t) else none

/-- Group `g` waits, or waits no longer, for Hamper space; SCH_STATUS shows whether some group does (R349). -/
def State.setBlocked (s : State) (g : Nat) (i : Option Nat) : State :=
  let l := s.sch.blocked.filter fun x => decide (x.1 ≠ g)
  let l1 := match i with
    | some i => (g, i) :: l
    | none => l
  (s.setSch { s.sch with blocked := l1 }).put SCH_STATUS_hamper_full (if l1 = [] then 0 else 1)

/-- Run a task on a core. -/
def State.runOn (s : State) (i : Nat) (t : Task) (g c room : Nat) : State :=
  (((s.putTask i { t with st := 6, group := g, core := c, started := true, room := room }).put (SCH_CORE_state c) 1).put
    (SCH_CORE_prio c) t.d.prio).put (SCH_CORE_slot c) i

/-- Group `g` dispatches its next READY task, after it has reserved its largest Hamper (R335, R349); without space the group
dispatches no other task until the space frees. Nothing is dispatched while SCH_CTL.en is 0. -/
def State.dispatch (s : State) (g : Nat) : State :=
  if !s.on SCH_CTL_en || !s.groupOn g then s
  else
    match (s.blockedSlot g).orElse (fun _ => s.nextReady g) with
    | none => s.setBlocked g none
    | some (i, t) =>
      let room := if t.room = 0 then largestHamper t.d t.param else t.room
      let area := 0x10000 * s.get SCH_HAMPER_AREA_size
      if t.room = 0 ∧ area < s.hamperUsed + room then
        if s.sch.blocked.lookup g = some i then s else (s.setBlocked g (some i)).ev 454
      else
        let s1 := s.setBlocked g none
        match s.idleCore g with
        | some c => s1.runOn i t g c room
        | none =>
          match s.victim g t.d.prio with
          | some c => ((s1.unrun c).count SCH_PREEMPT_CNT).runOn i t g c room
          | none => s1

/-! ## Ends (R336, R338, R347) -/

/-- An item that the task of slot `i` claimed returns to the cursor. -/
def unclaim (i : Nat) (y : SchItem) : SchItem := if y.owner = some i then { y with owner := none } else y

/-- A write of SCH_SUBMIT with op 2 (R336, R337). -/
def State.taskCancel (s : State) (i : Nat) : State :=
  let counted := fun (a : State) => ((a.count SCH_CANCEL_CNT).ev 449).schResult i 0
  match s.task i with
  | none => s.schResult i 6
  | some t =>
    match t.st with
    | 2 => counted (s.freeSlot i)
    | 3 => counted (s.taskDone i { t with hole := true } 2)
    | 4 =>
      let j := t.d.source
      let x := s.sch.src[j]
      let back := if j.val < 8 then { x with items := x.items.map (unclaim i) }
        else if t.items = 0 then x
        else { x with cursor := t.lo, items := x.items.filter fun y => decide (y.owner ≠ some i) }
      let s1 := s.setSch { s.sch with src := s.sch.src.set j back }
      counted ((s1.taskDone i { t with hole := true, items := 0 } 2).serveSource j)
    | 5 => counted (s.taskDone i { t with hole := true, started := false } 2)
    | 6 => counted ((s.coreFree t.core 0).taskDone i t 2)
    | _ => s.schResult i 6

/-- A task ends in error (R347): code 3 (a read) or 7 (its core trapped), with the ERROR record's detail and address. -/
def State.taskError (s : State) (c code detail addr : Nat) : State :=
  if s.get (SCH_CORE_state c) = 1 then
    let i := s.get (SCH_CORE_slot c)
    match s.task i with
    | none => s
    | some t =>
      let t1 := { t with body := errorRecord code detail addr, records := 1 }
      (((((s.coreFree c (if code = 7 then 3 else 0)).taskDone i t1 code).count SCH_ERR_CNT).put SCH_STATUS_error_seen 1)).ev 448
  else s

/-- A core that trapped completes its reset (R347). -/
def State.coreResetDone (s : State) (c : Nat) : State :=
  if s.get (SCH_CORE_state c) = 3 then (s.coreFree c 0).ev 456 else s

/-- Group g is switched off by a structure load (R338): its READY tasks end with GROUP_OFF. -/
def State.groupOff (s : State) (g : Nat) : State :=
  (s.sch.tasks.filter fun x => decide (x.2.st = 5) && decide (x.2.group = g)).foldl
    (fun (a : State) x => a.taskDone x.1 { x.2 with body := errorRecord 5 0 0, records := 1 } 5) s

/-! ## Release (R348, R350, R351) -/

/-- The header of a Hamper (Table 11.8). -/
def Task.header (i : Nat) (t : Task) (hseq : Nat) : List Byte :=
  let b := fun (x : Bool) (n : Nat) => if x then n else 0
  let r := t.ready.getD (0, 0, 0)
  leBytes 0x504D4148 4 ++ leBytes 1 2 ++ leBytes t.d.flow 2 ++ leBytes t.seq 4 ++ leBytes t.d.test 4 ++
  leBytes t.d.site 1 ++ leBytes t.d.port 1 ++ leBytes t.status 1 ++
  leBytes (b t.started 1 + b t.hole 2 + b t.timedOut 4 + b t.lost 8 + b t.ended 16 + b t.partialSpec 32) 1 ++
  leBytes t.d.kind 1 ++ leBytes t.core 1 ++ leBytes t.records 2 ++ leBytes (64 + t.body.length) 4 ++
  leBytes t.d.cookie 4 ++ leBytes r.2.1 8 ++ leBytes t.doneAt.2.1 8 ++ leBytes r.2.2 2 ++ leBytes t.doneAt.2.2 2 ++
  leBytes i 2 ++ leBytes 0 2 ++ leBytes t.items 4 ++ leBytes hseq 4

/-- The bytes of a released Hamper (R352). -/
def Task.hamper (i : Nat) (t : Task) : List Byte := t.header i (t.hseq.getD 0) ++ t.body

/-- The session that the Hampers of a flow go to (R348). -/
def State.flowSession (s : State) (f : Nat) : Nat :=
  if f < 256 then s.get (SCH_FLOW_CFG_session f) else s.get SCH_CTL_def_session

/-- An ERROR Hamper of an earlier-completed task of the same port waits for its release (R350). -/
def State.errorAhead (s : State) (t : Task) : Bool :=
  decide (t.d.port < 8) && s.sch.tasks.any fun x =>
    decide (x.2.st = 7) && x.2.hseq.isNone && decide (x.2.d.port = t.d.port) &&
    (decide (x.2.status = 3) || decide (x.2.status = 7)) && decide (x.2.doneAt.1 < t.doneAt.1)

/-- Nothing holds the Hamper of a DONE task back but its session (R348, R350, R351). -/
def State.releasable (s : State) (t : Task) : Bool :=
  decide (t.st = 7) && t.hseq.isNone && (decide (256 ≤ t.d.flow) || decide (s.rn (SCH_FLOW_REL t.d.flow) = t.seq)) &&
  !s.errorAhead t && decide (t.chans &&& s.frozenMask = 0)

/-- The Hamper of slot `i` is released, or its flow stalls for want of an open session (R348). -/
def State.hamperRelease (s : State) (i : Nat) : State :=
  match s.task i with
  | none => s
  | some t =>
    if !s.releasable t then s
    else
      let f := t.d.flow
      let k := s.flowSession f
      if s.get (NET_SESS_STATUS_state k) ≠ 2 then
        if f < 256 then
          if s.on (SCH_FLOW_STATUS_stalled f) then s else (s.put (SCH_FLOW_STATUS_stalled f) 1).ev 455
        else s.ev 455
      else
        let n := s.sch.hseq
        let s1 := s.putTask i { t with hseq := some n }
        let s2 := s1.setSch { s1.sch with hseq := (n + 1) % 2 ^ 32, out := s1.sch.out ++ [(k, i)] }
        if f < 256 then
          let s3 := (s2.wn (SCH_FLOW_REL f) ((s2.rn (SCH_FLOW_REL f) + 1) % 2 ^ 32)).put (SCH_FLOW_STATUS_stalled f) 0
          s3.put (SCH_FLOW_STATUS_held f) (s3.flowHeld f)
        else s2

/-- The oldest undelivered Hamper of session `k` was delivered on channel 5: its slot and its space are free (R417). -/
def State.hamperDelivered (s : State) (k : Nat) : State :=
  match s.sch.out.find? fun x => decide (x.1 = k) with
  | none => s
  | some x => (s.freeSlot x.2).setSch { (s.freeSlot x.2).sch with out := s.sch.out.erase x }

/-- A host write of ACQ_DRAIN_RD, and of SCH_FRING_RD: the pointer goes on over releasable items that now lie next to it (R333). -/
def State.drainRdWrite (s : State) (e : Fin 8) (v : Nat) : State := (s.acqDrainRd e v).releaseItems ⟨e.val, by omega⟩
def State.fringRdWrite (s : State) (p : Fin 8) (v : Nat) : State :=
  if 2 ^ s.get (SCH_FRING_SIZE_size p) < (s.rn (SCH_FRING_WR p) + 2 ^ 32 - v) % 2 ^ 32 then s
  else (s.wn (SCH_FRING_RD p) v).releaseItems ⟨8 + p.val, by omega⟩

/-- The oldest fail record of port `p` leaves its FIFO (R339), and may satisfy a task (R331). -/
def State.failRecordDrain (s : State) (p : Fin 8) : State := (s.failDrain p).serveSource ⟨8 + p.val, by omega⟩

end Sys2Proof.Machine
end

