-- ==== Sys2Proof/Machine/Dmc.lean ====
section
/-! DEFINITION. The DDR5 controllers (chapter 12): the address map, scheduling, corrected and uncorrectable errors, the
freeze, training and initialisation, refresh and retraining, diagnostic operations and retention. What the DRAM returns
beside the stored data (corrected symbols, uncorrectable codewords, bits changed by errors that the code misses) is part of
the command, since it comes from outside the device. -/

namespace Sys2Proof.Machine

def State.setDmc (s : State) (c : Fin 4) (x : DmcH) : State := { s with dmc := s.dmc.set c x }

/-- Source `j` of channel `c` (Table 12.12). -/
def dmcSrc (c : Fin 4) (j : Nat) : Nat := 256 + 16 * c + j

/-! ## The address map (R356) -/

/-- Where a line lies in the DRAM. -/
structure DramLoc where
  rank : Nat
  sub : Nat
  bgroup : Nat
  bank : Nat
  row : Nat
  column : Nat
  deriving DecidableEq, Repr

/-- The DRAM location of a byte of channel `c`. -/
def State.dramLoc (s : State) (c : Fin 4) (addr : Nat) : DramLoc :=
  let o := addr - nearBase c
  let per := nearUnit * s.get (DMC_CAPACITY_units c) / s.dmc[c].ranks
  let o' := if per = 0 then o else o % per
  let row := o' / 2 ^ 19
  let bg := bitsOf o' 7 3
  let bk := bitsOf o' 17 2
  { rank := if per = 0 then 0 else o / per, sub := bitsOf o' 6 1, column := 16 * bitsOf o' 10 7, row := row
    bgroup := if s.dmc[c].hash then bg ^^^ bitsOf row 0 3 else bg
    bank := if s.dmc[c].hash then bk ^^^ bitsOf row 3 2 else bk }

/-- A bank of a channel as one number. -/
def DramLoc.key (l : DramLoc) : Nat := l.bank + 4 * l.bgroup + 32 * l.sub + 64 * l.rank

/-! ## The queue and its order (R361 to R364) -/

/-- A requester of the channel holds panic (R365, R369). -/
def State.chanPanic (s : State) (c : Fin 4) : Bool :=
  let p := 2 * c.val
  s.panicOf p || s.panicOf (p + 1) || s.panicOf (8 + c) || s.panicOf (12 + p) || s.panicOf (13 + p)

/-- The queued requests of a channel in order of arrival. -/
def State.dmcQueue (s : State) (c : Fin 4) : List FabTx := s.queueOf c

/-- A request has reached the age cap (R361). -/
def State.aged (s : State) (c : Fin 4) (t : FabTx) : Bool :=
  decide (t.at_ + max 1 (s.get (DMC_SCHED_CFG_age_cap c)) * 64 * tuPerNs ≤ s.tmb.clk)

/-- The class of a request (R361). -/
def State.dmcClass (s : State) (c : Fin 4) (t : FabTx) : Nat :=
  match s.panicOf t.req, s.aged c t with
  | true, true => 0 | true, false => 1 | false, true => 2 | false, false => 3

/-- The row of a line is open (R361, R364). -/
def State.rowHit (s : State) (c : Fin 4) (line : Nat) : Bool :=
  let l := s.dramLoc c line
  s.dmc[c].rows.any fun r => decide (r.bank = l.key) && decide (r.row = l.row) &&
    (!r.adaptive || decide (s.tmb.clk < r.used + s.get (DMC_PAGE_CFG_idle c) * tuPerNs))

/-- The granule of a line and whether it is zeroed (R368). -/
def granuleOf (c : Fin 4) (line : Nat) : Nat := (line - nearBase c) / 0x200000
def State.zeroed (s : State) (c : Fin 4) (line : Nat) : Bool :=
  let g := granuleOf c line
  let h := s.dmc[c]
  decide (s.get (DMC_STATUS_state c) ≠ 2) || decide (g < h.initNext) || decide (h.initEnd ≤ g) || h.initDone.contains g

/-- A request with the class it is served at: a panic request lends its class to the earlier ones of its line (R362). -/
structure DmcCand where
  tx : FabTx
  cls : Nat
  hit : Bool
  deriving DecidableEq, Repr

/-- The requests that may be served: the first of each line (R362), no write to a granule not yet zeroed (R368). -/
def State.dmcCands (s : State) (c : Fin 4) : List FabTx → List FabTx → List DmcCand
  | _, [] => []
  | before, t :: l =>
    let rest := State.dmcCands s c (before ++ [t]) l
    if before.any (fun x => decide (x.line = t.line)) || (t.write.isSome && !s.zeroed c t.line) then rest
    else
      let lent := (l.filter fun x => decide (x.line = t.line) && s.panicOf x.req).map (s.dmcClass c ·)
      { tx := t, cls := lent.foldl min (s.dmcClass c t), hit := s.rowHit c t.line } :: rest

/-- Request `a` goes before request `b` (R361). -/
def candBefore (a b : DmcCand) : Bool :=
  if a.cls ≠ b.cls then decide (a.cls < b.cls)
  else if a.hit ≠ b.hit then a.hit
  else if a.tx.at_ ≠ b.tx.at_ then decide (a.tx.at_ < b.tx.at_)
  else decide (a.tx.req < b.tx.req)

/-- The request that goes first. -/
def firstCand (l : List DmcCand) : Option DmcCand :=
  l.foldl (fun (b : Option DmcCand) x => match b with
    | none => some x
    | some y => if candBefore x y then some x else b) none

/-- The controller is in a write burst, or enters one (R363). -/
def State.inBurst (s : State) (c : Fin 4) : Bool :=
  let q := s.dmcQueue c
  let w := q.filter fun t => t.write.isSome
  s.dmc[c].burst || (decide (w ≠ []) && (decide (max 8 (s.get (DMC_SCHED_CFG_wr_hi c)) ≤ w.length) || w.any (s.aged c ·) ||
    decide (w.length = q.length)))

/-- The read, or the write, that the controller issues next (R34, R361 to R363). A panic request goes before every other: among them a
read goes first in a write burst, and else the order of R361 decides. Outside panic a write goes in a write burst only, and a
read in a burst only where no write can be issued. -/
def State.dmcPick (s : State) (c : Fin 4) (write : Bool) : Option DmcCand :=
  let l := s.dmcCands c [] (s.dmcQueue c)
  let w := l.filter fun x => x.tx.write.isSome
  let r := l.filter fun x => x.tx.write.isNone
  let burst := s.inBurst c && decide (w ≠ [])
  let wp := w.filter fun x => decide (x.cls ≤ 1)
  let rp := r.filter fun x => decide (x.cls ≤ 1)
  match firstCand wp, firstCand rp with
  | some x, some y => if write = (!burst && candBefore x y) then (if write then some x else some y) else none
  | some x, none => if write then some x else none
  | none, some y => if write then none else some y
  | none, none => if write = burst then (if write then firstCand w else firstCand r) else none

/-- The page hint of a requester (R364). -/
def State.pageHint (s : State) (c : Fin 4) (req : Nat) : Nat :=
  let x := if req < 16 then bitsOf (s.rn (DMC_PAGE_HINT0 c)) (2 * req) 2 else bitsOf (s.rn (DMC_PAGE_HINT1 c)) (2 * (req - 16)) 2
  if x = 3 then 0 else x

/-- A request is served: its row opens, and stays open by the page hint (R364); it is counted (Table 12.9). -/
def State.dmcServe (s : State) (c : Fin 4) (x : DmcCand) : State :=
  let l := s.dramLoc c x.tx.line
  let hint := s.pageHint c x.tx.req
  let others := s.dmc[c].rows.filter fun r => decide (r.bank ≠ l.key)
  let again := (s.dmcQueue c).any fun t => decide (t ≠ x.tx) && decide ((s.dramLoc c t.line).key = l.key) &&
    decide ((s.dramLoc c t.line).row = l.row)
  let rows := if hint = 2 ∧ !again then others
    else { bank := l.key, row := l.row, used := s.tmb.clk, adaptive := decide (hint = 0) : OpenRow } :: others
  let s1 := s.setDmc c { s.dmc[c] with rows := rows }
  let s2 := if x.cls ≤ 1 then s1.count (DMC_PANIC_CNT c) else s1
  if x.cls = 0 ∨ x.cls = 2 then s2.count (DMC_AGE_CNT c) else s2

/-! ## The symbol code (R357, R358) -/

/-- The first bit of symbol `s` of codeword `k` in a raw line of 16 beats of 40 bits. -/
def symAt (k s : Nat) : Nat := 40 * (2 * k + s / 10) + 4 * (s % 10)

/-- The symbols of codeword `k` in which a read differs from what was stored, with the bits that differ. -/
def errSyms (err k : Nat) : List (Nat × Nat) :=
  ((List.range 20).map fun s => (s, bitsOf err (symAt k s) 4)).filter fun x => decide (x.2 ≠ 0)

/-- The result of the decoder for a codeword (R358). -/
inductive CwRead where
  | clean
  | corrected (symbol magnitude : Nat)
  | uncorrectable
  deriving DecidableEq, Repr

/-- The result where the code makes no promise: a pattern stored past the code, or errors in three or more symbols. -/
def cwOpen (raw k : Nat) : CwRead :=
  match Config.decodeRaw (BitVec.ofNat 80 (raw >>> (80 * k))) with
  | 0 => .uncorrectable
  | 1 => .clean
  | n + 2 => .corrected (n % 20) (1 + n / 20 % 15)

/-- The decoder reads codeword `k` of a line with the stored bits `raw` and the errors `err`; `coded` where its check bits were encoded.
An error confined to one symbol is corrected, one confined to two is detected. -/
def cwRead (coded : Bool) (raw err k : Nat) : CwRead :=
  if !coded then cwOpen (raw ^^^ err) k
  else
    match errSyms err k with
    | [] => .clean
    | [(s, m)] => .corrected s m
    | [_, _] => .uncorrectable
    | _ => cwOpen (raw ^^^ err) k

/-- The data bits of a raw line (R357). -/
def rawData (x : Nat) : BitVec 512 :=
  BitVec.ofNat 512 ((List.range 8).map fun k => 2 ^ (64 * k) * (bitsOf x (80 * k) 32 + 2 ^ 32 * bitsOf x (80 * k + 40) 32)).sum

/-- The raw line as stored: 16 beats of 40 bits (R357, R375). -/
def State.rawLine (s : State) (c : Fin 4) (line : Nat) : Nat :=
  match s.dmc[c].patterned.lookup (lineOf line) with
  | some p => ((List.range 80).map fun i => p * 2 ^ (8 * i)).sum
  | none =>
    let d := s.lineData line
    ((List.range 16).map fun b =>
      let w := bitsOf d.toNat (64 * (b / 2)) 64
      let chk := (Config.checkBits (BitVec.ofNat 64 w)).toNat
      2 ^ (40 * b) * (bitsOf w (32 * (b % 2)) 32 + 2 ^ 32 * bitsOf chk (8 * (b % 2)) 8)).sum

/-- The results of the eight codewords of a line that the DRAM returns with the errors `err`. -/
def State.lineRead (s : State) (c : Fin 4) (line : Nat) (err : BitVec 640) : List CwRead :=
  (List.range 8).map fun k => cwRead (s.dmc[c].patterned.lookup (lineOf line)).isNone (s.rawLine c line) err.toNat k

/-- The corrected codewords of a read, in rising order: codeword, symbol and magnitude. -/
def corrections (l : List CwRead) : List (Nat × Nat × Nat) :=
  (List.range 8).filterMap fun k => match l.getD k .clean with
    | .corrected s m => some (k, s, m)
    | _ => none

/-- The uncorrectable codewords of a read, as a mask. -/
def uncorrectables (l : List CwRead) : BitVec 8 :=
  BitVec.ofNat 8 ((List.range 8).map fun k => if l.getD k .clean = .uncorrectable then 2 ^ k else 0).sum

/-- The data that a read returns: what is stored, with the errors that the decoder neither saw nor undid. -/
def State.readData (s : State) (line : Nat) (err : BitVec 640) (l : List CwRead) : BitVec 512 :=
  s.lineData line ^^^ rawData (err.toNat ^^^ ((corrections l).map fun x => x.2.2 * 2 ^ symAt x.1 x.2.1).sum)

/-! ## Errors (R359, R372 to R374) -/

/-- A corrected codeword is counted and recorded (R359): codeword, symbol and magnitude; `op` as DMC_CE_SYN.op. -/
def State.codewordCorrected (s : State) (c : Fin 4) (line req op : Nat) (x : Nat × Nat × Nat) : State :=
  let syn := x.2.1 % 32 + 2 ^ 8 * (x.2.2 % 16) + 2 ^ 12 * (x.1 % 8) + 2 ^ 16 * (req % 32) + 2 ^ 21 * (op % 4)
  (((((s.count (DMC_CE_CNT c)).wn64 (DMC_CE_ADDR_LO c) (lineOf line)).wn (DMC_CE_SYN c) syn).put (DMC_STATUS_ce_seen c) 1)).ev
    (dmcSrc c 0)

/-- The corrected codewords of one read, in rising order. -/
def State.correctAll (s : State) (c : Fin 4) (line req op : Nat) (ce : List (Nat × Nat × Nat)) : State :=
  ce.foldl (fun (a : State) x => a.codewordCorrected c line req op x) s

/-- The lowest codeword of a mask. -/
def lowestCw (ue : BitVec 8) : Nat := ((List.range 8).find? fun k => ue.getLsbD k).getD 0

/-- An uncorrectable error freezes the channel (R372): the snapshot of Table 12.4, the flags, the count and the event; the
engines of the quadrant end their runs (R261), a retraining round is abandoned (R371), and tasks that read from it are suspended (R351). -/
def State.freeze (s : State) (c : Fin 4) (line req op : Nat) (ue : BitVec 8) (ceAny : Bool) : State :=
  let l := s.dramLoc c line
  let loc := l.row % 2 ^ 18 + 2 ^ 18 * l.bank + 2 ^ 20 * l.bgroup + 2 ^ 23 * l.sub + 2 ^ 24 * (l.rank % 2) +
    2 ^ 25 * lowestCw ue
  let info := l.column % 2 ^ 11 + 2 ^ 11 * (req % 32) + 2 ^ 16 * (op % 4) + (if ceAny then 2 ^ 18 else 0)
  let s1 := (((((s.wn64 (DMC_FRZ_ADDR_LO c) (lineOf line)).wn (DMC_FRZ_LOC c) loc).wn (DMC_FRZ_INFO c) info).wn64
    (DMC_FRZ_TS_LO c) s.stamp).wn (DMC_FRZ_EP c) s.tmb.epoch)
  let s2 := ((((s1.put (DMC_STATUS_frozen c) 1).put (DMC_STATUS_ue_seen c) 1).count (DMC_UE_CNT c)).ev (dmcSrc c 1))
  ((s2.setDmc c { s2.dmc[c] with round := false }).acqFreeze c).suspendReaders c

/-- The channel executes requests: READY or INIT, and not frozen (Table 12.2, R372). -/
def State.dmcRuns (s : State) (c : Fin 4) : Bool :=
  let st := s.get (DMC_STATUS_state c)
  (decide (st = 2) || decide (st = 3)) && !s.on (DMC_STATUS_frozen c) && s.domainOn (32 + c)

/-- A DRAM read burst completes (R358): the read that the controller chose is answered; `err` holds the bits in which the burst
differs from what was stored. -/
def State.ddrReadComplete (s : State) (c : Fin 4) (err : BitVec 640) : State :=
  if !s.dmcRuns c then s
  else
    match s.dmcPick c false with
    | none => s
    | some x =>
      let t := x.tx
      let s1 := s.dmcServe c x
      if !s.zeroed c t.line then s1.updateTx t fun y => { y with answer := some (0, true) }
      else
        let l := s.lineRead c t.line err
        let s2 := s1.correctAll c t.line t.req 0 (corrections l)
        if uncorrectables l = 0 then s2.updateTx t fun y => { y with answer := some (s.readData t.line err l, true) }
        else
          let s3 := s2.freeze c t.line t.req 0 (uncorrectables l) (decide (corrections l ≠ []))
          if t.req < 20 then s3.updateTx t fun y => { y with answer := some (0, false) }
          else s3.updateTx t fun y => { y with cause := true }

/-- The bytes of a line after a write with byte enables (R360). -/
def mergeLine (old new : BitVec 512) (en : BitVec 64) : BitVec 512 :=
  BitVec.ofNat 512 ((List.range 64).map fun i =>
    2 ^ (8 * i) * bitsOf (if en.getLsbD i then new.toNat else old.toNat) (8 * i) 8).sum

/-- The enabled bytes of some codeword are not all 8 of its bytes (R360). -/
def partialWrite (en : BitVec 64) : Bool := (List.range 8).any fun k => decide (bitsOf en.toNat (8 * k) 8 ≠ 255)

/-- A write burst is issued to the DRAM (R363): its write is acknowledged. The read of R360, which the DRAM returns with the errors `err`,
may be corrected, or freezes the channel, and then the write is not performed but held. -/
def State.ddrWriteIssued (s : State) (c : Fin 4) (err : BitVec 640) : State :=
  if !s.dmcRuns c then s
  else
    match s.dmcPick c true with
    | none => s
    | some x =>
      let t := x.tx
      let s1 := s.dmcServe c x
      let reads := partialWrite t.enables
      let l := s.lineRead c t.line err
      let s2 := if reads then s1.correctAll c t.line t.req 1 (corrections l) else s1
      if reads && decide (uncorrectables l ≠ 0) then s2.freeze c t.line t.req 1 (uncorrectables l) (decide (corrections l ≠ []))
      else
        let old := if reads then s.readData t.line err l else s2.lineData t.line
        let s3 := s2.setLine t.line (mergeLine old (t.write.getD 0) t.enables)
        let s4 := s3.updateTx t fun y => { y with answer := some (0, true) }
        let w := ((s4.dmcQueue c).filter fun y => y.write.isSome).length
        let hi := max 8 (s.get (DMC_SCHED_CFG_wr_hi c))
        let lo := if hi ≤ s.get (DMC_SCHED_CFG_wr_lo c) then hi - 1 else s.get (DMC_SCHED_CFG_wr_lo c)
        s4.setDmc c { s4.dmc[c] with
          burst := s.inBurst c && decide (lo < w), patterned := s4.dmc[c].patterned.filter fun y => decide (y.1 ≠ lineOf t.line) }

/-- The freeze ends (R374, R367): the causing read completes with error, and the engines may publish again. -/
def State.endFreeze (s : State) (c : Fin 4) : State :=
  let s1 := s.failTxs fun t => decide (t.pool = c) && t.cause
  (((s1.put (DMC_STATUS_frozen c) 0).ev (dmcSrc c 2)).acqUnfreeze c)

/-- A write of DMC_FREEZE_CTL.release = 1. -/
def State.freezeRelease (s : State) (c : Fin 4) : State := if s.on (DMC_STATUS_frozen c) then s.endFreeze c else s

/-! ## Training and initialisation (R366 to R368) -/

/-- The fitted capacity that DMC_CFG gives, in units of 256 MiB (Table 12.1). -/
def State.cfgUnits (s : State) (c : Fin 4) : Nat :=
  (match s.get (DMC_CFG_density c) with | 0 => 128 | 1 => 192 | _ => 256) * (1 + s.get (DMC_CFG_ranks c))

/-- The codes with which DDR_FULL_TRAIN of a channel is refused (Table 12.3); 0 where it is not. -/
def State.trainRefused (s : State) (c : Fin 4) : Nat :=
  let p0 : Fin 8 := ⟨2 * c.val, by omega⟩
  let p1 : Fin 8 := ⟨2 * c.val + 1, by omega⟩
  if s.portActive p0 || s.portActive p1 || s.wfgActive c || s.acqRuns p0 || s.acqRuns p1 then 1
  else if !s.domainOn (32 + c) then 2
  else if !s.on (DMC_CFG_fitted c) then 3
  else 0

/-- Training of a channel starts (R366, R367): a freeze ends, its held requests completing with error; the settings of
DMC_CFG are committed. -/
def State.trainStart (s : State) (c : Fin 4) : State :=
  let s1 := if s.on (DMC_STATUS_frozen c) then (s.failTxs fun t => decide (t.pool = c)).endFreeze c else s
  (s1.put (DMC_STATUS_state c) 1).setDmc c { s1.dmc[c] with
    round := false, burst := false, rows := [], ranks := 1 + s1.get (DMC_CFG_ranks c), hash := s1.on (DMC_CFG_hash c) }

/-- The result of a training (R366, R367). -/
def State.trainResult (s : State) (c : Fin 4) (code lane : Nat) : State :=
  (s.put (DMC_TRAIN_RESULT_code c) code).put (DMC_TRAIN_RESULT_lane c) lane

/-- The next channels of a DDR_FULL_TRAIN, in ascending order, until one starts training. -/
def State.trainNext : Nat → State → State
  | 0, s => s
  | fuel + 1, s =>
    match s.trainLeft with
    | [] => s
    | k :: l =>
      let c : Fin 4 := ⟨k % 4, by omega⟩
      let code := s.trainRefused c
      if code = 0 then s.trainStart c
      else
        State.trainNext fuel { (s.trainResult c code 0xFF) with trainLeft := l, trainCodes := s.trainCodes ++ [(k, code)] }

/-- The initialiser starts on the granules of a channel from `first` to `last - 1` (R368); with none, the channel is READY. -/
def State.initStart (s : State) (c : Fin 4) (first last : Nat) : State :=
  let n := last - first
  let s1 := (s.wn (DMC_INIT_LEFT c) n).setDmc c { s.dmc[c] with initNext := first, initDone := [], initEnd := last, patterned := [] }
  if n = 0 then s1.put (DMC_STATUS_state c) 3 else s1.put (DMC_STATUS_state c) 2

/-- The bytes of a channel that its fitted capacity covers read 0. -/
def State.zeroChan (s : State) (c : Fin 4) : State := s.zeroMem (nearBase c) 0x2000000000

/-- Training of channel `c` ends (R366, R367, Table 12.3): code 0, or 4 or 5 with the first lane. A DDR_FULL_TRAIN goes on
to its next channel. -/
def State.ddrTrainDone (s : State) (c : Fin 4) (code lane : Nat) : State :=
  if s.get (DMC_STATUS_state c) ≠ 1 then s
  else
    let ok := decide (code ≠ 4) && decide (code ≠ 5)
    let s1 := s.trainResult c (if ok then 0 else code) (if code = 4 then lane else 0xFF)
    let s2 := if ok then
        let u := s1.cfgUnits c
        ((((s1.zeroChan c).wn (DMC_CAPACITY c) u).put (DMC_STATUS_fenced c) 0).put (DMC_STATUS_rt_fails c) 0).initStart c 0 (128 * u)
      else (s1.put (DMC_STATUS_state c) 4).failTxs fun t => decide (t.pool = c)
    let s3 := s2.ev (dmcSrc c 5)
    match s3.trainLeft with
    | k :: l =>
      if k = c then
        State.trainNext 5 { s3 with trainLeft := l, trainCodes := s3.trainCodes ++ [(k, if ok then 0 else code)] }
      else s3
    | [] => s3

/-- The initialiser zeroes a granule (R368): one that a write waits for, else the next in order. -/
def State.ddrInitGranule (s : State) (c : Fin 4) : State :=
  if s.get (DMC_STATUS_state c) ≠ 2 || !s.domainOn (32 + c) || s.on (DMC_STATUS_frozen c) then s
  else
    let h := s.dmc[c]
    let want := (s.dmcQueue c).find? fun t => t.write.isSome && !s.zeroed c t.line
    let h1 := match want with
      | some t =>
        if granuleOf c t.line = h.initNext then { h with initNext := h.initNext + 1 }
        else { h with initDone := granuleOf c t.line :: h.initDone }
      | none =>
        let n := ((List.range (h.initDone.length + 1)).map (h.initNext + ·)).find? fun g => !h.initDone.contains g
        { h with initNext := n.getD h.initNext + 1, initDone := h.initDone.filter fun g => decide (n.getD h.initNext < g) }
    let left := s.rn (DMC_INIT_LEFT c) - 1
    let s1 := (s.wn (DMC_INIT_LEFT c) left).setDmc c h1
    if left = 0 then (s1.put (DMC_STATUS_state c) 3).ev (dmcSrc c 6) else s1

/-! ## Refresh and retraining (R365, R369 to R371) -/

/-- The refresh interval expires (R365): the refresh is postponed, which only panic allows and at most 4 times, or issued,
and closes the rows of its banks (R364). -/
def State.ddrRefresh (s : State) (c : Fin 4) (postpone : Bool) : State :=
  let h := s.dmc[c]
  if postpone && s.chanPanic c && decide (h.postponed < 4) then
    let s1 := (s.setDmc c { h with postponed := h.postponed + 1 }).count (DMC_REF_POSTPONE_CNT c)
    s1.evIf (decide (h.postponed = 3)) (dmcSrc c 8)
  else
    s.setDmc c { h with
      postponed := 0, refBank := (h.refBank + 1) % 4, rows := h.rows.filter fun r => decide (r.bank % 4 ≠ h.refBank) }

/-- The controller reads MR4 (R365). -/
def State.ddrMr4 (s : State) (c : Fin 4) (v : Nat) : State := s.setDmc c { s.dmc[c] with mr4 := v % 256 }

/-- A retraining round starts (R369). -/
def State.retrainStart (s : State) (c : Fin 4) : State :=
  if s.get (DMC_STATUS_state c) = 3 ∧ !s.on (DMC_STATUS_frozen c) then s.setDmc c { s.dmc[c] with round := true } else s

/-- A step of the round is due (R369). While a requester of the channel holds panic it waits, at most until 1 ms after it was due
(`late`: that time is over). It pauses a subchannel, at least 10 µs after the step before it there, and closes its rows (R364). -/
def State.retrainStep (s : State) (c : Fin 4) (sub : Nat) (late : Bool) : State :=
  let h := s.dmc[c]
  let due := h.stepDue.getD s.tmb.clk
  if !h.round then s
  else if s.chanPanic c && !late then s.setDmc c { h with stepDue := some due }
  else
    let s1 := if s.chanPanic c then s.advanceTo (due + 1000000 * tuPerNs) else s
    let s2 := match h.steps.lookup (sub % 2) with
      | some t => s1.advanceTo (t + 10000 * tuPerNs)
      | none => s1
    s2.setDmc c { h with
      rows := h.rows.filter fun r => decide (r.bank / 32 % 2 ≠ sub % 2), stepDue := none
      steps := (sub % 2, s2.tmb.clk) :: h.steps.filter fun x => decide (x.1 ≠ sub % 2) }

/-- A round ends with the best eye of each lane, width in ps and height in mV (R369, R370). -/
def State.retrainEnd (s : State) (c : Fin 4) (eyes : List (Nat × Nat)) : State :=
  if !s.dmc[c].round then s
  else
    let s1 := (s.setDmc c { s.dmc[c] with round := false }).count (DMC_RETRAIN_CNT c)
    let s2 := (List.range 80).foldl (fun (a : State) l =>
      let e := eyes.getD l (0, 0)
      (a.put (DMC_EYE_width c l) (min e.1 1023)).put (DMC_EYE_height c l) (min e.2 1023)) s1
    let good := (List.range 80).all fun l =>
      let e := eyes.getD l (0, 0)
      decide (s.get (DMC_RETRAIN_CFG_min_w c) ≤ e.1) && decide (2 * s.get (DMC_RETRAIN_CFG_min_h c) ≤ e.2)
    if good then s2.put (DMC_STATUS_rt_fails c) 0
    else
      let n := min 3 (s2.get (DMC_STATUS_rt_fails c) + 1)
      let s3 := ((((s2.count (DMC_RETRAIN_FAIL_CNT c)).put (DMC_STATUS_rt_fails c) n).put (DMC_STATUS_rt_fail_seen c) 1)).ev
        (dmcSrc c 3)
      if n = 3 ∧ !s3.on (DMC_STATUS_fenced c) then (s3.put (DMC_STATUS_fenced c) 1).ev (dmcSrc c 4) else s3

/-! ## Diagnostic operations (R375) -/

/-- A diagnostic operation starts, or is refused while the channel is not frozen (R375). -/
def State.diagStart (s : State) (c : Fin 4) (op : Nat) : State :=
  if s.on (DMC_DIAG_CTL_busy c) then s
  else if !s.on (DMC_STATUS_frozen c) then s.put (DMC_DIAG_CTL_result c) 2
  else
    let line := lineOf (s.rn64 (DMC_DIAG_ADDR_LO c))
    if line < nearBase c ∨ nearBase c + nearUnit * s.get (DMC_CAPACITY_units c) ≤ line then s
    else
      let p := s.get (DMC_DIAG_CTL_pattern c)
      ((s.put (DMC_DIAG_CTL_busy c) 1).put (DMC_DIAG_CTL_result c) 0).setDmc c { s.dmc[c] with diag := some (op, line, p) }

/-- Put the 20 words of a raw line and the decode of its codewords into the diagnostic registers. -/
def State.showDiag (s : State) (c : Fin 4) (raw : Nat) (l : List CwRead) : State :=
  let s1 := (List.range 20).foldl (fun (a : State) i => a.wn (DMC_DIAG_RAW c i) (bitsOf raw (32 * i) 32)) s
  (List.range 8).foldl (fun (a : State) k =>
    let x := match l.getD k .clean with
      | .clean => (0, 0, 0)
      | .corrected s m => (1, s, m)
      | .uncorrectable => (2, 0, 0)
    ((a.put (DMC_DIAG_SYN_result c k) x.1).put (DMC_DIAG_SYN_symbol c k) x.2.1).put (DMC_DIAG_SYN_magnitude c k) x.2.2) s1

/-- A diagnostic operation completes (R375): op 2 has written its pattern to the line; `err` holds the raw bits that the DRAM returns
changed. -/
def State.diagDone (s : State) (c : Fin 4) (err : BitVec 640) : State :=
  match s.dmc[c].diag with
  | none => s
  | some (op, line, p) =>
    let s1 := s.setDmc c { s.dmc[c] with diag := none }
    let s2 := if op = 2 then
        (s1.setLine line (BitVec.ofNat 512 ((List.range 64).map fun i => p * 2 ^ (8 * i)).sum)).setDmc c { s1.dmc[c] with
          patterned := (line, p) :: s1.dmc[c].patterned.filter fun y => decide (y.1 ≠ line) }
      else s1
    let raw := BitVec.ofNat 640 (s2.rawLine c line) ^^^ err
    ((s2.showDiag c raw.toNat (s2.lineRead c line err)).put (DMC_DIAG_CTL_busy c) 0).put (DMC_DIAG_CTL_result c) 1

/-! ## Retention (R376) -/

/-- The controller goes down with its domain or by a reset that keeps the near store (R376, Table 12.2): RETAINED where
ranks are retained, else OFF, and the contents of the ranks not retained are lost. -/
def State.dmcDown (s : State) (c : Fin 4) : State :=
  let ret := s.get (DMC_RETAIN_ranks c)
  let half := nearUnit * s.get (DMC_CAPACITY_units c) / s.dmc[c].ranks
  let s1 := s.setDmc c { s.dmc[c] with round := false, burst := false, rows := [], diag := none, patterned := [] }
  let live := decide (2 ≤ s.get (DMC_STATUS_state c)) && decide (s.get (DMC_STATUS_state c) ≤ 3)
  let keep := ret % 2 ^ s.dmc[c].ranks
  if live && decide (keep ≠ 0) then
    let s2 := if bit keep 0 then s1 else s1.zeroMem (nearBase c) half
    let s3 := if bit keep 1 then s2 else s2.zeroMem (nearBase c + half) half
    s3.put (DMC_STATUS_state c) 5
  else ((s1.zeroChan c).failTxs fun t => decide (t.pool = c)).put (DMC_STATUS_state c) 0

/-- The domain returns and the short training ends (R376, R372): with success, or with no working setting (`lost`); a read of it, of line
`line`, came back with the errors `err`. -/
def State.retentionReturn (s : State) (c : Fin 4) (lost : Bool) (err : BitVec 640) (line : Nat) : State :=
  if s.get (DMC_STATUS_state c) ≠ 5 || !s.domainOn (32 + c) then s
  else if lost then
    ((((s.zeroChan c).put (DMC_STATUS_state c) 4).put (DMC_STATUS_retain_lost c) 1).failTxs
      fun t => decide (t.pool = c)).ev (dmcSrc c 7)
  else
    let ret := s.get (DMC_RETAIN_ranks c)
    let all := 2 * s.get (DMC_CAPACITY_units c) * 64
    let half := all / s.dmc[c].ranks
    let first := if bit ret 0 then half else 0
    let last := if s.dmc[c].ranks = 2 ∧ bit ret 1 then half else all
    let s1 := s.initStart c first last
    let l := s.lineRead c line err
    let (v, s2) := s1.draw
    let s3 := if err = 0 then s1 else s2.correctAll c line (v.toNat % 32) 3 (corrections l)
    if uncorrectables l = 0 then s3
    else s3.freeze c line (v.toNat % 32) 3 (uncorrectables l) (decide (corrections l ≠ []))

end Sys2Proof.Machine
end

