-- ==== Sys2Proof/Machine/Cxl.lean ====
section
/-! DEFINITION. The CXL memory host (chapter 13): the halves and their setup, reads and writes of the far store, time-outs,
poison, recovery and loss of a link. What an expander answers is part of the command. -/

namespace Sys2Proof.Machine

def State.setCxh (s : State) (h : Fin 2) (x : CxhH) : State := { s with cxh := s.cxh.set h x }

/-- The GiB that the halves in UP map (Table 13.6). -/
def State.farSize (s : State) : Nat :=
  let r0 := s.halfRange 0
  let r1 := s.halfRange 1
  let u0 := decide (s.get (CXH_LINK_state 0) = 3)
  let u1 := decide (s.get (CXH_LINK_state 1) = 3)
  if s.on CXH_CTL_interleave then (if u0 && u1 then r0.2 / gib else 0)
  else (if u0 then (r0.2 - r0.1) / gib else 0) + (if u1 then (r1.2 - r1.1) / gib else 0)

/-- A half enters a state of Table 13.2. -/
def State.halfEnter (s : State) (h : Fin 2) (st : Nat) : State :=
  let s1 := s.put (CXH_LINK_state h) st
  s1.put CXH_FAR_SIZE_gib s1.farSize

/-- A transaction that goes to half `h`. -/
def State.onHalf (s : State) (h : Fin 2) (t : FabTx) : Bool :=
  decide (t.pool = 4) && decide (s.farHalf (t.line - farBase) = some h.val)

/-- The requests in flight to, or held for, half `h` complete with error in their order of issue (R392, R46); a write leaves its
line undefined (a free value). Tags of timed-out reads return (R389). -/
def State.failHalf (s : State) (h : Fin 2) : State :=
  let open_ := s.fab.filter fun t => s.onHalf h t && t.answer.isNone && !t.stale
  let s1 := s.failTxs fun t => s.onHalf h t && !t.stale
  let s2 := { s1 with fab := s1.fab.filter fun t => !(t.stale && s.onHalf h t) }
  let s3 := (open_.filter fun t => t.write.isSome).foldl (fun (a : State) t =>
    let (v, b) := a.draw
    let (w, b) := b.draw
    b.setLine t.line (BitVec.ofNat 512 (v.toNat + 2 ^ 384 * w.toNat))) s2
  s3.count CXH_ERRCPL_CNT open_.length

/-- The halves that take part: half 1 only with bifurcate (R379). -/
def State.halvesInUse (s : State) : List (Fin 2) := if s.on CXH_CTL_bifurcate then [0, 1] else [0]

/-- Training of the halves in use starts (R384, R385). -/
def State.cxlTrain (s : State) : State :=
  s.halvesInUse.foldl (fun (a : State) (h : Fin 2) => if a.get (CXH_LINK_state h) = 0 then a.halfEnter h 1 else a) s

/-- A write of CXH_CTL.en = 1. -/
def State.cxlEnable (s : State) : State :=
  let s1 := s.put CXH_CTL_en 1
  if s.domainOn 36 then s1.cxlTrain else s1

/-- The bytes of a line after a write with byte enables (R360). -/
def State.doWrite (s : State) (t : FabTx) : State :=
  match t.write with
  | none => s
  | some v => s.setLine t.line (mergeLine (s.lineData t.line) v t.enables)

/-- The requests in flight to half `h` complete, in their order of issue (R387): each read with the data of its moment, each write done. -/
def State.completeHalf (s : State) (h : Fin 2) : State :=
  let s1 := (s.fab.filter fun t => s.onHalf h t && t.answer.isNone && !t.stale).foldl (fun (a : State) t =>
    (a.doWrite t).updateTx t fun y => { y with answer := some (if t.write.isSome then 0 else a.lineData t.line, true) }) s
  { s1 with fab := s1.fab.filter fun t => !(t.stale && s.onHalf h t) }

/-- Both halves enter OFF; `complete`: with every request completed first (R387), else in error. -/
def State.cxlOff (s : State) (complete : Bool) : State :=
  [0, 1].foldl (fun (a : State) (h : Fin 2) => (if complete then a.completeHalf h else a.failHalf h).halfEnter h 0) s

/-- A write of CXH_CTL.en = 0. -/
def State.cxlDisable (s : State) : State := (s.cxlOff false).put CXH_CTL_en 0

/-- A write of CXH_CTL.reenum = 1 (R386): halves in WAIT, DOWN or ABSENT train again, with a new window. -/
def State.cxlReenum (s : State) : State :=
  [0, 1].foldl (fun (a : State) (h : Fin 2) =>
    let st := a.get (CXH_LINK_state h)
    if st = 2 ∨ st = 5 ∨ st = 6 then (a.halfEnter h 1).setCxh h { a.cxh[h] with windowOver := false } else a) s

/-- An event record of an expander is read (R391). -/
def State.cxlRecords (s : State) : Nat → State
  | 0 => s
  | n + 1 => ((s.count CXH_EXP_EVT_CNT).ev 329).cxlRecords n

/-- The step of R384 at which a setup fails; 0 where it succeeds. `fail` is the step at which the expander fails (3, 5, 6). -/
def State.setupStep (s : State) (width speed fail : Nat) (ide : Bool) : Nat :=
  if width = 0 then 1
  else if width < 8 ∨ speed = 0 then 2
  else if fail = 3 then 3
  else if s.on CXH_CTL_ide_req && !ide then 4
  else if fail = 5 ∨ fail = 6 then fail
  else 0

/-- The setup of a half ends (R384): its link came up with `width` lanes at `speed` (1: 32 GT/s, 2: 64 GT/s), the expander
failed step `fail`, offers IDE, holds `cap` GiB and had event records. -/
def State.cxlSetup (s : State) (h : Fin 2) (width speed fail : Nat) (ide : Bool) (cap records : Nat) : State :=
  if s.get (CXH_LINK_state h) ≠ 1 then s
  else
    let step := s.setupStep width speed fail ide
    if step ≠ 0 then
      let s1 := ((((s.put (CXH_LINK_fail_step h) step).put (CXH_LINK_width h) 0).put (CXH_LINK_speed h) 0).put (CXH_LINK_ide h) 0).put
        (CXH_LINK_degraded h) 0
      if s.cxh[h].windowOver then (s1.halfEnter h 6).ev 321 else s1.halfEnter h 2
    else
      let b := s.farBase1
      let mapped := if !s.on CXH_CTL_bifurcate then min cap 4096
        else if s.on CXH_CTL_interleave then min cap 2048
        else if h = 0 then min cap b else min cap (4096 - b)
      let low := (decide (speed < 2) && !s.on CXH_CTL_max_speed) || (!s.on CXH_CTL_bifurcate && decide (width < 16))
      let s1 := ((((s.put (CXH_LINK_fail_step h) 0).put (CXH_LINK_width h) (if width < 16 ∨ s.on CXH_CTL_bifurcate then 8 else 16)).put
        (CXH_LINK_speed h) (if s.on CXH_CTL_max_speed then 1 else speed)).put (CXH_LINK_ide h) (if ide then 1 else 0)).put (CXH_LINK_degraded h) (if low then 1 else 0)
      ((((s1.put (CXH_CAP_gib h) mapped).cxlRecords records).halfEnter h 3).ev 320).evIf low 327

/-- 100 ms in WAIT (R385). -/
def State.cxlRetry (s : State) (h : Fin 2) : State :=
  if s.get (CXH_LINK_state h) = 2 then s.halfEnter h 1 else s

/-- The window of a half ends (R385): WAIT becomes ABSENT now, TRAINING when it fails. -/
def State.cxlWindowEnd (s : State) (h : Fin 2) : State :=
  let s1 := s.setCxh h { s.cxh[h] with windowOver := true }
  if s.get (CXH_LINK_state h) = 2 then (s1.halfEnter h 6).ev 321 else s1

/-- The far requests in flight: those that went to a half in UP, timed-out reads included. -/
def State.cxlFlight (s : State) (write : Bool) : List FabTx :=
  s.fab.filter fun t => decide (t.pool = 4) && t.answer.isNone && decide (t.write.isSome = write) &&
    match s.farHalf (t.line - farBase) with
    | some h => decide (s.halfState h = 3)
    | none => false

/-- The half of a transaction. -/
def State.txHalf (s : State) (t : FabTx) : Nat := (s.farHalf (t.line - farBase)).getD 0

/-- CXH_ERR records a line (R389, R390). -/
def State.cxlErr (s : State) (kind : Nat) (t : FabTx) : State :=
  ((((s.wn64 CXH_ERR_ADDR_LO t.line).put CXH_ERR_INFO_kind kind).put CXH_ERR_INFO_half (s.txHalf t)).put
    CXH_ERR_INFO_requester t.req)

/-- An earlier request of the same requester to the line of `t` is unanswered: `t` completes after it (R42, R388). -/
def State.behindLine (s : State) (t : FabTx) : Bool :=
  (s.fab.takeWhile fun x => decide (x ≠ t)).any fun x =>
    decide (x.pool = t.pool) && decide (x.req = t.req) && decide (x.line = t.line) && x.answer.isNone && !x.stale

/-- MemData for the `i`-th read in flight arrives (R388, R390): with its data, or poisoned; a late one is discarded (R389).
`replays` flits were replayed on the way (R391). -/
def State.cxlMemData (s : State) (i : Nat) (poison : Bool) (replays : Nat) : State :=
  let s0 := if replays = 0 then s else s.count CXH_REPLAY_CNT replays
  match (s.cxlFlight false)[i]? with
  | none => s0
  | some t =>
    if t.stale then { s0 with fab := s0.fab.erase t }
    else if s.behindLine t then s0
    else if poison then
      (((s0.updateTx t fun y => { y with answer := some (0, false) }).count CXH_POISON_CNT).cxlErr 1 t).ev 325
    else s0.updateTx t fun y => { y with answer := some (s.lineData t.line, true) }

/-- Cmp for the `i`-th write in flight arrives (R388): the write is visible and acknowledged. -/
def State.cxlCmp (s : State) (i : Nat) : State :=
  match (s.cxlFlight true)[i]? with
  | none => s
  | some t => if s.behindLine t then s else (s.doWrite t).updateTx t fun y => { y with answer := some (0, true) }

/-- Every port and WFG, armed or running, with a tier-2 read among those that recovery fails aborts with FAR_LINK, a port at the end of its
vector in issue; the address is that of the oldest such read (R46, R194, R299). -/
def State.farLinkAborts (s : State) (open_ : List FabTx) : State :=
  let s1 := (List.finRange 8).foldl (fun (a : State) (p : Fin 8) =>
    match open_.find? fun t => t.dest.ofUnit (portUnit p) with
    | none => a
    | some t => if a.portActive p then a.strmAbort p 5 (a.seqVec (portUnit p)) t.line else a) s
  (List.finRange 4).foldl (fun (a : State) (m : Fin 4) =>
    if a.wfgActive m ∧ open_.any (fun t => t.dest.ofUnit (wfgUnit m)) then a.wfgEnd m 6 7 false else a) s1

/-- A half enters RECOVERY (R392, R194). -/
def State.cxlRecoveryEnter (s : State) (h : Fin 2) : State :=
  if s.get (CXH_LINK_state h) = 3 then
    ((((s.failHalf h).halfEnter h 4).count CXH_RECOVERY_CNT).ev 322).farLinkAborts (s.fab.filter fun t =>
      s.onHalf h t && t.answer.isNone && !t.stale)
  else s

/-- The `i`-th read in flight has waited CXH_TMO µs (R389): it completes with error, and its tag stays out of the pool; 16
time-outs of a half within 1 ms force Recovery. -/
def State.cxlReadTimeout (s : State) (i : Nat) : State :=
  match (s.cxlFlight false)[i]? with
  | none => s
  | some t =>
    if t.stale then s
    else
      let us := max 1 (s.get CXH_TMO_us)
      let s1 := s.advanceTo (t.at_ + us * 1000 * tuPerNs)
      let s2 := (((s1.updateTx t fun y => { y with answer := some (0, false), lost := true, noTag := true }).count CXH_TMO_CNT).cxlErr 2 t).ev 326
      let s3 := s2.putTx { t with stale := true, dest := .other }
      let h : Fin 2 := ⟨s.txHalf t % 2, by omega⟩
      let now := s1.tmb.clk
      let l := now :: (s3.cxh[h].timeouts.filter fun x => decide (now < x + 1000000 * tuPerNs))
      let s4 := s3.setCxh h { s3.cxh[h] with timeouts := l }
      if 16 ≤ l.length then (s4.setCxh h { s4.cxh[h] with timeouts := [] }).cxlRecoveryEnter h else s4

/-- The link is back in L0 within 100 ms (R392): the held requests are served. -/
def State.cxlRecoveryExit (s : State) (h : Fin 2) : State :=
  if s.get (CXH_LINK_state h) = 4 then (s.halfEnter h 3).ev 323 else s

/-- The link goes down, or misses 100 ms of recovery (R392). -/
def State.cxlLinkDown (s : State) (h : Fin 2) : State :=
  let st := s.get (CXH_LINK_state h)
  if st = 3 ∨ st = 4 then ((s.failHalf h).halfEnter h 5).ev 324 else s

/-- An IDE integrity failure (R391). -/
def State.cxlIdeFail (s : State) (h : Fin 2) : State :=
  if s.get (CXH_LINK_state h) = 3 then ((s.count CXH_IDE_FAIL_CNT).ev 328).cxlRecoveryEnter h else s

/-- An MSI-X from an expander (R391). -/
def State.cxlMsix (s : State) (h : Fin 2) (records : Nat) : State :=
  if s.get (CXH_LINK_state h) = 3 then s.cxlRecords records else s

end Sys2Proof.Machine
end

