-- ==== Sys2Proof/Machine/Cal.lean ====
section
/-! DEFINITION. Calibration, the in-service test, the scrub and the service microengine (chapter 16). What a run measures (its
residuals), what a test finds and what the memories return is part of the command. -/

namespace Sys2Proof.Machine

def State.setCal (s : State) (x : CalH) : State := { s with cal := x }
def State.setSme (s : State) (x : SmeH) : State := { s with sme := x }

/-- The running long operation of an opcode has an outcome (R414). -/
def State.longOutcome (s : State) (opcode result : Nat) (data : List Byte) : State :=
  match s.long with
  | some l => if l.opcode = opcode ∧ l.outcome = none then { s with long := some { l with outcome := some (result, data) } } else s
  | none => s

/-! ## The SME (R476 to R478, R482) -/

/-- The priority of a routine, and whether it is atomic (Table 16.7). -/
def smePrio : Nat → Nat
  | 1 | 2 => 7 | 3 | 4 => 6 | 5 => 5 | 6 | 7 => 4 | 8 => 3 | _ => 1
def smeAtomic (r : Nat) : Bool := decide (1 ≤ r) && decide (r ≤ 4)

/-- The first job of highest priority. -/
def firstJob (l : List SmeJob) : Option SmeJob :=
  l.foldl (fun (b : Option SmeJob) x => match b with
    | none => some x
    | some y => if smePrio y.routine < smePrio x.routine then some x else b) none

/-- Show the SME's state (Table 16.13). -/
def State.showSme (s : State) : State :=
  let st := match s.sme.run with
    | none => 0
    | some j => if smeAtomic j.routine then 2 else 1
  ((s.put SME_STATUS_state st).put SME_STATUS_routine (match s.sme.run with | none => 0 | some j => j.routine)).put
    SME_STATUS_suspended s.sme.susp.length

/-- With no routine running, the request or suspended routine of highest priority runs; a suspended one goes before a
request of equal priority, since it arrived earlier (R477). -/
def State.smeNext (s : State) : State :=
  match s.sme.run with
  | some _ => s.showSme
  | none =>
    match firstJob s.sme.susp, firstJob s.sme.reqs with
    | none, none => s.showSme
    | some j, none => ((s.setSme { s.sme with run := some j, susp := s.sme.susp.erase j }).ev 436).showSme
    | none, some r => (s.setSme { s.sme with run := some r, reqs := s.sme.reqs.erase r }).showSme
    | some j, some r =>
      if smePrio j.routine < smePrio r.routine then
        (s.setSme { s.sme with run := some r, reqs := s.sme.reqs.erase r }).showSme
      else ((s.setSme { s.sme with run := some j, susp := s.sme.susp.erase j }).ev 436).showSme

/-- Request a routine. -/
def State.smeRequest (s : State) (routine unit : Nat) : State :=
  (s.setSme { s.sme with reqs := s.sme.reqs ++ [⟨routine, unit⟩] }).smeNext

/-- A routine's work is done: it ends, wherever it stands. -/
def State.smeDone (s : State) (routine unit : Nat) : State :=
  let j : SmeJob := ⟨routine, unit⟩
  if s.sme.run = some j then (s.setSme { s.sme with run := none }).smeNext
  else if s.sme.susp.contains j then (s.setSme { s.sme with susp := s.sme.susp.erase j }).showSme
  else s.setSme { s.sme with reqs := s.sme.reqs.erase j }

/-- The running routine ends (R476). -/
def State.smeRoutineEnd (s : State) : State := (s.setSme { s.sme with run := none }).smeNext

/-! ## Units (Table 16.1) -/

/-- The switched domain of a unit; none for the base. -/
def unitDomain (u : Nat) : Option Nat :=
  if u < 16 then some (8 * (u / 4) + 2 + u % 4)
  else if u < 48 then some (8 * ((u - 16) / 8) + 2 + (u - 16) % 8 / 2)
  else if u < 52 then some (8 * (u - 48) + 7)
  else if u < 72 then none
  else some (32 + (u - 72))

/-- The idle window of a unit holds (Table 16.1); a unit whose domain is off, or a channel that is not READY, has none. -/
def State.idleWindow (s : State) (u : Nat) : Bool :=
  (match unitDomain u with | none => true | some d => s.domainOn d) &&
  (if u < 16 then
    [2 * u, 2 * u + 1].all fun o => match s.cs.ownerOf o with
      | none => true
      | some n => !s.portActive ⟨n % 8, by omega⟩
  else if u < 48 then
    let st := s.get (TIM_STATUS_state (u - 16))
    decide (st = 1) || decide (st = 4) || decide (st = 5)
  else if u < 52 then
    let st := s.get (WFG_STATUS_state (u - 48))
    decide (st = 0) || decide (st = 4) || decide (st = 5)
  else if u < 68 then true
  else if u < 72 then
    (List.range 32).all fun t =>
      let src := s.cs.timSrc.getD t 0
      let st := s.get (TIM_STATUS_state t)
      !(decide (bitsOf src 14 2 = 3) && decide (bitsOf src 0 6 = u - 68) && (decide (st = 2) || decide (st = 3)))
  else decide (s.get (DMC_STATUS_state (u - 72)) = 3) && !s.on (DMC_STATUS_frozen (u - 72)))

/-- Mark a unit stale or not: its bit of CAL_STALE, CAL_UNIT.stale and any_stale (R464). -/
def State.setStale (s : State) (u : Nat) (stale : Bool) : State :=
  let a := CAL_STALE (u / 32)
  let s1 := (if stale then s.setBit a (u % 32) else s.clearBit a (u % 32)).put (CAL_UNIT_stale u) (if stale then 1 else 0)
  s1.put CAL_STATUS_any_stale (if (List.range 3).all fun k => decide (s1.rn (CAL_STALE k) = 0) then 0 else 1)

/-- A unit becomes pending (R461); its deferral clock runs from when it first does (R465). -/
def State.setPending (s : State) (u : Nat) : State :=
  if s.on (CAL_UNIT_pending u) then s
  else
    (s.setCal { s.cal with pendAt := (u, s.tmb.clk) :: s.cal.pendAt.filter fun x => decide (x.1 ≠ u) }).put (CAL_UNIT_pending u) 1

/-- The units of a domain that powers up are stale and pending until their first completed run (R461, R464). -/
def State.calPowerUp (s : State) (d : Nat) : State :=
  (List.range 76).foldl (fun (a : State) u =>
    if unitDomain u = some d then
      let b := a.setPending u
      let c := if u < 72 then b.setStale u true else b
      c.setCal { c.cal with ref := c.cal.ref.filter fun x => decide (x.1 ≠ u) }
    else a) s

/-- The sensors that cover a unit (Table 16.2). -/
def unitSensor (u : Nat) : Nat :=
  if u < 16 then 3 * (u / 4) + u % 4 / 2
  else if u < 48 then 3 * ((u - 16) / 8) + (u - 16) % 8 / 4
  else if u < 52 then 3 * (u - 48) + 2
  else if u < 68 then 3 * ((u - 52) / 4) + 2
  else if u < 72 then 12
  else 3 * (u - 72) + 2

/-- A value of a register clamped to a range. -/
def clampNat (lo hi x : Nat) : Nat := max lo (min hi x)

/-- The sensors are sampled (R460, R461): `l` holds the 16 readings in 1/16 °C. -/
def State.tempSample (s : State) (l : List Int) : State :=
  let s1 := (List.range 16).foldl (fun (a : State) i =>
    let x := l.getD i 0
    if x < -640 ∨ 2400 < x then ((a.put (CAL_TEMP_valid i) 0).put CAL_STATUS_sensor_fault 1).ev 431
    else (a.put (CAL_TEMP_temp i) (ofSigned 13 x)).put (CAL_TEMP_valid i) 1) s
  (List.range 76).foldl (fun (a : State) u =>
    let k := unitSensor u
    match a.cal.ref.find? fun x => decide (x.1 = u) with
    | some (_, _, r) =>
      if a.on (CAL_TEMP_valid k) then
        let move := (toSigned 13 (a.get (CAL_TEMP_temp k)) - r).natAbs
        let b := a.put (CAL_UNIT_delta u) (min 0xFFFF (max (a.get (CAL_UNIT_delta u)) move))
        if a.on CAL_CTL_en ∧ clampNat 4 160 (a.get CAL_TEMP_THR_thr) < move ∧ !a.on (CAL_UNIT_pending u) then
          (b.setPending u).ev 420
        else b
      else a
    | none => a) s1

/-- A write of CAL_RUN with go (Table 16.10). -/
def State.calRun (s : State) (u : Nat) : State :=
  if u = 0x7F then (List.range 76).foldl (fun (a : State) v => a.setPending v) s
  else if u < 76 then s.setPending u
  else s

/-! ## Runs (R462 to R467) -/

/-- A run on a unit starts (R462): it holds the unit's lease; on a DDR channel it is a retraining round (R466). -/
def State.calStart (s : State) (u : Nat) : State :=
  let s1 := (s.put (CAL_UNIT_running u) 1).setCal { s.cal with run := some u }
  let s2 := if 16 ≤ u ∧ u < 48 then s1.put (TIM_STATUS_leased (u - 16)) 1 else s1
  if h : 72 ≤ u ∧ u < 76 then
    let c : Fin 4 := ⟨u - 72, by omega⟩
    (s2.setDmc c { s2.dmc[c] with round := true }).smeRequest 7 (u - 72)
  else s2.smeRequest 8 u

/-- CAL_FULL at its next units (R467): the first one from `u` on whose idle window holds is run, the ones before it are
skipped; after the last the operation has its result. -/
def State.fullFrom : Nat → State → Nat → Nat → State
  | 0, s, _, _ => s
  | fuel + 1, s, u, skipped =>
    if 76 ≤ u then
      ((s.setCal { s.cal with full := none }).put CAL_STATUS_full_busy 0).longOutcome 0x12 skipped []
    else if s.idleWindow u then (s.setCal { s.cal with full := some (u + 1, skipped) }).calStart u
    else State.fullFrom fuel s (u + 1) (skipped + 1)

/-- The unit's run is over: the lease is returned, and a CAL_FULL goes on; `skipped` counts an abandoned run. -/
def State.calOver (s : State) (u skipped : Nat) : State :=
  let s1 := (s.put (CAL_UNIT_running u) 0).setCal { s.cal with run := none }
  let s2 := if 16 ≤ u ∧ u < 48 then s1.put (TIM_STATUS_leased (u - 16)) 0 else s1
  let s3 := if 72 ≤ u then s2.smeDone 7 (u - 72) else s2.smeDone 8 u
  match s3.cal.full with
  | some (next, k) => State.fullFrom 77 s3 next (k + skipped)
  | none => s3

/-- CAL_FULL is accepted (R467). -/
def State.calFull (s : State) : State :=
  let s1 := (s.calRun 0x7F).put CAL_STATUS_full_busy 1
  match s1.cal.run with
  | some _ => s1.setCal { s1.cal with full := some (0, 0) }
  | none => State.fullFrom 77 s1 0 0

/-- The controller looks at the pending units, once per ms (R462, R465). -/
def State.calScan (s : State) : State :=
  if s.cal.run.isSome ∨ s.cal.full.isSome then s
  else
    let ready := fun u => s.on (CAL_UNIT_pending u) && s.idleWindow u &&
      match s.cal.failAt.lookup u with
      | some t => decide (t + 1000000000 * tuPerNs ≤ s.tmb.clk)
      | none => true
    match (List.range 76).find? ready with
    | some u => s.calStart u
    | none => s

/-- The residuals of a unit go to its quality figures (R468, Table 16.12); a timing block gives drive, enable and compare for
each of its 16 pins. -/
def State.showQuality (s : State) (u : Nat) (q : List Nat) : State :=
  let x := fun i => q.getD i 0
  if u < 16 then
    (List.range 16).foldl (fun (a : State) i =>
      let p := 16 * u + i
      ((a.put (CAL_Q_EDGE_drive p) (min 1023 (x (3 * i)))).put (CAL_Q_EDGE_enable p) (min 1023 (x (3 * i + 1)))).put
        (CAL_Q_EDGE_compare p) (min 1023 (x (3 * i + 2)))) s
  else if u < 48 then (s.put (CAL_Q_TIM_tac (u - 16)) (min 0xFFFF (x 0))).put (CAL_Q_TIM_dll (u - 16)) (min 0xFFFF (x 1))
  else if u < 52 then s.put (CAL_Q_WFG_inl (u - 48)) (min 0xFFFF (x 0))
  else if u < 68 then s.put (CAL_Q_PDAC_inl (u - 52)) (min 0xFFFF (x 0))
  else if u < 72 then s.put (CAL_Q_TIN_thr (u - 68)) (min 0xFFFF (x 0))
  else s

/-- The residuals are above the unit's limit (Table 16.3). -/
def residualFails (u : Nat) (q : List Nat) : Bool :=
  if u < 16 then q.any fun x => decide (50 < x)
  else if u < 48 then decide (60 < q.getD 0 0) || decide (400 < q.getD 1 0)
  else if u < 52 then decide (32 < q.getD 0 0)
  else if u < 68 then decide (96 < q.getD 0 0)
  else decide (20 < q.getD 0 0)

/-- A run is completed (R462): pending and stale clear, and the present readings become the unit's reference. -/
def State.calComplete (s : State) (u : Nat) : State :=
  let k := unitSensor u
  let ref := s.cal.ref.filter fun x => decide (x.1 ≠ u)
  let s1 := s.setCal { s.cal with
    ref := if s.on (CAL_TEMP_valid k) then (u, k, toSigned 13 (s.get (CAL_TEMP_temp k))) :: ref else ref
    failAt := s.cal.failAt.filter fun x => decide (x.1 ≠ u) }
  let s2 := ((s1.put (CAL_UNIT_pending u) 0).setStale u false).put (CAL_UNIT_delta u) 0
  ((s2.put (CAL_UNIT_runs u) (s2.get (CAL_UNIT_runs u) + 1)).count CAL_RUN_CNT).ev 416

/-- A run fails (R465). -/
def State.calFail (s : State) (u : Nat) : State :=
  let l := (u, s.tmb.clk) :: s.cal.failAt.filter fun x => decide (x.1 ≠ u)
  (((s.setCal { s.cal with failAt := l }).put (CAL_UNIT_failed u) 1).count CAL_FAIL_CNT).ev 419

/-- A run is abandoned (R463). -/
def State.calAbandon (s : State) (u : Nat) : State := ((s.count CAL_ABANDON_CNT).ev 418).calOver u 1

/-- The run in progress ends with the residuals of its closing check (R462, R465, R468). A run whose owner took the unit back
is abandoned (R463); a run on a DDR channel ends with its round. -/
def State.calRunDone (s : State) (q : List Nat) : State :=
  match s.cal.run with
  | none => s
  | some u =>
    if 72 ≤ u then s
    else if !s.idleWindow u then s.calAbandon u
    else
      let s1 := s.showQuality u q
      (if residualFails u q then s1.calFail u else s1.calComplete u).calOver u 0

/-- A retraining round ends (R369, R370, R466); one that calibration requested completes the unit's run where it found a
working setting. -/
def State.retrainRoundEnd (s : State) (c : Fin 4) (eyes : List (Nat × Nat)) : State :=
  if !s.dmc[c].round then
    if s.cal.run = some (72 + c.val) then s.calAbandon (72 + c) else s
  else
    let s1 := s.retrainEnd c eyes
    if s.cal.run = some (72 + c.val) then
      (if s1.get (DMC_STATUS_rt_fails c) = 0 then s1.calComplete (72 + c) else s1).calOver (72 + c) 0
    else s1

/-- When a unit that became pending will have been so for CAL_DEFER seconds (R464, Table 16.10). -/
def State.deferEnd (s : State) (u : Nat) : Nat :=
  (s.cal.pendAt.lookup u).getD 0 + clampNat 1 600 (s.get CAL_DEFER_s) * 1000000000 * tuPerNs

/-- A unit has been pending for CAL_DEFER seconds, and is stale (R464); DDR units are never marked (R466). -/
def State.calStaleMark (s : State) (u : Nat) : State :=
  if u < 72 ∧ s.on (CAL_UNIT_pending u) ∧ !s.on (CAL_UNIT_stale u) then
    (((s.advanceTo (s.deferEnd u)).setStale u true).count CAL_STALE_CNT).ev 417
  else s

/-! ## The T64 view (R469, R470) -/

/-- The three delay fields of a pin. -/
def userEdge (p path : Nat) : Fld :=
  match path with | 0 => CAL_USER_EDGE_A_drive p | 1 => CAL_USER_EDGE_A_enable p | _ => CAL_USER_EDGE_B_compare p
def factEdge (p path : Nat) : Fld :=
  match path with | 0 => CAL_FACT_EDGE_A_drive p | 1 => CAL_FACT_EDGE_A_enable p | _ => CAL_FACT_EDGE_B_compare p

/-- What a CAL_T64 field reads (R469). -/
def State.t64Read (s : State) (p path : Nat) : Nat :=
  let x := toSigned 16 (s.get (userEdge p path)) + toSigned 16 (s.get (factEdge p path))
  let m := (x.natAbs + 2) / 4
  ofSigned 16 (if x < 0 then -(m : Int) else m)

/-- A write of `c` to a CAL_T64 field (R470). -/
def State.t64Write (s : State) (p path c : Nat) : State :=
  let x := 4 * toSigned 16 c - toSigned 16 (s.get (factEdge p path))
  let y := if x < -32768 then -32768 else if 32767 < x then 32767 else x
  let s1 := s.put (userEdge p path) (ofSigned 16 y)
  if x = y then s1 else ((s1.put CAL_STATUS_t64_clip 1).count CAL_T64_CLIP_CNT).ev 421

/-! ## The in-service test (R471 to R473) -/

/-- The units of a test (Table 16.4), as units of Table 16.1; 0x7F is the crypto engine. -/
def istUnits : Nat → List Nat
  | 1 => (List.range 32).map (16 + ·)
  | 2 => (List.range 16).map (52 + ·)
  | 3 => (List.range 4).map (48 + ·)
  | 4 => List.range 16
  | 5 => [0x7F]
  | _ => []

/-- The unit is eligible for the test (Table 16.4) and not in a calibration run. -/
def State.istEligible (s : State) (test u : Nat) : Bool :=
  decide (s.cal.run ≠ some u) &&
  (match test with
  | 2 => s.on (PDC_CTL_en (u - 52)) && !s.on (PDC_STATUS_hold (u - 52))
  | 5 => !s.on CAL_STATUS_crypto_hold && s.domainOn 43 && s.sec.opening.isNone
  | _ => s.idleWindow u)

/-- Every test with its units, in the order of a cycle. -/
def istAll : List (Nat × Nat) := [1, 2, 3, 4, 5].flatMap fun t => (istUnits t).map fun u => (t, u)

/-- The cycle goes on with the first eligible unit of a list; after the last it ends (R471). -/
def State.istFrom (s : State) (l : List (Nat × Nat)) : State :=
  match l.find? fun x => s.istEligible x.1 x.2 with
  | some (t, u) =>
    let s1 := (s.setCal { s.cal with ist := some (t, u) }).smeRequest 9 u
    if t = 1 then s1.put (TIM_STATUS_leased (u - 16)) 1 else s1
  | none => (s.setCal { s.cal with ist := none }).ev 422

/-- The pairs after one of a list. -/
def after (x : Nat × Nat) : List (Nat × Nat) → List (Nat × Nat)
  | [] => []
  | y :: l => if x = y then l else after x l

/-- The instant `ms` ms after a TB time, where there is one, has come. -/
def State.afterMs (s : State) (t : Option Nat) (ms : Nat) : State :=
  match t with
  | none => s
  | some x => s.advanceTo (x + ms * 1000000 * tuPerNs)

/-- A cycle starts, CAL_IST_PERIOD ms after the one before (R471). -/
def State.istCycle (s : State) : State :=
  if s.on CAL_CTL_ist_en ∧ s.cal.ist = none then
    let s1 := s.afterMs s.cal.istAt (clampNat 100 60000 (s.get CAL_IST_PERIOD_ms))
    (s1.setCal { s1.cal with istAt := some s1.tmb.clk }).istFrom istAll
  else s

/-- The event of a failed test (Table 16.14). -/
def istEvent : Nat → Nat
  | 1 => 423 | 2 => 424 | 3 => 424 | 4 => 425 | _ => 426

/-- The slice in progress ends (R471 to R473): 0 passed, 1 failed, 2 yielded. -/
def State.istSliceDone (s : State) (outcome : Nat) : State :=
  match s.cal.ist with
  | none => s
  | some (t, u) =>
    let s0 := (if t = 1 then s.put (TIM_STATUS_leased (u - 16)) 0 else s).smeDone 9 u
    let s1 := if outcome = 1 then
        let a := (((s0.put CAL_IST_LAST_test t).put CAL_IST_LAST_unit u).count CAL_IST_FAIL_CNT).put CAL_STATUS_ist_fail 1
        let b := a.ev (istEvent t)
        if t = 1 ∨ t = 4 then b.setPending u
        else if t = 5 then (b.put CAL_STATUS_crypto_hold 1).setCal { b.cal with katAt := some b.tmb.clk }
        else b
      else s0
    s1.istFrom (after (t, u) istAll)

/-- The known-answer test is repeated every 1 s during a hold; the first pass ends it (R473). -/
def State.katRetry (s : State) (pass : Bool) : State :=
  if s.on CAL_STATUS_crypto_hold then
    let s0 := s.afterMs s.cal.katAt 1000
    let s1 := s0.setCal { s0.cal with katAt := some s0.tmb.clk }
    if pass then (s1.put CAL_STATUS_crypto_hold 0).ev 427 else s1
  else s

/-! ## The scrub (R474) -/

/-- The first address and the length of a scrub region: 0 SRAM, 1 + c channel c. -/
def State.scrubRegion (s : State) (k : Fin 5) : Nat × Nat :=
  if k.val = 0 then (0x100000000, 0x6000000) else (nearBase (k - 1), nearUnit * s.get (DMC_CAPACITY_units (k - 1)))

/-- The region is scrubbed: SRAM, or a channel in READY that is not frozen. -/
def State.scrubServed (s : State) (k : Fin 5) : Bool :=
  decide (k.val = 0) || (decide (s.get (DMC_STATUS_state (k - 1)) = 3) && !s.on (DMC_STATUS_frozen (k - 1)))

/-- SCRUB_FULL leaves a region behind; with none left it has its result. -/
def State.scrubLeave (s : State) (k : Fin 5) : State :=
  match s.cal.scrubFull with
  | none => s
  | some (mask, n) =>
    let m := if bit mask k then mask - 2 ^ k.val else mask
    if m = 0 then ((s.setCal { s.cal with scrubFull := none }).smeDone 10 0).longOutcome 0x14 n []
    else s.setCal { s.cal with scrubFull := some (m, n) }

/-- The scrub goes on to the next line of a region; the end of a pass raises source 430. -/
def State.scrubNext (s : State) (k : Fin 5) : State :=
  let n := s.cal.scrub[k] + 64
  if n < (s.scrubRegion k).2 then s.setCal { s.cal with scrub := s.cal.scrub.set k n }
  else ((s.setCal { s.cal with scrub := s.cal.scrub.set k 0 }).ev 430).scrubLeave k

/-- The scrub reads the next line of a region and writes back one in which it corrects a codeword. `err`: the bits in which the near store
returns it changed; `sram`: what the SRAM shows, 0 clean, 1 corrected, 2 uncorrectable. It reads as requester 30. -/
def State.scrubRead (s : State) (k : Fin 5) (err : BitVec 640) (sram : Nat) : State :=
  if !(s.on CAL_CTL_scrub_en || s.cal.scrubFull.isSome) then s
  else if !s.scrubServed k then s.scrubLeave k
  else if !s.mayMove 30 ((s.scrubRegion k).1 + s.cal.scrub[k]) 64 then s
  else
    let line := (s.scrubRegion k).1 + s.cal.scrub[k]
    let found := fun (a : State) => a.setCal { a.cal with scrubFull := a.cal.scrubFull.map fun x => (x.1, x.2 + 1) }
    if h : k.val = 0 then
      let s1 := if sram = 2 then
          found ((((s.wn64 CAL_SCRUB_UE_ADDR_LO line).count CAL_SCRUB_UE_CNT).put CAL_STATUS_scrub_ue 1).ev 429)
        else if sram = 1 then (s.count CAL_SCRUB_CE_CNT).ev 428
        else s
      s1.scrubNext k
    else
      let c : Fin 4 := ⟨k.val - 1, by omega⟩
      let l := s.lineRead c line err
      let s1 := s.correctAll c line 30 2 (corrections l)
      if uncorrectables l ≠ 0 then (found (s1.freeze c line 30 2 (uncorrectables l) (decide (corrections l ≠ [])))).scrubNext k
      else if corrections l = [] then s1.scrubNext k
      else
        ((s1.setLine line (s.readData line err l)).setDmc c { s1.dmc[c] with
          patterned := s1.dmc[c].patterned.filter fun y => decide (y.1 ≠ line) }).scrubNext k

/-- SCRUB_FULL is accepted: one pass over SRAM and the channels in READY (R474). -/
def State.scrubFull (s : State) : State :=
  let mask := ((List.finRange 5).map fun (k : Fin 5) => if s.scrubServed k then 2 ^ k.val else 0).sum
  (s.setCal { s.cal with scrub := Vector.replicate 5 0, scrubFull := some (mask, 0) }).smeRequest 10 0

/-! ## Commit points and faults of the SME (R477, R478, R482) -/

/-- The lease of the running calibration run or in-service slice is lost (R463, R471). -/
def State.leaseLost (s : State) (j : SmeJob) : Bool :=
  (decide (j.routine = 8) && !s.idleWindow j.unit) ||
  (decide (j.routine = 9) && match s.cal.ist with
    | some (t, u) => decide (u = j.unit) && !s.istEligible t u
    | none => false)

/-- A commit point, `clocks` SME clocks after the one before (R477, R478, Table 16.13). -/
def State.smeCommitPoint (s : State) (clocks : Nat) : State :=
  match s.sme.run with
  | none => s
  | some j =>
    if smeAtomic j.routine then s
    else
      let s1 := s.put SME_COMMIT_MAX_clocks (min 0xFFFF (max (s.get SME_COMMIT_MAX_clocks) clocks))
      if s.leaseLost j then
        if j.routine = 8 then s1.calAbandon j.unit else s1.istSliceDone 2
      else
        match firstJob s.sme.reqs with
        | none => s1
        | some r =>
          if (smePrio j.routine < smePrio r.routine ∨ smeAtomic r.routine) ∧ s.sme.susp.length < 8 then
            (((s1.setSme { s1.sme with
              run := some r, reqs := s1.sme.reqs.erase r, susp := j :: s1.sme.susp }).count SME_SUSPEND_CNT).ev 435).showSme
          else s1

/-- The long operation or run that a faulting routine carries ends as failed (R482). -/
def State.smeFailed (s : State) (j : SmeJob) : State :=
  if j.routine = 8 then (if s.cal.run = some j.unit then (s.calFail j.unit).calOver j.unit 0 else s.smeDone 8 j.unit)
  else if j.routine = 9 then s.istSliceDone 1
  else if h : j.routine = 6 ∧ j.unit < 4 then (s.ddrTrainDone ⟨j.unit, h.2⟩ 4 0xFF).smeDone 6 j.unit
  else if h : j.routine = 7 ∧ j.unit < 4 then
    let c : Fin 4 := ⟨j.unit, h.2⟩
    let s1 := s.setDmc c { s.dmc[c] with round := false }
    if s.cal.run = some (72 + j.unit) then (s1.calFail (72 + j.unit)).calOver (72 + j.unit) 0 else s1.smeDone 7 j.unit
  else if j.routine = 10 then
    -- the failure result of SCRUB_FULL is not given: the lines found, at least 1 (log entry 24)
    match s.cal.scrubFull with
    | some (_, n) => ((s.setCal { s.cal with scrubFull := none }).smeRoutineEnd).longOutcome 0x14 (max 1 n) []
    | none => s.smeRoutineEnd
  else s.smeRoutineEnd

/-- An SME fault (R482): the running routine ends as failed, or starts again if it is atomic; a parity error of the patch
RAM disables the match registers. -/
def State.smeFault (s : State) (patchRam : Bool) : State :=
  let s1 := (s.count SME_FAULT_CNT).ev 432
  let s2 := if patchRam then (List.range 32).foldl (fun (a : State) i => a.put (SME_MATCH_en i) 0) s1 else s1
  match s.sme.run with
  | none => s2
  | some j => if smeAtomic j.routine then s2 else s2.smeFailed j

end Sys2Proof.Machine
end

