-- ==== Sys2Proof/Machine/Slk.lean ====
section
/-! DEFINITION. The site link (chapter 10): the ring, its frames, votes and verdicts, and the Trailhead distribution. -/

namespace Sys2Proof.Machine

def State.setSlk (s : State) (x : SlkH) : State := { s with slk := x }

/-- members, 1 to 32 (Table 10.4). -/
def State.slkMembers (s : State) : Nat :=
  let m := s.get SLK_CTL_members
  if 1 ≤ m ∧ m ≤ 32 then m else 1

def State.slkPos (s : State) : Nat := s.get SLK_CTL_position

/-! ## Frames (R315, R316, Table 10.2) -/

/-- One byte of the CRC-16 of R315: polynomial 0x1021, most significant bit first. -/
def crc16Byte (c : Nat) (b : Byte) : Nat :=
  (List.range 8).foldl (fun (x : Nat) _ => if bit x 15 then (2 * x % 65536) ^^^ 0x1021 else 2 * x % 65536)
    (c ^^^ (b.toNat * 256))

/-- The CRC-16 of R315 with its initial value 0xFFFF. -/
def crc16 (l : List Byte) : Nat := l.foldl crc16Byte 0xFFFF

/-- A body with its CRC. -/
def withCrc (l : List Byte) : List Byte := l ++ beBytes (crc16 l) 2

/-- Byte `i` of a body. -/
def byteAt (l : List Byte) (i : Nat) : Nat := (l.getD i 0).toNat

/-- The length of a body with its CRC, by type (Table 10.2). -/
def frameLength : Nat → Nat
  | 1 => 8 | 2 => 10 | 3 => 17 | 4 => 6 | 5 => 7 | _ => 0

/-- The time that a body with its CRC and its two delimiters takes on the line, 8 ns a character (R310). -/
def frameTime (body : List Byte) : Nat := (body.length + 2) * 8 * tuPerNs

/-- A frame of this device starts at `t` or as soon as the line is free. -/
def State.slkStart (s : State) (t : Nat) (body : List Byte) : State :=
  let at_ := max t s.slk.lineFree
  { (s.setSlk { s.slk with
      lineFree := at_ + frameTime body, recent := s.slk.recent ++ [at_]
      annAt := if byteAt body 0 = 2 then at_ else s.slk.annAt }) with
    siteOut := s.siteOut ++ [(body, false)] }

/-- The own frames that wait start one after the other, as long as the line is free by now (R316). -/
def State.slkDrainN : Nat → State → State
  | 0, s => s
  | n + 1, s =>
    match s.slk.own with
    | [] => s
    | x :: l => if s.tmb.running && decide (s.tmb.clk < s.slk.lineFree) then s
        else State.slkDrainN n ((s.setSlk { s.slk with own := l }).slkStart x.1 x.2)

def State.slkDrain (s : State) : State := State.slkDrainN s.slk.own.length s

/-- A VOTE or an ABANDON, which go before other own frames (R316). -/
def urgent (body : List Byte) : Bool := decide (byteAt body 0 = 1) || decide (byteAt body 0 = 5)

/-- Send a frame of this device: at once, or when the frames on the line and before it have gone (R316). -/
def State.slkOwn (s : State) (typ : Nat) (rest : List Byte) : State :=
  let body := withCrc (leBytes typ 1 ++ leBytes s.slkPos 1 ++ leBytes 0 1 ++ rest)
  let x := (s.tmb.clk, body)
  let own := if urgent body then s.slk.own.filter (fun y => urgent y.2) ++ [x] ++ s.slk.own.filter (fun y => !urgent y.2)
    else s.slk.own ++ [x]
  (s.setSlk { s.slk with own := own }).slkDrain

/-- A frame that has just ended is forwarded cut-through: before every own frame that had not started when its start arrived (R315, R316);
`err`: the copy ends in an error end. -/
def State.slkForward (s : State) (body : List Byte) (err : Bool) : State :=
  let start := s.tmb.clk - frameTime body
  let late := if s.tmb.running then s.slk.recent.filter fun t => decide (start < t) else []
  let k := s.siteOut.length - late.length
  { (s.setSlk { s.slk with
      lineFree := max (s.slk.lineFree + frameTime body) s.tmb.clk
      recent := late.map fun t => max t s.tmb.clk }) with
    siteOut := s.siteOut.take k ++ [(body, err)] ++ s.siteOut.drop k }

/-- A frame as it is forwarded: one link more (Table 10.2). -/
def forwarded (l : List Byte) : List Byte :=
  withCrc ((l.take 2 ++ [BitVec.ofNat 8 (byteAt l 2 + 1)] ++ l.drop 3).dropLast.dropLast)

/-! ## Verdicts (R319, R320) -/

/-- A verdict enters X9 of every port that listens to its site; a full X9, of 16 entries, takes none (R320, Table 1.2). -/
def State.slkDeliver (s : State) (site : Nat) (fail : Bool) : State :=
  (List.finRange 8).foldl (fun (a : State) (p : Fin 8) =>
    if a.on (SLK_PORT_CFG_listen_en p) ∧ a.get (SLK_PORT_CFG_listen_site p) = site then
      if 16 ≤ a.port[p].x9.length then (a.count SLK_DELIV_DROP).ev 503
      else a.setPort p { a.port[p] with x9 := a.port[p].x9 ++ [(site, fail)] }
    else a) s

/-- The verdicts that one event of the site link forms reach X9 in one TB cycle, and leave it after that (DESIGN CHOICE, log entry 25). -/
def State.x9All (s : State) : State := (List.finRange 8).foldl (fun (a : State) (p : Fin 8) => a.x9Go p) s

/-- A round forms its verdict: it is closed, recorded and delivered; causes 1 to 4 are counted and raise source 499. -/
def State.slkForm (s : State) (site round : Nat) (fail : Bool) (cause : Nat) : State :=
  let k := s.slk
  let s1 := s.setSlk { k with
    rounds := k.rounds.filter fun r => !(decide (r.site = site) && decide (r.round = round))
    closed := k.closed ++ [(site, round)] }
  let s2 := s1.wn SLK_LAST_VERDICT (site % 256 + 256 * (round % 256) + (if fail then 0x10000 else 0) + 0x20000 * (cause % 8))
  let s3 := if cause = 0 then s2 else (s2.count SLK_TMO_CNT).ev 499
  s3.slkDeliver site fail

/-- Form every round of a list as fail. -/
def State.slkFormAll (s : State) (l : List SlkRound) (cause : Nat) : State :=
  l.foldl (fun (a : State) (r : SlkRound) => a.slkForm r.site r.round true cause) s

/-- Judge a round after a vote (R319): complete, or in need of a remote vote while the device is not UP. -/
def State.slkJudge (s : State) (r : SlkRound) : State :=
  if r.votes &&& r.mask = r.mask then s.slkForm r.site r.round r.fail 0
  else if s.get SLK_STATUS_state ≠ 3 ∧ (r.mask &&& (r.votes ||| 2 ^ s.slkPos)) ≠ r.mask then
    s.slkForm r.site r.round true 2
  else s

/-- The device holds a vote of position `pos` for a round (R319). -/
def State.slkHold (s : State) (site round pos : Nat) (fail : Bool) : State :=
  let k := s.slk
  match k.rounds.find? fun r => decide (r.site = site) && decide (r.round = round) with
  | some r =>
    if !bit r.mask pos then s.count SLK_LATE
    else
      let r1 := { r with votes := r.votes ||| 2 ^ pos, fail := r.fail || fail }
      (s.setSlk { k with rounds := k.rounds.map fun x => if x = r then r1 else x }).slkJudge r1
  | none =>
    let mask := s.rn (SLK_SITE_MASK site)
    if k.closed.contains (site, round) ∨ !bit mask pos then s.count SLK_LATE
    else
      let s1 := if 64 ≤ k.rounds.length then s.slkFormAll (k.rounds.take 1) 3 else s
      let r : SlkRound := {
        site := site, round := round, openAt := s.tmb.clk, mask := mask, votes := 2 ^ pos, fail := fail }
      (s1.setSlk { s1.slk with rounds := s1.slk.rounds ++ [r] }).slkJudge r

/-! ## The ring (R311 to R314) -/

/-- Leaving UP (R314, R319): counted, and every open round forms as fail; own frames not yet started are dropped (Table 10.1). -/
def State.slkLeaveUp (s : State) : State :=
  let s1 := ((((s.setSlk { s.slk with own := [] }).count SLK_BREAK_CNT).put SLK_STATUS_broken_seen 1).ev 497)
  s1.slkFormAll s1.slk.rounds 2

/-- Enter FORM with a new tag (R312). -/
def State.slkEnterForm (s : State) : State :=
  let (v, s1) := s.draw
  (s1.put SLK_STATUS_state 2).setSlk { s1.slk with tag := v.toNat % 65536, seen := 0, ownBack := false, own := [] }

/-- Enter FAULT (R313). -/
def State.slkFault (s : State) (code : Nat) : State :=
  let up := decide (s.get SLK_STATUS_state = 3)
  let s1 := (((s.setSlk { s.slk with own := [] }).put SLK_STATUS_state 4).put SLK_STATUS_fault_code code).ev 498
  if up then s1.slkLeaveUp else s1

/-- A write of SLK_CTL.en = 1. -/
def State.slkEnable (s : State) : State :=
  let s1 := s.put SLK_CTL_en 1
  if s.get SLK_STATUS_state = 0 then s1.put SLK_STATUS_state 1 else s1

/-- A write of SLK_CTL.en = 0. -/
def State.slkDisable (s : State) : State :=
  let up := decide (s.get SLK_STATUS_state = 3)
  let s1 := ((((s.put SLK_CTL_en 0).put SLK_STATUS_state 0).put SLK_STATUS_fault_code 0).put SLK_STATUS_aligned 0)
  let s2 := s1.setSlk { s1.slk with breakDue := false, own := [] }
  if up then s2.slkLeaveUp else s2

/-- The input is declared aligned (R311, R314). -/
def State.slkAligned (s : State) : State :=
  let st := s.get SLK_STATUS_state
  if st = 0 then s
  else
    let s1 := s.put SLK_STATUS_aligned 1
    if st ≠ 1 then s1
    else
      let s2 := s1.slkEnterForm
      if s2.slk.breakDue then (s2.setSlk { s2.slk with breakDue := false }).slkOwn 4 [0] else s2

/-- The input is declared lost (R311, R314). -/
def State.slkInputLost (s : State) : State :=
  let s1 := s.put SLK_STATUS_aligned 0
  match s.get SLK_STATUS_state with
  | 2 => (s1.setSlk { s1.slk with own := [] }).put SLK_STATUS_state 1
  | 3 => ((s1.put SLK_STATUS_state 1).setSlk { s1.slk with breakDue := true }).slkLeaveUp
  | _ => s1

/-- The ANNOUNCE interval expires (R312): the device sends its own. -/
def State.slkAnnounceTimer (s : State) : State :=
  let st := s.get SLK_STATUS_state
  if st = 2 ∨ st = 3 then
    s.slkOwn 2
      (leBytes s.slkMembers 1 ++ beBytes (s.get SLK_RING_ID_id) 2 ++ beBytes s.slk.tag 2)
  else s

/-- Formation completes (R312). -/
def State.slkFormed (s : State) : State :=
  let m := s.slkMembers
  let k := s.slk
  if s.get SLK_STATUS_state = 2 ∧ k.ownBack ∧ (k.seen ||| 2 ^ s.slkPos) % 2 ^ m = 2 ^ m - 1 then
    (((s.put SLK_STATUS_state 3).put SLK_STATUS_up_seen 1).wn SLK_RTT k.rtt).ev 496
  else s

/-- The fault code that a frame gives (R313); none where it matches. -/
def State.slkMismatch (s : State) (l : List Byte) : Option Nat :=
  let ann := decide (byteAt l 0 = 2)
  if ann ∧ byteAt l 4 * 256 + byteAt l 5 ≠ s.get SLK_RING_ID_id then some 1
  else if ann ∧ byteAt l 3 % 64 ≠ s.slkMembers then some 2
  else if s.slkMembers ≤ byteAt l 1 % 32 then some 3
  else if ann ∧ byteAt l 1 % 32 = s.slkPos ∧ byteAt l 6 * 256 + byteAt l 7 ≠ s.slk.tag then some 4
  else none

/-! ## What a frame does -/

/-- An ANNOUNCE (R312). -/
def State.slkAnnounce (s : State) (l : List Byte) : State :=
  let o := byteAt l 1 % 32
  let k := s.slk
  let s1 := if o = s.slkPos then
      s.setSlk { k with ownBack := true, rtt := min ((s.tmb.clk - k.annAt) / tuPerNs) 0xFFFFFFFF }
    else s.setSlk { k with seen := k.seen ||| 2 ^ o }
  s1.slkFormed

/-- An ABANDON (R319): the round forms as fail with cause 4, held or not, unless it has formed already. -/
def State.slkAbandon (s : State) (l : List Byte) : State :=
  let site := byteAt l 3
  let round := byteAt l 4
  if s.slk.closed.contains (site, round) then s else s.slkForm site round true 4

/-- A BREAK (R314). -/
def State.slkBreak (s : State) : State :=
  if s.get SLK_STATUS_state = 3 then (s.slkLeaveUp).slkEnterForm else s

/-- The frame goes on to the next device (R316). -/
def State.slkForwards (s : State) (l : List Byte) : Bool :=
  let o := byteAt l 1 % 32
  let m := s.slkMembers
  if byteAt l 0 = 1 ∨ byteAt l 0 = 5 then decide (s.slkPos ≠ (o + m - 1) % m) else decide (s.slkPos ≠ o)

/-! ## Local votes and timers -/

/-- The local members of a site as a mask of ports (R318). -/
def State.slkMembersOf (s : State) (site : Nat) : Nat :=
  ((List.range 8).map fun p =>
    let mode := s.get (SLK_PORT_CFG_vote_mode p)
    if s.cs.pinCount p ≠ 0 ∧ s.cs.site.getD p 0 = site ∧ (mode = 1 ∨ mode = 2) then 2 ^ p else 0).sum

/-- The oldest vote of a port reaches the site link (R318); when every local member has voted, the own vote is formed, sent
in UP, and counts at once. -/
def State.slkLocalVote (s : State) : State :=
  match s.voteQ with
  | [] => s
  | (p, round, fail) :: rest =>
    let s0 := { s with voteQ := rest }
    let site := s.cs.site.getD p 0
    let k := s0.slk
    let mine := fun (x : SlkLocal) => decide (x.site = site) && decide (x.round = round)
    let old := (k.locals.find? mine).getD { site := site, round := round, ports := 0, fail := false }
    let new := { old with ports := old.ports ||| 2 ^ p, fail := old.fail || fail }
    let others := k.locals.filter fun x => !mine x
    let all := s.slkMembersOf site
    if new.ports &&& all ≠ all then s0.setSlk { k with locals := others ++ [new] }
    else
      let s1 := s0.setSlk { k with locals := others }
      let s2 := if s.get SLK_STATUS_state = 3 then
          s1.slkOwn 1 (leBytes site 1 ++ leBytes round 1 ++ leBytes (if new.fail then 1 else 0) 1)
        else s1
      s2.slkHold site round s.slkPos new.fail

/-- SLK_VERDICT_TMO in units of 1/8192 ps; 0 acts as 1 µs (Table 10.6). -/
def State.slkTmo (s : State) : Nat := max 1 (s.get SLK_VERDICT_TMO_us) * 1000 * tuPerNs

/-- An open round reaches its time-out (R319): fail with cause 1, and an ABANDON. -/
def State.slkRoundTimeout (s : State) (site round : Nat) : State :=
  match s.slk.rounds.find? fun r => decide (r.site = site) && decide (r.round = round) with
  | none => s
  | some r =>
    let s1 := (s.advanceTo (r.openAt + s.slkTmo)).slkForm site round true 1
    if s.get SLK_STATUS_state = 3 then s1.slkOwn 5 (leBytes site 1 ++ leBytes round 1) else s1

/-- A closed mark expires (R319). -/
def State.slkClosedExpiry (s : State) (site round : Nat) : State :=
  s.setSlk { s.slk with closed := s.slk.closed.erase (site, round) }

/-- A write of SLK_TH_CTL.send = 1 (R321). -/
def State.slkThSend (s : State) : State :=
  if s.get SLK_STATUS_state = 3 ∧ !s.on SLK_TH_CTL_busy then
    (s.put SLK_TH_CTL_busy 1).slkOwn 3
      (leBytes (s.get SLK_TH_CTL_site) 1 ++ leBytes (s.get SLK_TH_CTL_arm) 1 ++ beBytes (s.rn64 SLK_TH_TS_LO) 8 ++
        beBytes (s.get SLK_TH_EP_epoch) 2)
  else s

/-- The TRAILHEAD frame has not returned in 100 µs (R321). -/
def State.slkThTimeout (s : State) : State :=
  if s.on SLK_TH_CTL_busy then ((s.put SLK_TH_CTL_busy 0).put SLK_TH_CTL_failed 1).ev 502 else s

end Sys2Proof.Machine
end

