-- ==== Sys2Proof/Machine/Tmb.lean ====
section
/-! DEFINITION. The reference, the TBPLL, the count and the Trailhead of the time base (R222 to R232, R535), and the meanings
of the rows REF_ABSENT to TMB_TRAILHEAD_REACHED. -/

namespace Sys2Proof.Machine

/-! ## LOCK_PULSE and the slew (R224, R227) -/

/-- LOCK_PULSE is released: in OFF, WAIT_REF, ACQUIRE and HOLDOVER, and in each reference cycle for as long as the phase error lasts
(`err`); else it is pulled low (R224). -/
def State.lockPulseReleased (s : State) (err : Bool) : Bool := err || [0, 1, 2, 5].contains (s.get TMB_STATUS_state)

/-- A new target of the time-base offset: it moves there from where it stands, and every port that runs notes where it stood (R227). -/
def State.slewTowards (s : State) (goal : Int) : State :=
  let now := s.slewNow
  { s.noteSlew with tmb := { s.tmb with slewFrom := now, slewTo := goal, slewAt := s.tmb.clk } }

/-- φ reduced modulo the reference period into [−T_ref/2, T_ref/2) (R227). -/
def State.reducePhi (s : State) (phi : Int) : Int :=
  let t : Int := s.refPeriod
  (phi + t / 2) % t - t / 2

/-- Enter HOLDOVER: the control value is frozen and event 484 raised (Table 6.5). -/
def State.enterHoldover (s : State) : State :=
  let s1 := (s.put TMB_STATUS_state 5).ev 484
  { s1 with tmb := { s1.tmb with holdAt := s1.tmb.clk, slewing := false } }

/-- The µs spent in the present HOLDOVER (R229). -/
def State.holdUs (s : State) : Nat := min ((s.tmb.clk - s.tmb.holdAt) / (1000 * tuPerNs)) 0xFFFFFFFF

/-- The reference is declared absent (R223, Table 6.5); a reference that was never selected is not judged (R222). -/
def State.refAbsent (s : State) : State :=
  if !s.on TMB_STATUS_ref_valid ∨ !s.on TMB_STATUS_ref_present then s
  else
    let s1 := ((s.put TMB_STATUS_ref_present 0).count TMB_REF_LOSS_CNT).ev 480
    match s.get TMB_STATUS_state with
    | 2 => s1.put TMB_STATUS_state 1
    | 3 => if s.tmb.running then s1.enterHoldover else s1.put TMB_STATUS_state 1
    | 4 => s1.enterHoldover
    | 6 => (s1.slewTowards s1.slewNow).enterHoldover
    | _ => s1

/-- The reference is declared present (R223, Table 6.5). -/
def State.refPresent (s : State) : State :=
  if !s.on TMB_STATUS_ref_valid ∨ s.on TMB_STATUS_ref_present then s
  else
    let s1 := (s.put TMB_STATUS_ref_present 1).ev 481
    if s.get TMB_STATUS_state = 1 then
      let seed := s.get TMB_TBPLL_SEED_seed
      { (s1.put TMB_STATUS_state 2) with tmb := { s1.tmb with lfsr := if seed = 0 then 1 else seed, lfsrAt := s1.tmb.clk } }
    else s1

/-- The TBPLL's MDLL is within ±500 ppm: its fractional loop closes (Table 6.5). -/
def State.tbpllMdllReady (s : State) : State :=
  if s.get TMB_STATUS_state = 2 then s.put TMB_STATUS_state 3 else s

/-- The TBPLL is declared locked (R225); on the first lock since reset the count starts at 0, epoch 0. -/
def State.tbpllLocked (s : State) : State :=
  if s.get TMB_STATUS_state = 3 then
    let s1 := ((s.put TMB_STATUS_state 4).put TMB_STATUS_locked 1).ev 483
    if s.tmb.running then s1 else { s1 with tmb := { s1.tmb with running := true, count := 0, epoch := 0, clk := 0 } }
  else s

/-- The TBPLL is declared unlocked (R225, R226); from LOCKED it enters HOLDOVER. -/
def State.tbpllUnlocked (s : State) : State :=
  if s.on TMB_STATUS_locked then
    let s1 := (s.put TMB_STATUS_locked 0).ev 482
    if s.get TMB_STATUS_state = 4 then s1.enterHoldover else s1
  else s

/-- The time base STEPs (R228, R229): the count jumps by −φ, every later time stamp carries the step flag, and every start
that is ARMED in mode 1 is cancelled. -/
def State.tmbStep (s0 : State) (phi : Int) : State :=
  let s := s0.keepClock
  let count := ((s.tmb.count : Int) - 125 * phi) % wrapTu
  let s1 := { s with tmb := { s.tmb with count := count.toNat, static := s.tmb.static + phi } }
  ((((s1.put TMB_STATUS_state 3).put TMB_STATUS_step_flag 1).count TMB_STEP_CNT).ev 487).cancelTrailheads

/-- The reference is back after at least 100 µs of HOLDOVER (R227, R228): φ is recorded, and removed by a slew of at most
10 ppm (|φ| ≤ 2 ns) or 100 ppm (policy SLEW), or the count STEPs. `phi0` is in 2⁻¹⁶ ns, `slew` the offset in 2⁻¹⁰ ppm that the loop
moves to. -/
def State.tbpllReturn (s0 : State) (phi0 slew : Int) : State :=
  if s0.get TMB_STATUS_state = 5 ∧ s0.on TMB_STATUS_ref_present then
    let s := s0.advanceTo (s0.tmb.holdAt + 100000 * tuPerNs)
    let phi := s.reducePhi phi0
    let s1 := (s.wn TMB_PHASE_ERR (ofSigned 32 phi)).wn TMB_HOLD_TIME s.holdUs
    let small := decide (phi.natAbs ≤ 131072)
    if !small && s.on TMB_CTL_policy then s1.tmbStep phi
    else
      let m : Int := if small then 10240 else 102400
      let s2 := ((s1.put TMB_STATUS_state 6).slewTowards (clampInt (-m) m slew)).evIf (!small) 485
      { s2 with tmb := { s2.tmb with slewing := true } }
  else s0

/-- The slew has removed φ (R227): LOCKING again. -/
def State.tbpllAligned (s : State) : State :=
  if s.get TMB_STATUS_state = 6 ∧ s.tmb.slewing then
    let s1 := ((s.put TMB_STATUS_state 3).slewTowards 0).evIf
      (decide (131072 < (toSigned 32 (s.rn TMB_PHASE_ERR)).natAbs)) 486
    { s1 with tmb := { s1.tmb with slewing := false } }
  else s

/-- Ten seconds in HOLDOVER (R229). -/
def State.holdoverLong (s : State) : State :=
  if s.get TMB_STATUS_state = 5 then (s.put TMB_STATUS_holdover_long 1).ev 488 else s

/-- The count reaches 2⁴⁸ ns (R230). -/
def State.timestampWrap (s : State) : State :=
  if s.tmb.running then
    let s1 := (s.advance (wrapTu - s.tmb.count)).keepClock
    ({ s1 with tmb := { s1.tmb with count := s1.tmb.count - wrapTu, epoch := (s1.tmb.epoch + 1) % 2 ^ 16 }
               sch := { s1.sch with tickBase := s1.tmb.clk } }).ev 491
  else s

/-- An accepted edge of EPOCH_IN (R231): accepted in LOCKED only; in modes 1 and 2 a zeroing follows. -/
def State.epochIn (s : State) : State :=
  if s.get TMB_STATUS_state = 4 then
    let s1 := s.ev 489
    let mode := s.get TMB_EPOCH_CTL_mode
    if mode = 1 ∨ mode = 2 then { s1 with tmb := { s1.tmb with zeroMode := mode } } else s1
  else s

/-- The reference edge at which an accepted EPOCH_IN zeroes the time base (R231), or the first one after a late recognition
(R232). -/
def State.timeBaseZero (s0 : State) (late : Bool) : State :=
  if s0.tmb.zeroMode = 0 then s0
  else
    let s := s0.keepClock
    let first := decide (s.tmb.zeroMode = 1)
    let epoch := if first then s.get TMB_EPOCH_LOAD_epoch else (s.tmb.epoch + 1) % 2 ^ 16
    let s1 := { s with tmb := { s.tmb with count := 0, epoch := epoch, static := 0, zeroMode := 0 }, sch := { s.sch with tickBase := s.tmb.clk } }
    let s2 := (s1.put TMB_STATUS_step_flag 0)
    let s3 := if first then s2.put TMB_EPOCH_CTL_mode 0 else s2
    let s4 := if late then (s3.put TMB_STATUS_epoch_late 1).ev 490 else s3
    s4.cancelTrailheads

/-- A write of TMB_TRAILHEAD_CTL.arm = 1 (R535): the instant is latched, or arm clears at once if it is past. -/
def State.trailheadArm (s : State) : State :=
  let ts := s.rn64 TMB_TRAILHEAD_LO
  let ep := s.rn TMB_TRAILHEAD_EP
  if s.when_ ts ep = .past then s.put TMB_TRAILHEAD_CTL_arm 0
  else { (s.put TMB_TRAILHEAD_CTL_arm 1) with tmb := { s.tmb with armTs := ts, armEp := ep } }

/-- The armed instant is reached: source 0x0091 pulses and arm clears (R535). -/
def State.trailheadReached (s : State) : State :=
  if s.on TMB_TRAILHEAD_CTL_arm then
    let (s1, reached) := s.advanceToStamp s.tmb.armTs s.tmb.armEp
    if reached then (s1.put TMB_TRAILHEAD_CTL_arm 0).pulse 0x91 else s
  else s

end Sys2Proof.Machine
end

