-- ==== Sys2Proof/Machine/Units.lean ====
section
/-! DEFINITION. Stopping units as a structure load does (R75), and what switching a power domain does to the units in it (R507,
R533, R376, R387). -/

namespace Sys2Proof.Machine

/-! ## Stopping units (R75) -/

/-- Stop a port: at the end of its current vector, or its start is cancelled with cause 6. -/
def State.stopPort (s : State) (p : Fin 8) : State :=
  if s.portRuns p then s.portLeave p 5 6 0 false
  else if s.get (PRT_SEQ_STATUS_state p) = 1 then s.portCancel p 6
  else s

/-- Stop a WFG as on a stop command. -/
def State.stopWfg (s : State) (m : Fin 4) : State :=
  match s.get (WFG_STATUS_state m) with
  | 1 => s.wfgEnd m 5 0 true
  | 2 => s.wfgEnd m 5 0 false
  | _ => s

/-- Stop a port, an engine, a TIM channel or a WFG where `p` holds of its quadrant (R75). -/
def State.stopUnits (s : State) (p : Nat → Bool) : State :=
  let s1 := (List.finRange 8).foldl (fun (a : State) (n : Fin 8) => if p (n / 2) then a.stopPort n else a) s
  let s2 := (List.finRange 8).foldl (fun (a : State) (e : Fin 8) => if p (e / 2) then a.acqEnd e 5 4 1 else a) s1
  let s3 := (List.finRange 32).foldl (fun (a : State) (t : Fin 32) => if p (t / 8) then a.timStop t else a) s2
  (List.finRange 4).foldl (fun (a : State) (m : Fin 4) => if p m then a.stopWfg m else a) s3

/-- A unit of a quadrant domain is still running (R506). -/
def State.domainBusy (s : State) (d : Nat) : Bool :=
  let q := d / 8
  if h : d < 32 then
    if h2 : d % 8 < 2 then s.portActive ⟨2 * (d / 8) + d % 8, by omega⟩
    else if d % 8 < 6 then
      [2 * (d % 8 - 2), 2 * (d % 8 - 2) + 1].any fun k =>
        let o := 8 * q + k
        decide (s.get (TIM_STATUS_state o) = 2) || decide (s.get (TIM_STATUS_state o) = 3) ||
        match s.cs.ownerOf o with
        | none => false
        | some n => s.portActive ⟨n % 8, by omega⟩
    else if d % 8 = 6 then s.acqRuns ⟨2 * (d / 8), by omega⟩ || s.acqRuns ⟨2 * (d / 8) + 1, by omega⟩
    else s.wfgActive ⟨d / 8, by omega⟩
  else if 38 ≤ d ∧ d < 42 then (List.range 4).any fun k => decide (s.get (SCH_CORE_state (4 * (d - 38) + k)) = 1)
  else if d = 43 then s.sec.opening.isSome
  else false

/-- Stop the units of one domain as a structure load does (R508). -/
def State.stopDomain (s : State) (d : Nat) : State :=
  if h : d < 32 then
    if h2 : d % 8 < 2 then s.stopPort ⟨2 * (d / 8) + d % 8, by omega⟩
    else if d % 8 < 6 then
      (List.finRange 32).foldl (fun (a : State) (o : Fin 32) =>
        if unitDomain (16 + o) = some d then
          let b := a.timStop o
          match b.cs.ownerOf o with
          | some n => b.stopPort ⟨n % 8, by omega⟩
          | none => b
        else a) s
    else if d % 8 = 6 then (s.acqEnd ⟨2 * (d / 8), by omega⟩ 5 4 1).acqEnd ⟨2 * (d / 8) + 1, by omega⟩ 5 4 1
    else s.stopWfg ⟨d / 8, by omega⟩
  else s

/-! ## Registers and hidden state of a domain -/

/-- The registers for whose address `p` holds return to their reset values. -/
def State.resetRegs (s : State) (p : Nat → Bool) : State := { s with csr := cellsClear p s.csr }

/-- A port's own state is at reset; a receipt that it owes stays owed (R439). -/
def State.clearPort (s : State) (p : Fin 8) : State :=
  let d := portUnit p
  let s1 := s.discardTxs d fun _ => true
  (s1.setSeq d {}).setPort p { owed := s1.port[p].owed }

/-- A WFG's own state is at reset. -/
def State.clearWfg (s : State) (m : Fin 4) : State :=
  let d := wfgUnit m
  ((s.discardTxs d fun _ => true).setSeq d {}).setWfg m {}

/-- The PLLs of a domain that is off are in OFF (Table 6.4): that of its port, or of its waveform generator. -/
def State.pllOff (s : State) (d : Nat) : State :=
  let off := fun (x : Fin 12) =>
    (((s.put (DPL_STATUS_state x) 0).put (DPL_STATUS_locked x) 0).put (DPL_STATUS_settling x) 0).setDpl x { s.dpl[x] with
      cur := none, relock := false }
  if h : d < 32 then
    if h2 : d % 8 < 2 then off ⟨2 * (d / 8) + d % 8, by omega⟩
    else if d % 8 = 7 then off ⟨8 + d / 8, by omega⟩
    else s
  else s

/-- The units of a quadrant domain are at their reset values (R507). -/
def State.clearDomain (s : State) (d : Nat) : State :=
  let s0 := if d < 32 then s.resetRegs fun a => decide (domainAt a = some d) else s
  if h : d < 32 then
    if h2 : d % 8 < 2 then s0.clearPort ⟨2 * (d / 8) + d % 8, by omega⟩
    else if d % 8 < 6 then
      (List.finRange 32).foldl (fun (a : State) (t : Fin 32) => if unitDomain (16 + t) = some d then a.setTim t {} else a) s0
    else if d % 8 = 6 then (s0.setAcq ⟨2 * (d / 8), by omega⟩ {}).setAcq ⟨2 * (d / 8) + 1, by omega⟩ {}
    else s0.clearWfg ⟨d / 8, by omega⟩
  else s0

/-- Show a domain on and settled, or not (R507). -/
def State.showDomain (s : State) (d : Nat) (on : Bool) : State :=
  let a := if d < 32 then PWR_STATE_LO else PWR_STATE_HI
  if on then s.setBit a (d % 32) else s.clearBit a (d % 32)

/-- Clear every pattern key slot. -/
def State.clearKeys (s : State) : State :=
  ({ s with sec := { s.sec with keys := [] } }.wn SEC_KEYS_LO 0).wn SEC_KEYS_HI 0

/-- An Ethernet port's link is down (R394): no address is valid. -/
def State.linkOff (s : State) (p : Fin 2) : State :=
  let up := s.on (NET_PORT_STATUS_link p)
  let s1 := s.wn (NET_PORT_STATUS p) (s.rn (NET_PORT_STATUS p) / 16 % 2 * 16)
  let s2 := if p = 0 then (s1.put NET_STATUS_a_link 0).put NET_STATUS_a_addr 0
    else (s1.put NET_STATUS_b_link 0).put NET_STATUS_b_addr 0
  let s3 := { s2 with net := { s2.net with port := s2.net.port.set p { s2.net.port[p] with
    lease := none, llOk := false, glOk := false } } }
  s3.evIf up (353 + 2 * p.val)

/-- A domain is no longer on: isolation holds its outputs, and its units lose their state (R507); the near store is retained
as R376 gives, the far store's requests complete first (R387), pattern keys are lost with domain 43 (Table 15.1). -/
def State.domainDown (s : State) (d : Nat) : State :=
  let s0 := if d = 37 then s.linkOff 1 else s
  let s1 := ((s0.showDomain d false).clearDomain d).pllOff d
  if h : 32 ≤ d ∧ d < 36 then s1.dmcDown ⟨d - 32, by omega⟩
  else if d = 36 then s1.cxlOff true
  else if d = 37 then { s1 with net := { s1.net with port := s1.net.port.set 1 {} } }
  else if 38 ≤ d ∧ d < 42 then
    (List.range 4).foldl (fun (a : State) k => a.put (SCH_CORE_state (4 * (d - 38) + k)) 2) s1
  else if d = 42 then s1.zeroMem (bankBase 24) (24 * 0x200000)
  else if d = 43 then s1.clearKeys
  else s1

/-- A TIM channel is OFF without a source or with its domain off, and leaves OFF where a commit or its domain gives it both (R268, Table
8.2). -/
def State.timSettle (s : State) (t : Fin 32) : State :=
  let on := decide (2 ^ 14 ≤ s.cs.timSrc.getD t 0 % 2 ^ 16) && (match unitDomain (16 + t) with | some d => s.domainOn d | none => true)
  if !on then s.put (TIM_STATUS_state t) 0 else if s.get (TIM_STATUS_state t) = 0 then s.put (TIM_STATUS_state t) 1 else s

/-- Every channel settles. -/
def State.timSettleAll (s : State) : State := (List.finRange 32).foldl (fun (a : State) (t : Fin 32) => a.timSettle t) s

/-- A domain is on and settled, its units at their reset values (R507); its calibration units are stale and pending (R461,
R464); the CXL halves train (R385). -/
def State.domainUp (s : State) (d : Nat) : State :=
  let s1 := ((s.showDomain d true).clearDomain d).calPowerUp d
  if d = 36 then (if s1.on CXH_CTL_en then s1.cxlTrain else s1)
  else if 38 ≤ d ∧ d < 42 then
    (List.range 4).foldl (fun (a : State) k => a.put (SCH_CORE_state (4 * (d - 38) + k)) 0) s1
  else s1.timSettleAll

/-- A completed switch is counted and raised (R507, Table 17.11). -/
def State.switched (s : State) : State := (s.count PWR_SWITCH_CNT).ev 504

/-- Fill an SRAM bank with zeros (R78). -/
def State.zeroBank (s : State) (b : Nat) : State := s.zeroMem (bankBase b) 0x200000

end Sys2Proof.Machine
end

