-- ==== Sys2Proof/Machine/NetBase.lean ====
section
/-! DEFINITION. Amiuc from the device's side (chapter 14): sending frames under credit, ending sessions, replies of the
management channel, and the event records. -/

namespace Sys2Proof.Machine

def State.setNet (s : State) (x : NetH) : State := { s with net := x }
def State.setSess (s : State) (k : Fin 8) (x : SessH) : State := { s with net := { s.net with sess := s.net.sess.set k x } }
def State.setChan (s : State) (k : Fin 8) (c : Fin 7) (x : ChanH) : State :=
  s.setSess k { s.net.sess[k] with chans := s.net.sess[k].chans.set c x }

/-- Channel `c` of session `k`. -/
def State.chan (s : State) (k : Fin 8) (c : Fin 7) : ChanH := s.net.sess[k].chans[c]

/-- The state of a session slot (Table 14.6). -/
def State.sessState (s : State) (k : Fin 8) : Nat := s.get (NET_SESS_STATUS_state k)

/-- Session `k` is OPEN. -/
def State.sessOpen (s : State) (k : Fin 8) : Bool := decide (s.sessState k = 2)

/-- Put a session into a state; NET_STATUS.open follows. -/
def State.sessEnter (s : State) (k : Fin 8) (st : Nat) : State :=
  let s1 := s.put (NET_SESS_STATUS_state k) st
  let old := s1.get NET_STATUS_open
  let rest := if bit old k then old - 2 ^ k.val else old
  s1.put NET_STATUS_open (if st = 2 then rest + 2 ^ k.val else rest)

/-- A long operation that session `k` started has no session any more to reply to (R414). -/
def State.longOrphan (s : State) (k : Fin 8) : State :=
  match s.long with
  | some l => if l.sess = k.val then { s with long := some { l with sess := 8 } } else s
  | none => s

/-- A RUCKSACK_OPEN in progress that session `k` asked for has no session any more to reply to. -/
def State.openOrphan (s : State) (k : Fin 8) : State :=
  match s.sec.opening with
  | some o => if o.sess = k.val then { s with sec := { s.sec with opening := some { o with sess := 8 } } } else s
  | none => s

/-- A CSR command that waits for clocks has no session any more to reply to (R215). -/
def State.csrOrphan (s : State) (k : Fin 8) : State :=
  match s.csrWait with
  | some w => if w.sess = k.val then { s with csrWait := some { w with sess := 8 } } else s
  | none => s

/-- The slot is FREE: what the session held is gone. -/
def State.sessFree (s : State) (k : Fin 8) : State := ((((s.sessEnter k 0).setSess k {}).longOrphan k).openOrphan k).csrOrphan k

/-- The session ends (FREE) or is detached, with a status of Table 14.10 (R406, R422). -/
def State.sessEnd (s : State) (k : Fin 8) (st status : Nat) : State :=
  let s1 := ((s.sessEnter k st).put (NET_SESS_STATUS_end k) status).ev 357
  if st = 0 then s1.sessFree k else s1.setSess k { s1.net.sess[k] with offer := none, endAt := s1.tmb.clk }

/-! ## Frames -/

/-- A header (Table 14.2). -/
def amiucHeader (typ flags session channel seq ack sack credit length sid txc : Nat) : List Byte :=
  beBytes 0x414D 2 ++ [1, BitVec.ofNat 8 typ, BitVec.ofNat 8 flags, BitVec.ofNat 8 session, BitVec.ofNat 8 channel, 0] ++
  beBytes seq 4 ++ beBytes ack 4 ++ beBytes sack 4 ++ beBytes credit 2 ++ beBytes length 2 ++ beBytes sid 4 ++ beBytes txc 4

/-- The 802.1Q tag that a port sends with, if it is on (Table 14.15). -/
def State.vlanOf (s : State) (port : Nat) : Option Nat :=
  let cfg := s.net.port[Fin.ofNat 2 port].cfg
  if bit cfg 4 then some (bitsOf cfg 16 12) else none

/-- A frame leaves an Ethernet port. -/
def State.transmit (s : State) (port : Nat) (x : NetOut) : State :=
  (s.setNet { s.net with out := s.net.out ++ [(s.vlanOf port, x)] }).count (NET_TX_OK port)

/-- The device's credit on a channel (Table 14.7). -/
def deviceCredit (c : Nat) : Nat := if c = 0 then 4 else if c < 5 then 32 else 0

/-- The sack word of a channel: bit i, frame ack + 1 + i is held (R409). -/
def ChanH.sack (h : ChanH) : Nat :=
  ((List.range 32).map fun i => if h.held.any fun x => decide (x.seq = (h.rx + 1 + i) % 2 ^ 32) then 2 ^ i else 0).sum

/-- The payload of a frame as it leaves: in an encrypted session its ciphertext and tag (R398, R404). -/
def SessH.seal (q : SessH) (enc : Bool) (txc : Nat) (header payload : List Byte) : List Byte :=
  match q.keys with
  | some x => if enc then gcmSeal x.tx.toNat (frameNonce x.txSalt txc) header payload else payload
  | none => payload

/-- Send one frame of a session with the next txc (R398, R399, R404); channel 0xFF carries no acknowledgement. -/
def State.sendRaw (s : State) (k : Fin 8) (typ channel seq : Nat) (payload : List Byte) : State :=
  let q := s.net.sess[k]
  let enc := s.get (NET_SESS_STATUS_enc k)
  let txc := s.rn (NET_SESS_TXC k)
  let sid := s.rn (NET_SESS_SID k)
  let f := fun (flags ack sack credit : Nat) =>
    let header := amiucHeader typ flags k channel seq ack sack credit payload.length sid txc
    NetOut.amiuc q.peer header (q.seal (decide (enc = 1)) txc header payload)
  let s1 := s.wn (NET_SESS_TXC k) (txc + 1)
  if h : channel < 7 then
    let c : Fin 7 := ⟨channel, h⟩
    let x := q.chans[c]
    let flags := enc + 2 + (if x.held = [] then 0 else 4)
    let s2 := s1.setSess k { q with lastTx := s.tmb.clk, chans := q.chans.set c { x with ackDue := 0 } }
    s2.transmit q.peer.port (f flags x.rx x.sack (deviceCredit c))
  else (s1.setSess k { q with lastTx := s.tmb.clk }).transmit q.peer.port (f enc 0 0 0)

/-- The payload of CLOSE (Table 14.3). -/
def closePayload (status : Nat) : List Byte := beBytes status 2 ++ List.replicate 6 0

/-- The txc has reached 0xFFFF_FF00: CLOSE KEY_EXHAUSTED, and the session is DETACHED (R405). -/
def State.keyExhausted (s : State) (k : Fin 8) : State := (s.sendRaw k 0x13 0xFF 0 (closePayload 16)).sessEnd k 3 16

/-- An encrypted session's frames wait for the crypto engine (R473), or for keys (R446). -/
def State.sessHeld (s : State) (k : Fin 8) : Bool :=
  s.on (NET_SESS_STATUS_enc k) && (s.on CAL_STATUS_crypto_hold || s.net.sess[k].keys.isNone)

/-- Send one frame of an OPEN session. -/
def State.send (s : State) (k : Fin 8) (typ channel seq : Nat) (payload : List Byte) : State :=
  if !s.sessOpen k || s.sessHeld k then s
  else
    let s1 := s.sendRaw k typ channel seq payload
    if s1.rn (NET_SESS_TXC k) = 0xFFFFFF00 then s1.keyExhausted k else s1

/-- The units of a DATA frame (R410). -/
def frameUnits (l : List Byte) : Nat := (l.length + 4095) / 4096

/-- A new frame may be sent on a channel (R410). -/
def State.maySend (s : State) (k : Fin 8) (c : Fin 7) (payload : List Byte) : Bool :=
  let h := s.chan k c
  s.sessOpen k && !s.sessHeld k && decide ((h.unacked.map fun x => frameUnits x.payload).sum + frameUnits payload ≤ h.credit) &&
  decide (h.unacked.length ≤ 255)

/-- Send a new DATA frame on a channel; `hamper`: the slot of the Hamper that ends with it. -/
def State.sendData (s : State) (k : Fin 8) (c : Fin 7) (payload : List Byte) (hamper : Option Nat) : State :=
  let h := s.chan k c
  let x : TxFrame := { seq := h.tx, payload := payload, sentAt := s.tmb.clk, sacked := false, hamper := hamper }
  (s.setChan k c { h with tx := (h.tx + 1) % 2 ^ 32, unacked := h.unacked ++ [x] }).send k 0x10 c h.tx payload

/-- Send what waits for credit on a channel, in order. -/
def State.pump : Nat → State → Fin 8 → Fin 7 → State
  | 0, s, _, _ => s
  | fuel + 1, s, k, c =>
    match (s.chan k c).queue with
    | [] => s
    | x :: l =>
      if s.maySend k c x then State.pump fuel ((s.setChan k c { s.chan k c with queue := l }).sendData k c x none) k c
      else s

/-- Queue a payload on a channel and send what credit allows. -/
def State.enqueue (s : State) (k : Fin 8) (c : Fin 7) (payload : List Byte) : State :=
  let s1 := s.setChan k c { s.chan k c with queue := (s.chan k c).queue ++ [payload] }
  State.pump (s1.chan k c).queue.length s1 k c

/-- A reply of the management channel (R412); it is discarded where its session has ended. -/
def State.reply (s : State) (k : Fin 8) (opcode status tag seq info : Nat) (results : List Byte) : State :=
  if s.sessState k ≠ 0 then
    s.enqueue k 0 (beBytes opcode 2 ++ beBytes status 2 ++ beBytes tag 4 ++ beBytes seq 4 ++ beBytes info 4 ++ results)
  else s

/-! ## Event records (R418) -/

/-- A record for an occurrence: a new one, or one more of a source that is pending. -/
def addRecord (src ep ts : Nat) : List (Nat × Nat × Nat × Nat) → List (Nat × Nat × Nat × Nat)
  | [] => [(src, 1, ep, ts)]
  | (a, n, e, t) :: l =>
    if src < a then (src, 1, ep, ts) :: (a, n, e, t) :: l
    else if src = a then (a, min (n + 1) 0xFFFF, e, t) :: l
    else (a, n, e, t) :: addRecord src ep ts l

/-- An occurrence goes to every OPEN session with evt_en = 1. -/
def State.eventToHost (s : State) (src : Nat) : State :=
  (List.finRange 8).foldl (fun (a : State) (k : Fin 8) =>
    if a.sessOpen k ∧ a.on (NET_SESS_CFG_evt_en k) then
      a.setSess k { a.net.sess[k] with evts := addRecord src a.tmb.epoch a.stamp a.net.sess[k].evts }
    else a) s

end Sys2Proof.Machine
end

