-- ==== Sys2Proof/Machine/Sec.lean ====
section
/-! DEFINITION. The security block (chapter 15): policy, pattern keys, locked regions and Rucksacks, receipts, authentication
failures, tamper responses, and what the security commands do. The request and reply frames are in Net.lean. -/

namespace Sys2Proof.Machine

def State.setSec (s : State) (x : SecH) : State := { s with sec := x }

/-! ## Lifecycle and policy (R427 to R429, R71) -/

/-- The lifecycle code (Table 15.2). -/
def SecH.lifecycle (x : SecH) : Nat := if x.dikOff then 3 else if !x.provisioned then 0 else if x.owner then 2 else 1

/-- The present lifecycle code. -/
def State.lifecycle (s : State) : Nat := s.sec.lifecycle

/-- Show the lifecycle state; a change raises source 394 (R428). -/
def State.showLifecycle (s : State) : State :=
  let old := s.get SEC_STATUS_lifecycle
  (s.put SEC_STATUS_lifecycle s.lifecycle).evIf (decide (old ≠ s.lifecycle)) 394

/-- The stricter of two flag sets (R71): required or forbidden wins, rucksack_allowed counts as stricter when it is 0. -/
def strictFlags (a b : Nat) : Nat := ((a ||| b) &&& 0xB) ||| (a &&& b &&& 4)

/-- The stricter of two sets of tamper classes (R71), field by field. -/
def strictTamper (a b : Nat) : Nat :=
  ((List.range 7).map fun k => max (bitsOf a (2 * k) 2) (bitsOf b (2 * k) 2) * 2 ^ (2 * k)).sum

/-- Show the effective policy in SEC_POLICY (R71, R429). -/
def State.showPolicy (s : State) : State :=
  (s.put SEC_POLICY_flags (strictFlags (strictFlags s.sec.polFlags s.cs.floorFlags) s.sec.raiseFlags)).put
    SEC_POLICY_tamper_floor (strictTamper (strictTamper s.sec.polTamper s.cs.floorTamper) s.sec.raiseTamper)

/-- A write of SEC_POLICY raises fields, or is ignored for them (R429). -/
def State.policyWrite (s : State) (v : Nat) : State :=
  (s.setSec { s.sec with
    raiseFlags := strictFlags s.sec.raiseFlags (bitsOf v 0 4)
    raiseTamper := strictTamper s.sec.raiseTamper (bitsOf v 16 14) }).showPolicy

/-- The class of a sensor in force (R444): in MANUFACTURE and PROVISIONED, SCORCH acts as ERASE. -/
def State.sensorClass (s : State) (k : Nat) : Nat :=
  let c := bitsOf (s.get SEC_POLICY_tamper_floor) (2 * k) 2
  if c = 3 ∧ s.lifecycle < 2 then 2 else c

/-! ## Keys and regions (R435, R437, R446) -/

/-- Put a key into a slot (`some`) or zero the slot. -/
def State.setKey (s : State) (slot : Nat) (key : Option (BitVec 256)) : State :=
  let rest := s.sec.keys.filter fun x => decide (x.1 ≠ slot)
  let a := if slot < 32 then SEC_KEYS_LO else SEC_KEYS_HI
  match key with
  | some k => (s.setSec { s.sec with keys := (slot, k) :: rest }).setBit a (slot % 32)
  | none => (s.setSec { s.sec with keys := rest }).clearBit a (slot % 32)

/-- A port that is ARMED, RUNNING or in HOLD names the slot (R435). -/
def State.slotBusy (s : State) (slot : Nat) : Bool :=
  (List.finRange 8).any fun (p : Fin 8) => s.portActive p && decide (s.get (PRT_STRM_KEY_slot p) = slot)

/-- The zeroing of a port's locked region starts (R437); `used`: its last use was counted (R439). -/
def State.closeRegion (s : State) (p : Nat) (used : Bool) : State :=
  if s.on (SEC_RK_REGION_locked p) ∧ !(s.sec.closing.any fun x => decide (x.1 = p)) then
    s.setSec { s.sec with closing := s.sec.closing ++ [(p, used)] }
  else s

/-- The zeroing of every locked region starts. -/
def State.closeRegions (s : State) : State := (List.range 8).foldl (fun (a : State) p => a.closeRegion p false) s

/-- Put bytes into a region of a port's tier-0 window, unit by unit of 64 KiB, the rest of the region zero. -/
def State.fillRegion (s : State) (p base : Nat) (l : List Byte) : Nat → State
  | 0 => s
  | n + 1 =>
    let s1 := s.fillRegion p base l n
    match s.cs.sramAddr p (0x10000 * (base + n)) with
    | some a => (s1.zeroMem a 0x10000).setBytes a ((l.drop (0x10000 * n)).take 0x10000)
    | none => s1

/-- The zeroing of a locked region completes: the region is unlocked (R437). -/
def State.regionZeroed (s : State) (p : Nat) : State :=
  match s.sec.closing.find? fun x => decide (x.1 = p) with
  | none => s
  | some (_, used) =>
    let s1 := s.fillRegion p (s.get (SEC_RK_REGION_base p)) [] (s.get (SEC_RK_REGION_size p))
    let s2 := ((s1.wn (SEC_RK_REGION p) 0).wn (SEC_RK_ID p) 0).wn (SEC_RK_LEFT p) 0
    (s2.setSec { s2.sec with closing := s2.sec.closing.filter fun x => decide (x.1 ≠ p) }).evIf used 399

/-- A session without its keys. -/
def SessH.clearKeys (q : SessH) : SessH :=
  { q with keys := none, offer := q.offer.map fun (o : Offer) => { o with keys := none } }

/-- The use table is erased with the ORK, the receipts are discarded, pattern keys, session keys and regions go (R446). An encrypted
session without its keys verifies and sends no frame until a resume derives new ones (log entry 7). -/
def State.zeroKeyStore (s : State) : State :=
  let s1 := s.setSec { s.sec with owner := false, ork := 0, oak := [], polFlags := 0, polTamper := 0, credFloor := 0 }
  let s2 := ({ s1 with useTab := [], receipts := [] }.wn SEC_RCPT 0).clearKeys
  let s3 := { s2 with net := { s2.net with sess := s2.net.sess.map SessH.clearKeys } }
  s3.closeRegions.showPolicy

/-! ## Receipts (R439) -/

/-- The bytes of a receipt (Table 15.9); the signature is the DIK's. -/
def State.receiptBytes (s : State) (p : Fin 8) (u : RunUse) : List Byte :=
  let serial := s.rn64 SEC_SERIAL_LO
  let body := beBytes 0x5243 2 ++ [1, BitVec.ofNat 8 u.result] ++ beBytes u.id 4 ++ beBytes u.use 4 ++ beBytes u.limit 4 ++
    beBytes serial 8 ++ beBytes (s.get SEC_STATUS_epoch) 2 ++ beBytes p 1 ++ beBytes (s.cs.site.getD p 0) 1 ++
    beBytes u.epStart 2 ++ [0, 0] ++ beBytes u.tsStart 8 ++ beBytes u.tsEnd 8 ++ beBytes u.vectors 8
  body ++ s.dikSign body

/-- A port's receipt joins the queue; an exhausted region is zeroed (R439). -/
def State.receiptQueued (s : State) (p : Fin 8) : State :=
  match s.port[p].owed with
  | none => s
  | some u =>
    let l := s.receipts ++ [s.receiptBytes p u]
    let s1 := ({ s.setPort p { s.port[p] with owed := none } with receipts := l }).put SEC_RCPT_queued l.length
    if u.use = u.limit then s1.closeRegion p true else s1

/-! ## Load abort, and the responses of the sensors (R79, R444 to R449) -/

/-- A STRUCT_LOAD ends before its commit with a result code: nothing has changed, and domains switched on for it go off again; a
switch that a write of PWR_DOMAIN began goes on. -/
def State.endLoad (s : State) (l : LoadH) (code : Nat) : State :=
  let s1 := (((s.put STC_LOAD_RESULT_code code).put STC_LOAD_RESULT_section 0xFF).put STC_LOAD_RESULT_offset 0).put
    STC_STATUS_state l.before
  let old := s1.destLevels
  let s2 := { s1 with load := none, lineHold := none }
  let back := l.ups.filter fun d => s2.domainOn d && !bit s2.cs.power d
  let s3 := back.foldl (fun (a : State) d => (a.domainDown d).switched) s2
  let sw := s3.pwr.sw.filter fun y => !(y.2 && l.ups.contains y.1)
  let s4 := { s3 with pwr := { s3.pwr with sw := sw } }.put PWR_STATUS_busy (if sw = [] then 0 else 1)
  ((s4.settleDests old).smeDone 5 0).longOutcome 0x10 code []

/-- A SEAL-class response before the commit ends a load with ABORTED (R79). -/
def State.abortLoad (s : State) : State :=
  match s.load with
  | none => s
  | some l => if 5 ≤ l.stage then s else (s.endLoad l 14).ev 447

/-- The reply to a security command (R453): the status that its result code gives, with the code in info and in
SEC_LAST_RESULT. -/
def State.secReply (s : State) (k : Fin 8) (opcode tag seq code : Nat) (results : List Byte) : State :=
  let status := if code = 0 then 0 else if code = 7 then 5 else if code = 12 then 8 else 7
  ((s.put SEC_LAST_RESULT_code code).put SEC_LAST_RESULT_opcode opcode).reply k opcode status tag seq code results

/-- The reply to a RUCKSACK_OPEN, where its session has not ended. -/
def State.openReply (s : State) (o : RkOpen) (code : Nat) (results : List Byte) : State :=
  if h : o.sess < 8 then s.secReply ⟨o.sess, h⟩ 0x34 o.tag o.seq code results
  else (s.put SEC_LAST_RESULT_code code).put SEC_LAST_RESULT_opcode 0x34

/-- An open in progress ends without locking anything: its region is zeroed (R436, R447). -/
def State.endOpen (s : State) (code : Nat) : State :=
  match s.sec.opening with
  | none => s
  | some o =>
    let s1 := (s.setSec { s.sec with opening := none }).fillRegion o.port o.base [] o.size
    s1.openReply o code []

/-- Every port in a secret entry stops: ABORTED with cause 4, source 401 (Table 15.12). -/
def State.stopSecrets (s : State) : State :=
  (List.finRange 8).foldl (fun (a : State) (p : Fin 8) =>
    if a.portRuns p && a.seq[portUnit p].e.secret then (a.portLeave p 6 4 0 false).ev 401 else a) s

/-- The SEAL response (Table 15.12). -/
def State.seal (s : State) : State := (((s.stopSecrets.endOpen 3).abortLoad).put SEC_STATUS_sealed 1).ev 391

/-- End every session with a status (Table 15.12). -/
def State.endSessions (s : State) (status : Nat) : State :=
  (List.finRange 8).foldl (fun (a : State) (k : Fin 8) => if a.sessState k = 0 then a else a.sessEnd k 0 status) s

/-- An ENROL that has its outcome ends with ABORTED instead (R432). -/
def State.abortEnrol (s : State) : State :=
  match s.long with
  | some l => if l.opcode = 0x15 ∧ l.outcome.isSome then { s with long := some { l with outcome := some (17, []) } } else s
  | none => s

/-- The ERASE response beyond SEAL (Table 15.12). -/
def State.eraseResponse (s : State) : State :=
  let s1 := ((s.abortEnrol.zeroKeyStore).endSessions 20).put SEC_STATUS_erased_seen 1
  (s1.setSec { s1.sec with resetDue := true }).showLifecycle.ev 393

/-- The DIK-disable fuse is blown: SCORCHED (Tables 15.3, 15.12). -/
def State.scorch (s : State) : State := (s.setSec { s.sec with dikOff := true, scorchPending := false }).showLifecycle

/-- A firing is logged: an entry of the ring of 32, SEC_TAMPER.seen and its source (R444, R449). -/
def State.logTamper (s : State) (k : Nat) (off : Bool) (aon : Nat) : State :=
  let x : TamperEntry := {
    sensor := k, cls := s.sensorClass k, flags := if off then 1 else 0, aon := aon % 2 ^ 32, ts := if off then 0 else s.stamp }
  let s1 := (s.setSec { s.sec with tlog := (x :: s.sec.tlog).take 32 }).count SEC_TLOG_CNT
  (s1.put SEC_TAMPER_seen (s1.get SEC_TAMPER_seen ||| 2 ^ k)).ev (384 + k)

/-- Sensors fire in one cycle (R444, R447): those in `new` are logged, and the highest of their classes applies once. -/
def State.fireSensors (s : State) (l new : List Nat) (off : Bool) (aon : Nat) : State :=
  let cls := l.foldl (fun (m : Nat) k => max m (s.sensorClass k)) 0
  let s1 := new.foldl (fun (a : State) k => a.logTamper k off aon) s
  if cls = 0 ∨ (cls = 1 ∧ s.on SEC_STATUS_sealed) then s1
  else
    let s2 := s1.seal
    if cls = 1 then s2
    else
      let s3 := s2.eraseResponse
      if cls = 2 then s3
      else if off then s3.setSec { s3.sec with scorchPending := true }
      else s3.scorch

/-- What the sensors see, as a mask of sensors: bit 7 is the window of REF_IN, which sensor 1 judges while a frequency is selected and
the reference is not declared absent (R222, Table 15.11); bit 1 is that of the other clocks. With main power off the sensors of VBAT
alone run: 2, 3 and 6; sensor 0 is armed only while power-good is declared (R519). -/
def State.sensed (s : State) (v : BitVec 8) (off : Bool) (k : Nat) : Bool :=
  decide (k ≠ 4) && decide (k ≠ 5) && (decide (k ≠ 0) || decide (s.boot.stage ≠ 5)) && (!off || decide (k = 2) || decide (k = 3) || decide (k = 6)) &&
  (v.getLsbD k || (decide (k = 1) && v.getLsbD 7 && s.on TMB_STATUS_ref_valid && s.on TMB_STATUS_ref_present))

/-- Sensor `k` is armed: sensor 2 only after 1 s inside its limits (R448). -/
def State.sensorArmed (s : State) (k aon : Nat) : Bool :=
  match s.sec.coolAt with
  | some t => decide (k ≠ 2) || decide (t + 32768 ≤ aon)
  | none => true

/-- TAMPER_FIRE: what the sensors fire on, what is present now, whether main power is off, and the AON count (R441, R448, R449). A sensor
that fires on a condition that was present before is not logged again. Sensors 4 and 5 fire from inside the device. -/
def State.tamperFire (s : State) (fired active : BitVec 8) (off : Bool) (aon : Nat) : State :=
  let old := s.get SEC_TAMPER_active
  let now := ((List.range 7).filter (s.sensed active off)).foldl (fun (m : Nat) k => m + 2 ^ k) 0
  let l := (List.range 7).filter fun k => s.sensed fired off k && s.sensorArmed k aon
  let s1 := (s.put SEC_TAMPER_active now).setSec { s.sec with
    coolAt := if bit now 2 then none else if bit old 2 then some aon else s.sec.coolAt }
  s1.fireSensors l (l.filter fun k => !bit old k) off aon

/-- A sensor fires from inside the device; the AON count of its entry is a free value (log entry 6). -/
def State.fireInside (s : State) (k : Nat) : State :=
  let (v, s1) := s.draw
  s1.fireSensors [k] [k] false v.toNat

/-- An authentication failure (R442, R448). -/
def State.authFail (s : State) : State :=
  let s1 := (s.count SEC_AUTH_FAIL_CNT).ev 396
  let n := s1.get SEC_AUTH_RUN_run + 1
  if 17 ≤ n then (s1.put SEC_AUTH_RUN_run 0).fireInside 5 else s1.put SEC_AUTH_RUN_run n

/-- A successful verification (R442). -/
def State.authOk (s : State) : State := s.put SEC_AUTH_RUN_run 0

/-! ## Checks of the commands (Table 15.8) -/

/-- A session holds a permission (R431): 0 operate, 1 rucksack, 2 security. -/
def State.holdsPerm (s : State) (k : Fin 8) (perm : Nat) : Bool := bit s.net.sess[k].perms perm

/-- The first check that fails, of a list of checks with their codes; 0 where none does. -/
def firstCode : List (Bool × Nat) → Nat
  | [] => 0
  | (fails, code) :: l => if fails then code else firstCode l

/-- The session's challenge is valid: at most 10 s old (R453). -/
def State.challengeOk (s : State) (k : Fin 8) : Bool :=
  match s.net.sess[k].chal with
  | some (_, t) => decide (s.tmb.clk ≤ t + 10000000000 * tuPerNs)
  | none => false

/-- The signature that ends the arguments of a signed command verifies, by OAK over challenge, serial, opcode and the arguments before
it (R453); without a challenge there is nothing to verify (log entry 7). -/
def State.cmdSigned (s : State) (k : Fin 8) (opcode : Nat) (l : List Byte) : Bool :=
  match s.net.sess[k].chal with
  | none => true
  | some (c, _) => sigVerifies s.sec.oak (beBytes c 32 ++ s.serialBytes ++ beBytes opcode 2 ++ l.take (l.length - 96)) (l.drop (l.length - 96))

/-- The checks of a signed command: AUTH and NO_CHALLENGE (codes 12 and 13). -/
def State.signChecks (s : State) (k : Fin 8) (opcode : Nat) (l : List Byte) : List (Bool × Nat) :=
  [(!s.cmdSigned k opcode l, 12), (!s.challengeOk k, 13)]

/-- A signed command was judged: its challenge is used, and a verification counts (R442, R453). -/
def State.signJudged (s : State) (k : Fin 8) (code : Nat) : State :=
  let s1 := s.setSess k { s.net.sess[k] with chal := none }
  if code = 12 then s1.authFail else if code = 0 then s1.authOk else s1

/-- Argument bytes as numbers, big-endian (R398). -/
def argBe (l : List Byte) (i n : Nat) : Nat := ofBe ((l.drop i).take n)

/-! ## Commands -/

/-- LOAD_KEY (slot, key_id) (R435, R425). -/
def State.loadKeyCode (s : State) (k : Fin 8) (l : List Byte) : Nat :=
  let slot := argBe l 0 1
  firstCode [(decide (s.lifecycle ≠ 2), 1), (!s.holdsPerm k 0, 2), (s.on SEC_STATUS_sealed, 3), (s.on SEC_STATUS_jtag_open, 4),
    (s.slotBusy slot, 6), (decide (l.length ≠ 8) || decide (argBe l 1 3 ≠ 0), 7), (decide (63 < slot), 18)]

def State.loadKey (s : State) (k : Fin 8) (tag seq : Nat) (l : List Byte) : State :=
  let code := s.loadKeyCode k l
  let s1 := if code = 0 then s.setKey (argBe l 0 1) (some (s.sec.patternKey (argBe l 4 4))) else s.ev 404
  s1.secReply k 0x32 tag seq code []

/-- CLEAR_KEY (slot) (R435). -/
def State.clearKeyCode (s : State) (k : Fin 8) (l : List Byte) : Nat :=
  let slot := argBe l 0 1
  firstCode [(decide (s.lifecycle ≠ 2), 1), (!s.holdsPerm k 0, 2), (s.on SEC_STATUS_jtag_open, 4), (s.slotBusy slot, 6),
    (decide (l.length ≠ 4) || decide (argBe l 1 3 ≠ 0), 7), (decide (63 < slot), 18)]

def State.clearKey (s : State) (k : Fin 8) (tag seq : Nat) (l : List Byte) : State :=
  let code := s.clearKeyCode k l
  (if code = 0 then s.setKey (argBe l 0 1) none else s).secReply k 0x33 tag seq code []

/-- The ring of the last run of a port, still to be zeroed, reaches below byte `hi` of its segment store (R171). -/
def State.ringHides (s : State) (p : Fin 8) (hi : Nat) : Bool :=
  s.seq[portUnit p].zeroing && decide (s.segStore (portUnit p) - 0x10000 * s.seq[portUnit p].zeroSize < hi)

/-- Why a management access to `n` bytes at an address fails (R48, R52, R171, R416): 6 address error, 7 denied; none where it
does not. The head slots and the WFG rings take the first 3 MiB of the queue and prefetch space (log entry 10). -/
def State.memStatus (s : State) (a n : Nat) : Option Nat :=
  if bankBase 0 ≤ a ∧ a + n ≤ bankBase 48 then
    let banks := (List.range 48).filter fun b => decide (a < bankBase (b + 1)) && decide (bankBase b < a + n)
    if banks.any fun b => decide (24 ≤ b) && !s.domainOn 42 then some 6
    else
      let bad := banks.map fun b =>
        let owner := s.cs.bank.getD b 0xFF
        let i := ((s.cs.banks owner).findIdx? (· == b)).getD 0
        let lo := 0x200000 * i + (max a (bankBase b) - bankBase b)
        let hi := 0x200000 * i + (min (a + n) (bankBase (b + 1)) - bankBase b)
        if h : owner < 8 then
          let p : Fin 8 := ⟨owner, h⟩
          if s.windowSize (portUnit p) 0 < hi ∨ s.ringHides p hi then 6
          else
            match s.lockedRegion p with
            | some (x, y) => if x < hi ∧ lo < y then 7 else 0
            | none => 0
        else if owner = 0x30 ∧ lo < 0x300000 then 6
        else 0
      bad.find? fun x => decide (x ≠ 0)
  else if nearBase 0 ≤ a ∧ a + n ≤ nearBase 4 then
    let ok := fun (c : Nat) =>
      let st := s.get (DMC_STATUS_state c)
      !(decide (a < nearBase (c + 1)) && decide (nearBase c < a + max 1 n)) ||
      (s.domainOn (32 + c) && decide (1 ≤ st) && decide (st ≤ 3) &&
        decide (min (a + n) (nearBase (c + 1)) ≤ nearBase c + nearUnit * s.get (DMC_CAPACITY_units c)))
    if (List.range 4).all ok then none else some 6
  else if farBase ≤ a ∧ a + n ≤ farBase + farTop then
    if s.domainOn 36 && s.farCovered (a - farBase) (a - farBase + n) then none else some 6
  else some 6

/-- The request has to wait: a channel of its `n` bytes is frozen (R45) or in training (Table 12.2). -/
def State.memWaits (s : State) (a n : Nat) : Bool :=
  (List.range 4).any fun c =>
    decide (a < nearBase (c + 1)) && decide (nearBase c < a + max 1 n) &&
    (s.on (DMC_STATUS_frozen c) || decide (s.get (DMC_STATUS_state c) = 1))

/-- The checks of RUCKSACK_OPEN (R436): source address, length, port, region base and size. -/
def State.rucksackCode (s : State) (k : Fin 8) (l : List Byte) : Nat :=
  let addr := argBe l 0 8
  let len := argBe l 8 4
  let port := argBe l 12 1
  let base := argBe l 13 2
  let size := argBe l 15 2
  let p : Fin 8 := ⟨port % 8, by omega⟩
  let ptLen := s.le (addr + 20) 4
  let id := s.le (addr + 8) 4
  let entry := s.useTab.find? fun x => decide (x.1 = id)
  let busy := s.portActive p || s.on (SEC_RK_REGION_locked p)
  let form := decide (l.length ≠ 17) || decide (7 < port) || (s.memStatus addr len).isSome || decide (len < 64) ||
    decide (s.le addr 4 ≠ 0x4B525A45) || decide (s.le (addr + 4) 2 ≠ 1) || decide (s.le (addr + 6) 2 ≠ 0) ||
    decide (s.le (addr + 15) 1 ≠ 0) || decide (s.le (addr + 44) 4 ≠ 0) || decide (s.le (addr + 16) 4 = 0) ||
    decide (ptLen % 8 ≠ 0) || decide (0x800000 < ptLen) || decide (len ≠ 64 + ptLen) ||
    decide (s.windowSize (portUnit p) 0 < 0x10000 * (base + size)) || decide (0x10000 * size < ptLen)
  firstCode [(decide (s.lifecycle ≠ 2), 1), (!s.holdsPerm k 1, 2), (s.on SEC_STATUS_sealed, 3), (s.on SEC_STATUS_jtag_open, 4),
    (!bit (s.get SEC_POLICY_flags) 2, 5), (busy, 6), (form, 7),
    (decide (s.le (addr + 24) 8 ≠ s.rn64 SEC_SERIAL_LO) || !bit (s.le (addr + 14) 1) port, 8),
    (decide (s.le (addr + 12) 2 ≠ s.get SEC_STATUS_epoch), 9),
    (match entry with | some (_, n, limit) => decide (limit ≤ n) | none => false, 10),
    (entry.isNone && decide (256 ≤ s.useTab.length), 11)]

/-- RUCKSACK_OPEN: the checks, then the crypto engine decrypts into the region (R436); the reply follows the tag's verdict. -/
def State.rucksackOpen (s : State) (k : Fin 8) (tag seq : Nat) (l : List Byte) : State :=
  let code := s.rucksackCode k l
  if code ≠ 0 then s.secReply k 0x34 tag seq code []
  else
    let addr := argBe l 0 8
    s.setSec { s.sec with opening := some {
      port := argBe l 12 1, base := argBe l 13 2, size := argBe l 15 2, addr := addr, id := s.le (addr + 8) 4
      limit := s.le (addr + 16) 4, ptLen := s.le (addr + 20) 4, sess := k, seq := seq, tag := tag } }

/-- The plaintext of the package being opened under K_rk, none where its tag does not verify (Table 15.7). -/
def State.rucksackPlain (s : State) (o : RkOpen) : Option (List Byte) :=
  gcmOpen (s.rucksackKey o.id) (ofBe (s.bytes (o.addr + 32) 12)) (s.bytes o.addr 48) (s.bytes (o.addr + 48) o.ptLen)
    (s.bytes (o.addr + 48 + o.ptLen) 16)

/-- The tag verifies and the region is locked, or it fails and the region is zeroed (R436). -/
def State.rucksackLock (s : State) : State :=
  match s.sec.opening with
  | none => s
  | some o =>
    if s.on CAL_STATUS_crypto_hold ∨ !s.domainOn 43 then s
    else match s.rucksackPlain o with
    | none => (s.endOpen 12).authFail
    | some text =>
      let s1 := ((s.authOk).fillRegion o.port o.base text o.size).setSec { s.sec with opening := none }
      let tab := if s1.useTab.any fun x => decide (x.1 = o.id) then s1.useTab else s1.useTab ++ [(o.id, 0, o.limit)]
      let left := match tab.find? fun x => decide (x.1 = o.id) with | some (_, n, limit) => limit - n | none => 0
      let s2 := ({ s1 with useTab := tab }.wn (SEC_RK_REGION o.port) (o.base + 2 ^ 16 * o.size + 2 ^ 31)).wn (SEC_RK_ID o.port) o.id
      ((s2.wn (SEC_RK_LEFT o.port) left).ev 397).openReply o 0 (beBytes left 4)

/-- RUCKSACK_CLOSE (port) (R437). -/
def State.rucksackClose (s : State) (k : Fin 8) (tag seq : Nat) (l : List Byte) : State :=
  let code := firstCode [(!s.holdsPerm k 1, 2), (decide (l.length ≠ 4) || decide (7 < argBe l 0 1) || decide (argBe l 1 3 ≠ 0), 7)]
  (if code = 0 then s.closeRegion (argBe l 0 1) false else s).secReply k 0x35 tag seq code []

/-- GET_RECEIPT (R439). -/
def State.getReceipt (s : State) (k : Fin 8) (tag seq : Nat) : State :=
  if !s.holdsPerm k 1 then s.secReply k 0x36 tag seq 2 []
  else
    match s.receipts with
    | [] => s.secReply k 0x36 tag seq 0 (beBytes 0 4)
    | r :: l => (({ s with receipts := l }).put SEC_RCPT_queued l.length).secReply k 0x36 tag seq 0 (beBytes 1 4 ++ r)

/-- TAMPER_LOG (index) (R449); index 0 is the newest entry. -/
def State.tamperLog (s : State) (k : Fin 8) (tag seq : Nat) (l : List Byte) : State :=
  let i := argBe l 0 1
  if l.length ≠ 4 ∨ argBe l 1 3 ≠ 0 ∨ 32 ≤ i then s.secReply k 0x37 tag seq 7 []
  else
    let x := s.sec.tlog.getD i { sensor := 0, cls := 0, flags := 0, aon := 0, ts := 0 }
    s.secReply k 0x37 tag seq 0 ([BitVec.ofNat 8 x.sensor, BitVec.ofNat 8 x.cls, BitVec.ofNat 8 x.flags, 0] ++ beBytes x.aon 4 ++
      beBytes x.ts 8)

/-- The 8 bytes of a policy in the layout of Table 2.11. -/
def policyBytes (flags tamper : Nat) : List Byte := leBytes flags 2 ++ leBytes tamper 2 ++ [0, 0, 0, 0]

/-- Reserved bits of a policy are 0 (Table 2.11). -/
def policyRsvOk (l : List Byte) : Bool :=
  decide (bytesBits l 0 4 12 = 0) && decide (bytesBits l 2 14 2 = 0) && zeros l 4 4

/-- SET_POLICY (R429, Table 15.13). -/
def State.setPolicy (s : State) (k : Fin 8) (tag seq : Nat) (l : List Byte) : State :=
  let code := firstCode ([(decide (s.lifecycle ≠ 2), 1), (!s.holdsPerm k 2, 2), (s.on SEC_STATUS_sealed, 3),
    (decide (l.length ≠ 112) || !policyRsvOk (l.take 8) || !zeros l 12 4, 7)] ++ s.signChecks k 0x38 l)
  let s1 := s.signJudged k code
  let s2 := if code = 0 then
      (s1.setSec { s1.sec with
        polFlags := bytesBits l 0 0 4, polTamper := bytesBits l 2 0 14, credFloor := max s1.sec.credFloor (argBe l 8 4) }).showPolicy
    else s1
  s2.secReply k 0x38 tag seq code []

/-- UNSEAL (R445). -/
def State.unseal (s : State) (k : Fin 8) (tag seq : Nat) (l : List Byte) : State :=
  let signed := decide (s.lifecycle = 2)
  let code := firstCode ([(!s.holdsPerm k 2, 2), (decide (l.length ≠ if signed then 96 else 0), 7)] ++
    (if signed then s.signChecks k 0x39 l else []))
  let s1 := if signed then s.signJudged k code else s
  let s2 := if code = 0 ∧ s1.on SEC_STATUS_sealed then (s1.put SEC_STATUS_sealed 0).ev 392 else s1
  s2.secReply k 0x39 tag seq code []

/-- RELEASE (R446, Table 15.3): an atomic SME routine. -/
def State.release (s : State) (k : Fin 8) (tag seq : Nat) (l : List Byte) : State :=
  let code := firstCode ([(decide (s.lifecycle ≠ 2), 1), (!s.holdsPerm k 2, 2), (s.on SEC_STATUS_sealed, 3),
    (decide (l.length ≠ 96), 7)] ++ s.signChecks k 0x3A l)
  let s1 := s.signJudged k code
  (if code = 0 then s1.zeroKeyStore.showLifecycle else s1).secReply k 0x3A tag seq code []

/-- GET_OWNER (Table 15.13). -/
def State.getOwner (s : State) (k : Fin 8) (tag seq : Nat) : State :=
  let x := s.sec
  s.secReply k 0x30 tag seq 0 ([BitVec.ofNat 8 s.lifecycle, 0] ++ beBytes (s.get SEC_STATUS_epoch) 2 ++ beBytes x.credFloor 4 ++
    policyBytes x.polFlags x.polTamper ++ (List.range 96).map fun i => x.oak.getD i 0)

/-- GET_CHALLENGE (R453). -/
def State.getChallenge (s : State) (k : Fin 8) (tag seq : Nat) : State :=
  let (v, s1) := s.draw
  let c := v.toNat % 2 ^ 256
  (s1.setSess k { s1.net.sess[k] with chal := some (c, s1.tmb.clk) }).secReply k 0x31 tag seq 0 (beBytes c 32)

/-! ## Long operations of the security block -/

/-- The ORK of an owner package under K_en, none where its tag does not verify (Table 15.5). -/
def State.enrolOrk (s : State) (l : List Byte) : Option (List Byte) :=
  gcmOpen (s.enrolKey ((l.drop 128).take 96)) 0 (l.take 224) ((l.drop 224).take 32) ((l.drop 256).take 16)

/-- The signature of an owner package verifies under its own OAK (Table 15.5). -/
def ownerSigned (l : List Byte) : Bool := sigVerifies ((l.drop 32).take 96) (l.take 272) ((l.drop 272).take 96)

/-- The first check of an owner package that fails (R432, Table 15.5). -/
def State.enrolCode (s : State) (addr len : Nat) : Nat :=
  let l := s.bytes addr 368
  firstCode [(decide (s.lifecycle ≠ 1), 1), (s.on SEC_STATUS_sealed, 3),
    (decide (len ≠ 368) || decide (s.le addr 4 ≠ 0x504F5A45) || decide (s.le (addr + 4) 2 ≠ 1) || decide (s.le (addr + 6) 2 ≠ 0) ||
      !policyRsvOk ((l.drop 16).take 8) || decide (s.le (addr + 28) 4 ≠ 0), 7),
    (decide (s.le (addr + 8) 8 ≠ s.rn64 SEC_SERIAL_LO), 8), (!ownerSigned l || (s.enrolOrk l).isNone, 12), (decide (63 ≤ s.get SEC_STATUS_epoch), 14)]

/-- ENROL: its checks, then one atomic routine (R432, R425). -/
def State.enrol (s : State) (addr len : Nat) : State :=
  let code := s.enrolCode addr len
  let s0 := (s.put SEC_LAST_RESULT_code code).put SEC_LAST_RESULT_opcode 0x15
  if code ≠ 0 then ((if code = 12 then s0.authFail else s0).longOutcome 0x15 code []).ev 395
  else
    let l := s.bytes addr 368
    let ork := ofBe ((s.enrolOrk l).getD [])
    let s1 := (s0.authOk.put SEC_STATUS_epoch (s.get SEC_STATUS_epoch + 1)).setSec { s0.sec with
      owner := true, ork := BitVec.ofNat 256 ork, oak := (l.drop 32).take 96, polFlags := bytesBits l 16 0 4
      polTamper := bytesBits l 18 0 14, credFloor := s.le (addr + 24) 4 }
    ((s1.showLifecycle.showPolicy).ev 395).longOutcome 0x15 0 []

/-- ZEROIZE (R446): it stops secret streams (Table 14.9). -/
def State.zeroize (s : State) : State :=
  (((((s.stopSecrets.zeroKeyStore).showLifecycle).put SEC_LAST_RESULT_code 0).put SEC_LAST_RESULT_opcode 0x16)).longOutcome 0x16 0 []

/-- The most bytes of an image of a kind, from its place in a slot of the boot flash (R529). -/
def imageMax (kind : Nat) : Nat := if kind = 1 then 0x100000 else if kind = 2 then 0x400000 else 0x4000

/-- The images of a concatenation (Table 15.6): kind, rollback and the bytes of each; none where a header is bad. -/
def State.fwImages (s : State) (addr len : Nat) : Nat → Option (List (Nat × Nat × List Byte))
  | 0 => if len = 0 then some [] else none
  | n + 1 =>
    if len < 256 ∨ s.le addr 4 ≠ 0x49465A45 ∨ s.le (addr + 5) 1 ≠ 0 ∨ 63 < s.le (addr + 8) 1 ∨ s.le (addr + 9) 3 ≠ 0 then none
    else
      let size := 256 + s.le (addr + 12) 4
      if len < size ∨ imageMax (s.le (addr + 4) 1) < size then none
      else (s.fwImages (addr + size) (len - size) n).map fun l => (s.le (addr + 4) 1, s.le (addr + 8) 1, s.bytes addr size) :: l

/-- The OTP counter of an image kind (R433). -/
def State.rollbackOf (s : State) (kind : Nat) : Nat :=
  if kind = 1 then s.get SEC_ROLLBACK_boot else if kind = 2 then s.get SEC_ROLLBACK_house else s.get SEC_ROLLBACK_patch

/-- What the verification of a firmware image fails in (R433, SEC_BOOT): 1 key hash, 2 signature, 3 body hash; 0 nothing. -/
def State.imageSign (s : State) (img : List Byte) : Nat :=
  let pub := (img.drop 64).take 96
  if sha384 pub ≠ s.sec.fwDigest then 1
  else if !sigVerifies pub (img.take 160) ((img.drop 160).take 96) then 2
  else if shaBytes ((img.drop 256).take (ofLe ((img.drop 12).take 4))) ≠ (img.drop 16).take 48 then 3
  else 0

/-- FW_UPDATE (R434, R529): one image of each kind; `flashOk`: every page that was programmed reads back. -/
def State.fwUpdate (s : State) (addr len : Nat) (flashOk : Bool) : State :=
  let images := (s.fwImages addr len 3).getD []
  let kinds := images.map (·.1)
  let code := firstCode [(!(kinds.contains 1 && kinds.contains 2 && kinds.contains 3), 7),
    (images.any fun x => decide (s.imageSign x.2.2 ≠ 0), 12), (images.any fun x => decide (x.2.1 < s.rollbackOf x.1), 15), (!flashOk, 16)]
  let s0 := (s.put SEC_LAST_RESULT_code code).put SEC_LAST_RESULT_opcode 0x13
  let s1 := if code = 12 then s0.authFail else if 12 < code ∨ code = 0 then s0.authOk else s0
  let s2 := if code = 0 then
      { s1 with boot := { s1.boot with flash := s1.boot.flash ++ [(1 - s.get GLB_STATE_slot, s.bytes addr len)] } }.ev 405
    else s1
  s2.longOutcome 0x13 code []

end Sys2Proof.Machine
end

