-- ==== Sys2Proof/Machine/Fabric.lean ====
section
/-! DEFINITION. Fabric transactions of a requester in general (R25 to R35, R42): the request, which puts its response space aside and
then takes a tag, and the response that returns it. The streams of ports and WFGs use the same tags through Stream.lean. -/

namespace Sys2Proof.Machine

/-- The target answers a request at once: SRAM does, and an address that no store serves completes in error (R52, R387). -/
def State.fabricServes (s : State) (a : Nat) : Bool := (s.memStatus (lineOf a) 64).isNone || s.memStatus (lineOf a) 64 == some 7

/-- A request that waited has its tag and is issued (R29 to R31): SRAM performs it now, and an address that no store serves answers it
in error; otherwise the target holds it. -/
def State.issueWait (s : State) (w : FabWait) (shared : Bool) : State :=
  let line := lineOf w.addr
  let t : FabTx := { req := w.req, pool := w.pool, line := line, write := w.write, shared := shared, dest := .other, answer := none
                     at_ := s.tmb.clk, enables := w.enables }
  if !s.fabricServes w.addr then s.issueTx { t with answer := some (0, false) }
  else if w.pool ≠ 5 then s.issueTx t
  else
    match w.write with
    | none => s.issueTx { t with answer := some (s.lineData line, true) }
    | some v => (s.setLine line (mergeLine (s.lineData line) v w.enables)).issueTx { t with answer := some (0, true) }

/-! ## Arbitration (R35, Table 1.5) -/

/-- The requesters whose oldest waiting request at a pool can take a tag now, each with whether it is a shared one. -/
def State.canGrant (s : State) (pool : Nat) : List (Nat × Bool) :=
  (List.range 31).filterMap fun r =>
    if s.fabWait.any fun w => decide (w.pool = pool) && decide (w.req = r) then (s.freeTag pool r).map fun sh => (r, sh) else none

/-- FAB_OUT: requests under panic, then the real-time class, then the bulk class, round-robin within a class. -/
def State.outPick (s : State) (pool : Nat) (l : List Nat) : Option Nat :=
  let last := s.outLast.toList.getD pool (19, 30)
  let real := l.filter fun r => decide (r < 20)
  let panic := real.filter fun r => s.panicOf r
  if panic ≠ [] then rrFirst last.1 panic
  else if real ≠ [] then rrFirst last.1 real
  else rrFirst last.2 l

/-- The next request of a pool to go: of those with a reserved tag as FAB_OUT picks, else the one that TAG_SHARED picks. -/
def State.nextGrant (s : State) (pool : Nat) : Option (Nat × Bool) :=
  let l := s.canGrant pool
  match s.outPick pool ((l.filter fun x => !x.2).map (·.1)) with
  | some r => some (r, false)
  | none => (rrFirst (s.tagLast.toList.getD pool 30) (l.map (·.1))).map fun r => (r, true)

/-- The arbiters remember their grant. -/
def State.granted (s : State) (pool req : Nat) (shared : Bool) : State :=
  let out := s.outLast.toList.getD pool (19, 30)
  { s with
    tagLast := if shared then s.tagLast.setIfInBounds pool req else s.tagLast
    outLast := s.outLast.setIfInBounds pool (if req < 20 then (req, out.2) else (out.1, req)) }

/-- The requests that wait at a pool go, while one of them can take a tag. -/
def State.grantPool (pool : Nat) : Nat → State → State
  | 0, s => s
  | fuel + 1, s =>
    match s.nextGrant pool with
    | none => s
    | some (r, sh) =>
      let mine := fun (w : FabWait) => decide (w.pool = pool) && decide (w.req = r)
      match s.fabWait.find? mine with
      | none => s
      | some w => State.grantPool pool fuel (({ s with fabWait := s.fabWait.eraseP mine }.granted pool r sh).issueWait w sh)

/-- Tags have returned: the requests that wait go (R29). -/
def State.grantTags (s : State) : State :=
  (List.range 6).foldl (fun (a : State) pool => State.grantPool pool a.fabWait.length a) s

/-- FABRIC_REQUEST: a requester of the pool puts its response space aside (R28) and waits for a tag (R33); with one, its request is
issued and the target accepts it (R29, R30). -/
def State.fabricRequest (s : State) (req addr : Nat) (write : Option (BitVec 512)) (enables : BitVec 64) : State :=
  let pool := poolOf addr
  if !poolLists pool req then s
  else
    let w : FabWait := { req := req, pool := pool, addr := addr, write := write, enables := enables }
    State.grantPool pool (s.fabWait.length + 1) { s with fabWait := s.fabWait ++ [w] }

/-- FABRIC_RESPONSE: the oldest transaction of a requester for a line is consumed, if its response has arrived; its tag returns
(R28, R29, R42), and requests that wait for one go. An uncorrectable SRAM error that a staging drain meets at line `k` of its
record ends the run (R261). -/
def State.fabricResponse (s : State) (req addr k : Nat) (ue : Bool) : State :=
  let mine := fun (t : FabTx) => decide (t.req = req) && decide (t.line = lineOf addr) && decide (t.dest = .other) && !t.stale
  match s.findTx mine with
  | none => s
  | some t =>
    if !t.arrived then s
    else
      let s1 := (s.dropTx mine).grantTags
      if h : 12 ≤ req ∧ req < 20 then (if ue && decide (t.pool = 5) then s1.acqSramError ⟨req - 12, by omega⟩ k else s1) else s1

end Sys2Proof.Machine
end

