-- ==== Sys2Proof/Machine/Load.lean ====
section
/-! DEFINITION. The structure bitstream: its validation in the order of Table 2.12 with the reports of R534, and the stages of a
structure load (chapter 02). -/

namespace Sys2Proof.Machine

/-- A failure of validation: the code of Table 2.12, the section and the offset (R534). -/
structure Rej where
  code : Nat
  sec : Nat
  off : Nat
  deriving DecidableEq, Repr

/-- A section of a bitstream: its index, where its header stands, its type, version, flag byte and length (Table 2.2). -/
structure Sect where
  idx : Nat
  o : Nat
  typ : Nat
  ver : Nat
  flags : Nat
  len : Nat
  deriving DecidableEq, Repr

/-- A bitstream as it lies in memory: the state that holds it, its address, and the length the command gave. -/
structure Bits where
  s : State
  a : Nat
  cmdLen : Nat

/-- `n` bytes at an offset of the bitstream, little-endian (R54). -/
def Bits.u (b : Bits) (i n : Nat) : Nat := b.s.le (b.a + i) n

/-- total_length (Table 2.1). -/
def Bits.total (b : Bits) : Nat := b.u 12 4

/-- The scope byte, and whether the load is of one quadrant. -/
def Bits.scope (b : Bits) : Nat := b.u 6 1
def Bits.quad (b : Bits) : Bool := decide (b.scope < 4)

/-- Where the SIGNATURE section stands (R57). -/
def Bits.sigAt (b : Bits) : Nat := b.total - 104

/-- The section whose header stands at an offset. -/
def Bits.sect (b : Bits) (i o : Nat) : Sect :=
  { idx := i, o := o, typ := b.u o 2, ver := b.u (o + 2) 1, flags := b.u (o + 3) 1, len := b.u (o + 4) 4 }

/-- The SIGNATURE section's header is as R57 wants it. -/
def Bits.sigHead (b : Bits) : Bool :=
  decide (b.u b.sigAt 2 = 0xFF) && decide (b.u (b.sigAt + 2) 1 = 1) && decide (b.u (b.sigAt + 4) 4 = 96)

/-- The sections in the order in which they stand, up to total_length; one that runs past it is refused (code 3). The
SIGNATURE section at its place is not in the list. -/
def Bits.sections (b : Bits) (i o : Nat) : Nat → Except Rej (List Sect)
  | 0 => .ok []
  | n + 1 =>
    if b.total ≤ o ∨ (o = b.sigAt ∧ b.sigHead) then .ok []
    else
      let x := b.sect i o
      if b.total < o + 8 ∨ b.total < o + 8 + x.len then .error ⟨3, i, o + 4⟩
      else match b.sections (i + 1) (o + 8 + x.len) n with
        | .error e => .error e
        | .ok l => .ok (x :: l)

/-- The signer that a lifecycle state accepts (R73). -/
def signerOk (lifecycle signer : Nat) : Bool :=
  match lifecycle with
  | 0 | 1 => decide (signer = 1)
  | 2 => decide (signer = 2)
  | _ => false

/-- Codes 1 to 4, and 5 as far as the header of SIGNATURE is not found (R72, R57). -/
def Bits.head (b : Bits) : Except Rej (List Sect) :=
  if b.u 0 4 ≠ 0x42535A45 then .error ⟨1, 0xFF, 0⟩
  else if b.u 4 2 ≠ 1 then .error ⟨1, 0xFF, 4⟩
  else if b.u 8 2 ≠ 0 ∧ b.u 8 2 ≠ b.s.get GLB_ID_stepping then .error ⟨2, 0xFF, 8⟩
  else if 65536 < b.total ∨ b.cmdLen < b.total ∨ b.total < 136 then .error ⟨3, 0xFF, 12⟩
  else
    match b.sections 0 32 8192 with
    | .error e => .error e
    | .ok l =>
      if !signerOk b.s.lifecycle (b.u 7 1) then .error ⟨4, 0xFF, 7⟩
      else if !b.sigHead then .error ⟨5, 0xFF, b.sigAt⟩
      else .ok l

/-- The first section that is out of order, repeated, misaligned, a SIGNATURE at a wrong place, or that overlaps SIGNATURE, as its index
and the offset of its header; last the SIGNATURE at its own place, `i` sections before it (R54, R55). `low` is the lowest type that may
follow. -/
def Bits.disorder (b : Bits) (low i : Nat) : List Sect → Option (Nat × Nat)
  | [] => if b.sigAt % 8 ≠ 0 ∨ 0xFF < low then some (i, b.sigAt) else none
  | x :: l =>
    if x.o % 8 ≠ 0 ∨ x.typ < low ∨ x.typ = 0xFF ∨ b.sigAt < x.o + 8 + x.len then some (x.idx, x.o) else b.disorder (x.typ + 1) (i + 1) l

/-- The size of a record of a section with one record for each quadrant (Table 2.3). -/
def recSize : Nat → Option Nat
  | 1 => some 8 | 2 => some 24 | 5 => some 40
  | _ => none

/-- The length that Table 2.3 gives a section; none where it is free. -/
def Bits.wantLen (b : Bits) (x : Sect) : Option Nat :=
  match x.typ with
  | 4 => some 48
  | 6 | 7 => some 8
  | t => (recSize t).map fun n => if b.quad then n else 4 * n

/-- The quadrants of a section's records rise (R56). -/
def rising : List Nat → Bool
  | a :: b :: l => decide (a < b) && rising (b :: l)
  | _ => true

/-- A device load's section whose records are not in ascending quadrant order (code 6, R56). -/
def Bits.recDisorder (b : Bits) (l : List Sect) : Option Sect :=
  if b.quad then none
  else l.find? fun x =>
    match recSize x.typ with
    | some n => decide (b.wantLen x = some x.len) && !rising ((List.range 4).map fun i => bitsOf (b.u (x.o + 8 + n * i) 1) 0 2)
    | none => false

/-- The first offset of the checks that fail. -/
def firstOff : List (Bool × Nat) → Option Nat
  | [] => none
  | (bad, o) :: l => if bad then some o else firstOff l

/-- Checks of a quadrant record at `r` (Tables 2.4, 2.5, 2.6, 2.10; R56). -/
def Bits.recChecks (b : Bits) (typ r : Nat) : List (Bool × Nat) :=
  let q0 := b.u r 1
  let head := (decide (4 ≤ q0) || (b.quad && decide (q0 ≠ b.scope)), r)
  match typ with
  | 1 => [head, (decide (b.u (r + 1) 1 ≠ 0), r + 1),
      ((List.range 8).any fun k => decide (bitsOf (b.u (r + 2) 2) (2 * k) 2 = 3), r + 2), (decide (b.u (r + 6) 2 ≠ 0), r + 6)]
  | 2 => [head, (decide (bitsOf (b.u (r + 1) 1) 2 2 ≠ 0) || decide (bitsOf (b.u (r + 1) 1) 6 2 ≠ 0), r + 1),
      (decide (b.u (r + 2) 2 ≠ 0), r + 2)] ++
      (List.range 8).map (fun k =>
        let w := b.u (r + 4 + 2 * k) 2
        (decide (bitsOf w 6 6 ≠ 0) || (decide (bitsOf w 14 2 = 3) && decide (3 < bitsOf w 0 6)), r + 4 + 2 * k)) ++
      [(decide (b.u (r + 20) 4 ≠ 0), r + 20)]
  | _ => [head, (decide (b.u (r + 1) 3 ≠ 0), r + 1), (decide (b.u (r + 36) 4 ≠ 0), r + 36)]

/-- Checks of a ROUTE item at `r` (Table 2.9, R62). -/
def Bits.itemChecks (b : Bits) (r : Nat) : List (Bool × Nat) :=
  let w := b.u r 4
  match bitsOf w 30 2 with
  | 0 => [(decide (w ≠ 0), r)]
  | 1 => [(!srcListed (bitsOf w 0 16), r), (decide (bitsOf w 18 6 ≠ 0), r + 2)]
  | 2 => [(bit w 6, r), (decide (bitsOf w 8 15 ≠ 0), r + 1), (decide (95 < bitsOf w 23 7), r + 2)]
  | _ => [(true, r + 3)]

/-- An owner code of a bank (R65). -/
def bankCodeOk (c : Nat) : Bool :=
  decide (c < 8) || decide (c = 0x10) || decide (c = 0x20) || decide (c = 0x30) || decide (c = 0xFF)

/-- Checks of one known section (code 10): version, flags, length, then the payload. A reserved field of several bytes is reported at its
first byte, whichever holds the set bit (DESIGN CHOICE, log entry 13). -/
def Bits.sectChecks (b : Bits) (x : Sect) : List (Bool × Nat) :=
  let p := x.o + 8
  [(decide (x.ver ≠ 1), x.o + 2), (decide (2 ≤ x.flags), x.o + 3),
    (match b.wantLen x with | some n => decide (x.len ≠ n) | none => decide (x.len % 8 ≠ 0), x.o + 4)] ++
  match x.typ with
  | 3 => (List.range (x.len / 4)).flatMap fun i => b.itemChecks (p + 4 * i)
  | 4 => (List.range 48).map fun i => (!bankCodeOk (b.u (p + i) 1), p + i)
  | 6 => [(decide (b.u p 8 / 2 ^ 44 ≠ 0), p + 5)]
  | 7 => [(decide (bitsOf (b.u p 1) 4 4 ≠ 0), p), (decide (b.u (p + 1) 1 ≠ 0), p + 1),
      (decide (bitsOf (b.u (p + 2) 2) 14 2 ≠ 0), p + 3), (decide (b.u (p + 4) 4 ≠ 0), p + 4)]
  | t =>
    match recSize t with
    | some n => (List.range (if b.quad then 1 else 4)).flatMap fun i => b.recChecks t (p + n * i)
    | none => []

/-- A type of Table 2.3. -/
def typKnown (t : Nat) : Bool := decide (1 ≤ t) && decide (t ≤ 7)

/-- The first field that is bad (code 10), header first; the reserved bytes of the header are one field. Of a skipped section and of
SIGNATURE only the reserved bits of the header are judged (R56). A field of several bytes is reported at its first byte (log entry 13). -/
def Bits.badField (b : Bits) (l : List Sect) : Option Rej :=
  if 4 ≤ b.scope ∧ b.scope ≠ 0xFF then some ⟨10, 0xFF, 6⟩
  else if b.u 20 12 ≠ 0 then some ⟨10, 0xFF, 20⟩
  else
    match l.findSome? fun x =>
      (firstOff (if typKnown x.typ then b.sectChecks x else [(decide (2 ≤ x.flags), x.o + 3)])).map fun o => (⟨10, x.idx, o⟩ : Rej) with
    | some e => some e
    | none => if 2 ≤ b.u (b.sigAt + 3) 1 then some ⟨10, l.length, b.sigAt + 3⟩ else none

/-- The required types that are absent; the first is reported where it would stand (code 7). -/
def Bits.missing (b : Bits) (l : List Sect) : Option Rej :=
  let need := if b.quad then [1, 2, 3, 5, 6] else [1, 2, 3, 4, 5, 6, 7]
  (need.find? fun t => !(l.any fun x => decide (x.typ = t))).map fun t =>
    ⟨7, 0xFF, match l.find? fun x => decide (t < x.typ) with | some x => x.o | none => b.sigAt⟩

/-- Codes 6 to 10. Within code 6 the sections' order, repetition and alignment come first, then section_count, then the order of the
records, an order that the spec does not give (DESIGN CHOICE, log entry 13). -/
def Bits.form (b : Bits) (l : List Sect) : Option Rej :=
  match b.disorder 0 0 l with
  | some x => some ⟨6, x.1, x.2⟩
  | none =>
    if l.length ≠ b.u 10 2 then some ⟨6, 0xFF, 10⟩
    else match b.recDisorder l with
    | some x => some ⟨6, x.idx, x.o⟩
    | none =>
      match b.missing l with
      | some e => some e
      | none =>
        match if b.quad then l.find? fun x => decide (x.typ = 4) || decide (x.typ = 7) else none with
        | some x => some ⟨8, x.idx, x.o⟩
        | none =>
          match l.find? fun x => !typKnown x.typ && decide (x.flags % 2 = 0) with
          | some x => some ⟨9, x.idx, x.o⟩
          | none => b.badField l

/-! ## The structure that the sections give (R58 to R71, R74) -/

/-- Where the payload of a type stands. -/
def payloadAt (l : List Sect) (t : Nat) : Nat := match l.find? fun x => decide (x.typ = t) with | some x => x.o + 8 | none => 0

/-- The index of a section. -/
def sectIdx (l : List Sect) (t : Nat) : Nat := match l.find? fun x => decide (x.typ = t) with | some x => x.idx | none => 0xFF

/-- The quadrant of a destination (Table 2.8). -/
def destQuadrant (d : Nat) : Option Nat :=
  if d < 32 then some (d / 8) else if d < 48 then some ((d - 32) / 4) else if d < 80 then some ((d - 48) / 8)
  else if d < 84 then some (d - 80) else none

/-- Put the records of one quadrant into a structure: PORTS at `ports`, ENGINE_BIND at `bind`, STORE_PART at `store`. -/
def Bits.putQuad (b : Bits) (ports bind store : Nat) (c : Committed) : Committed :=
  let q := bitsOf (b.u ports 1) 0 2
  let e := b.u (bind + 1) 1
  let win := fun (i : Nat) => ({ base := b.u (store + 4 + 4 * i) 2, size := b.u (store + 6 + 4 * i) 2 } : Win)
  { c with
    octOwner := (List.range 32).map fun o =>
      if o / 8 = q then bitsOf (b.u (ports + 2) 2) (2 * (o % 8)) 2 else c.octOwner.getD o 0
    site := (List.range 8).map fun n => if n / 2 = q then b.u (ports + 4 + n % 2) 1 else c.site.getD n 0
    acqPort := (List.range 8).map fun n =>
      if n / 2 = q then (if bit e (n % 2) then 2 * q + 1 - n % 2 else n) else c.acqPort.getD n n
    acqEn := (List.range 8).map fun n => if n / 2 = q then bit e (4 + n % 2) else c.acqEn.getD n false
    timSrc := (List.range 32).map fun t => if t / 8 = q then b.u (bind + 4 + 2 * (t % 8)) 2 else c.timSrc.getD t 0
    store := c.store.set q {
      nearA := win 0, nearB := win 1, nearW := win 2, nearAcqA := win 3, nearAcqB := win 4, farA := win 5, farB := win 6
      farW := win 7 } }

/-- Put a ROUTE item into a structure (R63). -/
def putItem (c : Committed) (w : Nat) : Committed :=
  match bitsOf w 30 2 with
  | 1 => { c with lines := c.lines.set (bitsOf w 24 6) { enable := bit w 17, invert := bit w 16, source := bitsOf w 0 16 } }
  | 2 => { c with dests := c.dests.set (bitsOf w 23 7) { enable := bit w 7, line := bitsOf w 0 6 } }
  | _ => c

/-- The ROUTE items of a bitstream, with their offsets. -/
def Bits.items (b : Bits) (l : List Sect) : List (Nat × Nat) :=
  match l.find? fun x => decide (x.typ = 3) with
  | some x => (List.range (x.len / 4)).map fun i => (x.o + 8 + 4 * i, b.u (x.o + 8 + 4 * i) 4)
  | none => []

/-- The structure before the records: the reset state, or the present one without the lines and destinations of the
quadrant (R63, R74). -/
def Bits.base (b : Bits) : Committed :=
  if b.quad then
    let c := b.s.cs
    { c with
      lines := (List.range 64).map fun n => if n / 16 = b.scope then {} else c.lines.getD n {}
      dests := (List.range 96).map fun n => if destQuadrant n = some b.scope then {} else c.dests.getD n {} }
  else {}

/-- The structure that a bitstream gives. -/
def Bits.structure_ (b : Bits) (l : List Sect) : Committed :=
  let n := if b.quad then 1 else 4
  let c1 := (List.range n).foldl (fun (c : Committed) (i : Nat) =>
    b.putQuad (payloadAt l 1 + 8 * i) (payloadAt l 2 + 24 * i) (payloadAt l 5 + 40 * i) c) b.base
  let c2 := (b.items l).foldl (fun (c : Committed) (x : Nat × Nat) => putItem c x.2) c1
  let c3 := { c2 with power := b.u (payloadAt l 6) 8 }
  if b.quad then c3
  else { c3 with
    bank := (List.range 48).map fun i => b.u (payloadAt l 4 + i) 1
    floorFlags := bitsOf (b.u (payloadAt l 7) 1) 0 4
    floorTamper := bitsOf (b.u (payloadAt l 7 + 2) 2) 0 14 }

/-! ## CONFLICT, CAPACITY and SECRET_BUSY -/

/-- Port `n` is enabled (R58). -/
def Committed.portOn (c : Committed) (n : Nat) : Bool := decide (c.octets n ≠ [])

/-- What an item names: a line, or a destination from 64 on; none for padding. -/
def itemName (w : Nat) : Option Nat :=
  match bitsOf w 30 2 with
  | 1 => some (bitsOf w 24 6)
  | 2 => some (64 + bitsOf w 23 7)
  | _ => none

/-- A name lies in a quadrant (R74). -/
def nameIn (q n : Nat) : Bool := if n < 64 then decide (n / 16 = q) else decide (destQuadrant (n - 64) = some q)

/-- The offset of the first ROUTE item that names what an earlier one names, or what lies outside the quadrant (R63, R74). -/
def Bits.itemConflict (b : Bits) : List Nat → List (Nat × Nat) → Option Nat
  | _, [] => none
  | seen, (o, w) :: l =>
    match itemName w with
    | none => b.itemConflict seen l
    | some n => if seen.contains n || (b.quad && !nameIn b.scope n) then some o else b.itemConflict (n :: seen) l

/-- R66: which of its rules fails: 1 a port without a bank, 2 staging, 3 another; 0 none. -/
def partitionBad (c : Committed) : Nat :=
  if (List.range 8).any fun n => c.portOn n && decide (c.banks n = []) then 1
  else if c.acqEn.any (·) ∧ (c.banks 0x10).length < 2 then 2
  else if (c.banks 0x20).length < 2 ∨ (c.banks 0x30).length < 2 ∨
    (!bit c.power 42 ∧ (c.bank.drop 24).any fun x => decide (x ≠ 0xFF)) then 3
  else 0

/-- R70: a power mask fits the structure and the lifecycle state. -/
def powerOk (c : Committed) (mask lifecycle : Nat) : Bool :=
  ((List.range 8).all fun n => !c.portOn n || bit mask (8 * (n / 2) + n % 2)) &&
  ((List.range 32).all fun o => (c.ownerOf o).isNone || bit mask (8 * (o / 8) + 2 + o % 8 / 2)) &&
  ((List.range 8).all fun e => !c.acqEn.getD e false || bit mask (8 * (e / 2) + 6)) &&
  ((List.range 4).all fun q =>
    let x := c.store.getD q {}
    (bit mask (32 + q) || [x.nearA, x.nearB, x.nearW, x.nearAcqA, x.nearAcqB].all fun w => decide (w.size = 0)) &&
    (bit mask 36 || [x.farA, x.farB, x.farW].all fun w => decide (w.size = 0))) &&
  (decide (lifecycle ≠ 2) || bit mask 43)

/-- The first rule of CONFLICT that is broken, in the order of R534. -/
def Bits.conflict (b : Bits) (l : List Sect) (c : Committed) : Option Rej :=
  match b.itemConflict [] (b.items l) with
  | some o => some ⟨11, sectIdx l 3, o⟩
  | none =>
    let other := (List.range 44).find? fun d => b.quad && decide (d / 8 ≠ b.scope) && decide (bit c.power d ≠ bit b.s.cs.power d)
    match other with
    | some d => some ⟨11, sectIdx l 6, payloadAt l 6 + d / 8⟩
    | none =>
      let bad := partitionBad c
      let at_ := fun (t : Nat) => some (⟨11, sectIdx l t, payloadAt l t⟩ : Rej)
      if bad ≠ 0 then (if !b.quad then at_ 4 else if bad = 2 then at_ 2 else at_ 1)
      else if !powerOk c c.power b.s.lifecycle then at_ 6
      else none

/-- The first window of a record that breaks R68, as its number in Table 2.10: a near window beyond the memory fitted or
over an earlier one, a far window outside the capacity enumerated (R383). -/
def State.windowBad (s : State) (q : Nat) (x : QStore) : Option Nat :=
  let near := [x.nearA, x.nearB, x.nearW, x.nearAcqA, x.nearAcqB]
  let far := [x.farA, x.farB, x.farW]
  let nearBad := (List.range 5).find? fun i =>
    let w := near.getD i {}
    decide (w.size ≠ 0) && (decide (s.get (DMC_CAPACITY_units q) < w.base + w.size) ||
      (near.take i).any fun v => decide (v.size ≠ 0) && decide (v.base < w.base + w.size) && decide (w.base < v.base + v.size))
  match nearBad with
  | some i => some i
  | none => ((List.range 3).find? fun i =>
      let w := far.getD i {}
      decide (w.size ≠ 0) && !s.farCovered (farUnit * w.base) (farUnit * (w.base + w.size))).map (5 + ·)

/-- CAPACITY (R68), for the quadrants that the load covers. -/
def Bits.capacity (b : Bits) (l : List Sect) (c : Committed) : Option Rej :=
  (List.range 4).findSome? fun q =>
    if b.quad && decide (q ≠ b.scope) then none
    else (b.s.windowBad q (c.store.getD q {})).map fun i =>
      ⟨12, sectIdx l 5, payloadAt l 5 + 40 * (if b.quad then 0 else q) + 4 + 4 * i⟩

/-- A port of the load runs a secret segment or holds a locked region (code 13). -/
def Bits.secretBusy (b : Bits) : Bool :=
  (List.finRange 8).any fun (p : Fin 8) => (!b.quad || decide (p.val / 2 = b.scope)) &&
    ((b.s.portRuns p && b.s.seq[portUnit p].e.secret) || b.s.on (SEC_RK_REGION_locked p))

/-- A POLICY field of the bitstream is less strict than the owner policy (R71). -/
def Bits.raised (b : Bits) (c : Committed) : Bool :=
  !b.quad && (decide (strictFlags c.floorFlags b.s.sec.polFlags ≠ c.floorFlags) ||
    decide (strictTamper c.floorTamper b.s.sec.polTamper ≠ c.floorTamper))

/-- Codes 6 to 13, and the structure where none applies. -/
def Bits.body (b : Bits) (l : List Sect) : Except Rej Committed :=
  match b.form l with
  | some e => .error e
  | none =>
    let c := b.structure_ l
    match b.conflict l c with
    | some e => .error e
    | none =>
      match b.capacity l c with
      | some e => .error e
      | none => if b.secretBusy then .error ⟨13, 0xFF, 0⟩ else .ok c

/-! ## The load (R74 to R81, Table 2.13) -/

/-- STRUCT_LOAD is accepted: validation begins (R72, R77). -/
def State.structLoad (s : State) (addr len : Nat) : State :=
  ({ s with load := some { stage := 1, before := s.get STC_STATUS_state, addr := addr, length := len } }.put
    STC_STATUS_state 2).smeRequest 5 0

/-- A rejected bitstream: its report, source 445 and the end of the operation (R72, R534). -/
def State.loadReject (s : State) (x : LoadH) (e : Rej) : State :=
  let s1 := ((s.put STC_LOAD_RESULT_code e.code).put STC_LOAD_RESULT_section e.sec).put STC_LOAD_RESULT_offset e.off
  (((({ s1 with load := none }).put STC_STATUS_state x.before).smeDone 5 0).longOutcome 0x10 e.code []).ev 445

/-- The key that verifies a bitstream (R57, R73): the OAK in OWNED, Svakoup's provisioning key in MANUFACTURE and PROVISIONED. -/
def Bits.key (b : Bits) : List Byte := b.s.sec.authority

/-- SIGNATURE verifies: r and s over the bytes before the payload of its section (R57). -/
def Bits.signed (b : Bits) : Bool := sigVerifies b.key (b.s.bytes b.a (b.sigAt + 8)) (b.s.bytes (b.a + b.sigAt + 8) 96)

/-- Validation completes (R72). -/
def State.loadChecked (s : State) : State :=
  match s.load with
  | none => s
  | some x =>
    if x.stage ≠ 1 then s
    else
      let b : Bits := { s := s, a := x.addr, cmdLen := x.length }
      match b.head with
      | .error e => s.loadReject x e
      | .ok l =>
        if !b.signed then (s.loadReject x ⟨5, 0xFF, b.sigAt⟩).authFail
        else
          match b.body l with
          | .error e => s.authOk.loadReject x e
          | .ok c =>
            { s.authOk with load := some { x with
              stage := 2, scope := if b.quad then b.scope else 4, serial := b.u 16 4, new := c, raised := b.raised c } }

/-- The domains of a mask that another mask does not hold. -/
def maskDiff (a b : Nat) : List Nat := (List.range 44).filter fun d => bit a d && !bit b d

/-- The affected units have stopped (R75); the lines of a quadrant load's quadrant are inactive from here on (R78), and
the domains to be switched on are in the power controller's hands (R507). -/
def State.loadStopped (s : State) : State :=
  match s.load with
  | none => s
  | some x =>
    if x.stage ≠ 2 then s
    else
      let s1 := s.stopUnits fun q => decide (x.scope = 4) || decide (q = x.scope)
      let ups := (maskDiff x.new.power 0).filter fun d => !s1.domainOn d
      let s2 := { s1 with
        load := some { x with stage := 3, ups := ups.filter fun d => !s1.pwr.sw.contains (d, true) }
        lineHold := if x.scope = 4 then none else some x.scope
        pwr := { s1.pwr with sw := s1.pwr.sw ++ (ups.filter fun d => !s1.pwr.sw.contains (d, true)).map fun d => (d, true) } }
      if ups = [] then s2 else s2.put PWR_STATUS_busy 1

/-- A switch of a domain completes (R507); a domain that the mask no longer holds goes off again at once. -/
def State.switchDone (s : State) (d : Nat) (on : Bool) : State :=
  let sw := s.pwr.sw.erase (d, on)
  let s1 := { s with pwr := { s.pwr with sw := sw } }
  let s2 := if on then s1.domainUp d else s1
  let s3 := if on && sw.contains (d, false) then s2.domainDown d else s2
  (s3.switched).put PWR_STATUS_busy (if sw = [] then 0 else 1)

/-- Some result that an affected unit produced before the stop is still on its way out (R76): a fail record in its FIFO, or a closed record
of an engine that its drain can still publish. -/
def State.resultsWait (s : State) (x : LoadH) : Bool :=
  (List.finRange 8).any fun (n : Fin 8) => (decide (x.scope = 4) || decide (n.val / 2 = x.scope)) &&
    (decide (s.port[n].fifo ≠ []) || (decide (s.acq[n].recs ≠ []) && !s.acq[n].frozenWait && !s.on (DMC_STATUS_frozen (n / 2)) &&
      decide ((s.acqPublish n).acq[n].recs ≠ s.acq[n].recs)))

/-- The domains switched on are settled and the banks that change their owner are zeroed (R78, R496), once the results from before the stop
have been released (R76). -/
def State.loadSettled (s : State) : State :=
  match s.load with
  | none => s
  | some x =>
    if x.stage ≠ 3 ∨ s.resultsWait x = true then s
    else
      let s1 := s.pwr.sw.foldl (fun (a : State) d => if d.2 then a.switchDone d.1 true else a) s
      let s2 := (List.range 48).foldl (fun (a : State) k =>
        if x.new.bank.getD k 0xFF ≠ s.cs.bank.getD k 0xFF then a.zeroBank k else a) s1
      { s2 with load := some { x with stage := 4 } }

/-- The structure commit (R78): the covered fields and the matrix, the mirrors of R82, and what R71 raised. -/
def State.loadCommit (s : State) : State :=
  match s.load with
  | none => s
  | some x =>
    if x.stage ≠ 4 then s
    else
      let old := s.destLevels
      let s1 := { s with cs := x.new, lineHold := none, load := some { x with stage := 5 } }
      let s2 := (s1.put STC_STATUS_last_scope (if x.scope = 4 then 7 else x.scope)).showPolicy
      let s3 := if x.scope = 4 then
          (List.range 4).foldl (fun (a : State) q => a.wn (STC_SERIAL_Q q) x.serial) (s2.wn STC_SERIAL_DEV x.serial)
        else s2.wn (STC_SERIAL_Q x.scope) x.serial
      ((if x.raised then s3.put STC_STATUS_policy_raised 1 else s3).timSettleAll).settleDests old

/-- The load ends (R81, Table 2.13): domains go off once no core of theirs runs a task, and the operation ends with OK. STC_LOAD_RESULT
then gives section 0 and offset 0, which the spec does not state (DESIGN CHOICE, log entry 13). -/
def State.loadDone (s : State) : State :=
  match s.load with
  | none => s
  | some x =>
    let offs := (List.range 44).filter fun d => s.domainOn d && !bit s.cs.power d
    if x.stage ≠ 5 then s
    else if offs.any s.domainBusy then s
    else
      let s1 := offs.foldl (fun (a : State) d =>
        ((if 38 ≤ d ∧ d < 42 then a.groupOff (d - 38) else a).domainDown d).switched) s
      let s2 := ((({ s1 with load := none }).put STC_STATUS_state 1).wn STC_LOAD_RESULT 0).smeDone 5 0
      (s2.longOutcome 0x10 0 []).ev 444

/-- An SME fault (R482). Where it ends a structure load, the load's failure result is a free value other than 0, since Table
2.12 names none for it (log entry 6). -/
def State.smeFaultLoad (s : State) (patchRam : Bool) : State :=
  let hit := decide (s.sme.run = some { routine := 5, unit := 0 })
  let s1 := s.smeFault patchRam
  match s1.load with
  | none => s1
  | some x =>
    if !hit then s1
    else
      let (v, s2) := s1.draw
      let code := v.toNat % 255 + 1
      if x.stage < 5 then s2.endLoad x code
      else (({ s2 with load := none }.put STC_STATUS_state 1).put STC_LOAD_RESULT_code code).longOutcome 0x10 code []

end Sys2Proof.Machine
end

