-- ==== Sys2Proof/Machine/Evc.lean ====
section
/-! DEFINITION. The event controller: occurrences, latches, routes, EVT_OUT and ALERT_N, and the filtered inputs (chapter 17). -/

namespace Sys2Proof.Machine

/-! ## Occurrences (R487 to R490) -/

/-- A pulse of an EVT_OUT pin begins, or begins again, for its width in MGT cycles of 5 ns (R490, mode 1). -/
def State.outPulse (s : State) (k : Nat) : State :=
  let rest := s.evc.pulse.filter fun x => decide (x.1 ≠ k)
  { s with evc := { s.evc with pulse := (k, s.tmb.clk + 5 * tuPerNs * max 2 (s.get (EVC_OUT_CFG_width k))) :: rest } }

/-- The pulse of an EVT_OUT pin ends after its width. -/
def State.outPulseEnd (s : State) (k : Nat) : State :=
  match s.evc.pulse.lookup k with
  | none => s
  | some t =>
    let s1 := s.advanceTo t
    { s1 with evc := { s1.evc with pulse := s1.evc.pulse.filter fun x => decide (x.1 ≠ k) } }

/-- The routes of an accepted occurrence whose source is enabled (R488). -/
def State.routeEvent (s : State) (src : Nat) : State :=
  let s1 := s.setBit (EVC_LATCH (src / 32)) (src % 32)
  let s2 := if s.on (EVC_SRC_amiuc src) then s1.eventToHost src else s1
  let s3 := if s.on (EVC_SRC_sched src) then s2.schRoute src else s2
  let k := s.get (EVC_SRC_out_idx src)
  if s.on (EVC_SRC_out src) ∧ s.get (EVC_OUT_CFG_mode k) = 1 then s3.outPulse k else s3

/-- The boot firmware is verified (R433); not so while the supplies have failed. -/
def State.booted (s : State) : Bool := decide (s.boot.stage = 3) || decide (s.boot.stage = 4)

/-- The sources of blocks in the MGT domain: Ethernet and Amiuc, security, calibration, structure load, power and reset (R485, Table 1.7). -/
def mgtSource (src : Nat) : Bool := (decide (352 ≤ src) && decide (src < 448)) || decide (504 ≤ src)

/-- An occurrence of a source can reach the controller before the previous one is acknowledged (R21, R487): there was one, and that of a
source in the MGT domain in the same cycle. -/
def State.mayMerge (s : State) (src : Nat) : Bool :=
  match s.evc.accepted.lookup src with
  | none => false
  | some t => !mgtSource src || decide (t = s.tmb.clk)

/-- An occurrence of a source reaches the controller (R487, R488); `merged`: the previous one is not acknowledged yet. Before the
boot firmware is verified nothing is latched or routed (R504). -/
def State.eventAccept (s : State) (src : Nat) (merged : Bool) : State :=
  if src < 512 ∧ src ∈ s.raised then
    let s1 := { s with
      raised := s.raised.erase src
      evc := { s.evc with accepted := (src, s.tmb.clk) :: s.evc.accepted.filter fun x => decide (x.1 ≠ src) } }
    if !s.booted ∨ !s.on (EVC_SRC_en src) then s1
    else if merged && s.mayMerge src then s1.count EVC_MERGED
    else s1.routeEvent src
  else s

/-- A write-1-to-clear of EVC_LATCH[k] (R36, R489). -/
def State.latchClear (s : State) (k : Nat) (v : Word) : State :=
  if k < 16 then s.wr (EVC_LATCH k) (s.rd (EVC_LATCH k) &&& ~~~v) else s

/-- EVC_ALERT_PEND[k] (R489). -/
def State.alertPend (s : State) (k : Nat) : Nat :=
  ((List.range 32).map fun i =>
    if s.bitAt (EVC_LATCH k) i && s.on (EVC_SRC_alert (32 * k + i)) then 2 ^ i else 0).sum

/-- ALERT_N is pulled low (R489). -/
def State.alertLow (s : State) : Bool :=
  !s.booted || (s.on EVC_CTL_alert_en && (List.range 16).any fun k => decide (s.alertPend k ≠ 0))

/-- The lock level that TMB_LOCK_OUT selects (R237, Table 6.16). -/
def State.lockLevel (s : State) : Bool :=
  let k := s.get TMB_LOCK_OUT_pll
  if k < 12 then s.on (DPL_STATUS_locked k) else if k = 12 then s.on TMB_STATUS_locked else false

/-- The level of EVT_OUT k (R64, R237, R490). -/
def State.evtOut (s : State) (k : Nat) : Bool :=
  if (s.cs.dests.getD (88 + k) {}).enable then s.destLevel (88 + k)
  else if s.on TMB_LOCK_OUT_en && decide (s.get TMB_LOCK_OUT_evt_out = k) then s.lockLevel
  else
    let inv := s.on (EVC_OUT_CFG_invert k)
    match s.get (EVC_OUT_CFG_mode k) with
    | 1 => Bool.xor (s.evc.pulse.lookup k).isSome inv
    | 2 => Bool.xor ((List.range 512).any fun src =>
        s.bitAt (EVC_LATCH (src / 32)) (src % 32) && s.on (EVC_SRC_out src) && decide (s.get (EVC_SRC_out_idx src) = k)) inv
    | _ => false

/-! ## Inputs (R491 to R494) -/

/-- Replace one bit of a number. -/
def putBit (x i : Nat) (on : Bool) : Nat :=
  let rest := if bit x i then x - 2 ^ i else x
  if on then rest + 2 ^ i else rest

/-- What an accepted edge of an input does (R494). -/
def State.inputAccepted (s : State) (i : Nat) : State :=
  let s1 := { s.setBit EVC_IN_EDGE i with evc := { s.evc with inSeen := putBit s.evc.inSeen i true } }
  if i < 8 then ({ s1 with evc := { s1.evc with inActive := putBit s1.evc.inActive i true } }.ev 509).levelTo i true
  else if i < 16 then s1.ev 510
  else s1.epochIn

/-- An active edge that comes too early (R492). -/
def State.inputOverrun (s : State) (i : Nat) : State := ((s.count (EVC_IN_OVR i)).setBit EVC_IN_OVRF i).ev 511

/-- INPUT_EDGE: input `i` has shown a level for `samples` synchronised samples, `cycles` MGT cycles after its last accepted
edge (R491 to R494). -/
def State.inputEdge (s : State) (i : Nat) (level : Bool) (samples cycles : Nat) : State :=
  if 17 ≤ i ∨ s.bitAt EVC_IN_STATE i = level ∨ samples < max 1 (s.get (EVC_IN_CFG_filter i)) then s
  else
    let s1 := if level then s.setBit EVC_IN_STATE i else s.clearBit EVC_IN_STATE i
    -- EPOCH_IN reaches the matrix after its filter (Table 2.7)
    let s2 := if i = 16 then
        { s1 with evc := { s1.evc with inActive := putBit s1.evc.inActive 16 level } }.levelTo 0x90 level
      else s1
    if level then
      if !bit s.evc.inSeen i || decide (max 1 (s.get (EVC_IN_CFG_interval i)) ≤ cycles) then s2.inputAccepted i
      else s2.inputOverrun i
    else if i < 8 ∧ bit s2.evc.inActive i then
      { s2 with evc := { s2.evc with inActive := putBit s2.evc.inActive i false } }.levelTo i false
    else s2

end Sys2Proof.Machine
end

