-- ==== Sys2Proof/Machine/Pwr.lean ====
section
/-! DEFINITION. The power controller: the host's power mask, switches, faults and the thermal warning (R506 to R509). -/

namespace Sys2Proof.Machine

/-- A write of an RWL field is ignored, counted and raised (R77). -/
def State.rwlIgnored (s : State) : State := ((s.count STC_RWL_IGNORED).put STC_STATUS_rwl_ignored 1).ev 446

/-- The host may write the power mask (R77, R82). -/
def State.mayPower (s : State) : Bool :=
  s.load.isNone && decide (s.get STC_STATUS_state = 0) && decide (s.lifecycle ≤ 1)

/-- The staged low word of a 64-bit register pair (R53), or the word in force. -/
def State.stagedLow (s : State) (a cur : Nat) : Nat :=
  match s.stagedLo.find? fun x => decide (x.1 = a) with
  | some (_, v) => v.toNat
  | none => cur

/-- Stage the low word of a pair (R53). -/
def State.stageLow (s : State) (a : Nat) (v : Word) : State :=
  { s with stagedLo := (a, v) :: s.stagedLo.filter fun x => decide (x.1 ≠ a) }

/-- Drop a staged low word. -/
def State.unstage (s : State) (a : Nat) : State := { s with stagedLo := s.stagedLo.filter fun x => decide (x.1 ≠ a) }

/-- A mask of domains takes effect (R506, R507): isolation at the start of a switch-off, and the switches queue. -/
def State.powerTo (s : State) (mask : Nat) : State :=
  let on := (List.range 44).filter s.domainOn
  let offs := on.filter fun d => !bit mask d
  let ups := (List.range 44).filter fun d => bit mask d && !s.domainOn d && !s.pwr.sw.contains (d, true)
  let late := (s.pwr.sw.filter fun x => x.2 && !bit mask x.1).map (·.1)
  let s1 := offs.foldl (fun (a : State) d => (if 38 ≤ d ∧ d < 42 then a.groupOff (d - 38) else a).domainDown d) s
  let sw := s1.pwr.sw ++ (offs.map fun d => (d, false)) ++ (late.map fun d => (d, false)) ++ ups.map fun d => (d, true)
  { s1 with cs := { s1.cs with power := mask }, pwr := { s1.pwr with sw := sw } }.put PWR_STATUS_busy (if sw = [] then 0 else 1)

/-- A host write of the power mask, at its HI word (R506). -/
def State.powerWrite (s : State) (mask : Nat) : State :=
  if !powerOk s.cs mask s.lifecycle || (List.range 44).any fun d => s.domainOn d && !bit mask d && s.domainBusy d then
    s.put PWR_STATUS_refused 1
  else s.powerTo mask

/-- A host write of PWR_DOMAIN_LO or _HI (R53, R77, R82, R506). -/
def State.pwrDomainWrite (s : State) (hi : Bool) (v : Word) : State :=
  if !s.mayPower then s.rwlIgnored
  else if !hi then s.stageLow PWR_DOMAIN_LO v
  else (s.unstage PWR_DOMAIN_LO).powerWrite (s.stagedLow PWR_DOMAIN_LO (s.cs.power % 2 ^ 32) + 2 ^ 32 * (v.toNat % 2 ^ 12))

/-- DOMAIN_SWITCH_DONE: one of the four switches in progress completes (R507). -/
def State.domainSwitchDone (s : State) (d : Nat) : State :=
  match (s.pwr.sw.take 4).find? fun x => decide (x.1 = d) with
  | some x => s.switchDone d x.2
  | none => s

/-- The tasks of a group whose domain faults: those that run end as their core fails, those that are READY end with GROUP_OFF. -/
def State.groupFault (s : State) (g : Nat) : State :=
  ((List.range 4).foldl (fun (a : State) k => a.taskError (4 * g + k) 7 0 0) s).groupOff g

/-- DOMAIN_FAULT (R508): what is held for retention is lost, since R376 retains only where a load or a reset switches off. -/
def State.domainFault (s : State) (d : Nat) : State :=
  if !s.domainOn d || decide (44 ≤ d) then s
  else
    let s1 := if 38 ≤ d ∧ d < 42 then s.groupFault (d - 38) else if d = 36 then s.cxlOff false else s.stopDomain d
    let s2 := s1.domainDown d
    let s3 := if h : 32 ≤ d ∧ d < 36 then
        let c : Fin 4 := ⟨d - 32, by omega⟩
        if s2.get (DMC_STATUS_state c) = 5 then
          ((s2.zeroChan c).failTxs fun t => decide (t.pool = c.val)).put (DMC_STATUS_state c) 0
        else s2
      else if d = 43 then s2.put CAL_STATUS_crypto_hold 1
      else s2
    let s4 := s3.setBit (if d < 32 then PWR_FAULT_LO else PWR_FAULT_HI) (d % 32)
    { s4 with pwr := { s4.pwr with sw := s4.pwr.sw.filter fun x => decide (x ≠ (d, false)) } }.count PWR_FAULT_CNT |>.ev 505

/-- The hottest valid sensor, in 1/16 °C (R509). -/
def State.hottest (s : State) : Option Int :=
  (List.range 16).foldl (fun (m : Option Int) i =>
    if s.on (CAL_TEMP_valid i) then
      let x := toSigned 13 (s.get (CAL_TEMP_temp i))
      some (match m with | none => x | some y => max x y)
    else m) none

/-- TEMP_SAMPLE: the sensors are sampled (R460), and the power controller looks at the hottest one (R509). -/
def State.tempSampled (s : State) (l : List Int) : State :=
  let s1 := s.tempSample l
  match s1.hottest with
  | none => s1
  | some x =>
    let s2 := s1.put PWR_TJ_MAX_temp (ofSigned 13 x)
    let thr := toSigned 13 (s.get PWR_TEMP_WARN_thr)
    if s.pwr.hot then (if x < thr - s.get PWR_TEMP_WARN_hyst then { s2 with pwr := { s2.pwr with hot := false } } else s2)
    else if thr ≤ x then ({ s2 with pwr := { s2.pwr with hot := true } }.put PWR_STATUS_therm_warn 1).ev 506
    else s2

end Sys2Proof.Machine
end

