-- ==== Sys2Proof/Machine/Eth.lean ====
section
/-! DEFINITION. The Ethernet ports below Amiuc: links, addresses, the protocols of R395, the ingress policer and the
configuration (R394 to R397, R420, R421). -/

namespace Sys2Proof.Machine

def State.setNetPort (s : State) (p : Fin 2) (x : NetPortH) : State :=
  s.setNet { s.net with port := s.net.port.set p x }

/-- The port is enabled and powered, and the boot chain let Ethernet come up (R394, R433, Table 14.12). -/
def State.ethOn (s : State) (p : Fin 2) : Bool :=
  s.booted && (if p = 0 then s.on NET_CTL_a_en else s.on NET_CTL_b_en && s.domainOn 37)

/-- The port's link is up. -/
def State.linkUp (s : State) (p : Fin 2) : Bool := s.on (NET_PORT_STATUS_link p)

/-! ## Addresses (R395) -/

/-- The port's MAC address. -/
def State.macOf (s : State) (p : Fin 2) : Nat := s.rn (NET_MAC_LO p) + 2 ^ 32 * (s.rn (NET_MAC_HI p) % 2 ^ 16)

/-- The IPv4 address in force: the leased one with DHCP, else the static one. -/
def State.ip4Of (s : State) (p : Fin 2) : Nat :=
  let x := s.net.port[p]
  if bit x.cfg 2 then x.lease.getD 0 else x.ip4

/-- The link-local address: fe80::/64 with the modified EUI-64 identifier of the MAC address. -/
def State.linkLocal (s : State) (p : Fin 2) : Nat :=
  let m := s.macOf p
  let oui := m / 2 ^ 24 ^^^ 0x020000
  0xFE80 * 2 ^ 112 + oui * 2 ^ 40 + 0xFFFE * 2 ^ 24 + m % 2 ^ 24

/-- Show which addresses of a port are valid (Tables 14.13, 14.15). -/
def State.showAddr (s : State) (p : Fin 2) (v4 : Bool) : State :=
  let x := s.net.port[p]
  let v6 := x.llOk && (x.glOk || decide (x.ip6 = 0))
  let s1 := (s.put (NET_PORT_STATUS_v4_valid p) (if v4 then 1 else 0)).put (NET_PORT_STATUS_v6_valid p) (if v6 then 1 else 0)
  let any := if v4 || x.llOk || x.glOk then 1 else 0
  if p = 0 then s1.put NET_STATUS_a_addr any else s1.put NET_STATUS_b_addr any

/-- The IPv4 address of a port becomes valid: one gratuitous ARP (R395). -/
def State.v4Valid (s : State) (p : Fin 2) : State := (s.transmit p (.gratuitousArp p (s.ip4Of p))).showAddr p true

/-- The port begins duplicate address detection on its IPv6 addresses, and the DHCP client, where they are on (R395, R396). -/
def State.startProbes (s : State) (p : Fin 2) : State :=
  let x := s.net.port[p]
  let s1 := if bit x.cfg 3 then s.transmit p (.dadSolicit p (s.linkLocal p)) else s
  let s2 := if bit x.cfg 3 ∧ x.ip6 ≠ 0 then s1.transmit p (.dadSolicit p x.ip6) else s1
  if bit x.cfg 1 ∧ bit x.cfg 2 then s2.transmit p (.dhcpDiscover p) else s2

/-- The addresses of a port whose link is up are validated anew (R395, R421): a static IPv4 address is valid at once, a lease
and the IPv6 addresses come later. -/
def State.startAddr (s : State) (p : Fin 2) : State :=
  let s1 := (s.setNetPort p { s.net.port[p] with lease := none, llOk := false, glOk := false }).showAddr p false
  let x := s1.net.port[p]
  if !s1.linkUp p then s1
  else
    let s2 := s1.startProbes p
    if bit x.cfg 1 && !bit x.cfg 2 && decide (x.ip4 ≠ 0) then s2.v4Valid p else s2

/-- ETH_LINK_UP (R394). -/
def State.ethLinkUp (s : State) (p : Fin 2) : State :=
  if !s.ethOn p || s.linkUp p then s
  else
    let s1 := (s.put (NET_PORT_STATUS_link p) 1).put (NET_PORT_STATUS_fec_lock p) 1
    let s2 := if p = 0 then s1.put NET_STATUS_a_link 1 else s1.put NET_STATUS_b_link 1
    (s2.startAddr p).ev (352 + 2 * p.val)

/-- ETH_LINK_DOWN (R394). -/
def State.ethLinkDown (s : State) (p : Fin 2) : State := if s.linkUp p then s.linkOff p else s

/-! ## The policer (R397) -/

/-- The key of a source's bucket: its MAC address while fewer than 63 sources have one of their own, else that of bucket 63. -/
def State.bucketKey (s : State) (mac : Nat) : Nat :=
  let own := s.net.buckets.filter fun x => decide (x.1 < 2 ^ 48)
  if (own.any fun x => decide (x.1 = mac)) || decide (own.length < 63) then mac % 2 ^ 48 else 2 ^ 48

/-- A frame passes the policer, or is dropped and counted. -/
def State.police (s : State) (p : Fin 2) (mac : Nat) : State × Bool :=
  let key := s.bucketKey mac
  let (tok, at_) := match s.net.buckets.find? fun x => decide (x.1 = key) with
    | some (_, n, t) =>
      let step := 8000 * tuPerNs
      let k := (s.tmb.clk - t) / step
      if 32 ≤ n + k then (32, s.tmb.clk) else (n + k, t + k * step)
    | none => (32, s.tmb.clk)
  let rest := s.net.buckets.filter fun x => decide (x.1 ≠ key)
  if tok = 0 then
    let s1 := (s.setNet { s.net with buckets := (key, 0, at_) :: rest }).count (NET_POLICE_DROP p)
    let due := match s.net.dropAt with | some t => decide (t + 1000000 * tuPerNs ≤ s.tmb.clk) | none => true
    (if due then (s1.setNet { s1.net with dropAt := some s1.tmb.clk }).ev 362 else s1, false)
  else (s.setNet { s.net with buckets := (key, tok - 1, at_) :: rest }, true)

/-- A frame that a port's MAC received. -/
def State.rxCount (s : State) (p : Fin 2) : State := s.count (NET_RX_OK p)

/-! ## The protocols below UDP (R395, R420) -/

/-- ARP_REQUEST for an address, from a MAC and IP address. -/
def State.arpRequest (s : State) (p : Fin 2) (target mac ip : Nat) : State :=
  if !s.linkUp p then s
  else
    let (s1, ok) := (s.rxCount p).police p mac
    if ok && s1.on (NET_PORT_STATUS_v4_valid p) && decide (target = s1.ip4Of p) then s1.transmit p (.arpReply p mac ip) else s1

/-- An IPv6 address of the port is valid. -/
def State.ownIp6 (s : State) (p : Fin 2) (a : Nat) : Bool :=
  let x := s.net.port[p]
  (x.llOk && decide (a = s.linkLocal p)) || (x.glOk && decide (a = x.ip6))

/-- NEIGHBOUR_SOLICITATION for an address, from a MAC and IP address. -/
def State.neighbourSolicitation (s : State) (p : Fin 2) (target mac ip : Nat) : State :=
  if !s.linkUp p then s
  else
    let (s1, ok) := (s.rxCount p).police p mac
    if ok && s1.ownIp6 p target then s1.transmit p (.advert p mac ip) else s1

/-- An IP address is a valid one of the port. -/
def State.ownIp (s : State) (p : Fin 2) (v6 : Bool) (a : Nat) : Bool :=
  if v6 then s.ownIp6 p a else s.on (NET_PORT_STATUS_v4_valid p) && decide (a = s.ip4Of p)

/-- ICMP_ECHO to an address of the port: answered while READY, dropped and counted before (R395, R420). -/
def State.icmpEcho (s : State) (p : Fin 2) (v6 : Bool) (target mac ip : Nat) (payload : List Byte) : State :=
  if !s.linkUp p then s
  else
    let (s1, ok) := (s.rxCount p).police p mac
    if !ok then s1
    else if s1.boot.stage ≠ 4 then s1.count (NET_DROP_BOOT p)
    else if s1.ownIp p v6 target then
      s1.transmit p (.echo { port := p, mac := mac, v6 := v6, ip := ip, uport := 0 } payload)
    else s1

/-- The DHCP client runs on the port. -/
def State.dhcpOn (s : State) (p : Fin 2) : Bool :=
  s.linkUp p && bit s.net.port[p].cfg 1 && bit s.net.port[p].cfg 2

/-- DHCP_LEASE_OBTAINED, for a time in seconds (option 51). -/
def State.dhcpLease (s : State) (p : Fin 2) (ip secs : Nat) : State :=
  if s.dhcpOn p then
    (s.setNetPort p { s.net.port[p] with lease := some (ip % 2 ^ 32), leaseAt := s.tmb.clk, leaseSecs := secs }).v4Valid p
  else s

/-- DHCP_RENEW: at half the lease. -/
def State.dhcpRenew (s : State) (p : Fin 2) : State :=
  match s.net.port[p].lease with
  | some ip =>
    if s.dhcpOn p then (s.advanceTo (s.net.port[p].leaseAt + s.net.port[p].leaseSecs * 500000000 * tuPerNs)).transmit p (.dhcpRenew p ip)
    else s
  | none => s

/-- Every session on a port ends with a status. -/
def State.portSessions (s : State) (p : Fin 2) (status : Nat) : State :=
  (List.finRange 8).foldl (fun (a : State) (k : Fin 8) =>
    let q := a.net.sess[k]
    let port := match q.offer with | some o => o.peer.port | none => q.peer.port
    if a.sessState k ≠ 0 ∧ port = p.val then a.sessEnd k 0 status else a) s

/-- DHCP_LEASE_LOST. -/
def State.dhcpLost (s : State) (p : Fin 2) : State :=
  match s.net.port[p].lease with
  | some _ => ((s.setNetPort p { s.net.port[p] with lease := none }).showAddr p false).portSessions p 15
  | none => s

/-- DUPLICATE_ADDRESS_DETECTION ends on the link-local or the global address. -/
def State.dadDone (s : State) (p : Fin 2) (global duplicate : Bool) : State :=
  let x := s.net.port[p]
  if !s.linkUp p || !bit x.cfg 3 || (global && decide (x.ip6 = 0)) then s
  else if duplicate then s.put (NET_PORT_STATUS_conflict p) 1
  else
    let y := if global then { x with glOk := true } else { x with llOk := true }
    (s.setNetPort p y).showAddr p (s.on (NET_PORT_STATUS_v4_valid p))

/-- PAUSE_FRAME: discarded and counted (R394). -/
def State.pauseFrame (s : State) (p : Fin 2) : State := if s.linkUp p then s.count (NET_PAUSE_RX p) else s

/-! ## Configuration (R421) -/

/-- The staged IPv6 address of a port as one number. -/
def State.stagedIp6 (s : State) (p : Fin 2) : Nat :=
  ((List.range 4).map fun i => s.rn (NET_IP6_ADDR p i) * 2 ^ (32 * (3 - i))).sum

/-- Put the staged configuration of a port in force. -/
def State.takeCfg (s : State) (p : Fin 2) : State :=
  s.setNetPort p { s.net.port[p] with cfg := s.rn (NET_PORT_CFG p), ip4 := s.rn (NET_IP4_ADDR p), ip6 := s.stagedIp6 p }

/-- NET_CTL.apply: the ports whose configuration changes end their sessions and validate their addresses anew. -/
def State.netApply (s : State) : State :=
  (List.finRange 2).foldl (fun (a : State) (p : Fin 2) =>
    let x := a.net.port[p]
    if x.cfg = a.rn (NET_PORT_CFG p) ∧ x.ip4 = a.rn (NET_IP4_ADDR p) ∧ x.ip6 = a.stagedIp6 p then a
    else ((a.takeCfg p).portSessions p 19).startAddr p) s

/-- A write of NET_CTL enables and disables the ports (Table 14.12); a port that is disabled has no link. -/
def State.netCtl (s : State) (v : Nat) : State :=
  let s1 := (s.put NET_CTL_a_en (bitsOf v 0 1)).put NET_CTL_b_en (bitsOf v 1 1)
  let s2 := if bit v 0 then s1 else s1.ethLinkDown 0
  let s3 := if bit v 1 then s2 else s2.ethLinkDown 1
  if bit v 2 then s3.netApply else s3

end Sys2Proof.Machine
end

