-- ==== Sys2Proof/Machine/Microcode.lean ====
section
/-! DEFINITION. The microwords of the service microengine, its patch RAM, and the check of a patch (R475, R476, R479 to R481). -/

namespace Sys2Proof.Machine

/-- A microword (Table 16.6). The datapath control is not published. -/
structure MicroWord where
  cyc : Nat
  commit : Bool
  atom : Nat
  next : Nat
  seq : Nat
  cond : Nat
  imm : Nat
  datapath : Nat
  deriving DecidableEq, Repr

def microWord (w : BitVec 144) : MicroWord :=
  let f := fun (lo n : Nat) => bitsOf w.toNat lo n
  { cyc := f 141 3, commit := bit w.toNat 140, atom := f 138 2, next := f 122 16, seq := f 118 4, cond := f 110 8, imm := f 78 32
    datapath := f 0 78 }

/-- The cycle length of a word in SME clocks (R475). -/
def MicroWord.clocks (x : MicroWord) : Nat := [1, 2, 3, 4, 6, 8, 12, 16].getD x.cyc 0

/-- The atom and seq codes are valid; every cyc code is (Table 16.6). -/
def MicroWord.valid (x : MicroWord) : Bool := decide (x.atom ≠ 3) && decide (x.seq ≤ 4)

/-- The words and the match entries (rom, target) of a patch (R479). -/
structure Patch where
  words : List (BitVec 144)
  hits : List (Nat × Nat)
  deriving DecidableEq, Repr

/-- The patch word at an index. -/
def Patch.word (x : Patch) (i : Nat) : MicroWord := microWord (x.words.getD i 0)

/-- The microword that the sequencer fetches at an address (R480): of the patch RAM, of the lowest enabled match register that holds
the address, or of the ROM. -/
def State.smeFetch (s : State) (a : Nat) : BitVec 144 :=
  if 0x8000 ≤ a then s.sme.patch.getD (a - 0x8000) 0
  else
    match (List.range 32).find? fun i => s.on (SME_MATCH_en i) && decide (s.get (SME_MATCH_rom i) = a) with
    | some i => s.sme.patch.getD (s.get (SME_MATCH_target i)) 0
    | none => Config.smeRom a

/-! ## The check of a patch (R481) -/

/-- An address lies within the ROM or the loaded words. -/
def Patch.within (x : Patch) (a : Nat) : Bool := decide (a < 0x8000 + x.words.length)

/-- Every word is valid, and every address that it names lies within. -/
def Patch.wordsOk (x : Patch) : Bool :=
  (x.words.all fun w =>
    let y := microWord w
    y.valid && x.within y.next && (decide (y.seq ≠ 1 ∧ y.seq ≠ 2) || x.within (y.imm % 2 ^ 16))) &&
  x.hits.all fun h => decide (h.2 < x.words.length)

/-- Where an address is fetched from: a patch word (its index), or the ROM. -/
def Patch.place (x : Patch) (a : Nat) : Option Nat :=
  if 0x8000 ≤ a then some (a - 0x8000) else (x.hits.find? fun h => decide (h.1 = a)).map (·.2)

/-- The word that begins at an index lies in an atomic section, as it is executed and after it. -/
def MicroWord.inAtom (y : MicroWord) (a : Bool) : Bool := a || decide (y.atom = 1)
def MicroWord.afterAtom (y : MicroWord) (a : Bool) : Bool := y.inAtom a && decide (y.atom ≠ 2)

/-- Where a word may go on: the addresses that it names, or for a return those after the calls of the patch. -/
def Patch.nexts (x : Patch) (y : MicroWord) : List Nat :=
  match y.seq with
  | 1 => [y.next, y.imm % 2 ^ 16]
  | 2 => [y.imm % 2 ^ 16]
  | 3 => x.words.filterMap fun w => if (microWord w).seq = 2 then some (microWord w).next else none
  | _ => [y.next]

/-- The patch words that a word leads to; a call leads to the word after it too. -/
def Patch.leads (x : Patch) (p : Nat × Bool) : List (Nat × Bool) :=
  let y := x.word p.1
  ((x.nexts y ++ if y.seq = 2 then [y.next] else []).filterMap x.place).map fun i => (i, y.afterAtom p.2)

/-- The patch words, each with whether it begins in an atomic section, that paths from the ROM reach. -/
def Patch.reach (x : Patch) : Nat → List (Nat × Bool) → List (Nat × Bool)
  | 0, l => l
  | fuel + 1, l =>
    let m := (l ++ l.flatMap x.leads).eraseDups
    if m.length = l.length then l else x.reach fuel m

/-- The longest way outside atomic sections from a word's start to a commit point, from what is known of the words after it. -/
def Patch.way (x : Patch) (known : List ((Nat × Bool) × Nat)) (p : Nat × Bool) : Nat :=
  let y := x.word p.1
  let c := if y.inAtom p.2 then 0 else y.clocks
  if y.commit then c
  else
    let a := y.afterAtom p.2
    let of := fun (n : Nat) => match x.place n with
      | some i => (known.lookup (i, a)).getD 0
      | none => if a then 0 else Config.romAfter n
    c + ((x.nexts y).map of).foldl max (if y.seq = 3 ∧ !a then Config.romReturn else 0)

/-- The longest ways, as far as they can be in `fuel` rounds: a loop without a commit point makes them grow in every round. -/
def Patch.ways (x : Patch) : Nat → List ((Nat × Bool) × Nat) → List ((Nat × Bool) × Nat)
  | 0, l => l
  | fuel + 1, l =>
    let m := l.map fun y => (y.1, x.way l y.1)
    if m = l then l else x.ways fuel m

/-- R476 holds on every path through the patch words: commit points are at most 1,600 clocks apart (log entry 33). -/
def Patch.pathsOk (x : Patch) : Bool :=
  let l := x.ways 1602 ((x.reach 1025 (x.hits.map fun h => (h.2, false)).eraseDups).map fun p => (p, 0))
  (l.all fun y => decide (y.2 ≤ 1600)) &&
  x.hits.all fun h => decide (Config.romBefore h.1 + (l.lookup (h.2, false)).getD 0 ≤ 1600)

/-- The plaintext of a patch (R479): none where its layout is not the one given. -/
def patchPlain (l : List Byte) : Option Patch :=
  let u := fun (i n : Nat) => ofLe ((l.drop i).take n)
  let n := u 4 2
  let m := u 6 1
  let size := 8 + 4 * m + 18 * n
  if u 0 4 ≠ 0x504D5A45 ∨ n < 1 ∨ 512 < n ∨ 32 < m ∨ u 7 1 ≠ 0 ∨ l.length ≠ (size + 7) / 8 * 8 ∨ u size (l.length - size) ≠ 0 ∨
      ((List.range m).any fun i => !bit (u (8 + 4 * i) 4) 31) then none
  else
    some {
      words := (List.range n).map fun i => BitVec.ofNat 144 (u (8 + 4 * m + 18 * i) 18)
      hits := (List.range m).map fun i => (bitsOf (u (8 + 4 * i) 4) 0 15, bitsOf (u (8 + 4 * i) 4) 16 9) }

/-- A patch image opened and checked (R479, R481): none where its tag or a check fails. -/
def State.patchOf (s : State) (img : List Byte) : Option Patch :=
  let body := (img.drop 256).take (ofLe ((img.drop 12).take 4))
  if body.length < 128 ∨ ofBe ((body.drop 108).take 4) ≠ 0 then none
  else
    let z := ecdh s.sec.dik (body.take 96)
    let key := ofBe (hkdfExpand (hkdfExtract (beBytes (s.rn64 SEC_SERIAL_LO) 8) z) (beBytes 0x455A4D50 4) 32)
    let text := body.drop 112
    match gcmOpen key (ofBe ((body.drop 96).take 12)) (img.take 16) (text.take (text.length - 16)) (text.drop (text.length - 16)) with
    | none => none
    | some l => (patchPlain l).bind fun x => if x.wordsOk && x.pathsOk then some x else none

end Sys2Proof.Machine
end

