-- ==== Sys2Proof/Machine/Reset.lean ====
section
/-! DEFINITION. Resets, the boot chain, READY and the watchdog (R433, R434, R481, R495 to R503, R519, R530). -/

namespace Sys2Proof.Machine

/-! ## DDR training as a routine of the SME (R366, R367, Table 16.7) -/

/-- Training of a channel starts as an SME routine. -/
def State.trainAt (s : State) (c : Fin 4) : State := (s.trainStart c).smeRequest 6 c

/-- The channels of a DDR_FULL_TRAIN that is under way: the next one trains, or all have their codes and the operation has its
result (Table 14.9). -/
def State.trainGoes (s : State) : State :=
  match s.trainLeft with
  | k :: _ => s.smeRequest 6 k
  | [] =>
    let first := (s.trainCodes.find? fun x => decide (x.2 ≠ 0)).map (·.2)
    s.longOutcome 0x11 (first.getD 0) (s.trainCodes.map fun x => BitVec.ofNat 8 x.2)

/-- DDR_FULL_TRAIN of the channels in a mask (R367). -/
def State.fullTrain (s : State) (mask : Nat) : State :=
  let l := (List.range 4).filter fun c => bit mask c
  (State.trainNext 5 { s with trainLeft := l, trainCodes := [] }).trainGoes

/-- DDR_TRAIN_DONE. -/
def State.trainDone (s : State) (c : Fin 4) (code lane : Nat) : State :=
  if s.get (DMC_STATUS_state c) ≠ 1 then s
  else
    let ours := decide (s.trainLeft.head? = some c.val)
    let s1 := (s.ddrTrainDone c code lane).smeDone 6 c
    if ours then s1.trainGoes else s1

/-! ## Device-wide resets (R495 to R497, R502, Table 17.4) -/

/-- The device-wide resets, in the order of GLB_RESET_CAUSE.cause. -/
inductive ResetKind where
  | power | rstN | watchdog | warm | tamper
  deriving DecidableEq, Repr

/-- The code of a cause (Table 17.10). -/
def ResetKind.cause : ResetKind → Nat
  | .power => 0 | .rstN => 1 | .watchdog => 2 | .warm => 3 | .tamper => 4

/-- The reset retains the near store (Table 17.4). -/
def ResetKind.retains : ResetKind → Bool
  | .rstN | .watchdog | .warm => true
  | .power | .tamper => false

/-- Registers that hold OTP or VBAT contents. -/
def fixedReg (a : Nat) : Bool :=
  [SEC_SERIAL_LO, SEC_SERIAL_HI, SEC_STATUS, SEC_TAMPER, SEC_ROLLBACK, SEC_TLOG_CNT, NET_MAC_LO 0, NET_MAC_HI 0, NET_MAC_LO 1,
    NET_MAC_HI 1, GLB_RESET_CAUSE].contains a || (decide (CAL + 0x3000 ≤ a) && decide (a < CAL + 0x4000))

/-- Registers that a warm reset keeps besides: the time base's state, the PDACs, user calibration values, the links. -/
def warmReg (a : Nat) : Bool :=
  [TMB_STATUS, TMB_PHASE_ERR, TMB_SLEW, TMB_HOLD_TIME, NET_PORT_STATUS 0, NET_PORT_STATUS 1].contains a ||
  (decide (CAL + 0x2000 ≤ a) && decide (a < CAL + 0x3000)) ||
  match locate a with
  | some (.pdc, _, _) | some (.pdcg, _, _) => true
  | _ => false

/-- A channel whose ranks are retained keeps what the short training needs (R376). -/
def State.retainReg (s : State) (a : Nat) : Bool :=
  (List.range 4).any fun c => decide (s.get (DMC_STATUS_state c) = 5) &&
    (decide (a = DMC_STATUS c) || decide (a = DMC_RETAIN c) || decide (a = DMC_CAPACITY c))

/-- The near store in a reset: retained as R376 gives, or lost. -/
def State.resetNear (s : State) (keep : Bool) : State :=
  (List.finRange 4).foldl (fun (a : State) (c : Fin 4) =>
    if !keep then ((a.zeroChan c).setDmc c {}).put (DMC_STATUS_state c) 0
    else if a.get (DMC_STATUS_state c) = 5 then a
    else
      let b := a.dmcDown c
      if b.get (DMC_STATUS_state c) = 5 then b else b.setDmc c {}) s

/-- Every register that Table 17.4 does not keep is at its reset value. -/
def State.resetFile (s : State) (k : ResetKind) : State :=
  s.resetRegs fun a =>
    !(fixedReg a || (decide (k = .warm) && warmReg a) || (decide (k ≠ .power) && decide (a = TMB_STATUS)) || s.retainReg a)

/-- What the blocks hold beside the registers is at reset; a warm reset keeps the time base and the PDACs. -/
def State.resetHidden (s : State) (k : ResetKind) : State :=
  let warm := decide (k = .warm)
  let x := s.sec
  { s with
    shadow := [], stagedLo := [], waits := [], csrWait := none, raised := []
    port := Vector.replicate 8 {}, seq := Vector.replicate 12 {}, acq := Vector.replicate 8 {}, tim := Vector.replicate 32 {}
    x7 := Vector.replicate 4 [], wfg := Vector.replicate 4 {}, pulses := [], fab := [], fabWait := []
    hop := Vector.replicate 7 {}, tagLast := Vector.replicate 6 30, outLast := Vector.replicate 6 (19, 30), dpl := Vector.replicate 12 {}
    pdac := if warm then s.pdac else Vector.replicate 16 {}
    tmb := if warm then s.tmb else {}
    voteQ := [], receipts := [], cs := {}, slk := {}, sch := {}, cxh := Vector.replicate 2 {}, cal := {}, sme := {}
    long := none, trainLeft := [], trainCodes := [], load := none, lineHold := none
    sec := { x with
      raiseFlags := if k = .power then 4 else x.raiseFlags, raiseTamper := if k = .power then 0 else x.raiseTamper
      keys := [], opening := none, closing := [], resetDue := false }
    net := { out := s.net.out }, evc := {}, pwr := {}, peb := Vector.replicate 8 {}
    jtag := if k = .power then {} else s.jtag
    boot := { flash := s.boot.flash } }

/-- The fields that a reset leaves of registers kept only in part. -/
def State.resetFields (s : State) (k : ResetKind) : State :=
  let s1 := ((s.put SEC_STATUS_jtag_open (if s.lifecycle = 0 then 1 else 0)).put SEC_STATUS_owner_lost 0).put SEC_TAMPER_active 0
  let s2 := if k = .warm then
      let up := fun (p : Nat) => if s.on (NET_PORT_STATUS_link p) then 1 else 0
      ((((s1.wn (NET_PORT_STATUS 0) (3 * up 0)).wn (NET_PORT_STATUS 1) (3 * up 1)).put NET_STATUS_a_link (up 0)).put
        NET_STATUS_b_link (up 1))
    else
      let freq := s.get TMB_STATUS_ref_freq
      let valid := s.get TMB_STATUS_ref_valid
      (((s1.wn TMB_STATUS 0).put TMB_STATUS_ref_freq freq).put TMB_STATUS_ref_valid valid)
  let s3 := (List.range 4).foldl (fun (a : State) c =>
    if s.get (DMC_STATUS_state c) = 5 then a.wn (DMC_STATUS c) 5 else a) s2
  if k = .power then s3.wn GLB_RESET_CAUSE 0
  else (s3.put GLB_RESET_CAUSE_cause k.cause).countF GLB_RESET_CAUSE_count

/-- A device-wide reset: Table 17.4, with SRAM zeroed and the cause recorded. -/
def State.deviceReset (s : State) (k : ResetKind) : State :=
  let s1 := (s.resetNear k.retains).zeroMem (bankBase 0) (48 * 0x200000)
  (((s1.resetFile k).resetHidden k).resetFields k).showLifecycle.showPolicy

/-- The reset is released: the boot ROM runs, and the TBPLL waits for the reference (Table 6.5). -/
def State.released (s : State) : State :=
  let s1 := if s.get TMB_STATUS_state = 0 then s.put TMB_STATUS_state 1 else s
  { s1 with boot := { s1.boot with stage := 1 } }

/-- Held in reset, or without power-good. -/
def State.atStage (s : State) (n : Nat) : State := { s with boot := { s.boot with stage := n } }

/-- The VBAT store's integrity check at power-on (R427). -/
def State.storeCheck (s : State) (ok : Bool) : State :=
  if ok then s
  else
    let s1 := { s with useTab := [] }.setSec { s.sec with owner := false, ork := 0, oak := [], polFlags := 0, polTamper := 0, credFloor := 0 }
    ((s1.put SEC_STATUS_lifecycle s1.lifecycle).showPolicy.put SEC_STATUS_owner_lost 1).ev 394

/-- POWER_ON_RESET: power-good is declared; REF_IN is measured (R222), the VBAT store checked, and a pending scorch applied
(Table 15.12). `freq`: the frequency selected, if any. -/
def State.powerOnReset (s : State) (freq : Option (Fin 4)) (storeOk : Bool) : State :=
  let s1 := (s.deviceReset .power).wn TMB_STATUS (match freq with | some f => 2 ^ 8 * f.val + 2 ^ 10 | none => 0)
  let s2 := s1.storeCheck storeOk
  let s3 := if s2.sec.scorchPending then s2.scorch else s2
  (s3.put SEC_STATUS_jtag_open (if s3.lifecycle = 0 then 1 else 0)).released

/-- POWER_FAIL: power-good falls, and a power-on reset begins (R519). -/
def State.powerFail (s : State) : State := ((s.deviceReset .power).wn TMB_STATUS 0).atStage 5

/-- RST_N_RESET: RST_N is low for `ns` (R495, R525). -/
def State.rstNReset (s : State) (ns : Nat) : State :=
  if ns < 100 ∨ s.boot.stage = 5 then s else (s.deviceReset .rstN).atStage 0

/-- RST_N_RELEASE. -/
def State.rstNRelease (s : State) : State := if s.boot.stage = 0 then s.released else s

/-- TAMPER_RESET: the last action of an ERASE or SCORCH response is complete (R501). -/
def State.tamperReset (s : State) : State :=
  if s.sec.resetDue ∧ s.sec.closing = [] then (s.deviceReset .tamper).released else s

/-- The warm reset that session `k` asked for (R498). -/
def State.warmReset (s : State) (k : Fin 8) : State :=
  let s1 := (List.finRange 8).foldl (fun (a : State) (j : Fin 8) =>
    if j ≠ k ∧ a.sessOpen j then (a.sendRaw j 0x13 0xFF 0 (closePayload 19)).sessEnd j 0 19 else a) s
  ((s1.stopUnits fun _ => true).deviceReset .warm).released

/-! ## The watchdog (R499) -/

/-- The watchdog's time-out in ms (Table 17.10). -/
def State.wdtMs (s : State) : Nat := max 100 (min 60000 (s.get GLB_WDT_CTL_timeout))

/-- The watchdog counts: READY was reached and it is enabled. -/
def State.wdtOn (s : State) : Bool := decide (s.boot.stage = 4) && s.on GLB_WDT_CTL_en

/-- One ms in units of 1/8192 ps. -/
def tuPerMs : Nat := 1000000 * tuPerNs

/-- WATCHDOG_SERVICE. -/
def State.wdtService (s : State) : State := { s with boot := { s.boot with serviced := s.tmb.clk } }

/-- WATCHDOG_HALF. -/
def State.wdtHalf (s : State) : State :=
  if s.wdtOn then (s.advanceTo (s.boot.serviced + s.wdtMs * tuPerMs / 2)).ev 507 else s

/-- WATCHDOG_RESET. -/
def State.wdtReset (s : State) : State :=
  if s.wdtOn then ((s.advanceTo (s.boot.serviced + s.wdtMs * tuPerMs)).deviceReset .watchdog).released else s

/-- The time to the watchdog's expiry in ms (GLB_WDT_LEFT). -/
def State.wdtLeft (s : State) : Nat := if s.wdtOn then s.wdtMs - (s.tmb.clk - s.boot.serviced) / tuPerMs else 0

/-! ## Quadrant resets (R500) -/

/-- A write of GLB_QRESET.go: the units of the quadrants stop, their locked regions are zeroed, their DPLs go to OFF. -/
def State.quadrantReset (s : State) (go : Nat) : State :=
  if s.load.isSome then s
  else
    let busy := s.get GLB_QRESET_busy
    let now := fun (q : Nat) => bit go q && !bit busy q
    let s1 := s.stopUnits now
    let s2 := (List.range 8).foldl (fun (a : State) p => if now (p / 2) then a.closeRegion p false else a) s1
    let s3 := (List.finRange 12).foldl (fun (a : State) (d : Fin 12) =>
      if now (if d.val < 8 then d.val / 2 else d.val - 8) then a.dplRunOff d else a) s2
    s3.put GLB_QRESET_busy (busy ||| ((List.range 4).map fun q => if now q then 2 ^ q else 0).sum)

/-- A register of the quadrant window that a quadrant reset returns to its reset value: not the PDACs, the TST tables, the
resampler coefficients and the TIM histograms (Table 17.4). -/
def quadReg (q a : Nat) : Bool :=
  decide (0x01000000 + 0x400000 * q ≤ a) && decide (a < 0x01400000 + 0x400000 * q) &&
  match locate a with
  | some (.pdc, _, _) | some (.pdcg, _, _) | some (.tst, _, _) | some (.tbins, _, _) => false
  | some (.acq, _, o) | some (.wfg, _, o) => decide (o < 0x8000)
  | _ => true

/-- QUADRANT_RESET_DONE. -/
def State.quadrantResetDone (s : State) (q : Fin 4) : State :=
  let busy := s.get GLB_QRESET_busy
  if !bit busy q then s
  else
    let p0 : Fin 8 := ⟨2 * q.val, by omega⟩
    let p1 : Fin 8 := ⟨2 * q.val + 1, by omega⟩
    let d0 : Fin 12 := ⟨2 * q.val, by omega⟩
    let d1 : Fin 12 := ⟨2 * q.val + 1, by omega⟩
    let s1 := ((((s.regionZeroed p0).regionZeroed p1).zeroRing d0).zeroRing d1).resetRegs (quadReg q)
    let s2 := (((s1.clearPort p0).clearPort p1).setAcq p0 {}).setAcq p1 {}
    let s3 := (List.finRange 32).foldl (fun (a : State) (t : Fin 32) => if t.val / 8 = q.val then a.setTim t {} else a) s2
    let s4 := ((((s3.clearWfg q).setDpl d0 {}).setDpl d1 {}).setDpl ⟨8 + q.val, by omega⟩ {})
    let s5 := ({ s4 with x7 := s4.x7.set q [] }.wn (EVC_LATCH (2 * q)) 0).wn (EVC_LATCH (2 * q + 1)) 0
    (s5.put GLB_QRESET_busy (busy - 2 ^ q.val)).ev 508

/-! ## The boot chain (R433, R481, R530) -/

/-- The CRC-32 of IEEE 802.3 over bytes. -/
def crc32Byte (c : Nat) (b : Byte) : Nat :=
  (List.range 8).foldl (fun (x : Nat) _ => if x % 2 = 1 then x / 2 ^^^ 0xEDB88320 else x / 2) (c ^^^ b.toNat)

def crc32 (l : List Byte) : Nat := l.foldl crc32Byte 0xFFFFFFFF ^^^ 0xFFFFFFFF

/-- A field of an image header (Table 15.6), little-endian. -/
def imageField (img : List Byte) (i n : Nat) : Nat := ofLe ((img.drop i).take n)

/-- What is wrong with an image of a kind (R433, Table 18.9): 0 nothing. What is no image of the kind counts as a failed flash read (log
entry 33); in SCORCHED a patch is not opened (R481). -/
def State.imageBad (s : State) (kind : Nat) (img : List Byte) : Nat :=
  let bad := s.imageSign img
  if img.length < 256 ∨ imageField img 0 4 ≠ 0x49465A45 ∨ imageField img 4 1 ≠ kind ∨ img.length < 256 + imageField img 12 4 then 5
  else if bad ≠ 0 then bad
  else if imageField img 8 1 < s.rollbackOf kind then 4
  else if kind = 3 ∧ s.lifecycle ≠ 3 ∧ (s.patchOf img).isNone then 6
  else 0

/-- The first image of a slot that fails, as stage and reason; the flash gives the images in the order of R529. -/
def State.slotBad (s : State) (l : List (List Byte)) : Option (Nat × Nat) :=
  [1, 2, 3].findSome? fun kind =>
    let r := s.imageBad kind (l.getD (kind - 1) [])
    if r = 0 then none else some (kind, r)

/-- The boot chain tries a slot: failed verifications count (R442), a rejected patch raises 434 (R481), and SEC_BOOT shows
the failure. -/
def State.trySlot (s : State) (n : Nat) (l : List (List Byte)) : State × Bool :=
  match s.slotBad l with
  | none => (s.authOk, true)
  | some (stage, reason) =>
    let s1 := if reason = 4 ∨ reason = 5 then s else s.authFail
    let s2 := s1.evIf (decide (stage = 3)) 434
    let word := stage + 2 ^ 4 * reason + bitsOf s.boot.secBoot 8 2 * 2 ^ 8
    ({ s2 with boot := { s2.boot with secBoot := word ||| 2 ^ (8 + n) } }, false)

/-- Put a value into the writable fields of a register, as the boot firmware loads it. -/
def State.loadReg (s : State) (a v : Nat) : State :=
  match regAt a with
  | some (_, _, _, r) => s.wn a (r.write (s.rn a) v)
  | none => s

/-- The boot firmware loads the registers of the configuration block, where magic, version and crc are right (Table 18.8). -/
def State.loadConfig (s : State) (l : List Byte) : State :=
  let u := fun (i : Nat) => ofLe ((l.drop i).take 4)
  if u 0 ≠ 0x46435A45 ∨ u 4 ≠ 1 ∨ u 76 ≠ crc32 (l.take 76) then s
  else
    let s1 := (List.range 4).foldl (fun (a : State) c => a.loadReg (DMC_CFG c) (u (8 + 4 * c))) s
    (List.range 2).foldl (fun (a : State) p =>
      let b := (a.loadReg (NET_PORT_CFG p) (u (24 + 4 * p))).loadReg (NET_IP4_ADDR p) (u (32 + 4 * p))
      (List.range 4).foldl (fun (c : State) i => c.loadReg (NET_IP6_ADDR p i) (u (40 + 16 * p + 4 * i))) b) s1

/-- The SME takes the patch, except in SCORCHED (R481). -/
def State.loadPatch (s : State) (img : List Byte) : State :=
  match if s.lifecycle = 3 then none else s.patchOf img with
  | none => s
  | some x =>
    let s0 := { s with sme := { s.sme with patch := x.words } }
    let s1 := ((s0.put SME_PATCH_version (imageField img 6 2)).put SME_PATCH_words x.words.length).put SME_PATCH_loaded 1
    let s2 := (List.range 32).foldl (fun (a : State) i =>
      match x.hits[i]? with
      | some (rom, target) => ((a.put (SME_MATCH_rom i) rom).put (SME_MATCH_target i) target).put (SME_MATCH_en i) 1
      | none => a) s1
    s2.ev 433

/-- The firmware of a slot runs: registers and patch are loaded, and DDR, Ethernet and CXL start (Table 17.5). -/
def State.bootSlot (s : State) (n : Nat) (l : List (List Byte)) (config : List Byte) : State :=
  let s1 := { s with boot := { s.boot with stage := 3, rollback := l.map fun (x : List Byte) => imageField x 8 1, serviced := s.tmb.clk } }.put GLB_STATE_slot n
  let s2 := ((s1.loadPatch (l.getD 2 [])).loadConfig config)
  let s3 := (List.finRange 2).foldl (fun (a : State) (p : Fin 2) => (a.takeCfg p).startAddr p) s2
  let s4 := (List.finRange 4).foldl (fun (a : State) (c : Fin 4) =>
    if a.get (DMC_STATUS_state c) = 0 ∧ a.trainRefused c = 0 then a.trainAt c else a) s3
  if s4.on CXH_CTL_en ∧ s4.domainOn 36 then s4.cxlTrain else s4

/-- BOOT_VERIFIED: the boot chain tries the slot with the higher boot-firmware version first (R433); where neither yields three
images it stays in the boot ROM. -/
def State.bootVerified (s : State) (slot0 slot1 : List (List Byte)) (config : List Byte) : State :=
  if s.boot.stage ≠ 1 then s
  else
    let ver := fun (l : List (List Byte)) => imageField (l.getD 0 []) 6 2
    let first := if ver slot0 < ver slot1 then 1 else 0
    let imgs := fun (n : Nat) => if n = 0 then slot0 else slot1
    let (s1, ok) := s.trySlot first (imgs first)
    if ok then s1.bootSlot first (imgs first) config
    else
      let (s2, ok2) := s1.trySlot (1 - first) (imgs (1 - first))
      if ok2 then s2.bootSlot (1 - first) (imgs (1 - first)) config else s2.atStage 2

/-- DEVICE_READY, `ms` after the reset's release (R503, R434, R420). -/
def State.deviceReady (s : State) (ms : Nat) : State :=
  if s.boot.stage ≠ 3 then s
  else
    let roll := fun (i old : Nat) => max old (s.boot.rollback.getD i 0 % 64)
    let s1 := ((s.put SEC_ROLLBACK_boot (roll 0 (s.get SEC_ROLLBACK_boot))).put
      SEC_ROLLBACK_house (roll 1 (s.get SEC_ROLLBACK_house))).put SEC_ROLLBACK_patch (roll 2 (s.get SEC_ROLLBACK_patch))
    let s2 := (((s1.put GLB_STATE_ready 1).put NET_STATUS_ready 1).put GLB_READY_MS_ms (min ms 0xFFFF)).ev 363
    let s3 := s2.evIf (decide (s.get GLB_RESET_CAUSE_cause ≠ 0)) 508
    ({ s3 with boot := { s3.boot with stage := 4 } }).wdtService

end Sys2Proof.Machine
end

