-- ==== Sys2Proof/Machine/Peb.lean ====
section
/-! DEFINITION. The pin-electronics buses (R505, R516, Table 18.4). -/

namespace Sys2Proof.Machine

def State.setPeb (s : State) (b : Fin 8) (x : PebH) : State := { s with peb := s.peb.set b x }

/-- The period of SCK in ns: 100 MHz divided by div + 1, where a div of 0 acts as 1 (Table 18.4). -/
def State.pebPeriod (s : State) (b : Fin 8) : Nat := 10 * (max 1 (s.get (PEB_CTL_div b)) + 1)

/-- A port of the bus's quadrant is in a secret-entry period (Table 15.10). -/
def State.pebSecret (s : State) (b : Fin 8) : Bool :=
  (List.finRange 8).any fun (p : Fin 8) => decide (p.val / 2 = b.val / 2) &&
    (s.port[p].secretOn || (s.portRuns p && s.seq[portUnit p].e.secret))

/-- PEB_STATUS.held: a transaction waits for a secret-entry period to end. -/
def State.pebHeld (s : State) (b : Fin 8) : Bool := s.on (PEB_STATUS_busy b) && s.peb[b].cs.isNone && s.pebSecret b

/-- PEB_READY: PE_READY_Nb has been low for 1 ms. -/
def State.pebReady (s : State) (b : Fin 8) : State := s.put (PEB_STATUS_ready b) 1

/-- PE_READY_HIGH: the bus finishes its present transaction and waits again. -/
def State.peReadyHigh (s : State) (b : Fin 8) : State := s.put (PEB_STATUS_ready b) 0

/-- A write of PEB_TXN (R516). -/
def State.pebTxn (s : State) (b : Fin 8) (v : Word) : State :=
  let go := bit v.toNat 31
  if s.on (PEB_STATUS_busy b) then (if go then s.put (PEB_STATUS_err b) 1 else s)
  else
    let n := bitsOf v.toNat 8 6
    let s1 := (s.put (PEB_TXN_cs b) (bitsOf v.toNat 0 3)).put (PEB_TXN_bytes b) n
    if !go then s1 else if n = 0 ∨ 32 < n then s1.put (PEB_STATUS_err b) 1 else s1.put (PEB_STATUS_busy b) 1

/-- PEB_TXN_START: the arbiter, ready and any secret period allow the transaction (R505, R516). -/
def State.pebStart (s : State) (b : Fin 8) : State :=
  if s.on (PEB_STATUS_busy b) && s.peb[b].cs.isNone && s.on (PEB_STATUS_ready b) && !s.pebSecret b then
    s.setPeb b { cs := some (s.get (PEB_TXN_cs b)), abort := false }
  else s

/-- Byte `k` of PEB_DATA. -/
def pebByte (b : Fin 8) (k : Nat) : Fld := ⟨PEB_DATA b (k / 4), 8 * (k % 4), 8⟩

/-- The bytes that a transaction sends (R516). -/
def State.pebSent (s : State) (b : Fin 8) : List Byte :=
  (List.range (s.get (PEB_TXN_bytes b))).map fun k => BitVec.ofNat 8 (s.get (pebByte b k))

/-- Received bytes take the places of the bytes sent. -/
def State.pebTake (s : State) (b : Fin 8) (rx : List Byte) : State :=
  (List.range (min rx.length (s.get (PEB_TXN_bytes b)))).foldl (fun (a : State) k => a.put (pebByte b k) (rx.getD k 0).toNat) s

/-- A running transaction ends with the bytes it has received: done after its last byte, else by the abort that waits. -/
def State.pebEnd (s : State) (b : Fin 8) (rx : List Byte) : State :=
  let x := s.peb[b]
  if x.cs.isNone then s
  else
    let full := decide (s.get (PEB_TXN_bytes b) ≤ rx.length)
    if !full && !x.abort then s
    else
      let s1 := ((s.pebTake b rx).setPeb b {}).put (PEB_STATUS_busy b) 0
      if full then s1.put (PEB_STATUS_done b) 1 else s1.put (PEB_STATUS_aborted b) 1

/-- A write of PEB_CTL: its divider, and an abort of a running transaction (R516). -/
def State.pebCtl (s : State) (b : Fin 8) (v : Word) : State :=
  let s1 := s.put (PEB_CTL_div b) (bitsOf v.toNat 0 4)
  if bit v.toNat 8 && s.peb[b].cs.isSome then s1.setPeb b { s.peb[b] with abort := true } else s1

/-- PEB_ABORT: the abort, and the end of the present byte with all bytes received until then. -/
def State.pebAbort (s : State) (b : Fin 8) (rx : List Byte) : State :=
  if s.peb[b].cs.isNone then s else (s.setPeb b { s.peb[b] with abort := true }).pebEnd b rx

end Sys2Proof.Machine
end

