-- ==== Sys2Proof/Machine/Jtag.lean ====
section
/-! DEFINITION. The test access port: the JTAG lock and the instructions of Table 18.9 (R450 to R452, R531, R532). -/

namespace Sys2Proof.Machine

def State.setJtag (s : State) (x : JtagH) : State := { s with jtag := x }

/-- The port is OPEN (R450). -/
def State.jtagOpen (s : State) : Bool := s.on SEC_STATUS_jtag_open

/-- An instruction is shifted in: in LOCKED, one that does not act is BYPASS (R450). -/
def State.jtagSelect (s : State) (code dr : Nat) : State :=
  if s.jtagOpen || [0x01, 0x20, 0x21, 0x22, 0xFF].contains code then s.setJtag { s.jtag with ir := code, dr := dr }
  else s.setJtag { s.jtag with ir := 0xFF, dr := 0 }

/-- EXTEST or SAMPLE/PRELOAD: the ball states are captured, and the boundary register is loaded (R531). -/
def State.jtagScan (s : State) (code : Nat) (balls load : BitVec 3507) : State :=
  let s1 := s.jtagSelect code balls.toNat
  if s.jtagOpen then s1.setJtag { s1.jtag with boundary := load } else s1

/-- What the balls with cells follow: 0 the system, 1 the boundary register, 2 high impedance. -/
def State.jtagDrives (s : State) : Nat :=
  if s.jtag.ir = 0x00 ∨ s.jtag.ir = 0x03 then 1 else if s.jtag.ir = 0x04 then 2 else 0

/-- SEC_CHALLENGE: each capture loads 48 fresh random bytes (R451). -/
def State.jtagChallenge (s : State) : State :=
  let (v, s1) := s.draw
  s1.setJtag { s1.jtag with ir := 0x20, dr := v.toNat, chal := some v }

/-- An unlock is refused (R452). -/
def State.unlockRefused (s : State) : Bool :=
  decide (s.lifecycle = 3) || bit (s.get SEC_POLICY_flags) 3 || s.on SEC_STATUS_sealed

/-- The signature over challenge, serial and "JTAG" verifies under the OAK or the provisioning key (R451). -/
def State.unlockSigned (s : State) (sig : List Byte) : Bool :=
  match s.jtag.chal with
  | none => false
  | some c => sigVerifies s.sec.authority (beBytes c.toNat 48 ++ s.serialBytes ++ beBytes 0x4A544147 4) sig

/-- SEC_UNLOCK: the signature, 96 bytes, over the latest challenge is judged (R451, R452). -/
def State.jtagUnlock (s : State) (sig : List Byte) : State :=
  let s1 := s.setJtag { s.jtag with ir := 0x21, chal := none }
  if s.unlockRefused then (s1.ev 402).fireInside 4
  else if !s.unlockSigned sig then (s1.authFail.ev 402).fireInside 4
  else
    let s2 := s1.authOk
    let s3 := if s2.lifecycle = 2 then ((s2.stopSecrets.endOpen 4).clearKeys).closeRegions else s2
    (s3.put SEC_STATUS_jtag_open 1).ev 403

end Sys2Proof.Machine
end

