-- ==== Sys2Proof/Machine/Registers.lean ====
section
/-! DEFINITION. Access to the CSR space: address errors (R52, R215, R533), 64-bit values (R53), what computed registers read,
and what a write of each register does (R43 and the register tables). A register whose write has a row of its own leads to
that row's operation. -/

namespace Sys2Proof.Machine

/-! ## Address errors and pairs -/

/-- The domain PLL whose clocks a register needs (R215): those of the PRT, TST and WFG blocks, and those of the port that an acquisition
engine is bound to (Table 1.2, X5 and X6). -/
def State.clockAt (s : State) (a : Nat) : Option (Fin 12) :=
  match locate a with
  | some (.acq, n, _) => some (Fin.ofNat 12 (s.cs.acqPort.getD n 0 % 8))
  | some (.prt, n, _) => some (Fin.ofNat 12 (n % 8))
  | some (.tst, n, _) => some (Fin.ofNat 12 (n % 8))
  | some (.wfg, m, _) => some (Fin.ofNat 12 (8 + m % 4))
  | _ => none

/-- The register's domain is off; a RETAINED channel keeps DMC_STATUS and DMC_RETAIN readable (R52, chapter 12). -/
def State.csrDark (s : State) (a : Nat) (write : Bool) : Bool :=
  match domainAt a with
  | none => false
  | some d =>
    !s.domainOn d &&
    !(!write && decide (32 ≤ d) && decide (d < 36) && decide (s.get (DMC_STATUS_state (d - 32)) = 5) &&
      (decide (a = DMC_STATUS (d - 32)) || decide (a = DMC_RETAIN (d - 32))))

/-- The clocks of a register's domain are gated (Table 6.4): an access waits until they resume (R215). -/
def State.clockWaits (s : State) (a : Nat) : Bool :=
  match s.clockAt a with
  | some d => decide (1 ≤ s.get (DPL_STATUS_state d)) && decide (s.get (DPL_STATUS_state d) ≤ 3)
  | none => false

/-- A write of run = 0 to an active port, which takes effect at once also in a relock pause (R158). -/
def State.stopsNow (s : State) (a : Nat) (v : Word) : Bool :=
  (List.finRange 8).any fun (p : Fin 8) => decide (a = PRT_SEQ_CTL p) && !bit v.toNat 0 && s.portActive p

/-- A write waits for the clocks of its domain (R215); that of run = 0 to an active port does not, for in a relock pause the stop takes
effect at once (R158). -/
def State.writeWaits (s : State) (a : Nat) (v : Word) : Bool :=
  s.clockWaits a && !s.stopsNow a v

/-- An access of a CSR completes with an address error (R52, R215). -/
def State.csrError (s : State) (a : Nat) (write : Bool) : Bool :=
  decide (a % 4 ≠ 0) || (regAt a).isNone || s.csrDark a write ||
  (match s.clockAt a with
  | some d => decide (s.get (DPL_STATUS_state d) = 7)
  | none => false)

/-- The low registers of 64-bit values (R53): block, offset, count, stride, and whether the host writes the value. -/
def pairTable : List (Blk × Nat × Nat × Nat × Bool) := [
  (.stc, 0x070, 1, 8, false), (.prt, 0x018, 1, 8, false), (.prt, 0x020, 1, 8, true), (.prt, 0x030, 1, 8, false),
  (.prt, 0x108, 1, 8, false), (.prt, 0x110, 1, 8, false), (.prt, 0x220, 1, 8, true), (.prt, 0x320, 2, 8, true),
  (.prt, 0x334, 1, 8, false), (.prt, 0x33C, 1, 8, false), (.prt, 0x360, 1, 8, false), (.prt, 0x418, 1, 8, false),
  (.dpl, 0x034, 1, 8, false), (.dpl, 0x044, 1, 8, false), (.tmb, 0x008, 1, 8, false), (.tmb, 0x020, 1, 8, true),
  (.acq, 0x034, 1, 8, true), (.acq, 0x04C, 1, 8, false), (.tim, 0x018, 1, 8, false), (.tim, 0x020, 1, 8, false),
  (.tim, 0x02C, 1, 8, false), (.wfg, 0x010, 1, 8, false), (.wfg, 0x018, 1, 8, true), (.wfg, 0x024, 1, 8, false),
  (.wfg, 0x0B4, 1, 8, true), (.slk, 0x018, 1, 8, true), (.sch, 0x200, 8, 32, true), (.sch, 0x218, 8, 32, false),
  (.dmc, 0x050, 1, 8, false), (.dmc, 0x060, 1, 8, false), (.dmc, 0x070, 1, 8, false), (.dmc, 0x080, 1, 8, true),
  (.cxh, 0x060, 1, 8, false), (.sec, 0x004, 1, 8, false), (.cal, 0x144, 1, 8, false),
  (.pwr, 0x000, 1, 8, false), (.pwr, 0x008, 1, 8, false)]

/-- The low register at an offset, and whether the host writes the value. -/
def pairAt (b : Blk) (o : Nat) : Option Bool :=
  (pairTable.find? fun x => decide (x.1 = b) && decide (x.2.1 ≤ o) && decide ((o - x.2.1) % x.2.2.2.1 = 0) &&
    decide ((o - x.2.1) / x.2.2.2.1 < x.2.2.1)).map fun x => x.2.2.2.2

/-! ## Reads -/

/-- The running long operation's elapsed time against its bound in ‰ (R414). -/
def State.longProgress (s : State) : Nat :=
  match s.long with
  | none => 0
  | some l => min 999 (1000 * (s.tmb.clk - l.at_) / (max 1 l.bound * tuPerMs))

/-- The time the long operation still has to its bound, in ms (R414). -/
def State.longLeft (s : State) : Nat :=
  match s.long with
  | none => 0
  | some l => max 1 (l.bound - (s.tmb.clk - l.at_) / tuPerMs)

/-- STC_OCT_OWNER[q] (Table 2.18). -/
def State.octOwnerWord (s : State) (q : Nat) : Nat :=
  ((List.range 8).map fun i => s.cs.octOwner.getD (8 * q + i) 0 * 4 ^ i).sum +
  2 ^ 16 * s.cs.site.getD (2 * q) 0 + 2 ^ 24 * s.cs.site.getD (2 * q + 1) 0

/-- STC_BANK_OWNER[k] (Table 2.19). -/
def State.bankOwnerWord (s : State) (k : Nat) : Nat :=
  ((List.range 4).map fun i => s.cs.bank.getD (4 * k + i) 0 * 256 ^ i).sum

/-- The domain of a quality or factory register's unit is off, so that it reads 0 (R483). -/
def State.calDark (s : State) (o : Nat) : Bool :=
  let off := fun (u : Nat) => match unitDomain u with
    | some d => !s.domainOn d
    | none => false
  if 0x1000 ≤ o ∧ o < 0x1400 then off ((o - 0x1000) / 4 / 16)
  else if 0x1400 ≤ o ∧ o < 0x1480 then off (16 + (o - 0x1400) / 4)
  else if 0x1480 ≤ o ∧ o < 0x1490 then off (48 + (o - 0x1480) / 4)
  else if 0x3000 ≤ o ∧ o < 0x3800 then off ((o - 0x3000) / 8 / 16)
  else if 0x3800 ≤ o ∧ o < 0x3880 then off (16 + (o - 0x3800) / 4)
  else if 0x3880 ≤ o ∧ o < 0x38A0 then off (48 + (o - 0x3880) / 8)
  else false

/-- Some latch of the event controller is set (Table 17.7). -/
def State.anyLatch (s : State) : Bool := (List.range 16).any fun k => decide (s.rn (EVC_LATCH k) ≠ 0)

/-- What a register shows: what it holds, or what the unit's present state makes it show. PRT_WINDOW while the port is stopped shows W and
Lmin at the base rate also before any commit, and ACQ_STG_FREE the free bytes of the share also before any arm, though their Reset columns
give other values (DESIGN CHOICE, log entry 3). -/
def State.csrView (s : State) (b : Blk) (u o a : Nat) : Nat :=
  let raw := s.rn a
  match b with
  | .stc =>
    if 0x030 ≤ o ∧ o < 0x040 then s.octOwnerWord ((o - 0x030) / 4)
    else if 0x040 ≤ o ∧ o < 0x070 then s.bankOwnerWord ((o - 0x040) / 4)
    else if o = 0x070 then s.cs.power % 2 ^ 32
    else if o = 0x074 then s.cs.power / 2 ^ 32
    else raw
  | .pwr => if o = 0x000 then s.cs.power % 2 ^ 32 else if o = 0x004 then s.cs.power / 2 ^ 32 else raw
  | .prt =>
    let p : Fin 8 := Fin.ofNat 8 u
    if o = 0x11C then s.cs.pinCount p
    else if o = 0x40C then (s.notePort p).rn a
    else if o = 0x050 ∧ !s.portRuns p then
      (s.word (portPll p)).rate.window + 2 ^ 16 * (s.word (portPll p)).rate.lmin
    else raw
  | .dpl =>
    let d : Fin 12 := Fin.ofNat 12 u
    if o = 0x01C then s.actWord d / 2 ^ 33 % 2 ^ 7
    else if o = 0x020 then s.actWord d / 2 % 2 ^ 32
    else raw
  | .tmb =>
    if o = 0x008 then s.stamp % 2 ^ 32
    else if o = 0x00C then s.stamp / 2 ^ 32
    else if o = 0x010 then s.tmb.epoch % 2 ^ 16
    else if o = 0x038 ∧ s.get TMB_STATUS_state = 5 then s.holdUs
    else if o = 0x034 then ofSigned 32 s.slewNow
    else raw
  | .acq =>
    let e : Fin 8 := Fin.ofNat 8 u
    if o = 0x078 then s.drainSize e
    else if o = 0x06C then s.stagingFree e
    else if o = 0x004 then bitsPut raw 20 1 (if s.stagedBytes e = 0 then 0 else 1)
    else raw
  | .timc => if 0x010 ≤ o ∧ o < 0x020 then s.rn (TIM_IN_THR 0 ((o - 0x010) / 4)) else raw
  | .sch => if o = 0x014 then bitsPut raw 16 4 (s.slotState (s.get SCH_SLOT_SEL_slot)) else raw
  | .dmc => if o = 0x07C ∧ s.on (DMC_STATUS_frozen u) then
      2 ^ 16 * min 384 (s.dmcQueue (Fin.ofNat 4 u)).length else raw
  | .peb =>
    let b : Fin 8 := Fin.ofNat 8 u
    if o = 0x008 then bitsPut (bitsPut raw 4 1 (if s.bitAt EVC_IN_STATE (8 + b) then 1 else 0)) 3 1 (if s.pebHeld b then 1 else 0)
    else raw
  | .cxh => if o = 0x038 then s.fab.countP fun t => decide (t.pool = 4) && !t.noTag else raw
  | .net =>
    if o = 0x020 then match s.long with
      | none => 0
      | some l => l.opcode + 2 ^ 16 * (l.sess % 8) + 2 ^ 20 * s.longProgress
    else if o = 0x024 then s.longLeft
    else if o = 0x10C ∨ o = 0x18C then
      let p : Fin 2 := if o = 0x10C then 0 else 1
      if bit s.net.port[p].cfg 2 then s.net.port[p].lease.getD 0 else raw
    else raw
  | .cal =>
    if 0x4000 ≤ o ∧ o < 0x4800 then
      let p := (o - 0x4000) / 8
      if o % 8 = 0 then s.t64Read p 0 + 2 ^ 16 * s.t64Read p 1 else s.t64Read p 2
    else if s.calDark o then 0
    else raw
  | .evc =>
    if o = 0x004 then (if s.alertLow then 1 else 0) + (if s.anyLatch then 2 else 0)
    else if 0x140 ≤ o ∧ o < 0x180 then s.alertPend ((o - 0x140) / 4)
    else raw
  | .glb => if o = 0x018 then s.wdtLeft else raw
  | _ => raw

/-- The high word of a 64-bit value is in the master's shadow (R53); TMB_NOW_LO latches the epoch too (Table 6.13). -/
def State.latchShadow (s : State) (m a hi : Nat) (ep : Option Nat) : State :=
  let rest := s.shadow.filter fun x => decide (x.1 ≠ m) || (decide (x.2.1 ≠ a + 4) && (ep.isNone || decide (x.2.1 ≠ a + 8)))
  { s with shadow := (m, a + 4, BitVec.ofNat 32 hi) :: (match ep with
      | some e => [(m, a + 8, BitVec.ofNat 32 e)]
      | none => []) ++ rest }

/-- A CSR read by master `m`: its value, if the access completes (R52, R53). A read of SCH_ALLOC allocates (R326). -/
def State.csrRead (s : State) (m a : Nat) : Option Word × State :=
  if s.csrError a false then (none, s)
  else match regAt a with
  | none => (none, s)
  | some (b, u, o, _) =>
    if a = SCH_ALLOC then
      let s1 := s.schAlloc
      (some (s1.rd SCH_ALLOC), s1)
    else match s.shadow.find? fun x => decide (x.1 = m) && decide (x.2.1 = a) with
    | some (_, _, v) => (some v, { s with shadow := s.shadow.filter fun x => decide (x.1 ≠ m) || decide (x.2.1 ≠ a) })
    | none =>
      let v := BitVec.ofNat 32 (s.csrView b u o a)
      if (pairAt b o).isSome then
        (some v, s.latchShadow m a (s.csrView b u (o + 4) (a + 4)) (if a = TMB_NOW_LO then some (s.csrView b u (o + 8) (a + 8)) else none))
      else (some v, s)

/-! ## Writes -/

/-- A write takes effect on the fields of a register by their access types alone (Table 0.4). -/
def State.plainWrite (s : State) (a : Nat) (r : Reg) (v : Word) : State := s.wn a (r.write (s.rn a) v.toNat)

/-- The high word of a 64-bit value is written: both words take effect (R53). -/
def State.pairWrite (s : State) (a : Nat) (r : Reg) (v : Word) : State :=
  ((s.unstage (a - 4)).wn (a - 4) (s.stagedLow (a - 4) (s.rn (a - 4)))).plainWrite a r v

/-- A write that leaves the bits `lo + w - 1 : lo` as they are. -/
def keepBits (s : State) (a lo w : Nat) (v : Word) : Word :=
  BitVec.ofNat 32 (bitsPut v.toNat lo w (bitsOf (s.rn a) lo w))

/-- A value of PRT_STRM_RING makes the ring overlap the port's locked region (R437). -/
def State.ringHits (s : State) (p : Fin 8) (v : Word) : Bool :=
  s.on (SEC_RK_REGION_locked p) &&
  decide (32 * (s.cs.banks p).length < bitsOf v.toNat 0 11 + s.get (SEC_RK_REGION_base p) + s.get (SEC_RK_REGION_size p))

/-- A write of PRT_SEQ_CTL (Table 4.11, R156, R158). -/
def State.seqCtl (s : State) (p : Fin 8) (v : Word) : State :=
  let s1 := s.portCtlFields p (bitsOf v.toNat 2 2) (bitsOf v.toNat 4 2)
  (if bit v.toNat 0 then s1.portRun p else s1.portStop p).syncSources

/-- A write of PRT_JUMP_HOST or WFG_JUMP_HOST (R142, R295): cancel applies over req (Table 4.19). -/
def State.jumpHost (s : State) (d : Fin 12) (v : Word) : State :=
  if bit v.toNat 1 then s.put (seqHostF d) 0
  else if bit v.toNat 0 then s.hostReq d
  else s

/-- A write of a PRT register. -/
def State.prtWrite (s : State) (p : Fin 8) (o a : Nat) (r : Reg) (v : Word) : State :=
  if o = 0x000 then s.seqCtl p v
  else if o = 0x040 then s.jumpHost (portPll p) v
  else if o = 0x100 then s.bandWrite p (bitsOf v.toNat 0 2)
  else if o = 0x200 then s.plainWrite a r (if bitsOf v.toNat 0 2 = 3 then keepBits s a 0 2 v else v)
  else if (0x300 ≤ o ∧ o < 0x330 ∨ o = 0x404) ∧ s.portActive p then s
  else if o = 0x300 ∧ s.ringHits p v then s
  else s.plainWrite a r v

/-- A write of DPL_CTL (Table 6.7, R236): dither and commit, reseed, then run. -/
def State.dplCtl (s : State) (d : Fin 12) (v : Word) : State :=
  let s1 := s.put (DPL_CTL_dither d) (bitsOf v.toNat 2 1)
  let s2 := if bit v.toNat 1 then s1.commitWord d else s1
  let s3 := if bit v.toNat 3 then s2.dplReseed d else s2
  if bit v.toNat 0 then s3.dplRun d else s3.dplRunOff d

/-- A write of a DPL register. -/
def State.dplWrite (s : State) (d : Fin 12) (o a : Nat) (r : Reg) (v : Word) : State :=
  if o = 0x000 then s.dplCtl d v
  else if o = 0x010 ∧ s.unitActive d then s
  else if o = 0x030 then
    let s1 := s.plainWrite a r (if 2 ≤ bitsOf v.toNat 0 2 then keepBits s a 0 2 v else v)
    if bit v.toNat 2 then s1.phaseReq d else s1
  else s.plainWrite a r v

/-- A write of a TMB register. -/
def State.tmbWrite (s : State) (o a : Nat) (r : Reg) (v : Word) : State :=
  if o = 0x014 ∧ bitsOf v.toNat 0 2 = 3 then s.plainWrite a r (keepBits s a 0 2 v)
  else if o = 0x02C then (if bit v.toNat 0 then s.trailheadArm else s)
  else s.plainWrite a r v

/-- A write of ACQ_CTL (R247, R260, R265). -/
def State.acqCtl (s : State) (e : Fin 8) (v : Word) : State :=
  let s1 := s.put (ACQ_CTL_stop_with_port e) (bitsOf v.toNat 2 1)
  let s2 := if bit v.toNat 0 then s1.acqArm e else s1.acqStop e
  (if bit v.toNat 1 then s2.acqForce e else s2).syncSources

/-- The registers that an engine in WAIT, POST or REARM does not take (R266). -/
def acqFixed (o : Nat) : Bool :=
  decide (8 ≤ o ∧ o < 0x04C) || decide (0x058 ≤ o ∧ o < 0x06C) || decide (0x8000 ≤ o)

/-- A write of an ACQ register. -/
def State.acqWrite (s : State) (e : Fin 8) (o a : Nat) (r : Reg) (v : Word) : State :=
  if o = 0x000 then s.acqCtl e v
  else if o = 0x074 then (s.drainRdWrite e v.toNat).syncSources
  else if acqFixed o ∧ s.acqRuns e then s
  else s.plainWrite a r v

/-- The channel is ARMED or MEAS. -/
def State.timActive (s : State) (t : Fin 32) : Bool :=
  decide (s.get (TIM_STATUS_state t) = 2) || decide (s.get (TIM_STATUS_state t) = 3)

/-- A write of TIM_CTL (R277 to R279): a change to DLL mode starts the DLL lock; `v1` and `v2` are the bracket pair that an arm
measures. -/
def State.timCtlPair (s : State) (t : Fin 32) (v : Word) (v1 v2 : BitVec 12) : State :=
  let x := v.toNat
  let s1 := if s.timActive t then s else
    let dll := bit x 1 && !s.on (TIM_CTL_mode t)
    let b := ((((s.put (TIM_CTL_mode t) (bitsOf x 1 1)).put (TIM_CTL_kind t) (bitsOf x 2 2)).put (TIM_CTL_edge t)
      (bitsOf x 4 2)).put (TIM_CTL_arm_src t) (bitsOf x 6 1)).put (TIM_CTL_partner t) (bitsOf x 8 3)
    if dll then b.put (TIM_STATUS_dll_locked t) 0 else b
  (if bit x 0 then s1.timArm t v1 v2 else s1.timStop t).syncSources

/-- A write of TIM_CTL whose bracket pair is not given: the pair is a free value (log entry 6). -/
def State.timCtl (s : State) (t : Fin 32) (v : Word) : State :=
  s.draw.2.timCtlPair t v (s.draw.1.extractLsb' 0 12) (s.draw.1.extractLsb' 12 12)

/-- A write of TIM_HIST_CTL (R279, R286). -/
def State.histCtl (s : State) (t : Fin 32) (a : Nat) (r : Reg) (v : Word) : State :=
  let s1 := s.plainWrite a r (if s.timActive t then keepBits s a 8 5 v else v)
  if bit v.toNat 1 then s1.timHistClear t else s1

/-- A write of a TIM register. -/
def State.timWrite (s : State) (t : Fin 32) (o a : Nat) (r : Reg) (v : Word) : State :=
  if o = 0x000 then s.timCtl t v
  else if o = 0x050 then s.histCtl t a r v
  else if (o = 0x008 ∨ o = 0x00C ∨ o = 0x054 ∨ o = 0x058) ∧ s.timActive t then s
  else s.plainWrite a r v

/-- A write of WFG_CTL (R298, R301). -/
def State.wfgCtl (s : State) (m : Fin 4) (v : Word) : State :=
  let x := v.toNat
  let s0 := (if bitsOf x 2 2 = 3 then s else s.put (WFG_CTL_start_mode m) (bitsOf x 2 2)).put (WFG_CTL_out_en m) (bitsOf x 4 1)
  let s1 := if bit x 4 then s0 else s0.wfgMarkers m 0 s.tmb.clk
  if bit x 0 then s1.wfgRun m else s1.wfgStop m

/-- The registers that an ARMED or RUNNING WFG does not take (chapter 09). -/
def wfgFixed (o : Nat) : Bool :=
  decide (0x044 ≤ o ∧ o < 0x064) || decide (0x0B0 ≤ o ∧ o < 0x0BC) || decide (0x8000 ≤ o)

/-- A write of a WFG register. -/
def State.wfgWrite (s : State) (m : Fin 4) (o a : Nat) (r : Reg) (v : Word) : State :=
  if o = 0x000 then s.wfgCtl m v
  else if o = 0x030 then s.jumpHost (wfgPll m) v
  else if wfgFixed o ∧ s.wfgActive m then s
  else s.plainWrite a r v

/-- A write of a PDC register; PDC_CTL.range is ignored while en is 1. -/
def State.pdcWrite (s : State) (u : Fin 16) (o a : Nat) (r : Reg) (v : Word) : State :=
  if o = 0x004 then s.pdacCode u (bitsOf v.toNat 0 16)
  else if o = 0x000 then
    (s.plainWrite a r (if s.on (PDC_CTL_en u) then keepBits s a 1 1 v else v)).setPdac u { s.pdac[u] with enAt := s.tbCycle }
  else s.plainWrite a r v

/-- A write of PDC_GLOAD: every group whose bit is 1 loads (R305). -/
def State.gload (s : State) (v : Word) : State :=
  (List.range 4).foldl (fun (a : State) g => if bit v.toNat g then a.pdacGroup g false else a) s

/-- A write of SLK_CTL (R311): position and members hold while en is 1. -/
def State.slkCtl (s : State) (v : Word) : State :=
  let x := v.toNat
  if s.on SLK_CTL_en then (if bit x 0 then s else s.slkDisable.x9All)
  else
    let s1 := (s.put SLK_CTL_position (bitsOf x 8 5)).put SLK_CTL_members (bitsOf x 16 6)
    if bit x 0 then s1.slkEnable else s1

/-- A write of an SLK register. -/
def State.slkWrite (s : State) (o a : Nat) (r : Reg) (v : Word) : State :=
  if o = 0x000 then s.slkCtl v
  else if o = 0x004 ∧ s.on SLK_CTL_en then s
  else if 0x080 ≤ o ∧ o < 0x0A0 ∧ s.portActive (Fin.ofNat 8 ((o - 0x080) / 4)) then s
  else if o = 0x024 then
    let s1 := s.plainWrite a r v
    if bit v.toNat 0 then s1.slkThSend else s1
  else s.plainWrite a r v

/-- A write of SCH_SUBMIT (R326, R336). -/
def State.schSubmit (s : State) (v : Word) : State :=
  let i := bitsOf v.toNat 0 13
  match bitsOf v.toNat 16 2 with
  | 1 => s.taskSubmit i
  | 2 => s.taskCancel i
  | 3 => s.slotReturn i
  | _ => s

/-- A write of SCH_FLOW_CFG[f] (R348): en = 0 is ignored while the flow holds a task. -/
def State.flowCfg (s : State) (f a : Nat) (r : Reg) (v : Word) : State :=
  let s1 := s.plainWrite a r (if bit v.toNat 0 = false ∧ s.flowHeld f ≠ 0 then keepBits s a 0 1 v else v)
  if bit v.toNat 1 then s1.flowReset f else s1

/-- Some Hamper is not released: its space is taken and it has no place in the release order (R348). -/
def State.hamperWaits (s : State) : Bool := s.sch.tasks.any fun x => decide (x.2.room ≠ 0) && x.2.hseq.isNone

/-- A write of an SCH register. -/
def State.schWrite (s : State) (o a : Nat) (r : Reg) (v : Word) : State :=
  if o = 0x00C then s.schSubmit v
  else if o = 0x018 ∧ s.hamperWaits then s
  else if 0x200 ≤ o ∧ o < 0x300 then
    let p : Fin 8 := Fin.ofNat 8 ((o - 0x200) / 32)
    if (o - 0x200) % 32 = 0x10 then s.fringRdWrite p v.toNat
    else if (o - 0x200) % 32 < 0x0C ∧ s.portActive p then s
    else s.plainWrite a r v
  else if 0x1000 ≤ o ∧ o % 16 = 0 then s.flowCfg ((o - 0x1000) / 16) a r v
  else s.plainWrite a r v

/-- A write of a DMC register (Tables 12.6 to 12.11). -/
def State.dmcWrite (s : State) (c : Fin 4) (o a : Nat) (r : Reg) (v : Word) : State :=
  if o = 0x000 then
    if s.get (DMC_STATUS_state c) = 1 then s
    else s.plainWrite a r (if bitsOf v.toNat 3 2 = 3 then keepBits s a 3 2 v else v)
  else if o = 0x07C then (if bit v.toNat 0 then s.freezeRelease c else s)
  else if o = 0x088 then
    let s1 := s.plainWrite a r v
    let op := bitsOf v.toNat 0 2
    if op = 1 ∨ op = 2 then s1.diagStart c op else s1
  else s.plainWrite a r v

/-- A write of CXH_CTL (R384, R386). -/
def State.cxhCtl (s : State) (a : Nat) (r : Reg) (v : Word) : State :=
  let busy := [0, 1].any fun (h : Nat) => [1, 3, 4].contains (s.get (CXH_LINK_state h))
  let kept := keepBits s a 0 1 (if busy then keepBits s a 16 13 (keepBits s a 1 4 v) else v)
  let s1 := s.plainWrite a r kept
  let s2 := if bit v.toNat 0 && !s.on CXH_CTL_en then s1.cxlEnable
    else if !bit v.toNat 0 && s.on CXH_CTL_en then s1.cxlDisable
    else s1
  if bit v.toNat 5 then s2.cxlReenum else s2

/-- A write of a CAL register (R461, R470). -/
def State.calWrite (s : State) (o a : Nat) (r : Reg) (v : Word) : State :=
  let x := v.toNat
  if o = 0x018 then (if bit x 31 then s.calRun (bitsOf x 0 7) else s)
  else if 0x4000 ≤ o ∧ o < 0x4800 then
    let p := (o - 0x4000) / 8
    if o % 8 = 0 then (s.t64Write p 0 (bitsOf x 0 16)).t64Write p 1 (bitsOf x 16 16) else s.t64Write p 2 (bitsOf x 0 16)
  else s.plainWrite a r v

/-- A write of a register of a block whose 64-bit values are already paired off. -/
def State.blkWrite (s : State) (b : Blk) (u o a : Nat) (r : Reg) (v : Word) : State :=
  match b with
  | .prt => s.prtWrite (Fin.ofNat 8 u) o a r v
  | .dpl => s.dplWrite (Fin.ofNat 12 u) o a r v
  | .tmb => s.tmbWrite o a r v
  | .acq => s.acqWrite (Fin.ofNat 8 u) o a r v
  | .tim => s.timWrite (Fin.ofNat 32 u) o a r v
  | .timc => if 0x010 ≤ o ∧ u ≠ 0 then s else s.plainWrite a r v
  | .wfg => s.wfgWrite (Fin.ofNat 4 u) o a r v
  | .pdc => s.pdcWrite (Fin.ofNat 16 u) o a r v
  | .pdcg => s.gload v
  | .slk => s.slkWrite o a r v
  | .sch => s.schWrite o a r v
  | .dmc => s.dmcWrite (Fin.ofNat 4 u) o a r v
  | .cxh => if o = 0x000 then s.cxhCtl a r v else s.plainWrite a r v
  | .net => if o = 0x000 then s.netCtl v.toNat else s.plainWrite a r v
  | .sec => if o = 0x010 then s.policyWrite v.toNat else s.plainWrite a r v
  | .cal => s.calWrite o a r v
  | .stc => if o = 0x080 then s.swStrobe (bitsOf v.toNat 0 8) else s.plainWrite a r v
  | .evc => if 0x100 ≤ o ∧ o < 0x140 then s.latchClear ((o - 0x100) / 4) v else s.plainWrite a r v
  | .glb => if o = 0x010 then s.quadrantReset (bitsOf v.toNat 0 4) else s.plainWrite a r v
  | .pwr => if o = 0x000 then s.pwrDomainWrite false v else if o = 0x004 then s.pwrDomainWrite true v else s.plainWrite a r v
  | .peb =>
    let k : Fin 8 := Fin.ofNat 8 u
    if o = 0x000 then s.pebCtl k v
    else if o = 0x004 then s.pebTxn k v
    else if 0x020 ≤ o ∧ s.on (PEB_STATUS_busy k) then s
    else s.plainWrite a r v
  | .sme | .tbins | .oct | .tst | .seg => s.plainWrite a r v

/-- The high word of a written 64-bit value. -/
def pairHigh (b : Blk) (o : Nat) : Bool := decide (4 ≤ o) && decide (pairAt b (o - 4) = some true)

/-- The port of a written 64-bit value that holds while the port is active: SCH_FRING_BASE and the tag tables (R201, chapter 11);
an active engine or WFG holds its resampler ratio (R266, chapter 09). -/
def State.pairHeld (s : State) (b : Blk) (u o : Nat) : Bool :=
  match b with
  | .prt => decide (0x300 ≤ o) && s.portActive (Fin.ofNat 8 u)
  | .sch => s.portActive (Fin.ofNat 8 ((o - 0x200) / 32))
  | .acq => s.acqRuns (Fin.ofNat 8 u)
  | .wfg => wfgFixed o && s.wfgActive (Fin.ofNat 4 u)
  | _ => false

/-- A CSR write that completes (R43, R53). -/
def State.csrPut (s : State) (b : Blk) (u o a : Nat) (r : Reg) (v : Word) : State :=
  if pairAt b o = some true then (if s.pairHeld b u o then s else s.stageLow a v)
  else if pairHigh b o then (if s.pairHeld b u o then s.unstage (a - 4) else s.pairWrite a r v)
  else s.blkWrite b u o a r v

/-- A CSR write (R43, R52): the state after it, if it completes. -/
def State.csrWrite (s : State) (a : Nat) (v : Word) : Option State :=
  if s.csrError a true then none
  else match regAt a with
  | none => none
  | some (b, u, o, r) => some (s.csrPut b u o a r v)

/-- A CSR write is made, or waits for the clocks of its domain (R215) or behind an earlier one that does (R17, R43); one that completes with an address error changes nothing. -/
def State.regWrite (s : State) (a : Nat) (v : Word) : State :=
  if s.csrError a true then s
  else if s.writeWaits a v || (decide (s.waits ≠ []) && !s.stopsNow a v) then { s with waits := s.waits ++ [(a, v)] }
  else (s.csrWrite a v).getD s

/-- The register writes that wait are made, in their order, where their clocks are back (R43, R215). -/
def State.heldWrites (s : State) : State := s.waits.foldl (fun (a : State) x => a.regWrite x.1 x.2) { s with waits := [] }

end Sys2Proof.Machine
end

