-- ==== Sys2Proof/Machine/Mgmt.lean ====
section
/-! DEFINITION. What Amiuc requests do: the management commands of Table 14.8, long operations (R414, Table 14.9), the security
commands of Table 15.13, and the bulk channels (R415, R416). -/

namespace Sys2Proof.Machine

/-! ## Long operations (R414) -/

/-- An SRAM image lies wholly within the SRAM region (R414, Table 1.6). -/
def inSram (addr len : Nat) : Bool := decide (bankBase 0 ≤ addr) && decide (addr + len ≤ bankBase 48)

/-- A long operation is accepted: it occupies the management channel (R414). -/
def State.longBegin (s : State) (k : Fin 8) (opcode tag seq bound : Nat) : State :=
  ({ s with long := some {
      opcode := opcode, sess := k, sid := s.rn (NET_SESS_SID k), tag := tag, seq := seq, at_ := s.tmb.clk, bound := bound } }.put
    NET_STATUS_long_op 1).ev 360

/-- The bound of SCRUB_FULL: 2 s and 0.25 s per GiB fitted (Table 14.9). -/
def State.scrubBound (s : State) : Nat :=
  2000 + 125 * ((List.range 4).map fun c => s.get (DMC_CAPACITY_units c)).sum / 2

/-- LONG_OP_END: the operation replies once, records its result and raises source 361. -/
def State.longEnd (s : State) : State :=
  match s.long with
  | none => s
  | some l =>
    match l.outcome with
    | none => s
    | some (result, data) =>
      let s1 := (({ s with long := none }.put NET_STATUS_long_op 0).wn NET_LONG_RESULT result).ev 361
      if h : l.sess < 8 then s1.reply ⟨l.sess, h⟩ l.opcode (if result = 0 then 0 else 18) l.tag l.seq result data else s1

/-! ## Short commands (R413) -/

/-- The results of PROBE (Table 14.8). -/
def State.probeResults (s : State) : List Byte :=
  [if s.boot.stage = 4 then 1 else 0, BitVec.ofNat 8 s.lifecycle] ++
  beBytes (match s.long with | none => 0 | some l => l.opcode) 2 ++ beBytes s.longProgress 2 ++ beBytes (s.get GLB_ID_stepping) 2 ++
  beBytes s.longLeft 4 ++ [BitVec.ofNat 8 (s.get NET_STATUS_open), 0, 0, 0]

/-- The accesses of a CSR command by master `m`, in order, up to the first that errs or waits for clocks (R43, R215, R413): the values
read, the accesses that are left, and how many are made. -/
def State.csrSteps (m : Nat) (write : Bool) : List (Nat × Nat) → State → Nat → List Byte → List Byte × List (Nat × Nat) × Nat × State
  | [], s, i, acc => (acc, [], i, s)
  | x :: l, s, i, acc =>
    if s.csrError x.1 write || (if write then s.writeWaits x.1 (BitVec.ofNat 32 x.2) else s.clockWaits x.1) then (acc, x :: l, i, s)
    else if write then State.csrSteps m write l ((s.csrWrite x.1 (BitVec.ofNat 32 x.2)).getD s) (i + 1) acc
    else State.csrSteps m write l (s.csrRead m x.1).2 (i + 1) (acc ++ beBytes ((s.csrRead m x.1).1.getD 0).toNat 4)

/-- The reply of a CSR command, where its session can still take it. -/
def State.csrReply (s : State) (w : CsrWait) (status info : Nat) (data : List Byte) : State :=
  if h : w.sess < 8 then s.reply ⟨w.sess, h⟩ (if w.write then 3 else 2) status w.tag w.seq info data else s

/-- A CSR command begins or goes on: it ends after its last access or at the first address error, or waits for clocks (R215). Writes
that waited for a clock that one of its own brings back are made. -/
def State.csrCmd (s : State) (w : CsrWait) : State :=
  let r := State.csrSteps w.sess w.write w.items s w.index w.acc
  let s1 := r.2.2.2
  let s2 := if w.write then s1.heldWrites else s1
  match r.2.1 with
  | [] => s2.csrReply w 0 0 r.1
  | x :: _ =>
    if s1.csrError x.1 w.write then s2.csrReply w 6 r.2.2.1 r.1
    else { s2 with csrWait := some { w with items := r.2.1, index := r.2.2.1, acc := r.1 } }

/-- The items of CSR_WRITE: address, value and 4 bytes of 0 each; none where the form is bad. -/
def csrItems : Nat → List Byte → Option (List (Nat × Nat))
  | 0, l => if l = [] then some [] else none
  | n + 1, l =>
    if l.length < 16 ∨ argBe l 12 4 ≠ 0 then none
    else (csrItems n (l.drop 16)).map fun r => (argBe l 0 8, argBe l 8 4) :: r

/-- CSR_READ (addr, n). -/
def State.cmdCsrRead (s : State) (k : Fin 8) (tag seq : Nat) (l : List Byte) : State :=
  if l.length ≠ 12 then s.reply k 2 3 tag seq 0 []
  else if argBe l 8 4 < 1 ∨ 256 < argBe l 8 4 then s.reply k 2 5 tag seq 0 []
  else
    s.csrCmd { sess := k, tag := tag, seq := seq, write := false, items := (List.range (argBe l 8 4)).map fun i => (argBe l 0 8 + 4 * i, 0) }

/-- CSR_WRITE (n, items). -/
def State.cmdCsrWrite (s : State) (k : Fin 8) (tag seq : Nat) (l : List Byte) : State :=
  if l.length < 8 ∨ argBe l 4 4 ≠ 0 then s.reply k 3 3 tag seq 0 []
  else if argBe l 0 4 < 1 ∨ 256 < argBe l 0 4 then s.reply k 3 5 tag seq 0 []
  else
    match csrItems (argBe l 0 4) (l.drop 8) with
    | none => s.reply k 3 3 tag seq 0 []
    | some items => s.csrCmd { sess := k, tag := tag, seq := seq, write := true, items := items }

/-- GET_CERT (offset, len): the chain's length and up to `len` bytes of it. -/
def State.cmdGetCert (s : State) (k : Fin 8) (tag seq : Nat) (l : List Byte) : State :=
  if l.length ≠ 8 then s.reply k 4 3 tag seq 0 []
  else if 8172 < argBe l 4 4 then s.reply k 4 5 tag seq 0 []
  else s.reply k 4 0 tag seq 0 (beBytes Config.certChain.length 4 ++ ((Config.certChain.drop (argBe l 0 4)).take (argBe l 4 4)))

/-- WARM_RESET: the reply, whose acknowledgement applies the reset (R498). -/
def State.cmdWarmReset (s : State) (k : Fin 8) (tag seq : Nat) (l : List Byte) : State :=
  if l ≠ [] then s.reply k 5 3 tag seq 0 []
  else
    let n := (s.chan k 0).tx + (s.chan k 0).queue.length
    (s.setSess k { s.net.sess[k] with warm := some (n % 2 ^ 32) }).reply k 5 0 tag seq 0 []

/-- STRUCT_LOAD, FW_UPDATE or ENROL: an SRAM address and length (R414). -/
def State.cmdImage (s : State) (k : Fin 8) (opcode tag seq : Nat) (l : List Byte) (bound : Nat)
    (go : State → Nat → Nat → State) : State :=
  if l.length ≠ 12 then s.reply k opcode 3 tag seq 0 []
  else if !inSram (argBe l 0 8) (argBe l 8 4) then s.reply k opcode 5 tag seq 0 []
  else go (s.longBegin k opcode tag seq bound) (argBe l 0 8) (argBe l 8 4)

/-- CAL_FULL, SCRUB_FULL or ZEROIZE. -/
def State.cmdPlain (s : State) (k : Fin 8) (opcode tag seq : Nat) (l : List Byte) (bound : Nat) (go : State → State) : State :=
  if l ≠ [] then s.reply k opcode 3 tag seq 0 [] else go (s.longBegin k opcode tag seq bound)

/-- DDR_FULL_TRAIN (mask), the mask as a word of four bytes. -/
def State.cmdTrain (s : State) (k : Fin 8) (tag seq : Nat) (l : List Byte) : State :=
  let mask := argBe l 0 4
  if l.length ≠ 4 then s.reply k 0x11 3 tag seq 0 []
  else if 15 < mask then s.reply k 0x11 5 tag seq 0 []
  else (s.longBegin k 0x11 tag seq (800 * ((List.range 4).countP fun c => bit mask c))).fullTrain mask

/-- A security command without arguments (Table 15.13). -/
def State.secBare (s : State) (k : Fin 8) (opcode tag seq : Nat) (l : List Byte) (go : State) : State :=
  if l ≠ [] then s.secReply k opcode tag seq 7 [] else go

/-- The security commands of Table 15.13. -/
def State.secCommand (s : State) (k : Fin 8) (opcode tag seq : Nat) (l : List Byte) : State :=
  match opcode with
  | 0x30 => s.secBare k opcode tag seq l (s.getOwner k tag seq)
  | 0x31 => s.secBare k opcode tag seq l (s.getChallenge k tag seq)
  | 0x32 => s.loadKey k tag seq l
  | 0x33 => s.clearKey k tag seq l
  | 0x34 => s.rucksackOpen k tag seq l
  | 0x35 => s.rucksackClose k tag seq l
  | 0x36 => s.secBare k opcode tag seq l (s.getReceipt k tag seq)
  | 0x37 => s.tamperLog k tag seq l
  | 0x38 => s.setPolicy k tag seq l
  | 0x39 => s.unseal k tag seq l
  | 0x3A => s.release k tag seq l
  | _ => s

/-- The commands of Tables 14.8 and 14.9 that are not security commands. -/
def State.mgmtCommand (s : State) (k : Fin 8) (opcode tag seq : Nat) (l : List Byte) (flashOk : Bool) : State :=
  match opcode with
  | 1 => if l ≠ [] then s.reply k 1 3 tag seq 0 [] else s.reply k 1 0 tag seq 0 s.probeResults
  | 2 => s.cmdCsrRead k tag seq l
  | 3 => s.cmdCsrWrite k tag seq l
  | 4 => s.cmdGetCert k tag seq l
  | 5 => s.cmdWarmReset k tag seq l
  | 0x10 => s.cmdImage k opcode tag seq l 2500 fun a x n => a.structLoad x n
  | 0x11 => s.cmdTrain k tag seq l
  | 0x12 => s.cmdPlain k opcode tag seq l 4000 fun a => a.calFull
  | 0x13 => s.cmdImage k opcode tag seq l 60000 fun a x n => a.fwUpdate x n flashOk
  | 0x14 => s.cmdPlain k opcode tag seq l s.scrubBound fun a => a.scrubFull
  | 0x15 => s.cmdImage k opcode tag seq l 5000 fun a x n => a.enrol x n
  | 0x16 => s.cmdPlain k opcode tag seq l 1000 fun a => a.zeroize
  | _ => s

/-- The opcodes of Tables 14.8, 14.9 and 15.13. -/
def opcodeKnown (o : Nat) : Bool :=
  (decide (1 ≤ o) && decide (o ≤ 5)) || (decide (0x10 ≤ o) && decide (o ≤ 0x16)) || (decide (0x30 ≤ o) && decide (o ≤ 0x3A))

/-- The permission that an opcode other than a security command needs (R431). -/
def opcodePerm (o : Nat) : Option Nat :=
  if o = 2 ∨ o = 3 ∨ o = 5 ∨ o = 0x10 ∨ o = 0x11 ∨ o = 0x12 ∨ o = 0x14 then some 0
  else if o = 0x13 ∨ o = 0x15 ∨ o = 0x16 then some 2
  else none

/-- A request of the management channel is executed (R412 to R414, R431, R445). -/
def State.request (s : State) (k : Fin 8) (x : RxItem) : State :=
  let l := x.payload
  let opcode := argBe l 0 2
  let tag := argBe l 4 4
  if s.long.isSome then s.reply k opcode 1 tag x.seq s.longLeft (if opcode = 1 then s.probeResults else [])
  else if l.length < 8 ∨ argBe l 2 2 ≠ 0 then s.reply k opcode 3 tag x.seq 0 []
  else if !opcodeKnown opcode then s.reply k opcode 4 tag x.seq 0 []
  else if s.net.sess[k].limited ∧ opcode ≠ 1 ∧ opcode ≠ 4 ∧ opcode < 0x30 then s.reply k opcode 7 tag x.seq 3 []
  else if 0x30 ≤ opcode then s.secCommand k opcode tag x.seq (l.drop 8)
  else match opcodePerm opcode with
  | some p =>
    if s.holdsPerm k p then s.mgmtCommand k opcode tag x.seq (l.drop 8) x.flashOk
    else s.reply k opcode 7 tag x.seq 2 []
  | none => s.mgmtCommand k opcode tag x.seq (l.drop 8) x.flashOk

/-! ## Bulk channels (R415, R416) -/

/-- A sub-header of the device (R415), with the data that follow. -/
def bulkFrame (op status tag len addr : Nat) (data : List Byte) : List Byte :=
  [BitVec.ofNat 8 op, BitVec.ofNat 8 status] ++ beBytes tag 2 ++ beBytes len 4 ++ beBytes addr 8 ++ data

/-- The line of a management address is near store: its channel. -/
def nearChan (a : Nat) : Option (Fin 4) :=
  if h : nearBase 0 ≤ a ∧ (a - nearBase 0) / 0x2000000000 < 4 then some ⟨(a - nearBase 0) / 0x2000000000, h.2⟩ else none

/-- The lines with errors that an access of `n` bytes at `a` covers, in address order. -/
def RxItem.badIn (x : RxItem) (a n : Nat) : List (Nat × Nat) :=
  x.bad.filter fun y => decide (y.2 ≠ 0) && decide (a < lineOf y.1 + 64) && decide (lineOf y.1 < a + n)

/-- What the near store returns for a line with errors: its channel and its codewords. -/
def State.badLine (s : State) (y : Nat × Nat) : Option (Fin 4 × List CwRead) :=
  (nearChan y.1).map fun c => (c, s.lineRead c (lineOf y.1) (BitVec.ofNat 640 y.2))

/-- A line with errors is lost to a read: uncorrectable or poisoned. -/
def State.lineLost (s : State) (y : Nat × Nat) : Bool :=
  match s.badLine y with
  | some (_, l) => decide (uncorrectables l ≠ 0)
  | none => true

/-- The first near-store line of a list with an uncorrectable error that the access has not met yet (R372). -/
def State.unmet (s : State) (x : RxItem) (l : List (Nat × Nat)) : Option (Nat × Nat) :=
  l.find? fun y => (nearChan y.1).isSome && s.lineLost y && !x.met.contains (y.1 / 64)

/-- The lines of a write that it covers in part of a codeword: the controller reads them first (R360). -/
def mergedLines (x : RxItem) (a n : Nat) : List (Nat × Nat) :=
  (x.badIn a n).filter fun y =>
    (nearChan y.1).isSome && !x.met.contains (y.1 / 64) &&
    ((decide (a % 8 ≠ 0) && decide (lineOf y.1 = lineOf a)) || (decide ((a + n) % 8 ≠ 0) && decide (lineOf y.1 = lineOf (a + n - 1))))

/-- The corrected codewords of the near-store lines of a list are counted and recorded (R359). -/
def State.correctLines (s : State) (req op : Nat) (l : List (Nat × Nat)) : State :=
  l.foldl (fun (a : State) y => match s.badLine y with
    | some (c, r) => a.correctAll c y.1 req op (corrections r)
    | none => a) s

/-- The bytes that a line of the access returns: zeros where it is lost (R416). -/
def State.bulkByte (s : State) (x : RxItem) (a : Nat) : Byte :=
  match x.bad.find? fun y => decide (y.2 ≠ 0) && decide (y.1 / 64 = a / 64) with
  | none => s.byte a
  | some y =>
    match s.badLine y with
    | some (_, l) =>
      if uncorrectables l ≠ 0 then 0
      else BitVec.ofNat 8 ((s.readData (lineOf a) (BitVec.ofNat 640 y.2) l).toNat >>> (8 * (a % 64)))
    | none => 0

/-- The bytes of a READ_DATA frame. -/
def State.bulkData (s : State) (x : RxItem) (a n : Nat) : List Byte := (List.range n).map fun i => s.bulkByte x (a + i)

/-- The READ_DATA frames of a read, in address order; each ends at a line's end (R416). -/
def State.readFrames (s : State) (x : RxItem) (tag : Nat) : Nat → Nat → Nat → List (List Byte)
  | 0, _, _ => []
  | fuel + 1, a, n =>
    if n = 0 then []
    else
      let m := min n (8128 - a % 64)
      bulkFrame 3 (if (x.badIn a m).any s.lineLost then 14 else 0) tag m a (s.bulkData x a m) :: s.readFrames x tag fuel (a + m) (n - m)

/-- Far-store lines that a read finds poisoned are counted and recorded (R390). -/
def State.poisoned (s : State) (req : Nat) (l : List (Nat × Nat)) : State :=
  l.foldl (fun (a : State) y =>
    if farBase ≤ y.1 then
      ((a.count CXH_POISON_CNT).cxlErr 1
        { req := req, pool := 4, line := y.1 / 64 * 64, write := none, shared := false, dest := .other, answer := none }).ev 325
    else a) s

/-- A write to the near store ends the diagnostic pattern of a line it covers. -/
def State.unpattern (s : State) (a n : Nat) : State :=
  match nearChan a with
  | none => s
  | some c => s.setDmc c { s.dmc[c] with
      patterned := s.dmc[c].patterned.filter fun y => !(decide (a < y.1 + 64) && decide (y.1 < a + n)) }

/-- The answer to a bulk request that fails: a WRITE_DONE, or a READ_DATA with length 0. -/
def State.bulkFail (s : State) (k : Fin 8) (c : Fin 7) (op status tag addr : Nat) : State :=
  s.enqueue k c (bulkFrame op status tag 0 addr [])

/-- A bulk access meets an uncorrectable near-store line: the channel freezes, and the access waits for its release (R360, R372, R416). -/
def State.bulkFreeze (s : State) (k : Fin 8) (c : Fin 7) (x : RxItem) (req op : Nat) (y : Nat × Nat) : Option State :=
  (s.badLine y).map fun (ch, l) =>
    let h := s.chan k c
    (((s.setChan k c { h with todo := { x with met := y.1 / 64 :: x.met } :: h.todo }).correctAll ch y.1 req op (corrections l)).freeze ch
      (lineOf y.1) req op (uncorrectables l) (decide (corrections l ≠ [])))

/-- The bytes of a write as the near store keeps them: errors that the reads of R360 neither saw nor undid stay in the lines they merge. -/
def State.mergedWrite (s : State) (l : List (Nat × Nat)) (a : Nat) (data : List Byte) : State :=
  (l.foldl (fun (b : State) y => match s.badLine y with
    | some (_, r) => b.setLine y.1 (s.readData (lineOf y.1) (BitVec.ofNat 640 y.2) r)
    | none => b) s).setBytes a data

/-- The request at the head of a bulk channel: executed, or none where it waits for a frozen or training channel, a tag, or earlier
requests (R29, R361, R362). -/
def State.bulkStep (s : State) (k : Fin 8) (c : Fin 7) (x : RxItem) : Option State :=
  let l := x.payload
  let op := argBe l 0 1
  let tag := argBe l 2 2
  let len := argBe l 4 4
  let addr := argBe l 8 8
  let answer := if op = 2 then 3 else 4
  let req := 27 + s.get (NET_SESS_STATUS_port k)
  if l.length < 16 ∨ (op ≠ 1 ∧ op ≠ 2) ∨ (op = 1 ∧ l.length ≠ 16 + len) ∨ (op = 2 ∧ l.length ≠ 16) then
    some (s.bulkFail k c answer 3 tag addr)
  else if !s.holdsPerm k 0 || s.net.sess[k].limited then some (s.bulkFail k c answer 7 tag addr)
  else if addr % 4 ≠ 0 ∨ len % 4 ≠ 0 ∨ (op = 2 ∧ (len = 0 ∨ 0x1000000 < len)) then some (s.bulkFail k c answer 5 tag addr)
  else match s.memStatus addr len with
  | some st => some (s.bulkFail k c answer st tag addr)
  | none =>
    let errs := if op = 1 then mergedLines x addr len else x.badIn addr len
    if s.memWaits addr len || !s.mayMove req addr len || !s.mayMove req (addr + len - 1) 1 then none
    else match s.unmet x errs with
    | some y => s.bulkFreeze k c x req (if op = 1 then 1 else 0) y
    | none =>
      let s1 := s.correctLines req (if op = 1 then 1 else 0) (errs.filter fun y => !x.met.contains (y.1 / 64))
      if op = 1 then
        let s2 := (s1.mergedWrite errs addr (l.drop 16)).unpattern addr len
        some (if bit (argBe l 1 1) 0 then s2.enqueue k c (bulkFrame 4 0 tag 0 addr []) else s2)
      else
        some ((s.readFrames x tag (len / 4032 + 2) addr len).foldl (fun (a : State) f => a.enqueue k c f)
          (s1.poisoned req (x.badIn addr len)))

/-- Execute what waits on the channels of every session, while something can be executed (R413, R416): management commands one at a
time, in sequence order, the sessions round-robin as CSR_PORT grants them (R35); a RUCKSACK_OPEN in progress and a CSR command that waits for clocks hold the next one. -/
def State.netRun : Nat → State → State
  | 0, s => s
  | fuel + 1, s =>
    let ready := (List.range 8).filter fun n => decide ((s.chan (Fin.ofNat 8 n) 0).todo ≠ []) && s.sec.opening.isNone && s.csrWait.isNone
    match rrFirst s.net.csrLast ready with
    | some n =>
      let k := Fin.ofNat 8 n
      match (s.chan k 0).todo with
      | x :: l => State.netRun fuel (({ s with net := { s.net with csrLast := n } }.setChan k 0 { s.chan k 0 with todo := l }).request k x)
      | [] => s
    | none =>
      let next := ((List.finRange 8).flatMap fun (k : Fin 8) => [(k, (1 : Fin 7)), (k, 2), (k, 3), (k, 4)]).findSome? fun y =>
        match (s.chan y.1 y.2).todo with
        | x :: l => (s.setChan y.1 y.2 { s.chan y.1 y.2 with todo := l }).bulkStep y.1 y.2 x
        | [] => none
      match next with
      | some s1 => State.netRun fuel s1
      | none => s

/-- The requests that wait on all channels, and the lines their reads may still meet. -/
def State.netFuel (s : State) : Nat :=
  1 + ((List.finRange 8).flatMap fun (k : Fin 8) => (List.finRange 7).map fun c =>
    ((s.chan k c).todo.map fun x => 1 + x.bad.length).sum).sum

/-- Execute what can be executed. -/
def State.netGo (s : State) : State := State.netRun s.netFuel s

end Sys2Proof.Machine
end

