-- ==== Sys2Proof/Machine/Jobs.lean ====
section
/-! DEFINITION. What the job kinds of the result cores compute (R341 to R347, Tables 11.4 to 11.9): the records of a Hamper. -/

namespace Sys2Proof.Machine

/-- A record of Table 11.9: its header and a body padded with zeros to a multiple of 8. -/
def record (type : Nat) (body : List Byte) : List Byte :=
  let b := body ++ List.replicate ((8 - body.length % 8) % 8) 0
  leBytes type 2 ++ leBytes 0 2 ++ leBytes b.length 4 ++ b

/-- What a job gives: its records, how many, its status of Table 11.7, whether the spectrum is missing, and the state with what the job wrote. -/
structure JobOut where
  body : List Byte
  records : Nat
  status : Nat := 0
  partialSpec : Bool := false
  s : State

/-- A job that fails with a status of 3 to 7 carries one ERROR record (R352). -/
def jobError (s : State) (status addr : Nat) : JobOut := { body := errorRecord status 0 addr, records := 1, status := status, s := s }

/-! ## Fail records (R342) -/

/-- The failing pins and the vector number of a fail record. -/
def recPins (r : List Byte) : Nat := bytesBits r 8 0 64
def recVector (r : List Byte) : Nat := bytesBits r 0 0 64

/-- FAIL_COUNT. -/
def State.jobFailCount (s : State) (t : Task) : JobOut :=
  let l := s.failItems t
  let n := s.cs.pinCount (t.d.wsrc % 8)
  let counts := (List.range n).flatMap fun i => leBytes (l.countP fun r => bit (recPins r) i) 4
  { body := record 1 (leBytes l.length 4 ++ leBytes (l.countP recOverflow) 4 ++ leBytes n 4 ++ leBytes 0 4 ++ counts)
    records := 1, s := s }

/-- FIRST_FAIL. -/
def State.jobFirstFail (s : State) (t : Task) : JobOut :=
  let l := s.failItems t
  let k := bytesBits t.param 0 0 8
  let mask := bytesBits t.param 8 0 64
  let kept := (l.filter fun r => decide (recPins r &&& mask ≠ 0)).take k
  { body := record 2 (leBytes kept.length 4 ++ leBytes 0 4 ++
      kept.flatMap fun r => r.take 8 ++ leBytes (recPins r &&& mask) 8 ++ r.drop 16)
    records := 1, s := s }

/-- The bitmap address that FAIL_MAP forms from x (R342). -/
def mapAddress (param : List Byte) (x : Nat) : Nat :=
  ((List.range 40).map fun j =>
    let src := bytesBits param (96 + j) 0 6
    let b := if src = 0x3F then false else bit x src
    if b != decide (bytesBits param (96 + j) 7 1 = 1) then 2 ^ j else 0).sum

/-- The running counts of FAIL_MAP: pins mapped, out of range, ignored. -/
structure MapCount where
  set : Nat := 0
  out : Nat := 0
  ignored : Nat := 0

/-- One failing pin of a record (R342). -/
def State.mapPin (s : State) (param : List Byte) (v i : Nat) (n : MapCount) : State × MapCount :=
  let v0 := bytesBits param 0 0 64
  let vpa := bytesBits param 8 0 32
  let dwidth := bytesBits param 12 0 8
  let map := bytesBits param 16 0 64
  let b := bytesBits param (32 + i) 0 8
  if b = 0xFF ∨ dwidth ≤ b then (s, { n with ignored := n.ignored + 1 })
  else
    let y := mapAddress param ((v - v0) / vpa * dwidth + b)
    if bytesBits param 24 0 64 ≤ y ∨ v < v0 then (s, { n with out := n.out + 1 })
    else
      let a := map + y / 8
      ((s.unpattern a 1).setByte a (s.byte a ||| BitVec.ofNat 8 (2 ^ (y % 8))), { n with set := n.set + 1 })

/-- FAIL_MAP. A map outside every region fails at run time (Table 11.7). -/
def State.jobFailMap (s : State) (t : Task) : JobOut :=
  let l := s.failItems t
  let map := bytesBits t.param 16 0 64
  if (s.memStatus map ((bytesBits t.param 24 0 64 + 7) / 8)).isSome then jobError s 4 map
  else
    let (s1, n) := l.foldl (fun (a : State × MapCount) r =>
      (List.range 64).foldl (fun (b : State × MapCount) i =>
        if bit (recPins r) i then b.1.mapPin t.param (recVector r) i b.2 else b) a) (s, {})
    { body := record 3 (leBytes l.length 4 ++ leBytes n.set 4 ++ leBytes n.out 4 ++ leBytes n.ignored 4 ++ leBytes map 8 ++
        leBytes 0 8)
      records := 1, s := s1 }

/-! ## Captures (R344) -/

/-- A segment that a task claimed: its width, its samples' values (R244, R258), and the gap records that follow it. -/
structure SegItem where
  width : Nat
  values : List Int
  gaps : Nat

/-- Read a claimed segment from the drain ring. -/
def State.segItem (s : State) (e : Fin 8) (x : SchItem) : SegItem :=
  let hd := s.drainUnit e x.lo
  let cont := bytesBits hd 7 0 2
  let units := bytesBits hd 52 0 32 / 64
  let n := bytesBits hd 24 0 32 + bytesBits hd 28 0 32 - bytesBits hd 48 0 32
  let data := (List.range units).flatMap fun i => s.drainUnit e (x.lo + 1 + i)
  let w := 2 ^ cont
  { width := bytesBits hd 6 0 8
    values := (List.range n).map fun i =>
      let v := ofLe ((data.drop (w * i)).take w)
      if s.on (ACQ_SRC_signed e) then toSigned (8 * w) v else v
    gaps := s.itemGaps e x }

/-- The exact mean rounded to the nearest 2⁻³² (R344); `up` decides a tie, which the spec does not. -/
def meanOf (sum : Int) (n : Nat) (up : Bool) : Int :=
  let x : Int := sum * 2 ^ 32
  let q : Int := x / (n : Int)
  let r : Int := x % (n : Int)
  if (n : Int) < 2 * r ∨ (2 * r = (n : Int) ∧ up) then q + 1 else q

/-- CAPTURE_STATS and SPECTRUM. Figures of no sample are free values (log entry 6). -/
def State.jobCapture (s : State) (i : Nat) (t : Task) : JobOut :=
  let e : Fin 8 := ⟨t.d.wsrc % 8, by omega⟩
  let segs := ((s.sch.src[t.d.source].items.filter fun y => decide (y.owner = some i))).map (s.segItem e)
  let vs := segs.flatMap (·.values)
  let gaps := (segs.map (·.gaps)).sum
  let n := vs.length
  let (f, s1) := s.draw
  let stats := if n = 0 then leBytes f.toNat 24
    else
      let v0 := vs.headD 0
      let rms := isqrt ((vs.map fun v => (v * v).toNat).sum * 2 ^ 64 / n) 64 0
      leBytes (ofSigned 32 (vs.foldl min v0)) 4 ++ leBytes (ofSigned 32 (vs.foldl max v0)) 4 ++
      leBytes (ofSigned 64 (meanOf vs.sum n (f.getLsbD 0))) 8 ++ leBytes rms 8
  let head := record 4 (leBytes segs.length 4 ++ leBytes gaps 4 ++ leBytes n 8 ++ stats)
  let out : JobOut := { body := head, records := 1, s := s1 }
  if bytesBits t.param 0 0 1 = 0 then out
  else
    let len := 2 ^ bytesBits t.param 1 0 5
    match segs with
    | g :: _ =>
      if g.values.length < len then { out with partialSpec := true }
      else
        let (free, s2) := s1.draw
        let r := spectrum (bytesBits t.param 0 1 2) (bytesBits t.param 2 0 16) (bytesBits t.param 1 0 5) g.width (g.values.take len) free.toNat
        { out with
          body := head ++ record 5 (leBytes len 4 ++ leBytes r.1 4 ++ (r.2.flatMap fun x => leBytes x 4) ++ leBytes 0 4)
          records := 2, s := s2 }
    | [] => { out with partialSpec := true }

/-! ## Jitter (R345) -/

/-- TIM_JITTER. The figures of an empty histogram and the half unit of a bin centre with shift 0 are free values (log entry 6). -/
def State.jobJitter (s : State) (t : Task) : JobOut :=
  let ch := t.d.wsrc % 32
  let shift := s.get (TIM_HIST_CTL_shift ch)
  let ofs := toSigned 32 (s.rn (TIM_HIST_OFS ch))
  let bins := (List.range 4096).filterMap fun b =>
    let n := s.rn (TIM_HIST_BIN ch b)
    if n = 0 then none else some (b, n)
  let (f, s1) := s.draw
  let r := jitter (bytesBits t.param 0 0 32) (fun b => 2 * ofs + (2 * b + 1) * 2 ^ shift) bins (bitsOf f.toNat 64 32)
  let centre := fun (b k : Nat) =>
    ofSigned 32 (ofs + b * 2 ^ shift + (if shift = 0 then (if f.getLsbD k then 1 else 0) else 2 ^ (shift - 1)))
  let fit := (if r.2.1 then 1 else 0) + (if r.2.2 then 2 else 0)
  let tail := match bins with
    | [] => leBytes (f.toNat / 2 ^ 64) 20 ++ leBytes 0 4 ++ leBytes f.toNat 8
    | x :: _ => (r.1.flatMap fun y => leBytes y 4) ++ leBytes fit 4 ++ leBytes (centre x.1 0) 4 ++ leBytes (centre (bins.getLastD x).1 1) 4
  { body := record 6 (leBytes (bins.map (·.2)).sum 8 ++ tail ++ leBytes 0 8), records := 1, s := s1 }

/-! ## Binary formats (IEEE 754) -/

/-- The binary64 pattern of a natural number below 2³², with a sign. -/
def binary64OfNat (neg : Bool) (n : Nat) : Nat :=
  let sign := if neg then 2 ^ 63 else 0
  if n = 0 then sign
  else
    let k := n.log2
    sign + (1023 + k) * 2 ^ 52 + (n - 2 ^ k) * 2 ^ (52 - k)

/-- The exact conversion of a binary32 pattern to binary64. -/
def binary64Of32 (x : Nat) : Nat :=
  let sign := if bit x 31 then 2 ^ 63 else 0
  let e := bitsOf x 23 8
  let f := bitsOf x 0 23
  if e = 255 then sign + 2047 * 2 ^ 52 + f * 2 ^ 29
  else if e ≠ 0 then sign + (e + 896) * 2 ^ 52 + f * 2 ^ 29
  else if f = 0 then sign
  else
    let k := f.log2
    sign + (874 + k) * 2 ^ 52 + (f - 2 ^ k) * 2 ^ (52 - k)

/-- A binary64 pattern is a NaN. -/
def isNan (x : Nat) : Bool := decide (2047 * 2 ^ 52 < x % 2 ^ 63)

/-- A number that orders binary64 patterns that are no NaN. -/
def orderOf (x : Nat) : Int := if bit x 63 then -((x % 2 ^ 63 : Nat) : Int) else ((x % 2 ^ 63 : Nat) : Int)

/-- `a` is below `b`. -/
def below64 (a b : Nat) : Bool := !isNan a && !isNan b && decide (orderOf a < orderOf b)

/-! ## LIMIT_CHECK (R346) -/

/-- The binary64 value of a word read as type 0, 1 or 2 (Table 11.6). -/
def limitValue (type x : Nat) : Nat :=
  if type = 2 then binary64Of32 x
  else if type = 1 then
    let v := toSigned 32 x
    binary64OfNat (decide (v < 0)) v.natAbs
  else binary64OfNat false x

/-- The verdict of a value: `pick` decides where both limits fail, which the spec does not (log entry 6). -/
def limitVerdict (v en low high : Nat) (pick : Bool) : Nat :=
  let lo := bit en 0 && (isNan v || below64 v low)
  let hi := bit en 1 && (isNan v || below64 high v)
  if lo && hi then (if pick then 1 else 2) else if lo then 1 else if hi then 2 else 0

/-- Read item `i` of LIMIT_CHECK: a register, or a word of memory; none where the access fails (R52) or policy refuses it. -/
def State.limitRead (s : State) (a : Nat) : Option Nat × State :=
  if a < 0x10000000 then
    match s.csrRead 8 a with
    | (some v, s1) => (some v.toNat, s1)
    | (none, s1) => (none, s1)
  else if (s.memStatus a 4).isSome then (none, s)
  else (some (s.le a 4), s)

/-- The items of LIMIT_CHECK from `i` on; `bad` names those whose read completed with an error. -/
def State.limitItems (param : List Byte) (bad : List Nat) : Nat → Nat → State → List Byte → Nat → List Byte × Nat × State
  | 0, _, s, acc, fails => (acc, fails, s)
  | n + 1, i, s, acc, fails =>
    let at_ := 8 + 32 * i
    let (f, s0) := s.draw
    let (r, s1) := s0.limitRead (bytesBits param at_ 0 64)
    let v := limitValue (bytesBits param (at_ + 8) 0 2) (r.getD 0)
    let verdict := if r.isNone || bad.contains i then 3
      else limitVerdict v (bytesBits param (at_ + 8) 2 2) (bytesBits param (at_ + 16) 0 64) (bytesBits param (at_ + 24) 0 64)
        (f.getLsbD 64)
    let shown := if verdict = 3 then f.toNat else v
    State.limitItems param bad n (i + 1) s1 (acc ++ leBytes shown 8 ++ leBytes verdict 8) (if verdict = 0 then fails else fails + 1)

/-- LIMIT_CHECK. The value of an item with verdict 3 is a free value (log entry 6). -/
def State.jobLimit (s : State) (t : Task) (bad : List Nat) : JobOut :=
  let n := bytesBits t.param 0 0 32
  let (items, fails, s1) := State.limitItems t.param bad n 0 s [] 0
  { body := record 7 (leBytes n 4 ++ leBytes fails 4 ++ items), records := 1, s := s1 }

/-- LIMIT_CHECK has a register to read whose clocks are gated: its job goes on when they resume (R215). -/
def State.limitWaits (s : State) (t : Task) : Bool :=
  decide (t.d.kind = 6) && (List.range (bytesBits t.param 0 0 32)).any fun i =>
    let a := bytesBits t.param (8 + 32 * i) 0 64
    decide (a < 0x10000000) && !s.csrError a false && s.clockWaits a

/-! ## DATALOG (R346) -/

/-- ASCII bytes. -/
def ascii (x : String) : List Byte := x.toList.map fun c => BitVec.ofNat 8 c.toNat

/-- The decimal digits of a number, at most `fuel` of them, highest first. -/
def digits : Nat → Nat → List Byte
  | 0, _ => []
  | fuel + 1, n => (if n < 10 then [] else digits fuel (n / 10)) ++ [BitVec.ofNat 8 (48 + n % 10)]

/-- A number in decimal. -/
def decText (n : Nat) : List Byte := digits 25 n

/-- An integer in decimal. -/
def intText (x : Int) : List Byte := (if x < 0 then ascii "-" else []) ++ decText x.natAbs

/-- Digits without their trailing zeros. -/
def trimZeros (l : List Byte) : List Byte := (l.reverse.dropWhile (· == 48)).reverse

/-- A fraction part, with its point where it is not empty. -/
def fracText (l : List Byte) : List Byte := if trimZeros l = [] then [] else ascii "." ++ trimZeros l

/-- The positive value p / q in the C form %.9g. -/
def gText (p q : Nat) : List Byte :=
  -- the decimal exponent X, with 400 added
  let x0 := ((List.range 720).filter fun k => decide (10 ^ k * q ≤ p * 10 ^ 400)).length - 1
  let r0 := nearestDiv (p * 10 ^ 408) (q * 10 ^ x0)
  let (r, x) := if r0 = 10 ^ 9 then (10 ^ 8, x0 + 1) else (r0, x0)
  let d := digits 9 r
  if x < 396 ∨ 409 ≤ x then
    let k := if x < 400 then 400 - x else x - 400
    d.take 1 ++ fracText (d.drop 1) ++ ascii (if x < 400 then "e-" else "e+") ++ (if k < 10 then ascii "0" else []) ++ decText k
  else if x < 400 then ascii "0" ++ fracText (List.replicate (399 - x) 48 ++ d)
  else d.take (x - 399) ++ fracText (d.drop (x - 399))

/-- A binary64 pattern in the C form %.9g. -/
def floatText (x : Nat) : List Byte :=
  let sign := if bit x 63 then ascii "-" else []
  let e := bitsOf x 52 11
  let f := bitsOf x 0 52
  if isNan x then Config.fieldText (leBytes x 8)
  else if e = 2047 then sign ++ ascii "inf"
  else if e = 0 ∧ f = 0 then sign ++ ascii "0"
  else
    let m := if e = 0 then f else 2 ^ 52 + f
    let e' := max 1 e
    sign ++ (if 1075 ≤ e' then gText (m * 2 ^ (e' - 1075)) 1 else gText m (2 ^ (1075 - e')))

/-- How a field of a record is written. -/
inductive TextForm where
  | nat (bytes : Nat)
  | int (bytes : Nat)
  | f32 | f64
  | raw (bytes : Nat)
  deriving DecidableEq, Repr

/-- The value of a field at byte `i` of a record. -/
def TextForm.show (r : List Byte) (i : Nat) : TextForm → List Byte
  | .nat n => decText (ofLe ((r.drop i).take n))
  | .int n => intText (toSigned (8 * n) (ofLe ((r.drop i).take n)))
  | .f32 => floatText (binary64Of32 (ofLe ((r.drop i).take 4)))
  | .f64 => floatText (ofLe ((r.drop i).take 8))
  | .raw n => Config.fieldText ((r.drop i).take n)

/-- The name of a record type (Table 11.9). -/
def recordName (type : Nat) : Option (List Byte) :=
  match type with
  | 1 => some (ascii "FAIL_COUNT") | 2 => some (ascii "FIRST_FAIL") | 3 => some (ascii "FAIL_MAP")
  | 4 => some (ascii "CAPTURE_STATS") | 5 => some (ascii "SPECTRUM") | 6 => some (ascii "TIM_JITTER")
  | 7 => some (ascii "LIMIT") | 8 => some (ascii "TEXT") | 0xFF => some (ascii "ERROR")
  | _ => none

/-- The name of element `i` of a list field. -/
def indexed (name : String) (i : Nat) : List Byte := ascii name ++ ascii "[" ++ decText i ++ ascii "]"

/-- The fields that every record has (Table 11.9): name, byte offset, form. -/
def headFields : List (List Byte × Nat × TextForm) := [(ascii "type", 0, .nat 2), (ascii "length", 4, .nat 4)]

/-- The fields of a record's body (Table 11.9): name, byte offset, form. `r` is the record with its header. -/
def recordFields (type : Nat) (r : List Byte) : List (List Byte × Nat × TextForm) :=
  match type with
  | 1 => [(ascii "records", 8, .nat 4), (ascii "overflows", 12, .nat 4), (ascii "pins", 16, .nat 4)] ++
      (List.range (min 64 (bytesBits r 16 0 32))).map fun i => (indexed "count" i, 24 + 4 * i, .nat 4)
  | 2 => (ascii "n", 8, .nat 4) :: (List.range (min 64 (bytesBits r 8 0 32))).map fun j => (indexed "rec" j, 16 + 32 * j, .raw 32)
  | 3 => [(ascii "records", 8, .nat 4), (ascii "set", 12, .nat 4), (ascii "out_of_range", 16, .nat 4),
      (ascii "ignored", 20, .nat 4), (ascii "map", 24, .nat 8)]
  | 4 => [(ascii "segments", 8, .nat 4), (ascii "gaps", 12, .nat 4), (ascii "samples", 16, .nat 8), (ascii "min", 24, .int 4),
      (ascii "max", 28, .int 4), (ascii "mean", 32, .int 8), (ascii "rms", 40, .nat 8)]
  | 5 => [(ascii "n", 8, .nat 4), (ascii "fund_bin", 12, .nat 4), (ascii "fund_dbfs", 16, .f32), (ascii "snr", 20, .f32),
      (ascii "sinad", 24, .f32), (ascii "thd", 28, .f32), (ascii "sfdr", 32, .f32), (ascii "enob", 36, .f32),
      (ascii "noise_dbfs", 40, .f32)]
  | 6 => [(ascii "count", 8, .nat 8), (ascii "mean", 16, .f32), (ascii "rms", 20, .f32), (ascii "rj", 24, .f32),
      (ascii "dj", 28, .f32), (ascii "tj", 32, .f32), (ascii "fit", 36, .nat 4), (ascii "min", 40, .int 4), (ascii "max", 44, .int 4)]
  | 7 => [(ascii "n", 8, .nat 4), (ascii "fails", 12, .nat 4)] ++ (List.range (min 256 (bytesBits r 8 0 32))).flatMap fun i =>
      [(indexed "value" i, 16 + 16 * i, .f64), (indexed "verdict" i, 24 + 16 * i, .nat 1)]
  | 8 => [(ascii "text", 8, .raw (r.length - 8))]
  | _ => [(ascii "code", 8, .nat 1), (ascii "detail", 12, .nat 4), (ascii "addr", 16, .nat 8)]

/-- One line of text. -/
def textLine (t : Task) (name field value : List Byte) : List Byte :=
  ascii "T" ++ decText t.d.test ++ ascii ",S" ++ decText t.d.site ++ ascii ",P" ++ decText t.d.port ++ ascii "," ++ name ++
  ascii "," ++ field ++ ascii "," ++ value ++ [10]

/-- The lines of the input records; none where the input is not records of Table 11.9. -/
def textLines (t : Task) : Nat → List Byte → Option (List (List Byte))
  | 0, _ => none
  | fuel + 1, l =>
    if l = [] then some []
    else
      let len := bytesBits l 4 0 32
      let r := l.take (8 + len)
      if l.length < 8 ∨ len % 8 ≠ 0 ∨ l.length < 8 + len then none
      else match recordName (bytesBits l 0 0 16) with
      | none => none
      | some name =>
        (textLines t fuel (l.drop (8 + len))).map fun rest =>
          ((headFields ++ recordFields (bytesBits l 0 0 16) r).map fun f => textLine t name f.1 (f.2.2.show r f.2.1)) ++ rest

/-- Whole lines while they fit; whether all did. -/
def fitLines (room : Nat) : List (List Byte) → List Byte × Bool
  | [] => ([], true)
  | x :: l => if room < x.length then ([], false) else let r := fitLines (room - x.length) l; (x ++ r.1, r.2)

/-- DATALOG. Input outside every region, or that is not records, fails at run time (Table 11.7). -/
def State.jobDatalog (s : State) (t : Task) : JobOut :=
  let src := bytesBits t.param 0 0 64
  let len := bytesBits t.param 8 0 32
  if (s.memStatus src len).isSome then jobError s 4 src
  else
    match textLines t (len / 8 + 1) (s.bytes src len) with
    | none => jobError s 4 src
    | some lines =>
      let (text, all) := fitLines (bytesBits t.param 12 0 32) lines
      if all then { body := record 8 text, records := 1, s := s }
      else { body := record 8 text ++ errorRecord 6 0 0, records := 2, status := 6, s := s }

/-! ## The end of a job -/

/-- The job of a task (Table 11.4). -/
def State.job (s : State) (i : Nat) (t : Task) (bad : List Nat) : JobOut :=
  match t.d.kind with
  | 1 => s.jobFailCount t
  | 2 => s.jobFirstFail t
  | 3 => s.jobFailMap t
  | 4 => s.jobCapture i t
  | 5 => s.jobJitter t
  | 6 => s.jobLimit t bad
  | _ => s.jobDatalog t

/-- What a job accesses in memory: address and length (Table 11.4). -/
def State.jobSpans (s : State) (t : Task) : List (Nat × Nat) :=
  let p := t.d.wsrc % 8
  let e : Fin 8 := ⟨p, Nat.mod_lt _ (by decide)⟩
  let ring := (s.rn64 (SCH_FRING_BASE_LO p), 32 * 2 ^ s.get (SCH_FRING_SIZE_size p))
  match t.d.kind with
  | 1 | 2 => [ring]
  | 3 => [ring, (bytesBits t.param 16 0 64, (bytesBits t.param 24 0 64 + 7) / 8)]
  | 4 => [(nearBase (e / 2) + nearUnit * (s.cs.acqWin e).base, 64 * s.drainSize e)]
  | 6 => ((List.range (bytesBits t.param 0 0 32)).map fun i => (bytesBits t.param (8 + 32 * i) 0 64, 4)).filter fun x =>
      decide (0x10000000 ≤ x.1)
  | 7 => [(bytesBits t.param 0 0 64, bytesBits t.param 8 0 32)]
  | _ => []

/-- TASK_FINISH: core `c` finishes its task's job and the task reaches DONE, with status PARTIAL where it ran on fewer items
than wcount (R332, R341). Its group is the requester of what it accesses (R29, R32, R323). A task that reads from a frozen channel is suspended instead (R351), and one that waits for clocks has not finished (R215). `bad` names the items of
LIMIT_CHECK whose read completed with an error. -/
def State.taskFinish (s : State) (c : Nat) (bad : List Nat) : State :=
  if s.get (SCH_CORE_state c) ≠ 1 then s
  else
    let i := s.get (SCH_CORE_slot c)
    match s.task i with
    | none => s
    | some t =>
      if t.inputChans &&& s.frozenMask ≠ 0 then s.unrun c
      else if s.limitWaits t || (s.jobSpans t).any fun x => !s.mayMove (22 + c / 4) x.1 x.2 then s
      else
        let o := s.job i t bad
        let status := if o.status = 0 ∧ t.items < t.d.wcount then 1 else o.status
        (o.s.coreFree c 0).taskDone i { t with body := o.body, records := o.records, partialSpec := o.partialSpec } status

end Sys2Proof.Machine
end

