-- ==== Sys2Proof/Machine/Net.lean ====
section
/-! DEFINITION. Amiuc from the host's side (chapter 14): the checks of a received frame (R400), HELLO and CONFIRM, acknowledgement and
credit, DATA delivery, and the timers of a session. -/

namespace Sys2Proof.Machine

/-! ## Sessions (R401 to R407) -/

/-- Send what waits for credit on every channel of a session. -/
def State.pumpAll (s : State) (k : Fin 8) : State :=
  (List.finRange 7).foldl (fun (a : State) (c : Fin 7) => State.pump (a.chan k c).queue.length a k c) s

/-- REJECT, to where the HELLO came from; retry_ms is a free value, at least 10 for BOOTING (R420, log entry 6). -/
def State.reject (s : State) (rx : Rx) (status : Nat) : State :=
  let (v, s1) := s.draw
  let ms := v.toNat % 2 ^ 16
  let retry := if status = 2 then max 10 ms else ms
  (s1.transmit (rx.port % 2) (.amiuc { port := rx.port % 2, mac := rx.mac, v6 := rx.v6, ip := rx.ip, uport := rx.uport }
    (amiucHeader 0x04 0 0xFF 0xFF 0 0 0 0 8 0 0) (beBytes status 2 ++ beBytes retry 2 ++ [0, 0, 0, 0]))).ev 358

/-- The payload of a HELLO is well formed (Table 14.4). -/
def helloForm (l : List Byte) : Bool :=
  let cred := argBe l 2 2
  decide (136 ≤ l.length) && decide (argBe l 0 1 < 4) && (decide (argBe l 1 1 < 8) || decide (argBe l 1 1 = 0xFF)) &&
  decide (l.length = 136 + (cred + 7) / 8 * 8 + (if cred = 0 then 0 else 96))

/-- The header of a received frame of a type as its sender gave it (Table 14.2). -/
def rxHeader (typ : Nat) (rx : Rx) : List Byte :=
  beBytes rx.magic 2 ++ [BitVec.ofNat 8 rx.version] ++
    (amiucHeader typ rx.flags rx.session rx.channel rx.seq rx.ack rx.sack rx.credit rx.length rx.sid rx.txc).drop 3

/-- The payload of a received frame as plaintext, none where the tag of an encrypted one does not verify under the key of its direction
(R404). -/
def openPayload (keys : Option SessKeys) (enc : Bool) (typ : Nat) (rx : Rx) : Option (List Byte) :=
  if !enc then some rx.payload
  else match keys with
  | none => none
  | some x => gcmOpen x.rx.toNat (frameNonce x.rxSalt rx.txc) (rxHeader typ rx) rx.payload rx.atag

/-- The signatures of a HELLO with a credential verify: the credential's by the owner's or Svakoup's key (R430), and the HELLO's by the
credential's key over the header and the payload before it (R401). -/
def State.helloSigned (s : State) (rx : Rx) : Bool :=
  let l := rx.payload
  let cred := (l.drop 136).take 208
  sigVerifies s.sec.authority (cred.take 112) (cred.drop 112) &&
  sigVerifies ((cred.drop 16).take 96) (rxHeader 0x01 rx ++ l.take (l.length - 96)) (l.drop (l.length - 96))

/-- The credential of a HELLO is accepted (R401, R430). -/
def State.credOk (s : State) (rx : Rx) : Bool :=
  let l := rx.payload
  if argBe l 2 2 = 0 then decide (s.lifecycle ≠ 2)
  else
    decide (argBe l 2 2 = 208) && decide (argBe l 136 2 = 0x4352) && decide (argBe l 138 1 = 1) && decide (argBe l 139 1 = 0) &&
    decide (argBe l 140 4 < 8) && decide (argBe l 148 4 = 0) && decide (s.sec.credFloor ≤ argBe l 144 4) && s.helloSigned rx

/-- A SEAL-class response is in force for a HELLO (R445). -/
def State.sealedFor (s : State) (l : List Byte) : Bool :=
  s.on SEC_STATUS_sealed &&
  !(if s.lifecycle = 2 then decide (argBe l 2 2 ≠ 0) && bit (argBe l 140 4) 2 else decide (argBe l 2 2 = 0))

/-- The slot that a HELLO asks for: the named one, or the lowest FREE one (R407). -/
def State.helloSlot (s : State) (l : List Byte) : Option (Fin 8) :=
  let n := argBe l 1 1
  if n = 0xFF then (List.finRange 8).find? fun k => decide (s.sessState k = 0) else some (Fin.ofNat 8 n)

/-- Why a HELLO that names a slot is refused, if it is (R407). -/
def State.slotRefusal (s : State) (k : Fin 8) (l : List Byte) : Option Nat :=
  if s.sessState k = 1 ∨ s.sessState k = 2 then some 10
  else if bit (argBe l 0 1) 1 ∧ ¬(s.sessState k = 3 ∧ s.rn (NET_SESS_SID k) = argBe l 4 4) then some 11
  else none

/-- WELCOME: a new session identifier, nonce, key share and signature, the keys of an encrypted session (R403), and where each channel stands (R402, Table 14.5). -/
def State.welcome (s : State) (rx : Rx) (k : Fin 8) : State :=
  let l := rx.payload
  let enc := argBe l 0 1 % 2
  let resume := bit (argBe l 0 1) 1
  let (v0, s1) := s.draw
  let (v1, s2) := s1.draw
  let (v2, s3) := s2.draw
  let sid := v0.toNat % 2 ^ 32
  let nonce := beBytes (v1.toNat % 2 ^ 256) 32
  let eph := 1 + v2.toNat % (p384n - 1)
  let seqs := (List.finRange 7).flatMap fun c =>
    if resume then beBytes (s.chan k c).tx 4 ++ beBytes (s.chan k c).rx 4 else List.replicate 8 0
  let body := [BitVec.ofNat 8 k, BitVec.ofNat 8 (enc + if resume then 2 else 0), BitVec.ofNat 8 s.lifecycle, 0] ++ beBytes sid 4 ++
    nonce ++ publicPoint eph ++ seqs ++
    ((List.range 7).flatMap fun c => beBytes (deviceCredit c) 2) ++ [0, 0]
  let header := amiucHeader 0x02 0 k 0xFF 0 0 0 0 304 sid 0
  let payload := body ++ s.dikSign (l ++ header ++ body)
  let peer : Peer := { port := rx.port % 2, mac := rx.mac, v6 := rx.v6, ip := rx.ip, uport := rx.uport }
  let none_ := decide (argBe l 2 2 = 0)
  let o : Offer := {
    sid := sid
    at_ := s.tmb.clk
    keys := if enc = 1 then some (sessKeys (ecdh eph ((l.drop 40).take 96)) ((l.drop 8).take 32) nonce sid k) else none
    enc := decide (enc = 1), resume := resume, peer := peer, perms := if none_ then 7 else argBe l 140 4
    limited := s.on SEC_STATUS_sealed, hello := l, welcome := payload, before := s.sessState k }
  let s4 := (s3.setSess k { s3.net.sess[k] with offer := some o }).sessEnter k 1
  s4.transmit peer.port (.amiuc peer header payload)

/-- A HELLO in READY (R402, R407): the first refusal that applies, or WELCOME. -/
def State.hello (s : State) (rx : Rx) : State :=
  let l := rx.payload
  if s.lifecycle = 3 then s.reject rx 7
  else if s.sealedFor l then s.reject rx 20
  else if rx.version ≠ 1 then s.reject rx 12
  else if !helloForm l then s.count (NET_BAD_FRAME (rx.port % 2))
  else if s.lifecycle = 2 ∧ bit (argBe l 0 1) 0 = false then s.reject rx 13
  else if !s.credOk rx then s.authFail.reject rx 8
  else
    let s1 := if argBe l 2 2 = 0 then s else s.authOk
    match s1.helloSlot l with
    | none => s1.reject rx 9
    | some k =>
      match s1.slotRefusal k l with
      | some c => s1.reject rx c
      | none => s1.welcome rx k

/-- The channels of a session that a CONFIRM opens: those of a resume go on, with the credit that the CONFIRM gives (R403, R407). -/
def openChans (old : SessH) (resume : Bool) (l : List Byte) (txc : Nat) : Vector ChanH 7 :=
  Vector.ofFn fun c =>
    let h := if resume then old.chans[c] else {}
    { h with credit := argBe l (48 + 2 * c.val) 2, creditTxc := txc, rto := 1 }

/-- A CONFIRM whose tag verified (R403): the session opens where the hash matches. -/
def State.confirm (s : State) (k : Fin 8) (rx : Rx) (o : Offer) : State :=
  let l := rx.payload
  if l.length ≠ 64 ∨ argBe l 62 2 ≠ 0 then s.count (NET_BAD_FRAME (rx.port % 2))
  else if l.take 48 ≠ shaBytes (o.hello ++ o.welcome) then s.authFail
  else
    let q := s.net.sess[k]
    let s0 := s.authOk
    let s1 := if o.resume then s0 else ((s0.longOrphan k).openOrphan k).csrOrphan k
    let x : SessH := {
      keys := o.keys
      peer := { o.peer with mac := rx.mac, uport := rx.uport }, perms := o.perms, limited := o.limited, rxSeen := rx.txc :: o.seen
      lastRx := s.tmb.clk, lastTx := s.tmb.clk, chans := openChans q o.resume l rx.txc, evts := if o.resume then q.evts else []
      lastEvt := if o.resume then q.lastEvt else none, ham := if o.resume then q.ham else none }
    let s2 := ((s1.setSess k x).wn (NET_SESS_SID k) o.sid).wn (NET_SESS_TXC k) 0
    let s3 := ((s2.put (NET_SESS_STATUS_enc k) (if o.enc then 1 else 0)).put (NET_SESS_STATUS_port k) o.peer.port).put
      (NET_SESS_STATUS_resumed k) (if o.resume then 1 else 0)
    (((s3.sessEnter k 2).send k 0x11 0xFF 0 []).ev 356).pumpAll k

/-! ## Acknowledgement and credit (R409 to R411) -/

/-- Retransmit an unacknowledged frame. -/
def State.resend (s : State) (k : Fin 8) (c : Fin 7) (x : TxFrame) : State :=
  let h := s.chan k c
  let mark := fun (y : TxFrame) => if y.seq = x.seq then { y with sentAt := s.tmb.clk } else y
  ((s.setChan k c { h with unacked := h.unacked.map mark }).count (NET_SESS_RETX k)).send k 0x10 c x.seq x.payload

/-- Frames that are missing below at least three marked ones (R411). -/
def missing3 : List TxFrame → List TxFrame
  | [] => []
  | x :: l => if !x.sacked ∧ 3 ≤ l.countP (·.sacked) then x :: missing3 l else missing3 l

/-- What the acknowledgement of frames brings: Hampers delivered (R417), a warm reset whose reply it was (R498). -/
def State.ackedAll (s : State) (k : Fin 8) (c : Fin 7) (l : List TxFrame) : State :=
  let s1 := l.foldl (fun (a : State) (x : TxFrame) => if x.hamper.isSome then a.hamperDelivered k else a) s
  if c = 0 then
    match s1.net.sess[k].warm with
    | some n => if l.any fun x => decide (x.seq = n) then s1.warmReset k else s1
    | none => s1
  else s1

/-- The acknowledgement fields of a valid frame for a channel (R409 to R411). -/
def State.ackFields (s : State) (k : Fin 8) (c : Fin 7) (rx : Rx) : State :=
  let h := s.chan k c
  let base := h.tx + 2 ^ 32 - h.unacked.length
  let n := (rx.ack + 2 ^ 32 - base % 2 ^ 32) % 2 ^ 32
  if h.unacked.length < n then s
  else
    let left := h.unacked.drop n
    let mark := fun (x : TxFrame) =>
      let i := (x.seq + 2 ^ 32 - (rx.ack + 1) % 2 ^ 32) % 2 ^ 32
      if bit rx.flags 2 && decide (i < 32) && bit rx.sack i then { x with sacked := true } else x
    let newer := decide (0 < n) || decide (h.creditTxc < rx.txc)
    let h1 := { h with
      unacked := left.map mark, rto := if 0 < n then 1 else h.rto, credit := if newer then rx.credit else h.credit
      creditTxc := if newer then rx.txc else h.creditTxc }
    let s1 := (s.setChan k c h1).ackedAll k c (h.unacked.take n)
    let s2 := if s1.sessOpen k ∧ bit rx.flags 2 then
        (missing3 h1.unacked).foldl (fun (a : State) x => a.resend k c x) s1 else s1
    State.pump (s2.chan k c).queue.length s2 k c

/-! ## DATA (R409) -/

/-- Deliver the held frames that follow in sequence. -/
def deliverHeld : Nat → ChanH → ChanH
  | 0, h => h
  | fuel + 1, h =>
    match h.held.find? fun x => decide (x.seq = h.rx) with
    | some x => deliverHeld fuel { h with
        rx := (h.rx + 1) % 2 ^ 32, held := h.held.filter fun y => decide (y.seq ≠ x.seq), todo := h.todo ++ [x] }
    | none => h

/-- A DATA frame on a channel: stored if it lies from ack to ack + 255, delivered in sequence order; every fourth is acknowledged
at once. -/
def State.dataIn (s : State) (k : Fin 8) (c : Fin 7) (rx : Rx) : State :=
  let h := s.chan k c
  let d := (rx.seq + 2 ^ 32 - h.rx) % 2 ^ 32
  let x : RxItem := { seq := rx.seq, payload := rx.payload, flashOk := rx.flashOk, bad := rx.bad }
  let fresh := decide (d < 256) && !h.held.any fun y => decide (y.seq = rx.seq)
  let h1 := if fresh then deliverHeld (h.held.length + 1) { h with held := h.held ++ [x] } else h
  let s1 := (s.setChan k c { h1 with ackDue := h1.ackDue + 1 }).netGo
  if s1.sessOpen k ∧ 4 ≤ (s1.chan k c).ackDue then s1.send k 0x11 c 0 [] else s1

/-! ## Received frames (R400) -/

/-- The txc has not been accepted and lies above the highest accepted one minus 1,024 (R404). -/
def txcFresh (seen : List Nat) (txc : Nat) : Bool :=
  !seen.contains txc && decide (seen.foldl max 0 < txc + 1024)

/-- The accepted txc values that can still matter. -/
def txcTake (seen : List Nat) (txc : Nat) : List Nat :=
  (txc :: seen).filter fun x => decide ((txc :: seen).foldl max 0 < x + 1024)

/-- The frame came from the session's port and address (R407), with its session identifier. -/
def State.fromPeer (s : State) (k : Fin 8) (rx : Rx) : Bool :=
  let q := s.net.sess[k]
  let (p, sid) := match q.offer with
    | some o => (o.peer, o.sid)
    | none => (q.peer, s.rn (NET_SESS_SID k))
  (decide (s.sessState k = 1) || decide (s.sessState k = 2)) && decide (rx.sid = sid) && decide (p.port = rx.port % 2) &&
  decide (p.v6 = rx.v6) && decide (p.ip = rx.ip)

/-- The session's mode: encrypted or plaintext. -/
def State.encMode (s : State) (k : Fin 8) : Bool :=
  match s.net.sess[k].offer with
  | some o => o.enc
  | none => s.on (NET_SESS_STATUS_enc k)

/-- The channel is one that the type allows (R400, Table 14.7): DATA 0 to 4, ACK 0 to 6 or none, others none. -/
def chanOk (typ c : Nat) : Bool :=
  if typ = 0x10 then decide (c < 5) else if typ = 0x11 then decide (c < 7) || decide (c = 0xFF) else decide (c = 0xFF)

/-- What a valid frame of an OPEN session does, by its type. -/
def State.openFrame (s : State) (k : Fin 8) (typ : Nat) (rx : Rx) : State :=
  let s1 := if h : bit rx.flags 1 ∧ rx.channel < 7 then s.ackFields k ⟨rx.channel, h.2⟩ rx else s
  if !s1.sessOpen k then s1
  else if h : typ = 0x10 ∧ rx.channel < 7 then
    (if rx.payload = [] then s1.count (NET_BAD_FRAME (rx.port % 2)) else s1.dataIn k ⟨rx.channel, h.2⟩ rx)
  else if typ = 0x13 then s1.sessEnd k 0 17
  else s1

/-- The keys of the session, or of its offer. -/
def State.sessKey (s : State) (k : Fin 8) : Option SessKeys :=
  match s.net.sess[k].offer with
  | some o => o.keys
  | none => s.net.sess[k].keys

/-- A frame of session `k` with its payload as plaintext, none where its tag does not verify (R404). -/
def State.plain (s : State) (k : Fin 8) (typ : Nat) (rx : Rx) : Option Rx :=
  (openPayload (s.sessKey k) (s.encMode k) typ rx).map fun l => { rx with payload := l }

/-- Checks 6 and 7 of R400 on a frame of session `k` whose tag verified, and what a valid frame does; the host's txc may end the key
(R405). -/
def State.checkPlain (s : State) (k : Fin 8) (typ : Nat) (rx : Rx) : State :=
  let p := rx.port % 2
  let enc := s.encMode k
  let s1 := if enc then s.authOk else s
  let q := s1.net.sess[k]
  match q.offer with
  | some o =>
    if !txcFresh o.seen rx.txc then s1.count (NET_SESS_REPLAY k)
    else if !chanOk typ rx.channel then s1.count (NET_BAD_FRAME p)
    else
      let o1 := { o with seen := txcTake o.seen rx.txc }
      let s2 := s1.setSess k { q with offer := some o1 }
      if typ = 0x03 then s2.confirm k rx o1 else s2
  | none =>
    if !txcFresh q.rxSeen rx.txc then s1.count (NET_SESS_REPLAY k)
    else if !chanOk typ rx.channel then s1.count (NET_BAD_FRAME p)
    else
      let s2 := s1.setSess k { q with
        rxSeen := txcTake q.rxSeen rx.txc, lastRx := s1.tmb.clk, peer := { q.peer with mac := rx.mac, uport := rx.uport } }
      let s3 := s2.openFrame k typ rx
      if 0xFFFFFF00 ≤ rx.txc ∧ s3.sessOpen k then s3.keyExhausted k else s3

/-- Checks 5 to 7 of R400 on a frame of session `k`. -/
def State.checkTag (s : State) (k : Fin 8) (typ : Nat) (rx : Rx) : State :=
  match s.plain k typ rx with
  | none => ((s.count (NET_SESS_AUTHFAIL k)).ev 359).authFail
  | some x => s.checkPlain k typ x

/-- Checks 3 to 7 of R400; the frames of an encrypted session wait while the crypto engine holds (R473). -/
def State.checkSession (s : State) (typ : Nat) (rx : Rx) : State :=
  let p := rx.port % 2
  if h : rx.session < 8 then
    let k : Fin 8 := ⟨rx.session, h⟩
    if !s.fromPeer k rx || Bool.xor (s.encMode k) (bit rx.flags 0) then s.count (NET_BAD_FRAME p)
    else if s.encMode k ∧ s.on CAL_STATUS_crypto_hold then s.setNet { s.net with rxWait := s.net.rxWait ++ [(typ, rx)] }
    else s.checkTag k typ rx
  else s.count (NET_BAD_FRAME p)

/-- Check 1 of R400: the UDP length. -/
def rxLengthOk (rx : Rx) : Bool :=
  decide (32 ≤ rx.len) && decide (rx.len = 32 + rx.length + 16 * (rx.flags % 2)) && decide (rx.length ≤ 8192) &&
  decide (rx.payload.length = rx.length)

/-- The datagram is one that the port's IP layer takes: its VLAN tag, and a valid address of its own (R395, Table 14.15). -/
def State.ipTakes (s : State) (p : Fin 2) (rx : Rx) : Bool :=
  let x := s.net.port[p]
  rx.ipOk && (if bit x.cfg 4 then decide (rx.vlan = some (bitsOf x.cfg 16 12)) else rx.vlan.isNone) &&
  (if rx.v6 then x.llOk || x.glOk else s.on (NET_PORT_STATUS_v4_valid p))

/-- The frame belongs to an OPEN session, so that it bypasses the policer (R397). -/
def State.ofOpen (s : State) (rx : Rx) : Bool :=
  if h : rx.session < 8 then s.sessOpen ⟨rx.session, h⟩ && s.fromPeer ⟨rx.session, h⟩ rx else false

/-- An Amiuc frame of a type arrives at an Ethernet port (R395, R397, R400, R420). -/
def State.receive (s : State) (typ : Nat) (rx : Rx) : State :=
  let p : Fin 2 := Fin.ofNat 2 rx.port
  if !s.linkUp p then s
  else
    let s1 := s.rxCount p
    let (s2, pass) := if typ ≠ 0x01 ∧ s1.ofOpen rx then (s1, true) else s1.police p rx.mac
    if !pass then s2
    else if s2.boot.stage ≠ 4 then
      if typ = 0x01 ∧ s2.ipTakes p rx ∧ rxLengthOk rx ∧ rx.magic = 0x414D then s2.reject rx 2 else s2.count (NET_DROP_BOOT p)
    else if !s2.ipTakes p rx then s2
    else if !rxLengthOk rx ∨ rx.magic ≠ 0x414D ∨ (typ ≠ 0x01 ∧ rx.version ≠ 1) then s2.count (NET_BAD_FRAME p)
    else if typ = 0x01 then s2.hello rx
    else s2.checkSession typ rx

/-- The payload of a DATA frame as plaintext, none where its tag does not verify in its session. -/
def State.dataText (s : State) (rx : Rx) : Option (List Byte) :=
  if h : rx.session < 8 then (s.plain ⟨rx.session, h⟩ 0x10 rx).map (·.payload) else some rx.payload

/-- A DATA frame whose payload is one that `want` names; one whose tag does not verify may come as any of them. -/
def State.dataFrame (s : State) (rx : Rx) (want : Nat → List Byte → Bool) : State :=
  match s.dataText rx with
  | some l => if want rx.channel l then s.receive 0x10 rx else s
  | none => s.receive 0x10 rx

/-- A management request with an opcode. -/
def wantOpcode (o : Nat) (c : Nat) (l : List Byte) : Bool := decide (c = 0) && decide (2 ≤ l.length) && decide (argBe l 0 2 = o)

/-- A frame that is no request of a known opcode: an unknown opcode, no opcode at all, or a channel that takes no DATA. -/
def wantUnknown (c : Nat) (l : List Byte) : Bool :=
  (decide (c = 0) && (decide (l.length < 2) || !opcodeKnown (argBe l 0 2))) || decide (5 ≤ c)

/-- A bulk READ, or any other frame of a bulk channel (R415). -/
def wantRead (c : Nat) (l : List Byte) : Bool := decide (1 ≤ c) && decide (c ≤ 4) && decide (argBe l 0 1 = 2)
def wantWrite (c : Nat) (l : List Byte) : Bool := decide (1 ≤ c) && decide (c ≤ 4) && decide (argBe l 0 1 ≠ 2)

/-- The known-answer test is repeated during a hold; a pass ends it, and what waited goes on (R473). -/
def State.katDone (s : State) (pass : Bool) : State :=
  let s1 := s.katRetry pass
  if s1.on CAL_STATUS_crypto_hold then s1
  else
    let s2 := s1.net.rxWait.foldl (fun (a : State) (x : Nat × Rx) => a.checkSession x.1 x.2) (s1.setNet { s1.net with rxWait := [] })
    (List.finRange 8).foldl (fun (a : State) (k : Fin 8) => a.pumpAll k) s2

/-! ## Timers and what the device sends (R406, R408, R409, R411, R417, R418) -/

/-- PENDING_TIMEOUT: 100 ms after WELCOME the slot returns to its state before the HELLO. -/
def State.pendingTimeout (s : State) (k : Fin 8) : State :=
  match s.net.sess[k].offer with
  | some o =>
    let s1 := s.advanceTo (o.at_ + 100 * tuPerMs)
    (s1.setSess k { s1.net.sess[k] with offer := none }).sessEnter k o.before
  | none => s

/-- One µs and one ms in units of 1/8192 ps. -/
def tuPerUs : Nat := 1000 * tuPerNs

/-- KEEPALIVE_TIMER: 100 ms after the device's last frame in the session. -/
def State.keepaliveTimer (s : State) (k : Fin 8) : State :=
  if s.sessOpen k then (s.advanceTo (s.net.sess[k].lastTx + 100 * tuPerMs)).send k 0x12 0xFF 0 [] else s

/-- SESSION_TIMEOUT: 300 ms without a valid frame. -/
def State.sessionTimeout (s : State) (k : Fin 8) : State :=
  if s.sessOpen k then (s.advanceTo (s.net.sess[k].lastRx + 300 * tuPerMs)).sessEnd k 3 15 else s

/-- RESUME_TIMEOUT: a DETACHED slot becomes FREE, NET_RESUME_TMO ms after its session was detached. -/
def State.resumeTimeout (s : State) (k : Fin 8) : State :=
  if s.sessState k = 3 then (s.advanceTo (s.net.sess[k].endAt + s.get NET_RESUME_TMO_ms * tuPerMs)).sessFree k else s

/-- ACK_TIMER: DATA frames received since the last acknowledgement are acknowledged. -/
def State.ackTimer (s : State) (k : Fin 8) (c : Fin 7) : State :=
  if s.sessOpen k ∧ (s.chan k c).ackDue ≠ 0 then s.send k 0x11 c 0 [] else s

/-- RETRANSMIT_TIMER: NET_RTO, as doubled, has passed for the oldest unacknowledged frame. -/
def State.retransmitTimer (s : State) (k : Fin 8) (c : Fin 7) : State :=
  let h := s.chan k c
  match h.unacked with
  | x :: _ =>
    if s.sessOpen k ∧ !x.sacked then
      let s1 := s.advanceTo (x.sentAt + h.rto * max 1 (s.get NET_RTO_us) * tuPerUs)
      (s1.setChan k c { h with rto := min 64 (2 * h.rto) }).resend k c x
    else s
  | [] => s

/-- The Hamper that a session sends next, with the next offset: the one in transmission, or the first released one whose last frame
has not been sent (R417). -/
def State.nextHamper (s : State) (k : Fin 8) : Option (Nat × Nat) :=
  match s.net.sess[k].ham with
  | some x => some x
  | none =>
    let sent := (s.chan k 5).unacked.filterMap (·.hamper)
    ((s.sch.out.filter fun x => decide (x.1 = k.val) && !sent.contains x.2).map fun x => (x.2, 0)).head?

/-- HAMPER_FRAME_SEND: the next frame of a released Hamper, where credit allows. -/
def State.hamperFrame (s : State) (k : Fin 8) : State :=
  match s.nextHamper k with
  | none => s
  | some (i, off) =>
    match s.task i with
    | none => s
    | some t =>
      let l := t.hamper i
      let payload := beBytes (t.hseq.getD 0) 4 ++ beBytes off 4 ++ (l.drop off).take 8184
      let last := decide (l.length ≤ off + 8184)
      if s.maySend k 5 payload then
        (s.setSess k { s.net.sess[k] with ham := if last then none else some (i, off + 8184) }).sendData k 5 payload
          (if last then some i else none)
      else s

/-- The record of a pending event (R418). -/
def evtRecord (x : Nat × Nat × Nat × Nat) : List Byte :=
  beBytes x.1 2 ++ beBytes x.2.1 2 ++ beBytes x.2.2.1 2 ++ [0, 0] ++ beBytes x.2.2.2 8

/-- EVENT_FRAME_SEND: up to 511 pending records, where credit and NET_EVT_MIN allow. -/
def State.eventFrame (s : State) (k : Fin 8) : State :=
  let q := s.net.sess[k]
  let l := q.evts.take 511
  let payload := beBytes l.length 2 ++ List.replicate 6 0 ++ l.flatMap evtRecord
  if l = [] ∨ !s.maySend k 6 payload then s
  else
    let s1 := match q.lastEvt with
      | some t => s.advanceTo (t + s.get NET_EVT_MIN_us * tuPerUs)
      | none => s
    (s1.setSess k { s1.net.sess[k] with evts := q.evts.drop 511, lastEvt := some s1.tmb.clk }).sendData k 6 payload none

end Sys2Proof.Machine
end

