-- ==== Sys2Proof/Machine/Operands.lean ====
section
/-! DEFINITION. How a command reaches a register, and the commands that are made of more than one operation: the operand forms
that the command meanings share. -/

namespace Sys2Proof.Machine

/-- A written word with bit `i` at `b`. -/
def withBit (v : Word) (i : Nat) (b : Bool) : Word :=
  if b then v ||| BitVec.ofNat 32 (2 ^ i) else v &&& ~~~BitVec.ofNat 32 (2 ^ i)

/-- A write of a register does `f`, unless the access completes with an address error (R43, R52). -/
def State.atReg (s : State) (a : Nat) (f : State → State) : State := if s.csrError a true then s else f s

/-- The register is DMC_FREEZE_CTL or CXH_CTL, whose write may let requests that wait go on (R374, R384, R389, R416). -/
def isFreezeCtl (a : Nat) : Bool := decide (a = CXH_CTL) || (List.range 4).any fun c => decide (a = DMC_FREEZE_CTL c)

/-- A write of a register that needs the clocks of a domain PLL does `f`, or waits for them with the value written (R215). -/
def State.atClock (s : State) (a : Nat) (v : Word) (f : State → State) : State :=
  s.atReg a fun (s : State) => if s.writeWaits a v then { s with waits := s.waits ++ [(a, v)] } else f s

/-- The clocks of a domain have come back, or stay away: the accesses that waited for them are made (R215). -/
def State.clockGo (s : State) : State :=
  let s1 := s.heldWrites
  match s1.csrWait with
  | none => s1
  | some w => ({ s1 with csrWait := none }.csrCmd w).netGo

/-- The register is DPL_CTL, GLB_QRESET or PWR_DOMAIN_HI, whose write may end a wait for the clocks of a domain PLL (R215). -/
def isClockCtl (a : Nat) : Bool := decide (a = GLB_QRESET) || decide (a = PWR_DOMAIN_HI) || (List.range 12).any fun d => decide (a = DPL_CTL d)

/-- A CSR write (R43, R52, R53, R215). -/
def State.regCmd (s : State) (a : Nat) (v : Word) : State :=
  let s1 := s.regWrite a v
  if s.csrError a true then s else if isFreezeCtl a then s1.grantTags.netGo else if isClockCtl a then s1.clockGo else s1

/-- The crypto engine has done a page of port `p` (R199); its verdict counts where a key is loaded (R442). -/
def State.pageAuthDone (s : State) (p : Fin 8) (tier addr : Nat) : State :=
  let loaded := (s.sec.keys.lookup (s.get (PRT_STRM_KEY_slot p))).isSome
  let (s1, ok) := s.pageAuth (portUnit p) tier addr
  match ok with
  | some true => if loaded then s1.authOk else s1
  | some false => if loaded then s1.authFail else s1
  | none => s1

/-- The drain has written the oldest closed record of engine `e` (R259): a task may claim it (R331). While the channel is frozen,
what is staged waits (R261). -/
def State.acqRecordPublish (s : State) (e : Fin 8) : State :=
  if s.acq[e].frozenWait || s.on (DMC_STATUS_frozen (e / 2)) || !s.writerGo e (s.drainAddr e) then s
  else
    match s.acq[e].recs with
    | [] => s
    | r :: _ =>
      let lo := s.rn (ACQ_DRAIN_WR e)
      let s1 := s.acqPublish e
      let hi := s1.rn (ACQ_DRAIN_WR e)
      if hi = lo then s1 else s1.schPublished e lo (lo + r.bytes.length / 64) r.isSeg

/-- The place of TIM channel `t` among the sources of tasks. -/
def timTaskSource (t : Fin 32) : Fin 48 := ⟨16 + t.val, by omega⟩

/-- A conversion completes, and its result may satisfy a task (R282, R331). -/
def State.timResultReady (s : State) (t : Fin 32) (x v1 v2 : BitVec 12) : State :=
  (s.timResult t x v1 v2).serveSource (timTaskSource t)

/-- A FREQ gate ends, and its result may satisfy a task (R283, R331). -/
def State.timGateReady (s : State) (t : Fin 32) : State := (s.timGateEnd t).serveSource (timTaskSource t)

end Sys2Proof.Machine
end

