-- ==== Sys2Proof/Machine/Flags.lean ====
section
/-! DEFINITION. How a command ends. The block has no processor's flags; its status bits are fields of registers, and the access
types of Table 0.4 are applied in RegMap.lean. -/

namespace Sys2Proof.Machine

/-- A command that ends in state `s`. -/
def finish (s : State) : Host.Outcome State Fault Refusal := .next s

/-- A command that may change what a port in HOLD waits for, or start or stop units whose records tasks wait for: a port in
HOLD for which an error row of Table 5.4 has come to apply aborts (R191), and the scheduler's view of its sources follows
(R331). -/
def finishSync (s : State) : Host.Outcome State Fault Refusal := .next s.holdFaults.syncSources

end Sys2Proof.Machine
end

