-- ==== Sys2Proof/Machine/ExecAnalogue.lean ====
section
/-! DEFINITION. The meanings of the commands, one definition each. Waveform generators and precision level DACs (chapter 09). -/

namespace Sys2Proof.Machine

/-- WFG_RUN (R298). -/
def execWfgRun (m : Fin 4) (v : Word) (s : State) : Host.Outcome State Fault Refusal :=
  finish (s.atClock (WFG_CTL m) (withBit v 0 true) fun s => s.wfgCtl m (withBit v 0 true))

/-- WFG_STOP (R301). -/
def execWfgStop (m : Fin 4) (v : Word) (s : State) : Host.Outcome State Fault Refusal :=
  finish (s.atClock (WFG_CTL m) (withBit v 0 false) fun s => s.wfgCtl m (withBit v 0 false))

/-- WFG_ADMITTED (R298). -/
def execWfgAdmitted (m : Fin 4) (s : State) : Host.Outcome State Fault Refusal := finish (s.wfgAdmitted m)

/-- WFG_ADMIT_TIMEOUT (R300). -/
def execWfgAdmitTimeout (m : Fin 4) (s : State) : Host.Outcome State Fault Refusal := finish (s.wfgAdmitTimeout m)

/-- WFG_TRAILHEAD_REACHED (R300). -/
def execWfgTrailheadReached (m : Fin 4) (s : State) : Host.Outcome State Fault Refusal := finish (s.wfgTrailhead m)

/-- WFG_FIRST_SAMPLE (R300). -/
def execWfgFirstSample (m : Fin 4) (phase : Nat) (sramErr : Bool) (s : State) : Host.Outcome State Fault Refusal :=
  finish (s.wfgFirst m phase sramErr)

/-- WFG_WD_CYCLE (R292). -/
def execWfgWdCycle (m : Fin 4) (sramErr : Bool) (s : State) : Host.Outcome State Fault Refusal := finish (s.wfgCycle m sramErr)

/-- WFG_REQUEST_REGISTERED (R295). -/
def execWfgRequestRegistered (m : Fin 4) (s : State) : Host.Outcome State Fault Refusal :=
  finish (s.registerDue (wfgUnit m) s.wfg[m].lastAt)

/-- WFG_JUMP_HOST_REQ (R295). -/
def execWfgJumpHostReq (m : Fin 4) (s : State) : Host.Outcome State Fault Refusal :=
  finish (s.atClock (WFG_JUMP_HOST m) 1 fun s => s.hostReq (wfgUnit m))

/-- WFG_JUMP_HOST_CANCEL (R295). -/
def execWfgJumpHostCancel (m : Fin 4) (s : State) : Host.Outcome State Fault Refusal :=
  finish (s.atClock (WFG_JUMP_HOST m) 2 fun s => s.put (seqHostF (wfgUnit m)) 0)

/-- WFG_WAIT_TIMEOUT (R295). -/
def execWfgWaitTimeout (m : Fin 4) (s : State) : Host.Outcome State Fault Refusal := finish (s.waitTimeout (wfgUnit m))

/-- PDAC_CODE_WRITE (R305). -/
def execPdacCodeWrite (u : Fin 16) (code : BitVec 16) (s : State) : Host.Outcome State Fault Refusal :=
  finish (s.atReg (PDC_CODE u) fun s => s.pdacCode u code.toNat)

/-- PDAC_GROUP_LOAD (R305). -/
def execPdacGroupLoad (q : Fin 4) (v : Word) (s : State) : Host.Outcome State Fault Refusal :=
  finish (s.atReg (PDC_GLOAD q) fun s => s.gload v)

/-- PDAC_MATRIX_LOAD (R305). -/
def execPdacMatrixLoad (g : Fin 4) (s : State) : Host.Outcome State Fault Refusal := finish (s.pdacGroup g true)

/-- PDAC_HOLD_END (R306). -/
def execPdacHoldEnd (u : Fin 16) (s : State) : Host.Outcome State Fault Refusal := finish (s.pdacHoldEnd u)

/-- PDAC_LIMIT (R307). -/
def execPdacLimit (u : Fin 16) (atLimit : Bool) (s : State) : Host.Outcome State Fault Refusal := finish (s.pdacLimit u atLimit)

/-- PDAC_SC_OFF (R307). -/
def execPdacScOff (u : Fin 16) (s : State) : Host.Outcome State Fault Refusal := finish (s.pdacScOff u)

end Sys2Proof.Machine
end

