-- ==== Sys2Proof/Machine/ExecCapture.lean ====
section
/-! DEFINITION. The meanings of the commands, one definition each. Acquisition engines and TIM channels (chapters 07, 08) and the end of a secret period (R440). -/

namespace Sys2Proof.Machine

/-- ACQ_ARM (R265). -/
def execAcqArm (e : Fin 8) (v : Word) (s : State) : Host.Outcome State Fault Refusal :=
  finish (s.atClock (ACQ_CTL e) (withBit v 0 true) fun s => s.acqCtl e (withBit v 0 true))

/-- ACQ_STOP (R260). -/
def execAcqStop (e : Fin 8) (v : Word) (s : State) : Host.Outcome State Fault Refusal :=
  finish (s.atClock (ACQ_CTL e) (withBit v 0 false) fun s => s.acqCtl e (withBit v 0 false))

/-- ACQ_FORCE (R247). -/
def execAcqForce (e : Fin 8) (v : Word) (s : State) : Host.Outcome State Fault Refusal :=
  finish (s.atClock (ACQ_CTL e) (withBit v 1 true) fun s => s.acqCtl e (withBit v 1 true))

/-- ACQ_RECORD_PUBLISH (R259). -/
def execAcqRecordPublish (e : Fin 8) (s : State) : Host.Outcome State Fault Refusal := finish (s.acqRecordPublish e)

/-- ACQ_DRAIN_RD_WRITE (R259). -/
def execAcqDrainRdWrite (e : Fin 8) (v : Word) (s : State) : Host.Outcome State Fault Refusal :=
  finishSync (s.atClock (ACQ_DRAIN_RD e) v fun s => s.drainRdWrite e v.toNat)

/-- TIM_ARM (R277). -/
def execTimArm (t : Fin 32) (v : Word) (v1 v2 : BitVec 12) (s : State) : Host.Outcome State Fault Refusal :=
  finish (s.atReg (TIM_CTL t) fun s => s.timCtlPair t (withBit v 0 true) v1 v2)

/-- TIM_STOP (R278). -/
def execTimStop (t : Fin 32) (v : Word) (s : State) : Host.Outcome State Fault Refusal :=
  finish (s.atReg (TIM_CTL t) fun s => s.timCtlPair t (withBit v 0 false) 0 0)

/-- TIM_MEAS_START (R277). -/
def execTimMeasStart (t : Fin 32) (s : State) : Host.Outcome State Fault Refusal := finishSync (s.timMeasStart t)

/-- TIM_EDGE (R274). -/
def execTimEdge (t : Fin 32) (at_ : Nat) (falling : Bool) (s : State) : Host.Outcome State Fault Refusal :=
  finish (s.timEdge t at_ falling)

/-- TIM_RESULT (R282). -/
def execTimResult (t : Fin 32) (x v1 v2 : BitVec 12) (s : State) : Host.Outcome State Fault Refusal :=
  finishSync (s.timResultReady t x v1 v2)

/-- TIM_GATE_END (R283). -/
def execTimGateEnd (t : Fin 32) (s : State) : Host.Outcome State Fault Refusal :=
  finishSync (s.timGateReady t)

/-- TIM_HIST_UPDATE (R285). -/
def execTimHistUpdate (q : Fin 4) (s : State) : Host.Outcome State Fault Refusal := finish (s.timHistUpdate q)

/-- TIM_HIST_CLEAR (R286). -/
def execTimHistClear (t : Fin 32) (v : Word) (s : State) : Host.Outcome State Fault Refusal :=
  finish (s.regCmd (TIM_HIST_CTL t) (withBit v 1 true))

/-- TIM_HIST_CLEAR_DONE (R286). -/
def execTimHistClearDone (t : Fin 32) (s : State) : Host.Outcome State Fault Refusal := finish (s.timHistClearDone t)

/-- TIM_DLL_LOCK (R272). -/
def execTimDllLock (t : Fin 32) (s : State) : Host.Outcome State Fault Refusal := finish (s.timDllLock t)

/-- TIM_DLL_UNLOCK (R272). -/
def execTimDllUnlock (t : Fin 32) (s : State) : Host.Outcome State Fault Refusal := finish (s.timDllUnlock t)

/-- SECRET_PERIOD_END (R440). -/
def execSecretPeriodEnd (p : Fin 8) (s : State) : Host.Outcome State Fault Refusal := finish (s.secretEnd p)

end Sys2Proof.Machine
end

