-- ==== Sys2Proof/Machine/ExecClock.lean ====
section
/-! DEFINITION. The meanings of the commands, one definition each. Domain PLLs, the TBPLL, the time base and Trailheads (chapter 06). -/

namespace Sys2Proof.Machine

/-- DPL_RUN (R211). -/
def execDplRun (d : Fin 12) (v : Word) (s : State) : Host.Outcome State Fault Refusal :=
  finish (s.atReg (DPL_CTL d) fun s => s.dplCtl d (withBit v 0 true))

/-- DPL_RUN_OFF (R211). -/
def execDplRunOff (d : Fin 12) (v : Word) (s : State) : Host.Outcome State Fault Refusal :=
  finish (s.atReg (DPL_CTL d) fun s => (s.dplCtl d (withBit v 0 false)).clockGo)

/-- DPL_COMMIT (R210). -/
def execDplCommit (d : Fin 12) (v : Word) (s : State) : Host.Outcome State Fault Refusal :=
  finish (s.atReg (DPL_CTL d) fun s => s.dplCtl d (withBit v 1 true))

/-- DPL_RESEED (R205). -/
def execDplReseed (d : Fin 12) (v : Word) (s : State) : Host.Outcome State Fault Refusal :=
  finish (s.atReg (DPL_CTL d) fun s => s.dplCtl d (withBit v 3 true))

/-- DPL_HANDOVER (R212). -/
def execDplHandover (d : Fin 12) (s : State) : Host.Outcome State Fault Refusal := finish (s.dplHandover d)

/-- DPL_LOCK_DECLARED (R220). -/
def execDplLockDeclared (d : Fin 12) (s : State) : Host.Outcome State Fault Refusal := finish (s.dplLock d)

/-- DPL_SETTLED (R212). -/
def execDplSettled (d : Fin 12) (phase : Nat) (s : State) : Host.Outcome State Fault Refusal := finish (s.dplUngate d phase).clockGo

/-- DPL_LOSS_OF_LOCK (R220). -/
def execDplLossOfLock (d : Fin 12) (s : State) : Host.Outcome State Fault Refusal := finish (s.dplLoss d)

/-- DPL_HOLD_TO_ACQUIRE (R219). -/
def execDplHoldToAcquire (d : Fin 12) (s : State) : Host.Outcome State Fault Refusal := finish (s.dplHoldToAcquire d)

/-- DPL_FAIL (R213). -/
def execDplFail (d : Fin 12) (s : State) : Host.Outcome State Fault Refusal := finishSync (s.dplFail d).clockGo

/-- DPL_RAMP_UPDATE (R209). -/
def execDplRampUpdate (d : Fin 12) (s : State) : Host.Outcome State Fault Refusal := finish (s.dplRampUpdate d)

/-- DPL_RAMP_SETTLED (R209). -/
def execDplRampSettled (d : Fin 12) (s : State) : Host.Outcome State Fault Refusal := finish (s.dplRampSettled d)

/-- CEILING_SUPPRESS (R218). -/
def execCeilingSuppress (clk : Option (Fin 12)) (s : State) : Host.Outcome State Fault Refusal := finish (s.ceiling clk)

/-- REF_ABSENT (R223). -/
def execRefAbsent (s : State) : Host.Outcome State Fault Refusal := finish (s.refAbsent)

/-- REF_PRESENT (R223). -/
def execRefPresent (s : State) : Host.Outcome State Fault Refusal := finish (s.refPresent)

/-- TBPLL_MDLL_READY (R225). -/
def execTbpllMdllReady (s : State) : Host.Outcome State Fault Refusal := finish (s.tbpllMdllReady)

/-- TBPLL_LOCKED (R225). -/
def execTbpllLocked (s : State) : Host.Outcome State Fault Refusal := finish (s.tbpllLocked)

/-- TBPLL_UNLOCKED (R225). -/
def execTbpllUnlocked (s : State) : Host.Outcome State Fault Refusal := finish (s.tbpllUnlocked)

/-- TBPLL_RETURN (R227). -/
def execTbpllReturn (phi slew : Int) (s : State) : Host.Outcome State Fault Refusal := finish (s.tbpllReturn phi slew)

/-- TBPLL_ALIGNED (R227). -/
def execTbpllAligned (s : State) : Host.Outcome State Fault Refusal := finish (s.tbpllAligned)

/-- HOLDOVER_LONG (R229). -/
def execHoldoverLong (s : State) : Host.Outcome State Fault Refusal := finish (s.holdoverLong)

/-- TIMESTAMP_WRAP (R230). -/
def execTimestampWrap (s : State) : Host.Outcome State Fault Refusal := finish (s.timestampWrap)

/-- TIME_BASE_ZERO (R231). -/
def execTimeBaseZero (late : Bool) (s : State) : Host.Outcome State Fault Refusal := finish (s.timeBaseZero late)

/-- TRAILHEAD_ARM (R535). -/
def execTrailheadArm (s : State) : Host.Outcome State Fault Refusal :=
  finish (s.atReg TMB_TRAILHEAD_CTL fun s => s.trailheadArm)

/-- TMB_TRAILHEAD_REACHED (R535). -/
def execTmbTrailheadReached (s : State) : Host.Outcome State Fault Refusal := finish (s.trailheadReached)

/-- PHASE_SAMPLE_REQ (R233). -/
def execPhaseSampleReq (d : Fin 12) (v : Word) (s : State) : Host.Outcome State Fault Refusal :=
  finish (s.regCmd (DPL_PHASE_CTL d) (withBit v 2 true))

/-- PHASE_SAMPLE (R233). -/
def execPhaseSample (d : Fin 12) (ofs : BitVec 19) (s : State) : Host.Outcome State Fault Refusal :=
  finish (s.phaseSample d ofs)

end Sys2Proof.Machine
end

