-- ==== Sys2Proof/Machine/ExecFabric.lean ====
section
/-! DEFINITION. The meanings of the commands, one definition each. Register writes without a row of their own, fabric transactions, structure loads, software strobes and the power mask (chapters 01, 02, 17). -/

namespace Sys2Proof.Machine

/-- REGISTER_WRITE (R43). -/
def execRegisterWrite (addr : Nat) (v : Word) (s : State) : Host.Outcome State Fault Refusal := finishSync (s.regCmd addr v)

/-- FABRIC_REQUEST (R29). -/
def execFabricRequest (req : Fin 31) (addr : Nat) (write : Option (BitVec 512)) (enables : BitVec 64) (s : State) : Host.Outcome State Fault Refusal :=
  finish (s.fabricRequest req addr write enables)

/-- FABRIC_RESPONSE (R28). -/
def execFabricResponse (req : Fin 31) (addr k : Nat) (ue : Bool) (s : State) : Host.Outcome State Fault Refusal :=
  finishSync (s.fabricResponse req addr k ue).netGo

/-- STRUCT_LOAD (R72). -/
def execStructLoad (rx : Rx) (s : State) : Host.Outcome State Fault Refusal := finishSync (s.dataFrame rx (wantOpcode 0x10))

/-- STRUCT_CHECK_DONE (R72). -/
def execStructCheckDone (s : State) : Host.Outcome State Fault Refusal := finish s.loadChecked

/-- STRUCT_UNITS_STOPPED (R75). -/
def execStructUnitsStopped (s : State) : Host.Outcome State Fault Refusal := finishSync (s.loadStopped)

/-- STRUCT_DOMAINS_SETTLED (R78). -/
def execStructDomainsSettled (s : State) : Host.Outcome State Fault Refusal := finish (s.loadSettled)

/-- STRUCTURE_COMMIT (R78). -/
def execStructureCommit (s : State) : Host.Outcome State Fault Refusal := finish (s.loadCommit)

/-- STRUCT_LOAD_DONE (R81). -/
def execStructLoadDone (s : State) : Host.Outcome State Fault Refusal := finishSync s.loadDone.clockGo

/-- STC_SWSTROBE (R60). -/
def execStcSwstrobe (v : BitVec 8) (s : State) : Host.Outcome State Fault Refusal :=
  finish (s.atReg STC_SWSTROBE fun s => s.swStrobe v.toNat)

/-- PWR_DOMAIN_WRITE (R506). -/
def execPwrDomainWrite (hi : Bool) (v : Word) (s : State) : Host.Outcome State Fault Refusal :=
  finishSync (s.atReg (if hi then PWR_DOMAIN_HI else PWR_DOMAIN_LO) fun s => (s.pwrDomainWrite hi v).clockGo)

end Sys2Proof.Machine
end

