-- ==== Sys2Proof/Machine/ExecFar.lean ====
section
/-! DEFINITION. The meanings of the commands, one definition each. The far store (chapter 13). -/

namespace Sys2Proof.Machine

/-- CXL_ENABLE (R384). -/
def execCxlEnable (v : Word) (s : State) : Host.Outcome State Fault Refusal := finish (s.regCmd CXH_CTL (withBit v 0 true))

/-- CXL_DISABLE (R384). -/
def execCxlDisable (v : Word) (s : State) : Host.Outcome State Fault Refusal :=
  finishSync (s.regCmd CXH_CTL (withBit v 0 false))

/-- CXL_REENUM (R386). -/
def execCxlReenum (v : Word) (s : State) : Host.Outcome State Fault Refusal := finish (s.regCmd CXH_CTL (withBit v 5 true))

/-- CXL_SETUP_RESULT (R384). -/
def execCxlSetupResult (h : Fin 2) (width speed fail : Nat) (ide : Bool) (cap records : Nat) (s : State) : Host.Outcome State Fault Refusal :=
  finish (s.cxlSetup h width speed fail ide cap records)

/-- CXL_RETRY_TIMER (R385). -/
def execCxlRetryTimer (h : Fin 2) (s : State) : Host.Outcome State Fault Refusal := finish (s.cxlRetry h)

/-- CXL_WINDOW_END (R385). -/
def execCxlWindowEnd (h : Fin 2) (s : State) : Host.Outcome State Fault Refusal := finish (s.cxlWindowEnd h)

/-- CXL_MEMDATA (R388). -/
def execCxlMemdata (nth : Nat) (poison : Bool) (replays : Nat) (s : State) : Host.Outcome State Fault Refusal :=
  finish (s.cxlMemData nth poison replays).grantTags.netGo

/-- CXL_CMP (R388). -/
def execCxlCmp (nth : Nat) (s : State) : Host.Outcome State Fault Refusal := finish (s.cxlCmp nth).netGo

/-- CXL_READ_TIMEOUT (R389). -/
def execCxlReadTimeout (nth : Nat) (s : State) : Host.Outcome State Fault Refusal := finishSync (s.cxlReadTimeout nth).netGo

/-- CXL_RECOVERY_ENTER (R392). -/
def execCxlRecoveryEnter (h : Fin 2) (s : State) : Host.Outcome State Fault Refusal := finishSync (s.cxlRecoveryEnter h).grantTags.netGo

/-- CXL_RECOVERY_EXIT (R392). -/
def execCxlRecoveryExit (h : Fin 2) (s : State) : Host.Outcome State Fault Refusal := finish (s.cxlRecoveryExit h)

/-- CXL_LINK_DOWN (R392). -/
def execCxlLinkDown (h : Fin 2) (s : State) : Host.Outcome State Fault Refusal := finishSync (s.cxlLinkDown h).grantTags.netGo

/-- CXL_IDE_FAIL (R391). -/
def execCxlIdeFail (h : Fin 2) (s : State) : Host.Outcome State Fault Refusal := finishSync (s.cxlIdeFail h).grantTags.netGo

/-- CXL_MSIX (R391). -/
def execCxlMsix (h : Fin 2) (records : Nat) (s : State) : Host.Outcome State Fault Refusal := finish (s.cxlMsix h records)

end Sys2Proof.Machine
end

