-- ==== Sys2Proof/Machine/ExecHost.lean ====
section
/-! DEFINITION. The meanings of the commands, one definition each. Amiuc: frames, sessions, timers, management and bulk requests, and the Ethernet ports (chapter 14). -/

namespace Sys2Proof.Machine

/-- HELLO (R407). -/
def execHello (rx : Rx) (s : State) : Host.Outcome State Fault Refusal := finishSync (s.receive 0x01 rx)

/-- CONFIRM (R403). -/
def execConfirm (rx : Rx) (s : State) : Host.Outcome State Fault Refusal := finishSync (s.receive 0x03 rx)

/-- ACK (R410). -/
def execAck (rx : Rx) (s : State) : Host.Outcome State Fault Refusal := finishSync (s.receive 0x11 rx)

/-- KEEPALIVE (R408). -/
def execKeepalive (rx : Rx) (s : State) : Host.Outcome State Fault Refusal := finishSync (s.receive 0x12 rx)

/-- CLOSE (R406). -/
def execClose (rx : Rx) (s : State) : Host.Outcome State Fault Refusal := finishSync (s.receive 0x13 rx)

/-- PENDING_TIMEOUT (R406). -/
def execPendingTimeout (k : Fin 8) (s : State) : Host.Outcome State Fault Refusal := finish (s.pendingTimeout k)

/-- KEEPALIVE_TIMER (R408). -/
def execKeepaliveTimer (k : Fin 8) (s : State) : Host.Outcome State Fault Refusal := finish (s.keepaliveTimer k)

/-- SESSION_TIMEOUT (R408). -/
def execSessionTimeout (k : Fin 8) (s : State) : Host.Outcome State Fault Refusal := finish (s.sessionTimeout k)

/-- RESUME_TIMEOUT (R406). -/
def execResumeTimeout (k : Fin 8) (s : State) : Host.Outcome State Fault Refusal := finish (s.resumeTimeout k)

/-- ACK_TIMER (R409). -/
def execAckTimer (k : Fin 8) (c : Fin 7) (s : State) : Host.Outcome State Fault Refusal := finish (s.ackTimer k c)

/-- RETRANSMIT_TIMER (R411). -/
def execRetransmitTimer (k : Fin 8) (c : Fin 7) (s : State) : Host.Outcome State Fault Refusal := finish (s.retransmitTimer k c)

/-- HAMPER_FRAME_SEND (R417). -/
def execHamperFrameSend (k : Fin 8) (s : State) : Host.Outcome State Fault Refusal := finish (s.hamperFrame k)

/-- EVENT_FRAME_SEND (R418). -/
def execEventFrameSend (k : Fin 8) (s : State) : Host.Outcome State Fault Refusal := finish (s.eventFrame k)

/-- PROBE (R413). -/
def execProbe (rx : Rx) (s : State) : Host.Outcome State Fault Refusal := finishSync (s.dataFrame rx (wantOpcode 0x01))

/-- CSR_READ (R413). -/
def execCsrRead (rx : Rx) (s : State) : Host.Outcome State Fault Refusal := finishSync (s.dataFrame rx (wantOpcode 0x02))

/-- CSR_WRITE (R413). -/
def execCsrWrite (rx : Rx) (s : State) : Host.Outcome State Fault Refusal := finishSync (s.dataFrame rx (wantOpcode 0x03))

/-- GET_CERT (R413). -/
def execGetCert (rx : Rx) (s : State) : Host.Outcome State Fault Refusal := finishSync (s.dataFrame rx (wantOpcode 0x04))

/-- WARM_RESET (R498). -/
def execWarmReset (rx : Rx) (s : State) : Host.Outcome State Fault Refusal := finishSync (s.dataFrame rx (wantOpcode 0x05))

/-- CAL_FULL (R467). -/
def execCalFull (rx : Rx) (s : State) : Host.Outcome State Fault Refusal := finishSync (s.dataFrame rx (wantOpcode 0x12))

/-- FW_UPDATE (R434). -/
def execFwUpdate (rx : Rx) (s : State) : Host.Outcome State Fault Refusal := finishSync (s.dataFrame rx (wantOpcode 0x13))

/-- SCRUB_FULL (R474). -/
def execScrubFull (rx : Rx) (s : State) : Host.Outcome State Fault Refusal := finishSync (s.dataFrame rx (wantOpcode 0x14))

/-- ENROL (R432). -/
def execEnrol (rx : Rx) (s : State) : Host.Outcome State Fault Refusal := finishSync (s.dataFrame rx (wantOpcode 0x15))

/-- ZEROIZE (R446). -/
def execZeroize (rx : Rx) (s : State) : Host.Outcome State Fault Refusal := finishSync (s.dataFrame rx (wantOpcode 0x16))

/-- LONG_OP_END (R414). -/
def execLongOpEnd (s : State) : Host.Outcome State Fault Refusal := finish (s.longEnd)

/-- BULK_WRITE (R416). -/
def execBulkWrite (rx : Rx) (s : State) : Host.Outcome State Fault Refusal := finishSync (s.dataFrame rx wantWrite)

/-- BULK_READ (R416). -/
def execBulkRead (rx : Rx) (s : State) : Host.Outcome State Fault Refusal := finishSync (s.dataFrame rx wantRead)

/-- ARP_REQUEST (R395). -/
def execArpRequest (p : Fin 2) (target mac ip : Nat) (s : State) : Host.Outcome State Fault Refusal :=
  finish (s.arpRequest p target mac ip)

/-- NEIGHBOUR_SOLICITATION (R395). -/
def execNeighbourSolicitation (p : Fin 2) (target mac ip : Nat) (s : State) : Host.Outcome State Fault Refusal :=
  finish (s.neighbourSolicitation p target mac ip)

/-- ICMP_ECHO (R395). -/
def execIcmpEcho (p : Fin 2) (v6 : Bool) (target mac ip : Nat) (payload : List Byte) (s : State) : Host.Outcome State Fault Refusal :=
  finish (s.icmpEcho p v6 target mac ip payload)

/-- DHCP_RENEW (R395). -/
def execDhcpRenew (p : Fin 2) (s : State) : Host.Outcome State Fault Refusal := finish (s.dhcpRenew p)

/-- DHCP_LEASE_LOST (R395). -/
def execDhcpLeaseLost (p : Fin 2) (s : State) : Host.Outcome State Fault Refusal := finish (s.dhcpLost p)

/-- ETH_LINK_UP (R394). -/
def execEthLinkUp (p : Fin 2) (s : State) : Host.Outcome State Fault Refusal := finish (s.ethLinkUp p)

/-- ETH_LINK_DOWN (R394). -/
def execEthLinkDown (p : Fin 2) (s : State) : Host.Outcome State Fault Refusal := finish (s.ethLinkDown p)

/-- NET_APPLY (R421). -/
def execNetApply (v : Word) (s : State) : Host.Outcome State Fault Refusal :=
  finish (s.atReg NET_CTL fun s => s.netCtl (withBit v 2 true).toNat)

/-- DHCP_LEASE_OBTAINED (R395). -/
def execDhcpLeaseObtained (p : Fin 2) (ip secs : Word) (s : State) : Host.Outcome State Fault Refusal :=
  finish (s.dhcpLease p ip.toNat secs.toNat)

/-- DUPLICATE_ADDRESS_DETECTION (R395). -/
def execDuplicateAddressDetection (p : Fin 2) (global duplicate : Bool) (s : State) : Host.Outcome State Fault Refusal :=
  finish (s.dadDone p global duplicate)

/-- PAUSE_FRAME (R394). -/
def execPauseFrame (p : Fin 2) (s : State) : Host.Outcome State Fault Refusal := finish (s.pauseFrame p)

/-- UNKNOWN_OPCODE (R413). -/
def execUnknownOpcode (rx : Rx) (s : State) : Host.Outcome State Fault Refusal := finishSync (s.dataFrame rx wantUnknown)

end Sys2Proof.Machine
end

