-- ==== Sys2Proof/Machine/SlkFrame.lean ====
section
/-! DEFINITION. The frames that the site link receives (R313 to R316, R319, R321). A Trailhead reaches the registers of a port as a host
write does. -/

namespace Sys2Proof.Machine

/-- A Trailhead is applied (R321): the registers of an idle port are written as the host writes them, so a write waits for gated clocks
(R215) or fails with its domain (R533). -/
def State.slkApply (s : State) (site ts ep : Nat) (arm : Bool) : State :=
  (List.finRange 8).foldl (fun (a : State) (p : Fin 8) =>
    if a.cs.pinCount p ≠ 0 ∧ a.cs.site.getD p 0 = site ∧ a.on (SLK_PORT_CFG_th_accept p) then
      if a.portActive p then (a.count SLK_TH_REJECT).ev 502
      else
        let b := ((a.regWrite (PRT_TRAILHEAD_LO p) (BitVec.ofNat 32 ts)).regWrite (PRT_TRAILHEAD_HI p) (BitVec.ofNat 32 (ts / 2 ^ 32))).regWrite
          (PRT_TRAILHEAD_EP p) (BitVec.ofNat 32 ep)
        if arm then b.regWrite (PRT_SEQ_CTL p) (BitVec.ofNat 32 (5 + 16 * b.get (PRT_SEQ_CTL_start_evt p))) else b
    else a) s

/-- A TRAILHEAD frame (R321). -/
def State.slkTrailhead (s : State) (l : List Byte) : State :=
  let own := decide (byteAt l 1 % 32 = s.slkPos)
  let f := fun (a : State) => a.slkApply (byteAt l 3) (ofBe ((l.drop 5).take 8)) (ofBe ((l.drop 13).take 2)) (bit (byteAt l 4) 0)
  if own then
    if s.on SLK_TH_CTL_busy then (((f s).put SLK_TH_CTL_busy 0).put SLK_TH_CTL_done 1).ev 501 else s
  else f s

/-- A frame of type `typ` is received (R313, R315, R316, R319): `l` is its body with its CRC, `clean` says that it came
without a code error and without an error end. A frame in which an error is found is discarded, and its forwarded copy, where its header
had it forwarded, ends in an error end. -/
def State.slkFrame (s : State) (typ : Nat) (l : List Byte) (clean : Bool) : State :=
  let st := s.get SLK_STATUS_state
  let bad := !clean || decide (crc16 l ≠ 0) || decide (l.length ≠ frameLength typ)
  if st < 2 ∨ (!bad ∧ byteAt l 0 ≠ typ) then s
  else
    let s0 := s.slkDrain
    let fwd := s0.slkForwards l && decide (byteAt l 2 % 64 + 1 < s0.slkMembers) && decide (3 < l.length)
    let s1 := if fwd then s0.slkForward (forwarded l) bad else s0
    if bad then (s1.count SLK_CRC_ERR).ev 500 else
    if st = 4 then s1
    else
      match s.slkMismatch l with
      | some code => s1.slkFault code
      | none =>
        if s.slkMembers ≤ byteAt l 2 % 64 then s1
        else
          match typ with
          | 1 => s1.slkHold (byteAt l 3) (byteAt l 4) (byteAt l 1 % 32) (bit (byteAt l 5) 0)
          | 2 => s1.slkAnnounce l
          | 3 => s1.slkTrailhead l
          | 4 => s1.slkBreak
          | _ => s1.slkAbandon l

end Sys2Proof.Machine
end

