-- ==== Sys2Proof/Machine/ExecLink.lean ====
section
/-! DEFINITION. The meanings of the commands, one definition each. The site link (chapter 10). -/

namespace Sys2Proof.Machine

/-- SLK_ENABLE (R311). -/
def execSlkEnable (v : Word) (s : State) : Host.Outcome State Fault Refusal :=
  finish (s.atReg SLK_CTL fun s => s.slkCtl (withBit v 0 true))

/-- SLK_DISABLE (R311). -/
def execSlkDisable (v : Word) (s : State) : Host.Outcome State Fault Refusal :=
  finish (s.atReg SLK_CTL fun s => s.slkCtl (withBit v 0 false))

/-- SLK_ALIGNED (R311). -/
def execSlkAligned (s : State) : Host.Outcome State Fault Refusal := finish (s.slkAligned)

/-- SLK_INPUT_LOST (R311). -/
def execSlkInputLost (s : State) : Host.Outcome State Fault Refusal := finish (s.slkInputLost).x9All

/-- ANNOUNCE_TIMER (R312). -/
def execAnnounceTimer (s : State) : Host.Outcome State Fault Refusal := finish (s.slkAnnounceTimer)

/-- ANNOUNCE (R312). -/
def execAnnounce (l : List Byte) (clean : Bool) (s : State) : Host.Outcome State Fault Refusal :=
  finish (s.slkFrame 2 l clean).x9All

/-- VOTE (R319). -/
def execVote (l : List Byte) (clean : Bool) (s : State) : Host.Outcome State Fault Refusal :=
  finish (s.slkFrame 1 l clean).x9All

/-- ABANDON (R319). -/
def execAbandon (l : List Byte) (clean : Bool) (s : State) : Host.Outcome State Fault Refusal :=
  finish (s.slkFrame 5 l clean).x9All

/-- BREAK (R314). -/
def execLinkBreak (l : List Byte) (clean : Bool) (s : State) : Host.Outcome State Fault Refusal :=
  finish (s.slkFrame 4 l clean).x9All

/-- TRAILHEAD_FRAME (R321). -/
def execTrailheadFrame (l : List Byte) (clean : Bool) (s : State) : Host.Outcome State Fault Refusal :=
  finish (s.slkFrame 3 l clean).x9All

/-- LOCAL_VOTE (R318). -/
def execLocalVote (s : State) : Host.Outcome State Fault Refusal := finish (s.slkLocalVote).x9All

/-- ROUND_TIMEOUT (R319). -/
def execRoundTimeout (site round : BitVec 8) (s : State) : Host.Outcome State Fault Refusal :=
  finish (s.slkRoundTimeout site.toNat round.toNat).x9All

/-- SLK_TH_SEND (R321). -/
def execSlkThSend (v : Word) (s : State) : Host.Outcome State Fault Refusal := finish (s.regCmd SLK_TH_CTL (withBit v 0 true))

/-- SLK_TH_TIMEOUT (R321). -/
def execSlkThTimeout (s : State) : Host.Outcome State Fault Refusal := finish (s.slkThTimeout)

end Sys2Proof.Machine
end

