-- ==== Sys2Proof/Machine/ExecNear.lean ====
section
/-! DEFINITION. The meanings of the commands, one definition each. The near store (chapter 12). -/

namespace Sys2Proof.Machine

/-- DDR_READ_COMPLETE (R358). -/
def execDdrReadComplete (c : Fin 4) (err : BitVec 640) (s : State) : Host.Outcome State Fault Refusal :=
  finishSync (s.ddrReadComplete c err).netGo

/-- DDR_WRITE_ISSUED (R363). -/
def execDdrWriteIssued (c : Fin 4) (err : BitVec 640) (s : State) : Host.Outcome State Fault Refusal :=
  finishSync (s.ddrWriteIssued c err).netGo

/-- DDR_REFRESH (R365). -/
def execDdrRefresh (c : Fin 4) (postpone : Bool) (s : State) : Host.Outcome State Fault Refusal :=
  finish (s.ddrRefresh c postpone)

/-- DDR_MR4_READ (R365). -/
def execDdrMr4Read (c : Fin 4) (v : BitVec 8) (s : State) : Host.Outcome State Fault Refusal := finish (s.ddrMr4 c v.toNat)

/-- DDR_FULL_TRAIN (R367). -/
def execDdrFullTrain (rx : Rx) (s : State) : Host.Outcome State Fault Refusal := finishSync (s.dataFrame rx (wantOpcode 0x11))

/-- DDR_TRAIN_DONE (R366). -/
def execDdrTrainDone (c : Fin 4) (code lane : BitVec 8) (s : State) : Host.Outcome State Fault Refusal :=
  finish ((s.trainDone c code.toNat lane.toNat).netGo)

/-- DDR_INIT_GRANULE (R368). -/
def execDdrInitGranule (c : Fin 4) (s : State) : Host.Outcome State Fault Refusal := finish (s.ddrInitGranule c)

/-- RETRAIN_ROUND_START (R369). -/
def execRetrainRoundStart (c : Fin 4) (s : State) : Host.Outcome State Fault Refusal := finish (s.retrainStart c)

/-- RETRAIN_STEP (R369). -/
def execRetrainStep (c : Fin 4) (sub : Fin 2) (late : Bool) (s : State) : Host.Outcome State Fault Refusal :=
  finish (s.retrainStep c sub late)

/-- RETRAIN_ROUND_END (R370). -/
def execRetrainRoundEnd (c : Fin 4) (eyes : List (Nat × Nat)) (s : State) : Host.Outcome State Fault Refusal :=
  finish (s.retrainRoundEnd c eyes)

/-- FREEZE_RELEASE (R374). -/
def execFreezeRelease (c : Fin 4) (s : State) : Host.Outcome State Fault Refusal :=
  finish (s.atReg (DMC_FREEZE_CTL c) fun s => (s.freezeRelease c).grantTags.netGo)

/-- DIAG_READ_RAW (R375). -/
def execDiagReadRaw (c : Fin 4) (v : Word) (s : State) : Host.Outcome State Fault Refusal :=
  finish (s.regCmd (DMC_DIAG_CTL c) (withBit (withBit v 0 true) 1 false))

/-- DIAG_WRITE_PATTERN (R375). -/
def execDiagWritePattern (c : Fin 4) (v : Word) (s : State) : Host.Outcome State Fault Refusal :=
  finish (s.regCmd (DMC_DIAG_CTL c) (withBit (withBit v 0 false) 1 true))

/-- DIAG_DONE (R375). -/
def execDiagDone (c : Fin 4) (err : BitVec 640) (s : State) : Host.Outcome State Fault Refusal := finish (s.diagDone c err)

/-- RETENTION_RETURN (R376). -/
def execRetentionReturn (c : Fin 4) (lost : Bool) (err : BitVec 640) (line : Nat) (s : State) : Host.Outcome State Fault Refusal :=
  finishSync (s.retentionReturn c lost err line)

end Sys2Proof.Machine
end

