-- ==== Sys2Proof/Machine/ExecPort.lean ====
section
/-! DEFINITION. The meanings of the commands, one definition each. The ports: vectors, jumps, starts and stops, Ramble, admission and streaming (chapters 03 to 05). -/

namespace Sys2Proof.Machine

/-- VECTOR_PERIOD (R86). -/
def execVectorPeriod (p : Fin 8) (x : Seen) (dirErr sramErr : Bool) (s : State) : Host.Outcome State Fault Refusal :=
  finishSync (s.vectorPeriod p x dirErr sramErr)

/-- JUMP_REQUEST_REGISTERED (R143); in HOLD a request waits for the first vector after it (R147). -/
def execJumpRequestRegistered (p : Fin 8) (s : State) : Host.Outcome State Fault Refusal :=
  finish (if s.get (PRT_SEQ_STATUS_state p) = 3 then s else s.registerDue (portUnit p) (s.seqVec (portUnit p) - 1))

/-- JUMP_HOST_REQ (R142). -/
def execJumpHostReq (p : Fin 8) (s : State) : Host.Outcome State Fault Refusal :=
  finish (s.atClock (PRT_JUMP_HOST p) 1 fun s => s.hostReq (portUnit p))

/-- JUMP_HOST_CANCEL (R142). -/
def execJumpHostCancel (p : Fin 8) (s : State) : Host.Outcome State Fault Refusal :=
  finish (s.atClock (PRT_JUMP_HOST p) 2 fun s => s.put (seqHostF (portUnit p)) 0)

/-- PORT_WAIT_TIMEOUT (R151). -/
def execPortWaitTimeout (p : Fin 8) (s : State) : Host.Outcome State Fault Refusal := finish (s.waitTimeout (portUnit p))

/-- PORT_RUN (R156). -/
def execPortRun (p : Fin 8) (v : Word) (s : State) : Host.Outcome State Fault Refusal :=
  finish (s.atClock (PRT_SEQ_CTL p) (withBit v 0 true) fun s => s.seqCtl p (withBit v 0 true))

/-- PORT_STOP (R158). -/
def execPortStop (p : Fin 8) (v : Word) (s : State) : Host.Outcome State Fault Refusal :=
  finish (s.atClock (PRT_SEQ_CTL p) (withBit v 0 false) fun s => s.seqCtl p (withBit v 0 false))

/-- PORT_START_EVENT (R156). -/
def execPortStartEvent (p : Fin 8) (s : State) : Host.Outcome State Fault Refusal := finish (s.portStartEvent p)

/-- PORT_TRAILHEAD_REACHED (R538). -/
def execPortTrailheadReached (p : Fin 8) (s : State) : Host.Outcome State Fault Refusal := finish (s.portTrailhead p)

/-- PORT_FIRST_VECTOR (R156). -/
def execPortFirstVector (p : Fin 8) (phase : Nat) (x : Seen) (dirErr sramErr : Bool) (s : State) :
    Host.Outcome State Fault Refusal :=
  finishSync (s.firstVector p phase x dirErr sramErr)

/-- BAND_WRITE (R118). -/
def execBandWrite (p : Fin 8) (band : Fin 4) (s : State) : Host.Outcome State Fault Refusal :=
  finish (s.atClock (PRT_TIMING_CTL p) (BitVec.ofNat 32 band) fun s => s.bandWrite p band)

/-- RAMBLE_STEP (R161). -/
def execRambleStep (p : Fin 8) (s : State) : Host.Outcome State Fault Refusal := finish (s.ramStep p)

/-- RAMBLE_SWEEP_UPDATE (R161). -/
def execRambleSweepUpdate (p : Fin 8) (s : State) : Host.Outcome State Fault Refusal := finish (s.ramSweep p)

/-- START_ADMITTED (R178). -/
def execStartAdmitted (p : Fin 8) (s : State) : Host.Outcome State Fault Refusal := finish (s.startAdmitted p)

/-- ADMIT_TIMEOUT (R180). -/
def execAdmitTimeout (p : Fin 8) (s : State) : Host.Outcome State Fault Refusal := finish (s.admitTimeout p)

/-- RING_ZEROED (R171). -/
def execRingZeroed (d : Fin 12) (s : State) : Host.Outcome State Fault Refusal := finish (s.ringZeroed d)

/-- STREAM_FETCH (R183). -/
def execStreamFetch (d : Fin 12) (kind : FetchKind) (s : State) : Host.Outcome State Fault Refusal :=
  finish (s.streamFetch d kind)

/-- STREAM_LINE_VALID (R166). -/
def execStreamLineValid (d : Fin 12) (s : State) : Host.Outcome State Fault Refusal := finishSync (s.streamLand d).grantTags.netGo

/-- HOLD_RESUME (R190). -/
def execHoldResume (p : Fin 8) (phase : Nat) (s : State) : Host.Outcome State Fault Refusal := finish (s.holdResume p phase)

/-- HOLD_TIMEOUT (R191). -/
def execHoldTimeout (p : Fin 8) (s : State) : Host.Outcome State Fault Refusal := finishSync (s.holdTimeout p)

/-- PAGE_AUTH_DONE (R199). -/
def execPageAuthDone (p : Fin 8) (tier : Fin 4) (addr : Nat) (s : State) : Host.Outcome State Fault Refusal :=
  finishSync (s.pageAuthDone p tier addr)

end Sys2Proof.Machine
end

