-- ==== Sys2Proof/Machine/ExecResult.lean ====
section
/-! DEFINITION. The meanings of the commands, one definition each. The scheduler, the result cores and the fail path (chapter 11). -/

namespace Sys2Proof.Machine

/-- SCH_ALLOC (R326). -/
def execSchAlloc (s : State) : Host.Outcome State Fault Refusal := finish ((s.csrRead 8 SCH_ALLOC).2)

/-- TASK_SUBMIT (R326). -/
def execTaskSubmit (slot : BitVec 13) (s : State) : Host.Outcome State Fault Refusal :=
  finish (s.atReg SCH_SUBMIT fun s => s.taskSubmit slot.toNat)

/-- TASK_CANCEL (R336). -/
def execTaskCancel (slot : BitVec 13) (s : State) : Host.Outcome State Fault Refusal :=
  finish (s.atReg SCH_SUBMIT fun s => s.taskCancel slot.toNat)

/-- SLOT_RETURN (R326). -/
def execSlotReturn (slot : BitVec 13) (s : State) : Host.Outcome State Fault Refusal :=
  finish (s.atReg SCH_SUBMIT fun s => s.slotReturn slot.toNat)

/-- BINDING_FIRE (R329). -/
def execBindingFire (k : Fin 64) (s : State) : Host.Outcome State Fault Refusal := finish (s.bindingFire k)

/-- SCHED_TICK (R330). -/
def execSchedTick (s : State) : Host.Outcome State Fault Refusal := finish (s.schTick)

/-- TASK_WAIT_TIMEOUT (R332). -/
def execTaskWaitTimeout (j : Fin 48) (s : State) : Host.Outcome State Fault Refusal := finish (s.taskTimeout j)

/-- TASK_DISPATCH (R335). -/
def execTaskDispatch (g : Fin 4) (s : State) : Host.Outcome State Fault Refusal := finish (s.dispatch g)

/-- TASK_FINISH (R341). -/
def execTaskFinish (c : Fin 16) (bad : List Nat) (s : State) : Host.Outcome State Fault Refusal := finish (s.taskFinish c bad)

/-- TASK_ERROR (R347). -/
def execTaskError (c : Fin 16) (trap : Bool) (detail : Word) (addr : BitVec 64) (s : State) : Host.Outcome State Fault Refusal :=
  finish (s.taskError c (if trap then 7 else 3) detail.toNat addr.toNat)

/-- HAMPER_RELEASE (R348). -/
def execHamperRelease (slot : BitVec 13) (s : State) : Host.Outcome State Fault Refusal := finish (s.hamperRelease slot.toNat)

/-- FAIL_RECORD_DRAIN (R339). -/
def execFailRecordDrain (p : Fin 8) (s : State) : Host.Outcome State Fault Refusal := finish (s.failRecordDrain p)

/-- FLOW_RESET (R348). -/
def execFlowReset (f : Fin 256) (v : Word) (s : State) : Host.Outcome State Fault Refusal :=
  finish (s.regCmd (SCH_FLOW_CFG f) (withBit v 1 true))

/-- CORE_RESET_DONE (R347). -/
def execCoreResetDone (c : Fin 16) (s : State) : Host.Outcome State Fault Refusal := finish (s.coreResetDone c)

end Sys2Proof.Machine
end

