-- ==== Sys2Proof/Machine/ExecService.lean ====
section
/-! DEFINITION. The meanings of the commands, one definition each. Calibration, the in-service test, the scrub and the service microengine (chapter 16). -/

namespace Sys2Proof.Machine

/-- TEMP_SAMPLE (R460). -/
def execTempSampleTick (temps : List Int) (s : State) : Host.Outcome State Fault Refusal := finish (s.tempSampled temps)

/-- CAL_RUN (R461). -/
def execCalRun (u : BitVec 7) (s : State) : Host.Outcome State Fault Refusal :=
  finish (s.atReg CAL_RUN fun s => s.calRun u.toNat)

/-- CAL_SCAN (R462). -/
def execCalScan (s : State) : Host.Outcome State Fault Refusal := finish (s.calScan)

/-- CAL_RUN_DONE (R462). -/
def execCalRunDone (q : List Nat) (s : State) : Host.Outcome State Fault Refusal := finish (s.calRunDone q)

/-- CAL_STALE (R464). -/
def execCalStale (u : Fin 76) (s : State) : Host.Outcome State Fault Refusal := finish (s.calStaleMark u)

/-- CAL_T64_WRITE (R470). -/
def execCalT64Write (p : Fin 256) (path : Fin 3) (c : BitVec 16) (s : State) : Host.Outcome State Fault Refusal :=
  finish (s.atReg (if path.val = 2 then CAL_T64_B p else CAL_T64_A p) fun s => s.t64Write p path c.toNat)

/-- IST_CYCLE (R471). -/
def execIstCycle (s : State) : Host.Outcome State Fault Refusal := finish (s.istCycle)

/-- IST_SLICE_DONE (R472). -/
def execIstSliceDone (outcome : Fin 3) (s : State) : Host.Outcome State Fault Refusal := finish (s.istSliceDone outcome)

/-- CRYPTO_KAT_RETRY (R473). -/
def execCryptoKatRetry (pass : Bool) (s : State) : Host.Outcome State Fault Refusal := finishSync (s.katDone pass)

/-- SCRUB_READ (R474). -/
def execScrubRead (k : Fin 5) (err : BitVec 640) (sram : Fin 3) (s : State) : Host.Outcome State Fault Refusal :=
  finishSync (s.scrubRead k err sram.val)

/-- SME_COMMIT_POINT (R477). -/
def execSmeCommitPoint (clocks : Nat) (s : State) : Host.Outcome State Fault Refusal := finish (s.smeCommitPoint clocks)

/-- SME_ROUTINE_END (R476). -/
def execSmeRoutineEnd (s : State) : Host.Outcome State Fault Refusal := finishSync (s.smeRoutineEnd.netGo)

/-- SME_FAULT (R482). -/
def execSmeFault (patchRam : Bool) (s : State) : Host.Outcome State Fault Refusal := finish (s.smeFaultLoad patchRam)

end Sys2Proof.Machine
end

