-- ==== Sys2Proof/Machine/ExecSystem.lean ====
section
/-! DEFINITION. The meanings of the commands, one definition each. Events, inputs, resets, boot, power domains and the pin-electronics buses (chapters 17, 18). -/

namespace Sys2Proof.Machine

/-- EVENT_ACCEPT (R488). -/
def execEventAccept (src : Fin 512) (merged : Bool) (s : State) : Host.Outcome State Fault Refusal :=
  finish (s.eventAccept src merged)

/-- EVENT_LATCH_CLEAR (R489). -/
def execEventLatchClear (k : Fin 16) (v : Word) (s : State) : Host.Outcome State Fault Refusal :=
  finish (s.atReg (EVC_LATCH k) fun s => s.latchClear k v)

/-- EVT_OUT_PULSE_END (R490). -/
def execEvtOutPulseEnd (k : Fin 8) (s : State) : Host.Outcome State Fault Refusal := finish (s.outPulseEnd k)

/-- INPUT_EDGE (R491). -/
def execInputEdge (input : Fin 17) (level : Bool) (samples cycles : Nat) (s : State) : Host.Outcome State Fault Refusal :=
  finish (s.inputEdge input level samples cycles)

/-- POWER_ON_RESET (R495). -/
def execPowerOnReset (freq : Option (Fin 4)) (storeOk : Bool) (s : State) : Host.Outcome State Fault Refusal :=
  finish (s.powerOnReset freq storeOk)

/-- POWER_FAIL (R519). -/
def execPowerFail (s : State) : Host.Outcome State Fault Refusal := finish (s.powerFail)

/-- RST_N_RESET (R495). -/
def execRstNReset (ns : Nat) (s : State) : Host.Outcome State Fault Refusal := finish (s.rstNReset ns)

/-- RST_N_RELEASE (R495). -/
def execRstNRelease (s : State) : Host.Outcome State Fault Refusal := finish (s.rstNRelease)

/-- WATCHDOG_SERVICE (R499). -/
def execWatchdogService (s : State) : Host.Outcome State Fault Refusal := finish (s.wdtService)

/-- WATCHDOG_HALF (R499). -/
def execWatchdogHalf (s : State) : Host.Outcome State Fault Refusal := finish (s.wdtHalf)

/-- WATCHDOG_RESET (R499). -/
def execWatchdogReset (s : State) : Host.Outcome State Fault Refusal := finish (s.wdtReset)

/-- TAMPER_RESET (R501). -/
def execTamperReset (s : State) : Host.Outcome State Fault Refusal := finish (s.tamperReset)

/-- QUADRANT_RESET (R500). -/
def execQuadrantReset (go : BitVec 4) (s : State) : Host.Outcome State Fault Refusal :=
  finishSync (s.atReg GLB_QRESET fun s => (s.quadrantReset go.toNat).clockGo)

/-- QUADRANT_RESET_DONE (R500). -/
def execQuadrantResetDone (q : Fin 4) (s : State) : Host.Outcome State Fault Refusal := finish (s.quadrantResetDone q)

/-- BOOT_VERIFIED (R433). -/
def execBootVerified (slot0 slot1 : List (List Byte)) (config : List Byte) (s : State) : Host.Outcome State Fault Refusal :=
  finish (s.bootVerified slot0 slot1 config)

/-- DEVICE_READY (R503). -/
def execDeviceReady (ms : Nat) (s : State) : Host.Outcome State Fault Refusal := finish (s.deviceReady ms)

/-- DOMAIN_SWITCH_DONE (R507). -/
def execDomainSwitchDone (d : Fin 44) (s : State) : Host.Outcome State Fault Refusal := finishSync (s.domainSwitchDone d).clockGo

/-- DOMAIN_FAULT (R508). -/
def execDomainFault (d : Fin 44) (s : State) : Host.Outcome State Fault Refusal := finishSync (s.domainFault d).clockGo

/-- PEB_READY (R505). -/
def execPebReady (b : Fin 8) (s : State) : Host.Outcome State Fault Refusal := finish (s.pebReady b)

/-- PE_READY_HIGH (R505). -/
def execPeReadyHigh (b : Fin 8) (s : State) : Host.Outcome State Fault Refusal := finish (s.peReadyHigh b)

/-- PEB_TXN_GO (R516). -/
def execPebTxnGo (b : Fin 8) (v : Word) (s : State) : Host.Outcome State Fault Refusal :=
  finish (s.atReg (PEB_TXN b) fun s => s.pebTxn b (withBit v 31 true))

/-- PEB_TXN_START (R516). -/
def execPebTxnStart (b : Fin 8) (s : State) : Host.Outcome State Fault Refusal := finish (s.pebStart b)

/-- PEB_TXN_DONE (R516). -/
def execPebTxnDone (b : Fin 8) (rx : List Byte) (s : State) : Host.Outcome State Fault Refusal := finish (s.pebEnd b rx)

/-- PEB_ABORT (R516). -/
def execPebAbort (b : Fin 8) (rx : List Byte) (s : State) : Host.Outcome State Fault Refusal :=
  finish (s.atReg (PEB_CTL b) fun s => s.pebAbort b rx)

/-- CLOSED_ROUND_EXPIRY (R319). -/
def execClosedRoundExpiry (site round : BitVec 8) (s : State) : Host.Outcome State Fault Refusal :=
  finish (s.slkClosedExpiry site.toNat round.toNat)

end Sys2Proof.Machine
end

