-- ==== Sys2Proof/Machine/ExecTrust.lean ====
section
/-! DEFINITION. The meanings of the commands, one definition each. Ownership, keys, Rucksacks, receipts, tamper and the JTAG port (chapters 15, 18). -/

namespace Sys2Proof.Machine

/-- GET_OWNER (R453). -/
def execGetOwner (rx : Rx) (s : State) : Host.Outcome State Fault Refusal := finishSync (s.dataFrame rx (wantOpcode 0x30))

/-- GET_CHALLENGE (R453). -/
def execGetChallenge (rx : Rx) (s : State) : Host.Outcome State Fault Refusal := finishSync (s.dataFrame rx (wantOpcode 0x31))

/-- LOAD_KEY (R435). -/
def execLoadKey (rx : Rx) (s : State) : Host.Outcome State Fault Refusal := finishSync (s.dataFrame rx (wantOpcode 0x32))

/-- CLEAR_KEY (R435). -/
def execClearKey (rx : Rx) (s : State) : Host.Outcome State Fault Refusal := finishSync (s.dataFrame rx (wantOpcode 0x33))

/-- RUCKSACK_OPEN (R436). -/
def execRucksackOpen (rx : Rx) (s : State) : Host.Outcome State Fault Refusal := finishSync (s.dataFrame rx (wantOpcode 0x34))

/-- RUCKSACK_LOCK (R436). -/
def execRucksackLock (s : State) : Host.Outcome State Fault Refusal := finishSync (s.rucksackLock.netGo)

/-- RUCKSACK_CLOSE (R437). -/
def execRucksackClose (rx : Rx) (s : State) : Host.Outcome State Fault Refusal := finishSync (s.dataFrame rx (wantOpcode 0x35))

/-- REGION_ZEROED (R437). -/
def execRegionZeroed (p : Fin 8) (s : State) : Host.Outcome State Fault Refusal := finish (s.regionZeroed p)

/-- GET_RECEIPT (R439). -/
def execGetReceipt (rx : Rx) (s : State) : Host.Outcome State Fault Refusal := finishSync (s.dataFrame rx (wantOpcode 0x36))

/-- RECEIPT_QUEUED (R439). -/
def execReceiptQueued (p : Fin 8) (s : State) : Host.Outcome State Fault Refusal := finish (s.receiptQueued p)

/-- TAMPER_LOG (R449). -/
def execTamperLog (rx : Rx) (s : State) : Host.Outcome State Fault Refusal := finishSync (s.dataFrame rx (wantOpcode 0x37))

/-- SET_POLICY (R429). -/
def execSetPolicy (rx : Rx) (s : State) : Host.Outcome State Fault Refusal := finishSync (s.dataFrame rx (wantOpcode 0x38))

/-- UNSEAL (R445). -/
def execUnsealDevice (rx : Rx) (s : State) : Host.Outcome State Fault Refusal := finishSync (s.dataFrame rx (wantOpcode 0x39))

/-- RELEASE (R446). -/
def execRelease (rx : Rx) (s : State) : Host.Outcome State Fault Refusal := finishSync (s.dataFrame rx (wantOpcode 0x3A))

/-- TAMPER_FIRE (R444). -/
def execTamperFire (fired active : BitVec 8) (off : Bool) (aon : Nat) (s : State) : Host.Outcome State Fault Refusal :=
  finishSync ((s.tamperFire fired active off aon).netGo)

/-- SEC_CHALLENGE (R451). -/
def execSecChallenge (s : State) : Host.Outcome State Fault Refusal := finish (s.jtagChallenge)

/-- SEC_UNLOCK (R452). -/
def execSecUnlock (sig : List Byte) (s : State) : Host.Outcome State Fault Refusal := finishSync ((s.jtagUnlock sig).netGo)

/-- SEC_BOOT (R433). -/
def execSecBoot (s : State) : Host.Outcome State Fault Refusal := finish (s.jtagSelect 0x22 s.boot.secBoot)

/-- EXTEST (R531). -/
def execExtest (balls load : BitVec 3507) (s : State) : Host.Outcome State Fault Refusal := finish (s.jtagScan 0 balls load)

/-- IDCODE (R531). -/
def execIdcode (s : State) : Host.Outcome State Fault Refusal := finish (s.jtagSelect 1 0x1025656F)

/-- SAMPLE_PRELOAD (R531). -/
def execSamplePreload (balls load : BitVec 3507) (s : State) : Host.Outcome State Fault Refusal :=
  finish (s.jtagScan 2 balls load)

/-- CLAMP (R531). -/
def execClamp (s : State) : Host.Outcome State Fault Refusal := finish (s.jtagSelect 3 0)

/-- HIGHZ (R531). -/
def execHighz (s : State) : Host.Outcome State Fault Refusal := finish (s.jtagSelect 4 0)

/-- BYPASS (R531). -/
def execBypass (s : State) : Host.Outcome State Fault Refusal := finish (s.jtagSelect 0xFF 0)

end Sys2Proof.Machine
end

