-- ==== Sys2Proof/Machine/Dispatch.lean ====
section
/-! DEFINITION. The meaning of every command: one arm per row of the table. -/

namespace Sys2Proof.Machine

/-- The effect of a command on everything but the queue. -/
def exec (i : Instr) (s : State) : Host.Outcome State Fault Refusal :=
  match i with
  | .registerWrite addr v => Sys2Proof.Machine.execRegisterWrite addr v s
  | .fabricRequest req addr write enables => Sys2Proof.Machine.execFabricRequest req addr write enables s
  | .fabricResponse req addr k ue => Sys2Proof.Machine.execFabricResponse req addr k ue s
  | .structLoad rx => Sys2Proof.Machine.execStructLoad rx s
  | .structCheckDone => Sys2Proof.Machine.execStructCheckDone s
  | .structUnitsStopped => Sys2Proof.Machine.execStructUnitsStopped s
  | .structDomainsSettled => Sys2Proof.Machine.execStructDomainsSettled s
  | .structureCommit => Sys2Proof.Machine.execStructureCommit s
  | .structLoadDone => Sys2Proof.Machine.execStructLoadDone s
  | .stcSwstrobe v => Sys2Proof.Machine.execStcSwstrobe v s
  | .pwrDomainWrite hi v => Sys2Proof.Machine.execPwrDomainWrite hi v s
  | .vectorPeriod p x dirErr sramErr => Sys2Proof.Machine.execVectorPeriod p x dirErr sramErr s
  | .jumpRequestRegistered p => Sys2Proof.Machine.execJumpRequestRegistered p s
  | .jumpHostReq p => Sys2Proof.Machine.execJumpHostReq p s
  | .jumpHostCancel p => Sys2Proof.Machine.execJumpHostCancel p s
  | .portWaitTimeout p => Sys2Proof.Machine.execPortWaitTimeout p s
  | .portRun p v => Sys2Proof.Machine.execPortRun p v s
  | .portStop p v => Sys2Proof.Machine.execPortStop p v s
  | .portStartEvent p => Sys2Proof.Machine.execPortStartEvent p s
  | .portTrailheadReached p => Sys2Proof.Machine.execPortTrailheadReached p s
  | .portFirstVector p phase x dirErr sramErr => Sys2Proof.Machine.execPortFirstVector p phase x dirErr sramErr s
  | .bandWrite p band => Sys2Proof.Machine.execBandWrite p band s
  | .rambleStep p => Sys2Proof.Machine.execRambleStep p s
  | .rambleSweepUpdate p => Sys2Proof.Machine.execRambleSweepUpdate p s
  | .startAdmitted p => Sys2Proof.Machine.execStartAdmitted p s
  | .admitTimeout p => Sys2Proof.Machine.execAdmitTimeout p s
  | .ringZeroed d => Sys2Proof.Machine.execRingZeroed d s
  | .streamFetch d kind => Sys2Proof.Machine.execStreamFetch d kind s
  | .streamLineValid d => Sys2Proof.Machine.execStreamLineValid d s
  | .holdResume p phase => Sys2Proof.Machine.execHoldResume p phase s
  | .holdTimeout p => Sys2Proof.Machine.execHoldTimeout p s
  | .pageAuthDone p tier addr => Sys2Proof.Machine.execPageAuthDone p tier addr s
  | .dplRun d v => Sys2Proof.Machine.execDplRun d v s
  | .dplRunOff d v => Sys2Proof.Machine.execDplRunOff d v s
  | .dplCommit d v => Sys2Proof.Machine.execDplCommit d v s
  | .dplReseed d v => Sys2Proof.Machine.execDplReseed d v s
  | .dplHandover d => Sys2Proof.Machine.execDplHandover d s
  | .dplLockDeclared d => Sys2Proof.Machine.execDplLockDeclared d s
  | .dplSettled d phase => Sys2Proof.Machine.execDplSettled d phase s
  | .dplLossOfLock d => Sys2Proof.Machine.execDplLossOfLock d s
  | .dplHoldToAcquire d => Sys2Proof.Machine.execDplHoldToAcquire d s
  | .dplFail d => Sys2Proof.Machine.execDplFail d s
  | .dplRampUpdate d => Sys2Proof.Machine.execDplRampUpdate d s
  | .dplRampSettled d => Sys2Proof.Machine.execDplRampSettled d s
  | .ceilingSuppress clk => Sys2Proof.Machine.execCeilingSuppress clk s
  | .refAbsent => Sys2Proof.Machine.execRefAbsent s
  | .refPresent => Sys2Proof.Machine.execRefPresent s
  | .tbpllMdllReady => Sys2Proof.Machine.execTbpllMdllReady s
  | .tbpllLocked => Sys2Proof.Machine.execTbpllLocked s
  | .tbpllUnlocked => Sys2Proof.Machine.execTbpllUnlocked s
  | .tbpllReturn phi slew => Sys2Proof.Machine.execTbpllReturn phi slew s
  | .tbpllAligned => Sys2Proof.Machine.execTbpllAligned s
  | .holdoverLong => Sys2Proof.Machine.execHoldoverLong s
  | .timestampWrap => Sys2Proof.Machine.execTimestampWrap s
  | .timeBaseZero late => Sys2Proof.Machine.execTimeBaseZero late s
  | .trailheadArm => Sys2Proof.Machine.execTrailheadArm s
  | .tmbTrailheadReached => Sys2Proof.Machine.execTmbTrailheadReached s
  | .phaseSampleReq d v => Sys2Proof.Machine.execPhaseSampleReq d v s
  | .phaseSample d ofs => Sys2Proof.Machine.execPhaseSample d ofs s
  | .acqArm e v => Sys2Proof.Machine.execAcqArm e v s
  | .acqStop e v => Sys2Proof.Machine.execAcqStop e v s
  | .acqForce e v => Sys2Proof.Machine.execAcqForce e v s
  | .acqRecordPublish e => Sys2Proof.Machine.execAcqRecordPublish e s
  | .acqDrainRdWrite e v => Sys2Proof.Machine.execAcqDrainRdWrite e v s
  | .timArm t v v1 v2 => Sys2Proof.Machine.execTimArm t v v1 v2 s
  | .timStop t v => Sys2Proof.Machine.execTimStop t v s
  | .timMeasStart t => Sys2Proof.Machine.execTimMeasStart t s
  | .timEdge t at_ falling => Sys2Proof.Machine.execTimEdge t at_ falling s
  | .timResult t x v1 v2 => Sys2Proof.Machine.execTimResult t x v1 v2 s
  | .timGateEnd t => Sys2Proof.Machine.execTimGateEnd t s
  | .timHistUpdate q => Sys2Proof.Machine.execTimHistUpdate q s
  | .timHistClear t v => Sys2Proof.Machine.execTimHistClear t v s
  | .timHistClearDone t => Sys2Proof.Machine.execTimHistClearDone t s
  | .timDllLock t => Sys2Proof.Machine.execTimDllLock t s
  | .timDllUnlock t => Sys2Proof.Machine.execTimDllUnlock t s
  | .secretPeriodEnd p => Sys2Proof.Machine.execSecretPeriodEnd p s
  | .wfgRun m v => Sys2Proof.Machine.execWfgRun m v s
  | .wfgStop m v => Sys2Proof.Machine.execWfgStop m v s
  | .wfgAdmitted m => Sys2Proof.Machine.execWfgAdmitted m s
  | .wfgAdmitTimeout m => Sys2Proof.Machine.execWfgAdmitTimeout m s
  | .wfgTrailheadReached m => Sys2Proof.Machine.execWfgTrailheadReached m s
  | .wfgFirstSample m phase sramErr => Sys2Proof.Machine.execWfgFirstSample m phase sramErr s
  | .wfgWdCycle m sramErr => Sys2Proof.Machine.execWfgWdCycle m sramErr s
  | .wfgRequestRegistered m => Sys2Proof.Machine.execWfgRequestRegistered m s
  | .wfgJumpHostReq m => Sys2Proof.Machine.execWfgJumpHostReq m s
  | .wfgJumpHostCancel m => Sys2Proof.Machine.execWfgJumpHostCancel m s
  | .wfgWaitTimeout m => Sys2Proof.Machine.execWfgWaitTimeout m s
  | .pdacCodeWrite u code => Sys2Proof.Machine.execPdacCodeWrite u code s
  | .pdacGroupLoad q v => Sys2Proof.Machine.execPdacGroupLoad q v s
  | .pdacMatrixLoad g => Sys2Proof.Machine.execPdacMatrixLoad g s
  | .pdacHoldEnd u => Sys2Proof.Machine.execPdacHoldEnd u s
  | .pdacLimit u atLimit => Sys2Proof.Machine.execPdacLimit u atLimit s
  | .pdacScOff u => Sys2Proof.Machine.execPdacScOff u s
  | .slkEnable v => Sys2Proof.Machine.execSlkEnable v s
  | .slkDisable v => Sys2Proof.Machine.execSlkDisable v s
  | .slkAligned => Sys2Proof.Machine.execSlkAligned s
  | .slkInputLost => Sys2Proof.Machine.execSlkInputLost s
  | .announceTimer => Sys2Proof.Machine.execAnnounceTimer s
  | .announce l clean => Sys2Proof.Machine.execAnnounce l clean s
  | .vote l clean => Sys2Proof.Machine.execVote l clean s
  | .abandon l clean => Sys2Proof.Machine.execAbandon l clean s
  | .linkBreak l clean => Sys2Proof.Machine.execLinkBreak l clean s
  | .trailheadFrame l clean => Sys2Proof.Machine.execTrailheadFrame l clean s
  | .localVote => Sys2Proof.Machine.execLocalVote s
  | .roundTimeout site round => Sys2Proof.Machine.execRoundTimeout site round s
  | .slkThSend v => Sys2Proof.Machine.execSlkThSend v s
  | .slkThTimeout => Sys2Proof.Machine.execSlkThTimeout s
  | .schAlloc => Sys2Proof.Machine.execSchAlloc s
  | .taskSubmit slot => Sys2Proof.Machine.execTaskSubmit slot s
  | .taskCancel slot => Sys2Proof.Machine.execTaskCancel slot s
  | .slotReturn slot => Sys2Proof.Machine.execSlotReturn slot s
  | .bindingFire k => Sys2Proof.Machine.execBindingFire k s
  | .schedTick => Sys2Proof.Machine.execSchedTick s
  | .taskWaitTimeout j => Sys2Proof.Machine.execTaskWaitTimeout j s
  | .taskDispatch g => Sys2Proof.Machine.execTaskDispatch g s
  | .taskFinish c bad => Sys2Proof.Machine.execTaskFinish c bad s
  | .taskError c trap detail addr => Sys2Proof.Machine.execTaskError c trap detail addr s
  | .hamperRelease slot => Sys2Proof.Machine.execHamperRelease slot s
  | .failRecordDrain p => Sys2Proof.Machine.execFailRecordDrain p s
  | .flowReset f v => Sys2Proof.Machine.execFlowReset f v s
  | .coreResetDone c => Sys2Proof.Machine.execCoreResetDone c s
  | .ddrReadComplete c err => Sys2Proof.Machine.execDdrReadComplete c err s
  | .ddrWriteIssued c err => Sys2Proof.Machine.execDdrWriteIssued c err s
  | .ddrRefresh c postpone => Sys2Proof.Machine.execDdrRefresh c postpone s
  | .ddrMr4Read c v => Sys2Proof.Machine.execDdrMr4Read c v s
  | .ddrFullTrain rx => Sys2Proof.Machine.execDdrFullTrain rx s
  | .ddrTrainDone c code lane => Sys2Proof.Machine.execDdrTrainDone c code lane s
  | .ddrInitGranule c => Sys2Proof.Machine.execDdrInitGranule c s
  | .retrainRoundStart c => Sys2Proof.Machine.execRetrainRoundStart c s
  | .retrainStep c sub late => Sys2Proof.Machine.execRetrainStep c sub late s
  | .retrainRoundEnd c eyes => Sys2Proof.Machine.execRetrainRoundEnd c eyes s
  | .freezeRelease c => Sys2Proof.Machine.execFreezeRelease c s
  | .diagReadRaw c v => Sys2Proof.Machine.execDiagReadRaw c v s
  | .diagWritePattern c v => Sys2Proof.Machine.execDiagWritePattern c v s
  | .diagDone c err => Sys2Proof.Machine.execDiagDone c err s
  | .retentionReturn c lost err line => Sys2Proof.Machine.execRetentionReturn c lost err line s
  | .cxlEnable v => Sys2Proof.Machine.execCxlEnable v s
  | .cxlDisable v => Sys2Proof.Machine.execCxlDisable v s
  | .cxlReenum v => Sys2Proof.Machine.execCxlReenum v s
  | .cxlSetupResult h width speed fail ide cap records => Sys2Proof.Machine.execCxlSetupResult h width speed fail ide cap records s
  | .cxlRetryTimer h => Sys2Proof.Machine.execCxlRetryTimer h s
  | .cxlWindowEnd h => Sys2Proof.Machine.execCxlWindowEnd h s
  | .cxlMemdata nth poison replays => Sys2Proof.Machine.execCxlMemdata nth poison replays s
  | .cxlCmp nth => Sys2Proof.Machine.execCxlCmp nth s
  | .cxlReadTimeout nth => Sys2Proof.Machine.execCxlReadTimeout nth s
  | .cxlRecoveryEnter h => Sys2Proof.Machine.execCxlRecoveryEnter h s
  | .cxlRecoveryExit h => Sys2Proof.Machine.execCxlRecoveryExit h s
  | .cxlLinkDown h => Sys2Proof.Machine.execCxlLinkDown h s
  | .cxlIdeFail h => Sys2Proof.Machine.execCxlIdeFail h s
  | .cxlMsix h records => Sys2Proof.Machine.execCxlMsix h records s
  | .hello rx => Sys2Proof.Machine.execHello rx s
  | .confirm rx => Sys2Proof.Machine.execConfirm rx s
  | .ack rx => Sys2Proof.Machine.execAck rx s
  | .keepalive rx => Sys2Proof.Machine.execKeepalive rx s
  | .close rx => Sys2Proof.Machine.execClose rx s
  | .pendingTimeout k => Sys2Proof.Machine.execPendingTimeout k s
  | .keepaliveTimer k => Sys2Proof.Machine.execKeepaliveTimer k s
  | .sessionTimeout k => Sys2Proof.Machine.execSessionTimeout k s
  | .resumeTimeout k => Sys2Proof.Machine.execResumeTimeout k s
  | .ackTimer k c => Sys2Proof.Machine.execAckTimer k c s
  | .retransmitTimer k c => Sys2Proof.Machine.execRetransmitTimer k c s
  | .hamperFrameSend k => Sys2Proof.Machine.execHamperFrameSend k s
  | .eventFrameSend k => Sys2Proof.Machine.execEventFrameSend k s
  | .probe rx => Sys2Proof.Machine.execProbe rx s
  | .csrRead rx => Sys2Proof.Machine.execCsrRead rx s
  | .csrWrite rx => Sys2Proof.Machine.execCsrWrite rx s
  | .getCert rx => Sys2Proof.Machine.execGetCert rx s
  | .warmReset rx => Sys2Proof.Machine.execWarmReset rx s
  | .calFull rx => Sys2Proof.Machine.execCalFull rx s
  | .fwUpdate rx => Sys2Proof.Machine.execFwUpdate rx s
  | .scrubFull rx => Sys2Proof.Machine.execScrubFull rx s
  | .enrol rx => Sys2Proof.Machine.execEnrol rx s
  | .zeroize rx => Sys2Proof.Machine.execZeroize rx s
  | .longOpEnd => Sys2Proof.Machine.execLongOpEnd s
  | .bulkWrite rx => Sys2Proof.Machine.execBulkWrite rx s
  | .bulkRead rx => Sys2Proof.Machine.execBulkRead rx s
  | .arpRequest p target mac ip => Sys2Proof.Machine.execArpRequest p target mac ip s
  | .neighbourSolicitation p target mac ip => Sys2Proof.Machine.execNeighbourSolicitation p target mac ip s
  | .icmpEcho p v6 target mac ip payload => Sys2Proof.Machine.execIcmpEcho p v6 target mac ip payload s
  | .dhcpRenew p => Sys2Proof.Machine.execDhcpRenew p s
  | .dhcpLeaseLost p => Sys2Proof.Machine.execDhcpLeaseLost p s
  | .ethLinkUp p => Sys2Proof.Machine.execEthLinkUp p s
  | .ethLinkDown p => Sys2Proof.Machine.execEthLinkDown p s
  | .netApply v => Sys2Proof.Machine.execNetApply v s
  | .dhcpLeaseObtained p ip secs => Sys2Proof.Machine.execDhcpLeaseObtained p ip secs s
  | .duplicateAddressDetection p global duplicate => Sys2Proof.Machine.execDuplicateAddressDetection p global duplicate s
  | .pauseFrame p => Sys2Proof.Machine.execPauseFrame p s
  | .unknownOpcode rx => Sys2Proof.Machine.execUnknownOpcode rx s
  | .getOwner rx => Sys2Proof.Machine.execGetOwner rx s
  | .getChallenge rx => Sys2Proof.Machine.execGetChallenge rx s
  | .loadKey rx => Sys2Proof.Machine.execLoadKey rx s
  | .clearKey rx => Sys2Proof.Machine.execClearKey rx s
  | .rucksackOpen rx => Sys2Proof.Machine.execRucksackOpen rx s
  | .rucksackLock => Sys2Proof.Machine.execRucksackLock s
  | .rucksackClose rx => Sys2Proof.Machine.execRucksackClose rx s
  | .regionZeroed p => Sys2Proof.Machine.execRegionZeroed p s
  | .getReceipt rx => Sys2Proof.Machine.execGetReceipt rx s
  | .receiptQueued p => Sys2Proof.Machine.execReceiptQueued p s
  | .tamperLog rx => Sys2Proof.Machine.execTamperLog rx s
  | .setPolicy rx => Sys2Proof.Machine.execSetPolicy rx s
  | .unsealDevice rx => Sys2Proof.Machine.execUnsealDevice rx s
  | .release rx => Sys2Proof.Machine.execRelease rx s
  | .tamperFire fired active off aon => Sys2Proof.Machine.execTamperFire fired active off aon s
  | .secChallenge => Sys2Proof.Machine.execSecChallenge s
  | .secUnlock sig => Sys2Proof.Machine.execSecUnlock sig s
  | .secBoot => Sys2Proof.Machine.execSecBoot s
  | .extest balls load => Sys2Proof.Machine.execExtest balls load s
  | .idcode => Sys2Proof.Machine.execIdcode s
  | .samplePreload balls load => Sys2Proof.Machine.execSamplePreload balls load s
  | .clamp => Sys2Proof.Machine.execClamp s
  | .highz => Sys2Proof.Machine.execHighz s
  | .bypass => Sys2Proof.Machine.execBypass s
  | .tempSampleTick temps => Sys2Proof.Machine.execTempSampleTick temps s
  | .calRun u => Sys2Proof.Machine.execCalRun u s
  | .calScan => Sys2Proof.Machine.execCalScan s
  | .calRunDone q => Sys2Proof.Machine.execCalRunDone q s
  | .calStale u => Sys2Proof.Machine.execCalStale u s
  | .calT64Write p path c => Sys2Proof.Machine.execCalT64Write p path c s
  | .istCycle => Sys2Proof.Machine.execIstCycle s
  | .istSliceDone outcome => Sys2Proof.Machine.execIstSliceDone outcome s
  | .cryptoKatRetry pass => Sys2Proof.Machine.execCryptoKatRetry pass s
  | .scrubRead k err sram => Sys2Proof.Machine.execScrubRead k err sram s
  | .smeCommitPoint clocks => Sys2Proof.Machine.execSmeCommitPoint clocks s
  | .smeRoutineEnd => Sys2Proof.Machine.execSmeRoutineEnd s
  | .smeFault patchRam => Sys2Proof.Machine.execSmeFault patchRam s
  | .eventAccept src merged => Sys2Proof.Machine.execEventAccept src merged s
  | .eventLatchClear k v => Sys2Proof.Machine.execEventLatchClear k v s
  | .evtOutPulseEnd k => Sys2Proof.Machine.execEvtOutPulseEnd k s
  | .inputEdge input level samples cycles => Sys2Proof.Machine.execInputEdge input level samples cycles s
  | .powerOnReset freq storeOk => Sys2Proof.Machine.execPowerOnReset freq storeOk s
  | .powerFail => Sys2Proof.Machine.execPowerFail s
  | .rstNReset ns => Sys2Proof.Machine.execRstNReset ns s
  | .rstNRelease => Sys2Proof.Machine.execRstNRelease s
  | .watchdogService => Sys2Proof.Machine.execWatchdogService s
  | .watchdogHalf => Sys2Proof.Machine.execWatchdogHalf s
  | .watchdogReset => Sys2Proof.Machine.execWatchdogReset s
  | .tamperReset => Sys2Proof.Machine.execTamperReset s
  | .quadrantReset go => Sys2Proof.Machine.execQuadrantReset go s
  | .quadrantResetDone q => Sys2Proof.Machine.execQuadrantResetDone q s
  | .bootVerified slot0 slot1 config => Sys2Proof.Machine.execBootVerified slot0 slot1 config s
  | .deviceReady ms => Sys2Proof.Machine.execDeviceReady ms s
  | .domainSwitchDone d => Sys2Proof.Machine.execDomainSwitchDone d s
  | .domainFault d => Sys2Proof.Machine.execDomainFault d s
  | .pebReady b => Sys2Proof.Machine.execPebReady b s
  | .peReadyHigh b => Sys2Proof.Machine.execPeReadyHigh b s
  | .pebTxnGo b v => Sys2Proof.Machine.execPebTxnGo b v s
  | .pebTxnStart b => Sys2Proof.Machine.execPebTxnStart b s
  | .pebTxnDone b rx => Sys2Proof.Machine.execPebTxnDone b rx s
  | .pebAbort b rx => Sys2Proof.Machine.execPebAbort b rx s
  | .closedRoundExpiry site round => Sys2Proof.Machine.execClosedRoundExpiry site round s

end Sys2Proof.Machine
end

