-- ==== Sys2Proof/Safety.lean ====
section
/-! DEFINITION. What counts as a well-kept state, a command that stores nothing, and a frame of the host that passes every check, in the
terms the claims use. -/

namespace Sys2Proof.Machine

/-- Memory and register file are in canonical form: equal contents are equal data. -/
def State.canonical (s : State) : Bool := Memory.wf s.mem && cellsWf regReset s.csr

/-- A command that never stores to memory: neither data nor records nor zeros, itself or by what it sets going. The list is conservative:
a command that it leaves out may store nothing on most states. -/
def storesNothing (c : Instr) : Bool :=
  match c with
  | .registerWrite .. | .fabricRequest .. | .fabricResponse .. | .structLoad .. | .structCheckDone .. | .structUnitsStopped .. |
    .structDomainsSettled .. | .structLoadDone .. | .pwrDomainWrite .. | .vectorPeriod .. | .portRun .. | .portStop .. |
    .portTrailheadReached .. | .portFirstVector .. | .rambleStep .. | .rambleSweepUpdate .. | .admitTimeout .. | .ringZeroed .. |
    .streamLineValid .. | .holdTimeout .. | .pageAuthDone .. | .dplFail .. | .dplRunOff .. | .dplSettled .. | .tbpllReturn .. |
    .timeBaseZero .. | .phaseSampleReq .. |
    .acqRecordPublish .. | .acqDrainRdWrite .. | .timMeasStart .. | .timResult .. | .timGateEnd .. | .timHistClear .. | .announce .. |
    .vote .. | .abandon .. | .linkBreak .. | .trailheadFrame .. | .slkThSend .. | .taskFinish .. | .failRecordDrain .. | .flowReset .. |
    .ddrReadComplete .. | .ddrWriteIssued .. | .ddrFullTrain .. | .ddrTrainDone .. | .freezeRelease .. | .diagReadRaw .. |
    .diagWritePattern .. | .diagDone .. | .retentionReturn .. | .cxlEnable .. | .cxlDisable .. | .cxlReenum .. | .cxlCmp .. |
    .cxlReadTimeout .. | .cxlRecoveryEnter .. | .cxlLinkDown .. | .cxlIdeFail .. | .hello .. | .confirm .. | .ack .. | .keepalive .. |
    .close .. | .probe .. | .csrRead .. | .csrWrite .. | .getCert .. | .warmReset .. | .calFull .. | .fwUpdate .. | .scrubFull .. |
    .enrol .. | .zeroize .. | .bulkWrite .. | .bulkRead .. | .unknownOpcode .. | .getOwner .. | .getChallenge .. | .loadKey .. |
    .clearKey .. | .rucksackOpen .. | .rucksackLock .. | .rucksackClose .. | .regionZeroed .. | .getReceipt .. | .tamperLog .. |
    .setPolicy .. | .unsealDevice .. | .release .. | .tamperFire .. | .secUnlock .. | .cryptoKatRetry .. | .scrubRead .. |
    .smeRoutineEnd .. | .smeFault .. | .powerOnReset .. | .powerFail .. | .rstNReset .. | .watchdogReset .. | .tamperReset .. |
    .quadrantReset .. | .quadrantResetDone .. | .bootVerified .. | .domainSwitchDone .. | .domainFault .. => false
  | _ => true

/-! ## Frames of the host (R400) -/

/-- The state in which a frame that passes every check of R400 has its effect: it is counted at its port, a verified tag ends a run of
authentication failures, and its txc, its time and its source are taken. -/
def State.taken (s : State) (k : Fin 8) (rx : Rx) : State :=
  let a := s.rxCount (Fin.ofNat 2 rx.port)
  let b := if a.encMode k then a.authOk else a
  b.setSess k { b.net.sess[k] with
    rxSeen := txcTake b.net.sess[k].rxSeen rx.txc, lastRx := b.tmb.clk
    peer := { b.net.sess[k].peer with mac := rx.mac, uport := rx.uport } }

/-- A frame `raw` of type `typ` passes every check of R400 in OPEN session `k` (R395, R404, R407); `rx` is the frame with its payload as
plaintext, the frame itself in a session in plaintext mode. -/
def State.frameOk (s : State) (k : Fin 8) (typ : Nat) (raw rx : Rx) : Bool :=
  let p : Fin 2 := Fin.ofNat 2 rx.port
  let a := s.rxCount p
  decide (a.plain k typ raw = some rx) && s.linkUp p && decide (rx.session = k.val) && a.ofOpen rx && decide (a.boot.stage = 4) && a.ipTakes p rx && rxLengthOk raw &&
  decide (rx.magic = 0x414D) && decide (rx.version = 1) && a.fromPeer k rx && !Bool.xor (a.encMode k) (bit rx.flags 0) &&
  !(a.encMode k && a.on CAL_STATUS_crypto_hold) && (s.taken k rx).net.sess[k].offer.isNone &&
  txcFresh (if a.encMode k then a.authOk else a).net.sess[k].rxSeen rx.txc && chanOk typ rx.channel &&
  decide (rx.txc < 0xFFFFFF00) && (s.taken k rx).sessOpen k

/-- Nothing else waits: no request on any channel, no RUCKSACK_OPEN in progress, no CSR command that waits for clocks, no frame held out
of order. -/
def State.quiet (s : State) (k : Fin 8) (c : Fin 7) : Bool :=
  (List.finRange 8).all (fun k => (List.finRange 7).all fun c => decide ((s.chan k c).todo = [])) && s.sec.opening.isNone &&
  s.csrWait.isNone && decide ((s.chan k c).held = [])

/-- A DATA frame is the next one of its channel, in a session that is quiet, and carries no acknowledgement. -/
def State.dataOk (s : State) (k : Fin 8) (c : Fin 7) (raw rx : Rx) : Bool :=
  s.frameOk k 0x10 raw rx && decide (rx.channel = c.val) && decide (rx.payload ≠ []) && !bit rx.flags 1 && s.quiet k c &&
  decide (rx.seq = (s.chan k c).rx)

/-- The request that a DATA frame carries. -/
def requestItem (rx : Rx) : RxItem :=
  { seq := rx.seq, payload := rx.payload, flashOk := rx.flashOk, bad := rx.bad }

/-- The end of a command whose DATA frame is the next one: the request `f` has run (of the management channel under the grant of its
session, R35), what it set going goes on, every fourth frame is acknowledged (R409), and the two shared checks follow (R191, R331). -/
def State.served (s : State) (k : Fin 8) (c : Fin 7) (rx : Rx) (f : State → State) : State :=
  let a := s.taken k rx
  let b := a.setChan k c { a.chan k c with
    rx := ((a.chan k c).rx + 1) % 2 ^ 32, held := [], todo := [], ackDue := (a.chan k c).ackDue + 1 }
  let d := if c = 0 then b.setNet { b.net with csrLast := k } else b
  let g := State.netRun (1 + rx.bad.length) (f d)
  (if g.sessOpen k ∧ 4 ≤ (g.chan k c).ackDue then g.send k 0x11 c 0 [] else g).holdFaults.syncSources

/-- A management request for `opcode`, well formed, that nothing turns away: no long operation, no session that the limits of R445
shut out, and the permission that it needs (R412 to R414, R431). -/
def State.requestOk (s : State) (k : Fin 8) (raw rx : Rx) (opcode : Nat) : Bool :=
  s.dataOk k 0 raw rx && decide (8 ≤ rx.payload.length) && decide (argBe rx.payload 0 2 = opcode) && decide (argBe rx.payload 2 2 = 0) &&
  (s.taken k rx).long.isNone &&
  (!(s.taken k rx).net.sess[k].limited || decide (opcode = 1) || decide (opcode = 4) || decide (0x30 ≤ opcode) || !opcodeKnown opcode) &&
  match opcodePerm opcode with
  | some p => (s.taken k rx).holdsPerm k p
  | none => true

end Sys2Proof.Machine
end

