-- ==== Sys2Proof/Certificates/Slice0/Obligations.lean ====
section
/-! DEFINITION. The statements about the model: what a step does, what the commands of each family do, what they leave alone, and what
every step keeps. Where a command ends with the two shared checks (R191: a port in HOLD for which an error has come to apply; R331: the
view that the scheduler has of its sources), its statement names them, as `holdFaults` and `syncSources`. -/

open Sys2Proof Sys2Proof.Machine

/-! ## The queue, time, reset and the whole machine -/

/-- Asked of a block in place of fetch and decode: a step takes the command at the front of the queue and runs it on the state with the
queue's rest. The model's choice (log entry 1): on an empty queue nothing but the count of the time base moves, by one nanosecond, and
only while the time base runs. -/
def Obligations.StepRunsTheQueue : Prop :=
  (∀ (s : State) (c : Instr) (l : List Instr), s.pending = c :: l → step s = exec c { s with pending := l }) ∧
  ∀ s : State, s.pending = [] →
    step s = .next (if s.tmb.running
      then { s with tmb := { s.tmb with count := s.tmb.count + 8192000, clk := s.tmb.clk + 8192000 } } else s)

/-- No command touches the queue of the commands that wait. -/
def Obligations.CommandsLeaveTheQueue : Prop :=
  ∀ (c : Instr) (s t : State), exec c s = .next t → t.pending = s.pending

/-- Every step keeps memory and register file in canonical form. -/
def Obligations.StepKeepsCanonicalForm : Prop :=
  ∀ s t : State, s.canonical = true → step s = .next t → t.canonical = true

/-- The invariant of `StepKeepsCanonicalForm` holds after reset, and no command waits then. -/
def Obligations.ResetIsCanonical : Prop :=
  State.reset.canonical = true ∧ State.reset.pending = [] ∧ step State.reset = .next State.reset

/-- After reset every register reads the value of its Reset column (R14), an address without a register reads 0, and memory reads 0 (where
the spec gives no value this is the model's choice: log entries 3 and 4). -/
def Obligations.ResetReadsResetColumn : Prop :=
  ∀ a : Nat, State.reset.rd a = regReset a ∧ State.reset.byte a = 0 ∧
    (regAt a = none → State.reset.rd a = 0) ∧
    ∀ (b : Blk) (u o : Nat) (r : Reg), regAt a = some (b, u, o, r) → State.reset.rd a = BitVec.ofNat 32 (resetOf b u o r)

/-- A command that stores nothing (`storesNothing`) leaves every byte of memory as it is. -/
def Obligations.MemoryIsLeftAlone : Prop :=
  ∀ (c : Instr) (s t : State), storesNothing c = true → exec c s = .next t → ∀ a, t.byte a = s.byte a

/-! ## Registers, fabric, structure (chapters 01, 02, 17) -/

/-- A write of a register that answers with an address error changes no register, whatever command of the table makes it (the last
sentences of R52); only the two shared checks after a command follow (R191, R331). A plain register takes a write by the access types of
its fields (R43, Table 0.4), and no other register, and no byte of memory, changes before the two shared checks. R215: a write of a
register whose clocks are gated waits, whatever command makes it, with the value that the command writes, and a later write of a register
waits behind it (R43); when the domain settles, what waits is made: the write of a timeset word, or the rest of a CSR command.
STC_SWSTROBE (Table 2.21): each written bit k gives a pulse on source code 0xA0 + k of the routing matrix. -/
def Obligations.RegisterWrites : Prop :=
  (∀ (s : State) (a : Nat) (v : Word), s.csrError a true = true →
     exec (.registerWrite a v) s = .next s.holdFaults.syncSources ∧
     (∀ p : Fin 8, a = PRT_SEQ_CTL p → exec (.portRun p v) s = .next s ∧ exec (.portStop p v) s = .next s) ∧
     (∀ e : Fin 8, a = ACQ_CTL e → exec (.acqArm e v) s = .next s ∧ exec (.acqForce e v) s = .next s) ∧
     (∀ m : Fin 4, a = WFG_CTL m → exec (.wfgRun m v) s = .next s ∧ exec (.wfgStop m v) s = .next s) ∧
     (∀ (k : Fin 32) (v1 v2 : BitVec 12), a = TIM_CTL k → exec (.timArm k v v1 v2) s = .next s) ∧
     (a = CXH_CTL → exec (.cxlEnable v) s = .next s)) ∧
  (∀ (s : State) (a : Nat) (v : Word) (b : Blk) (u o : Nat) (r : Reg), s.waits = [] → s.csrError a true = false →
     s.writeWaits a v = false → regAt a = some (b, u, o, r) → b = .oct ∨ b = .tst ∨ b = .seg ∨ b = .sme →
     exec (.registerWrite a v) s = .next (s.wn a (r.write (s.rn a) v.toNat)).holdFaults.syncSources) ∧
  ((∀ (s w : State) (a : Nat) (v : Word), s.csrError a true = false → w = { s with waits := s.waits ++ [(a, v)] } →
     (isFreezeCtl a = false → isClockCtl a = false →
       s.writeWaits a v = true ∨ (s.waits ≠ [] ∧ s.stopsNow a v = false) → exec (.registerWrite a v) s = .next w.holdFaults.syncSources) ∧
     (s.writeWaits a v = true →
     (∀ p : Fin 8, (a = PRT_JUMP_HOST p → v = 1 → exec (.jumpHostReq p) s = .next w) ∧
       (a = PRT_JUMP_HOST p → v = 2 → exec (.jumpHostCancel p) s = .next w) ∧
       (∀ x, a = PRT_SEQ_CTL p → v = withBit x 0 true → exec (.portRun p x) s = .next w) ∧
       (∀ b : Fin 4, a = PRT_TIMING_CTL p → v = BitVec.ofNat 32 b → exec (.bandWrite p b) s = .next w)) ∧
     ∀ m : Fin 4, (a = WFG_JUMP_HOST m → v = 1 → exec (.wfgJumpHostReq m) s = .next w) ∧
       (a = WFG_JUMP_HOST m → v = 2 → exec (.wfgJumpHostCancel m) s = .next w) ∧
       (∀ x, a = WFG_CTL m → v = withBit x 0 true → exec (.wfgRun m x) s = .next w) ∧
       (∀ x, a = WFG_CTL m → v = withBit x 0 false → exec (.wfgStop m x) s = .next w))) ∧
   ∀ (s u x : State) (d : Fin 12) (p : Fin 8) (ph : Nat), d = portUnit p → s.get (DPL_STATUS_state d) = 3 → s.dpl[d].relock = false →
     s.seq[d].paused = false →
     u = (((((s.put (DPL_STATUS_state d) 4).put (DPL_STATUS_settling d) 0).setDpl d
       { s.dpl[d] with relock := false, cur := none }).stickyGo p).flushPort p).x9Go p → x = { u with waits := [] } →
     (∀ a v n o r, u.csrWait = none → u.waits = [(a, v)] → regAt a = some (.tst, n, o, r) → x.csrError a true = false →
       x.writeWaits a v = false → exec (.dplSettled d ph) s = .next (x.wn a (r.write (x.rn a) v.toNat))) ∧
     ∀ w, u.csrWait = some w → u.waits = [] →
       exec (.dplSettled d ph) s = .next (State.csrCmd { x with csrWait := none } w).netGo) ∧
  ∀ (s : State) (v : BitVec 8), s.csrError STC_SWSTROBE true = false →
    exec (.stcSwstrobe v) s = .next ((List.range 8).foldl
      (fun a k => if v.getLsbD k then a.riseWhere fun l => decide (l.source = 0xA0 + k) else a) s)

/-- R53, reading: the low word shows what it holds and latches the high word; the next read of the high word by the same master returns
the word latched then, whatever else has changed since. R53, writing: the low word of a 64-bit value that the host writes is only staged;
the write of the high word lets both words take effect, where the unit is not held. -/
def Obligations.RegisterPairs : Prop :=
  (∀ (s t : State) (m a : Nat) (b : Blk) (u o : Nat) (r : Reg) (w : Bool), s.csrError a false = false → t.csrError (a + 4) false = false →
     regAt a = some (b, u, o, r) → pairAt b o = some w → (∀ v, (m, a, v) ∉ s.shadow) → t.shadow = (s.csrRead m a).2.shadow →
     (s.csrRead m a).1 = some (BitVec.ofNat 32 (s.csrView b u o a)) ∧
     (t.csrRead m (a + 4)).1 = some (BitVec.ofNat 32 (s.csrView b u (o + 4) (a + 4)))) ∧
  ∀ (s : State) (a : Nat) (v : Word) (b : Blk) (u o : Nat) (r : Reg), s.waits = [] → s.csrError a true = false →
    s.writeWaits a v = false → regAt a = some (b, u, o, r) →
    (pairAt b o = some true → s.pairHeld b u o = false →
      exec (.registerWrite a v) s = .next (s.stageLow a v).holdFaults.syncSources) ∧
    (pairAt b o ≠ some true → pairHigh b o = true → s.pairHeld b u o = false → isFreezeCtl a = false →
      exec (.registerWrite a v) s = .next
        (((s.unstage (a - 4)).wn (a - 4) (s.stagedLow (a - 4) (s.rn (a - 4)))).plainWrite a r v).holdFaults.syncSources)

/-- R77: while a structure load is in progress, a write of the RWL registers is ignored, counted and flagged, and source 446 is raised. -/
def Obligations.PowerMaskIgnoredDuringLoad : Prop :=
  ∀ (s : State) (hi : Bool) (v : Word) (x : LoadH), s.load = some x →
    s.csrError (if hi then PWR_DOMAIN_HI else PWR_DOMAIN_LO) true = false →
    exec (.pwrDomainWrite hi v) s = .next (((s.count STC_RWL_IGNORED).put STC_STATUS_rwl_ignored 1).ev 446).clockGo.holdFaults.syncSources

/-- The power mask in the power-on structure (R53, R506): the low word is staged, and the write of the high word switches to the mask of
both, where it is valid (R70) and switches no busy domain off; a mask that is not shows PWR_STATUS.refused. -/
def Obligations.PowerMaskWrite : Prop :=
  ∀ (s : State) (v : Word), s.load = none → s.get STC_STATUS_state = 0 → s.lifecycle ≤ 1 →
    (s.csrError PWR_DOMAIN_LO true = false →
      exec (.pwrDomainWrite false v) s = .next (s.stageLow PWR_DOMAIN_LO v).clockGo.holdFaults.syncSources) ∧
    (s.csrError PWR_DOMAIN_HI true = false → ∀ mask, mask = s.stagedLow PWR_DOMAIN_LO (s.cs.power % 2 ^ 32) + 2 ^ 32 * (v.toNat % 2 ^ 12) →
      ((powerOk s.cs mask s.lifecycle = true ∧ ∀ d < 44, s.domainOn d = true → bit mask d = false → s.domainBusy d = false) →
        exec (.pwrDomainWrite true v) s = .next ((s.unstage PWR_DOMAIN_LO).powerTo mask).clockGo.holdFaults.syncSources) ∧
      (powerOk s.cs mask s.lifecycle = false →
        exec (.pwrDomainWrite true v) s = .next ((s.unstage PWR_DOMAIN_LO).put PWR_STATUS_refused 1).clockGo.holdFaults.syncSources))

/-- A fabric request with nothing waiting before it takes a tag of its target's pool, the lowest free number of it, and passes its hops
(R26, R29 to R31): a request to a store waits there for its response; SRAM answers with the line it holds; without a free tag the request
waits. A response that has arrived returns its tag: the oldest one of the requester to the line leaves the fabric, and what waits for a
tag goes. A fabric write of an SRAM line stores the enabled bytes and changes no other byte of memory and no register (R26, R360). -/
def Obligations.FabricTransactions : Prop :=
  ((∀ (s u : State) (req : Fin 31) (a : Nat) (w : Option (BitVec 512)) (en : BitVec 64) (sh : Bool) (t : FabTx), s.fabWait = [] →
       s.freeTag (poolOf a) req = some sh → s.fabricServes a = true →
       u = (State.granted { s with fabWait := [] } (poolOf a) req sh).passRequest none (hopsOf (poolOf a) req) →
       t = { req := req, pool := poolOf a, line := lineOf a, write := w, shared := sh, dest := .other, answer := none
             at_ := s.tmb.clk, enables := en, tag := s.tagNo (poolOf a) } →
       (poolOf a ≠ 5 → exec (.fabricRequest req a w en) s = .next (State.forward { u with fab := u.fab ++ [t] })) ∧
       (poolOf a = 5 → w = none → exec (.fabricRequest req a w en) s = .next (State.forward { u with
         fab := u.fab ++ [{ t with answer := some (s.lineData (lineOf a), true) }] }))) ∧
   (∀ (s : State) (req : Fin 31) (a : Nat) (w : Option (BitVec 512)) (en : BitVec 64), s.fabWait = [] →
       poolLists (poolOf a) req = true → s.freeTag (poolOf a) req = none → exec (.fabricRequest req a w en) s =
         .next { s with fabWait := [{ req := req, pool := poolOf a, addr := a, write := w, enables := en }] }) ∧
   ∀ (s u : State) (req : Fin 31) (a k : Nat) (mine : FabTx → Bool) (t : FabTx),
     mine = (fun t => decide (t.req = req.val) && decide (t.line = lineOf a) && decide (t.dest = .other) && !t.stale) →
     s.fab.find? mine = some t → t.arrived = true →
     u = s.giveHop (if t.hops = 0 then none else (hopsOf t.pool t.req).reverse[t.hops - 1]?) true →
     exec (.fabricResponse req a k false) s =
       .next (State.grantTags (State.forward { u with fab := u.fab.eraseP mine })).netGo.holdFaults.syncSources) ∧
  ∀ (s : State) (req : Fin 31) (a : Nat) (v : BitVec 512) (en : BitVec 64) (sh : Bool), Memory.wf s.mem = true → s.fabWait = [] →
    s.freeTag (poolOf a) req = some sh → s.fabricServes a = true → poolOf a = 5 →
    ∃ t : State, exec (.fabricRequest req a (some v) en) s = .next t ∧ t.csr = s.csr ∧
      (∀ i < 64, t.byte (lineOf a + i) = if en.getLsbD i then v.extractLsb' (8 * i) 8 else s.byte (lineOf a + i)) ∧
      ∀ x, x < lineOf a ∨ lineOf a + 64 ≤ x → t.byte x = s.byte x

/-- The steps of a structure load (R72 to R78), each from its stage: the checks pass, the signature among them, and the load holds the new
structure with its scope; the affected units stop, the lines of a quadrant load's quadrant are inactive and the domains to come are
switched on; when no result from before the stop waits, the domains settle and banks with a new owner are zeroed; the commit makes the
structure the committed one; and the load ends with state 1 and source 444. A bitstream whose header or section table fails a check is
rejected (R72): the load ends and source 445 is raised; the committed structure and memory stay. -/
def Obligations.StructureLoads : Prop :=
  (∀ (s : State) (x : LoadH), s.load = some x →
     (∀ l c, x.stage = 1 → (Bits.mk s x.addr x.length).head = .ok l → (Bits.mk s x.addr x.length).signed = true →
       (Bits.mk s x.addr x.length).body l = .ok c →
       exec .structCheckDone s = .next { s.put SEC_AUTH_RUN_run 0 with load := some { x with
         stage := 2, scope := if (Bits.mk s x.addr x.length).quad then (Bits.mk s x.addr x.length).scope else 4
         serial := (Bits.mk s x.addr x.length).u 16 4, new := c, raised := (Bits.mk s x.addr x.length).raised c } }) ∧
     (∀ (u v : State) (on new : List Nat), x.stage = 2 → u = s.stopUnits (fun q => decide (x.scope = 4) || decide (q = x.scope)) →
       on = (List.range 44).filter (fun d => bit x.new.power d && !u.domainOn d) →
       new = on.filter (fun d => !u.pwr.sw.contains (d, true)) →
       v = { u with load := some { x with stage := 3, ups := new }, lineHold := if x.scope = 4 then none else some x.scope
                    pwr := { u.pwr with sw := u.pwr.sw ++ new.map fun d => (d, true) } } →
       exec .structUnitsStopped s = .next (if on = [] then v else v.put PWR_STATUS_busy 1).holdFaults.syncSources) ∧
     (x.stage = 3 → s.resultsWait x = false → exec .structDomainsSettled s = .next ({ (List.range 48).foldl
       (fun (a : State) k => if x.new.bank.getD k 0xFF ≠ s.cs.bank.getD k 0xFF then a.zeroMem (bankBase k) 0x200000 else a)
       (s.pwr.sw.foldl (fun (a : State) d => if d.2 then a.switchDone d.1 true else a) s) with load := some { x with stage := 4 } })) ∧
     (∀ u v : State, x.stage = 4 →
       u = (State.put { s with cs := x.new, lineHold := none, load := some { x with stage := 5 } } STC_STATUS_last_scope
         (if x.scope = 4 then 7 else x.scope)).showPolicy →
       v = (if x.scope = 4 then (List.range 4).foldl (fun (a : State) q => a.wn (STC_SERIAL_Q q) x.serial) (u.wn STC_SERIAL_DEV x.serial)
         else u.wn (STC_SERIAL_Q x.scope) x.serial) →
       exec .structureCommit s =
         .next ((if x.raised then v.put STC_STATUS_policy_raised 1 else v).timSettleAll.settleDests s.destLevels)) ∧
     (x.stage = 5 → (∀ d < 44, s.domainOn d = true → bit s.cs.power d = true) →
       exec .structLoadDone s = .next ((((((({ s with load := none }).put STC_STATUS_state 1).wn STC_LOAD_RESULT 0).smeDone 5 0).longOutcome
         0x10 0 []).ev 444).clockGo.holdFaults.syncSources))) ∧
  ∀ (s : State) (x : LoadH) (e : Rej), s.load = some x → x.stage = 1 → (Bits.mk s x.addr x.length).head = .error e →
    ∃ t : State, exec .structCheckDone s = .next t ∧ t.cs = s.cs ∧ t.load = none ∧ 445 ∈ t.raised ∧ t.mem = s.mem

/-- R65, R72: when the domains have settled, every SRAM bank whose owner the load changes reads zero. -/
def Obligations.ReownedBanksAreZeroed : Prop :=
  ∀ (s t : State) (x : LoadH) (k i : Nat), s.canonical = true → s.load = some x → x.stage = 3 →
    s.resultsWait x = false →
    exec .structDomainsSettled s = .next t → k < 48 → x.new.bank.getD k 0xFF ≠ s.cs.bank.getD k 0xFF → i < 0x200000 →
    t.byte (bankBase k + i) = 0

/-! ## Ports and streaming (chapters 03 to 05) -/

/-- The host's jump requests of ports and WFGs (R142): an entry with condition 7 takes it and the request bit clears; any other leaves it
latched; a cancel clears it. Registration of requests (R143): the requests that are due leave the sequencer's flight and register in
order; the others stay. A deadline of a wait loop (R151): time goes on to it, and the loop has timed out. -/
def Obligations.JumpRequests : Prop :=
  ((∀ (s : State) (p : Fin 8), s.csrError (PRT_JUMP_HOST p) true = false → s.clockWaits (PRT_JUMP_HOST p) = false →
     exec (.jumpHostReq p) s = .next (if s.wants (portUnit p) (fun e => decide (e.kind = .host))
       then (s.produce (portUnit p) (s.vecInIssue (portUnit p))).put (PRT_JUMP_HOST_req p) 0
       else s.put (PRT_JUMP_HOST_req p) 1) ∧
     exec (.jumpHostCancel p) s = .next (s.put (PRT_JUMP_HOST_req p) 0)) ∧
   ∀ (s : State) (m : Fin 4), s.csrError (WFG_JUMP_HOST m) true = false → s.clockWaits (WFG_JUMP_HOST m) = false →
     exec (.wfgJumpHostReq m) s = .next (if s.wants (wfgUnit m) (fun e => decide (e.kind = .host))
       then (s.produce (wfgUnit m) (s.vecInIssue (wfgUnit m))).put (WFG_JUMP_HOST_req m) 0
       else s.put (WFG_JUMP_HOST_req m) 1) ∧
     exec (.wfgJumpHostCancel m) s = .next (s.put (WFG_JUMP_HOST_req m) 0)) ∧
  (∀ (s u : State) (p : Fin 8) (r : JumpReq), s.get (PRT_SEQ_STATUS_state p) ≠ 3 → s.seq[portUnit p].inflight = [r] →
    r.due ≤ s.seqVec (portUnit p) - 1 → u = s.setSeq (portUnit p) { s.seq[portUnit p] with inflight := [] } →
    exec (.jumpRequestRegistered p) s = .next (u.register (portUnit p) r) ∧ (u.register (portUnit p) r).seq[portUnit p].held = some r ∧
    (s.seq[portUnit p].held = none → u.destOf (portUnit p) r = none → u.register (portUnit p) r =
      ((((u.setSeq (portUnit p) { u.seq[portUnit p] with held := some r }).put (PRT_JUMP_STATUS_pending p) 1).put
        (PRT_JUMP_STATUS_cond p) r.e.cond).put (PRT_JUMP_STATUS_producer p) r.producer))) ∧
  (∀ (s u : State) (m : Fin 4) (r : JumpReq), s.seq[wfgUnit m].inflight = [r] → r.due ≤ s.wfg[m].lastAt →
    u = s.setSeq (wfgUnit m) { s.seq[wfgUnit m] with inflight := [] } →
    exec (.wfgRequestRegistered m) s = .next (u.register (wfgUnit m) r) ∧ (u.register (wfgUnit m) r).seq[wfgUnit m].held = some r ∧
    (s.seq[wfgUnit m].held = none → u.destOf (wfgUnit m) r = none → u.register (wfgUnit m) r =
      u.setSeq (wfgUnit m) { u.seq[wfgUnit m] with held := some r })) ∧
  ∀ (s : State) (d : Fin 12) (t : Nat), s.seq[d].deadline = some t → s.unitRuns d = true →
    (s.seq[d].paused && decide (s.seq[d].passVec = s.seq[d].e.length)) = false →
    (∀ p : Fin 8, d = portUnit p → exec (.portWaitTimeout p) s =
      .next ((s.advanceTo (t + tuPerStep * s.port[p].comp)).setSeq d { s.seq[d] with timedOut := true, deadline := none })) ∧
    (∀ m : Fin 4, d = wfgUnit m → exec (.wfgWaitTimeout m) s =
      .next ((s.advanceTo t).setSeq d { s.seq[d] with timedOut := true, deadline := none }))

/-- A write of run = 1 to an idle port (R84, R156, R157, R177): refused with cause 11 where the port owns no pin, cause 2 and a timing
record where its rate lies outside the band, cause 7 where its Trailhead is too near, cause 8 where the store path refuses it; else the
port is ARMED and its stream is planned from the start entry. -/
def Obligations.PortRunArms : Prop :=
  ∀ (s u x : State) (p : Fin 8) (v : Word), s.csrError (PRT_SEQ_CTL p) true = false → s.clockWaits (PRT_SEQ_CTL p) = false →
    u = s.portCtlFields p (bitsOf (withBit v 0 true).toNat 2 2) (bitsOf (withBit v 0 true).toNat 4 2) → u.portActive p = false →
    (u.cs.pinCount p = 0 → exec (.portRun p v) s = .next
      ((((u.put (PRT_SEQ_STATUS_state p) 5).put (PRT_SEQ_STATUS_cause p) 11).put (PRT_SEQ_STATUS_cancelled p) 1).ev
        (portSrc p 7)).syncSources) ∧
    (u.cs.pinCount p ≠ 0 →
      ((u.portRate p).inBand (u.get (PRT_TIMING_CTL_band p)) = false → exec (.portRun p v) s = .next
        ((((u.portArm p).tmgFail p 11 0xFF 0 0 0).ev (portSrc p 0)).portLeave p 5 2 0 true).syncSources) ∧
      ((u.portRate p).inBand (u.get (PRT_TIMING_CTL_band p)) = true →
        ((u.get (PRT_SEQ_CTL_start_mode p) = 1 ∧ u.tooNear (u.rn64 (PRT_TRAILHEAD_LO p)) (u.rn (PRT_TRAILHEAD_EP p)) = true) →
          exec (.portRun p v) s = .next ((u.portArm p).portLeave p 5 7 0 true).syncSources) ∧
        (¬(u.get (PRT_SEQ_CTL_start_mode p) = 1 ∧ u.tooNear (u.rn64 (PRT_TRAILHEAD_LO p)) (u.rn (PRT_TRAILHEAD_EP p)) = true) →
          (∀ c, u.admission p = some c →
            exec (.portRun p v) s = .next (((u.portArm p).put (PRT_STRM_STATUS_adm p) c).portLeave p 5 8 0 true).syncSources) ∧
          (u.admission p = none →
            x = (((u.portArm p).put (PRT_STRM_STATUS_admitted p) 1).planFrom (portPll p) (u.get (PRT_SEQ_START_entry p))) →
            exec (.portRun p v) s = .next (State.syncSources (if u.get (PRT_SEQ_CTL_start_mode p) = 2 ∧
                u.evtActive p (u.get (PRT_SEQ_CTL_start_evt p)) = true then
              x.setSeq (portPll p) { x.seq[portPll p] with condMet := true } else x))))))

/-- What brings an ARMED port to its first vector (R156, R178, R180, R538): its start event, its Trailhead, and its admission once ring
and head slots are primed; an admission that takes too long cancels the start with cause 8. A write of run = 0 (R158): an ARMED start is
cancelled with cause 9, a running port stops at its next jump point, a port in HOLD stops at once. -/
def Obligations.PortWaitsAndStops : Prop :=
  (∀ (s : State) (p : Fin 8), s.get (PRT_SEQ_STATUS_state p) = 1 →
     (s.get (PRT_SEQ_CTL_start_mode p) = 2 →
       exec (.portStartEvent p) s = .next (s.setSeq (portPll p) { s.seq[portPll p] with condMet := true })) ∧
     (s.get (PRT_SEQ_CTL_start_mode p) = 1 → s.seq[portPll p].trailMet = false → s.tmb.running = true →
       s.rn (PRT_TRAILHEAD_EP p) % 2 ^ 16 = s.tmb.epoch % 2 ^ 16 → s.seq[portPll p].admitted = true →
       s.lockedSettled (portPll p) = true →
       exec (.portTrailheadReached p) s = .next
         ((s.advance (instantOf (s.rn64 (PRT_TRAILHEAD_LO p)) - s.tmb.count)).setSeq (portPll p)
           { s.seq[portPll p] with trailMet := true })) ∧
     (s.seq[portPll p].admitted = false → s.seq[portPll p].zeroing = false → s.primed (portPll p) (s.primeBytes p) = true →
       s.slotsFilled (portPll p) (s.get (PRT_SEQ_START_entry p)) (fun _ => true) = true →
       exec (.startAdmitted p) s = .next
         (((s.setSeq (portPll p) { s.seq[portPll p] with admitted := true }).put (PRT_STRM_STATUS_adm p) 1).ev (portSrc p 9))) ∧
     (s.seq[portPll p].admitted = false → s.get (PRT_SEQ_CTL_start_mode p) ≠ 1 → s.get (PRT_STRM_ADMIT_TMO_ms p) ≠ 0 →
       exec (.admitTimeout p) s = .next ((s.put (PRT_STRM_STATUS_adm p) 9).portLeave p 5 8 0 true))) ∧
  ∀ (s u : State) (p : Fin 8) (v : Word), s.csrError (PRT_SEQ_CTL p) true = false →
    s.clockWaits (PRT_SEQ_CTL p) = false ∨ s.portActive p = true →
    u = s.portCtlFields p (bitsOf (withBit v 0 false).toNat 2 2) (bitsOf (withBit v 0 false).toNat 4 2) →
    (u.get (PRT_SEQ_STATUS_state p) = 1 → exec (.portStop p v) s = .next (u.portLeave p 5 9 0 true).syncSources) ∧
    (u.get (PRT_SEQ_STATUS_state p) = 2 → u.seq[portPll p].paused = false →
      exec (.portStop p v) s = .next (u.setSeq (portPll p) { u.seq[portPll p] with stopReq := true }).syncSources) ∧
    (u.get (PRT_SEQ_STATUS_state p) = 3 → exec (.portStop p v) s = .next (u.portLeave p 5 5 0 false).syncSources)

/-- The vectors of a port (R86, R143, R156, R157): the first one of an admitted and locked start, at its Trailhead in mode 1 and after its
event in mode 2, begins the start entry; then the requests that are due register and the next vector of the pass passes; at the end of the
pass the jump point chooses what follows. A vector whose block is on chip is issued with its timeset, or aborts the port where its timeset
is not valid. -/
def Obligations.VectorsPass : Prop :=
  (∀ (s u : State) (p : Fin 8) (phase t c : Nat) (x : Seen) (e b : Bool), s.get (PRT_SEQ_STATUS_state p) = 1 →
    s.seq[portUnit p].admitted = true → s.lockedSettled (portUnit p) = true →
    (s.get (PRT_SEQ_CTL_start_mode p) = 1 → s.seq[portUnit p].trailMet = true) →
    (s.get (PRT_SEQ_CTL_start_mode p) = 2 → s.seq[portUnit p].condMet = true) →
    t = (if s.get (PRT_SEQ_CTL_start_mode p) = 1 then ((s.tmb.clk : Int) + instantOf (s.rn64 (PRT_TRAILHEAD_LO p)) - s.tmb.count).toNat
      else s.tmb.clk) + phase % max 1 (s.portRate p).periodTu →
    c = (if s.get (PRT_SEQ_CTL_start_mode p) = 1 ∧ s.on (PRT_START_COMP_en p) = true then
      compOf (s.portRate p) (phase % max 1 (s.portRate p).periodTu) else 0) →
    u = ((s.setSeq (portUnit p) { s.seq[portUnit p] with at_ := t, frac := 0, fracDen := 1 }).setPort p { s.port[p] with
      comp := c }).advanceTo (t + tuPerStep * c) →
    exec (.portFirstVector p phase x e b) s = .next (State.holdFaults (if (u.beginEntry p (s.get (PRT_SEQ_START_entry p)) id e).2 then
      (u.beginEntry p (s.get (PRT_SEQ_START_entry p)) id e).1.passVector p x b
      else (u.beginEntry p (s.get (PRT_SEQ_START_entry p)) id e).1)).syncSources) ∧
  (∀ (s u j : State) (p : Fin 8) (x : Seen) (e b go : Bool), s.get (PRT_SEQ_STATUS_state p) = 2 → s.seq[portUnit p].paused = false →
    u = (s.advanceTo (s.seq[portUnit p].at_ + tuPerStep * s.port[p].comp)).flushPort p →
    (j, go) = u.jumpPoint p s.seq[portUnit p].at_ e →
    exec (.vectorPeriod p x e b) s = .next (State.holdFaults
      (if s.seq[portUnit p].passVec = s.seq[portUnit p].e.length ∧ s.port[p].vecs = [] then (if go then j.passVector p x b else j)
        else (u.registerDue (portUnit p) (u.seqVec (portUnit p) - 1)).passVector p x b)).syncSources) ∧
  ∀ (s : State) (p : Fin 8) (x : Seen) (v : Vec) (l : List Vec) (t : Nat), s.port[p].vecs = v :: l → (s.dataCheck p).1 = .ready →
    s.seq[portUnit p].stopReq = false → t = s.timesetOf p s.seq[portUnit p].e v →
    (s.timesetOk p (s.get (PRT_TIMING_CTL_band p)) t = true → s.passVector p x false = s.issue p x v t) ∧
    (s.timesetOk p (s.get (PRT_TIMING_CTL_band p)) t = false → s.passVector p x false = s.formatAbort p 9 0xFF t 0)

/-- The timing band of an idle port (R118), and the steps of a Ramble program (R161): a band below 3 is taken while the port is not
active; a step moves the offset when its dwell is over, a sweep at every update; a move goes no further than the limit, and where the
offset is allowed and the limit not reached it takes effect and the program goes on. -/
def Obligations.BandAndRamble : Prop :=
  (∀ (s : State) (p : Fin 8) (b : Fin 4), s.csrError (PRT_TIMING_CTL p) true = false → s.clockWaits (PRT_TIMING_CTL p) = false → s.portActive p = false → b.val < 3 →
    exec (.bandWrite p b) s = .next
      ((s.put (PRT_TIMING_CTL_band p) b).fixM (portPll p) (s.word (portPll p)).rate)) ∧
  (∀ (s u : State) (p : Fin 8) (r : RamProg) (target t : Int) (kind : Nat), r.ret = false → r.logEn = false →
    t = (if r.startOfs ≤ r.limit then min target r.limit else max target r.limit) → t ≠ s.rambleOfs (portPll p) →
    s.offsetOk p t = true → t ≠ r.limit → u = (s.setOffset p t).ramAtLimit p →
    s.ramMove p r target kind = u.setPort p { u.port[p] with ram := some r }) ∧
  ∀ (s : State) (p : Fin 8) (r : RamProg), s.port[p].ram = some r → r.held = false → s.ramAdvances p = true →
    (r.sweep = false → r.dwell ≤ r.count → exec (.rambleStep p) s = .next
      (s.ramMove p { r with count := r.count - r.dwell } (s.rambleOfs (portPll p) + r.step) 1)) ∧
    (r.sweep = true → exec (.rambleSweepUpdate p) s = .next
      (s.ramMove p { r with updates := r.updates + 1 }
        (if r.startOfs ≤ r.limit then r.startOfs + ((r.updates + 1) * r.slew * 16 / 125 : Nat)
          else r.startOfs - ((r.updates + 1) * r.slew * 16 / 125 : Nat)) 2))

/-- A unit's stream: a read is issued under a tag, and when it lands, its line becomes valid in the ring (R29, R166, R183). R171: the ring
of a unit that left its run is zeroed once its last read has landed, the whole ring that the run had; for a WFG, whose ring is no SRAM, no
byte of memory changes. -/
def Obligations.StreamsAndRings : Prop :=
  (∀ (s : State) (d : Fin 12), s.seq[d].zeroing = false → (s.unitArmed d || s.unitRuns d) = true →
     (∀ (u : State) (sh ok : Bool) (pl : PlanPos) (e : Entry) (a pool : Nat), s.seq[d].plan.ended = false → s.ringCredit d = true →
       e = s.entryAt s.seq[d].plan.entry → s.fetchTag d e.tier = some sh → a = s.windowAddr d e.tier s.seq[d].plan.next →
       (u, pl) = s.planStep d false s.seq[d].plan → pool = (if e.tier = 1 then unitChan d else 4) →
       ok = (decide (poolOf a = pool) && u.storeServes d e.tier a) →
       exec (.streamFetch d .ring) s = .next ((u.setSeq d { u.seq[d] with
         plan := pl, ring := s.seq[d].ring ++ [flyingLine e.tier (lineOf a) e.enc] }).issueTx
           { req := fetchReq d e.tier, pool := pool, line := lineOf a, write := none, shared := sh, dest := .ring d, at_ := u.tmb.clk
             answer := if ok then none else some (0, false), lost := !ok })) ∧
     ∀ (x : FabTx) (mine : FabTx → Bool), mine = (fun t => t.dest.ofUnit d && t.arrived) → s.findTx mine = some x → x.dest = .ring d →
       exec (.streamLineValid d) s = .next ((((s.dropTx mine).setSeq d { (s.dropTx mine).seq[d] with
         ring := landLine x.line (x.answer.getD (0, false)).1 (x.answer.getD (0, false)).2 x.lost (s.seqVec d) s.tmb.clk
           (s.dropTx mine).seq[d].ring }).showFill d).grantTags.netGo.holdFaults.syncSources)) ∧
  ∀ (s : State) (d : Fin 12), s.seq[d].zeroing = true → s.inFlight d = false →
    ∃ t : State, exec (.ringZeroed d) s = .next t ∧ t.seq[d].zeroing = false ∧ t.csr = s.csr ∧ (8 ≤ d.val → t.mem = s.mem) ∧
      (s.canonical = true → d.val < 8 → ∀ n x, n < s.seq[d].zeroSize →
        s.cs.sramAddr d (0x10000 * (s.segStore d / 0x10000 - s.seq[d].zeroSize + n)) = some x → ∀ i < 0x10000, t.byte (x + i) = 0)

/-- HOLD ends (R190, R191): when the ring is primed again the port runs on, the hold is counted and source 11 is raised; a hold that takes
too long aborts with code 2. -/
def Obligations.HoldEnds : Prop :=
  ∀ (s u : State) (p : Fin 8) (phase start : Nat), s.get (PRT_SEQ_STATUS_state p) = 3 →
    ((s.seq[portPll p].paused = false ∨ s.seq[portPll p].resume = true) → s.primed (portPll p) (s.primeBytes p) = true →
      s.slotsFilled (portPll p) (s.get (PRT_SEQ_ENTRY_entry p)) (fun _ => true) = true →
      start = max s.tmb.clk s.seq[portPll p].at_ + (s.portRate p).checkLead * (s.portRate p).periodTu +
        phase % max 1 (s.portRate p).periodTu →
      u = (s.count (PRT_STRM_HOLD_TOTAL p) ((start - s.port[p].holdAt) / (1000 * tuPerNs))).wn (PRT_STRM_HOLD_LAST p)
        (min ((start - s.port[p].holdAt) / tuPerNs) 0xFFFFFFFF) →
      exec (.holdResume p phase) s = .next ((((u.setSeq (portPll p) { s.seq[portPll p] with
        at_ := start, breakVec := s.seqVec (portPll p) }).put (PRT_SEQ_STATUS_state p) 2).put (PRT_STRM_STATUS_hold p) 0).ev
          (portSrc p 11))) ∧
    (s.get (PRT_STRM_HOLD_TMO_us p) ≠ 0 → exec (.holdTimeout p) s = .next
      (s.strmAbort p 2 (s.seqVec (portPll p)) (s.rn64 (PRT_STRM_ADDR_LO p))).holdFaults.syncSources)

/-- The crypto engine's work on an encrypted page whose lines and tag have landed (R197, R199), under the key in the port's slot: a page
whose tag verifies becomes plaintext and clears the run of failures; one whose tag does not raises source 14 and counts an authentication
failure (R442). -/
def Obligations.PageVerdict : Prop :=
  ∀ (s : State) (p : Fin 8) (tier : Fin 4) (a nonce key : Nat) (x : PageTag) (v : BitVec 128) (l : List RLine) (put : List RLine → SeqH)
    (text : List Byte) (mine : PageTag → Bool), (s.freeTag 5 21).isSome = true →
    mine = (fun t => decide (t.tier = tier.val) && decide (t.page = a / 4096)) →
    s.seq[portUnit p].tags.find? mine = some x → x.value = some v → s.seq[portUnit p].nextPage tier (a / 4096) = some (l, put) →
    s.sec.keys.lookup (s.get (PRT_STRM_KEY_slot p)) = some (BitVec.ofNat 256 key) → key < 2 ^ 256 →
    nonce = s.pageNonce (portUnit p) tier (4096 * (a / 4096) - s.windowAddr (portUnit p) tier 0) →
    text = l.flatMap (fun y => leBytes y.data.toNat 64) →
    (∀ b, gcmOpen key nonce [] text (leBytes v.toNat 16) = some b → exec (.pageAuthDone p tier a) s = .next ((((s.setSeq (portUnit p)
      { put (authLines (.plain b) (s.seqVec (portUnit p)) s.tmb.clk l) with tags := s.seq[portUnit p].tags.eraseP mine }).showFill
        (portUnit p)).put SEC_AUTH_RUN_run 0).holdFaults.syncSources)) ∧
    (gcmOpen key nonce [] text (leBytes v.toNat 16) = none → exec (.pageAuthDone p tier a) s = .next ((((((s.setSeq (portUnit p)
      { put (authLines .failed (s.seqVec (portUnit p)) s.tmb.clk l) with tags := s.seq[portUnit p].tags.eraseP mine }).showFill
        (portUnit p)).put (PRT_STRM_STATUS_auth_fail p) 1).ev (portSrc p 14)).authFail).holdFaults.syncSources))

/-! ## Clocks and the time base (chapter 06) -/

/-- Writes of a domain PLL's control (R205, R210, R211): run starts acquisition from OFF, run = 0 of an idle unit goes to OFF, a commit
takes the staged word (in OFF into the word of the loop; a word that is not valid is refused), a reseed loads the dither generator; a
request for a phase sample is kept until the next instant. A phase sample (R233) that mode 1 or a request asks for: time goes on to its
instant, whose stamp it shows with the epoch, the offset measured, which is valid in the locked states only, and the vector of a port in
RUNNING. -/
def Obligations.DplCommands : Prop :=
  (∀ (s u : State) (d : Fin 12) (v : Word),
     (s.csrError (DPL_CTL d) true = false → u = s.put (DPL_CTL_dither d) (bitsOf (withBit v 0 true).toNat 2 1) →
       bit v.toNat 1 = false → bit v.toNat 3 = false → (u.put (DPL_CTL_run d) 1).get (DPL_STATUS_state d) = 0 →
       exec (.dplRun d v) s = .next ((u.put (DPL_CTL_run d) 1).acquire d)) ∧
     (s.csrError (DPL_CTL d) true = false → u = s.put (DPL_CTL_dither d) (bitsOf (withBit v 0 false).toNat 2 1) →
       bit v.toNat 1 = false → bit v.toNat 3 = false → u.unitActive d = false →
       ∃ t : State, exec (.dplRunOff d v) s = .next (t.setDpl d { t.dpl[d] with cur := none, relock := false }).clockGo ∧
         t = (((u.put (DPL_CTL_run d) 0).put (DPL_STATUS_state d) 0).put (DPL_STATUS_locked d) 0).put (DPL_STATUS_settling d) 0) ∧
     (s.csrError (DPL_CTL d) true = false → u = s.put (DPL_CTL_dither d) (bitsOf (withBit v 1 true).toNat 2 1) →
       bit v.toNat 0 = true → bit v.toNat 3 = false →
       exec (.dplCommit d v) s = .next ((u.commitWord d).dplRun d) ∧
       ((u.staged d).valid = false → u.commitWord d = u.put (DPL_STATUS_refused d) 1) ∧
       (s.canonical = true → (u.staged d).valid = true → u.get (DPL_STATUS_state d) = 0 → u.unitActive d = false →
         (d.val < 8 → u.on (PRT_RAMBLE_STATUS_active d) = false) → u.commitWord d = (u.setDpl d { u.dpl[d] with
           wN := (u.staged d).n, wF := (u.staged d).f, wO := (u.staged d).odiv, wD := (u.staged d).dither }).fixM d (u.staged d).rate)) ∧
     (s.csrError (DPL_CTL d) true = false → u = s.put (DPL_CTL_dither d) (bitsOf (withBit v 3 true).toNat 2 1) →
       bit v.toNat 0 = true → bit v.toNat 1 = false → u.unitActive d = false →
       exec (.dplReseed d v) s = .next (State.dplRun (u.setDpl d { u.dpl[d] with
         lfsr := if u.get (DPL_SEED_seed d) = 0 then 1 else u.get (DPL_SEED_seed d), lfsrAt := u.tmb.clk }) d)) ∧
     ∀ r : Reg, s.waits = [] → s.csrError (DPL_PHASE_CTL d) true = false → s.writeWaits (DPL_PHASE_CTL d) (withBit v 2 true) = false → regAt (DPL_PHASE_CTL d) = some (.dpl, d.val, 0x030, r) →
       bitsOf (withBit v 2 true).toNat 0 2 = 0 → (s.plainWrite (DPL_PHASE_CTL d) r (withBit v 2 true)).get (DPL_PHASE_CTL_mode d) = 0 →
       exec (.phaseSampleReq d v) s = .next ((s.plainWrite (DPL_PHASE_CTL d) r (withBit v 2 true)).setDpl d
         { s.dpl[d] with phaseReq := true })) ∧
  ∀ (s u w : State) (d : Fin 12) (ofs : BitVec 19), s.get (DPL_PHASE_CTL_mode d) = 1 ∨ s.dpl[d].phaseReq = true → s.tmb.running = true →
    u = s.advance (s.phaseInstant d - s.tmb.count) →
    w = (((((u.wn64 (DPL_PHASE_TS_LO d) (stampOf (s.phaseInstant d) (u.get TMB_STATUS_step_flag))).put (DPL_PHASE_EP_epoch d)
      u.tmb.epoch).put (DPL_PHASE_OFS_ofs d) (ofs.toNat % ((u.rate d).lastStep + 1))).put (DPL_PHASE_OFS_valid d)
        (if 4 ≤ u.get (DPL_STATUS_state d) ∧ u.get (DPL_STATUS_state d) ≤ 6 then 1 else 0)).wn64 (DPL_PHASE_VEC_LO d)
          (if d.val < 8 ∧ u.get (PRT_SEQ_STATUS_state d) = 2 then u.vecFrom d u.tmb.clk else 0)) →
    exec (.phaseSample d ofs) s = .next (w.setDpl d { s.dpl[d] with phaseReq := false })

/-- The life of a domain PLL (R209, R212, R213, R218 to R220), each event in the state it is for: handover, lock declared, settled, the
ramp's steps and its end, loss of lock, the way back to acquisition, and FAIL. -/
def Obligations.DplStates : Prop :=
  ∀ (s : State) (d : Fin 12),
    (s.get (DPL_STATUS_state d) = 1 → s.tmb.running = true → exec (.dplHandover d) s = .next (s.put (DPL_STATUS_state d) 2)) ∧
    (s.get (DPL_STATUS_state d) = 2 → s.dpl[d].relock = false →
      exec (.dplLockDeclared d) s = .next ((s.put (DPL_STATUS_state d) 3).put (DPL_STATUS_locked d) 1)) ∧
    (∀ (ph : Nat) (u : State), s.get (DPL_STATUS_state d) = 3 → s.dpl[d].relock = false → s.seq[d].paused = false →
      u = (((s.put (DPL_STATUS_state d) 4).put (DPL_STATUS_settling d) 0).setDpl d { s.dpl[d] with relock := false, cur := none }) →
      (8 ≤ d.val → exec (.dplSettled d ph) s = .next u.clockGo) ∧
      ∀ p : Fin 8, d = portUnit p → exec (.dplSettled d ph) s = .next (((u.stickyGo p).flushPort p).x9Go p).clockGo) ∧
    (s.get (DPL_STATUS_state d) = 2 → exec (.dplLossOfLock d) s = .next (((((s.put (DPL_STATUS_locked d) 0).put
      (DPL_STATUS_lost d) 1).setBit TMB_DPL_EVT d.val).ev 492).count (DPL_RELOCK_CNT d))) ∧
    (∀ u : State, s.get (DPL_STATUS_state d) = 6 → u = ((s.put (DPL_STATUS_state d) 1).put (DPL_STATUS_locked d) 0).put
      (DPL_STATUS_settling d) 0 → exec (.dplHoldToAcquire d) s = .next (u.setDpl d { s.dpl[d] with
        cur := none, acqAt := s.tmb.clk, lfsrAt := s.tmb.clk
        lfsr := if u.get (DPL_SEED_seed d) = 0 then 1 else u.get (DPL_SEED_seed d) })) ∧
    (s.get (DPL_STATUS_state d) = 2 ∨ (s.get (DPL_STATUS_state d) = 1 ∧ s.tmb.running = true) → s.unitRuns d = false →
      exec (.dplFail d) s = .next
      ((((((((s.put (DPL_STATUS_state d) 7).put (DPL_STATUS_locked d) 0).put (DPL_STATUS_settling d) 0).put (DPL_STATUS_fail d)
        1).setBit TMB_DPL_EVT (16 + d.val)).ev 494).setDpl d { s.dpl[d] with relock := false, cur := none }).clockGo.holdFaults.syncSources)) ∧
    (∀ c target step : Nat, s.get (DPL_STATUS_state d) = 5 → s.dpl[d].cur = some c →
      target = 2 ^ 20 * (s.targetRate d).num / (s.targetRate d).den →
      step = 2 ^ 20 * (s.word d).rate.num * s.dplSlew d * 128 / ((s.word d).rate.den * 1024000000 * 1000) →
      (c < target → exec (.dplRampUpdate d) s =
        .next (s.setDpl d { s.dpl[d] with cur := if target ≤ c + step then none else some (c + step) })) ∧
      (target ≤ c → exec (.dplRampUpdate d) s =
        .next (s.setDpl d { s.dpl[d] with cur := if c ≤ target + step then none else some (c - step) }))) ∧
    (s.get (DPL_STATUS_state d) = 5 → s.dpl[d].cur = none →
      exec (.dplRampSettled d) s = .next ((s.put (DPL_STATUS_state d) 4).put (DPL_STATUS_settling d) 0)) ∧
    exec (.ceilingSuppress (some d)) s = .next ((s.count (DPL_CEIL_CNT d)).ev 495) ∧
    exec (.ceilingSuppress none) s = .next ((s.count TMB_CEIL_CNT).ev 495)

/-- The TBPLL (R223, R225, R227, R229), each event in the state it is for: the reference comes and goes, the MDLL is ready, lock is
declared (the first starts the count at 0), lock is lost, the return from holdover slews, and the alignment ends the slew. The count and
the Trailhead of the time base (R230, R231, R535): at the wrap the count returns to 0 and the epoch advances; a due zeroing of mode 2
takes count 0 and the next epoch, and cancels the starts that wait for a Trailhead; an armed Trailhead that is reached pulses source 0x91.
-/
def Obligations.TimeBaseStates : Prop :=
  (∀ s : State,
     (s.get TMB_STATUS_state = 2 → exec .tbpllMdllReady s = .next (s.put TMB_STATUS_state 3)) ∧
     (s.on TMB_STATUS_ref_valid = true → s.on TMB_STATUS_ref_present = true → s.get TMB_STATUS_state = 2 →
       ∃ u : State, exec .refAbsent s = .next (u.put TMB_STATUS_state 1) ∧
         u = ((s.put TMB_STATUS_ref_present 0).count TMB_REF_LOSS_CNT).ev 480) ∧
     (s.on TMB_STATUS_ref_valid = true → s.on TMB_STATUS_ref_present = false → s.get TMB_STATUS_state ≠ 1 → s.canonical = true →
       exec .refPresent s = .next ((s.put TMB_STATUS_ref_present 1).ev 481)) ∧
     (∀ u : State, s.on TMB_STATUS_ref_valid = true → s.on TMB_STATUS_ref_present = false → s.get TMB_STATUS_state = 1 →
       u = ((s.put TMB_STATUS_ref_present 1).ev 481).put TMB_STATUS_state 2 → exec .refPresent s = .next { u with tmb := { s.tmb with
         lfsr := if s.get TMB_TBPLL_SEED_seed = 0 then 1 else s.get TMB_TBPLL_SEED_seed, lfsrAt := s.tmb.clk } }) ∧
     (s.get TMB_STATUS_state = 3 → s.tmb.running = false → ∃ u : State, exec .tbpllLocked s =
         .next { u with tmb := { u.tmb with running := true, count := 0, epoch := 0, clk := 0 } } ∧
       u = ((s.put TMB_STATUS_state 4).put TMB_STATUS_locked 1).ev 483) ∧
     (∀ u : State, s.on TMB_STATUS_locked = true → s.canonical = true → s.get TMB_STATUS_state = 4 →
       u = (((s.put TMB_STATUS_locked 0).ev 482).put TMB_STATUS_state 5).ev 484 →
       exec .tbpllUnlocked s = .next { u with tmb := { s.tmb with holdAt := s.tmb.clk, slewing := false } }) ∧
     (∀ (phi0 phi slew : Int) (a u : State), s.get TMB_STATUS_state = 5 → s.on TMB_STATUS_ref_present = true →
       a = s.advanceTo (s.tmb.holdAt + 100000 * tuPerNs) → phi = a.reducePhi phi0 → phi.natAbs ≤ 131072 →
       u = ((((a.wn TMB_PHASE_ERR (ofSigned 32 phi)).wn TMB_HOLD_TIME a.holdUs).put TMB_STATUS_state 6).slewTowards
         (clampInt (-10240) 10240 slew)) → exec (.tbpllReturn phi0 slew) s = .next { u with tmb := { u.tmb with slewing := true } }) ∧
     (∀ u : State, s.get TMB_STATUS_state = 6 → s.tmb.slewing = true → (toSigned 32 (s.rn TMB_PHASE_ERR)).natAbs ≤ 131072 →
       u = (s.put TMB_STATUS_state 3).slewTowards 0 →
       exec .tbpllAligned s = .next { u with tmb := { u.tmb with slewing := false } }) ∧
     (s.get TMB_STATUS_state = 5 → exec .holdoverLong s = .next ((s.put TMB_STATUS_holdover_long 1).ev 488))) ∧
  ∀ s : State,
    (s.tmb.running = true → s.tmb.count ≤ wrapTu → ∃ t : State, exec .timestampWrap s = .next t ∧ t.tmb.count = 0 ∧
      t.tmb.epoch = (s.tmb.epoch + 1) % 2 ^ 16 ∧ t.raised = s.raised ++ [491] ∧ t.csr = s.csr ∧ t.mem = s.mem) ∧
    (s.tmb.zeroMode = 2 → ∃ u : State, exec (.timeBaseZero false) s = .next u.cancelTrailheads ∧ u.tmb.count = 0 ∧
      u.tmb.epoch = (s.tmb.epoch + 1) % 2 ^ 16 ∧ u.tmb.zeroMode = 0 ∧ u.mem = s.mem) ∧
    (s.csrError TMB_TRAILHEAD_CTL true = false →
      (s.when_ (s.rn64 TMB_TRAILHEAD_LO) (s.rn TMB_TRAILHEAD_EP) = .past →
        exec .trailheadArm s = .next (s.put TMB_TRAILHEAD_CTL_arm 0)) ∧
      (s.when_ (s.rn64 TMB_TRAILHEAD_LO) (s.rn TMB_TRAILHEAD_EP) ≠ .past → ∃ u : State, exec .trailheadArm s =
        .next { u with tmb := { s.tmb with armTs := s.rn64 TMB_TRAILHEAD_LO, armEp := s.rn TMB_TRAILHEAD_EP } } ∧
          u = s.put TMB_TRAILHEAD_CTL_arm 1)) ∧
    (s.on TMB_TRAILHEAD_CTL_arm = true → s.tmb.running = true → s.tmb.armEp % 2 ^ 16 = s.tmb.epoch % 2 ^ 16 →
      exec .tmbTrailheadReached s = .next
        (((s.advance (instantOf s.tmb.armTs - s.tmb.count)).put TMB_TRAILHEAD_CTL_arm 0).pulse 0x91))

/-! ## Acquisition engines and TIM channels (chapters 07, 08) -/

/-- Commands of an acquisition engine (R247, R252, R259, R265), whose port's clocks run: an arm that nothing refuses clears the run's
counters and enters the state of its first wait, a refused one shows its code and raises source 3; a stop ends the run, and where no
trigger, segment or span is open does nothing else; a force sets the trigger latch of a run; the read pointer moves where it stays within
the drain, and passes the items that nothing holds. The drain publishes the oldest closed record of an engine whose channel is not frozen
and takes its writes (R259, R261), where the ring has room for it: its bytes stand in the ring from the write pointer on, the pointer
moves by the record's lines, the record leaves the queue, and the scheduler sees it. Where the ring has no room for it, or the channel is
frozen, the record waits. -/
def Obligations.AcquisitionRuns : Prop :=
  (∀ (s u t : State) (e : Fin 8) (v : Word),
     (s.csrError (ACQ_CTL e) true = false → s.clockWaits (ACQ_CTL e) = false →
       u = s.put (ACQ_CTL_stop_with_port e) (bitsOf v.toNat 2 1) →
       (u.acqRuns e = false →
         (u.acqArmCode e ≠ 1 → exec (.acqArm e v) s = .next ((u.put (ACQ_STATUS_arm_code e) (u.acqArmCode e)).ev (acqSrc e 3)).syncSources) ∧
         (u.acqArmCode e = 1 → t = ((((((((u.put (ACQ_STATUS_arm_code e) 1).setAcq e { recSeq := u.acq[e].recSeq }).put (ACQ_CTL_arm e)
             1).put (ACQ_STATUS_state e) 1).put (ACQ_STATUS_end e) 0).put (ACQ_SEG_DONE_count e) 0).put (ACQ_RUN_run e)
             (u.get (ACQ_RUN_run e) + 1))).acqPanic e →
           exec (.acqArm e v) s = .next (if bit v.toNat 1 then t.acqForce e else t).syncSources)) ∧
       (exec (.acqStop e v) s = .next (if bit v.toNat 1 then (u.acqEnd e 5 2 1).acqForce e else u.acqEnd e 5 2 1).syncSources) ∧
       (u.acqRuns e = true → u.acq[e].x6 = [] → u.acq[e].cubic = none → u.acq[e].seg = none → u.acq[e].span = none →
         t = (((u.put (ACQ_STATUS_state e) 5).put (ACQ_STATUS_end e) 2).ev (acqSrc e 4)).put (ACQ_CTL_arm e) 0 →
         u.acqEnd e 5 2 1 = (t.setAcq e { u.acq[e] with hist := [], latch := 0 }).acqPanic e) ∧
       (bit v.toNat 0 = true → u.acqRuns e = true →
         exec (.acqForce e v) s = .next (u.setAcq e { u.acq[e] with latch := u.acq[e].latch ||| 8 }).syncSources) ∧
       (bit v.toNat 0 = false → exec (.acqForce e v) s = .next ((u.acqEnd e 5 2 1).acqForce e).syncSources)) ∧
     (s.csrError (ACQ_DRAIN_RD e) true = false → s.clockWaits (ACQ_DRAIN_RD e) = false →
       (s.rn (ACQ_DRAIN_WR e) + 2 ^ 32 - v.toNat) % 2 ^ 32 ≤ s.drainSize e →
       exec (.acqDrainRdWrite e v) s = .next (((s.wn (ACQ_DRAIN_RD e) v.toNat).acqPanic e).releaseItems ⟨e.val, by omega⟩).holdFaults.syncSources)) ∧
  ∀ (s : State) (e : Fin 8) (r : AcqRec) (l : List AcqRec), s.canonical = true → s.acq[e].recs = r :: l →
    (s.acq[e].frozenWait = false → s.on (DMC_STATUS_frozen (e / 2)) = false → s.writerGo e (s.drainAddr e) = true →
      (0 < r.bytes.length / 64 → r.bytes.length / 64 ≤ s.drainFree e → r.bytes.length / 64 < 2 ^ 32 →
        exec (.acqRecordPublish e) s = .next ((s.acqPublish e).schPublished e (s.rn (ACQ_DRAIN_WR e))
          (s.rn (ACQ_DRAIN_WR e) + r.bytes.length / 64) r.isSeg) ∧
        (s.acqPublish e).acq[e].recs = l ∧ (s.acqPublish e).mem = (s.drainWrite e (s.rn (ACQ_DRAIN_WR e)) r.bytes).mem ∧
        (s.acqPublish e).rn (ACQ_DRAIN_WR e) = (s.rn (ACQ_DRAIN_WR e) + r.bytes.length / 64) % 2 ^ 32) ∧
      (s.drainFree e < r.bytes.length / 64 → exec (.acqRecordPublish e) s = .next s)) ∧
    (s.acq[e].frozenWait = true → exec (.acqRecordPublish e) s = .next s)

/-- Commands and times of a TIM channel (R272 to R280): an arm outside ARMED and MEAS takes the settings, shows the code of its check and
waits, with the run's counts cleared; a stop ends ARMED and MEAS; an armed channel whose conditions hold measures; lock and loss of lock
of its delay line; and the end of a secret period, which ends the blanking of the port's pins (R440). -/
def Obligations.TimChannelStates : Prop :=
  ∀ (s : State) (t : Fin 32),
    (∀ (v : Word) (v1 v2 : BitVec 12), s.csrError (TIM_CTL t) true = false → s.timActive t = true →
      exec (.timArm t v v1 v2) s = .next s.syncSources ∧
      exec (.timStop t v) s = .next ((((s.put (TIM_STATUS_state t) 5).put (TIM_CTL_arm t) 0).setTim t
        { s.tim[t] with met := false, gBad := s.tim[t].gate :: s.tim[t].gBad }).syncSources)) ∧
    (∀ (u w x : State) (v : Word) (v1 v2 : BitVec 12), s.csrError (TIM_CTL t) true = false → s.timActive t = false →
      w = (((((s.put (TIM_CTL_mode t) (bitsOf v.toNat 1 1)).put (TIM_CTL_kind t) (bitsOf v.toNat 2 2)).put (TIM_CTL_edge t)
        (bitsOf v.toNat 4 2)).put (TIM_CTL_arm_src t) (bitsOf v.toNat 6 1)).put (TIM_CTL_partner t) (bitsOf v.toNat 8 3)) →
      u = (if bit v.toNat 1 && !s.on (TIM_CTL_mode t) then w.put (TIM_STATUS_dll_locked t) 0 else w) →
      (u.timActive t = false → exec (.timStop t v) s = .next u.syncSources) ∧
      (u.get (TIM_STATUS_state t) = 1 ∨ u.get (TIM_STATUS_state t) = 4 ∨ u.get (TIM_STATUS_state t) = 5 →
        (u.timArmCode t ≠ 1 → exec (.timArm t v v1 v2) s =
          .next ((u.put (TIM_STATUS_arm_code t) (u.timArmCode t)).ev (64 * (t / 8) + 54)).syncSources) ∧
        (u.timArmCode t = 1 → x = (((((((u.put (TIM_STATUS_arm_code t) 1).put (TIM_CTL_arm t) 1).put (TIM_STATUS_state t) 2).wn
            (TIM_RESULTS t) 0).wn64 (TIM_EDGES_LO t) 0).setTim t {
              cal := u.timCal t, lastMeas := u.tim[t].lastMeas,
              pend := u.tim[t].pend.map (fun (y : TimPend) => { y with old := true }), wait := u.tim[t].wait.map (fun (y : TimPend × TimConv) =>
                ({ y.1 with old := true }, y.2)),
              old := if u.tim[t].pend.all (·.old) then u.tim[t].old
                else { prev := u.tim[t].prev, edges := u.tim[t].edges, lost := u.tim[t].lost } }).sourceArmed (timTaskSource t) true) →
          exec (.timArm t v v1 v2) s = .next (if u.get (TIM_CTL_mode t) = 0
            then (x.put (TIM_BRACKET_v1 t) v1.toNat).put (TIM_BRACKET_v2 t) v2.toNat else x).syncSources))) ∧
    (s.get (TIM_STATUS_state t) = 2 → (s.on (TIM_CTL_arm_src t) = false ∨ s.tim[t].met = true) →
      (s.on (TIM_CTL_mode t) = false ∨ s.on (TIM_STATUS_dll_locked t) = true) → s.on (TIM_STATUS_leased t) = false →
      exec (.timMeasStart t) s = .next ((s.put (TIM_STATUS_state t) 3).setTim t
        { s.tim[t] with
          met := false, gAt := s.tmb.clk, gate := 0, gOf := 0, gFirst := none, gLast := none
          gBad := if s.on (TIM_STATUS_blanked t) then [0] else [] }).holdFaults.syncSources) ∧
    (s.on (TIM_CTL_mode t) = true → s.get (TIM_STATUS_state t) ≠ 0 →
      exec (.timDllLock t) s = .next (s.put (TIM_STATUS_dll_locked t) 1)) ∧
    (s.on (TIM_STATUS_dll_locked t) = true →
      exec (.timDllUnlock t) s = .next ((s.put (TIM_STATUS_dll_locked t) 0).timFlag t (TIM_STATUS_dll_unlock t) 3 53)) ∧
    (∀ p : Fin 8, s.port[p].secretOn = true → (s.portRuns p && s.seq[portUnit p].e.secret) = false →
      exec (.secretPeriodEnd p) s = .next ((s.setPort p { s.port[p] with secretOn := false }).timBlank p false))

/-- Edges of a TIM channel in ARRIVAL mode (R270, R274 to R276): a selected edge in MEAS counts; outside the dead time it waits for its
conversion and pulses the channel's source; in the dead time after the last measured edge it is lost; while the channel is blanked, and an
edge that is not selected, does nothing. A conversion of a TIM channel (R270 to R273, R281 to R283): the oldest edge that waits leaves the
wait list, its time stamp and epoch stand in the channel's registers, the channels it is the partner of take note of it, and it gives a
result by the channel's kind: its edge time, its distance from the edge before it, its distance from its partner's edge, or its share in a
FREQ gate. -/
def Obligations.TimResults : Prop :=
  (∀ (s u w : State) (t : Fin 32) (at_ : Nat) (f : Bool), u = (s.advance (1000 * at_ - s.tmb.count)).timGates t →
     u.get (TIM_STATUS_state t) = 3 → w = u.wn64 (TIM_EDGES_LO t) (u.rn64 (TIM_EDGES_LO t) + 1) →
     ((u.timSelected t f = false ∨ u.on (TIM_STATUS_blanked t) = true) → exec (.timEdge t at_ f) s = .next u) ∧
     (u.timSelected t f = true → u.on (TIM_STATUS_blanked t) = false → u.on (TIM_CTL_mode t) = false →
       (∀ m, u.tim[t].lastMeas = some m → m + 18 * tuPerNs ≤ u.tmb.clk) →
       exec (.timEdge t at_ f) s = .next ((w.setTim t { u.tim[t] with
         since := 0, lastMeas := some (u.tmb.clk : Int)
         pend := u.tim[t].pend ++ [{ coarse := (at_ / 4096 + 2) * 4096, falling := f, number := u.rn64 (TIM_EDGES_LO t)
                                     n := u.tim[t].since + 1, ep := u.tmb.epoch, ofs := (u.tmb.count : Int) - u.tmb.clk
                                     at_ := u.tmb.clk, gate := u.tim[t].gate }] }).pulse (0x50 + t))) ∧
     (∀ m, u.timSelected t f = true → u.on (TIM_STATUS_blanked t) = false → u.on (TIM_CTL_mode t) = false →
       u.tim[t].lastMeas = some m → (u.tmb.clk : Int) < m + 18 * tuPerNs →
       exec (.timEdge t at_ f) s = .next (((w.setTim t { u.tim[t] with since := u.tim[t].since + 1, lost := true }).count
         (TIM_LOST t)).timFlag t (TIM_STATUS_lost t) 1 49))) ∧
  ∀ (s s1 s2 s3 s4 : State) (t : Fin 32) (x v1 v2 : BitVec 12) (p : TimPend) (rest : List TimPend) (c : TimConv),
    (s.tim[t].pend = [] → exec (.timResult t x v1 v2) s = .next (s.serveSource (timTaskSource t)).holdFaults.syncSources) ∧
    (s.tim[t].pend = p :: rest → p.old = false → (s.setTim t { s.tim[t] with pend := rest }).timConvert t p x.toNat = (s1, c) →
      s2 = (if s.on (TIM_CTL_mode t) then s1 else (s1.put (TIM_BRACKET_v1 t) v1.toNat).put (TIM_BRACKET_v2 t) v2.toNat) →
      s3 = ((s2.wn64 (TIM_LAST_TS_LO t) (ofSigned 64 (8 * c.edge + ((s.clockMap p.at_).2.2 : Int)))).put (TIM_LAST_EP_epoch t)
        (if c.edge < 0 then (p.ep + 65535) % 65536 else p.ep)).timTellPartners t c.tb →
      s4 = s3.setTim t { s3.tim[t] with prev := some c.tb, lastMeas := if rest = [] then some c.tb else s3.tim[t].lastMeas } →
      (s.get (TIM_CTL_kind t) = 0 →
        exec (.timResult t x v1 v2) s = .next ((s4.timProduce t (ofSigned 32 c.edge) p.falling c.range c.cal false (p.number % 2 ^ 16)).serveSource
          (timTaskSource t)).holdFaults.syncSources) ∧
      (s.get (TIM_CTL_kind t) = 1 → s3.tim[t].prev = none →
        exec (.timResult t x v1 v2) s = .next ((s4).serveSource
          (timTaskSource t)).holdFaults.syncSources) ∧
      (∀ b, s.get (TIM_CTL_kind t) = 1 → s3.tim[t].prev = some b → edgeDiff c.tb b ≤ 0xFFFFFFFF →
        exec (.timResult t x v1 v2) s = .next ((s4.timProduce t (edgeDiff c.tb b).toNat p.falling c.range c.cal false p.n).serveSource
          (timTaskSource t)).holdFaults.syncSources) ∧
      (s.get (TIM_CTL_kind t) = 2 → s4.tim[t].wait = [] → s4.partnerBusy t c.tb = false →
        exec (.timResult t x v1 v2) s = .next ((s4.timInterval t p c).serveSource
          (timTaskSource t)).holdFaults.syncSources) ∧
      (s.get (TIM_CTL_kind t) = 2 → s4.partnerBusy t c.tb = true →
        exec (.timResult t x v1 v2) s = .next ((s4.setTim t { s4.tim[t] with wait := s4.tim[t].wait ++ [(p, c)] }).serveSource
          (timTaskSource t)).holdFaults.syncSources) ∧
      (s.get (TIM_CTL_kind t) = 3 →
        exec (.timResult t x v1 v2) s = .next ((s4.gateEdge t p c).serveSource
          (timTaskSource t)).holdFaults.syncSources))

/-- A FREQ gate that ends (R282, R283): it lasts TIM_GATE times 8 ns from the end of the one before; with no edge in conversion it gives
the distance of its last from its first measured edge with their number of periods as the count, and nothing where it saw no edge or was
spoilt; the next gate opens. The histogram of a TIM channel (R285, R286): the oldest result of X7 leaves it and counts in its bin, the
value less the offset in units of 2^shift, or below or above the bins; while a clear is in progress it counts as dropped; a clear shows
busy, and at its end the bins and both outer counters read zero and busy is 0. -/
def Obligations.GatesAndHistograms : Prop :=
  (∀ (s u : State) (t : Fin 32) (len : Nat), s.tmb.running = true → s.get (TIM_STATUS_state t) = 3 → s.get (TIM_CTL_kind t) = 3 →
     len = 8 * tuPerNs * s.rn (TIM_GATE t) → 0 < len → s.tmb.clk ≤ s.tim[t].gAt + len → s.tim[t].pend = [] →
     s.on (TIM_STATUS_blanked t) = false →
     u = (s.advance (s.tim[t].gAt + len - s.tmb.clk)).setTim t { s.tim[t] with
       gate := s.tim[t].gate + 1, gAt := s.tim[t].gAt + len, gBad := s.tim[t].gBad.take 4 } →
     (s.tim[t].gFirst = none ∨ s.tim[t].gOf ≠ s.tim[t].gate →
       exec (.timGateEnd t) s = .next (u.serveSource (timTaskSource t)).holdFaults.syncSources) ∧
     ∀ a b : Int × Nat, s.tim[t].gFirst = some a → s.tim[t].gLast = some b → s.tim[t].gOf = s.tim[t].gate →
       (s.tim[t].gBad.take 4).contains s.tim[t].gate = false → edgeDiff b.1 a.1 ≤ 0xFFFFFFFF →
       exec (.timGateEnd t) s = .next (((u.setTim t { u.tim[t] with gFirst := none, gLast := none }).timProduce t (edgeDiff b.1 a.1).toNat
         u.tim[t].gFalling u.tim[t].gRange (u.tim[t].gCal || u.calStale (16 + t)) false (b.2 - a.2)).serveSource
         (timTaskSource t)).holdFaults.syncSources) ∧
  (∀ (s u : State) (q : Fin 4) (k w b : Nat) (l : List (Nat × Nat)) (t : Fin 32) (d v : Int), s.x7[q] = (k, w) :: l →
    t = ⟨k % 32, Nat.mod_lt _ (by decide)⟩ → u = { s with x7 := s.x7.set q l } →
    v = (if w / 2 ^ 44 % 16 = 2 then toSigned 32 w else (w % 2 ^ 32 : Nat)) →
    d = (if s.rn (TIM_HIST_FOLD t) = 0 then v else v % (s.rn (TIM_HIST_FOLD t) : Int)) - toSigned 32 (s.rn (TIM_HIST_OFS t)) →
    b = d.toNat / 2 ^ s.get (TIM_HIST_CTL_shift t) →
    (s.on (TIM_HIST_CTL_busy t) = true →
      exec (.timHistUpdate q) s = .next ((u.count (TIM_HIST_DROP t)).timFlag t (TIM_STATUS_hist_drop t) 2 51)) ∧
    (s.on (TIM_HIST_CTL_busy t) = false →
      (d < 0 → exec (.timHistUpdate q) s = .next (u.count (TIM_HIST_UNDER t))) ∧
      (0 ≤ d → 4096 ≤ b → exec (.timHistUpdate q) s = .next (u.count (TIM_HIST_OVER t))) ∧
      (0 ≤ d → b < 4096 → s.rn (TIM_HIST_BIN t b) ≠ 0xFFFFFFFF → exec (.timHistUpdate q) s = .next (u.count (TIM_HIST_BIN t b))))) ∧
  ∀ (s u : State) (t : Fin 32),
    (∀ (v : Word) (r : Reg), s.csrError (TIM_HIST_CTL t) true = false → s.waits = [] →
      regAt (TIM_HIST_CTL t) = some (.tim, t.val, 0x050, r) →
      exec (.timHistClear t v) s = .next ((s.plainWrite (TIM_HIST_CTL t) r
        (if s.timActive t then keepBits s (TIM_HIST_CTL t) 8 5 (withBit v 1 true) else withBit v 1 true)).put (TIM_HIST_CTL_busy t) 1)) ∧
    (s.on (TIM_HIST_CTL_busy t) = true → s.canonical = true → u = (((State.wn { s with
        csr := cellsClear (fun k => decide (TIM_HIST_BIN t 0 ≤ k) && decide (k < TIM_HIST_BIN t 0 + 0x4000)) s.csr } (TIM_HIST_UNDER t) 0).wn
        (TIM_HIST_OVER t) 0).put (TIM_HIST_CTL_busy t) 0) →
      exec (.timHistClearDone t) s = .next u ∧ u.get (TIM_HIST_CTL_busy t) = 0 ∧ (∀ b, b < 4096 → u.rn (TIM_HIST_BIN t b) = 0) ∧
      u.rn (TIM_HIST_UNDER t) = 0 ∧ u.mem = s.mem)

/-! ## Waveform generators and precision level DACs (chapter 09) -/

/-- The control of a waveform generator (R298, R301), whose clocks run: the start mode and out_en are taken first (out_en = 0 makes the
markers low); a write of run = 1 that nothing refuses clears the shown position, puts the correction of the calibration in force and plans
the stream from the start entry, a refused one ends STOPPED with its code, and one to an active generator changes nothing more; a write of
run = 0 cancels an armed start, lets a run stop at the end of its WD cycle, and ends a paused one at once. A waveform generator in ARMED
(R292, R293, R298, R300): admission once ring and head slots are primed, the time-out of admission, its Trailhead, and its first sample:
at the first WD boundary after its condition the start entry begins with the resampler cleared, the start stands in WFG_START_TS with its
epoch, source 56 is raised, and the first WD cycle of the run is output; a start entry that is not valid ends the run with code 8. A WD
cycle of a running waveform generator (R289, R292, R301, R302): a requested stop ends the run; otherwise 16 output samples are made, each
one sample period after the other, and a relock pause that is over is counted. An output sample without resampling takes the next source
sample of its frame, and shows its value and its markers. -/
def Obligations.WaveformGenerators : Prop :=
  (∀ (s a b u x : State) (m : Fin 4) (v : Word), s.csrError (WFG_CTL m) true = false → s.clockWaits (WFG_CTL m) = false →
     a = (if bitsOf v.toNat 2 2 = 3 then s else s.put (WFG_CTL_start_mode m) (bitsOf v.toNat 2 2)) →
     b = a.put (WFG_CTL_out_en m) (bitsOf v.toNat 4 1) → u = (if bit v.toNat 4 then b else b.wfgMarkers m 0 s.tmb.clk) →
     (u.wfgActive m = true → exec (.wfgRun m v) s = .next u) ∧
     (u.wfgActive m = false →
       x = (((((((u.put (WFG_ENTRY_depth m) 0).wn64 (WFG_SAMPLE_LO m) 0).put (WFG_STATUS_code m) 0).wn (WFG_WAIT_STATUS m) 0).wn
         (WFG_WAIT_PASSES m) 0).put (WFG_STATUS_state m) 1).put (WFG_CTL_run m) 1).setSeq (wfgUnit m)
           { condMet := decide (u.get (WFG_CTL_start_mode m) = 2) && u.inTbCycle u.wfg[m].evtAt } →
       (∀ c, x.wfgRefusal m = some c → exec (.wfgRun m v) s = .next (x.wfgEnd m 5 c true)) ∧
       (x.wfgRefusal m = none → exec (.wfgRun m v) s =
         .next ((x.setWfg m { mkr := u.wfg[m].mkr, mkrAt := u.wfg[m].mkrAt, evtAt := u.wfg[m].evtAt
                              ofs := (u.wfgCal m).1, gain := (u.wfgCal m).2 }).planFrom (wfgUnit m) (u.get (WFG_START_entry m))))) ∧
     (u.get (WFG_STATUS_state m) = 1 → exec (.wfgStop m v) s = .next (u.wfgEnd m 5 0 true)) ∧
     (u.get (WFG_STATUS_state m) = 2 → u.seq[wfgUnit m].paused = false → exec (.wfgStop m v) s =
       .next (u.setSeq (wfgUnit m) { u.seq[wfgUnit m] with stopReq := true })) ∧
     (u.get (WFG_STATUS_state m) = 2 → u.seq[wfgUnit m].paused = true → exec (.wfgStop m v) s = .next (u.wfgEnd m 5 0 false)) ∧
     (u.wfgActive m = false → exec (.wfgStop m v) s = .next u)) ∧
  (∀ (s : State) (m : Fin 4), s.get (WFG_STATUS_state m) = 1 →
     (s.primed (wfgUnit m) 0x40000 = true → s.slotsFilled (wfgUnit m) (s.get (WFG_START_entry m)) (fun _ => true) = true →
       exec (.wfgAdmitted m) s = .next (s.setSeq (wfgUnit m) { s.seq[wfgUnit m] with admitted := true })) ∧
     (s.seq[wfgUnit m].admitted = false → s.get (WFG_CTL_start_mode m) ≠ 1 → s.get (WFG_ADMIT_TMO_ms m) ≠ 0 →
       exec (.wfgAdmitTimeout m) s = .next (s.wfgEnd m 5 3 true)) ∧
     (s.get (WFG_CTL_start_mode m) = 1 → s.seq[wfgUnit m].trailMet = false → s.tmb.running = true →
       s.rn (WFG_TRAILHEAD_EP m) % 2 ^ 16 = s.tmb.epoch % 2 ^ 16 → s.seq[wfgUnit m].admitted = true →
       s.lockedSettled (wfgUnit m) = true → exec (.wfgTrailheadReached m) s =
         .next ((s.advance (instantOf (s.rn64 (WFG_TRAILHEAD_LO m)) - s.tmb.count)).setSeq (wfgUnit m)
           { s.seq[wfgUnit m] with trailMet := true })) ∧
     ∀ (phase t : Nat) (err : Bool) (e : Entry) (u w x : State), (s.get (WFG_CTL_start_mode m) = 1 → s.seq[wfgUnit m].trailMet = true) →
       (s.get (WFG_CTL_start_mode m) = 2 → s.seq[wfgUnit m].condMet = true) → s.seq[wfgUnit m].admitted = true →
       s.lockedSettled (wfgUnit m) = true → s.unitLeased (48 + m) = false →
       t = (if s.get (WFG_CTL_start_mode m) = 1 then ((s.tmb.clk : Int) + instantOf (s.rn64 (WFG_TRAILHEAD_LO m)) - s.tmb.count).toNat
         else s.tmb.clk) + phase % max 1 (16 * (s.rate (wfgPll m)).periodTu) →
       u = ((s.setSeq (wfgUnit m) { s.seq[wfgUnit m] with at_ := t, frac := 0, fracDen := 1 }).advanceTo t) →
       e = u.entryAt (s.get (WFG_START_entry m)) →
       (e.wfgValid = false → exec (.wfgFirstSample m phase err) s = .next (u.wfgEnd m 6 8 false)) ∧
       (e.wfgValid = true → e.dataOffset % 64 = 0 → e.dataOffset < u.windowSize (wfgUnit m) e.tier → u.wfgShort m e = false →
         w = ((u.put (WFG_ENTRY_entry m) (s.get (WFG_START_entry m))).setSeq (wfgUnit m) { u.seq[wfgUnit m] with
           e := e, timedOut := false
           deadline := if e.isLoop ∧ e.tmo ≠ 0 then some (t + e.tmoNs * tuPerNs) else none }).wfgBeginPass m 0 t →
         x = (((w.put (WFG_STATUS_state m) 2).wn64 (WFG_START_TS_LO m) (w.stampAt t)).put (WFG_START_EP_epoch m) (w.epochAt t)) →
         exec (.wfgFirstSample m phase err) s = .next (((x.setWfg m { x.wfg[m] with
           acc := 2 ^ 48 - s.wfgRho m, m := -1, n := 0, hist := List.replicate 32 (0, 0), flush := none }).ev (64 * m.val + 56)).wfgCycle
             m err))) ∧
  ∀ (s u : State) (m : Fin 4) (err : Bool),
    (s.get (WFG_STATUS_state m) = 2 → (s.seq[wfgUnit m].paused = true → s.seq[wfgUnit m].resume = true) →
      u = (if s.seq[wfgUnit m].paused then ((s.advanceTo s.seq[wfgUnit m].at_).count (WFG_PAUSE_CNT m)).setSeq (wfgUnit m)
        { s.seq[wfgUnit m] with paused := false, resume := false, frac := 0 } else s.advanceTo s.seq[wfgUnit m].at_) →
      (s.seq[wfgUnit m].stopReq = true → exec (.wfgWdCycle m err) s = .next (u.wfgEnd m 5 0 false)) ∧
      (s.seq[wfgUnit m].stopReq = false → exec (.wfgWdCycle m err) s =
        .next ((u.setWfg m { u.wfg[m] with out := [] }).wfgSamples m (s.rate (wfgPll m)) err 16))) ∧
    ∀ (t : Nat) (x : Int × Nat) (l : List (Int × Nat)) (a b c : State), s.on (WFG_RS_CTL_en m) = false → s.wfg[m].flush = none →
      s.wfg[m].frame = x :: l →
      a = (s.setWfg m { s.wfg[m] with
        acc := 0, frame := l, lastAt := t, hist := (x :: s.wfg[m].hist).take 64, m := s.wfg[m].m + 1 }).setSeq (wfgUnit m)
          { s.seq[wfgUnit m] with passVec := s.seq[wfgUnit m].passVec + 1 } →
      b = (a.wn64 (WFG_SAMPLE_LO m) ((a.seqVec (wfgUnit m) + 1) % 2 ^ 64)).registerDue (wfgUnit m) t →
      c = b.wfgMarkers m (b.wfgValue m).2 t →
      s.wfgSample m t err = (c.setWfg m { c.wfg[m] with n := c.wfg[m].n + 1, out := c.wfg[m].out ++ [(b.wfgValue m).1] }, true)

/-- Codes of the precision level DACs (R305, R306): in mode 0 a write loads its code, unless it is the one at the output, at once where
the thermometer segments stay, and starts a hold where they change; a load during a hold ends it or replaces its pending code; in mode 1
it is staged. A load puts the present correction in force (R308). A group load, from a write or from the matrix, loads the staged code of
every PDAC of the group in mode 1 that no source has loaded in this TB cycle, and leaves the others as they are; the end of the hold moves
the output to the pending code. The current limit (R307): the first µs at the limit shows it and raises its source, its end clears the
bit, and 100 µs of it with sc_off switch the output off; an en that software writes in the same TB cycle keeps the value written (R37). -/
def Obligations.PrecisionLevelDacs : Prop :=
  (∀ (s w : State) (u : Fin 16) (c : BitVec 16) (x : PdacH),
     (s.csrError (PDC_CODE u) true = false →
       w = (if s.inTbCycle s.pdac[u].wrAt then s else s.setPdac u { s.pdac[u] with
         wrAt := s.tbCycle, wrOld := s.get (PDC_CODE_code u) }).put (PDC_CODE_code u) c.toNat →
       x = { w.pdac[u] with ofs := (w.pdacCal u).1, gain := (w.pdacCal u).2 } →
       (s.get (PDC_CTL_mode u) ≠ 0 → exec (.pdacCodeWrite u c) s = .next w) ∧
       (s.get (PDC_CTL_mode u) = 0 →
         (s.pdac[u].pend = none → c.toNat = w.get (PDC_OUT_code u) → exec (.pdacCodeWrite u c) s = .next w) ∧
         (s.pdac[u].pend = none → c.toNat ≠ w.get (PDC_OUT_code u) → c.toNat / 1024 = w.get (PDC_OUT_code u) / 1024 →
           exec (.pdacCodeWrite u c) s = .next ((w.put (PDC_OUT_code u) c.toNat).setPdac u x)) ∧
         (s.pdac[u].pend = none → c.toNat / 1024 ≠ w.get (PDC_OUT_code u) / 1024 →
           exec (.pdacCodeWrite u c) s = .next ((w.put (PDC_STATUS_hold u) 1).setPdac u { x with pend := some c.toNat })) ∧
         (s.pdac[u].pend ≠ none → c.toNat / 1024 = w.get (PDC_OUT_code u) / 1024 → exec (.pdacCodeWrite u c) s =
           .next (((w.put (PDC_OUT_code u) c.toNat).put (PDC_STATUS_hold u) 0).setPdac u { x with pend := none })) ∧
         (s.pdac[u].pend ≠ none → c.toNat / 1024 ≠ w.get (PDC_OUT_code u) / 1024 →
           exec (.pdacCodeWrite u c) s = .next ((w.count (PDC_HOLD_RESTART u)).setPdac u { x with pend := some c.toNat })))) ∧
     (∀ k, s.pdac[u].pend = some k → exec (.pdacHoldEnd u) s =
       .next (((s.put (PDC_OUT_code u) k).put (PDC_STATUS_hold u) 0).setPdac u { s.pdac[u] with pend := none })) ∧
     (∀ (q : Fin 4) (v : Word), s.csrError (PDC_GLOAD q) true = false → exec (.pdacGroupLoad q v) s =
       .next ((List.range 4).foldl (fun (a : State) g => if bit v.toNat g then a.pdacGroup g false else a) s)) ∧
     ∀ g : Fin 4, exec (.pdacMatrixLoad g) s = .next (s.pdacGroup g true) ∧ (s.canonical = true → ∀ (edge : Bool) (r : State),
       r = (if s.get (PDC_CTL_mode u) = 1 ∧ s.get (PDC_CTL_group u) = g ∧
           s.inTbCycle (s.pdac[u].loadAt.bind fun l => if l.2 = edge then none else some l.1) = false
         then (s.pdacLoad u (if edge && s.inTbCycle s.pdac[u].wrAt then s.pdac[u].wrOld else s.get (PDC_CODE_code u))).pdacLoaded u edge
         else s) →
         (s.pdacGroup g edge).pdac[u] = r.pdac[u] ∧ (s.pdacGroup g edge).get (PDC_OUT_code u) = r.get (PDC_OUT_code u))) ∧
  ∀ (s : State) (u : Fin 16),
    (s.on (PDC_STATUS_limit u) = false → s.on (PDC_CTL_en u) = true → exec (.pdacLimit u true) s =
      .next (((s.put (PDC_STATUS_limit u) 1).put (PDC_STATUS_limit_seen u) 1).ev (64 * (u / 4) + 62))) ∧
    exec (.pdacLimit u false) s = .next (s.put (PDC_STATUS_limit u) 0) ∧
    (s.on (PDC_STATUS_limit u) = true → s.on (PDC_CTL_sc_off u) = true →
      (s.inTbCycle s.pdac[u].enAt = false → exec (.pdacScOff u) s =
        .next ((((s.put (PDC_CTL_en u) 0).put (PDC_STATUS_limit u) 0).put (PDC_STATUS_disabled u) 1).ev (64 * (u / 4) + 63))) ∧
      (s.inTbCycle s.pdac[u].enAt = true → exec (.pdacScOff u) s =
        .next ((s.put (PDC_STATUS_disabled u) 1).ev (64 * (u / 4) + 63))))

/-! ## The site link (chapter 10) -/

/-- The states of the site link and its own frames (R311, R312, R314, R318, R319, R321): enable, disable, alignment and loss of the input,
the ANNOUNCE interval, a local vote, the time-out of a round and the end of its closed mark, and sending and losing a Trailhead frame. -/
def Obligations.SiteLinkStates : Prop :=
  ∀ (s u : State) (v : Word),
    (s.csrError SLK_CTL true = false → s.on SLK_CTL_en = false → u = (s.put SLK_CTL_position
        (bitsOf v.toNat 8 5)).put SLK_CTL_members (bitsOf v.toNat 16 6) →
      exec (.slkEnable v) s = .next (if u.get SLK_STATUS_state = 0 then (u.put SLK_CTL_en 1).put SLK_STATUS_state 1 else u.put SLK_CTL_en 1) ∧
      exec (.slkDisable v) s = .next u) ∧
    (s.csrError SLK_CTL true = false → s.on SLK_CTL_en = true →
      u = ((((s.put SLK_CTL_en 0).put SLK_STATUS_state 0).put SLK_STATUS_fault_code 0).put SLK_STATUS_aligned 0).setSlk
        { s.slk with breakDue := false, own := [] } →
      exec (.slkEnable v) s = .next s ∧
      exec (.slkDisable v) s = .next (if s.get SLK_STATUS_state = 3 then u.slkLeaveUp else u).x9All) ∧
    (s.get SLK_STATUS_state = 1 → u = (s.put SLK_STATUS_aligned 1).slkEnterForm →
      (s.slk.breakDue = false → exec .slkAligned s = .next u) ∧
      (s.slk.breakDue = true → exec .slkAligned s = .next ((u.setSlk { u.slk with breakDue := false }).slkOwn 4 [0]))) ∧
    (s.get SLK_STATUS_state = 2 → u = s.put SLK_STATUS_aligned 0 →
      exec .slkInputLost s = .next ((u.setSlk { u.slk with own := [] }).put SLK_STATUS_state 1).x9All) ∧
    (s.get SLK_STATUS_state = 3 → u = (s.put SLK_STATUS_aligned 0).put SLK_STATUS_state 1 →
      exec .slkInputLost s = .next (u.setSlk { u.slk with breakDue := true }).slkLeaveUp.x9All) ∧
    ((s.get SLK_STATUS_state = 2 ∨ s.get SLK_STATUS_state = 3) → exec .announceTimer s =
      .next (s.slkOwn 2 (leBytes s.slkMembers 1 ++ beBytes (s.get SLK_RING_ID_id) 2 ++ beBytes s.slk.tag 2))) ∧
    (∀ p round fail rest site others y, s.voteQ = (p, round, fail) :: rest → site = s.cs.site.getD p 0 →
      others = s.slk.locals.filter (fun x => !(decide (x.site = site) && decide (x.round = round))) →
      y = (s.slk.locals.find? (fun x => decide (x.site = site) && decide (x.round = round))).getD
        { site := site, round := round, ports := 0, fail := false } →
      ((y.ports ||| 2 ^ p) &&& s.slkMembersOf site ≠ s.slkMembersOf site → exec .localVote s =
        .next (State.x9All { s with voteQ := rest, slk := { s.slk with
          locals := others ++ [{ y with ports := y.ports ||| 2 ^ p, fail := y.fail || fail }] } })) ∧
      ((y.ports ||| 2 ^ p) &&& s.slkMembersOf site = s.slkMembersOf site →
        u = { s with voteQ := rest, slk := { s.slk with locals := others } } →
        exec .localVote s = .next ((if s.get SLK_STATUS_state = 3 then u.slkOwn 1 (leBytes site 1 ++ leBytes round 1 ++
          leBytes (if y.fail || fail then 1 else 0) 1) else u).slkHold site round s.slkPos (y.fail || fail)).x9All)) ∧
    (∀ (site round : BitVec 8) (r : SlkRound), s.slk.rounds.find? (fun r => decide (r.site = site.toNat) &&
        decide (r.round = round.toNat)) = some r →
      u = (s.advanceTo (r.openAt + s.slkTmo)).slkForm site.toNat round.toNat true 1 →
      exec (.roundTimeout site round) s = .next (if s.get SLK_STATUS_state = 3
        then u.slkOwn 5 (leBytes site.toNat 1 ++ leBytes round.toNat 1) else u).x9All) ∧
    (∀ r : Reg, s.csrError SLK_TH_CTL true = false → s.waits = [] → regAt SLK_TH_CTL = some (.slk, 0, 0x024, r) →
      u = s.plainWrite SLK_TH_CTL r (withBit v 0 true) → u.get SLK_STATUS_state = 3 → u.on SLK_TH_CTL_busy = false →
      exec (.slkThSend v) s = .next ((u.put SLK_TH_CTL_busy 1).slkOwn 3 (leBytes (u.get SLK_TH_CTL_site) 1 ++
        leBytes (u.get SLK_TH_CTL_arm) 1 ++ beBytes (u.rn64 SLK_TH_TS_LO) 8 ++ beBytes (u.get SLK_TH_EP_epoch) 2))) ∧
    (∀ site round : BitVec 8, exec (.closedRoundExpiry site round) s =
      .next { s with slk := { s.slk with closed := s.slk.closed.erase (site.toNat, round.toNat) } }) ∧
    (s.on SLK_TH_CTL_busy = true →
      exec .slkThTimeout s = .next (((s.put SLK_TH_CTL_busy 0).put SLK_TH_CTL_failed 1).ev 502))

/-- A received frame that is clean and matches is forwarded where the ring needs it, and then has its effect (R312 to R316, R319, R321): a
VOTE is held for its round; an ANNOUNCE of this device gives the round trip time, another's marks its position as seen; a TRAILHEAD of
another device is applied to its site's ports; a BREAK leaves UP for FORM; an ABANDON forms a round that has not formed as failed. The
verdicts that form reach X9 of the ports that listen. How rounds are held and form (R319, R320): a vote of a position outside the site's
mask, or for a closed round, counts as late; a round that has the votes of its whole mask forms with the fail of any vote; one that has
not stays open while the device is UP. A round that forms leaves the open rounds, is closed, stands in SLK_LAST_VERDICT, and reaches the
ports that listen to its site. A frame with a code error or a wrong CRC or length is forwarded as errored where its header has it
forwarded, is counted, and raises source 500; it has no other effect (R315, R316). -/
def Obligations.SiteLinkReceives : Prop :=
  (∀ (s u : State) (typ : Nat) (l : List Byte), s.get SLK_STATUS_state = 2 ∨ s.get SLK_STATUS_state = 3 →
     byteAt l 0 = typ → crc16 l = 0 → l.length = frameLength typ →
     u = (if s.slkDrain.slkForwards l = true ∧ byteAt l 2 % 64 + 1 < s.slkDrain.slkMembers then s.slkDrain.slkForward (forwarded l) false
       else s.slkDrain) →
     s.slkMismatch l = none → byteAt l 2 % 64 < s.slkMembers →
     (typ = 1 → exec (.vote l true) s = .next (u.slkHold (byteAt l 3) (byteAt l 4) (byteAt l 1 % 32) (bit (byteAt l 5) 0)).x9All) ∧
     (typ = 2 → byteAt l 1 % 32 = u.slkPos → exec (.announce l true) s = .next (u.setSlk { u.slk with
       ownBack := true, rtt := min ((u.tmb.clk - u.slk.annAt) / tuPerNs) 0xFFFFFFFF }).slkFormed.x9All) ∧
     (typ = 2 → byteAt l 1 % 32 ≠ u.slkPos → exec (.announce l true) s =
       .next (u.setSlk { u.slk with seen := u.slk.seen ||| 2 ^ (byteAt l 1 % 32) }).slkFormed.x9All) ∧
     (typ = 3 → byteAt l 1 % 32 ≠ u.slkPos → exec (.trailheadFrame l true) s = .next (u.slkApply (byteAt l 3)
       (ofBe ((l.drop 5).take 8)) (ofBe ((l.drop 13).take 2)) (bit (byteAt l 4) 0)).x9All) ∧
     (typ = 3 → byteAt l 1 % 32 = u.slkPos → u.on SLK_TH_CTL_busy = true → exec (.trailheadFrame l true) s =
       .next ((((u.slkApply (byteAt l 3) (ofBe ((l.drop 5).take 8)) (ofBe ((l.drop 13).take 2)) (bit (byteAt l 4) 0)).put
         SLK_TH_CTL_busy 0).put SLK_TH_CTL_done 1).ev 501).x9All) ∧
     (typ = 4 → u.get SLK_STATUS_state = 3 → exec (.linkBreak l true) s = .next u.slkLeaveUp.slkEnterForm.x9All) ∧
     (typ = 5 → (byteAt l 3, byteAt l 4) ∉ u.slk.closed →
       exec (.abandon l true) s = .next (u.slkForm (byteAt l 3) (byteAt l 4) true 4).x9All)) ∧
  (∀ (s : State) (site round pos : Nat) (fail : Bool),
     (∀ (r r1 : SlkRound) (u : State), s.slk.rounds.find? (fun r => decide (r.site = site) && decide (r.round = round)) = some r →
       r1 = { r with votes := r.votes ||| 2 ^ pos, fail := r.fail || fail } →
       u = s.setSlk { s.slk with rounds := s.slk.rounds.map fun x => if x = r then r1 else x } →
       (bit r.mask pos = false → s.slkHold site round pos fail = s.count SLK_LATE) ∧
       (bit r.mask pos = true → r1.votes &&& r.mask = r.mask → s.slkHold site round pos fail = u.slkForm site round (r.fail || fail) 0) ∧
       (bit r.mask pos = true → r1.votes &&& r.mask ≠ r.mask → s.get SLK_STATUS_state = 3 → s.slkHold site round pos fail = u)) ∧
     (∀ (mask : Nat) (u : State), s.slk.rounds.find? (fun r => decide (r.site = site) && decide (r.round = round)) = none →
       mask = s.rn (SLK_SITE_MASK site) → s.slk.rounds.length < 64 →
       u = s.setSlk { s.slk with rounds := s.slk.rounds ++ [{
         site := site, round := round, openAt := s.tmb.clk, mask := mask, votes := 2 ^ pos, fail := fail }] } →
       ((site, round) ∈ s.slk.closed ∨ bit mask pos = false → s.slkHold site round pos fail = s.count SLK_LATE) ∧
       ((site, round) ∉ s.slk.closed → bit mask pos = true → 2 ^ pos &&& mask = mask →
         s.slkHold site round pos fail = u.slkForm site round fail 0) ∧
       ((site, round) ∉ s.slk.closed → bit mask pos = true → 2 ^ pos &&& mask ≠ mask → s.get SLK_STATUS_state = 3 →
         s.slkHold site round pos fail = u)) ∧
     ∀ (cause : Nat) (t : State), t = s.slkForm site round fail cause →
       (site, round) ∈ t.slk.closed ∧ (∀ r, r ∈ t.slk.rounds → r ∈ s.slk.rounds ∧ (r.site, r.round) ≠ (site, round)) ∧
       (s.canonical = true → t.rn SLK_LAST_VERDICT = site % 256 + 256 * (round % 256) + (if fail then 0x10000 else 0) + 0x20000 * (cause % 8)) ∧
       ∀ p : Fin 8, s.on (SLK_PORT_CFG_listen_en p) = true → s.get (SLK_PORT_CFG_listen_site p) = site → s.canonical = true →
         s.port[p].x9.length < 16 → t.port[p].x9 = s.port[p].x9 ++ [(site, fail)]) ∧
  ∀ (s : State) (l : List Byte) (clean : Bool), 2 ≤ s.get SLK_STATUS_state → ∀ t : State,
    t = (State.x9All (((if s.slkDrain.slkForwards l && decide (byteAt l 2 % 64 + 1 < s.slkDrain.slkMembers) && decide (3 < l.length)
      then s.slkDrain.slkForward (forwarded l) true else s.slkDrain).count SLK_CRC_ERR).ev 500)) →
    (clean = false ∨ crc16 l ≠ 0 ∨ l.length ≠ 8 → exec (.vote l clean) s = .next t) ∧
    (clean = false ∨ crc16 l ≠ 0 ∨ l.length ≠ 10 → exec (.announce l clean) s = .next t) ∧
    (clean = false ∨ crc16 l ≠ 0 ∨ l.length ≠ 17 → exec (.trailheadFrame l clean) s = .next t) ∧
    (clean = false ∨ crc16 l ≠ 0 ∨ l.length ≠ 6 → exec (.linkBreak l clean) s = .next t) ∧
    (clean = false ∨ crc16 l ≠ 0 ∨ l.length ≠ 7 → exec (.abandon l clean) s = .next t)

/-! ## The scheduler and the result cores (chapter 11) -/

/-- The task pool (R324 to R328, R336): an allocation takes the lowest FREE slot; a submission is judged in the order slot, descriptor,
group, flow, room of the flow, and a refused one is counted with its code; an accepted one is a template, a delayed task, or a task
created at once; a slot that was only allocated can be returned; a cancel ends what has not ended. Templates and ticks (R327 to R330): the
oldest occurrence of a binding, when no lower binding holds one of the same cycle, leaves its queue and fires its template into the lowest
FREE slot, where the clone takes its flow's next number; without a slot the clone fails. A tick of the scheduler brings time to the next
microsecond of the count and visits every slot: a delay counts down, and one that ends makes its task READY. -/
def Obligations.TaskPoolAndTemplates : Prop :=
  (∀ (s : State) (slot : BitVec 13) (i : Nat), i = slot.toNat →
     (s.csrError SCH_ALLOC false = false → exec .schAlloc s = .next (if lowestFree 0 s.sch.tasks < 8192
       then (s.putTask (lowestFree 0 s.sch.tasks) {}).wn SCH_ALLOC (lowestFree 0 s.sch.tasks) else s.wn SCH_ALLOC (2 ^ 31))) ∧
     (s.csrError SCH_SUBMIT true = false →
       (∀ (d : Desc) (par : List Byte) (tmpl : Bool) (code : Option Nat), d = Desc.ofBytes (s.bytes (s.slotAddr i) 64) →
         par = s.bytes d.param (min d.plen 8200) → tmpl = (decide (d.start = 1) || (decide (d.start = 2) && decide (1 ≤ d.period))) →
         code = (if s.slotState i ≠ 1 then some 1 else if s.descOk (s.bytes (s.slotAddr i) 64) par = false then some 2
           else if d.group < 4 ∧ s.groupOn d.group = false then some 4
           else if d.flow ≠ 0xFFFF ∧ (256 ≤ d.flow ∨ s.on (SCH_FLOW_CFG_en d.flow) = false) then some 5
           else if tmpl = false ∧ d.flow < 256 ∧ 128 ≤ s.flowHeld d.flow then some 3 else none) →
         (∀ c, code = some c → exec (.taskSubmit slot) s = .next (((s.count SCH_REFUSE_CNT).ev 450).schResult i c)) ∧
         (code = none → tmpl = true → exec (.taskSubmit slot) s =
           .next ((s.putTask i { st := 2, d := d, param := par, group := d.group, left := d.delay }).schResult i 0)) ∧
         (∀ n u, code = none → tmpl = false → d.start = 2 → (n, u) = s.takeSeq d.flow → exec (.taskSubmit slot) s =
           .next ((u.putTask i
             { st := 3, d := d, param := par, seq := n, group := d.group, left := d.delay, ord := u.sch.ord }).nextOrd.schResult
               i 0)) ∧
         (∀ n u, code = none → tmpl = false → d.start ≠ 2 → d.wait = 0 → (n, u) = s.takeSeq d.flow → exec (.taskSubmit slot) s =
           .next ((u.nextOrd.becomeReady i
             { st := 4, d := d, param := par, seq := n, group := d.group, ord := u.sch.ord }).schResult i 0)) ∧
         (∀ n u, code = none → tmpl = false → d.start ≠ 2 → d.wait ≠ 0 → (n, u) = s.takeSeq d.flow → exec (.taskSubmit slot) s =
           .next (((u.nextOrd.putTask i { st := 4, d := d, param := par, seq := n, group := d.group, ord := u.sch.ord }).serveSource
             d.source).schResult i 0))) ∧
       (exec (.slotReturn slot) s = .next (if s.slotState i = 1 then (s.freeSlot i).schResult i 0 else s.schResult i 1)) ∧
       (∀ t : Task, s.task i = some t →
         (t.st = 2 → exec (.taskCancel slot) s = .next ((((s.freeSlot i).count SCH_CANCEL_CNT).ev 449).schResult i 0)) ∧
         (t.st = 3 → exec (.taskCancel slot) s =
           .next ((((s.taskDone i { t with hole := true } 2).count SCH_CANCEL_CNT).ev 449).schResult i 0)) ∧
         (t.st = 5 → exec (.taskCancel slot) s =
           .next ((((s.taskDone i { t with hole := true, started := false } 2).count SCH_CANCEL_CNT).ev 449).schResult i 0)) ∧
         (t.st = 7 → exec (.taskCancel slot) s = .next (s.schResult i 6)) ∧
         (t.st = 6 → exec (.taskCancel slot) s =
           .next (((((s.coreFree t.core 0).taskDone i t 2).count SCH_CANCEL_CNT).ev 449).schResult i 0))) ∧
       (s.task i = none → exec (.taskCancel slot) s = .next (s.schResult i 6)))) ∧
  (∀ (s u : State) (k : Fin 64) (x : Nat × Option Nat) (t : Task), s.sch.binds.find? (fun x => decide (x.1 = k.val)) = some x →
    (∀ y, y ∈ s.sch.binds → y.1 < k.val → x.2 = none ∨ y.2 ≠ x.2) → u = { s with sch := { s.sch with binds := s.sch.binds.erase x } } →
    u.task (u.get (SCH_BIND_slot k)) = some t → t.st = 2 →
    (lowestFree 0 u.sch.tasks < 8192 → ¬(t.d.flow < 256 ∧ 128 ≤ u.flowHeld t.d.flow) →
      exec (.bindingFire k) s = .next (u.createTask (lowestFree 0 u.sch.tasks) t.d t.param)) ∧
    (8192 ≤ lowestFree 0 u.sch.tasks → exec (.bindingFire k) s = .next ((u.count SCH_CLONE_FAIL).ev 451))) ∧
  (∀ (s u : State) (i n : Nat) (d : Desc) (par : List Byte) (t : Task), (n, u) = s.takeSeq d.flow →
    t = { st := 4, d := d, param := par, seq := n, group := d.group, ord := u.sch.ord } →
    s.createTask i d par = (if d.wait = 0 then u.nextOrd.becomeReady i t else (u.nextOrd.putTask i t).serveSource d.source)) ∧
  (∀ (s u : State), s.tmb.running = true → u = s.advanceTo s.nextTick →
    exec .schedTick s = .next ((u.sch.tasks.map (·.1)).foldl (fun (a : State) i => a.tickSlot i)
      { u with sch := { u.sch with lastTick := some s.nextTick } })) ∧
  ∀ (s : State) (i : Nat) (t : Task), s.task i = some t → t.st = 3 →
    (1 < t.left → s.tickSlot i = s.putTask i { t with left := t.left - 1 }) ∧
    (t.left ≤ 1 → s.tickSlot i = s.becomeReady i { t with left := 0 })

/-- The life of a task (R332, R335, R338, R341, R347, R349): a wait that times out makes the head of its source READY; a group dispatches
its next READY task, which reserves its largest Hamper, to its lowest idle core, or pre-empts a running task of lower priority, and waits
where the space is short; the job's records and status end it; an error ends it with one ERROR record; a core that trapped is idle again
after its reset. -/
def Obligations.TasksRun : Prop :=
  ∀ s : State,
    (∀ (j : Fin 48) (i : Nat) (t : Task) (u x : State) (t2 : Task), s.headOf j = some (i, t) → t.d.wtmo ≠ 0 →
      u = s.advanceTo (t.headAt.getD s.tmb.clk + t.d.wtmo * 8 * 8192000) → (x, t2) = u.claim j i t →
      (t2.items < t.d.wcount → exec (.taskWaitTimeout j) s =
        .next ((((x.becomeReady i { t2 with timedOut := true }).count SCH_TMO_CNT).ev 452).serveSource j)) ∧
      (t.d.wcount ≤ t2.items → exec (.taskWaitTimeout j) s = .next ((x.becomeReady i t2).serveSource j))) ∧
    (∀ (g : Fin 4) (i : Nat) (t : Task) (u : State) (room : Nat), s.on SCH_CTL_en = true → s.groupOn g = true →
      (s.blockedSlot g = some (i, t) ∨ s.blockedSlot g = none ∧ s.nextReady g = some (i, t)) →
      room = (if t.room = 0 then largestHamper t.d t.param else t.room) → u = s.setBlocked g none →
      (t.room ≠ 0 ∨ s.hamperUsed + room ≤ 0x10000 * s.get SCH_HAMPER_AREA_size →
        (∀ c, s.idleCore g = some c → exec (.taskDispatch g) s = .next (u.runOn i t g c room)) ∧
        (∀ c, s.idleCore g = none → s.victim g t.d.prio = some c →
          exec (.taskDispatch g) s = .next (((u.unrun c).count SCH_PREEMPT_CNT).runOn i t g c room)) ∧
        (s.idleCore g = none → s.victim g t.d.prio = none → exec (.taskDispatch g) s = .next u)) ∧
      (t.room = 0 → 0x10000 * s.get SCH_HAMPER_AREA_size < s.hamperUsed + room → s.sch.blocked.lookup g.val ≠ some i →
        exec (.taskDispatch g) s = .next ((s.setBlocked g (some i)).ev 454))) ∧
    (∀ (c : Fin 16) (bad : List Nat) (i : Nat) (t : Task), s.get (SCH_CORE_state c) = 1 → i = s.get (SCH_CORE_slot c) →
      s.task i = some t → t.inputChans &&& s.frozenMask = 0 → s.limitWaits t = false →
      (∀ x, x ∈ s.jobSpans t → s.mayMove (22 + c / 4) x.1 x.2 = true) →
      exec (.taskFinish c bad) s = .next (((s.job i t bad).s.coreFree c 0).taskDone i { t with
          body := (s.job i t bad).body, records := (s.job i t bad).records, partialSpec := (s.job i t bad).partialSpec }
        (if (s.job i t bad).status = 0 ∧ t.items < t.d.wcount then 1 else (s.job i t bad).status))) ∧
    (∀ (i : Nat) (t : Task) (bad : List Nat) (l : List (List Byte)) (n : Nat), t.d.kind = 1 → l = s.failItems t →
      n = s.cs.pinCount (t.d.wsrc % 8) →
      (s.job i t bad).s = s ∧ (s.job i t bad).body = record 1 (leBytes l.length 4 ++ leBytes (l.countP recOverflow) 4 ++ leBytes n 4 ++
        leBytes 0 4 ++ (List.range n).flatMap fun k => leBytes (l.countP fun r => bit (recPins r) k) 4)) ∧
    (∀ (c : Fin 16) (trap : Bool) (detail : Word) (addr : BitVec 64) (t : Task), s.get (SCH_CORE_state c) = 1 →
      s.task (s.get (SCH_CORE_slot c)) = some t →
      exec (.taskError c trap detail addr) s = .next ((((((s.coreFree c (if trap then 3 else 0)).taskDone (s.get (SCH_CORE_slot c))
        { t with body := errorRecord (if trap then 7 else 3) detail.toNat addr.toNat, records := 1 } (if trap then 7 else 3)).count
          SCH_ERR_CNT).put SCH_STATUS_error_seen 1)).ev 448)) ∧
    ∀ c : Fin 16, s.get (SCH_CORE_state c) = 3 → exec (.coreResetDone c) s = .next ((s.coreFree c 0).ev 456)

/-- Hampers and fail records (R339, R348, R350): a Hamper that nothing holds back is released to the session of its flow, and its flow
stalls where no such session is open; the oldest fail record of a port goes to its ring or, where that is full, is dropped and counted,
and where the ring is not valid is lost with fring_bad shown; a flow that holds nothing can be reset. -/
def Obligations.HampersAndFails : Prop :=
  ∀ s : State,
    (∀ (slot : BitVec 13) (t : Task) (u : State), s.task slot.toNat = some t → s.releasable t = true → 256 ≤ t.d.flow →
      (s.get (NET_SESS_STATUS_state (s.flowSession t.d.flow)) ≠ 2 → exec (.hamperRelease slot) s = .next (s.ev 455)) ∧
      (s.get (NET_SESS_STATUS_state (s.flowSession t.d.flow)) = 2 → u = s.putTask slot.toNat { t with hseq := some s.sch.hseq } →
        exec (.hamperRelease slot) s = .next { u with sch := { u.sch with
          hseq := (s.sch.hseq + 1) % 2 ^ 32, out := u.sch.out ++ [(s.flowSession t.d.flow, slot.toNat)] } })) ∧
    (∀ (slot : BitVec 13) (t : Task), s.task slot.toNat = some t → s.releasable t = true → t.d.flow < 256 →
      (s.get (NET_SESS_STATUS_state (s.flowSession t.d.flow)) ≠ 2 → s.on (SCH_FLOW_STATUS_stalled t.d.flow) = false →
        exec (.hamperRelease slot) s = .next ((s.put (SCH_FLOW_STATUS_stalled t.d.flow) 1).ev 455)) ∧
      (s.get (NET_SESS_STATUS_state (s.flowSession t.d.flow)) ≠ 2 → s.on (SCH_FLOW_STATUS_stalled t.d.flow) = true →
        exec (.hamperRelease slot) s = .next s) ∧
      (∀ u x y : State, s.get (NET_SESS_STATUS_state (s.flowSession t.d.flow)) = 2 →
        u = s.putTask slot.toNat { t with hseq := some s.sch.hseq } →
        x = { u with sch := { u.sch with
          hseq := (s.sch.hseq + 1) % 2 ^ 32, out := u.sch.out ++ [(s.flowSession t.d.flow, slot.toNat)] } } →
        y = (x.wn (SCH_FLOW_REL t.d.flow) ((x.rn (SCH_FLOW_REL t.d.flow) + 1) % 2 ^ 32)).put (SCH_FLOW_STATUS_stalled t.d.flow) 0 →
        exec (.hamperRelease slot) s = .next (y.put (SCH_FLOW_STATUS_held t.d.flow) (y.flowHeld t.d.flow)))) ∧
    (∀ (p : Fin 8) (r : FailRec) (l : List FailRec) (n : Nat), s.port[p].fifo = r :: l →
      n = (s.rn (SCH_FRING_WR p) + 2 ^ 32 - s.rn (SCH_FRING_RD p)) % 2 ^ 32 →
      (s.failRingOk p = false → exec (.failRecordDrain p) s = .next
        (((s.setPort p { s.port[p] with fifo := l }).put SCH_STATUS_fring_bad 1).serveSource ⟨8 + p.val, by omega⟩)) ∧
      (s.failRingOk p = true → n = 2 ^ s.get (SCH_FRING_SIZE_size p) → exec (.failRecordDrain p) s = .next
        (((((s.setPort p { s.port[p] with fifo := l, failOvf := true }).count (SCH_FRING_DROP p)).put SCH_STATUS_fail_drop 1).ev
          453).serveSource ⟨8 + p.val, by omega⟩)) ∧
      (s.failRingOk p = true → n ≠ 2 ^ s.get (SCH_FRING_SIZE_size p) → exec (.failRecordDrain p) s = .next
        ((((s.setBytes (s.rn64 (SCH_FRING_BASE_LO p) + 32 * (s.rn (SCH_FRING_WR p) % 2 ^ s.get (SCH_FRING_SIZE_size p)))
          (r.bytes s.port[p].failOvf)).wn (SCH_FRING_WR p) ((s.rn (SCH_FRING_WR p) + 1) % 2 ^ 32)).setPort p
            { s.port[p] with fifo := l, failOvf := false }).serveSource ⟨8 + p.val, by omega⟩))) ∧
    ∀ (f : Fin 256) (v : Word) (r : Reg) (u : State), s.csrError (SCH_FLOW_CFG f) true = false →
      s.waits = [] → regAt (SCH_FLOW_CFG f) = some (.sch, 0, 0x1000 + 16 * f.val, r) →
      u = s.plainWrite (SCH_FLOW_CFG f) r (if bit v.toNat 0 = false ∧ s.flowHeld f ≠ 0
        then keepBits s (SCH_FLOW_CFG f) 0 1 (withBit v 1 true) else withBit v 1 true) →
      exec (.flowReset f v) s = .next (if u.flowHeld f = 0 then (u.wn (SCH_FLOW_NEXT f) 0).wn (SCH_FLOW_REL f) 0 else u)

/-! ## The near store (chapter 12) -/

/-- A read burst of a channel that runs (R357 to R360, R368, R372): the read that the controller's order chooses is answered with zeros
where its granule is not zeroed yet, else with the stored line and the bits that the code neither saw nor undid; each corrected codeword
is counted and recorded; an uncorrectable codeword freezes the channel, and the read fails, or is held where it is the requester of a
result core, the host or a service. Errors confined to one symbol of an encoded codeword are corrected, errors confined to two are
detected. A write burst (R360, R363): the write that is issued stores its enabled bytes, every other byte of memory keeps its value, and
the write is answered; where its read-modify-write read is uncorrectable, the channel freezes and nothing is stored. -/
def Obligations.NearAccesses : Prop :=
  ((∀ (s u v w : State) (c : Fin 4) (err : BitVec 640) (x : DmcCand) (l : List CwRead), s.dmcRuns c = true →
     s.dmcPick c false = some x → u = s.dmcServe c x → l = s.lineRead c x.tx.line err →
     v = u.correctAll c x.tx.line x.tx.req 0 (corrections l) →
     w = v.freeze c x.tx.line x.tx.req 0 (uncorrectables l) (decide (corrections l ≠ [])) →
     (s.zeroed c x.tx.line = false → exec (.ddrReadComplete c err) s =
       .next (u.updateTx x.tx fun y => { y with answer := some (0, true) }).netGo.holdFaults.syncSources) ∧
     (s.zeroed c x.tx.line = true → uncorrectables l = 0 → exec (.ddrReadComplete c err) s =
       .next (v.updateTx x.tx fun y => { y with answer := some (s.readData x.tx.line err l, true) }).netGo.holdFaults.syncSources) ∧
     (s.zeroed c x.tx.line = true → uncorrectables l ≠ 0 → x.tx.req < 20 → exec (.ddrReadComplete c err) s =
       .next (w.updateTx x.tx fun y => { y with answer := some (0, false) }).netGo.holdFaults.syncSources) ∧
     (s.zeroed c x.tx.line = true → uncorrectables l ≠ 0 → 20 ≤ x.tx.req → exec (.ddrReadComplete c err) s =
       .next (w.updateTx x.tx fun y => { y with cause := true }).netGo.holdFaults.syncSources)) ∧
   ∀ (s : State) (c : Fin 4) (line : Nat) (err : BitVec 640) (k : Nat) (a b : Nat × Nat), k < 8 →
     s.dmc[c].patterned.lookup (lineOf line) = none →
     (errSyms err.toNat k = [] → (s.lineRead c line err).getD k .uncorrectable = .clean) ∧
     (errSyms err.toNat k = [a] → (s.lineRead c line err).getD k .clean = .corrected a.1 a.2) ∧
     (errSyms err.toNat k = [a, b] → (s.lineRead c line err).getD k .clean = .uncorrectable)) ∧
  ∀ (s : State) (c : Fin 4) (err : BitVec 640) (x : DmcCand), s.canonical = true →
    s.dmcRuns c = true → s.dmcPick c true = some x →
    (∀ (u v : State) (n hi lo : Nat), partialWrite x.tx.enables = false →
      u = (s.dmcServe c x).setLine x.tx.line (mergeLine (s.lineData x.tx.line) (x.tx.write.getD 0) x.tx.enables) →
      v = u.updateTx x.tx (fun y => { y with answer := some (0, true) }) →
      n = ((v.dmcQueue c).filter fun y => y.write.isSome).length → hi = max 8 (s.get (DMC_SCHED_CFG_wr_hi c)) →
      lo = (if hi ≤ s.get (DMC_SCHED_CFG_wr_lo c) then hi - 1 else s.get (DMC_SCHED_CFG_wr_lo c)) →
      exec (.ddrWriteIssued c err) s = .next (v.setDmc c { v.dmc[c] with
        burst := s.inBurst c && decide (lo < n)
        patterned := v.dmc[c].patterned.filter fun y => decide (y.1 ≠ lineOf x.tx.line) }).netGo.holdFaults.syncSources ∧
      (∀ i < 64, v.byte (lineOf x.tx.line + i) = if x.tx.enables.getLsbD i then (x.tx.write.getD 0).extractLsb' (8 * i) 8
        else s.byte (lineOf x.tx.line + i)) ∧
      (∀ a, a < lineOf x.tx.line ∨ lineOf x.tx.line + 64 ≤ a → v.byte a = s.byte a)) ∧
    (partialWrite x.tx.enables = true → uncorrectables (s.lineRead c x.tx.line err) ≠ 0 → exec (.ddrWriteIssued c err) s =
      .next (((s.dmcServe c x).correctAll c x.tx.line x.tx.req 1 (corrections (s.lineRead c x.tx.line err))).freeze c x.tx.line x.tx.req 1
        (uncorrectables (s.lineRead c x.tx.line err)) (decide (corrections (s.lineRead c x.tx.line err) ≠ []))).netGo.holdFaults.syncSources)

/-- Refresh, retraining and initialisation of a channel (R365, R366, R368 to R370): postponed and issued refreshes, the temperature read,
a retraining round from its start to its end, the initialiser's granules, and the end of a training. -/
def Obligations.NearUpkeep : Prop :=
  ∀ (s : State) (c : Fin 4),
    (∀ p : Bool, (p && s.chanPanic c && decide (s.dmc[c].postponed < 4)) = false → exec (.ddrRefresh c p) s =
      .next { s with dmc := s.dmc.set c { s.dmc[c] with
        postponed := 0, refBank := (s.dmc[c].refBank + 1) % 4
        rows := s.dmc[c].rows.filter fun r => decide (r.bank % 4 ≠ s.dmc[c].refBank) } }) ∧
    (s.chanPanic c = true → s.dmc[c].postponed < 3 → exec (.ddrRefresh c true) s =
      .next ((s.setDmc c { s.dmc[c] with postponed := s.dmc[c].postponed + 1 }).count (DMC_REF_POSTPONE_CNT c))) ∧
    (s.chanPanic c = true → s.dmc[c].postponed = 3 → exec (.ddrRefresh c true) s =
      .next (((s.setDmc c { s.dmc[c] with postponed := 4 }).count (DMC_REF_POSTPONE_CNT c)).ev (256 + 16 * c.val + 8))) ∧
    (∀ v : BitVec 8, exec (.ddrMr4Read c v) s = .next (s.setDmc c { s.dmc[c] with mr4 := v.toNat })) ∧
    (s.get (DMC_STATUS_state c) = 3 → s.on (DMC_STATUS_frozen c) = false →
      exec (.retrainRoundStart c) s = .next (s.setDmc c { s.dmc[c] with round := true })) ∧
    (∀ (sub : Fin 2) (late : Bool) (due : Nat) (u v : State), s.dmc[c].round = true → due = s.dmc[c].stepDue.getD s.tmb.clk →
      (s.chanPanic c = true → exec (.retrainStep c sub false) s = .next (s.setDmc c { s.dmc[c] with stepDue := some due })) ∧
      (s.chanPanic c = false ∨ late = true → u = (if s.chanPanic c then s.advanceTo (due + 1000000 * tuPerNs) else s) →
        v = ((s.dmc[c].steps.lookup sub.val).elim u fun t => u.advanceTo (t + 10000 * tuPerNs)) → exec (.retrainStep c sub late) s =
        .next (v.setDmc c { s.dmc[c] with
          rows := s.dmc[c].rows.filter fun r => decide (r.bank / 32 % 2 ≠ sub.val)
          stepDue := none, steps := (sub.val, v.tmb.clk) :: s.dmc[c].steps.filter fun x => decide (x.1 ≠ sub.val) }))) ∧
    (∀ (eyes : List (Nat × Nat)) (u : State), s.dmc[c].round = true → s.cal.run ≠ some (72 + c.val) →
      u = (List.range 80).foldl (fun (a : State) l => (a.put (DMC_EYE_width c l) (min (eyes.getD l (0, 0)).1 1023)).put
        (DMC_EYE_height c l) (min (eyes.getD l (0, 0)).2 1023)) ((s.setDmc c { s.dmc[c] with round := false }).count (DMC_RETRAIN_CNT c)) →
      ((∀ l < 80, s.get (DMC_RETRAIN_CFG_min_w c) ≤ (eyes.getD l (0, 0)).1 ∧
          2 * s.get (DMC_RETRAIN_CFG_min_h c) ≤ (eyes.getD l (0, 0)).2) →
        exec (.retrainRoundEnd c eyes) s = .next (u.put (DMC_STATUS_rt_fails c) 0)) ∧
      ((∃ l < 80, (eyes.getD l (0, 0)).1 < s.get (DMC_RETRAIN_CFG_min_w c)) → u.get (DMC_STATUS_rt_fails c) < 2 →
        exec (.retrainRoundEnd c eyes) s = .next ((((u.count (DMC_RETRAIN_FAIL_CNT c)).put (DMC_STATUS_rt_fails c)
          ((u.get (DMC_STATUS_rt_fails c)) + 1)).put (DMC_STATUS_rt_fail_seen c) 1).ev (256 + 16 * c.val + 3)))) ∧
    (s.get (DMC_STATUS_state c) = 2 → s.domainOn (32 + c) = true → s.on (DMC_STATUS_frozen c) = false →
      (s.dmcQueue c).find? (fun t => t.write.isSome && !s.zeroed c t.line) = none → s.dmc[c].initDone = [] →
      ∀ u : State, u = (s.wn (DMC_INIT_LEFT c) (s.rn (DMC_INIT_LEFT c) - 1)).setDmc c { s.dmc[c] with initNext := s.dmc[c].initNext + 1 } →
      exec (.ddrInitGranule c) s = .next (if s.rn (DMC_INIT_LEFT c) ≤ 1 then (u.put (DMC_STATUS_state c) 3).ev (256 + 16 * c.val + 6)
        else u)) ∧
    ∀ (code lane : BitVec 8) (u : State), s.get (DMC_STATUS_state c) = 1 → s.trainLeft = [] →
      (code ≠ 4 → code ≠ 5 → u = s.trainResult c 0 0xFF → exec (.ddrTrainDone c code lane) s =
        .next (((((((u.zeroChan c).wn (DMC_CAPACITY c) (u.cfgUnits c)).put (DMC_STATUS_fenced c) 0).put (DMC_STATUS_rt_fails c) 0).initStart
          c 0 (128 * u.cfgUnits c)).ev (256 + 16 * c.val + 5)).smeDone 6 c).netGo) ∧
      (code = 4 ∨ code = 5 → u = s.trainResult c code.toNat (if code = 4 then lane.toNat else 0xFF) →
        exec (.ddrTrainDone c code lane) s = .next ((((u.put (DMC_STATUS_state c) 4).failTxs fun t => decide (t.pool = c)).ev
          (256 + 16 * c.val + 5)).smeDone 6 c).netGo)

/-- A frozen channel (R374, R375) and retention (R376): the release ends the freeze and fails the causing read; a diagnostic read or write
starts on a line within the capacity and, when it is done, shows the raw words, busy 0 and result 1, and a pattern write has stored its
pattern in the line; a channel that returns from retention is initialised where ranks were not retained, one whose ranks are lost fails.
-/
def Obligations.FrozenAndRetained : Prop :=
  ∀ (s : State) (c : Fin 4),
    (s.csrError (DMC_FREEZE_CTL c) true = false → s.on (DMC_STATUS_frozen c) = true → exec (.freezeRelease c) s =
      .next (((((s.failTxs fun t => decide (t.pool = c) && t.cause).put (DMC_STATUS_frozen c) 0).ev (256 + 16 * c.val + 2)).acqUnfreeze
        c).grantTags.netGo)) ∧
    (∀ (v : Word) (r : Reg) (u : State) (line : Nat), s.csrError (DMC_DIAG_CTL c) true = false → s.waits = [] →
      regAt (DMC_DIAG_CTL c) = some (.dmc, c.val, 0x088, r) → line = lineOf (u.rn64 (DMC_DIAG_ADDR_LO c)) →
      u.on (DMC_DIAG_CTL_busy c) = false → u.on (DMC_STATUS_frozen c) = true → nearBase c ≤ line →
      line < nearBase c + nearUnit * u.get (DMC_CAPACITY_units c) →
      (u = s.plainWrite (DMC_DIAG_CTL c) r (withBit (withBit v 0 true) 1 false) → exec (.diagReadRaw c v) s =
        .next (((u.put (DMC_DIAG_CTL_busy c) 1).put (DMC_DIAG_CTL_result c) 0).setDmc c { u.dmc[c] with
          diag := some (1, line, u.get (DMC_DIAG_CTL_pattern c)) })) ∧
      (u = s.plainWrite (DMC_DIAG_CTL c) r (withBit (withBit v 0 false) 1 true) → exec (.diagWritePattern c v) s =
        .next (((u.put (DMC_DIAG_CTL_busy c) 1).put (DMC_DIAG_CTL_result c) 0).setDmc c { u.dmc[c] with
          diag := some (2, line, u.get (DMC_DIAG_CTL_pattern c)) }))) ∧
    (∀ (err : BitVec 640) (op line p : Nat), s.dmc[c].diag = some (op, line, p) → s.canonical = true →
      ∃ t : State, exec (.diagDone c err) s = .next t ∧ t.dmc[c].diag = none ∧ t.get (DMC_DIAG_CTL_busy c) = 0 ∧
        t.get (DMC_DIAG_CTL_result c) = 1 ∧ (op = 2 → p < 256 → ∀ i < 64, t.byte (lineOf line + i) = BitVec.ofNat 8 p) ∧
        (∀ a, op ≠ 2 ∨ a < lineOf line ∨ lineOf line + 64 ≤ a → t.byte a = s.byte a) ∧
        (op ≠ 2 → ∀ i < 20, t.rn (DMC_DIAG_RAW c i) = bitsOf (BitVec.ofNat 640 (s.rawLine c line) ^^^ err).toNat (32 * i) 32)) ∧
    (s.get (DMC_STATUS_state c) = 5 → s.domainOn (32 + c) = true → ∀ (err : BitVec 640) (line : Nat),
      (exec (.retentionReturn c true err line) s = .next (((((((s.zeroChan c).put (DMC_STATUS_state c) 4).put (DMC_STATUS_retain_lost c)
        1).failTxs fun t => decide (t.pool = c)).ev (256 + 16 * c.val + 7))).holdFaults.syncSources)) ∧
      ∀ (all half : Nat) (u : State), all = 128 * s.get (DMC_CAPACITY_units c) → half = all / s.dmc[c].ranks →
        u = s.initStart c (if bit (s.get (DMC_RETAIN_ranks c)) 0 then half else 0)
          (if s.dmc[c].ranks = 2 ∧ bit (s.get (DMC_RETAIN_ranks c)) 1 then half else all) →
        (uncorrectables (s.lineRead c line 0) = 0 → exec (.retentionReturn c false 0 line) s = .next u.holdFaults.syncSources) ∧
        (err ≠ 0 → uncorrectables (s.lineRead c line err) ≠ 0 → exec (.retentionReturn c false err line) s =
          .next ((u.draw.2.correctAll c line (u.draw.1.toNat % 32) 3 (corrections (s.lineRead c line err))).freeze c line
            (u.draw.1.toNat % 32) 3 (uncorrectables (s.lineRead c line err))
            (decide (corrections (s.lineRead c line err) ≠ []))).holdFaults.syncSources))

/-! ## The far store (chapter 13) -/

/-- The control of the CXL host and the setup of a half (R384 to R386, R391, R392): enable trains the halves in use, a disable fails what
is in flight and turns both halves OFF, a re-enumeration trains the halves that wait or are down; a setup whose steps pass brings the half
UP with its width and capacity; the retry timer, the end of the window, the records an expander announces, and the way out of RECOVERY. -/
def Obligations.CxlHalves : Prop :=
  ∀ (s u : State) (h : Fin 2),
    (∀ (v w : Word) (r : Reg) (busy : Bool), s.csrError CXH_CTL true = false → s.waits = [] →
      regAt CXH_CTL = some (.cxh, 0, 0x000, r) →
      busy = ([0, 1].any fun (h : Nat) => [1, 3, 4].contains (s.get (CXH_LINK_state h))) →
      u = s.plainWrite CXH_CTL r (keepBits s CXH_CTL 0 1
        (if busy then keepBits s CXH_CTL 16 13 (keepBits s CXH_CTL 1 4 w) else w)) →
      (s.on CXH_CTL_en = false → bit v.toNat 5 = false → w = withBit v 0 true →
        (u.domainOn 36 = false → exec (.cxlEnable v) s = .next (u.put CXH_CTL_en 1).grantTags.netGo) ∧
        (u.domainOn 36 = true → exec (.cxlEnable v) s = .next ((u.put CXH_CTL_en 1).halvesInUse.foldl (fun (a : State) (h : Fin 2) =>
          if a.get (CXH_LINK_state h) = 0 then a.halfEnter h 1 else a) (u.put CXH_CTL_en 1)).grantTags.netGo)) ∧
      (s.on CXH_CTL_en = true → bit v.toNat 5 = false → w = withBit v 0 false → exec (.cxlDisable v) s =
        .next (((((u.failHalf 0).halfEnter 0 0).failHalf 1).halfEnter 1 0).put CXH_CTL_en 0).grantTags.netGo.holdFaults.syncSources) ∧
      (s.on CXH_CTL_en = bit v.toNat 0 → w = withBit v 5 true → exec (.cxlReenum v) s =
        .next (([0, 1] : List (Fin 2)).foldl (fun (a : State) (h : Fin 2) =>
          if a.get (CXH_LINK_state h) = 2 ∨ a.get (CXH_LINK_state h) = 5 ∨ a.get (CXH_LINK_state h) = 6
            then (a.halfEnter h 1).setCxh h { a.cxh[h] with windowOver := false } else a) u).grantTags.netGo)) ∧
    (∀ width speed fail ide cap records, s.get (CXH_LINK_state h) = 1 → s.setupStep width speed fail ide ≠ 0 →
      u = (((((s.put (CXH_LINK_fail_step h) (s.setupStep width speed fail ide)).put (CXH_LINK_width h) 0).put (CXH_LINK_speed h) 0).put
        (CXH_LINK_ide h) 0).put (CXH_LINK_degraded h) 0) →
      exec (.cxlSetupResult h width speed fail ide cap records) s =
        .next (if s.cxh[h].windowOver then (u.halfEnter h 6).ev 321 else u.halfEnter h 2)) ∧
    (∀ (width speed fail : Nat) (ide : Bool) (cap records mapped : Nat) (low : Bool), s.get (CXH_LINK_state h) = 1 →
      s.setupStep width speed fail ide = 0 →
      mapped = (if s.on CXH_CTL_bifurcate = false then min cap 4096 else if s.on CXH_CTL_interleave then min cap 2048
        else if h = 0 then min cap s.farBase1 else min cap (4096 - s.farBase1)) →
      low = ((decide (speed < 2) && !s.on CXH_CTL_max_speed) || (!s.on CXH_CTL_bifurcate && decide (width < 16))) →
      u = ((((s.put (CXH_LINK_fail_step h) 0).put (CXH_LINK_width h) (if width < 16 ∨ s.on CXH_CTL_bifurcate then 8 else 16)).put
        (CXH_LINK_speed h) (if s.on CXH_CTL_max_speed then 1 else speed)).put (CXH_LINK_ide h) (if ide then 1 else 0)).put
        (CXH_LINK_degraded h) (if low then 1 else 0) →
      exec (.cxlSetupResult h width speed fail ide cap records) s =
        .next (((((u.put (CXH_CAP_gib h) mapped).cxlRecords records).halfEnter h 3).ev 320).evIf low 327)) ∧
    (s.get (CXH_LINK_state h) = 2 → exec (.cxlRetryTimer h) s = .next (s.halfEnter h 1) ∧
      exec (.cxlWindowEnd h) s = .next (((s.setCxh h { s.cxh[h] with windowOver := true }).halfEnter h 6).ev 321)) ∧
    (s.get (CXH_LINK_state h) ≠ 2 → exec (.cxlWindowEnd h) s = .next (s.setCxh h { s.cxh[h] with windowOver := true })) ∧
    (s.get (CXH_LINK_state h) = 3 → exec (.cxlMsix h 0) s = .next s ∧
      ∀ n, exec (.cxlMsix h (n + 1)) s = .next (((s.count CXH_EXP_EVT_CNT).ev 329).cxlRecords n)) ∧
    (s.get (CXH_LINK_state h) = 4 → exec (.cxlRecoveryExit h) s = .next ((s.halfEnter h 3).ev 323))

/-- Transactions of the far store (R388 to R392): read data answers its read, unless an earlier request to the line is open, poisoned data
fails it, counted and recorded, late data is discarded; a completion stores the enabled bytes of its write and no other byte; a read that
waited too long fails and its tag stays out; a half that loses its link fails what is open on it, and the ports that waited there abort
when it goes to RECOVERY. -/
def Obligations.FarTransactions : Prop :=
  ∀ s : State,
    (∀ (n k : Nat) (t : FabTx) (u : State), (s.cxlFlight false)[n]? = some t → u = (if k = 0 then s else s.count CXH_REPLAY_CNT k) →
      (t.stale = false → s.behindLine t = false → exec (.cxlMemdata n false k) s =
        .next (u.updateTx t fun y => { y with answer := some (s.lineData t.line, true) }).grantTags.netGo) ∧
      (t.stale = false → s.behindLine t = false → exec (.cxlMemdata n true k) s = .next ((((u.updateTx t fun y =>
        { y with answer := some (0, false) }).count CXH_POISON_CNT).cxlErr 1 t).ev 325).grantTags.netGo) ∧
      (t.stale = false → s.behindLine t = true → ∀ p, exec (.cxlMemdata n p k) s = .next u.grantTags.netGo) ∧
      (t.stale = true → ∀ p, exec (.cxlMemdata n p k) s = .next (State.grantTags { u with fab := u.fab.erase t }).netGo)) ∧
    (∀ (n : Nat) (t : FabTx), (s.cxlFlight true)[n]? = some t → s.behindLine t = false → s.canonical = true →
      ∀ u : State, u = s.doWrite t →
      exec (.cxlCmp n) s = .next (u.updateTx t fun y => { y with answer := some (0, true) }).netGo ∧
      (∀ i < 64, u.byte (lineOf t.line + i) = if t.enables.getLsbD i then (t.write.getD 0).extractLsb' (8 * i) 8
        else s.byte (lineOf t.line + i)) ∧
      (∀ a, a < lineOf t.line ∨ lineOf t.line + 64 ≤ a → u.byte a = s.byte a) ∧ u.csr = s.csr) ∧
    (∀ (n : Nat) (t : FabTx) (h : Fin 2) (u : State) (l : List Nat), (s.cxlFlight false)[n]? = some t → t.stale = false →
      h.val = s.txHalf t → u = ((((((s.advanceTo (t.at_ + max 1 (s.get CXH_TMO_us) * 8192000000)).updateTx t fun y =>
        { y with answer := some (0, false), lost := true, noTag := true }).count CXH_TMO_CNT).cxlErr 2 t).ev 326).putTx
          { t with stale := true, dest := .other }) →
      l = u.tmb.clk :: (u.cxh[h].timeouts.filter fun x => decide (u.tmb.clk < x + 8192000000000)) →
      (l.length < 16 → exec (.cxlReadTimeout n) s = .next (u.setCxh h { u.cxh[h] with timeouts := l }).netGo.holdFaults.syncSources) ∧
      (16 ≤ l.length → exec (.cxlReadTimeout n) s =
        .next ((u.setCxh h { u.cxh[h] with timeouts := [] }).cxlRecoveryEnter h).netGo.holdFaults.syncSources)) ∧
    ∀ h : Fin 2,
      (s.get (CXH_LINK_state h) = 3 → exec (.cxlRecoveryEnter h) s =
          .next (((((s.failHalf h).halfEnter h 4).count CXH_RECOVERY_CNT).ev 322).farLinkAborts (s.fab.filter fun t =>
            s.onHalf h t && t.answer.isNone && !t.stale)).grantTags.netGo.holdFaults.syncSources ∧
        exec (.cxlIdeFail h) s = .next (((s.count CXH_IDE_FAIL_CNT).ev 328).cxlRecoveryEnter h).grantTags.netGo.holdFaults.syncSources) ∧
      (s.get (CXH_LINK_state h) = 3 ∨ s.get (CXH_LINK_state h) = 4 →
        exec (.cxlLinkDown h) s = .next (((s.failHalf h).halfEnter h 5).ev 324).grantTags.netGo.holdFaults.syncSources)

/-! ## Amiuc and Ethernet (chapter 14) -/

/-- The short commands of Table 14.8 (R412, R413, R498), well formed and permitted: PROBE replies the state, CSR_READ and CSR_WRITE access
the registers in order up to the first address error or up to one whose clocks are gated, where the rest waits (R215), GET_CERT replies a
part of the chain, and WARM_RESET replies and waits for the acknowledgement. An unknown opcode gets status 4. -/
def Obligations.ShortRequests : Prop :=
  ∀ (s : State) (k : Fin 8) (raw rx : Rx) (l : List Byte) (tag : Nat), l = rx.payload.drop 8 → tag = argBe rx.payload 4 4 →
    (s.requestOk k raw rx 1 = true → l = [] →
      exec (.probe raw) s = .next (s.served k 0 rx fun a => a.reply k 1 0 tag rx.seq 0 a.probeResults)) ∧
    (∀ items, s.requestOk k raw rx 2 = true → l.length = 12 → 1 ≤ argBe l 8 4 → argBe l 8 4 ≤ 256 →
      items = ((List.range (argBe l 8 4)).map fun i => (argBe l 0 8 + 4 * i, 0)) →
      exec (.csrRead raw) s = .next (s.served k 0 rx fun a => match State.csrSteps k false items a 0 [] with
        | (v, [], _, b) => b.reply k 2 0 tag rx.seq 0 v
        | (v, y :: r, i, b) => if b.csrError y.1 false then b.reply k 2 6 tag rx.seq i v
          else { b with csrWait := some {
            sess := k, tag := tag, seq := rx.seq, write := false, items := y :: r, index := i, acc := v } })) ∧
    (∀ items, s.requestOk k raw rx 3 = true → 8 ≤ l.length → argBe l 4 4 = 0 → 1 ≤ argBe l 0 4 → argBe l 0 4 ≤ 256 →
      csrItems (argBe l 0 4) (l.drop 8) = some items →
      exec (.csrWrite raw) s = .next (s.served k 0 rx fun a => match State.csrSteps k true items a 0 [] with
        | (_, [], _, b) => b.heldWrites.reply k 3 0 tag rx.seq 0 []
        | (v, y :: r, i, b) => if b.csrError y.1 true then b.heldWrites.reply k 3 6 tag rx.seq i []
          else { b.heldWrites with csrWait := some {
            sess := k, tag := tag, seq := rx.seq, write := true, items := y :: r, index := i, acc := v } })) ∧
    (s.requestOk k raw rx 4 = true → l.length = 8 → argBe l 4 4 ≤ 8172 →
      exec (.getCert raw) s = .next (s.served k 0 rx fun a => a.reply k 4 0 tag rx.seq 0 (beBytes Config.certChain.length 4 ++
        ((Config.certChain.drop (argBe l 0 4)).take (argBe l 4 4))))) ∧
    (s.requestOk k raw rx 5 = true → l = [] →
      exec (.warmReset raw) s = .next (s.served k 0 rx fun a => (a.setSess k { a.net.sess[k] with
        warm := some (((a.chan k 0).tx + (a.chan k 0).queue.length) % 2 ^ 32) }).reply k 5 0 tag rx.seq 0 [])) ∧
    ∀ o, s.requestOk k raw rx o = true → opcodeKnown o = false →
      exec (.unknownOpcode raw) s = .next (s.served k 0 rx fun a => a.reply k o 4 tag rx.seq 0 [])

/-- The long operations of Table 14.9 (R414), well formed and permitted: each occupies the management channel and starts its work, which
the last clauses spell out for ENROL and FW_UPDATE; the end of one replies once with its result and raises source 361. -/
def Obligations.LongOperations : Prop :=
  (∀ (s : State) (k : Fin 8) (raw rx : Rx) (l : List Byte) (tag addr len : Nat), l = rx.payload.drop 8 → tag = argBe rx.payload 4 4 →
    addr = argBe l 0 8 → len = argBe l 8 4 →
    (s.requestOk k raw rx 0x10 = true → l.length = 12 → inSram addr len = true → exec (.structLoad raw) s =
      .next (s.served k 0 rx fun a =>
        let b := a.longBegin k 0x10 tag rx.seq 2500
        (({ b with load := some { stage := 1, before := b.get STC_STATUS_state, addr := addr, length := len } } : State).put
          STC_STATUS_state 2).smeRequest 5 0)) ∧
    (s.requestOk k raw rx 0x11 = true → l.length = 4 → argBe l 0 4 ≤ 15 → exec (.ddrFullTrain raw) s =
      .next (s.served k 0 rx fun a => (State.trainNext 5 { a.longBegin k 0x11 tag rx.seq
        (800 * ((List.range 4).countP fun c => bit (argBe l 0 4) c)) with
          trainLeft := (List.range 4).filter fun c => bit (argBe l 0 4) c
          trainCodes := [] }).trainGoes)) ∧
    (s.requestOk k raw rx 0x12 = true → l = [] → exec (.calFull raw) s =
      .next (s.served k 0 rx fun a =>
        let b := ((a.longBegin k 0x12 tag rx.seq 4000).calRun 0x7F).put CAL_STATUS_full_busy 1
        if b.cal.run.isSome then b.setCal { b.cal with full := some (0, 0) } else State.fullFrom 77 b 0 0)) ∧
    (s.requestOk k raw rx 0x13 = true → l.length = 12 → inSram addr len = true → exec (.fwUpdate raw) s =
      .next (s.served k 0 rx fun a => (a.longBegin k 0x13 tag rx.seq 60000).fwUpdate addr len rx.flashOk)) ∧
    (s.requestOk k raw rx 0x14 = true → l = [] → exec (.scrubFull raw) s =
      .next (s.served k 0 rx fun a =>
        let b := a.longBegin k 0x14 tag rx.seq a.scrubBound
        (b.setCal { b.cal with
          scrub := Vector.replicate 5 0
          scrubFull := some (((List.finRange 5).map fun (k : Fin 5) => if b.scrubServed k then 2 ^ k.val else 0).sum, 0) }).smeRequest
            10 0)) ∧
    (s.requestOk k raw rx 0x15 = true → l.length = 12 → inSram addr len = true → exec (.enrol raw) s =
      .next (s.served k 0 rx fun a => (a.longBegin k 0x15 tag rx.seq 5000).enrol addr len)) ∧
    (s.requestOk k raw rx 0x16 = true → l = [] → exec (.zeroize raw) s =
      .next (s.served k 0 rx fun a => (((((a.longBegin k 0x16 tag rx.seq 1000).stopSecrets.zeroKeyStore).showLifecycle).put
        SEC_LAST_RESULT_code 0).put SEC_LAST_RESULT_opcode 0x16).longOutcome 0x16 0 []))) ∧
  (∀ (s u : State) (o : LongOp) (result : Nat) (data : List Byte), s.long = some o → o.outcome = some (result, data) →
    u = (({ s with long := none }.put NET_STATUS_long_op 0).wn NET_LONG_RESULT result).ev 361 →
    (∀ k : Fin 8, o.sess = k.val → exec .longOpEnd s =
      .next (u.reply k o.opcode (if result = 0 then 0 else 18) o.tag o.seq result data)) ∧
    (8 ≤ o.sess → exec .longOpEnd s = .next u)) ∧
  (∀ (s u : State) (addr len code : Nat) (l ork : List Byte), code = s.enrolCode addr len → l = s.bytes addr 368 →
    u = (s.put SEC_LAST_RESULT_code code).put SEC_LAST_RESULT_opcode 0x15 →
    (code = 12 → s.enrol addr len = (u.authFail.longOutcome 0x15 12 []).ev 395) ∧
    (code ≠ 0 → code ≠ 12 → s.enrol addr len = (u.longOutcome 0x15 code []).ev 395) ∧
    (code = 0 → s.enrolOrk l = some ork → s.enrol addr len = ((((u.authOk.put SEC_STATUS_epoch (s.get SEC_STATUS_epoch + 1)).setSec
      { u.sec with
        owner := true
        ork := BitVec.ofNat 256 (ofBe ork)
        oak := (l.drop 32).take 96
        polFlags := bytesBits l 16 0 4
        polTamper := bytesBits l 18 0 14
        credFloor := s.le (addr + 24) 4 }).showLifecycle.showPolicy.ev 395).longOutcome 0x15 0 []))) ∧
  ∀ (s u : State) (addr len : Nat) (images : List (Nat × Nat × List Byte)), s.fwImages addr len 3 = some images →
    (images.map (·.1)).Perm [1, 2, 3] → (∀ x ∈ images, s.imageSign x.2.2 = 0) → (∀ x ∈ images, s.rollbackOf x.1 ≤ x.2.1) →
    (u = (((s.put SEC_LAST_RESULT_code 0).put SEC_LAST_RESULT_opcode 0x13).authOk) →
      s.fwUpdate addr len true = (State.ev { u with
        boot := { u.boot with flash := u.boot.flash ++ [(1 - s.get GLB_STATE_slot, s.bytes addr len)] } } 405).longOutcome 0x13 0 []) ∧
    (u = (((s.put SEC_LAST_RESULT_code 16).put SEC_LAST_RESULT_opcode 0x13).authOk) →
      s.fwUpdate addr len false = u.longOutcome 0x13 16 [])

/-- The bulk channels (R415, R416): a WRITE to open memory corrects what its merges read, stores its data and, where it asks, answers
WRITE_DONE; a READ answers with the bytes that memory holds; one whose memory fails answers its status, one that has to wait stays queued,
and one that meets a new uncorrectable line freezes that channel. -/
def Obligations.BulkTransfers : Prop :=
  ∀ (s : State) (k : Fin 8) (c : Fin 7) (raw rx : Rx) (len addr tag op req : Nat) (errs : List (Nat × Nat)), 1 ≤ c.val → c.val ≤ 4 →
    s.dataOk k c raw rx = true → 16 ≤ rx.payload.length → op = argBe rx.payload 0 1 → len = argBe rx.payload 4 4 →
    addr = argBe rx.payload 8 8 → tag = argBe rx.payload 2 2 → req = 27 + (s.taken k rx).get (NET_SESS_STATUS_port k) →
    addr % 4 = 0 → len % 4 = 0 → (s.taken k rx).holdsPerm k 0 = true → (s.taken k rx).net.sess[k].limited = false →
    (op = 1 ∧ rx.payload.length = 16 + len ∧ errs = mergedLines (requestItem rx) addr len ∨
      op = 2 ∧ rx.payload.length = 16 ∧ 0 < len ∧ len ≤ 0x1000000 ∧ errs = (requestItem rx).badIn addr len) →
    (∀ st, (s.taken k rx).memStatus addr len = some st → exec (if op = 1 then .bulkWrite raw else .bulkRead raw) s =
      .next (s.served k c rx fun a => a.enqueue k c (bulkFrame (5 - op) st tag 0 addr []))) ∧
    ((s.taken k rx).memStatus addr len = none →
      ((s.taken k rx).memWaits addr len = true ∨ (s.taken k rx).mayMove req addr len = false ∨
          (s.taken k rx).mayMove req (addr + len - 1) 1 = false →
        exec (if op = 1 then .bulkWrite raw else .bulkRead raw) s = .next (s.served k c rx fun a =>
          a.setChan k c { a.chan k c with todo := [requestItem rx] })) ∧
      ((s.taken k rx).memWaits addr len = false → (s.taken k rx).mayMove req addr len = true →
        (s.taken k rx).mayMove req (addr + len - 1) 1 = true →
        (∀ (y : Nat × Nat) (ch : Fin 4) (r : List CwRead), (s.taken k rx).unmet (requestItem rx) errs = some y →
          (s.taken k rx).badLine y = some (ch, r) →
          exec (if op = 1 then .bulkWrite raw else .bulkRead raw) s = .next (s.served k c rx fun a =>
            (((a.setChan k c { a.chan k c with todo := [{ requestItem rx with met := [y.1 / 64] }] }).correctAll ch y.1 req (2 - op)
              (corrections r)).freeze ch (lineOf y.1) req (2 - op) (uncorrectables r) (decide (corrections r ≠ []))))) ∧
        ((s.taken k rx).unmet (requestItem rx) errs = none →
          (op = 1 → exec (.bulkWrite raw) s = .next (s.served k c rx fun a =>
            let b := ((a.correctLines req 1 errs).mergedWrite errs addr (rx.payload.drop 16)).unpattern addr len
            if bit (argBe rx.payload 1 1) 0 = true then b.enqueue k c (bulkFrame 4 0 tag 0 addr []) else b)) ∧
          (op = 2 → exec (.bulkRead raw) s = .next (s.served k c rx fun a =>
            (a.readFrames (requestItem rx) tag (len / 4032 + 2) addr len).foldl (fun (b : State) f => b.enqueue k c f)
              ((a.correctLines req 0 errs).poisoned req errs)))))) ∧
    ((∀ (data : List Byte) (a : State), a.mergedWrite [] addr data = a.setBytes addr data))

/-- Opening and closing a session (R402, R403, R406, R408, R410): a HELLO that nothing refuses is answered with WELCOME, a CONFIRM with
the right hash opens the session with its peer, permissions and channels; KEEPALIVE only counts as a valid frame, ACK brings its
acknowledgement fields, CLOSE ends the session with status 17. The timers of a session and what the device sends of its own (R406, R408,
R409, R411, R417, R418). -/
def Obligations.SessionLife : Prop :=
  ((∀ (s a b u : State) (rx : Rx) (p : Fin 2) (k : Fin 8), p = Fin.ofNat 2 rx.port → s.linkUp p = true → a = s.rxCount p →
     (b, true) = a.police p rx.mac → b.boot.stage = 4 → b.ipTakes p rx = true → rxLengthOk rx = true → rx.magic = 0x414D →
     b.lifecycle ≠ 3 → b.sealedFor rx.payload = false → rx.version = 1 → helloForm rx.payload = true →
     (b.lifecycle = 2 → bit (argBe rx.payload 0 1) 0 = true) → b.credOk rx = true →
     u = (if argBe rx.payload 2 2 = 0 then b else b.authOk) → u.helloSlot rx.payload = some k → u.slotRefusal k rx.payload = none →
     exec (.hello rx) s = .next (u.welcome rx k).holdFaults.syncSources ∧
     ∃ (o : Offer) (v : State), u.welcome rx k = v.transmit p (.amiuc o.peer (amiucHeader 0x02 0 k 0xFF 0 0 0 0 304 o.sid 0) o.welcome) ∧
       v = (State.setSess { u with fresh := u.fresh + 3 } k { u.net.sess[k] with offer := some o }).sessEnter k 1 ∧
       o.sid = (Config.freeValue u.fresh).toNat % 2 ^ 32 ∧ o.hello = rx.payload ∧ o.before = u.sessState k ∧ o.at_ = u.tmb.clk ∧
       o.enc = bit (argBe rx.payload 0 1) 0 ∧ o.resume = bit (argBe rx.payload 0 1) 1 ∧ o.limited = u.on SEC_STATUS_sealed ∧
       o.perms = (if argBe rx.payload 2 2 = 0 then 7 else argBe rx.payload 140 4) ∧
       o.peer = { port := p.val, mac := rx.mac, v6 := rx.v6, ip := rx.ip, uport := rx.uport }) ∧
   (∀ (s a b u v : State) (raw rx : Rx) (p : Fin 2) (k : Fin 8) (o : Offer), p = Fin.ofNat 2 rx.port → s.linkUp p = true →
     a = s.rxCount p → (b, true) = a.police p rx.mac → a.ofOpen raw = false → b.boot.stage = 4 → b.ipTakes p raw = true →
     rxLengthOk raw = true → rx.magic = 0x414D → rx.version = 1 → rx.session = k.val → b.fromPeer k rx = true →
     b.encMode k = bit rx.flags 0 → (b.encMode k = true → b.on CAL_STATUS_crypto_hold = false) → b.plain k 0x03 raw = some rx →
     u = (if b.encMode k then b.authOk else b) → u.net.sess[k].offer = some o → txcFresh o.seen rx.txc = true → rx.channel = 0xFF →
     rx.payload.length = 64 → argBe rx.payload 62 2 = 0 → rx.payload.take 48 = shaBytes (o.hello ++ o.welcome) →
     v = (u.setSess k { u.net.sess[k] with offer := some { o with seen := txcTake o.seen rx.txc } }).authOk →
     exec (.confirm raw) s = .next (((((((((((if o.resume then v else ((v.longOrphan k).openOrphan k).csrOrphan k).setSess k
       { keys := o.keys
         peer := { o.peer with mac := rx.mac, uport := rx.uport }
         perms := o.perms
         limited := o.limited
         rxSeen := rx.txc :: txcTake o.seen rx.txc
         lastRx := u.tmb.clk
         lastTx := u.tmb.clk
         chans := Vector.ofFn fun c => { (if o.resume then u.net.sess[k].chans[c] else {}) with
           credit := argBe rx.payload (48 + 2 * c.val) 2
           creditTxc := rx.txc
           rto := 1 }
         evts := if o.resume then u.net.sess[k].evts else []
         lastEvt := if o.resume then u.net.sess[k].lastEvt else none
         ham := if o.resume then u.net.sess[k].ham else none }).wn (NET_SESS_SID k) o.sid).wn (NET_SESS_TXC k) 0).put
           (NET_SESS_STATUS_enc k) (if o.enc then 1 else 0)).put (NET_SESS_STATUS_port k) o.peer.port).put
           (NET_SESS_STATUS_resumed k) (if o.resume then 1 else 0)).sessEnter k 2).send k 0x11 0xFF 0 []).ev 356).pumpAll
             k).holdFaults.syncSources) ∧
   ∀ (s : State) (k : Fin 8) (raw rx : Rx),
     (s.frameOk k 0x12 raw rx = true → exec (.keepalive raw) s = .next (s.taken k rx).holdFaults.syncSources) ∧
     (∀ c : Fin 7, s.frameOk k 0x11 raw rx = true → rx.channel = c.val → bit rx.flags 1 = true →
       exec (.ack raw) s = .next ((s.taken k rx).ackFields k c rx).holdFaults.syncSources) ∧
     (s.frameOk k 0x13 raw rx = true → exec (.close raw) s = .next ((s.taken k rx).sessEnd k 0 17).holdFaults.syncSources)) ∧
  ∀ (s : State) (k : Fin 8),
    (∀ (o : Offer) (u : State), s.net.sess[k].offer = some o → u = s.advanceTo (o.at_ + 100 * tuPerMs) →
      exec (.pendingTimeout k) s = .next ((u.setSess k { u.net.sess[k] with offer := none }).sessEnter k o.before)) ∧
    (s.sessOpen k = true →
      exec (.keepaliveTimer k) s = .next ((s.advanceTo (s.net.sess[k].lastTx + 100 * tuPerMs)).send k 0x12 0xFF 0 []) ∧
      exec (.sessionTimeout k) s = .next ((s.advanceTo (s.net.sess[k].lastRx + 300 * tuPerMs)).sessEnd k 3 15)) ∧
    (s.sessState k = 3 → exec (.resumeTimeout k) s = .next ((s.advanceTo (s.net.sess[k].endAt +
      s.get NET_RESUME_TMO_ms * tuPerMs)).sessFree k)) ∧
    (∀ c : Fin 7, s.sessOpen k = true → (s.chan k c).ackDue ≠ 0 → exec (.ackTimer k c) s = .next (s.send k 0x11 c 0 [])) ∧
    (∀ (c : Fin 7) (x : TxFrame) (l : List TxFrame) (u : State), s.sessOpen k = true → (s.chan k c).unacked = x :: l →
      x.sacked = false → u = s.advanceTo (x.sentAt + (s.chan k c).rto * max 1 (s.get NET_RTO_us) * tuPerUs) →
      exec (.retransmitTimer k c) s = .next ((u.setChan k c { s.chan k c with rto := min 64 (2 * (s.chan k c).rto) }).resend k c x)) ∧
    (∀ (i off : Nat) (t : Task) (body : List Byte), s.nextHamper k = some (i, off) → s.task i = some t →
      body = beBytes (t.hseq.getD 0) 4 ++ beBytes off 4 ++ ((t.hamper i).drop off).take 8184 → s.maySend k 5 body = true →
      exec (.hamperFrameSend k) s = .next ((s.setSess k { s.net.sess[k] with
        ham := if (t.hamper i).length ≤ off + 8184 then none else some (i, off + 8184) }).sendData k 5 body
          (if (t.hamper i).length ≤ off + 8184 then some i else none))) ∧
    (∀ (body : List Byte) (u : State), s.net.sess[k].evts ≠ [] →
      body = beBytes (s.net.sess[k].evts.take 511).length 2 ++ List.replicate 6 0 ++ (s.net.sess[k].evts.take 511).flatMap evtRecord →
      s.maySend k 6 body = true →
      u = (match s.net.sess[k].lastEvt with | some t => s.advanceTo (t + s.get NET_EVT_MIN_us * tuPerUs) | none => s) →
      exec (.eventFrameSend k) s = .next ((u.setSess k { u.net.sess[k] with
        evts := s.net.sess[k].evts.drop 511, lastEvt := some u.tmb.clk }).sendData k 6 body none))

/-- The Ethernet ports (R394 to R396, R421): requests for an own address are answered, the lease comes, is renewed and is lost, an address
becomes valid or conflicts, links come and go, PAUSE is counted, and the staged configuration is applied. -/
def Obligations.EthernetPorts : Prop :=
  ∀ (s : State) (p : Fin 2),
    (s.linkUp p = true → ∀ (u : State) (target mac ip : Nat), (u, true) = (s.rxCount p).police p mac →
      (u.on (NET_PORT_STATUS_v4_valid p) = true → target = u.ip4Of p →
        exec (.arpRequest p target mac ip) s = .next (u.transmit p (.arpReply p mac ip))) ∧
      (u.ownIp6 p target = true → exec (.neighbourSolicitation p target mac ip) s = .next (u.transmit p (.advert p mac ip))) ∧
      ∀ (v6 : Bool) (l : List Byte), u.boot.stage = 4 → u.ownIp p v6 target = true → exec (.icmpEcho p v6 target mac ip l) s =
        .next (u.transmit p (.echo { port := p, mac := mac, v6 := v6, ip := ip, uport := 0 } l))) ∧
    (s.dhcpOn p = true →
      (∀ ip, s.net.port[p].lease = some ip → exec (.dhcpRenew p) s =
        .next ((s.advanceTo (s.net.port[p].leaseAt + s.net.port[p].leaseSecs * 500000000 * tuPerNs)).transmit p (.dhcpRenew p ip))) ∧
      ∀ (ip secs : Word) (u : State), u = s.setNetPort p { s.net.port[p] with
          lease := some ip.toNat
          leaseAt := s.tmb.clk
          leaseSecs := secs.toNat } →
        exec (.dhcpLeaseObtained p ip secs) s = .next ((u.transmit p (.gratuitousArp p (u.ip4Of p))).showAddr p true)) ∧
    (∀ ip, s.net.port[p].lease = some ip → exec (.dhcpLeaseLost p) s =
      .next (((s.setNetPort p { s.net.port[p] with lease := none }).showAddr p false).portSessions p 15)) ∧
    (s.linkUp p = true → bit s.net.port[p].cfg 3 = true →
      exec (.duplicateAddressDetection p false true) s = .next (s.put (NET_PORT_STATUS_conflict p) 1) ∧
      exec (.duplicateAddressDetection p false false) s = .next ((s.setNetPort p { s.net.port[p] with llOk := true }).showAddr p
        (s.on (NET_PORT_STATUS_v4_valid p))) ∧
      (s.net.port[p].ip6 ≠ 0 → exec (.duplicateAddressDetection p true false) s =
        .next ((s.setNetPort p { s.net.port[p] with glOk := true }).showAddr p (s.on (NET_PORT_STATUS_v4_valid p))))) ∧
    (s.linkUp p = true → exec (.pauseFrame p) s = .next (s.count (NET_PAUSE_RX p)) ∧ exec (.ethLinkDown p) s = .next (s.linkOff p)) ∧
    (s.ethOn p = true → s.linkUp p = false → ∀ u : State, u = (s.put (NET_PORT_STATUS_link p) 1).put (NET_PORT_STATUS_fec_lock p) 1 →
      exec (.ethLinkUp p) s = .next (((if p = 0 then u.put NET_STATUS_a_link 1 else u.put NET_STATUS_b_link 1).startAddr p).ev
        (352 + 2 * p.val))) ∧
    ∀ (v : Word) (a b : State), s.csrError NET_CTL true = false →
      a = (s.put NET_CTL_a_en (bitsOf v.toNat 0 1)).put NET_CTL_b_en (bitsOf v.toNat 1 1) →
      b = (if bit v.toNat 0 then a else a.ethLinkDown 0) →
      exec (.netApply v) s = .next ((List.finRange 2).foldl (fun (u : State) (q : Fin 2) =>
        if u.net.port[q].cfg = u.rn (NET_PORT_CFG q) ∧ u.net.port[q].ip4 = u.rn (NET_IP4_ADDR q) ∧ u.net.port[q].ip6 = u.stagedIp6 q
        then u
        else ((u.setNetPort q { u.net.port[q] with
          cfg := u.rn (NET_PORT_CFG q)
          ip4 := u.rn (NET_IP4_ADDR q)
          ip6 := u.stagedIp6 q }).portSessions q 19).startAddr q) (if bit v.toNat 1 then b else b.ethLinkDown 1))

/-! ## Trust and tamper (chapter 15) -/

/-- The security commands of Table 15.13 (R429, R435 to R437, R439, R445, R446, R449, R453), well formed: each runs where its checks give
code 0 and replies the first check that fails otherwise. -/
def Obligations.SecurityCommands : Prop :=
  ∀ (s : State) (k : Fin 8) (raw rx : Rx) (l : List Byte) (tag : Nat), l = rx.payload.drop 8 → tag = argBe rx.payload 4 4 →
    (s.requestOk k raw rx 0x30 = true → l = [] → exec (.getOwner raw) s = .next (s.served k 0 rx fun a => a.secReply k 0x30 tag rx.seq 0
      ([BitVec.ofNat 8 a.lifecycle, 0] ++ beBytes (a.get SEC_STATUS_epoch) 2 ++ beBytes a.sec.credFloor 4 ++
        policyBytes a.sec.polFlags a.sec.polTamper ++ (List.range 96).map fun i => a.sec.oak.getD i 0))) ∧
    (s.requestOk k raw rx 0x31 = true → l = [] → exec (.getChallenge raw) s = .next (s.served k 0 rx fun a =>
      (State.setSess { a with fresh := a.fresh + 1 } k { a.net.sess[k] with
        chal := some ((Config.freeValue a.fresh).toNat % 2 ^ 256, a.tmb.clk) }).secReply k 0x31 tag rx.seq 0
          (beBytes ((Config.freeValue a.fresh).toNat % 2 ^ 256) 32))) ∧
    (s.requestOk k raw rx 0x32 = true → exec (.loadKey raw) s = .next (s.served k 0 rx fun a => (if a.loadKeyCode k l = 0
      then a.setKey (argBe l 0 1) (some (a.sec.patternKey (argBe l 4 4))) else a.ev 404).secReply k 0x32 tag rx.seq
        (a.loadKeyCode k l) [])) ∧
    (s.requestOk k raw rx 0x33 = true → exec (.clearKey raw) s = .next (s.served k 0 rx fun a => (if a.clearKeyCode k l = 0
      then a.setKey (argBe l 0 1) none else a).secReply k 0x33 tag rx.seq (a.clearKeyCode k l) [])) ∧
    (s.requestOk k raw rx 0x34 = true → exec (.rucksackOpen raw) s = .next (s.served k 0 rx fun a => if a.rucksackCode k l = 0
      then a.setSec { a.sec with
        opening := some {
          port := argBe l 12 1, base := argBe l 13 2, size := argBe l 15 2, addr := argBe l 0 8, id := a.le (argBe l 0 8 + 8) 4,
          limit := a.le (argBe l 0 8 + 16) 4, ptLen := a.le (argBe l 0 8 + 20) 4, sess := k, seq := rx.seq, tag := tag } }
      else a.secReply k 0x34 tag rx.seq (a.rucksackCode k l) [])) ∧
    (s.requestOk k raw rx 0x35 = true → l.length = 4 → argBe l 0 1 ≤ 7 → argBe l 1 3 = 0 → (s.taken k rx).holdsPerm k 1 = true →
      exec (.rucksackClose raw) s = .next (s.served k 0 rx fun a => (a.closeRegion (argBe l 0 1) false).secReply k 0x35 tag rx.seq 0 [])) ∧
    (s.requestOk k raw rx 0x36 = true → l = [] → (s.taken k rx).holdsPerm k 1 = true → exec (.getReceipt raw) s =
      .next (s.served k 0 rx fun a => match a.receipts with
        | [] => a.secReply k 0x36 tag rx.seq 0 (beBytes 0 4)
        | r :: q => (({ a with receipts := q }).put SEC_RCPT_queued q.length).secReply k 0x36 tag rx.seq 0 (beBytes 1 4 ++ r))) ∧
    (s.requestOk k raw rx 0x37 = true → l.length = 4 → argBe l 1 3 = 0 → argBe l 0 1 < 32 → exec (.tamperLog raw) s =
      .next (s.served k 0 rx fun a =>
        let x := a.sec.tlog.getD (argBe l 0 1) { sensor := 0, cls := 0, flags := 0, aon := 0, ts := 0 }
        a.secReply k 0x37 tag rx.seq 0 ([BitVec.ofNat 8 x.sensor, BitVec.ofNat 8 x.cls, BitVec.ofNat 8 x.flags, 0] ++
          beBytes x.aon 4 ++ beBytes x.ts 8))) ∧
    (s.requestOk k raw rx 0x38 = true → exec (.setPolicy raw) s = .next (s.served k 0 rx fun a =>
      let code := firstCode ([(decide (a.lifecycle ≠ 2), 1), (!a.holdsPerm k 2, 2), (a.on SEC_STATUS_sealed, 3),
        (decide (l.length ≠ 112) || !policyRsvOk (l.take 8) || !zeros l 12 4, 7)] ++ a.signChecks k 0x38 l)
      let b := a.signJudged k code
      (if code = 0 then (b.setSec { b.sec with
          polFlags := bytesBits l 0 0 4
          polTamper := bytesBits l 2 0 14
          credFloor := max b.sec.credFloor (argBe l 8 4) }).showPolicy else b).secReply k 0x38 tag rx.seq code [])) ∧
    (s.requestOk k raw rx 0x39 = true → exec (.unsealDevice raw) s = .next (s.served k 0 rx fun a =>
      let code := firstCode ([(!a.holdsPerm k 2, 2), (decide (l.length ≠ if a.lifecycle = 2 then 96 else 0), 7)] ++
        if a.lifecycle = 2 then a.signChecks k 0x39 l else [])
      let b := if a.lifecycle = 2 then a.signJudged k code else a
      (if code = 0 ∧ b.on SEC_STATUS_sealed = true then (b.put SEC_STATUS_sealed 0).ev 392 else b).secReply k 0x39 tag rx.seq code
        [])) ∧
    (s.requestOk k raw rx 0x3A = true → exec (.release raw) s = .next (s.served k 0 rx fun a =>
      let code := firstCode ([(decide (a.lifecycle ≠ 2), 1), (!a.holdsPerm k 2, 2), (a.on SEC_STATUS_sealed, 3),
        (decide (l.length ≠ 96), 7)] ++ a.signChecks k 0x3A l)
      let b := a.signJudged k code
      (if code = 0 then b.zeroKeyStore.showLifecycle else b).secReply k 0x3A tag rx.seq code [])) ∧
    (s.loadKeyCode k l = 0 ↔ s.lifecycle = 2 ∧ s.holdsPerm k 0 = true ∧ s.on SEC_STATUS_sealed = false ∧
      s.on SEC_STATUS_jtag_open = false ∧ s.slotBusy (argBe l 0 1) = false ∧ l.length = 8 ∧ argBe l 1 3 = 0 ∧ argBe l 0 1 ≤ 63) ∧
    (s.clearKeyCode k l = 0 ↔ s.lifecycle = 2 ∧ s.holdsPerm k 0 = true ∧ s.on SEC_STATUS_jtag_open = false ∧
      s.slotBusy (argBe l 0 1) = false ∧ l.length = 4 ∧ argBe l 1 3 = 0 ∧ argBe l 0 1 ≤ 63) ∧
    (s.rucksackCode k l = 0 → s.lifecycle = 2 ∧ s.holdsPerm k 1 = true ∧ s.on SEC_STATUS_sealed = false ∧
      s.on SEC_STATUS_jtag_open = false ∧ bit (s.get SEC_POLICY_flags) 2 = true ∧ l.length = 17 ∧ argBe l 12 1 ≤ 7 ∧
      s.memStatus (argBe l 0 8) (argBe l 8 4) = none)

/-- What signed commands do (R429, R445, R446): with a valid challenge and a verified signature SET_POLICY puts its policy in force,
UNSEAL ends SEALED, and RELEASE erases owner, keys, use table and receipts; each uses the challenge up and ends a run of authentication
failures. A signature that does not verify is code 12 and counts as a failure. -/
def Obligations.SignedCommands : Prop :=
  ∀ (s u v : State) (k : Fin 8) (tag seq : Nat) (l : List Byte), s.lifecycle = 2 → s.holdsPerm k 2 = true → s.challengeOk k = true →
    v = s.setSess k { s.net.sess[k] with chal := none } → u = v.authOk →
    (s.on SEC_STATUS_sealed = false → l.length = 112 → policyRsvOk (l.take 8) = true → zeros l 12 4 = true →
      (s.cmdSigned k 0x38 l = true → s.setPolicy k tag seq l = (State.showPolicy { u with sec := { u.sec with
        polFlags := bytesBits l 0 0 4
        polTamper := bytesBits l 2 0 14
        credFloor := max u.sec.credFloor (argBe l 8 4) } }).secReply k 0x38 tag seq 0 []) ∧
      (s.cmdSigned k 0x38 l = false → s.setPolicy k tag seq l = v.authFail.secReply k 0x38 tag seq 12 [])) ∧
    (l.length = 96 →
      (u.on SEC_STATUS_sealed = true → s.cmdSigned k 0x39 l = true →
        s.unseal k tag seq l = ((u.put SEC_STATUS_sealed 0).ev 392).secReply k 0x39 tag seq 0 []) ∧
      (s.on SEC_STATUS_sealed = false →
        (s.cmdSigned k 0x3A l = true → s.release k tag seq l = u.zeroKeyStore.showLifecycle.secReply k 0x3A tag seq 0 []) ∧
        (s.cmdSigned k 0x3A l = false → s.release k tag seq l = v.authFail.secReply k 0x3A tag seq 12 []))) ∧
    u.zeroKeyStore.sec.owner = false ∧ u.zeroKeyStore.sec.ork = 0 ∧ u.zeroKeyStore.sec.keys = [] ∧ u.zeroKeyStore.useTab = [] ∧
    u.zeroKeyStore.receipts = [] ∧ ∀ j : Fin 8, u.zeroKeyStore.net.sess[j].keys = none

/-- Regions and receipts (R436, R437, R439): a verified package is decrypted into its region, which is locked; a failed one ends the
opening with status 12 and counts an authentication failure; the zeroing of a region unlocks it; the receipt that a port owes joins the
queue. -/
def Obligations.RegionsAndReceipts : Prop :=
  ∀ s : State,
    (∀ o, s.sec.opening = some o → s.on CAL_STATUS_crypto_hold = false → s.domainOn 43 = true →
      (s.rucksackPlain o = none → exec .rucksackLock s = .next ((s.endOpen 12).authFail.netGo).holdFaults.syncSources) ∧
      (∀ (text : List Byte) (u : State) (tab : List (Nat × Nat × Nat)) (left : Nat), s.rucksackPlain o = some text →
        u = State.setSec (s.authOk.fillRegion o.port o.base text o.size)
          { (s.authOk.fillRegion o.port o.base text o.size).sec with opening := none } →
        tab = (if u.useTab.any (fun x => decide (x.1 = o.id)) then u.useTab else u.useTab ++ [(o.id, 0, o.limit)]) →
        left = (match tab.find? (fun x => decide (x.1 = o.id)) with | some (_, n, limit) => limit - n | none => 0) →
        exec .rucksackLock s = .next (((((((({ u with useTab := tab }).wn (SEC_RK_REGION o.port)
          (o.base + 2 ^ 16 * o.size + 2 ^ 31)).wn (SEC_RK_ID o.port) o.id).wn (SEC_RK_LEFT o.port) left).ev 397).openReply o 0
            (beBytes left 4)).netGo).holdFaults.syncSources))) ∧
    (∀ (p : Fin 8) (used : Bool) (u : State), s.sec.closing.find? (fun x => decide (x.1 = p.val)) = some (p.val, used) →
      u = (((s.fillRegion p (s.get (SEC_RK_REGION_base p)) [] (s.get (SEC_RK_REGION_size p))).wn (SEC_RK_REGION p) 0).wn
        (SEC_RK_ID p) 0).wn (SEC_RK_LEFT p) 0 →
      exec (.regionZeroed p) s = .next (State.evIf { u with sec := { u.sec with
        closing := u.sec.closing.filter fun x => decide (x.1 ≠ p.val) } } used 399)) ∧
    (∀ (p : Fin 8) (r : RunUse) (u : State), s.port[p].owed = some r →
      u = State.put { s.setPort p { s.port[p] with owed := none } with receipts := s.receipts ++ [s.receiptBytes p r] }
        SEC_RCPT_queued (s.receipts.length + 1) →
      exec (.receiptQueued p) s = .next (if r.use = r.limit then u.closeRegion p true else u))

/-- Sensors, the JTAG lock and the test access port (R441, R444, R447, R450 to R452, R531): a sensor that fires is logged unless its
condition was present before, and its class in force decides the response: none, SEAL, ERASE or SCORCH; a challenge is a fresh value, an
unlock with a good signature opens the port (in OWNED after the secrets are gone), a refused or unsigned one raises source 402 and sensor
4; in LOCKED an instruction that does not act is BYPASS. -/
def Obligations.SensorsAndJtag : Prop :=
  ∀ s : State,
    (∀ (k : Fin 7) (fired active : BitVec 8) (off : Bool) (aon : Nat) (u v : State),
      (∀ j < 7, (s.sensed fired off j && s.sensorArmed j aon) = decide (j = k.val)) →
      u = (s.put SEC_TAMPER_active (((List.range 7).filter (s.sensed active off)).foldl (fun (m : Nat) j => m + 2 ^ j) 0)).setSec
        { s.sec with
          coolAt := if bit (((List.range 7).filter (s.sensed active off)).foldl (fun (m : Nat) j => m + 2 ^ j) 0) 2 then none
            else if bit (s.get SEC_TAMPER_active) 2 then some aon else s.sec.coolAt } →
      v = (if bit (s.get SEC_TAMPER_active) k then u else u.logTamper k off aon) →
      (u.sensorClass k = 0 ∨ u.sensorClass k = 1 ∧ u.on SEC_STATUS_sealed = true →
        exec (.tamperFire fired active off aon) s = .next v.netGo.holdFaults.syncSources) ∧
      (u.sensorClass k = 1 → u.on SEC_STATUS_sealed = false →
        exec (.tamperFire fired active off aon) s = .next v.seal.netGo.holdFaults.syncSources) ∧
      (u.sensorClass k = 2 →
        exec (.tamperFire fired active off aon) s = .next v.seal.eraseResponse.netGo.holdFaults.syncSources) ∧
      (u.sensorClass k = 3 → off = false →
        exec (.tamperFire fired active off aon) s = .next v.seal.eraseResponse.scorch.netGo.holdFaults.syncSources)) ∧
    (exec .secChallenge s = .next { s with
      fresh := s.fresh + 1
      jtag := { s.jtag with ir := 0x20, dr := (Config.freeValue s.fresh).toNat, chal := some (Config.freeValue s.fresh) } }) ∧
    (∀ (sig : List Byte) (u : State), u = { s with jtag := { s.jtag with ir := 0x21, chal := none } } →
      (s.unlockRefused = false → s.unlockSigned sig = true →
        (s.lifecycle ≠ 2 → exec (.secUnlock sig) s = .next (((u.authOk.put SEC_STATUS_jtag_open 1).ev
          403).netGo).holdFaults.syncSources) ∧
        (s.lifecycle = 2 → exec (.secUnlock sig) s = .next ((((((u.authOk.stopSecrets.endOpen 4).clearKeys).closeRegions.put
          SEC_STATUS_jtag_open 1).ev 403).netGo).holdFaults.syncSources))) ∧
      (s.unlockRefused = false → s.unlockSigned sig = false →
        exec (.secUnlock sig) s = .next ((((u.authFail.ev 402).fireInside 4).netGo).holdFaults.syncSources)) ∧
      (s.unlockRefused = true → exec (.secUnlock sig) s = .next ((((u.ev 402).fireInside 4).netGo).holdFaults.syncSources))) ∧
    exec .secBoot s = .next { s with jtag := { s.jtag with ir := 0x22, dr := s.boot.secBoot } } ∧
    exec .idcode s = .next { s with jtag := { s.jtag with ir := 1, dr := 0x1025656F } } ∧
    exec .bypass s = .next { s with jtag := { s.jtag with ir := 0xFF, dr := 0 } } ∧
    (s.jtagOpen = true →
      exec .clamp s = .next { s with jtag := { s.jtag with ir := 3, dr := 0 } } ∧
      exec .highz s = .next { s with jtag := { s.jtag with ir := 4, dr := 0 } } ∧
      ∀ balls load : BitVec 3507,
        exec (.extest balls load) s = .next { s with jtag := { s.jtag with ir := 0, dr := balls.toNat, boundary := load } } ∧
        exec (.samplePreload balls load) s = .next { s with jtag := { s.jtag with ir := 2, dr := balls.toNat, boundary := load } }) ∧
    (s.jtagOpen = false →
      exec .clamp s = .next { s with jtag := { s.jtag with ir := 0xFF, dr := 0 } } ∧
      exec .highz s = .next { s with jtag := { s.jtag with ir := 0xFF, dr := 0 } } ∧
      ∀ balls load : BitVec 3507, exec (.extest balls load) s = .next { s with jtag := { s.jtag with ir := 0xFF, dr := 0 } } ∧
        exec (.samplePreload balls load) s = .next { s with jtag := { s.jtag with ir := 0xFF, dr := 0 } })

/-! ## Calibration, self-test, scrub and the SME (chapter 16) -/

/-- Calibration (R460 to R465, R468, R470): a sensor sample in range is shown and valid, one out of range is not, and the drift from a
unit's reference makes it pending; CAL_RUN makes a unit or all units pending; the scan starts the first pending unit whose idle window
holds, under its lease; a run ends completed, failed or abandoned; a unit that stays pending goes stale; a write of a CAL_T64 field sets
the user value, saturating. -/
def Obligations.CalibrationRuns : Prop :=
  ∀ s : State,
    (∀ (temps : List Int) (t : State), s.canonical = true → t = s.tempSample temps → (∀ i : Fin 16,
      (-640 ≤ temps.getD i 0 ∧ temps.getD i 0 ≤ 2400 → t.get (CAL_TEMP_valid i) = 1 ∧
        t.get (CAL_TEMP_temp i) = ofSigned 13 (temps.getD i 0)) ∧
      (temps.getD i 0 < -640 ∨ 2400 < temps.getD i 0 → t.get (CAL_TEMP_valid i) = 0 ∧ t.get CAL_STATUS_sensor_fault = 1 ∧
        t.get (CAL_TEMP_temp i) = s.get (CAL_TEMP_temp i) ∧ 431 ∈ t.raised)) ∧
      ∀ (u : Fin 76) (x : Nat × Nat × Int) (move : Nat), s.cal.ref.find? (fun y => decide (y.1 = u.val)) = some x →
        t.on (CAL_TEMP_valid (unitSensor u)) = true → move = (toSigned 13 (t.get (CAL_TEMP_temp (unitSensor u))) - x.2.2).natAbs →
        t.get (CAL_UNIT_delta u) = min 0xFFFF (max (s.get (CAL_UNIT_delta u)) move) ∧
        (s.on CAL_CTL_en = true → clampNat 4 160 (s.get CAL_TEMP_THR_thr) < move → t.on (CAL_UNIT_pending u) = true ∧
          (s.on (CAL_UNIT_pending u) = false → 420 ∈ t.raised))) ∧
    (∀ (u : BitVec 7) (p : State → Nat → State), s.csrError CAL_RUN true = false →
      p = (fun (a : State) (v : Nat) => if a.on (CAL_UNIT_pending v) = true then a else
        (a.setCal { a.cal with pendAt := (v, a.tmb.clk) :: a.cal.pendAt.filter fun x => decide (x.1 ≠ v) }).put
          (CAL_UNIT_pending v) 1) →
      (u.toNat < 76 → exec (.calRun u) s = .next (p s u.toNat)) ∧
      (u.toNat = 0x7F → exec (.calRun u) s = .next ((List.range 76).foldl p s)) ∧
      (76 ≤ u.toNat → u.toNat ≠ 0x7F → exec (.calRun u) s = .next s)) ∧
    (∀ (ready : Nat → Bool), s.cal.run = none → s.cal.full = none →
      ready = (fun (u : Nat) => s.on (CAL_UNIT_pending u) && s.idleWindow u &&
        match s.cal.failAt.lookup u with
        | some t => decide (t + 1000000000 * tuPerNs ≤ s.tmb.clk)
        | none => true) →
      ((∀ u < 76, ready u = false) → exec .calScan s = .next s) ∧
      ∀ (u : Fin 76) (b : State), ready u = true → (∀ v < u.val, ready v = false) →
        b = (s.put (CAL_UNIT_running u) 1).setCal { s.cal with run := some u.val } →
        (u.val < 16 ∨ 48 ≤ u.val ∧ u.val < 72 → exec .calScan s = .next (b.smeRequest 8 u)) ∧
        (16 ≤ u.val → u.val < 48 → exec .calScan s = .next ((b.put (TIM_STATUS_leased (u - 16)) 1).smeRequest 8 u)) ∧
        ∀ c : Fin 4, u.val = 72 + c.val → exec .calScan s = .next ((b.setDmc c { b.dmc[c] with round := true }).smeRequest 7 c)) ∧
    (∀ (u : Nat) (q : List Nat), s.cal.run = some u → u < 72 →
      (s.idleWindow u = true → residualFails u q = false →
        exec (.calRunDone q) s = .next (((s.showQuality u q).calComplete u).calOver u 0)) ∧
      (s.idleWindow u = true → residualFails u q = true → exec (.calRunDone q) s = .next
        ((((((s.showQuality u q).setCal { (s.showQuality u q).cal with
          failAt := (u, (s.showQuality u q).tmb.clk) :: (s.showQuality u q).cal.failAt.filter fun x => decide (x.1 ≠ u) }).put
            (CAL_UNIT_failed u) 1).count CAL_FAIL_CNT).ev 419).calOver u 0)) ∧
      (s.idleWindow u = false → exec (.calRunDone q) s = .next (((s.count CAL_ABANDON_CNT).ev 418).calOver u 1))) ∧
    (∀ u : Fin 76, u.val < 72 → s.on (CAL_UNIT_pending u) = true → s.on (CAL_UNIT_stale u) = false →
      exec (.calStale u) s = .next ((((s.advanceTo ((s.cal.pendAt.lookup u.val).getD 0 +
        clampNat 1 600 (s.get CAL_DEFER_s) * 1000000000 * tuPerNs)).setStale u true).count CAL_STALE_CNT).ev 417)) ∧
    ∀ (p : Fin 256) (path : Fin 3) (c : BitVec 16) (x : Int) (a : Nat), a = (if path.val = 2 then CAL_T64_B p else CAL_T64_A p) →
      s.csrError a true = false → x = 4 * toSigned 16 c.toNat - toSigned 16 (s.get (factEdge p path)) →
      (-32768 ≤ x ∧ x ≤ 32767 → exec (.calT64Write p path c) s = .next (s.put (userEdge p path) (ofSigned 16 x))) ∧
      (x < -32768 → exec (.calT64Write p path c) s =
        .next ((((s.put (userEdge p path) 0x8000).put CAL_STATUS_t64_clip 1).count CAL_T64_CLIP_CNT).ev 421)) ∧
      (32767 < x → exec (.calT64Write p path c) s =
        .next ((((s.put (userEdge p path) 0x7FFF).put CAL_STATUS_t64_clip 1).count CAL_T64_CLIP_CNT).ev 421))

/-- Formalises R469: a read of a CAL_T64 field, by any master, returns the effective delay (user plus factory value) of that pin and path
over 4, as the nearest integer with ties away from zero. -/
def Obligations.T64ReadsEffectiveDelay : Prop :=
  ∀ (s : State) (m : Nat) (p : Fin 256) (path : Fin 3) (a : Nat), a = (if path.val = 2 then CAL_T64_B p else CAL_T64_A p) →
    s.csrError a false = false → (s.shadow.find? fun x => decide (x.1 = m) && decide (x.2.1 = a)) = none →
    ∃ (v : Word) (y : Int), s.csrRead m a = (some v, s) ∧ bitsOf v.toNat (if path.val = 1 then 16 else 0) 16 = ofSigned 16 y ∧
      (4 * y - (toSigned 16 (s.get (userEdge p path)) + toSigned 16 (s.get (factEdge p path)))).natAbs ≤ 2 ∧
      ((4 * y - (toSigned 16 (s.get (userEdge p path)) + toSigned 16 (s.get (factEdge p path)))).natAbs = 2 →
        (toSigned 16 (s.get (userEdge p path)) + toSigned 16 (s.get (factEdge p path))).natAbs ≤ (4 * y).natAbs)

/-- Formalises R472: the slice in progress fails. Its code and unit are in CAL_IST_LAST, the count has gone up by one (it saturates, Table
16.11), `ist_fail` is set, the event of the code is raised, and a unit of test 1 or 4 is pending. -/
def Obligations.FailedTestIsRecorded : Prop :=
  ∀ (s : State) (test u : Nat), s.canonical = true → s.cal.ist = some (test, u) →
    ∃ t : State, exec (.istSliceDone 1) s = .next t ∧ t.get CAL_IST_LAST_test = test % 16 ∧ t.get CAL_IST_LAST_unit = u % 128 ∧
      t.rn CAL_IST_FAIL_CNT = min 0xFFFFFFFF (s.rn CAL_IST_FAIL_CNT + 1) ∧ t.get CAL_STATUS_ist_fail = 1 ∧
      (test = 1 → 423 ∈ t.raised) ∧ (test = 2 ∨ test = 3 → 424 ∈ t.raised) ∧ (test = 4 → 425 ∈ t.raised) ∧
      (test = 5 → 426 ∈ t.raised) ∧ (test = 1 ∨ test = 4 → u < 76 → t.get (CAL_UNIT_pending u) = 1)

/-- The self-test and the scrub (R471 to R474): a cycle starts with the first eligible unit, and every slice in progress is one of the
cycle's list; a slice that passes, fails or yields leaves the cycle to go on; a known-answer test that passes ends a hold and lets what
waited go on; the scrub moves on from a line, recording what it finds, and writes a corrected line back. -/
def Obligations.SelfTestAndScrub : Prop :=
  ∀ s : State,
    (∀ (c : Instr) (t : State), (c = .istCycle ∨ ∃ o, c = .istSliceDone o) → s.cal.ist.all (fun x => decide (x ∈ istAll)) = true →
      exec c s = .next t → t.cal.ist.all (fun x => decide (x ∈ istAll)) = true) ∧
    (∀ u v : State, s.on CAL_CTL_ist_en = true → s.cal.ist = none →
      u = s.afterMs s.cal.istAt (clampNat 100 60000 (s.get CAL_IST_PERIOD_ms)) →
      v = u.setCal { u.cal with istAt := some u.tmb.clk } →
      (∀ x, istAll.find? (fun y => v.istEligible y.1 y.2) = some x → exec .istCycle s = .next (if x.1 = 1
        then ((v.setCal { v.cal with ist := some x }).smeRequest 9 x.2).put (TIM_STATUS_leased (x.2 - 16)) 1
        else (v.setCal { v.cal with ist := some x }).smeRequest 9 x.2)) ∧
      (istAll.find? (fun y => v.istEligible y.1 y.2) = none → exec .istCycle s =
        .next ((v.setCal { v.cal with ist := none }).ev 422))) ∧
    (∀ (test unit : Nat) (u v : State), s.cal.ist = some (test, unit) →
      u = (if test = 1 then s.put (TIM_STATUS_leased (unit - 16)) 0 else s).smeDone 9 unit →
      v = (((((u.put CAL_IST_LAST_test test).put CAL_IST_LAST_unit unit).count CAL_IST_FAIL_CNT).put CAL_STATUS_ist_fail 1).ev
        (istEvent test)) →
      (∀ o : Fin 3, o ≠ 1 → exec (.istSliceDone o) s = .next (u.istFrom (after (test, unit) istAll))) ∧
      exec (.istSliceDone 1) s = .next (State.istFrom (if test = 1 ∨ test = 4 then v.setPending unit
        else if test = 5 then (v.put CAL_STATUS_crypto_hold 1).setCal { v.cal with katAt := some v.tmb.clk }
        else v) (after (test, unit) istAll))) ∧
    (∀ u v : State, s.on CAL_STATUS_crypto_hold = true → s.canonical = true → u = s.afterMs s.cal.katAt 1000 →
      v = u.setCal { u.cal with katAt := some u.tmb.clk } →
      exec (.cryptoKatRetry false) s = .next v.holdFaults.syncSources ∧
      ∀ w : State, w = (v.put CAL_STATUS_crypto_hold 0).ev 427 → exec (.cryptoKatRetry true) s =
        .next ((List.finRange 8).foldl (fun (a : State) (k : Fin 8) => a.pumpAll k)
          (w.net.rxWait.foldl (fun (a : State) (x : Nat × Rx) => a.checkSession x.1 x.2)
            (w.setNet { w.net with rxWait := [] }))).holdFaults.syncSources) ∧
    ((s.on CAL_CTL_scrub_en = true ∨ s.cal.scrubFull.isSome = true) → ∀ (k : Fin 5) (line : Nat) (err : BitVec 640) (o : Fin 3),
      line = (s.scrubRegion k).1 + s.cal.scrub[k] → s.scrubServed k = true → s.mayMove 30 line 64 = true →
      (k = 0 →
        (o = 0 → exec (.scrubRead k err o) s = .next (s.scrubNext k).holdFaults.syncSources) ∧
        (o = 1 → exec (.scrubRead k err o) s = .next (((s.count CAL_SCRUB_CE_CNT).ev 428).scrubNext k).holdFaults.syncSources) ∧
        ∀ u : State, o = 2 → u = (((s.wn64 CAL_SCRUB_UE_ADDR_LO line).count CAL_SCRUB_UE_CNT).put CAL_STATUS_scrub_ue 1).ev 429 →
          exec (.scrubRead k err o) s = .next ((u.setCal { u.cal with
            scrubFull := u.cal.scrubFull.map fun x => (x.1, x.2 + 1) }).scrubNext k).holdFaults.syncSources) ∧
      ∀ (c : Fin 4) (l : List CwRead) (u v : State), k.val = 1 + c.val → l = s.lineRead c line err →
        u = s.correctAll c line 30 2 (corrections l) →
        (uncorrectables l = 0 → corrections l = [] → exec (.scrubRead k err o) s = .next (u.scrubNext k).holdFaults.syncSources) ∧
        (uncorrectables l = 0 → corrections l ≠ [] → exec (.scrubRead k err o) s =
          .next (((u.setLine line (s.readData line err l)).setDmc c { u.dmc[c] with
            patterned := u.dmc[c].patterned.filter fun y => decide (y.1 ≠ line) }).scrubNext k).holdFaults.syncSources) ∧
        (uncorrectables l ≠ 0 → v = u.freeze c line 30 2 (uncorrectables l) (decide (corrections l ≠ [])) →
          exec (.scrubRead k err o) s = .next ((v.setCal { v.cal with
            scrubFull := v.cal.scrubFull.map fun x => (x.1, x.2 + 1) }).scrubNext k).holdFaults.syncSources)) ∧
    ∀ (k : Fin 5) (n : Nat), n = s.cal.scrub[k] + 64 →
      (n < (s.scrubRegion k).2 → s.scrubNext k = s.setCal { s.cal with scrub := s.cal.scrub.set k n }) ∧
      ((s.scrubRegion k).2 ≤ n → s.scrubNext k =
        ((s.setCal { s.cal with scrub := s.cal.scrub.set k 0 }).ev 430).scrubLeave k)

/-- The SME (R463, R471, R476 to R478, R482): a commit point gives way to a routine of higher priority or to an atomic one, and ends a run
or slice whose lease is lost; at the end of a routine the request or the suspended routine of highest priority runs, a suspended one
first; a fault is counted, patch-RAM parity disables the match registers, and what the routine carried ends as failed. -/
def Obligations.ServiceRoutines : Prop :=
  ∀ s : State,
    (∀ (n : Nat) (j : SmeJob) (u : State), s.sme.run = some j → smeAtomic j.routine = false →
      u = s.put SME_COMMIT_MAX_clocks (min 0xFFFF (max (s.get SME_COMMIT_MAX_clocks) n)) →
      (s.leaseLost j = false →
        (∀ r, firstJob s.sme.reqs = some r → (smePrio j.routine < smePrio r.routine ∨ smeAtomic r.routine = true) →
          s.sme.susp.length < 8 → exec (.smeCommitPoint n) s = .next ((((u.setSme { s.sme with
            run := some r
            reqs := s.sme.reqs.erase r
            susp := j :: s.sme.susp }).count SME_SUSPEND_CNT).ev 435).showSme)) ∧
        ((∀ r, firstJob s.sme.reqs = some r → smePrio r.routine ≤ smePrio j.routine ∧ smeAtomic r.routine = false) →
          exec (.smeCommitPoint n) s = .next u)) ∧
      (s.leaseLost j = true →
        (j.routine = 8 → exec (.smeCommitPoint n) s = .next (((u.count CAL_ABANDON_CNT).ev 418).calOver j.unit 1)) ∧
        (j.routine = 9 → exec (.smeCommitPoint n) s = .next (u.istSliceDone 2)))) ∧
    (∀ u : State, u = s.setSme { s.sme with run := none } →
      (s.sme.reqs = [] → s.sme.susp = [] → exec .smeRoutineEnd s = .next u.showSme.netGo.holdFaults.syncSources) ∧
      (∀ r, firstJob s.sme.reqs = some r → (∀ j, firstJob s.sme.susp = some j → smePrio j.routine < smePrio r.routine) →
        exec .smeRoutineEnd s = .next (u.setSme { u.sme with
          run := some r
          reqs := s.sme.reqs.erase r }).showSme.netGo.holdFaults.syncSources) ∧
      ∀ j, firstJob s.sme.susp = some j → (∀ r, firstJob s.sme.reqs = some r → smePrio r.routine ≤ smePrio j.routine) →
        exec .smeRoutineEnd s = .next ((u.setSme { u.sme with
          run := some j
          susp := s.sme.susp.erase j }).ev 436).showSme.netGo.holdFaults.syncSources) ∧
    ∀ (parity : Bool) (u : State),
      u = (if parity then (List.range 32).foldl (fun (a : State) i => a.put (SME_MATCH_en i) 0) ((s.count SME_FAULT_CNT).ev 432)
        else (s.count SME_FAULT_CNT).ev 432) →
      ((s.sme.run.all fun j => smeAtomic j.routine) = true → exec (.smeFault parity) s = .next u) ∧
      ∀ j, s.sme.run = some j →
        (j.routine = 8 → s.cal.run = some j.unit → exec (.smeFault parity) s = .next ((u.calFail j.unit).calOver j.unit 0)) ∧
        (j.routine = 9 → exec (.smeFault parity) s = .next (u.istSliceDone 1)) ∧
        (∀ c : Fin 4, j = ⟨6, c.val⟩ → exec (.smeFault parity) s = .next ((u.ddrTrainDone c 4 0xFF).smeDone 6 c)) ∧
        (∀ c : Fin 4, j = ⟨7, c.val⟩ → s.cal.run = some (72 + c.val) → exec (.smeFault parity) s =
          .next (((u.setDmc c { u.dmc[c] with round := false }).calFail (72 + c)).calOver (72 + c) 0))

/-- Formalises R509: PWR_TJ_MAX shows the hottest valid sensor; a rise to the threshold raises source 506 and sets the warning, which is
not raised again until the reading has fallen below the threshold minus the hysteresis; beside the samples themselves nothing else
happens. -/
def Obligations.ThermalWarning : Prop :=
  (∀ (s : State) (x : Int), s.hottest = some x ↔
    (∃ k < 16, s.on (CAL_TEMP_valid k) = true ∧ toSigned 13 (s.get (CAL_TEMP_temp k)) = x) ∧
    ∀ k < 16, s.on (CAL_TEMP_valid k) = true → toSigned 13 (s.get (CAL_TEMP_temp k)) ≤ x) ∧
  ∀ (s a : State) (temps : List Int) (x thr : Int), a = s.tempSample temps → thr = toSigned 13 (s.get PWR_TEMP_WARN_thr) →
    (a.hottest = none → exec (.tempSampleTick temps) s = .next a) ∧
    (a.hottest = some x →
      (s.pwr.hot = false → thr ≤ x → exec (.tempSampleTick temps) s = .next (((State.put
        { a.put PWR_TJ_MAX_temp (ofSigned 13 x) with pwr := { a.pwr with hot := true } } PWR_STATUS_therm_warn 1)).ev 506)) ∧
      (s.pwr.hot = false → x < thr → exec (.tempSampleTick temps) s = .next (a.put PWR_TJ_MAX_temp (ofSigned 13 x))) ∧
      (s.pwr.hot = true → x < thr - s.get PWR_TEMP_WARN_hyst → exec (.tempSampleTick temps) s = .next
        { a.put PWR_TJ_MAX_temp (ofSigned 13 x) with pwr := { a.pwr with hot := false } }) ∧
      (s.pwr.hot = true → thr - s.get PWR_TEMP_WARN_hyst ≤ x →
        exec (.tempSampleTick temps) s = .next (a.put PWR_TJ_MAX_temp (ofSigned 13 x))))

/-! ## Events, resets, power and the pin-electronics buses (chapters 17, 18) -/

/-- Events and inputs (R487 to R494): an occurrence of a disabled source, or one before the boot firmware is verified, is dropped; one
that comes before the previous one is acknowledged is merged and counted; any other sets its latch bit, joins the events of every open
session that takes them, and goes its routes. Latches clear by writing ones and a pulse ends. Formalises R492: an active edge of an input
is accepted if it comes late enough after the last accepted one (`cycles`) or is the first, and is an overrun otherwise; a level that does
not last as long as the filter asks, or that the input already has, does nothing. -/
def Obligations.EventsAndInputs : Prop :=
  ∀ s : State,
    (∀ (src : Fin 512) (m : Bool) (u : State), src.val ∈ s.raised → u = { s with
        raised := s.raised.erase src.val
        evc := { s.evc with
          accepted := (src.val, s.tmb.clk) :: s.evc.accepted.filter fun x => decide (x.1 ≠ src.val) } } →
      (s.booted = false ∨ s.on (EVC_SRC_en src) = false → exec (.eventAccept src m) s = .next u) ∧
      (s.booted = true → s.on (EVC_SRC_en src) = true →
        (m = true → s.mayMerge src = true → exec (.eventAccept src m) s = .next (u.count EVC_MERGED)) ∧
        (∀ a b c : State, m = false ∨ s.mayMerge src = false → a = u.setBit (EVC_LATCH (src.val / 32)) (src.val % 32) →
          b = (if u.on (EVC_SRC_amiuc src) = true then a.eventToHost src else a) →
          c = (if u.on (EVC_SRC_sched src) = true then b.schRoute src else b) →
          exec (.eventAccept src m) s = .next (if u.on (EVC_SRC_out src) = true ∧ u.get (EVC_OUT_CFG_mode (u.get (EVC_SRC_out_idx src))) = 1
            then { c with evc := { c.evc with
              pulse := (u.get (EVC_SRC_out_idx src),
                c.tmb.clk + 5 * tuPerNs * max 2 (c.get (EVC_OUT_CFG_width (u.get (EVC_SRC_out_idx src))))) ::
                  c.evc.pulse.filter fun x => decide (x.1 ≠ u.get (EVC_SRC_out_idx src)) } }
            else c)))) ∧
    (∀ (src : Nat) (k : Fin 8), (s.sessOpen k = true → s.on (NET_SESS_CFG_evt_en k) = true →
        (s.eventToHost src).net.sess[k].evts = addRecord src s.tmb.epoch s.stamp s.net.sess[k].evts) ∧
      (s.sessOpen k = false ∨ s.on (NET_SESS_CFG_evt_en k) = false → (s.eventToHost src).net.sess[k] = s.net.sess[k])) ∧
    (∀ (k : Fin 16) (v : Word), s.csrError (EVC_LATCH k) true = false →
      exec (.eventLatchClear k v) s = .next (s.wr (EVC_LATCH k) (s.rd (EVC_LATCH k) &&& ~~~v))) ∧
    (∀ (k : Fin 8) (t : Nat) (u : State), s.evc.pulse.lookup k.val = some t → u = s.advanceTo t →
      exec (.evtOutPulseEnd k) s = .next { u with
        evc := { u.evc with pulse := u.evc.pulse.filter fun x => decide (x.1 ≠ k.val) } }) ∧
    (∀ (n : Fin 17) (level : Bool) (samples cycles : Nat),
      (s.bitAt EVC_IN_STATE n = level ∨ samples < max 1 (s.get (EVC_IN_CFG_filter n)) →
        exec (.inputEdge n level samples cycles) s = .next s) ∧
      (∀ u v : State, max 1 (s.get (EVC_IN_CFG_filter n)) ≤ samples → v = (if level then s.setBit EVC_IN_STATE n
          else s.clearBit EVC_IN_STATE n) →
        u = (if n.val = 16 then
          State.levelTo { v with evc := { v.evc with inActive := putBit v.evc.inActive 16 level } } 0x90 level else v) →
        (level = true → s.bitAt EVC_IN_STATE n = false →
          (bit s.evc.inSeen n = false ∨ max 1 (s.get (EVC_IN_CFG_interval n)) ≤ cycles →
            exec (.inputEdge n level samples cycles) s = .next (u.inputAccepted n)) ∧
          (bit s.evc.inSeen n = true → cycles < max 1 (s.get (EVC_IN_CFG_interval n)) → exec (.inputEdge n level samples cycles) s =
            .next (((u.count (EVC_IN_OVR n)).setBit EVC_IN_OVRF n).ev 511))) ∧
        (level = false → s.bitAt EVC_IN_STATE n = true →
          ((8 ≤ n.val ∨ bit u.evc.inActive n = false) → exec (.inputEdge n level samples cycles) s = .next u) ∧
          (n.val < 8 → bit u.evc.inActive n = true → exec (.inputEdge n level samples cycles) s = .next
            (State.levelTo { u with evc := { u.evc with inActive := putBit u.evc.inActive n false } } n false))))) ∧
    ∀ (n : Nat) (u v : State), u = s.setBit EVC_IN_EDGE n → v = { u with evc := { u.evc with inSeen := putBit u.evc.inSeen n true } } →
      (n < 8 → s.inputAccepted n = State.levelTo { v with
        evc := { v.evc with inActive := putBit v.evc.inActive n true }
        raised := v.raised ++ [509] } n true) ∧
      (8 ≤ n → n < 16 → s.inputAccepted n = { v with raised := v.raised ++ [510] }) ∧ s.inputAccepted 16 =
        State.epochIn { s.setBit EVC_IN_EDGE 16 with evc := { s.evc with inSeen := putBit s.evc.inSeen 16 true } }

/-- What a device-wide reset leaves (R495 to R497, R502): SRAM holds zeros; every register of the quadrant windows reads its Reset column,
but for what a warm reset keeps; no session is open, no unit works, no command of the queue is lost; and the cause is recorded. -/
def Obligations.ResetsReturnTheDevice : Prop :=
  ∀ (s t : State) (k : ResetKind), s.canonical = true → t = s.deviceReset k →
    (∀ a, 0x100000000 ≤ a → a < 0x106000000 → t.byte a = 0) ∧
    (∀ a, 0x01000000 ≤ a → (k = .warm → warmReg a = false) → t.rd a = regReset a) ∧
    (∀ j : Fin 8, t.sessOpen j = false) ∧ (∀ p : Fin 8, t.port[p] = {}) ∧ t.fab = [] ∧ t.sch = {} ∧ t.load = none ∧ t.cs = {} ∧
    t.pending = s.pending ∧ t.sec.owner = s.sec.owner ∧ t.useTab = s.useTab ∧ (k ≠ .warm → t.tmb = {}) ∧ (k = .warm → t.tmb = s.tmb) ∧
    (k = .power → t.rd GLB_RESET_CAUSE = 0) ∧
    (k ≠ .power → t.get GLB_RESET_CAUSE_cause = k.cause ∧
      t.get GLB_RESET_CAUSE_count = min (2 ^ GLB_RESET_CAUSE_count.w - 1) (s.get GLB_RESET_CAUSE_count + 1))

/-- When each reset is taken, and what follows it (R427, R495, R499 to R501, R519): the supplies, RST_N, the watchdog with its half-time
warning and its service, the response to tamper, and the quadrant reset with its end. -/
def Obligations.ResetsAreTaken : Prop :=
  ∀ s : State,
    (∀ (f : Option (Fin 4)) (ok : Bool) (u v w : State),
      u = (s.deviceReset .power).wn TMB_STATUS (match f with | some x => 2 ^ 8 * x.val + 2 ^ 10 | none => 0) →
      (ok = true → v = u) →
      (ok = false → ∀ a : State, a = State.setSec { u with useTab := [] } { u.sec with
          owner := false
          ork := 0
          oak := []
          polFlags := 0
          polTamper := 0
          credFloor := 0 } →
        v = ((a.put SEC_STATUS_lifecycle a.lifecycle).showPolicy.put SEC_STATUS_owner_lost 1).ev 394) →
      w = (if v.sec.scorchPending then v.scorch else v) →
      exec (.powerOnReset f ok) s = .next ((w.put SEC_STATUS_jtag_open (if w.lifecycle = 0 then 1 else 0)).released)) ∧
    exec .powerFail s = .next (((s.deviceReset .power).wn TMB_STATUS 0).atStage 5) ∧
    (∀ ns, 100 ≤ ns → s.boot.stage ≠ 5 → exec (.rstNReset ns) s = .next ((s.deviceReset .rstN).atStage 0)) ∧
    (∀ ns, ns < 100 → exec (.rstNReset ns) s = .next s) ∧
    (s.boot.stage = 0 → exec .rstNRelease s = .next s.released) ∧
    exec .watchdogService s = .next { s with boot := { s.boot with serviced := s.tmb.clk } } ∧
    (s.boot.stage = 4 → s.on GLB_WDT_CTL_en = true →
      exec .watchdogHalf s = .next ((s.advanceTo (s.boot.serviced + s.wdtMs * tuPerMs / 2)).ev 507) ∧
      exec .watchdogReset s =
        .next ((s.advanceTo (s.boot.serviced + s.wdtMs * tuPerMs)).deviceReset .watchdog).released) ∧
    (s.sec.resetDue = true → s.sec.closing = [] → exec .tamperReset s = .next (s.deviceReset .tamper).released) ∧
    (∀ go : BitVec 4, s.csrError GLB_QRESET true = false →
      (s.load.isSome = true → exec (.quadrantReset go) s = .next s.clockGo.holdFaults.syncSources) ∧
      (∀ now : Nat → Bool, s.load = none → (∀ q, now q = (bit go.toNat q && !bit (s.get GLB_QRESET_busy) q)) →
        exec (.quadrantReset go) s = .next (((List.finRange 12).foldl (fun (a : State) (d : Fin 12) =>
            if now (if d.val < 8 then d.val / 2 else d.val - 8) then a.dplRunOff d else a)
          ((List.range 8).foldl (fun (a : State) p => if now (p / 2) then a.closeRegion p false else a)
            (s.stopUnits now))).put GLB_QRESET_busy (s.get GLB_QRESET_busy |||
              ((List.range 4).map fun q => if now q then 2 ^ q else 0).sum)).clockGo.holdFaults.syncSources)) ∧
    ∀ (q : Fin 4) (p0 p1 : Fin 8) (d0 d1 d2 : Fin 12) (a b c d : State), bit (s.get GLB_QRESET_busy) q = true →
      p0.val = 2 * q.val → p1.val = 2 * q.val + 1 → d0.val = 2 * q.val → d1.val = 2 * q.val + 1 → d2.val = 8 + q.val →
      a = ((((s.regionZeroed p0).regionZeroed p1).zeroRing d0).zeroRing d1).resetRegs (quadReg q) →
      b = (List.finRange 32).foldl (fun (x : State) (t : Fin 32) => if t.val / 8 = q.val then x.setTim t {} else x)
        ((((a.clearPort p0).clearPort p1).setAcq p0 {}).setAcq p1 {}) →
      c = (((b.clearWfg q).setDpl d0 {}).setDpl d1 {}).setDpl d2 {} →
      d = (State.wn { c with x7 := c.x7.set q [] } (EVC_LATCH (2 * q)) 0).wn (EVC_LATCH (2 * q + 1)) 0 →
      exec (.quadrantResetDone q) s = .next ((d.put GLB_QRESET_busy (s.get GLB_QRESET_busy - 2 ^ q.val)).ev 508) ∧
      (s.canonical = true → d.rd (EVC_LATCH (2 * q)) = 0 ∧ d.rd (EVC_LATCH (2 * q + 1)) = 0 ∧
        (∀ r, quadReg q r = true → d.rd r = regReset r) ∧
        ∀ r, 0x01000000 ≤ r → (r < 0x01000000 + 0x400000 * q.val ∨ 0x01400000 + 0x400000 * q.val ≤ r) → d.rd r = s.rd r)

/-- Start-up and power domains (R433, R434, R442, R503, R507, R508): the slot with the higher version runs where its images are right,
else the other one, and the boot ROM stays where neither has three; READY shows in its registers, advances the rollback counts and raises
source 363; a switch in progress completes; and a domain that faults stops its units, goes down and is recorded. -/
def Obligations.BootAndDomains : Prop :=
  ∀ s : State,
    (∀ (l0 l1 : List (List Byte)) (config : List Byte), s.boot.stage = 1 →
      (imageField (l1.getD 0 []) 6 2 ≤ imageField (l0.getD 0 []) 6 2 →
        (s.slotBad l0 = none → exec (.bootVerified l0 l1 config) s = .next (s.authOk.bootSlot 0 l0 config)) ∧
        ∀ u v : State, (u, false) = s.trySlot 0 l0 →
          (u.slotBad l1 = none → exec (.bootVerified l0 l1 config) s = .next (u.authOk.bootSlot 1 l1 config)) ∧
          ((v, false) = u.trySlot 1 l1 → exec (.bootVerified l0 l1 config) s = .next (v.atStage 2))) ∧
      (imageField (l0.getD 0 []) 6 2 < imageField (l1.getD 0 []) 6 2 →
        (s.slotBad l1 = none → exec (.bootVerified l0 l1 config) s = .next (s.authOk.bootSlot 1 l1 config)) ∧
        ∀ u v : State, (u, false) = s.trySlot 1 l1 →
          (u.slotBad l0 = none → exec (.bootVerified l0 l1 config) s = .next (u.authOk.bootSlot 0 l0 config)) ∧
          ((v, false) = u.trySlot 0 l0 → exec (.bootVerified l0 l1 config) s = .next (v.atStage 2)))) ∧
    (∀ (n : Nat) (l : List (List Byte)) (stage reason : Nat) (u : State), s.slotBad l = some (stage, reason) →
      u = (if reason = 4 ∨ reason = 5 then s else s.authFail).evIf (decide (stage = 3)) 434 →
      s.trySlot n l = ({ u with boot := { u.boot with
        secBoot := (stage + 2 ^ 4 * reason + bitsOf s.boot.secBoot 8 2 * 2 ^ 8) ||| 2 ^ (8 + n) } }, false)) ∧
    (∀ (n : Nat) (l : List (List Byte)) (config : List Byte) (a b c d : State),
      a = State.put { s with boot := { s.boot with
        stage := 3
        rollback := l.map fun (x : List Byte) => imageField x 8 1
        serviced := s.tmb.clk } } GLB_STATE_slot n →
      b = (a.loadPatch (l.getD 2 [])).loadConfig config →
      c = (List.finRange 2).foldl (fun (x : State) (p : Fin 2) => (x.takeCfg p).startAddr p) b →
      d = (List.finRange 4).foldl (fun (x : State) (k : Fin 4) =>
        if x.get (DMC_STATUS_state k) = 0 ∧ x.trainRefused k = 0 then x.trainAt k else x) c →
      s.bootSlot n l config = if d.on CXH_CTL_en = true ∧ d.domainOn 36 = true then d.cxlTrain else d) ∧
    (∀ (ms : Nat) (u v : State), s.boot.stage = 3 →
      u = ((s.put SEC_ROLLBACK_boot (max (s.get SEC_ROLLBACK_boot) (s.boot.rollback.getD 0 0 % 64))).put SEC_ROLLBACK_house
        (max (s.get SEC_ROLLBACK_house) (s.boot.rollback.getD 1 0 % 64))).put SEC_ROLLBACK_patch
          (max (s.get SEC_ROLLBACK_patch) (s.boot.rollback.getD 2 0 % 64)) →
      v = ((((u.put GLB_STATE_ready 1).put NET_STATUS_ready 1).put GLB_READY_MS_ms (min ms 0xFFFF)).ev 363).evIf
        (decide (s.get GLB_RESET_CAUSE_cause ≠ 0)) 508 →
      exec (.deviceReady ms) s = .next { v with boot := { v.boot with stage := 4, serviced := v.tmb.clk } }) ∧
    (∀ (d : Fin 44) (on : Bool) (u : State), (s.pwr.sw.take 4).find? (fun x => decide (x.1 = d.val)) = some (d.val, on) →
      u = { s with pwr := { s.pwr with sw := s.pwr.sw.erase (d.val, on) } } →
      (on = false → exec (.domainSwitchDone d) s =
        .next (u.switched.put PWR_STATUS_busy (if u.pwr.sw = [] then 0 else 1)).clockGo.holdFaults.syncSources) ∧
      (on = true → u.pwr.sw.contains (d.val, false) = false → exec (.domainSwitchDone d) s =
        .next ((u.domainUp d).switched.put PWR_STATUS_busy (if u.pwr.sw = [] then 0 else 1)).clockGo.holdFaults.syncSources) ∧
      (on = true → u.pwr.sw.contains (d.val, false) = true → exec (.domainSwitchDone d) s =
        .next (((u.domainUp d).domainDown d).switched.put PWR_STATUS_busy (if u.pwr.sw = [] then 0 else 1)).clockGo.holdFaults.syncSources)) ∧
    ∀ (d : Fin 44) (u v w : State), s.domainOn d = true →
      u = (if 38 ≤ d.val ∧ d.val < 42 then s.groupFault (d.val - 38) else if d.val = 36 then s.cxlOff false
        else s.stopDomain d).domainDown d →
      (d.val < 32 ∨ 36 ≤ d.val → v = if d.val = 43 then u.put CAL_STATUS_crypto_hold 1 else u) →
      (∀ c : Fin 4, d.val = 32 + c.val → v = if u.get (DMC_STATUS_state c) = 5
        then ((u.zeroChan c).failTxs fun t => decide (t.pool = c.val)).put (DMC_STATUS_state c) 0 else u) →
      w = v.setBit (if d.val < 32 then PWR_FAULT_LO else PWR_FAULT_HI) (d.val % 32) →
      exec (.domainFault d) s = .next ((State.count { w with
        pwr := { w.pwr with sw := w.pwr.sw.filter fun x => decide (x ≠ (d.val, false)) } } PWR_FAULT_CNT).ev
          505).clockGo.holdFaults.syncSources

/-- The pin-electronics buses (R505, R516): ready follows the pin; go asks for a transaction of 1 to 32 bytes, or is an error; a
transaction that nothing holds back starts, shows its received bytes and ends done after its last byte, and ends aborted with the bytes it
has received where it is aborted. -/
def Obligations.PinElectronicsBuses : Prop :=
  ∀ (s : State) (b : Fin 8),
    exec (.pebReady b) s = .next (s.put (PEB_STATUS_ready b) 1) ∧
    exec (.peReadyHigh b) s = .next (s.put (PEB_STATUS_ready b) 0) ∧
    (∀ (v : Word) (u : State), s.csrError (PEB_TXN b) true = false →
      u = (s.put (PEB_TXN_cs b) (bitsOf v.toNat 0 3)).put (PEB_TXN_bytes b) (bitsOf v.toNat 8 6) →
      (s.on (PEB_STATUS_busy b) = true → exec (.pebTxnGo b v) s = .next (s.put (PEB_STATUS_err b) 1)) ∧
      (s.on (PEB_STATUS_busy b) = false → 1 ≤ bitsOf v.toNat 8 6 → bitsOf v.toNat 8 6 ≤ 32 →
        exec (.pebTxnGo b v) s = .next (u.put (PEB_STATUS_busy b) 1)) ∧
      (s.on (PEB_STATUS_busy b) = false → (bitsOf v.toNat 8 6 = 0 ∨ 32 < bitsOf v.toNat 8 6) →
        exec (.pebTxnGo b v) s = .next (u.put (PEB_STATUS_err b) 1))) ∧
    (s.on (PEB_STATUS_busy b) = true → s.peb[b].cs = none →
      (s.on (PEB_STATUS_ready b) = true → s.pebSecret b = false →
        exec (.pebTxnStart b) s = .next (s.setPeb b { cs := some (s.get (PEB_TXN_cs b)), abort := false })) ∧
      (s.on (PEB_STATUS_ready b) = false ∨ s.pebSecret b = true → exec (.pebTxnStart b) s = .next s)) ∧
    ∀ (rx : List Byte) (u : State), s.peb[b].cs.isSome = true → u = (s.pebTake b rx).setPeb b {} →
      (s.get (PEB_TXN_bytes b) ≤ rx.length →
        exec (.pebTxnDone b rx) s = .next ((u.put (PEB_STATUS_busy b) 0).put (PEB_STATUS_done b) 1)) ∧
      (rx.length < s.get (PEB_TXN_bytes b) → s.csrError (PEB_CTL b) true = false →
        exec (.pebAbort b rx) s = .next ((u.put (PEB_STATUS_busy b) 0).put (PEB_STATUS_aborted b) 1)) ∧
      (s.canonical = true → ∀ k, k < rx.length → k < 32 → k < s.get (PEB_TXN_bytes b) → u.get (pebByte b k) = (rx.getD k 0).toNat)
end

