-- ==== Sys2Proof/Laws/Cells.lean ====
section
/-! SUPPORT. Sparse storage in canonical form: what a read gives after a write or a clear, that both keep the form, and that two
stores in the form that read alike are equal. -/

namespace Sys2Proof.Machine

variable {α : Type} {d : Nat → α} {l : List (Nat × α)} {a k : Nat} {v : α}

theorem cellsGet_cons_self {x : α} : cellsGet d ((k, x) :: l) k = x := by simp [cellsGet]

/-- A key below every listed one reads as its default. -/
theorem cellsGet_of_lt (h : ∀ c ∈ l, k < c.1) : cellsGet d l k = d k := by
  cases l with
  | nil => rfl
  | cons c l =>
    have h1 : k < c.1 := h c (by simp)
    simp only [cellsGet]
    rw [if_neg (by omega), if_pos h1]

variable [DecidableEq α]

theorem cellsWf_cons {x : α} : cellsWf d ((k, x) :: l) = true ↔ x ≠ d k ∧ (∀ c ∈ l, k < c.1) ∧ cellsWf d l = true := by
  simp [cellsWf, and_assoc]

/-- Every key of a store after a write is the written one or was there before. -/
theorem cellsSet_mem {c : Nat × α} (h : c ∈ cellsSet d l k v) : c.1 = k ∨ c ∈ l := by
  induction l with
  | nil =>
    simp only [cellsSet] at h
    split at h <;> simp_all
  | cons b l ih =>
    simp only [cellsSet] at h
    split at h
    · split at h
      · exact .inr h
      · rcases List.mem_cons.mp h with h | h
        · exact .inl (by simp [h])
        · exact .inr h
    · split at h
      · split at h
        · exact .inr (List.mem_cons_of_mem _ h)
        · rcases List.mem_cons.mp h with h | h
          · exact .inl (by simp [h])
          · exact .inr (List.mem_cons_of_mem _ h)
      · rcases List.mem_cons.mp h with h | h
        · exact .inr (by simp [h])
        · rcases ih h with h | h
          · exact .inl h
          · exact .inr (List.mem_cons_of_mem _ h)

/-- A write keeps the canonical form. -/
theorem cellsSet_wf (h : cellsWf d l = true) : cellsWf d (cellsSet d l k v) = true := by
  induction l with
  | nil =>
    simp only [cellsSet]
    split <;> simp_all [cellsWf]
  | cons b l ih =>
    obtain ⟨j, u⟩ := b
    obtain ⟨h1, h2, h3⟩ := cellsWf_cons.mp h
    simp only [cellsSet]
    split
    · split
      · exact h
      · refine cellsWf_cons.mpr ⟨‹_›, ?_, h⟩
        intro c hc
        rcases List.mem_cons.mp hc with rfl | hc
        · assumption
        · have := h2 c hc; omega
    · split
      · subst k
        split
        · exact h3
        · exact cellsWf_cons.mpr ⟨‹_›, h2, h3⟩
      · refine cellsWf_cons.mpr ⟨h1, ?_, ih h3⟩
        intro c hc
        rcases cellsSet_mem hc with hc | hc
        · omega
        · exact h2 c hc

/-- A read of the written key gives the value written. -/
theorem cellsGet_set_self (h : cellsWf d l = true) : cellsGet d (cellsSet d l k v) k = v := by
  induction l with
  | nil =>
    simp only [cellsSet]
    split <;> simp_all [cellsGet]
  | cons b l ih =>
    obtain ⟨j, u⟩ := b
    obtain ⟨h1, h2, h3⟩ := cellsWf_cons.mp h
    simp only [cellsSet]
    split
    · split
      · simp only [cellsGet]
        rw [if_neg (by omega), if_pos (by assumption)]
        exact Eq.symm ‹_›
      · exact cellsGet_cons_self
    · split
      · subst k
        split
        · rw [cellsGet_of_lt h2]; exact Eq.symm ‹_›
        · exact cellsGet_cons_self
      · simp only [cellsGet]
        rw [if_neg ‹_›, if_neg ‹_›]
        exact ih h3

/-- A read of another key gives what it gave. -/
theorem cellsGet_set_ne (h : cellsWf d l = true) (hn : a ≠ k) : cellsGet d (cellsSet d l k v) a = cellsGet d l a := by
  induction l with
  | nil =>
    simp only [cellsSet]
    split
    · rfl
    · simp only [cellsGet]
      rw [if_neg (by omega)]
      split <;> rfl
  | cons b l ih =>
    obtain ⟨j, u⟩ := b
    obtain ⟨h1, h2, h3⟩ := cellsWf_cons.mp h
    simp only [cellsSet]
    split
    · split
      · rfl
      · simp only [cellsGet]
        rw [if_neg (by omega)]
        split
        · rw [if_neg (by omega), if_pos (by omega)]
        · rfl
    · split
      · subst k
        split
        · simp only [cellsGet]
          rw [if_neg (by omega)]
          split
          · exact cellsGet_of_lt fun c hc => by have := h2 c hc; omega
          · rfl
        · simp only [cellsGet]
          simp [cellsGet, show j ≠ a from fun h => hn h.symm]
      · simp only [cellsGet]
        rw [ih h3]

omit [DecidableEq α] in
/-- A cleared key reads as its default, another one as it read. -/
theorem cellsClear_mem {p : Nat → Bool} {c : Nat × α} : c ∈ cellsClear p l ↔ c ∈ l ∧ p c.1 = false := by
  simp [cellsClear]

/-- A clear keeps the canonical form. -/
theorem cellsClear_wf {p : Nat → Bool} (h : cellsWf d l = true) : cellsWf d (cellsClear p l) = true := by
  induction l with
  | nil => rfl
  | cons b l ih =>
    obtain ⟨j, u⟩ := b
    obtain ⟨h1, h2, h3⟩ := cellsWf_cons.mp h
    simp only [cellsClear, List.filter_cons]
    split
    · exact cellsWf_cons.mpr ⟨h1, fun c hc => h2 c (cellsClear_mem.mp hc).1, ih h3⟩
    · exact ih h3

/-- A read after a clear. -/
theorem cellsGet_clear {p : Nat → Bool} (h : cellsWf d l = true) :
    cellsGet d (cellsClear p l) k = if p k then d k else cellsGet d l k := by
  induction l with
  | nil => simp [cellsClear, cellsGet]
  | cons b l ih =>
    obtain ⟨j, u⟩ := b
    obtain ⟨h1, h2, h3⟩ := cellsWf_cons.mp h
    have ih := ih h3
    simp only [cellsClear, List.filter_cons] at ih ⊢
    by_cases hj : j = k
    · subst hj
      by_cases hp : p j = true
      · simp [hp] at ih ⊢; exact ih
      · simp [hp, cellsGet]
    · by_cases hlt : k < j
      · have hd : cellsGet d (List.filter (fun c => !p c.1) l) k = d k :=
          cellsGet_of_lt fun c hc => by
            have := h2 c (List.mem_filter.mp hc).1; omega
        by_cases hp : p j = true
        · simp [hp, cellsGet, hj, hlt, hd]
        · simp [hp, cellsGet, hj, hlt]
      · by_cases hp : p j = true
        · simp [hp, cellsGet, hj, hlt, ih]
        · simp [hp, cellsGet, hj, hlt, ih]

/-- Two stores in canonical form that read alike are equal. -/
theorem cells_ext {m : List (Nat × α)} (hl : cellsWf d l = true) (hm : cellsWf d m = true)
    (h : ∀ k, cellsGet d l k = cellsGet d m k) : l = m := by
  induction l generalizing m with
  | nil =>
    cases m with
    | nil => rfl
    | cons b m =>
      obtain ⟨j, u⟩ := b
      obtain ⟨h1, _, _⟩ := cellsWf_cons.mp hm
      have := h j
      rw [cellsGet_cons_self] at this
      exact absurd this.symm h1
  | cons b l ih =>
    obtain ⟨j, u⟩ := b
    obtain ⟨h1, h2, h3⟩ := cellsWf_cons.mp hl
    cases m with
    | nil =>
      have := h j
      rw [cellsGet_cons_self] at this
      exact absurd this h1
    | cons c m =>
      obtain ⟨i, w⟩ := c
      obtain ⟨g1, g2, g3⟩ := cellsWf_cons.mp hm
      have hij : j = i := by
        rcases Nat.lt_trichotomy j i with hlt | he | hlt
        · have := h j
          rw [cellsGet_cons_self, cellsGet_of_lt (l := (i, w) :: m)] at this
          · exact absurd this h1
          · intro c hc
            rcases List.mem_cons.mp hc with rfl | hc
            · exact hlt
            · have := g2 c hc; omega
        · exact he
        · have := h i
          rw [cellsGet_cons_self, cellsGet_of_lt (l := (j, u) :: l)] at this
          · exact absurd this.symm g1
          · intro c hc
            rcases List.mem_cons.mp hc with rfl | hc
            · exact hlt
            · have := h2 c hc; omega
      subst hij
      have huw : u = w := by
        have := h j
        rwa [cellsGet_cons_self, cellsGet_cons_self] at this
      subst huw
      rw [ih h3 g3]
      intro k
      by_cases hk : j = k
      · subst hk; rw [cellsGet_of_lt h2, cellsGet_of_lt g2]
      · have := h k
        simp only [cellsGet, if_neg hk] at this
        split at this
        · rw [cellsGet_of_lt fun c hc => by have := h2 c hc; omega, cellsGet_of_lt fun c hc => by have := g2 c hc; omega]
        · exact this

end Sys2Proof.Machine
end

