-- ==== Sys2Proof/Laws/Keep.lean ====
section
/-! SUPPORT. What every update of the state keeps. A predicate that `Keeps` describes outlives every operation that stores nothing
to memory, one that `KeepsMem` describes outlives every operation: the lemmas of the Keep files say so, one per operation, and a
proof about a command cites the one of its operation instead of unfolding it. -/

namespace Sys2Proof.Machine

/-- A predicate that no update of a register, and of no field but memory and the queue, can make false. -/
structure Keeps (P : State → Prop) : Prop where
  rest : ∀ s t : State, t.pending = s.pending → t.csr = s.csr → t.mem = s.mem → P s → P t
  wrOk : ∀ (s : State) a v, P s → P (s.wr a v)
  clear : ∀ (s : State) p, P s → P { s with csr := cellsClear p s.csr }

/-- A predicate that no update but one of the queue can make false. -/
structure KeepsMem (P : State → Prop) : Prop extends Keeps P where
  byteOk : ∀ (s : State) a v, P s → P (s.setByte a v)
  zeroOk : ∀ (s : State) a n, P s → P (s.zeroMem a n)

variable {P : State → Prop} {α β : Type}

theorem Keeps.upd (K : Keeps P) {s : State} {u3 u4 u5 u6 u7 u8 u9 u10 u11 u12 u13 u14 u15 u16 u17 u18 u19 u20 u21 u22 u23 u24 u25 u26 u27 u28 u29 u30 u31 u32 u33 u34
    u35 u36 u37 u38 u39 u40 u41 u42 u43 u44 u45 u46} (h : P s) :
    P (State.mk s.pending s.csr s.mem u3 u4 u5 u6 u7 u8 u9 u10 u11 u12 u13 u14 u15 u16 u17 u18 u19 u20 u21 u22 u23 u24 u25 u26 u27 u28 u29 u30 u31 u32 u33 u34
      u35 u36 u37 u38 u39 u40 u41 u42 u43 u44 u45 u46) := K.rest s _ rfl rfl rfl h

theorem Keeps.ite (_ : Keeps P) {c : Prop} [Decidable c] {a b : State} (ha : P a) (hb : P b) : P (if c then a else b) := by
  split <;> assumption

theorem Keeps.ite1 (_ : Keeps P) {c : Prop} [Decidable c] {a b : State × α} (ha : P a.1) (hb : P b.1) :
    P (if c then a else b).1 := by
  split <;> assumption

theorem Keeps.ite2 (_ : Keeps P) {c : Prop} [Decidable c] {a b : α × State} (ha : P a.2) (hb : P b.2) :
    P (if c then a else b).2 := by
  split <;> assumption

theorem Keeps.fst (_ : Keeps P) {p : State × α} {s : State} {a : α} (e : p = (s, a)) (h : P p.1) : P s := by
  subst e; exact h

theorem Keeps.snd (_ : Keeps P) {p : α × State} {s : State} {a : α} (e : p = (a, s)) (h : P p.2) : P s := by
  subst e; exact h

theorem Keeps.snd2 (_ : Keeps P) {p : α × β × State} {s : State} {a : α} {b : β} (e : p = (a, b, s)) (h : P p.2.2) : P s := by
  subst e; exact h

theorem Keeps.sndSome (_ : Keeps P) {o : Option (α × State)} {s : State} {a : α} (e : o = some (a, s))
    (h : ∀ x, o = some x → P x.2) : P s := h _ e

theorem Keeps.getD (_ : Keeps P) {o : Option State} {s : State} (h : P s) (ho : ∀ t, o = some t → P t) : P (o.getD s) := by
  cases o with
  | none => exact h
  | some t => exact ho t rfl

theorem Keeps.foldl (_ : Keeps P) {f : State → β → State} {l : List β} {s : State} (hf : ∀ a x, P a → P (f a x)) (h : P s) :
    P (l.foldl f s) := by
  induction l generalizing s with
  | nil => exact h
  | cons b l ih => exact ih (hf _ _ h)

theorem Keeps.foldl1 (_ : Keeps P) {f : State × α → β → State × α} {l : List β} {s : State × α}
    (hf : ∀ a x, P a.1 → P (f a x).1) (h : P s.1) : P (l.foldl f s).1 := by
  induction l generalizing s with
  | nil => exact h
  | cons b l ih => exact ih (hf _ _ h)

theorem Keeps.wr (K : Keeps P) {s : State} {a : Nat} {v : Word} (hs : P s) : P (s.wr a v) := K.wrOk _ _ _ hs

theorem KeepsMem.setByte (K : KeepsMem P) {s : State} {a : Nat} {v : Byte} (hs : P s) : P (s.setByte a v) := K.byteOk _ _ _ hs

theorem KeepsMem.zeroMem (K : KeepsMem P) {s : State} {a n : Nat} (hs : P s) : P (s.zeroMem a n) := K.zeroOk _ _ _ hs

end Sys2Proof.Machine
end

