-- ==== Sys2Proof/Laws/KeepA.lean ====
section
/-! SUPPORT. What the operations keep (see Keep.lean), in the order in which they call one another: part 1 of 7. -/

namespace Sys2Proof.Machine

variable {P : State → Prop}

theorem Keeps.wn (K : Keeps P) {s : State} {a v : Nat} (hs : P s) :
    P (s.wn a v) := by
  unfold State.wn; try dsimp only
  repeat' first | with_reducible (first | assumption | apply K.wr) | with_reducible apply K.upd

theorem Keeps.put (K : Keeps P) {s : State} {f : Fld} {v : Nat} (hs : P s) :
    P (s.put f v) := by
  unfold State.put; try dsimp only
  repeat' first | with_reducible (first | assumption | apply K.wn) | with_reducible apply K.upd

theorem Keeps.ev (K : Keeps P) {s : State} {src : Nat} (hs : P s) :
    P (s.ev src) := by
  unfold State.ev; try dsimp only
  repeat' first | with_reducible (first | assumption) | with_reducible apply K.upd

theorem Keeps.setAcq (K : Keeps P) {s : State} {e : Fin 8} {x : AcqH} (hs : P s) :
    P (s.setAcq e x) := by
  unfold State.setAcq; try dsimp only
  repeat' first | with_reducible (first | assumption) | with_reducible apply K.upd

theorem Keeps.acqPanic (K : Keeps P) {s : State} {e : Fin 8} (hs : P s) :
    P (s.acqPanic e) := by
  unfold State.acqPanic; try dsimp only
  repeat' first | with_reducible (first | assumption | apply K.ite | apply K.ite1 | apply K.ite2 | apply K.put | apply K.ev) | with_reducible apply K.upd

theorem Keeps.acqArm (K : Keeps P) {s : State} {e : Fin 8} (hs : P s) :
    P (s.acqArm e) := by
  unfold State.acqArm; try dsimp only
  repeat' first | with_reducible (first | assumption | apply K.ite | apply K.ite1 | apply K.ite2 | apply K.put | apply K.ev | apply K.setAcq | apply K.acqPanic) | with_reducible apply K.upd

theorem KeepsMem.setBytes (K : KeepsMem P) {s : State} {a : Nat} {y2 : List Byte} (hs : P s) :
    P (s.setBytes a y2) := by
  induction y2 generalizing s a with
  | nil => exact hs
  | cons b l ih =>
    unfold State.setBytes; try dsimp only
    repeat' first | with_reducible apply ih | with_reducible (first | assumption | apply K.ite | apply K.ite1 | apply K.ite2 | apply K.setByte | apply K.foldl | apply K.foldl1) | (intro _; intros) | split | refine K.fst (by assumption) ?_ | refine K.snd (by assumption) ?_ | with_reducible apply K.upd

theorem KeepsMem.stage (K : KeepsMem P) {s : State} {e : Fin 8} {v : Int} (hs : P s) :
    P (s.stage e v) := by
  unfold State.stage; try dsimp only
  repeat' first | with_reducible (first | assumption | apply K.setAcq | apply K.setBytes) | split | refine K.fst (by assumption) ?_ | refine K.snd (by assumption) ?_ | with_reducible apply K.upd

theorem Keeps.count (K : Keeps P) {s : State} {a : Nat} {n : optParam Nat 1} (hs : P s) :
    P (s.count a n) := by
  unfold State.count; try dsimp only
  repeat' first | with_reducible (first | assumption | apply K.wn) | with_reducible apply K.upd

theorem Keeps.closeSpan (K : Keeps P) {s : State} {e : Fin 8} (hs : P s) :
    P (s.closeSpan e) := by
  unfold State.closeSpan; try dsimp only
  repeat' first | with_reducible (first | assumption | apply K.count | apply K.setAcq) | split | refine K.fst (by assumption) ?_ | refine K.snd (by assumption) ?_ | with_reducible apply K.upd

theorem Keeps.evIf (K : Keeps P) {s : State} {c : Bool} {src : Nat} (hs : P s) :
    P (s.evIf c src) := by
  unfold State.evIf; try dsimp only
  repeat' first | with_reducible (first | assumption | apply K.ite | apply K.ite1 | apply K.ite2 | apply K.ev) | with_reducible apply K.upd

theorem Keeps.dropped (K : Keeps P) {s : State} {e : Fin 8} {opens : Bool} (hs : P s) :
    P (s.dropped e opens) := by
  unfold State.dropped; try dsimp only
  repeat' first | with_reducible (first | assumption | apply K.evIf | apply K.put | apply K.count) | with_reducible apply K.upd

theorem KeepsMem.addHist (K : KeepsMem P) {s : State} {e : Fin 8} {x : Smp} (hs : P s) :
    P (s.addHist e x) := by
  unfold State.addHist; try dsimp only
  repeat' first | with_reducible (first | assumption | apply K.stage | apply K.closeSpan | apply K.setAcq | apply K.dropped) | split | refine K.fst (by assumption) ?_ | refine K.snd (by assumption) ?_ | with_reducible apply K.upd

theorem KeepsMem.drainWrite (K : KeepsMem P) {s : State} {e : Fin 8} {u : Nat} {l : List Byte} (hs : P s) :
    P (s.drainWrite e u l) := by
  unfold State.drainWrite; try dsimp only
  repeat' first | with_reducible (first | assumption | apply K.setBytes) | with_reducible apply K.upd

theorem KeepsMem.drainSeg (K : KeepsMem P) {s : State} {e : Fin 8} (hs : P s) :
    P (s.drainSeg e) := by
  unfold State.drainSeg; try dsimp only
  repeat' first | with_reducible (first | assumption | apply K.ite | apply K.ite1 | apply K.ite2 | apply K.drainWrite | apply K.setAcq) | split | refine K.fst (by assumption) ?_ | refine K.snd (by assumption) ?_ | with_reducible apply K.upd

theorem Keeps.closeSeg (K : Keeps P) {s : State} {e : Fin 8} {endCode lastT : Nat} (hs : P s) :
    P (s.closeSeg e endCode lastT) := by
  unfold State.closeSeg; try dsimp only
  repeat' first | with_reducible (first | assumption | apply K.ite | apply K.ite1 | apply K.ite2 | apply K.count | apply K.setAcq | apply K.put) | split | refine K.fst (by assumption) ?_ | refine K.snd (by assumption) ?_ | with_reducible apply K.upd

theorem KeepsMem.segTake (K : KeepsMem P) {s : State} {e : Fin 8} {x : Smp} {cause : Option Nat} (hs : P s) :
    P (s.segTake e x cause) := by
  unfold State.segTake; try dsimp only
  repeat' first | with_reducible (first | assumption | apply K.ite | apply K.ite1 | apply K.ite2 | apply K.drainSeg | apply K.stage | apply K.setAcq | apply K.dropped | apply K.closeSeg) | split | refine K.fst (by assumption) ?_ | refine K.snd (by assumption) ?_ | with_reducible apply K.upd

theorem Keeps.setPort (K : Keeps P) {s : State} {p : Fin 8} {x : PortH} (hs : P s) :
    P (s.setPort p x) := by
  unfold State.setPort; try dsimp only
  repeat' first | with_reducible (first | assumption) | with_reducible apply K.upd

theorem Keeps.setSeq (K : Keeps P) {s : State} {d : Fin 12} {x : SeqH} (hs : P s) :
    P (s.setSeq d x) := by
  unfold State.setSeq; try dsimp only
  repeat' first | with_reducible (first | assumption) | with_reducible apply K.upd

theorem Keeps.produceAt (K : Keeps P) {s : State} {d : Fin 12} {due : Nat} (hs : P s) :
    P (s.produceAt d due) := by
  unfold State.produceAt; try dsimp only
  repeat' first | with_reducible (first | assumption | apply K.setSeq) | with_reducible apply K.upd

theorem Keeps.produce (K : Keeps P) {s : State} {d : Fin 12} {x : Nat} (hs : P s) :
    P (s.produce d x) := by
  unfold State.produce; try dsimp only
  repeat' first | with_reducible (first | assumption | apply K.produceAt) | split | refine K.fst (by assumption) ?_ | refine K.snd (by assumption) ?_ | with_reducible apply K.upd

theorem Keeps.eventRise (K : Keeps P) {s : State} {d : Fin 12} {k : Nat} (hs : P s) :
    P (s.eventRise d k) := by
  unfold State.eventRise; try dsimp only
  repeat' first | with_reducible (first | assumption | apply K.ite | apply K.ite1 | apply K.ite2 | apply K.setSeq | apply K.produce) | split | refine K.fst (by assumption) ?_ | refine K.snd (by assumption) ?_ | with_reducible apply K.upd

theorem Keeps.setPdac (K : Keeps P) {s : State} {u : Fin 16} {x : PdacH} (hs : P s) :
    P (s.setPdac u x) := by
  unfold State.setPdac; try dsimp only
  repeat' first | with_reducible (first | assumption) | with_reducible apply K.upd

theorem Keeps.pdacLoaded (K : Keeps P) {s : State} {u : Fin 16} {edge : Bool} (hs : P s) :
    P (s.pdacLoaded u edge) := by
  unfold State.pdacLoaded; try dsimp only
  repeat' first | with_reducible (first | assumption | apply K.setPdac) | with_reducible apply K.upd

theorem Keeps.pdacLoad (K : Keeps P) {s : State} {u : Fin 16} {c : Nat} (hs : P s) :
    P (s.pdacLoad u c) := by
  unfold State.pdacLoad; try dsimp only
  repeat' first | with_reducible (first | assumption | apply K.ite | apply K.ite1 | apply K.ite2 | apply K.setPdac | apply K.put | apply K.count) | split | refine K.fst (by assumption) ?_ | refine K.snd (by assumption) ?_ | with_reducible apply K.upd

theorem Keeps.pdacGroup (K : Keeps P) {s : State} {g : Nat} {edge : Bool} (hs : P s) :
    P (s.pdacGroup g edge) := by
  unfold State.pdacGroup; try dsimp only
  repeat' first | with_reducible (first | assumption | apply K.ite | apply K.ite1 | apply K.ite2 | apply K.pdacLoaded | apply K.pdacLoad | apply K.foldl | apply K.foldl1) | (intro _; intros) | with_reducible apply K.upd

theorem Keeps.destRise (K : Keeps P) {s : State} {dst : Nat} (hs : P s) :
    P (s.destRise dst) := by
  unfold State.destRise; try dsimp only
  repeat' first | with_reducible (first | assumption | apply K.ite | apply K.ite1 | apply K.ite2 | apply K.setPort | apply K.eventRise | apply K.pdacGroup) | split | refine K.fst (by assumption) ?_ | refine K.snd (by assumption) ?_ | with_reducible apply K.upd

theorem Keeps.riseWhere (K : Keeps P) {s : State} {p : MLine → Bool} (hs : P s) :
    P (s.riseWhere p) := by
  unfold State.riseWhere; try dsimp only
  repeat' first | with_reducible (first | assumption | apply K.ite | apply K.ite1 | apply K.ite2 | apply K.destRise | apply K.foldl | apply K.foldl1) | (intro _; intros) | with_reducible apply K.upd

theorem Keeps.pulse (K : Keeps P) {s : State} {code : Nat} (hs : P s) :
    P (s.pulse code) := by
  unfold State.pulse; try dsimp only
  repeat' first | with_reducible (first | assumption | apply K.ite | apply K.ite1 | apply K.ite2 | apply K.riseWhere) | with_reducible apply K.upd

theorem Keeps.wn64 (K : Keeps P) {s : State} {a v : Nat} (hs : P s) :
    P (s.wn64 a v) := by
  unfold State.wn64; try dsimp only
  repeat' first | with_reducible (first | assumption | apply K.wn) | with_reducible apply K.upd

theorem Keeps.openSeg (K : Keeps P) {s : State} {e : Fin 8} {at_ : Smp} {mask primary frac : Nat} {pre : List Smp} (hs : P s) :
    P (s.openSeg e at_ mask primary frac pre) := by
  unfold State.openSeg; try dsimp only
  repeat' first | with_reducible (first | assumption | apply K.closeSpan | apply K.put | apply K.setAcq | apply K.pulse | apply K.wn64) | with_reducible apply K.upd

theorem Keeps.segAdopt (K : Keeps P) {s : State} {e : Fin 8} {x : Smp} {cause : Nat} {opens : Bool} (hs : P s) :
    P (s.segAdopt e x cause opens) := by
  unfold State.segAdopt; try dsimp only
  repeat' first | with_reducible (first | assumption | apply K.ite | apply K.ite1 | apply K.ite2 | apply K.evIf | apply K.setAcq | apply K.closeSeg) | split | refine K.fst (by assumption) ?_ | refine K.snd (by assumption) ?_ | with_reducible apply K.upd

theorem KeepsMem.rearmTake (K : KeepsMem P) {s : State} {e : Fin 8} {x : Smp} (hs : P s) :
    P (s.rearmTake e x) := by
  unfold State.rearmTake; try dsimp only
  repeat' first | with_reducible (first | assumption | apply K.ite | apply K.ite1 | apply K.ite2 | apply K.addHist | apply K.setAcq | apply K.put) | with_reducible apply K.upd

theorem Keeps.missTrigger (K : Keeps P) {s : State} {e : Fin 8} {at_ : Smp} (hs : P s) :
    P (s.missTrigger e at_) := by
  unfold State.missTrigger; try dsimp only
  repeat' first | with_reducible (first | assumption | apply K.ite | apply K.ite1 | apply K.ite2 | apply K.setAcq | apply K.evIf | apply K.put | apply K.count) | with_reducible apply K.upd

theorem KeepsMem.acqTake (K : KeepsMem P) {s : State} {e : Fin 8} {x : Smp} {mask : Nat} {falling : Bool} {look : Int} (hs : P s) :
    P (s.acqTake e x mask falling look) := by
  unfold State.acqTake; try dsimp only
  repeat' first | with_reducible (first | assumption | apply K.ite | apply K.ite1 | apply K.ite2 | apply K.addHist | apply K.segTake | apply K.openSeg | apply K.segAdopt | apply K.setAcq | apply K.rearmTake | apply K.missTrigger | apply K.acqPanic) | split | refine K.fst (by assumption) ?_ | refine K.snd (by assumption) ?_ | with_reducible apply K.upd

theorem KeepsMem.acqResolve (K : KeepsMem P) {s : State} {e : Fin 8} {look : Option Int} (hs : P s) :
    P (s.acqResolve e look) := by
  unfold State.acqResolve; try dsimp only
  repeat' first | with_reducible (first | assumption | apply K.ite | apply K.ite1 | apply K.ite2 | apply K.setAcq | apply K.acqTake | apply K.missTrigger) | split | refine K.fst (by assumption) ?_ | refine K.snd (by assumption) ?_ | with_reducible apply K.upd

theorem KeepsMem.acqOutput (K : KeepsMem P) {s : State} {e : Fin 8} {x : Smp} (hs : P s) :
    P (s.acqOutput e x) := by
  unfold State.acqOutput; try dsimp only
  repeat' first | with_reducible (first | assumption | apply K.ite | apply K.ite1 | apply K.ite2 | apply K.acqResolve | apply K.setAcq | apply K.acqTake) | with_reducible apply K.upd

theorem KeepsMem.acqInput (K : KeepsMem P) {s : State} {e : Fin 8} {v : Int} {t : Nat} {frac : Nat × Nat} (hs : P s) :
    P (s.acqInput e v t frac) := by
  unfold State.acqInput; try dsimp only
  repeat' first | with_reducible (first | assumption | apply K.ite | apply K.ite1 | apply K.ite2 | apply K.acqOutput | apply K.setAcq | apply K.foldl | apply K.foldl1) | (intro _; intros) | with_reducible apply K.upd

theorem KeepsMem.acqCapture (K : KeepsMem P) {s : State} {e : Fin 8} {bits t : Nat} {frac : Nat × Nat} (hs : P s) :
    P (s.acqCapture e bits t frac) := by
  unfold State.acqCapture; try dsimp only
  repeat' first | with_reducible (first | assumption | apply K.ite | apply K.ite1 | apply K.ite2 | apply K.setAcq | apply K.acqInput) | with_reducible apply K.upd

theorem Keeps.acqDrainRd (K : Keeps P) {s : State} {e : Fin 8} {v : Nat} (hs : P s) :
    P (s.acqDrainRd e v) := by
  unfold State.acqDrainRd; try dsimp only
  repeat' first | with_reducible (first | assumption | apply K.ite | apply K.ite1 | apply K.ite2 | apply K.acqPanic | apply K.wn) | with_reducible apply K.upd

theorem KeepsMem.acqTimResult (K : KeepsMem P) {s : State} {e : Fin 8} {word : Nat} (hs : P s) :
    P (s.acqTimResult e word) := by
  unfold State.acqTimResult; try dsimp only
  repeat' first | with_reducible (first | assumption | apply K.ite | apply K.ite1 | apply K.ite2 | apply K.acqInput | apply K.count) | with_reducible apply K.upd

theorem KeepsMem.flushX6 (K : KeepsMem P) {s : State} {e : Fin 8} (hs : P s) :
    P (s.flushX6 e) := by
  unfold State.flushX6; try dsimp only
  repeat' first | with_reducible (first | assumption | apply K.acqTimResult | apply K.setAcq | apply K.foldl | apply K.foldl1) | (intro _; intros) | with_reducible apply K.upd

theorem KeepsMem.acqEnd (K : KeepsMem P) {s : State} {e : Fin 8} {st endCode segEnd : Nat} (hs : P s) :
    P (s.acqEnd e st endCode segEnd) := by
  unfold State.acqEnd; try dsimp only
  repeat' first | with_reducible (first | assumption | apply K.ite | apply K.ite1 | apply K.ite2 | apply K.acqResolve | apply K.flushX6 | apply K.closeSpan | apply K.closeSeg | apply K.ev | apply K.put | apply K.acqPanic | apply K.setAcq) | with_reducible apply K.upd

theorem Keeps.acqForce (K : Keeps P) {s : State} {e : Fin 8} (hs : P s) :
    P (s.acqForce e) := by
  unfold State.acqForce; try dsimp only
  repeat' first | with_reducible (first | assumption | apply K.ite | apply K.ite1 | apply K.ite2 | apply K.setAcq) | with_reducible apply K.upd

theorem KeepsMem.acqFreeze (K : KeepsMem P) {s : State} {c : Nat} (hs : P s) :
    P (s.acqFreeze c) := by
  unfold State.acqFreeze; try dsimp only
  repeat' first | with_reducible (first | assumption | apply K.ite | apply K.ite1 | apply K.ite2 | apply K.acqEnd | apply K.setAcq | apply K.foldl | apply K.foldl1) | (intro _; intros) | with_reducible apply K.upd

theorem KeepsMem.acqPortEnds (K : KeepsMem P) {s : State} {p : Fin 8} (hs : P s) :
    P (s.acqPortEnds p) := by
  unfold State.acqPortEnds; try dsimp only
  repeat' first | with_reducible (first | assumption | apply K.ite | apply K.ite1 | apply K.ite2 | apply K.acqEnd | apply K.foldl | apply K.foldl1) | (intro _; intros) | with_reducible apply K.upd

theorem KeepsMem.acqPublish (K : KeepsMem P) {s : State} {e : Fin 8} (hs : P s) :
    P (s.acqPublish e) := by
  unfold State.acqPublish; try dsimp only
  repeat' first | with_reducible (first | assumption | apply K.ite | apply K.ite1 | apply K.ite2 | apply K.wn | apply K.drainWrite | apply K.setAcq | apply K.ev | apply K.put | apply K.evIf | apply K.acqPanic) | split | refine K.fst (by assumption) ?_ | refine K.snd (by assumption) ?_ | with_reducible apply K.upd

theorem KeepsMem.acqSramError (K : KeepsMem P) {s : State} {e : Fin 8} {k : Nat} (hs : P s) :
    P (s.acqSramError e k) := by
  unfold State.acqSramError; try dsimp only
  repeat' first | with_reducible (first | assumption | apply K.acqEnd | apply K.setAcq) | with_reducible apply K.upd

theorem KeepsMem.acqStop (K : KeepsMem P) {s : State} {e : Fin 8} (hs : P s) :
    P (s.acqStop e) := by
  unfold State.acqStop; try dsimp only
  repeat' first | with_reducible (first | assumption | apply K.acqEnd) | with_reducible apply K.upd

theorem Keeps.acqUnfreeze (K : Keeps P) {s : State} {c : Nat} (hs : P s) :
    P (s.acqUnfreeze c) := by
  unfold State.acqUnfreeze; try dsimp only
  repeat' first | with_reducible (first | assumption | apply K.ite | apply K.ite1 | apply K.ite2 | apply K.setAcq | apply K.foldl | apply K.foldl1) | (intro _; intros) | with_reducible apply K.upd

theorem KeepsMem.flushPort (K : KeepsMem P) {s : State} {p : Fin 8} (hs : P s) :
    P (s.flushPort p) := by
  unfold State.flushPort; try dsimp only
  repeat' first | with_reducible (first | assumption | apply K.ite | apply K.ite1 | apply K.ite2 | apply K.flushX6 | apply K.foldl | apply K.foldl1) | (intro _; intros) | with_reducible apply K.upd

theorem KeepsMem.pushX6 (K : KeepsMem P) {s : State} {e : Fin 8} {t word : Nat} (hs : P s) :
    P (s.pushX6 e t word).1 := by
  unfold State.pushX6; try dsimp only
  repeat' first | with_reducible (first | assumption | apply K.ite | apply K.ite1 | apply K.ite2 | apply K.setAcq | apply K.flushX6) | with_reducible apply K.upd

theorem Keeps.advance (K : Keeps P) {s : State} {n : Nat} (hs : P s) :
    P (s.advance n) := by
  unfold State.advance; try dsimp only
  repeat' first | with_reducible (first | assumption | apply K.ite | apply K.ite1 | apply K.ite2) | with_reducible apply K.upd

theorem Keeps.advanceTo (K : Keeps P) {s : State} {t : Nat} (hs : P s) :
    P (s.advanceTo t) := by
  unfold State.advanceTo; try dsimp only
  repeat' first | with_reducible (first | assumption | apply K.advance) | with_reducible apply K.upd

theorem Keeps.afterMs (K : Keeps P) {s : State} {t : Option Nat} {ms : Nat} (hs : P s) :
    P (s.afterMs t ms) := by
  unfold State.afterMs; try dsimp only
  repeat' first | with_reducible (first | assumption | apply K.advanceTo) | split | refine K.fst (by assumption) ?_ | refine K.snd (by assumption) ?_ | with_reducible apply K.upd

theorem Keeps.setCal (K : Keeps P) {s : State} {x : CalH} (hs : P s) :
    P (s.setCal x) := by
  unfold State.setCal; try dsimp only
  repeat' first | with_reducible (first | assumption) | with_reducible apply K.upd

theorem Keeps.showSme (K : Keeps P) {s : State} (hs : P s) :
    P (s.showSme) := by
  unfold State.showSme; try dsimp only
  repeat' first | with_reducible (first | assumption | apply K.ite | apply K.ite1 | apply K.ite2 | apply K.put) | split | refine K.fst (by assumption) ?_ | refine K.snd (by assumption) ?_ | with_reducible apply K.upd

theorem Keeps.setSme (K : Keeps P) {s : State} {x : SmeH} (hs : P s) :
    P (s.setSme x) := by
  unfold State.setSme; try dsimp only
  repeat' first | with_reducible (first | assumption) | with_reducible apply K.upd

theorem Keeps.smeNext (K : Keeps P) {s : State} (hs : P s) :
    P (s.smeNext) := by
  unfold State.smeNext; try dsimp only
  repeat' first | with_reducible (first | assumption | apply K.ite | apply K.ite1 | apply K.ite2 | apply K.showSme | apply K.ev | apply K.setSme) | split | refine K.fst (by assumption) ?_ | refine K.snd (by assumption) ?_ | with_reducible apply K.upd

theorem Keeps.smeDone (K : Keeps P) {s : State} {routine unit : Nat} (hs : P s) :
    P (s.smeDone routine unit) := by
  unfold State.smeDone; try dsimp only
  repeat' first | with_reducible (first | assumption | apply K.ite | apply K.ite1 | apply K.ite2 | apply K.smeNext | apply K.setSme | apply K.showSme) | with_reducible apply K.upd

theorem Keeps.longOutcome (K : Keeps P) {s : State} {opcode result : Nat} {data : List Byte} (hs : P s) :
    P (s.longOutcome opcode result data) := by
  unfold State.longOutcome; try dsimp only
  repeat' first | with_reducible (first | assumption | apply K.ite | apply K.ite1 | apply K.ite2) | split | refine K.fst (by assumption) ?_ | refine K.snd (by assumption) ?_ | with_reducible apply K.upd

theorem Keeps.smeRequest (K : Keeps P) {s : State} {routine unit : Nat} (hs : P s) :
    P (s.smeRequest routine unit) := by
  unfold State.smeRequest; try dsimp only
  repeat' first | with_reducible (first | assumption | apply K.smeNext | apply K.setSme) | with_reducible apply K.upd

theorem Keeps.setDmc (K : Keeps P) {s : State} {c : Fin 4} {x : DmcH} (hs : P s) :
    P (s.setDmc c x) := by
  unfold State.setDmc; try dsimp only
  repeat' first | with_reducible (first | assumption) | with_reducible apply K.upd

theorem Keeps.calStart (K : Keeps P) {s : State} {u : Nat} (hs : P s) :
    P (s.calStart u) := by
  unfold State.calStart; try dsimp only
  repeat' first | with_reducible (first | assumption | apply K.ite | apply K.ite1 | apply K.ite2 | apply K.setCal | apply K.put | apply K.smeRequest | apply K.setDmc) | split | refine K.fst (by assumption) ?_ | refine K.snd (by assumption) ?_ | with_reducible apply K.upd

theorem Keeps.fullFrom (K : Keeps P) {y0 : Nat} {y1 : State} {y2 y3 : Nat} (hy1 : P y1) :
    P (State.fullFrom y0 y1 y2 y3) := by
  induction y0 generalizing y1 y2 y3 with
  | zero => exact hy1
  | succ n ih =>
    unfold State.fullFrom; try dsimp only
    repeat' first | with_reducible apply ih | with_reducible (first | assumption | apply K.ite | apply K.ite1 | apply K.ite2 | apply K.longOutcome | apply K.put | apply K.setCal | apply K.calStart | apply K.foldl | apply K.foldl1) | (intro _; intros) | split | refine K.fst (by assumption) ?_ | refine K.snd (by assumption) ?_ | with_reducible apply K.upd

theorem Keeps.calOver (K : Keeps P) {s : State} {u skipped : Nat} (hs : P s) :
    P (s.calOver u skipped) := by
  unfold State.calOver; try dsimp only
  repeat' first | with_reducible (first | assumption | apply K.ite | apply K.ite1 | apply K.ite2 | apply K.setCal | apply K.put | apply K.smeDone | apply K.fullFrom) | split | refine K.fst (by assumption) ?_ | refine K.snd (by assumption) ?_ | with_reducible apply K.upd

theorem Keeps.calAbandon (K : Keeps P) {s : State} {u : Nat} (hs : P s) :
    P (s.calAbandon u) := by
  unfold State.calAbandon; try dsimp only
  repeat' first | with_reducible (first | assumption | apply K.calOver | apply K.ev | apply K.count) | with_reducible apply K.upd

theorem Keeps.setBit (K : Keeps P) {s : State} {a i : Nat} (hs : P s) :
    P (s.setBit a i) := by
  unfold State.setBit; try dsimp only
  repeat' first | with_reducible (first | assumption | apply K.wr) | with_reducible apply K.upd

theorem Keeps.clearBit (K : Keeps P) {s : State} {a i : Nat} (hs : P s) :
    P (s.clearBit a i) := by
  unfold State.clearBit; try dsimp only
  repeat' first | with_reducible (first | assumption | apply K.wr) | with_reducible apply K.upd

theorem Keeps.setStale (K : Keeps P) {s : State} {u : Nat} {stale : Bool} (hs : P s) :
    P (s.setStale u stale) := by
  unfold State.setStale; try dsimp only
  repeat' first | with_reducible (first | assumption | apply K.ite | apply K.ite1 | apply K.ite2 | apply K.put | apply K.setBit | apply K.clearBit) | with_reducible apply K.upd

theorem Keeps.calComplete (K : Keeps P) {s : State} {u : Nat} (hs : P s) :
    P (s.calComplete u) := by
  unfold State.calComplete; try dsimp only
  repeat' first | with_reducible (first | assumption | apply K.ite | apply K.ite1 | apply K.ite2 | apply K.setCal | apply K.put | apply K.setStale | apply K.ev | apply K.count) | with_reducible apply K.upd

theorem Keeps.calFail (K : Keeps P) {s : State} {u : Nat} (hs : P s) :
    P (s.calFail u) := by
  unfold State.calFail; try dsimp only
  repeat' first | with_reducible (first | assumption | apply K.ev | apply K.count | apply K.put | apply K.setCal) | with_reducible apply K.upd

theorem Keeps.setPending (K : Keeps P) {s : State} {u : Nat} (hs : P s) :
    P (s.setPending u) := by
  unfold State.setPending; try dsimp only
  repeat' first | with_reducible (first | assumption | apply K.ite | apply K.ite1 | apply K.ite2 | apply K.put | apply K.setCal) | with_reducible apply K.upd

theorem Keeps.calRun (K : Keeps P) {s : State} {u : Nat} (hs : P s) :
    P (s.calRun u) := by
  unfold State.calRun; try dsimp only
  repeat' first | with_reducible (first | assumption | apply K.ite | apply K.ite1 | apply K.ite2 | apply K.setPending | apply K.foldl | apply K.foldl1) | (intro _; intros) | with_reducible apply K.upd

theorem Keeps.calFull (K : Keeps P) {s : State} (hs : P s) :
    P (s.calFull) := by
  unfold State.calFull; try dsimp only
  repeat' first | with_reducible (first | assumption | apply K.put | apply K.calRun | apply K.setCal | apply K.fullFrom) | split | refine K.fst (by assumption) ?_ | refine K.snd (by assumption) ?_ | with_reducible apply K.upd

theorem Keeps.calPowerUp (K : Keeps P) {s : State} {d : Nat} (hs : P s) :
    P (s.calPowerUp d) := by
  unfold State.calPowerUp; try dsimp only
  repeat' first | with_reducible (first | assumption | apply K.ite | apply K.ite1 | apply K.ite2 | apply K.setPending | apply K.setStale | apply K.setCal | apply K.foldl | apply K.foldl1) | (intro _; intros) | with_reducible apply K.upd

theorem Keeps.showQuality (K : Keeps P) {s : State} {u : Nat} {q : List Nat} (hs : P s) :
    P (s.showQuality u q) := by
  unfold State.showQuality; try dsimp only
  repeat' first | with_reducible (first | assumption | apply K.ite | apply K.ite1 | apply K.ite2 | apply K.put | apply K.foldl | apply K.foldl1) | (intro _; intros) | with_reducible apply K.upd

theorem Keeps.calRunDone (K : Keeps P) {s : State} {q : List Nat} (hs : P s) :
    P (s.calRunDone q) := by
  unfold State.calRunDone; try dsimp only
  repeat' first | with_reducible (first | assumption | apply K.ite | apply K.ite1 | apply K.ite2 | apply K.calAbandon | apply K.showQuality | apply K.calOver | apply K.calFail | apply K.calComplete) | split | refine K.fst (by assumption) ?_ | refine K.snd (by assumption) ?_ | with_reducible apply K.upd

theorem Keeps.calScan (K : Keeps P) {s : State} (hs : P s) :
    P (s.calScan) := by
  unfold State.calScan; try dsimp only
  repeat' first | with_reducible (first | assumption | apply K.ite | apply K.ite1 | apply K.ite2 | apply K.calStart) | split | refine K.fst (by assumption) ?_ | refine K.snd (by assumption) ?_ | with_reducible apply K.upd

theorem Keeps.calStaleMark (K : Keeps P) {s : State} {u : Nat} (hs : P s) :
    P (s.calStaleMark u) := by
  unfold State.calStaleMark; try dsimp only
  repeat' first | with_reducible (first | assumption | apply K.ite | apply K.ite1 | apply K.ite2 | apply K.ev | apply K.count | apply K.setStale | apply K.advanceTo) | with_reducible apply K.upd

theorem Keeps.istFrom (K : Keeps P) {s : State} {l : List (Nat × Nat)} (hs : P s) :
    P (s.istFrom l) := by
  unfold State.istFrom; try dsimp only
  repeat' first | with_reducible (first | assumption | apply K.ite | apply K.ite1 | apply K.ite2 | apply K.smeRequest | apply K.setCal | apply K.put | apply K.ev) | split | refine K.fst (by assumption) ?_ | refine K.snd (by assumption) ?_ | with_reducible apply K.upd

theorem Keeps.istCycle (K : Keeps P) {s : State} (hs : P s) :
    P (s.istCycle) := by
  unfold State.istCycle; try dsimp only
  repeat' first | with_reducible (first | assumption | apply K.ite | apply K.ite1 | apply K.ite2 | apply K.afterMs | apply K.istFrom | apply K.setCal) | with_reducible apply K.upd

theorem Keeps.istSliceDone (K : Keeps P) {s : State} {outcome : Nat} (hs : P s) :
    P (s.istSliceDone outcome) := by
  unfold State.istSliceDone; try dsimp only
  repeat' first | with_reducible (first | assumption | apply K.ite | apply K.ite1 | apply K.ite2 | apply K.smeDone | apply K.put | apply K.count | apply K.ev | apply K.setPending | apply K.setCal | apply K.istFrom) | split | refine K.fst (by assumption) ?_ | refine K.snd (by assumption) ?_ | with_reducible apply K.upd

theorem Keeps.katRetry (K : Keeps P) {s : State} {pass : Bool} (hs : P s) :
    P (s.katRetry pass) := by
  unfold State.katRetry; try dsimp only
  repeat' first | with_reducible (first | assumption | apply K.ite | apply K.ite1 | apply K.ite2 | apply K.afterMs | apply K.setCal | apply K.ev | apply K.put) | with_reducible apply K.upd

theorem Keeps.retrainEnd (K : Keeps P) {s : State} {c : Fin 4} {eyes : List (Nat × Nat)} (hs : P s) :
    P (s.retrainEnd c eyes) := by
  unfold State.retrainEnd; try dsimp only
  repeat' first | with_reducible (first | assumption | apply K.ite | apply K.ite1 | apply K.ite2 | apply K.count | apply K.setDmc | apply K.put | apply K.ev | apply K.foldl | apply K.foldl1) | (intro _; intros) | with_reducible apply K.upd

theorem Keeps.retrainRoundEnd (K : Keeps P) {s : State} {c : Fin 4} {eyes : List (Nat × Nat)} (hs : P s) :
    P (s.retrainRoundEnd c eyes) := by
  unfold State.retrainRoundEnd; try dsimp only
  repeat' first | with_reducible (first | assumption | apply K.ite | apply K.ite1 | apply K.ite2 | apply K.calAbandon | apply K.retrainEnd | apply K.calOver | apply K.calComplete) | with_reducible apply K.upd

theorem Keeps.scrubFull (K : Keeps P) {s : State} (hs : P s) :
    P (s.scrubFull) := by
  unfold State.scrubFull; try dsimp only
  repeat' first | with_reducible (first | assumption | apply K.ite | apply K.ite1 | apply K.ite2 | apply K.smeRequest | apply K.setCal) | with_reducible apply K.upd

theorem Keeps.scrubLeave (K : Keeps P) {s : State} {k : Fin 5} (hs : P s) :
    P (s.scrubLeave k) := by
  unfold State.scrubLeave; try dsimp only
  repeat' first | with_reducible (first | assumption | apply K.ite | apply K.ite1 | apply K.ite2 | apply K.longOutcome | apply K.smeDone | apply K.setCal) | split | refine K.fst (by assumption) ?_ | refine K.snd (by assumption) ?_ | with_reducible apply K.upd

theorem Keeps.scrubNext (K : Keeps P) {s : State} {k : Fin 5} (hs : P s) :
    P (s.scrubNext k) := by
  unfold State.scrubNext; try dsimp only
  repeat' first | with_reducible (first | assumption | apply K.ite | apply K.ite1 | apply K.ite2 | apply K.setCal | apply K.scrubLeave | apply K.ev) | with_reducible apply K.upd

theorem Keeps.codewordCorrected (K : Keeps P) {s : State} {c : Fin 4} {line req op : Nat} {x : Nat × Nat × Nat} (hs : P s) :
    P (s.codewordCorrected c line req op x) := by
  unfold State.codewordCorrected; try dsimp only
  repeat' first | with_reducible (first | assumption | apply K.ev | apply K.put | apply K.wn | apply K.wn64 | apply K.count) | with_reducible apply K.upd

theorem Keeps.correctAll (K : Keeps P) {s : State} {c : Fin 4} {line req op : Nat} {ce : List (Nat × Nat × Nat)} (hs : P s) :
    P (s.correctAll c line req op ce) := by
  unfold State.correctAll; try dsimp only
  repeat' first | with_reducible (first | assumption | apply K.codewordCorrected | apply K.foldl | apply K.foldl1) | (intro _; intros) | with_reducible apply K.upd

theorem Keeps.coreFree (K : Keeps P) {s : State} {c st : Nat} (hs : P s) :
    P (s.coreFree c st) := by
  unfold State.coreFree; try dsimp only
  repeat' first | with_reducible (first | assumption | apply K.put) | with_reducible apply K.upd

theorem Keeps.setSch (K : Keeps P) {s : State} {x : SchH} (hs : P s) :
    P (s.setSch x) := by
  unfold State.setSch; try dsimp only
  repeat' first | with_reducible (first | assumption) | with_reducible apply K.upd

theorem Keeps.setTasks (K : Keeps P) {s : State} {l : List (Nat × Task)} (hs : P s) :
    P (s.setTasks l) := by
  unfold State.setTasks; try dsimp only
  repeat' first | with_reducible (first | assumption | apply K.put | apply K.setSch | apply K.foldl | apply K.foldl1) | (intro _; intros) | with_reducible apply K.upd

theorem Keeps.putTask (K : Keeps P) {s : State} {i : Nat} {t : Task} (hs : P s) :
    P (s.putTask i t) := by
  unfold State.putTask; try dsimp only
  repeat' first | with_reducible (first | assumption | apply K.setTasks) | with_reducible apply K.upd

theorem Keeps.unrun (K : Keeps P) {s : State} {c : Nat} (hs : P s) :
    P (s.unrun c) := by
  unfold State.unrun; try dsimp only
  repeat' first | with_reducible (first | assumption | apply K.coreFree | apply K.putTask) | split | refine K.fst (by assumption) ?_ | refine K.snd (by assumption) ?_ | with_reducible apply K.upd

theorem Keeps.suspendReaders (K : Keeps P) {s : State} {c : Nat} (hs : P s) :
    P (s.suspendReaders c) := by
  unfold State.suspendReaders; try dsimp only
  repeat' first | with_reducible (first | assumption | apply K.ite | apply K.ite1 | apply K.ite2 | apply K.unrun | apply K.foldl | apply K.foldl1) | (intro _; intros) | split | refine K.fst (by assumption) ?_ | refine K.snd (by assumption) ?_ | with_reducible apply K.upd

theorem KeepsMem.freeze (K : KeepsMem P) {s : State} {c : Fin 4} {line req op : Nat} {ue : BitVec 8} {ceAny : Bool} (hs : P s) :
    P (s.freeze c line req op ue ceAny) := by
  unfold State.freeze; try dsimp only
  repeat' first | with_reducible (first | assumption | apply K.ite | apply K.ite1 | apply K.ite2 | apply K.wn | apply K.wn64 | apply K.ev | apply K.count | apply K.put | apply K.suspendReaders | apply K.acqFreeze | apply K.setDmc) | with_reducible apply K.upd

theorem KeepsMem.setLine (K : KeepsMem P) {s : State} {a : Nat} {v : BitVec 512} (hs : P s) :
    P (s.setLine a v) := by
  unfold State.setLine; try dsimp only
  repeat' first | with_reducible (first | assumption | apply K.setBytes) | with_reducible apply K.upd

theorem KeepsMem.scrubRead (K : KeepsMem P) {s : State} {k : Fin 5} {err : BitVec 640} {sram : Nat} (hs : P s) :
    P (s.scrubRead k err sram) := by
  unfold State.scrubRead; try dsimp only
  repeat' first | with_reducible (first | assumption | apply K.ite | apply K.ite1 | apply K.ite2 | apply K.scrubLeave | apply K.setCal | apply K.ev | apply K.put | apply K.count | apply K.wn64 | apply K.scrubNext | apply K.correctAll | apply K.freeze | apply K.setDmc | apply K.setLine) | split | refine K.fst (by assumption) ?_ | refine K.snd (by assumption) ?_ | with_reducible apply K.upd

theorem Keeps.smeCommitPoint (K : Keeps P) {s : State} {clocks : Nat} (hs : P s) :
    P (s.smeCommitPoint clocks) := by
  unfold State.smeCommitPoint; try dsimp only
  repeat' first | with_reducible (first | assumption | apply K.ite | apply K.ite1 | apply K.ite2 | apply K.put | apply K.calAbandon | apply K.istSliceDone | apply K.showSme | apply K.ev | apply K.count | apply K.setSme) | split | refine K.fst (by assumption) ?_ | refine K.snd (by assumption) ?_ | with_reducible apply K.upd

theorem Keeps.trainResult (K : Keeps P) {s : State} {c : Fin 4} {code lane : Nat} (hs : P s) :
    P (s.trainResult c code lane) := by
  unfold State.trainResult; try dsimp only
  repeat' first | with_reducible (first | assumption | apply K.put) | with_reducible apply K.upd

theorem Keeps.initStart (K : Keeps P) {s : State} {c : Fin 4} {first last : Nat} (hs : P s) :
    P (s.initStart c first last) := by
  unfold State.initStart; try dsimp only
  repeat' first | with_reducible (first | assumption | apply K.ite | apply K.ite1 | apply K.ite2 | apply K.setDmc | apply K.wn | apply K.put) | with_reducible apply K.upd

theorem KeepsMem.zeroChan (K : KeepsMem P) {s : State} {c : Fin 4} (hs : P s) :
    P (s.zeroChan c) := by
  unfold State.zeroChan; try dsimp only
  repeat' first | with_reducible (first | assumption | apply K.zeroMem) | with_reducible apply K.upd

theorem Keeps.giveHop (K : Keeps P) {s : State} {h : Option (Fin 7)} {rsp : Bool} (hs : P s) :
    P (s.giveHop h rsp) := by
  unfold State.giveHop; try dsimp only
  repeat' first | with_reducible (first | assumption | apply K.ite | apply K.ite1 | apply K.ite2) | split | refine K.fst (by assumption) ?_ | refine K.snd (by assumption) ?_ | with_reducible apply K.upd

theorem Keeps.takeHop (K : Keeps P) {s : State} {h : Fin 7} {rsp : Bool} (hs : P s) :
    P (s.takeHop h rsp) := by
  unfold State.takeHop; try dsimp only
  repeat' first | with_reducible (first | assumption | apply K.ite | apply K.ite1 | apply K.ite2) | with_reducible apply K.upd

theorem Keeps.passResponse (K : Keeps P) {s : State} {path : List (Fin 7)} {y2 y3 : Nat} (hs : P s) :
    P (s.passResponse path y2 y3).1 := by
  induction y2 generalizing s y3 with
  | zero => exact hs
  | succ n ih =>
    unfold State.passResponse; try dsimp only
    repeat' first | with_reducible apply ih | with_reducible (first | assumption | apply K.ite | apply K.ite1 | apply K.ite2 | apply K.giveHop | apply K.takeHop | apply K.foldl | apply K.foldl1) | (intro _; intros) | split | refine K.fst (by assumption) ?_ | refine K.snd (by assumption) ?_ | with_reducible apply K.upd

theorem Keeps.passAll (K : Keeps P) {s : State} {y1 : List FabTx} (hs : P s) :
    P (s.passAll y1).1 := by
  induction y1 generalizing s with
  | nil => exact hs
  | cons t l ih =>
    unfold State.passAll; dsimp only
    apply ih
    split
    · exact K.passResponse hs
    · exact hs

theorem Keeps.forward (K : Keeps P) {s : State} (hs : P s) :
    P (s.forward) := by
  unfold State.forward; try dsimp only
  repeat' first | with_reducible (first | assumption | apply K.passAll) | split | refine K.fst (by assumption) ?_ | refine K.snd (by assumption) ?_ | with_reducible apply K.upd

theorem Keeps.failTxs (K : Keeps P) {s : State} {p : FabTx → Bool} (hs : P s) :
    P (s.failTxs p) := by
  unfold State.failTxs; try dsimp only
  repeat' first | with_reducible (first | assumption | apply K.ite | apply K.ite1 | apply K.ite2 | apply K.forward) | with_reducible apply K.upd

end Sys2Proof.Machine
end

