-- ==== Sys2Proof/Laws/KeepB.lean ====
section
/-! SUPPORT. What the operations keep (see Keep.lean), in the order in which they call one another: part 2 of 7. -/

namespace Sys2Proof.Machine

variable {P : State → Prop}

theorem Keeps.endFreeze (K : Keeps P) {s : State} {c : Fin 4} (hs : P s) :
    P (s.endFreeze c) := by
  unfold State.endFreeze; try dsimp only
  repeat' first | with_reducible (first | assumption | apply K.failTxs | apply K.acqUnfreeze | apply K.ev | apply K.put) | with_reducible apply K.upd

theorem Keeps.trainStart (K : Keeps P) {s : State} {c : Fin 4} (hs : P s) :
    P (s.trainStart c) := by
  unfold State.trainStart; try dsimp only
  repeat' first | with_reducible (first | assumption | apply K.ite | apply K.ite1 | apply K.ite2 | apply K.endFreeze | apply K.failTxs | apply K.setDmc | apply K.put) | with_reducible apply K.upd

theorem Keeps.trainNext (K : Keeps P) {y0 : Nat} {y1 : State} (hy1 : P y1) :
    P (State.trainNext y0 y1) := by
  induction y0 generalizing y1 with
  | zero => exact hy1
  | succ n ih =>
    unfold State.trainNext; try dsimp only
    repeat' first | with_reducible apply ih | with_reducible (first | assumption | apply K.ite | apply K.ite1 | apply K.ite2 | apply K.trainStart | apply K.trainResult | apply K.foldl | apply K.foldl1) | (intro _; intros) | split | refine K.fst (by assumption) ?_ | refine K.snd (by assumption) ?_ | with_reducible apply K.upd

theorem KeepsMem.ddrTrainDone (K : KeepsMem P) {s : State} {c : Fin 4} {code lane : Nat} (hs : P s) :
    P (s.ddrTrainDone c code lane) := by
  unfold State.ddrTrainDone; try dsimp only
  repeat' first | with_reducible (first | assumption | apply K.ite | apply K.ite1 | apply K.ite2 | apply K.trainResult | apply K.initStart | apply K.put | apply K.wn | apply K.zeroChan | apply K.failTxs | apply K.ev | apply K.trainNext) | split | refine K.fst (by assumption) ?_ | refine K.snd (by assumption) ?_ | with_reducible apply K.upd

theorem Keeps.smeRoutineEnd (K : Keeps P) {s : State} (hs : P s) :
    P (s.smeRoutineEnd) := by
  unfold State.smeRoutineEnd; try dsimp only
  repeat' first | with_reducible (first | assumption | apply K.smeNext | apply K.setSme) | with_reducible apply K.upd

theorem KeepsMem.smeFailed (K : KeepsMem P) {s : State} {j : SmeJob} (hs : P s) :
    P (s.smeFailed j) := by
  unfold State.smeFailed; try dsimp only
  repeat' first | with_reducible (first | assumption | apply K.ite | apply K.ite1 | apply K.ite2 | apply K.calOver | apply K.calFail | apply K.smeDone | apply K.istSliceDone | apply K.ddrTrainDone | apply K.setDmc | apply K.longOutcome | apply K.smeRoutineEnd | apply K.setCal) | split | refine K.fst (by assumption) ?_ | refine K.snd (by assumption) ?_ | with_reducible apply K.upd

theorem KeepsMem.smeFault (K : KeepsMem P) {s : State} {patchRam : Bool} (hs : P s) :
    P (s.smeFault patchRam) := by
  unfold State.smeFault; try dsimp only
  repeat' first | with_reducible (first | assumption | apply K.ite | apply K.ite1 | apply K.ite2 | apply K.ev | apply K.count | apply K.put | apply K.smeFailed | apply K.foldl | apply K.foldl1) | (intro _; intros) | split | refine K.fst (by assumption) ?_ | refine K.snd (by assumption) ?_ | with_reducible apply K.upd

theorem Keeps.t64Write (K : Keeps P) {s : State} {p path c : Nat} (hs : P s) :
    P (s.t64Write p path c) := by
  unfold State.t64Write; try dsimp only
  repeat' first | with_reducible (first | assumption | apply K.ite | apply K.ite1 | apply K.ite2 | apply K.put | apply K.ev | apply K.count) | with_reducible apply K.upd

theorem Keeps.tempSample (K : Keeps P) {s : State} {l : List Int} (hs : P s) :
    P (s.tempSample l) := by
  unfold State.tempSample; try dsimp only
  repeat' first | with_reducible (first | assumption | apply K.ite | apply K.ite1 | apply K.ite2 | apply K.ev | apply K.put | apply K.setPending | apply K.foldl | apply K.foldl1) | (intro _; intros) | split | refine K.fst (by assumption) ?_ | refine K.snd (by assumption) ?_ | with_reducible apply K.upd

theorem Keeps.updateTx (K : Keeps P) {s : State} {t : FabTx} {f : FabTx → FabTx} (hs : P s) :
    P (s.updateTx t f) := by
  unfold State.updateTx; try dsimp only
  repeat' first | with_reducible (first | assumption | apply K.forward) | with_reducible apply K.upd

theorem KeepsMem.doWrite (K : KeepsMem P) {s : State} {t : FabTx} (hs : P s) :
    P (s.doWrite t) := by
  unfold State.doWrite; try dsimp only
  repeat' first | with_reducible (first | assumption | apply K.setLine) | split | refine K.fst (by assumption) ?_ | refine K.snd (by assumption) ?_ | with_reducible apply K.upd

theorem KeepsMem.completeHalf (K : KeepsMem P) {s : State} {h : Fin 2} (hs : P s) :
    P (s.completeHalf h) := by
  unfold State.completeHalf; try dsimp only
  repeat' first | with_reducible (first | assumption | apply K.ite | apply K.ite1 | apply K.ite2 | apply K.updateTx | apply K.doWrite | apply K.foldl | apply K.foldl1) | (intro _; intros) | with_reducible apply K.upd

theorem KeepsMem.cxlCmp (K : KeepsMem P) {s : State} {i : Nat} (hs : P s) :
    P (s.cxlCmp i) := by
  unfold State.cxlCmp; try dsimp only
  repeat' first | with_reducible (first | assumption | apply K.ite | apply K.ite1 | apply K.ite2 | apply K.updateTx | apply K.doWrite) | split | refine K.fst (by assumption) ?_ | refine K.snd (by assumption) ?_ | with_reducible apply K.upd

theorem Keeps.halfEnter (K : Keeps P) {s : State} {h : Fin 2} {st : Nat} (hs : P s) :
    P (s.halfEnter h st) := by
  unfold State.halfEnter; try dsimp only
  repeat' first | with_reducible (first | assumption | apply K.put) | with_reducible apply K.upd

theorem Keeps.draw (K : Keeps P) {s : State} (hs : P s) :
    P (s.draw).2 := by
  unfold State.draw; try dsimp only
  repeat' first | with_reducible (first | assumption) | with_reducible apply K.upd

theorem KeepsMem.failHalf (K : KeepsMem P) {s : State} {h : Fin 2} (hs : P s) :
    P (s.failHalf h) := by
  unfold State.failHalf; try dsimp only
  repeat' first | with_reducible (first | assumption | apply K.failTxs | apply K.draw | apply K.setLine | apply K.count | apply K.foldl | apply K.foldl1) | (intro _; intros) | split | refine K.fst (by assumption) ?_ | refine K.snd (by assumption) ?_ | with_reducible apply K.upd

theorem KeepsMem.cxlOff (K : KeepsMem P) {s : State} {complete : Bool} (hs : P s) :
    P (s.cxlOff complete) := by
  unfold State.cxlOff; try dsimp only
  repeat' first | with_reducible (first | assumption | apply K.ite | apply K.ite1 | apply K.ite2 | apply K.halfEnter | apply K.completeHalf | apply K.failHalf | apply K.foldl | apply K.foldl1) | (intro _; intros) | with_reducible apply K.upd

theorem KeepsMem.cxlDisable (K : KeepsMem P) {s : State} (hs : P s) :
    P (s.cxlDisable) := by
  unfold State.cxlDisable; try dsimp only
  repeat' first | with_reducible (first | assumption | apply K.put | apply K.cxlOff) | with_reducible apply K.upd

theorem Keeps.cxlTrain (K : Keeps P) {s : State} (hs : P s) :
    P (s.cxlTrain) := by
  unfold State.cxlTrain; try dsimp only
  repeat' first | with_reducible (first | assumption | apply K.ite | apply K.ite1 | apply K.ite2 | apply K.halfEnter | apply K.foldl | apply K.foldl1) | (intro _; intros) | with_reducible apply K.upd

theorem Keeps.cxlEnable (K : Keeps P) {s : State} (hs : P s) :
    P (s.cxlEnable) := by
  unfold State.cxlEnable; try dsimp only
  repeat' first | with_reducible (first | assumption | apply K.ite | apply K.ite1 | apply K.ite2 | apply K.put | apply K.cxlTrain) | with_reducible apply K.upd

theorem Keeps.cxlErr (K : Keeps P) {s : State} {kind : Nat} {t : FabTx} (hs : P s) :
    P (s.cxlErr kind t) := by
  unfold State.cxlErr; try dsimp only
  repeat' first | with_reducible (first | assumption | apply K.put | apply K.wn64) | with_reducible apply K.upd

theorem Keeps.notePort (K : Keeps P) {s : State} {p : Fin 8} (hs : P s) :
    P (s.notePort p) := by
  unfold State.notePort; try dsimp only
  repeat' first | with_reducible (first | assumption | apply K.ite | apply K.ite1 | apply K.ite2 | apply K.wn) | with_reducible apply K.upd

theorem Keeps.endedPause (K : Keeps P) {s : State} {p : Fin 8} (hs : P s) :
    P (s.endedPause p) := by
  unfold State.endedPause; try dsimp only
  repeat' first | with_reducible (first | assumption | apply K.draw | apply K.wn64 | apply K.wr | apply K.count) | split | refine K.fst (by assumption) ?_ | refine K.snd (by assumption) ?_ | with_reducible apply K.upd

theorem Keeps.countHold (K : Keeps P) {s : State} {p : Fin 8} {until_ : Nat} (hs : P s) :
    P (s.countHold p until_) := by
  unfold State.countHold; try dsimp only
  repeat' first | with_reducible (first | assumption | apply K.count) | with_reducible apply K.upd

theorem Keeps.levelTo (K : Keeps P) {s : State} {code : Nat} {level : Bool} (hs : P s) :
    P (s.levelTo code level) := by
  unfold State.levelTo; try dsimp only
  repeat' first | with_reducible (first | assumption | apply K.riseWhere) | with_reducible apply K.upd

theorem Keeps.setMarker (K : Keeps P) {s : State} {p : Fin 8} {k : Nat} {level : Bool} (hs : P s) :
    P (s.setMarker p k level) := by
  unfold State.setMarker; try dsimp only
  repeat' first | with_reducible (first | assumption | apply K.ite | apply K.ite1 | apply K.ite2 | apply K.put | apply K.levelTo) | with_reducible apply K.upd

theorem KeepsMem.ramLog (K : KeepsMem P) {s : State} {p : Fin 8} {kind : Nat} (hs : P s) :
    P (s.ramLog p kind) := by
  unfold State.ramLog; try dsimp only
  repeat' first | with_reducible (first | assumption | apply K.ite | apply K.ite1 | apply K.ite2 | apply K.setPort | apply K.ev | apply K.count | apply K.wn | apply K.setBytes) | split | refine K.fst (by assumption) ?_ | refine K.snd (by assumption) ?_ | with_reducible apply K.upd

theorem KeepsMem.ramEnd (K : KeepsMem P) {s : State} {p : Fin 8} (hs : P s) :
    P (s.ramEnd p) := by
  unfold State.ramEnd; try dsimp only
  repeat' first | with_reducible (first | assumption | apply K.ite | apply K.ite1 | apply K.ite2 | apply K.ramLog | apply K.put | apply K.setPort) | split | refine K.fst (by assumption) ?_ | refine K.snd (by assumption) ?_ | with_reducible apply K.upd

theorem Keeps.oweReceipt (K : Keeps P) {s : State} {p : Fin 8} {done : Bool} (hs : P s) :
    P (s.oweReceipt p done) := by
  unfold State.oweReceipt; try dsimp only
  repeat' first | with_reducible (first | assumption | apply K.ite | apply K.ite1 | apply K.ite2 | apply K.setPort) | split | refine K.fst (by assumption) ?_ | refine K.snd (by assumption) ?_ | with_reducible apply K.upd

theorem Keeps.setDpl (K : Keeps P) {s : State} {d : Fin 12} {x : DplH} (hs : P s) :
    P (s.setDpl d x) := by
  unfold State.setDpl; try dsimp only
  repeat' first | with_reducible (first | assumption) | with_reducible apply K.upd

theorem Keeps.loadLfsr (K : Keeps P) {s : State} {d : Fin 12} (hs : P s) :
    P (s.loadLfsr d) := by
  unfold State.loadLfsr; try dsimp only
  repeat' first | with_reducible (first | assumption | apply K.ite | apply K.ite1 | apply K.ite2 | apply K.setDpl) | with_reducible apply K.upd

theorem Keeps.acquire (K : Keeps P) {s : State} {d : Fin 12} (hs : P s) :
    P (s.acquire d) := by
  unfold State.acquire; try dsimp only
  repeat' first | with_reducible (first | assumption | apply K.loadLfsr | apply K.put | apply K.setDpl) | with_reducible apply K.upd

theorem Keeps.pauseUnit (K : Keeps P) {s : State} {d : Fin 12} (hs : P s) :
    P (s.pauseUnit d) := by
  unfold State.pauseUnit; try dsimp only
  repeat' first | with_reducible (first | assumption | apply K.ite | apply K.ite1 | apply K.ite2 | apply K.setSeq) | split | refine K.fst (by assumption) ?_ | refine K.snd (by assumption) ?_ | with_reducible apply K.upd

theorem Keeps.relock (K : Keeps P) {s : State} {d : Fin 12} (hs : P s) :
    P (s.relock d) := by
  unfold State.relock; try dsimp only
  repeat' first | with_reducible (first | assumption | apply K.acquire | apply K.pauseUnit | apply K.count | apply K.setDpl) | with_reducible apply K.upd

theorem Keeps.follow (K : Keeps P) {s : State} {d : Fin 12} {present : Rate} {sameDiv : Bool} (hs : P s) :
    P (s.follow d present sameDiv) := by
  unfold State.follow; try dsimp only
  repeat' first | with_reducible (first | assumption | apply K.ite | apply K.ite1 | apply K.ite2 | apply K.put | apply K.setDpl | apply K.relock) | with_reducible apply K.upd

theorem Keeps.setOffset (K : Keeps P) {s : State} {p : Fin 8} {o : Int} (hs : P s) :
    P (s.setOffset p o) := by
  unfold State.setOffset; try dsimp only
  repeat' first | with_reducible (first | assumption | apply K.ite | apply K.ite1 | apply K.ite2 | apply K.wn | apply K.count | apply K.follow) | with_reducible apply K.upd

theorem Keeps.showHeld (K : Keeps P) {s : State} {d : Fin 12} {r : Option JumpReq} (hs : P s) :
    P (s.showHeld d r) := by
  unfold State.showHeld; try dsimp only
  repeat' first | with_reducible (first | assumption | apply K.ite | apply K.ite1 | apply K.ite2 | apply K.wn | apply K.put) | split | refine K.fst (by assumption) ?_ | refine K.snd (by assumption) ?_ | with_reducible apply K.upd

theorem Keeps.discardTxs (K : Keeps P) {s : State} {d : Fin 12} {p : FabDest → Bool} (hs : P s) :
    P (s.discardTxs d p) := by
  unfold State.discardTxs; try dsimp only
  repeat' first | with_reducible (first | assumption | apply K.ite | apply K.ite1 | apply K.ite2) | with_reducible apply K.upd

theorem Keeps.endStream (K : Keeps P) {s : State} {d : Fin 12} (hs : P s) :
    P (s.endStream d) := by
  unfold State.endStream; try dsimp only
  repeat' first | with_reducible (first | assumption | apply K.ite | apply K.ite1 | apply K.ite2 | apply K.discardTxs | apply K.setSeq) | with_reducible apply K.upd

theorem KeepsMem.portLeave (K : KeepsMem P) {s : State} {p : Fin 8} {st cause code : Nat} {cancelled : Bool} (hs : P s) :
    P (s.portLeave p st cause code cancelled) := by
  unfold State.portLeave; try dsimp only
  repeat' first | with_reducible (first | assumption | apply K.ite | apply K.ite1 | apply K.ite2 | apply K.flushPort | apply K.notePort | apply K.endedPause | apply K.countHold | apply K.put | apply K.setMarker | apply K.ramEnd | apply K.oweReceipt | apply K.setOffset | apply K.wn | apply K.showHeld | apply K.endStream | apply K.setPort | apply K.acqPortEnds | apply K.ev | apply K.foldl | apply K.foldl1) | (intro _; intros) | split | refine K.fst (by assumption) ?_ | refine K.snd (by assumption) ?_ | with_reducible apply K.upd

theorem KeepsMem.strmAbort (K : KeepsMem P) {s : State} {p : Fin 8} {code v addr : Nat} (hs : P s) :
    P (s.strmAbort p code v addr) := by
  unfold State.strmAbort; try dsimp only
  repeat' first | with_reducible (first | assumption | apply K.portLeave | apply K.wn64 | apply K.put) | with_reducible apply K.upd

theorem Keeps.setWfg (K : Keeps P) {s : State} {m : Fin 4} {x : WfgH} (hs : P s) :
    P (s.setWfg m x) := by
  unfold State.setWfg; try dsimp only
  repeat' first | with_reducible (first | assumption) | with_reducible apply K.upd

theorem Keeps.wfgMarkers (K : Keeps P) {s : State} {m : Fin 4} {k t : Nat} (hs : P s) :
    P (s.wfgMarkers m k t) := by
  unfold State.wfgMarkers; try dsimp only
  repeat' first | with_reducible (first | assumption | apply K.ite | apply K.ite1 | apply K.ite2 | apply K.setWfg | apply K.levelTo | apply K.foldl | apply K.foldl1) | (intro _; intros) | with_reducible apply K.upd

theorem Keeps.wfgEnd (K : Keeps P) {s : State} {m : Fin 4} {st code : Nat} {cancelled : Bool} (hs : P s) :
    P (s.wfgEnd m st code cancelled) := by
  unfold State.wfgEnd; try dsimp only
  repeat' first | with_reducible (first | assumption | apply K.ite | apply K.ite1 | apply K.ite2 | apply K.put | apply K.ev | apply K.endStream | apply K.wn | apply K.setSeq | apply K.wfgMarkers | apply K.setWfg) | with_reducible apply K.upd

theorem KeepsMem.farLinkAborts (K : KeepsMem P) {s : State} {open_ : List FabTx} (hs : P s) :
    P (s.farLinkAborts open_) := by
  unfold State.farLinkAborts; try dsimp only
  repeat' first | with_reducible (first | assumption | apply K.ite | apply K.ite1 | apply K.ite2 | apply K.strmAbort | apply K.wfgEnd | apply K.foldl | apply K.foldl1) | (intro _; intros) | split | refine K.fst (by assumption) ?_ | refine K.snd (by assumption) ?_ | with_reducible apply K.upd

theorem KeepsMem.cxlRecoveryEnter (K : KeepsMem P) {s : State} {h : Fin 2} (hs : P s) :
    P (s.cxlRecoveryEnter h) := by
  unfold State.cxlRecoveryEnter; try dsimp only
  repeat' first | with_reducible (first | assumption | apply K.ite | apply K.ite1 | apply K.ite2 | apply K.farLinkAborts | apply K.ev | apply K.count | apply K.halfEnter | apply K.failHalf) | with_reducible apply K.upd

theorem KeepsMem.cxlIdeFail (K : KeepsMem P) {s : State} {h : Fin 2} (hs : P s) :
    P (s.cxlIdeFail h) := by
  unfold State.cxlIdeFail; try dsimp only
  repeat' first | with_reducible (first | assumption | apply K.ite | apply K.ite1 | apply K.ite2 | apply K.cxlRecoveryEnter | apply K.ev | apply K.count) | with_reducible apply K.upd

theorem KeepsMem.cxlLinkDown (K : KeepsMem P) {s : State} {h : Fin 2} (hs : P s) :
    P (s.cxlLinkDown h) := by
  unfold State.cxlLinkDown; try dsimp only
  repeat' first | with_reducible (first | assumption | apply K.ite | apply K.ite1 | apply K.ite2 | apply K.ev | apply K.halfEnter | apply K.failHalf) | with_reducible apply K.upd

theorem Keeps.cxlMemData (K : Keeps P) {s : State} {i : Nat} {poison : Bool} {replays : Nat} (hs : P s) :
    P (s.cxlMemData i poison replays) := by
  unfold State.cxlMemData; try dsimp only
  repeat' first | with_reducible (first | assumption | apply K.ite | apply K.ite1 | apply K.ite2 | apply K.count | apply K.ev | apply K.cxlErr | apply K.updateTx) | split | refine K.fst (by assumption) ?_ | refine K.snd (by assumption) ?_ | with_reducible apply K.upd

theorem Keeps.cxlRecords (K : Keeps P) {s : State} {y1 : Nat} (hs : P s) :
    P (s.cxlRecords y1) := by
  induction y1 generalizing s with
  | zero => exact hs
  | succ n ih =>
    unfold State.cxlRecords; try dsimp only
    repeat' first | with_reducible apply ih | with_reducible (first | assumption | apply K.ite | apply K.ite1 | apply K.ite2 | apply K.ev | apply K.count | apply K.foldl | apply K.foldl1) | (intro _; intros) | split | refine K.fst (by assumption) ?_ | refine K.snd (by assumption) ?_ | with_reducible apply K.upd

theorem Keeps.cxlMsix (K : Keeps P) {s : State} {h : Fin 2} {records : Nat} (hs : P s) :
    P (s.cxlMsix h records) := by
  unfold State.cxlMsix; try dsimp only
  repeat' first | with_reducible (first | assumption | apply K.ite | apply K.ite1 | apply K.ite2 | apply K.cxlRecords) | with_reducible apply K.upd

theorem Keeps.putTx (K : Keeps P) {s : State} {t : FabTx} (hs : P s) :
    P (s.putTx t) := by
  unfold State.putTx; try dsimp only
  repeat' first | with_reducible (first | assumption | apply K.forward) | with_reducible apply K.upd

theorem Keeps.setCxh (K : Keeps P) {s : State} {h : Fin 2} {x : CxhH} (hs : P s) :
    P (s.setCxh h x) := by
  unfold State.setCxh; try dsimp only
  repeat' first | with_reducible (first | assumption) | with_reducible apply K.upd

theorem KeepsMem.cxlReadTimeout (K : KeepsMem P) {s : State} {i : Nat} (hs : P s) :
    P (s.cxlReadTimeout i) := by
  unfold State.cxlReadTimeout; try dsimp only
  repeat' first | with_reducible (first | assumption | apply K.ite | apply K.ite1 | apply K.ite2 | apply K.advanceTo | apply K.ev | apply K.cxlErr | apply K.count | apply K.updateTx | apply K.putTx | apply K.setCxh | apply K.cxlRecoveryEnter) | split | refine K.fst (by assumption) ?_ | refine K.snd (by assumption) ?_ | with_reducible apply K.upd

theorem Keeps.cxlRecoveryExit (K : Keeps P) {s : State} {h : Fin 2} (hs : P s) :
    P (s.cxlRecoveryExit h) := by
  unfold State.cxlRecoveryExit; try dsimp only
  repeat' first | with_reducible (first | assumption | apply K.ite | apply K.ite1 | apply K.ite2 | apply K.ev | apply K.halfEnter) | with_reducible apply K.upd

theorem Keeps.cxlReenum (K : Keeps P) {s : State} (hs : P s) :
    P (s.cxlReenum) := by
  unfold State.cxlReenum; try dsimp only
  repeat' first | with_reducible (first | assumption | apply K.ite | apply K.ite1 | apply K.ite2 | apply K.setCxh | apply K.halfEnter | apply K.foldl | apply K.foldl1) | (intro _; intros) | with_reducible apply K.upd

theorem Keeps.cxlRetry (K : Keeps P) {s : State} {h : Fin 2} (hs : P s) :
    P (s.cxlRetry h) := by
  unfold State.cxlRetry; try dsimp only
  repeat' first | with_reducible (first | assumption | apply K.ite | apply K.ite1 | apply K.ite2 | apply K.halfEnter) | with_reducible apply K.upd

theorem Keeps.cxlSetup (K : Keeps P) {s : State} {h : Fin 2} {width speed fail : Nat} {ide : Bool} {cap records : Nat} (hs : P s) :
    P (s.cxlSetup h width speed fail ide cap records) := by
  unfold State.cxlSetup; try dsimp only
  repeat' first | with_reducible (first | assumption | apply K.ite | apply K.ite1 | apply K.ite2 | apply K.put | apply K.ev | apply K.halfEnter | apply K.evIf | apply K.cxlRecords) | with_reducible apply K.upd

theorem Keeps.cxlWindowEnd (K : Keeps P) {s : State} {h : Fin 2} (hs : P s) :
    P (s.cxlWindowEnd h) := by
  unfold State.cxlWindowEnd; try dsimp only
  repeat' first | with_reducible (first | assumption | apply K.ite | apply K.ite1 | apply K.ite2 | apply K.setCxh | apply K.ev | apply K.halfEnter) | with_reducible apply K.upd

theorem Keeps.ddrInitGranule (K : Keeps P) {s : State} {c : Fin 4} (hs : P s) :
    P (s.ddrInitGranule c) := by
  unfold State.ddrInitGranule; try dsimp only
  repeat' first | with_reducible (first | assumption | apply K.ite | apply K.ite1 | apply K.ite2 | apply K.setDmc | apply K.wn | apply K.ev | apply K.put) | split | refine K.fst (by assumption) ?_ | refine K.snd (by assumption) ?_ | with_reducible apply K.upd

theorem Keeps.ddrMr4 (K : Keeps P) {s : State} {c : Fin 4} {v : Nat} (hs : P s) :
    P (s.ddrMr4 c v) := by
  unfold State.ddrMr4; try dsimp only
  repeat' first | with_reducible (first | assumption | apply K.setDmc) | with_reducible apply K.upd

theorem Keeps.dmcServe (K : Keeps P) {s : State} {c : Fin 4} {x : DmcCand} (hs : P s) :
    P (s.dmcServe c x) := by
  unfold State.dmcServe; try dsimp only
  repeat' first | with_reducible (first | assumption | apply K.ite | apply K.ite1 | apply K.ite2 | apply K.setDmc | apply K.count) | with_reducible apply K.upd

theorem KeepsMem.ddrReadComplete (K : KeepsMem P) {s : State} {c : Fin 4} {err : BitVec 640} (hs : P s) :
    P (s.ddrReadComplete c err) := by
  unfold State.ddrReadComplete; try dsimp only
  repeat' first | with_reducible (first | assumption | apply K.ite | apply K.ite1 | apply K.ite2 | apply K.dmcServe | apply K.updateTx | apply K.correctAll | apply K.freeze) | split | refine K.fst (by assumption) ?_ | refine K.snd (by assumption) ?_ | with_reducible apply K.upd

theorem Keeps.ddrRefresh (K : Keeps P) {s : State} {c : Fin 4} {postpone : Bool} (hs : P s) :
    P (s.ddrRefresh c postpone) := by
  unfold State.ddrRefresh; try dsimp only
  repeat' first | with_reducible (first | assumption | apply K.ite | apply K.ite1 | apply K.ite2 | apply K.count | apply K.setDmc | apply K.evIf) | with_reducible apply K.upd

theorem KeepsMem.ddrWriteIssued (K : KeepsMem P) {s : State} {c : Fin 4} {err : BitVec 640} (hs : P s) :
    P (s.ddrWriteIssued c err) := by
  unfold State.ddrWriteIssued; try dsimp only
  repeat' first | with_reducible (first | assumption | apply K.ite | apply K.ite1 | apply K.ite2 | apply K.dmcServe | apply K.correctAll | apply K.freeze | apply K.setLine | apply K.updateTx | apply K.setDmc) | split | refine K.fst (by assumption) ?_ | refine K.snd (by assumption) ?_ | with_reducible apply K.upd

theorem Keeps.showDiag (K : Keeps P) {s : State} {c : Fin 4} {raw : Nat} {l : List CwRead} (hs : P s) :
    P (s.showDiag c raw l) := by
  unfold State.showDiag; try dsimp only
  repeat' first | with_reducible (first | assumption | apply K.wn | apply K.put | apply K.foldl | apply K.foldl1) | (intro _; intros) | split | refine K.fst (by assumption) ?_ | refine K.snd (by assumption) ?_ | with_reducible apply K.upd

theorem KeepsMem.diagDone (K : KeepsMem P) {s : State} {c : Fin 4} {err : BitVec 640} (hs : P s) :
    P (s.diagDone c err) := by
  unfold State.diagDone; try dsimp only
  repeat' first | with_reducible (first | assumption | apply K.ite | apply K.ite1 | apply K.ite2 | apply K.setDmc | apply K.setLine | apply K.put | apply K.showDiag) | split | refine K.fst (by assumption) ?_ | refine K.snd (by assumption) ?_ | with_reducible apply K.upd

theorem Keeps.diagStart (K : Keeps P) {s : State} {c : Fin 4} {op : Nat} (hs : P s) :
    P (s.diagStart c op) := by
  unfold State.diagStart; try dsimp only
  repeat' first | with_reducible (first | assumption | apply K.ite | apply K.ite1 | apply K.ite2 | apply K.put | apply K.setDmc) | with_reducible apply K.upd

theorem KeepsMem.dmcDown (K : KeepsMem P) {s : State} {c : Fin 4} (hs : P s) :
    P (s.dmcDown c) := by
  unfold State.dmcDown; try dsimp only
  repeat' first | with_reducible (first | assumption | apply K.ite | apply K.ite1 | apply K.ite2 | apply K.setDmc | apply K.zeroMem | apply K.put | apply K.failTxs | apply K.zeroChan) | with_reducible apply K.upd

theorem Keeps.freezeRelease (K : Keeps P) {s : State} {c : Fin 4} (hs : P s) :
    P (s.freezeRelease c) := by
  unfold State.freezeRelease; try dsimp only
  repeat' first | with_reducible (first | assumption | apply K.ite | apply K.ite1 | apply K.ite2 | apply K.endFreeze) | with_reducible apply K.upd

theorem KeepsMem.retentionReturn (K : KeepsMem P) {s : State} {c : Fin 4} {lost : Bool} {err : BitVec 640} {line : Nat} (hs : P s) :
    P (s.retentionReturn c lost err line) := by
  unfold State.retentionReturn; try dsimp only
  repeat' first | with_reducible (first | assumption | apply K.ite | apply K.ite1 | apply K.ite2 | apply K.ev | apply K.failTxs | apply K.put | apply K.zeroChan | apply K.initStart | apply K.draw | apply K.correctAll | apply K.freeze) | split | refine K.fst (by assumption) ?_ | refine K.snd (by assumption) ?_ | with_reducible apply K.upd

theorem Keeps.retrainStart (K : Keeps P) {s : State} {c : Fin 4} (hs : P s) :
    P (s.retrainStart c) := by
  unfold State.retrainStart; try dsimp only
  repeat' first | with_reducible (first | assumption | apply K.ite | apply K.ite1 | apply K.ite2 | apply K.setDmc) | with_reducible apply K.upd

theorem Keeps.retrainStep (K : Keeps P) {s : State} {c : Fin 4} {sub : Nat} {late : Bool} (hs : P s) :
    P (s.retrainStep c sub late) := by
  unfold State.retrainStep; try dsimp only
  repeat' first | with_reducible (first | assumption | apply K.ite | apply K.ite1 | apply K.ite2 | apply K.setDmc | apply K.advanceTo) | split | refine K.fst (by assumption) ?_ | refine K.snd (by assumption) ?_ | with_reducible apply K.upd

theorem Keeps.armedPauseEnd (K : Keeps P) {s : State} {p : Fin 8} (hs : P s) :
    P (s.armedPauseEnd p) := by
  unfold State.armedPauseEnd; try dsimp only
  repeat' first | with_reducible (first | assumption | apply K.setSeq | apply K.wn64 | apply K.wr | apply K.count | apply K.draw) | with_reducible apply K.upd

theorem Keeps.ceiling (K : Keeps P) {s : State} {clk : Option (Fin 12)} (hs : P s) :
    P (s.ceiling clk) := by
  unfold State.ceiling; try dsimp only
  repeat' first | with_reducible (first | assumption | apply K.ev | apply K.count) | split | refine K.fst (by assumption) ?_ | refine K.snd (by assumption) ?_ | with_reducible apply K.upd

theorem Keeps.dplEnterFail (K : Keeps P) {s : State} {d : Fin 12} (hs : P s) :
    P (s.dplEnterFail d) := by
  unfold State.dplEnterFail; try dsimp only
  repeat' first | with_reducible (first | assumption | apply K.ev | apply K.setBit | apply K.put | apply K.setDpl) | with_reducible apply K.upd

theorem Keeps.dplHandover (K : Keeps P) {s : State} {d : Fin 12} (hs : P s) :
    P (s.dplHandover d) := by
  unfold State.dplHandover; try dsimp only
  repeat' first | with_reducible (first | assumption | apply K.ite | apply K.ite1 | apply K.ite2 | apply K.put) | with_reducible apply K.upd

theorem Keeps.dplHoldToAcquire (K : Keeps P) {s : State} {d : Fin 12} (hs : P s) :
    P (s.dplHoldToAcquire d) := by
  unfold State.dplHoldToAcquire; try dsimp only
  repeat' first | with_reducible (first | assumption | apply K.ite | apply K.ite1 | apply K.ite2 | apply K.acquire) | with_reducible apply K.upd

theorem Keeps.dplLock (K : Keeps P) {s : State} {d : Fin 12} (hs : P s) :
    P (s.dplLock d) := by
  unfold State.dplLock; try dsimp only
  repeat' first | with_reducible (first | assumption | apply K.ite | apply K.ite1 | apply K.ite2 | apply K.put | apply K.wn) | with_reducible apply K.upd

theorem Keeps.dplLost (K : Keeps P) {s : State} {d : Fin 12} (hs : P s) :
    P (s.dplLost d) := by
  unfold State.dplLost; try dsimp only
  repeat' first | with_reducible (first | assumption | apply K.ev | apply K.setBit | apply K.put) | with_reducible apply K.upd

theorem Keeps.dplLoss (K : Keeps P) {s : State} {d : Fin 12} (hs : P s) :
    P (s.dplLoss d) := by
  unfold State.dplLoss; try dsimp only
  repeat' first | with_reducible (first | assumption | apply K.ite | apply K.ite1 | apply K.ite2 | apply K.dplLost | apply K.count | apply K.acquire | apply K.put | apply K.pauseUnit | apply K.setDpl) | split | refine K.fst (by assumption) ?_ | refine K.snd (by assumption) ?_ | with_reducible apply K.upd

theorem Keeps.dplRampSettled (K : Keeps P) {s : State} {d : Fin 12} (hs : P s) :
    P (s.dplRampSettled d) := by
  unfold State.dplRampSettled; try dsimp only
  repeat' first | with_reducible (first | assumption | apply K.ite | apply K.ite1 | apply K.ite2 | apply K.put) | with_reducible apply K.upd

theorem Keeps.dplRampUpdate (K : Keeps P) {s : State} {d : Fin 12} (hs : P s) :
    P (s.dplRampUpdate d) := by
  unfold State.dplRampUpdate; try dsimp only
  repeat' first | with_reducible (first | assumption | apply K.ite | apply K.ite1 | apply K.ite2 | apply K.setDpl) | split | refine K.fst (by assumption) ?_ | refine K.snd (by assumption) ?_ | with_reducible apply K.upd

theorem Keeps.dplReseed (K : Keeps P) {s : State} {d : Fin 12} (hs : P s) :
    P (s.dplReseed d) := by
  unfold State.dplReseed; try dsimp only
  repeat' first | with_reducible (first | assumption | apply K.ite | apply K.ite1 | apply K.ite2 | apply K.loadLfsr) | with_reducible apply K.upd

theorem Keeps.dplRun (K : Keeps P) {s : State} {d : Fin 12} (hs : P s) :
    P (s.dplRun d) := by
  unfold State.dplRun; try dsimp only
  repeat' first | with_reducible (first | assumption | apply K.ite | apply K.ite1 | apply K.ite2 | apply K.put | apply K.acquire) | with_reducible apply K.upd

theorem Keeps.dplRunOff (K : Keeps P) {s : State} {d : Fin 12} (hs : P s) :
    P (s.dplRunOff d) := by
  unfold State.dplRunOff; try dsimp only
  repeat' first | with_reducible (first | assumption | apply K.ite | apply K.ite1 | apply K.ite2 | apply K.put | apply K.setDpl) | with_reducible apply K.upd

theorem Keeps.dplSettled (K : Keeps P) {s : State} {d : Fin 12} {phase : Nat} (hs : P s) :
    P (s.dplSettled d phase) := by
  unfold State.dplSettled; try dsimp only
  repeat' first | with_reducible (first | assumption | apply K.ite | apply K.ite1 | apply K.ite2 | apply K.put | apply K.evIf | apply K.setDpl | apply K.armedPauseEnd | apply K.setSeq) | split | refine K.fst (by assumption) ?_ | refine K.snd (by assumption) ?_ | with_reducible apply K.upd

theorem Keeps.phaseReq (K : Keeps P) {s : State} {d : Fin 12} (hs : P s) :
    P (s.phaseReq d) := by
  unfold State.phaseReq; try dsimp only
  repeat' first | with_reducible (first | assumption | apply K.ite | apply K.ite1 | apply K.ite2 | apply K.setDpl) | with_reducible apply K.upd

theorem Keeps.phaseSample (K : Keeps P) {s0 : State} {d : Fin 12} {ofs : BitVec 19} (hs0 : P s0) :
    P (s0.phaseSample d ofs) := by
  unfold State.phaseSample; try dsimp only
  repeat' first | with_reducible (first | assumption | apply K.ite | apply K.ite1 | apply K.ite2 | apply K.advance | apply K.put | apply K.wn64 | apply K.setDpl) | with_reducible apply K.upd

theorem Keeps.setNet (K : Keeps P) {s : State} {x : NetH} (hs : P s) :
    P (s.setNet x) := by
  unfold State.setNet; try dsimp only
  repeat' first | with_reducible (first | assumption) | with_reducible apply K.upd

theorem Keeps.police (K : Keeps P) {s : State} {p : Fin 2} {mac : Nat} (hs : P s) :
    P (s.police p mac).1 := by
  unfold State.police; try dsimp only
  repeat' first | with_reducible (first | assumption | apply K.ite | apply K.ite1 | apply K.ite2 | apply K.count | apply K.setNet | apply K.ev) | split | refine K.fst (by assumption) ?_ | refine K.snd (by assumption) ?_ | with_reducible apply K.upd

theorem Keeps.rxCount (K : Keeps P) {s : State} {p : Fin 2} (hs : P s) :
    P (s.rxCount p) := by
  unfold State.rxCount; try dsimp only
  repeat' first | with_reducible (first | assumption | apply K.count) | with_reducible apply K.upd

theorem Keeps.transmit (K : Keeps P) {s : State} {port : Nat} {x : NetOut} (hs : P s) :
    P (s.transmit port x) := by
  unfold State.transmit; try dsimp only
  repeat' first | with_reducible (first | assumption | apply K.count | apply K.setNet) | with_reducible apply K.upd

theorem Keeps.arpRequest (K : Keeps P) {s : State} {p : Fin 2} {target mac ip : Nat} (hs : P s) :
    P (s.arpRequest p target mac ip) := by
  unfold State.arpRequest; try dsimp only
  repeat' first | with_reducible (first | assumption | apply K.ite | apply K.ite1 | apply K.ite2 | apply K.police | apply K.rxCount | apply K.transmit) | split | refine K.fst (by assumption) ?_ | refine K.snd (by assumption) ?_ | with_reducible apply K.upd

theorem Keeps.showAddr (K : Keeps P) {s : State} {p : Fin 2} {v4 : Bool} (hs : P s) :
    P (s.showAddr p v4) := by
  unfold State.showAddr; try dsimp only
  repeat' first | with_reducible (first | assumption | apply K.ite | apply K.ite1 | apply K.ite2 | apply K.put) | with_reducible apply K.upd

theorem Keeps.setNetPort (K : Keeps P) {s : State} {p : Fin 2} {x : NetPortH} (hs : P s) :
    P (s.setNetPort p x) := by
  unfold State.setNetPort; try dsimp only
  repeat' first | with_reducible (first | assumption | apply K.setNet) | with_reducible apply K.upd

theorem Keeps.dadDone (K : Keeps P) {s : State} {p : Fin 2} {global duplicate : Bool} (hs : P s) :
    P (s.dadDone p global duplicate) := by
  unfold State.dadDone; try dsimp only
  repeat' first | with_reducible (first | assumption | apply K.ite | apply K.ite1 | apply K.ite2 | apply K.put | apply K.showAddr | apply K.setNetPort) | with_reducible apply K.upd

theorem Keeps.v4Valid (K : Keeps P) {s : State} {p : Fin 2} (hs : P s) :
    P (s.v4Valid p) := by
  unfold State.v4Valid; try dsimp only
  repeat' first | with_reducible (first | assumption | apply K.showAddr | apply K.transmit) | with_reducible apply K.upd

theorem Keeps.dhcpLease (K : Keeps P) {s : State} {p : Fin 2} {ip secs : Nat} (hs : P s) :
    P (s.dhcpLease p ip secs) := by
  unfold State.dhcpLease; try dsimp only
  repeat' first | with_reducible (first | assumption | apply K.ite | apply K.ite1 | apply K.ite2 | apply K.v4Valid | apply K.setNetPort) | with_reducible apply K.upd

theorem Keeps.sessEnter (K : Keeps P) {s : State} {k : Fin 8} {st : Nat} (hs : P s) :
    P (s.sessEnter k st) := by
  unfold State.sessEnter; try dsimp only
  repeat' first | with_reducible (first | assumption | apply K.ite | apply K.ite1 | apply K.ite2 | apply K.put) | with_reducible apply K.upd

theorem Keeps.csrOrphan (K : Keeps P) {s : State} {k : Fin 8} (hs : P s) :
    P (s.csrOrphan k) := by
  unfold State.csrOrphan; try dsimp only
  repeat' first | with_reducible (first | assumption | apply K.ite | apply K.ite1 | apply K.ite2) | split | refine K.fst (by assumption) ?_ | refine K.snd (by assumption) ?_ | with_reducible apply K.upd

theorem Keeps.openOrphan (K : Keeps P) {s : State} {k : Fin 8} (hs : P s) :
    P (s.openOrphan k) := by
  unfold State.openOrphan; try dsimp only
  repeat' first | with_reducible (first | assumption | apply K.ite | apply K.ite1 | apply K.ite2) | split | refine K.fst (by assumption) ?_ | refine K.snd (by assumption) ?_ | with_reducible apply K.upd

theorem Keeps.longOrphan (K : Keeps P) {s : State} {k : Fin 8} (hs : P s) :
    P (s.longOrphan k) := by
  unfold State.longOrphan; try dsimp only
  repeat' first | with_reducible (first | assumption | apply K.ite | apply K.ite1 | apply K.ite2) | split | refine K.fst (by assumption) ?_ | refine K.snd (by assumption) ?_ | with_reducible apply K.upd

theorem Keeps.setSess (K : Keeps P) {s : State} {k : Fin 8} {x : SessH} (hs : P s) :
    P (s.setSess k x) := by
  unfold State.setSess; try dsimp only
  repeat' first | with_reducible (first | assumption) | with_reducible apply K.upd

theorem Keeps.sessFree (K : Keeps P) {s : State} {k : Fin 8} (hs : P s) :
    P (s.sessFree k) := by
  unfold State.sessFree; try dsimp only
  repeat' first | with_reducible (first | assumption | apply K.csrOrphan | apply K.openOrphan | apply K.longOrphan | apply K.setSess | apply K.sessEnter) | with_reducible apply K.upd

theorem Keeps.sessEnd (K : Keeps P) {s : State} {k : Fin 8} {st status : Nat} (hs : P s) :
    P (s.sessEnd k st status) := by
  unfold State.sessEnd; try dsimp only
  repeat' first | with_reducible (first | assumption | apply K.ite | apply K.ite1 | apply K.ite2 | apply K.ev | apply K.put | apply K.sessEnter | apply K.sessFree | apply K.setSess) | with_reducible apply K.upd

theorem Keeps.portSessions (K : Keeps P) {s : State} {p : Fin 2} {status : Nat} (hs : P s) :
    P (s.portSessions p status) := by
  unfold State.portSessions; try dsimp only
  repeat' first | with_reducible (first | assumption | apply K.ite | apply K.ite1 | apply K.ite2 | apply K.sessEnd | apply K.foldl | apply K.foldl1) | (intro _; intros) | split | refine K.fst (by assumption) ?_ | refine K.snd (by assumption) ?_ | with_reducible apply K.upd

theorem Keeps.dhcpLost (K : Keeps P) {s : State} {p : Fin 2} (hs : P s) :
    P (s.dhcpLost p) := by
  unfold State.dhcpLost; try dsimp only
  repeat' first | with_reducible (first | assumption | apply K.portSessions | apply K.showAddr | apply K.setNetPort) | split | refine K.fst (by assumption) ?_ | refine K.snd (by assumption) ?_ | with_reducible apply K.upd

theorem Keeps.dhcpRenew (K : Keeps P) {s : State} {p : Fin 2} (hs : P s) :
    P (s.dhcpRenew p) := by
  unfold State.dhcpRenew; try dsimp only
  repeat' first | with_reducible (first | assumption | apply K.ite | apply K.ite1 | apply K.ite2 | apply K.transmit | apply K.advanceTo) | split | refine K.fst (by assumption) ?_ | refine K.snd (by assumption) ?_ | with_reducible apply K.upd

theorem Keeps.linkOff (K : Keeps P) {s : State} {p : Fin 2} (hs : P s) :
    P (s.linkOff p) := by
  unfold State.linkOff; try dsimp only
  repeat' first | with_reducible (first | assumption | apply K.ite | apply K.ite1 | apply K.ite2 | apply K.wn | apply K.put | apply K.evIf) | with_reducible apply K.upd

end Sys2Proof.Machine
end

