-- ==== Sys2Proof/Laws/KeepC.lean ====
section
/-! SUPPORT. What the operations keep (see Keep.lean), in the order in which they call one another: part 3 of 7. -/

namespace Sys2Proof.Machine

variable {P : State → Prop}

theorem Keeps.ethLinkDown (K : Keeps P) {s : State} {p : Fin 2} (hs : P s) :
    P (s.ethLinkDown p) := by
  unfold State.ethLinkDown; try dsimp only
  repeat' first | with_reducible (first | assumption | apply K.ite | apply K.ite1 | apply K.ite2 | apply K.linkOff) | with_reducible apply K.upd

theorem Keeps.startProbes (K : Keeps P) {s : State} {p : Fin 2} (hs : P s) :
    P (s.startProbes p) := by
  unfold State.startProbes; try dsimp only
  repeat' first | with_reducible (first | assumption | apply K.ite | apply K.ite1 | apply K.ite2 | apply K.transmit) | with_reducible apply K.upd

theorem Keeps.startAddr (K : Keeps P) {s : State} {p : Fin 2} (hs : P s) :
    P (s.startAddr p) := by
  unfold State.startAddr; try dsimp only
  repeat' first | with_reducible (first | assumption | apply K.ite | apply K.ite1 | apply K.ite2 | apply K.showAddr | apply K.setNetPort | apply K.startProbes | apply K.v4Valid) | with_reducible apply K.upd

theorem Keeps.ethLinkUp (K : Keeps P) {s : State} {p : Fin 2} (hs : P s) :
    P (s.ethLinkUp p) := by
  unfold State.ethLinkUp; try dsimp only
  repeat' first | with_reducible (first | assumption | apply K.ite | apply K.ite1 | apply K.ite2 | apply K.put | apply K.ev | apply K.startAddr) | with_reducible apply K.upd

theorem Keeps.icmpEcho (K : Keeps P) {s : State} {p : Fin 2} {v6 : Bool} {target mac ip : Nat} {payload : List Byte} (hs : P s) :
    P (s.icmpEcho p v6 target mac ip payload) := by
  unfold State.icmpEcho; try dsimp only
  repeat' first | with_reducible (first | assumption | apply K.ite | apply K.ite1 | apply K.ite2 | apply K.police | apply K.rxCount | apply K.count | apply K.transmit) | split | refine K.fst (by assumption) ?_ | refine K.snd (by assumption) ?_ | with_reducible apply K.upd

theorem Keeps.neighbourSolicitation (K : Keeps P) {s : State} {p : Fin 2} {target mac ip : Nat} (hs : P s) :
    P (s.neighbourSolicitation p target mac ip) := by
  unfold State.neighbourSolicitation; try dsimp only
  repeat' first | with_reducible (first | assumption | apply K.ite | apply K.ite1 | apply K.ite2 | apply K.police | apply K.rxCount | apply K.transmit) | split | refine K.fst (by assumption) ?_ | refine K.snd (by assumption) ?_ | with_reducible apply K.upd

theorem Keeps.takeCfg (K : Keeps P) {s : State} {p : Fin 2} (hs : P s) :
    P (s.takeCfg p) := by
  unfold State.takeCfg; try dsimp only
  repeat' first | with_reducible (first | assumption | apply K.setNetPort) | with_reducible apply K.upd

theorem Keeps.netApply (K : Keeps P) {s : State} (hs : P s) :
    P (s.netApply) := by
  unfold State.netApply; try dsimp only
  repeat' first | with_reducible (first | assumption | apply K.ite | apply K.ite1 | apply K.ite2 | apply K.startAddr | apply K.portSessions | apply K.takeCfg | apply K.foldl | apply K.foldl1) | (intro _; intros) | with_reducible apply K.upd

theorem Keeps.netCtl (K : Keeps P) {s : State} {v : Nat} (hs : P s) :
    P (s.netCtl v) := by
  unfold State.netCtl; try dsimp only
  repeat' first | with_reducible (first | assumption | apply K.ite | apply K.ite1 | apply K.ite2 | apply K.put | apply K.ethLinkDown | apply K.netApply) | with_reducible apply K.upd

theorem Keeps.pauseFrame (K : Keeps P) {s : State} {p : Fin 2} (hs : P s) :
    P (s.pauseFrame p) := by
  unfold State.pauseFrame; try dsimp only
  repeat' first | with_reducible (first | assumption | apply K.ite | apply K.ite1 | apply K.ite2 | apply K.count) | with_reducible apply K.upd

theorem Keeps.eventToHost (K : Keeps P) {s : State} {src : Nat} (hs : P s) :
    P (s.eventToHost src) := by
  unfold State.eventToHost; try dsimp only
  repeat' first | with_reducible (first | assumption | apply K.ite | apply K.ite1 | apply K.ite2 | apply K.setSess | apply K.foldl | apply K.foldl1) | (intro _; intros) | with_reducible apply K.upd

theorem Keeps.schRoute (K : Keeps P) {s : State} {src : Nat} (hs : P s) :
    P (s.schRoute src) := by
  unfold State.schRoute; try dsimp only
  repeat' first | with_reducible (first | assumption | apply K.ite | apply K.ite1 | apply K.ite2 | apply K.setSch | apply K.ev | apply K.count | apply K.foldl | apply K.foldl1) | (intro _; intros) | with_reducible apply K.upd

theorem Keeps.outPulse (K : Keeps P) {s : State} {k : Nat} (hs : P s) :
    P (s.outPulse k) := by
  unfold State.outPulse; try dsimp only
  repeat' first | with_reducible (first | assumption) | with_reducible apply K.upd

theorem Keeps.routeEvent (K : Keeps P) {s : State} {src : Nat} (hs : P s) :
    P (s.routeEvent src) := by
  unfold State.routeEvent; try dsimp only
  repeat' first | with_reducible (first | assumption | apply K.ite | apply K.ite1 | apply K.ite2 | apply K.setBit | apply K.eventToHost | apply K.schRoute | apply K.outPulse) | with_reducible apply K.upd

theorem Keeps.eventAccept (K : Keeps P) {s : State} {src : Nat} {merged : Bool} (hs : P s) :
    P (s.eventAccept src merged) := by
  unfold State.eventAccept; try dsimp only
  repeat' first | with_reducible (first | assumption | apply K.ite | apply K.ite1 | apply K.ite2 | apply K.count | apply K.routeEvent) | with_reducible apply K.upd

theorem Keeps.epochIn (K : Keeps P) {s : State} (hs : P s) :
    P (s.epochIn) := by
  unfold State.epochIn; try dsimp only
  repeat' first | with_reducible (first | assumption | apply K.ite | apply K.ite1 | apply K.ite2 | apply K.ev) | with_reducible apply K.upd

theorem Keeps.inputAccepted (K : Keeps P) {s : State} {i : Nat} (hs : P s) :
    P (s.inputAccepted i) := by
  unfold State.inputAccepted; try dsimp only
  repeat' first | with_reducible (first | assumption | apply K.ite | apply K.ite1 | apply K.ite2 | apply K.setBit | apply K.levelTo | apply K.ev | apply K.epochIn) | with_reducible apply K.upd

theorem Keeps.inputOverrun (K : Keeps P) {s : State} {i : Nat} (hs : P s) :
    P (s.inputOverrun i) := by
  unfold State.inputOverrun; try dsimp only
  repeat' first | with_reducible (first | assumption | apply K.ev | apply K.setBit | apply K.count) | with_reducible apply K.upd

theorem Keeps.inputEdge (K : Keeps P) {s : State} {i : Nat} {level : Bool} {samples cycles : Nat} (hs : P s) :
    P (s.inputEdge i level samples cycles) := by
  unfold State.inputEdge; try dsimp only
  repeat' first | with_reducible (first | assumption | apply K.ite | apply K.ite1 | apply K.ite2 | apply K.setBit | apply K.clearBit | apply K.levelTo | apply K.inputAccepted | apply K.inputOverrun) | with_reducible apply K.upd

theorem Keeps.latchClear (K : Keeps P) {s : State} {k : Nat} {v : Word} (hs : P s) :
    P (s.latchClear k v) := by
  unfold State.latchClear; try dsimp only
  repeat' first | with_reducible (first | assumption | apply K.ite | apply K.ite1 | apply K.ite2 | apply K.wr) | with_reducible apply K.upd

theorem Keeps.outPulseEnd (K : Keeps P) {s : State} {k : Nat} (hs : P s) :
    P (s.outPulseEnd k) := by
  unfold State.outPulseEnd; try dsimp only
  repeat' first | with_reducible (first | assumption | apply K.advanceTo) | split | refine K.fst (by assumption) ?_ | refine K.snd (by assumption) ?_ | with_reducible apply K.upd

theorem Keeps.passRequest (K : Keeps P) {s : State} {y1 : Option (Fin 7)} {y2 : List (Fin 7)} (hs : P s) :
    P (s.passRequest y1 y2) := by
  induction y2 generalizing s y1 with
  | nil => exact K.giveHop hs
  | cons h l ih =>
    unfold State.passRequest; try dsimp only
    repeat' first | with_reducible apply ih | with_reducible (first | assumption | apply K.ite | apply K.ite1 | apply K.ite2 | apply K.giveHop | apply K.takeHop | apply K.foldl | apply K.foldl1) | (intro _; intros) | split | refine K.fst (by assumption) ?_ | refine K.snd (by assumption) ?_ | with_reducible apply K.upd

theorem Keeps.issueTx (K : Keeps P) {s : State} {t : FabTx} (hs : P s) :
    P (s.issueTx t) := by
  unfold State.issueTx; try dsimp only
  repeat' first | with_reducible (first | assumption | apply K.putTx | apply K.passRequest) | with_reducible apply K.upd

theorem KeepsMem.issueWait (K : KeepsMem P) {s : State} {w : FabWait} {shared : Bool} (hs : P s) :
    P (s.issueWait w shared) := by
  unfold State.issueWait; try dsimp only
  repeat' first | with_reducible (first | assumption | apply K.ite | apply K.ite1 | apply K.ite2 | apply K.issueTx | apply K.setLine) | split | refine K.fst (by assumption) ?_ | refine K.snd (by assumption) ?_ | with_reducible apply K.upd

theorem Keeps.granted (K : Keeps P) {s : State} {pool req : Nat} {shared : Bool} (hs : P s) :
    P (s.granted pool req shared) := by
  unfold State.granted; try dsimp only
  repeat' first | with_reducible (first | assumption | apply K.ite | apply K.ite1 | apply K.ite2) | with_reducible apply K.upd

theorem KeepsMem.grantPool (K : KeepsMem P) {pool y1 : Nat} {y2 : State} (hy2 : P y2) :
    P (State.grantPool pool y1 y2) := by
  induction y1 generalizing y2 with
  | zero => exact hy2
  | succ n ih =>
    unfold State.grantPool; try dsimp only
    repeat' first | with_reducible apply ih | with_reducible (first | assumption | apply K.ite | apply K.ite1 | apply K.ite2 | apply K.issueWait | apply K.granted | apply K.foldl | apply K.foldl1) | (intro _; intros) | split | refine K.fst (by assumption) ?_ | refine K.snd (by assumption) ?_ | with_reducible apply K.upd

theorem KeepsMem.fabricRequest (K : KeepsMem P) {s : State} {req addr : Nat} {write : Option (BitVec 512)} {enables : BitVec 64} (hs : P s) :
    P (s.fabricRequest req addr write enables) := by
  unfold State.fabricRequest; try dsimp only
  repeat' first | with_reducible (first | assumption | apply K.ite | apply K.ite1 | apply K.ite2 | apply K.grantPool) | with_reducible apply K.upd

theorem KeepsMem.grantTags (K : KeepsMem P) {s : State} (hs : P s) :
    P (s.grantTags) := by
  unfold State.grantTags; try dsimp only
  repeat' first | with_reducible (first | assumption | apply K.grantPool | apply K.foldl | apply K.foldl1) | (intro _; intros) | with_reducible apply K.upd

theorem Keeps.dropTx (K : Keeps P) {s : State} {p : FabTx → Bool} (hs : P s) :
    P (s.dropTx p) := by
  unfold State.dropTx; try dsimp only
  repeat' first | with_reducible (first | assumption | apply K.ite | apply K.ite1 | apply K.ite2 | apply K.giveHop | apply K.forward) | split | refine K.fst (by assumption) ?_ | refine K.snd (by assumption) ?_ | with_reducible apply K.upd

theorem KeepsMem.fabricResponse (K : KeepsMem P) {s : State} {req addr k : Nat} {ue : Bool} (hs : P s) :
    P (s.fabricResponse req addr k ue) := by
  unfold State.fabricResponse; try dsimp only
  repeat' first | with_reducible (first | assumption | apply K.ite | apply K.ite1 | apply K.ite2 | apply K.grantTags | apply K.dropTx | apply K.acqSramError) | split | refine K.fst (by assumption) ?_ | refine K.snd (by assumption) ?_ | with_reducible apply K.upd

theorem Keeps.jobFailCount (_ : Keeps P) {s : State} {t : Task} (hs : P s) :
    P (s.jobFailCount t).s := by
  unfold State.jobFailCount; try dsimp only
  repeat' first | with_reducible (first | assumption) | with_reducible apply K.upd

theorem Keeps.jobFirstFail (_ : Keeps P) {s : State} {t : Task} (hs : P s) :
    P (s.jobFirstFail t).s := by
  unfold State.jobFirstFail; try dsimp only
  repeat' first | with_reducible (first | assumption) | with_reducible apply K.upd

theorem Keeps.jobErr (_ : Keeps P) {s : State} {status addr : Nat} (hs : P s) :
    P (jobError s status addr).s := by
  unfold jobError; try dsimp only
  repeat' first | with_reducible (first | assumption) | with_reducible apply K.upd

theorem Keeps.unpattern (K : Keeps P) {s : State} {a n : Nat} (hs : P s) :
    P (s.unpattern a n) := by
  unfold State.unpattern; try dsimp only
  repeat' first | with_reducible (first | assumption | apply K.setDmc) | split | refine K.fst (by assumption) ?_ | refine K.snd (by assumption) ?_ | with_reducible apply K.upd

theorem KeepsMem.mapPin (K : KeepsMem P) {s : State} {param : List Byte} {v i : Nat} {n : MapCount} (hs : P s) :
    P (s.mapPin param v i n).1 := by
  unfold State.mapPin; try dsimp only
  repeat' first | with_reducible (first | assumption | apply K.ite | apply K.ite1 | apply K.ite2 | apply K.setByte | apply K.unpattern) | with_reducible apply K.upd

theorem KeepsMem.jobFailMap (K : KeepsMem P) {s : State} {t : Task} (hs : P s) :
    P (s.jobFailMap t).s := by
  unfold State.jobFailMap; try dsimp only
  repeat' first | with_reducible (first | assumption | apply K.ite | apply K.ite1 | apply K.ite2 | apply K.jobErr | apply K.mapPin | apply K.foldl | apply K.foldl1) | (intro _; intros) | split | refine K.fst (by assumption) ?_ | refine K.snd (by assumption) ?_ | with_reducible apply K.upd

theorem Keeps.jobCapture (K : Keeps P) {s : State} {i : Nat} {t : Task} (hs : P s) :
    P (s.jobCapture i t).s := by
  unfold State.jobCapture; try dsimp only
  repeat' first | with_reducible (first | assumption | apply K.ite | apply K.ite1 | apply K.ite2 | apply K.draw | apply K.foldl | apply K.foldl1) | (intro _; intros) | split | refine K.fst (by assumption) ?_ | refine K.snd (by assumption) ?_ | with_reducible apply K.upd

theorem Keeps.jobJitter (K : Keeps P) {s : State} {t : Task} (hs : P s) :
    P (s.jobJitter t).s := by
  unfold State.jobJitter; try dsimp only
  repeat' first | with_reducible (first | assumption | apply K.ite | apply K.ite1 | apply K.ite2 | apply K.draw) | split | refine K.fst (by assumption) ?_ | refine K.snd (by assumption) ?_ | with_reducible apply K.upd

theorem Keeps.schAlloc (K : Keeps P) {s : State} (hs : P s) :
    P (s.schAlloc) := by
  unfold State.schAlloc; try dsimp only
  repeat' first | with_reducible (first | assumption | apply K.ite | apply K.ite1 | apply K.ite2 | apply K.wn | apply K.putTask) | with_reducible apply K.upd

theorem Keeps.latchShadow (K : Keeps P) {s : State} {m a hi : Nat} {ep : Option Nat} (hs : P s) :
    P (s.latchShadow m a hi ep) := by
  unfold State.latchShadow; try dsimp only
  repeat' first | with_reducible (first | assumption) | split | refine K.fst (by assumption) ?_ | refine K.snd (by assumption) ?_ | with_reducible apply K.upd

theorem Keeps.csrRead (K : Keeps P) {s : State} {m a : Nat} (hs : P s) :
    P (s.csrRead m a).2 := by
  unfold State.csrRead; try dsimp only
  repeat' first | with_reducible (first | assumption | apply K.ite | apply K.ite1 | apply K.ite2 | apply K.schAlloc | apply K.latchShadow) | split | refine K.fst (by assumption) ?_ | refine K.snd (by assumption) ?_ | with_reducible apply K.upd

theorem Keeps.limitRead (K : Keeps P) {s : State} {a : Nat} (hs : P s) :
    P (s.limitRead a).2 := by
  unfold State.limitRead; try dsimp only
  repeat' first | with_reducible (first | assumption | apply K.ite | apply K.ite1 | apply K.ite2 | apply K.csrRead) | split | refine K.fst (by assumption) ?_ | refine K.snd (by assumption) ?_ | with_reducible apply K.upd

theorem Keeps.limitItems (K : Keeps P) {param : List Byte} {bad : List Nat} {y2 y3 : Nat} {y4 : State} {y5 : List Byte} {y6 : Nat} (hy4 : P y4) :
    P (State.limitItems param bad y2 y3 y4 y5 y6).2.2 := by
  induction y2 generalizing y3 y4 y5 y6 with
  | zero => exact hy4
  | succ n ih =>
    unfold State.limitItems; try dsimp only
    repeat' first | with_reducible apply ih | with_reducible (first | assumption | apply K.ite | apply K.ite1 | apply K.ite2 | apply K.draw | apply K.limitRead | apply K.foldl | apply K.foldl1) | (intro _; intros) | split | refine K.fst (by assumption) ?_ | refine K.snd (by assumption) ?_ | with_reducible apply K.upd

theorem Keeps.jobLimit (K : Keeps P) {s : State} {t : Task} {bad : List Nat} (hs : P s) :
    P (s.jobLimit t bad).s := by
  unfold State.jobLimit; try dsimp only
  repeat' first | with_reducible (first | assumption | apply K.limitItems) | split | refine K.fst (by assumption) ?_ | refine K.snd (by assumption) ?_ | with_reducible apply K.upd

theorem Keeps.jobDatalog (K : Keeps P) {s : State} {t : Task} (hs : P s) :
    P (s.jobDatalog t).s := by
  unfold State.jobDatalog; try dsimp only
  repeat' first | with_reducible (first | assumption | apply K.ite | apply K.ite1 | apply K.ite2 | apply K.jobErr) | split | refine K.fst (by assumption) ?_ | refine K.snd (by assumption) ?_ | with_reducible apply K.upd

theorem KeepsMem.job (K : KeepsMem P) {s : State} {i : Nat} {t : Task} {bad : List Nat} (hs : P s) :
    P (s.job i t bad).s := by
  unfold State.job; try dsimp only
  repeat' first | with_reducible (first | assumption | apply K.jobFailCount | apply K.jobFirstFail | apply K.jobFailMap | apply K.jobCapture | apply K.jobJitter | apply K.jobLimit | apply K.jobDatalog) | split | refine K.fst (by assumption) ?_ | refine K.snd (by assumption) ?_ | with_reducible apply K.upd

theorem Keeps.releaseItems (K : Keeps P) {s : State} {j : Fin 48} (hs : P s) :
    P (s.releaseItems j) := by
  unfold State.releaseItems; try dsimp only
  repeat' first | with_reducible (first | assumption | apply K.ite | apply K.ite1 | apply K.ite2 | apply K.setSch | apply K.acqPanic | apply K.wn) | split | refine K.fst (by assumption) ?_ | refine K.snd (by assumption) ?_ | with_reducible apply K.upd

theorem Keeps.itemsDone (K : Keeps P) {s : State} {i : Nat} {t : Task} (hs : P s) :
    P (s.itemsDone i t) := by
  unfold State.itemsDone; try dsimp only
  repeat' first | with_reducible (first | assumption | apply K.ite | apply K.ite1 | apply K.ite2 | apply K.releaseItems | apply K.setSch) | with_reducible apply K.upd

theorem Keeps.nextOrd (K : Keeps P) {s : State} (hs : P s) :
    P (s.nextOrd) := by
  unfold State.nextOrd; try dsimp only
  repeat' first | with_reducible (first | assumption | apply K.setSch) | with_reducible apply K.upd

theorem Keeps.taskDone (K : Keeps P) {s : State} {i : Nat} {t : Task} {status : Nat} (hs : P s) :
    P (s.taskDone i t status) := by
  unfold State.taskDone; try dsimp only
  repeat' first | with_reducible (first | assumption | apply K.ite | apply K.ite1 | apply K.ite2 | apply K.itemsDone | apply K.nextOrd | apply K.putTask) | with_reducible apply K.upd

theorem KeepsMem.taskFinish (K : KeepsMem P) {s : State} {c : Nat} {bad : List Nat} (hs : P s) :
    P (s.taskFinish c bad) := by
  unfold State.taskFinish; try dsimp only
  repeat' first | with_reducible (first | assumption | apply K.ite | apply K.ite1 | apply K.ite2 | apply K.unrun | apply K.job | apply K.taskDone | apply K.coreFree) | split | refine K.fst (by assumption) ?_ | refine K.snd (by assumption) ?_ | with_reducible apply K.upd

theorem Keeps.setJtag (K : Keeps P) {s : State} {x : JtagH} (hs : P s) :
    P (s.setJtag x) := by
  unfold State.setJtag; try dsimp only
  repeat' first | with_reducible (first | assumption) | with_reducible apply K.upd

theorem Keeps.jtagChallenge (K : Keeps P) {s : State} (hs : P s) :
    P (s.jtagChallenge) := by
  unfold State.jtagChallenge; try dsimp only
  repeat' first | with_reducible (first | assumption | apply K.draw | apply K.setJtag) | split | refine K.fst (by assumption) ?_ | refine K.snd (by assumption) ?_ | with_reducible apply K.upd

theorem Keeps.jtagSelect (K : Keeps P) {s : State} {code dr : Nat} (hs : P s) :
    P (s.jtagSelect code dr) := by
  unfold State.jtagSelect; try dsimp only
  repeat' first | with_reducible (first | assumption | apply K.ite | apply K.ite1 | apply K.ite2 | apply K.setJtag) | with_reducible apply K.upd

theorem Keeps.jtagScan (K : Keeps P) {s : State} {code : Nat} {balls load : BitVec 3507} (hs : P s) :
    P (s.jtagScan code balls load) := by
  unfold State.jtagScan; try dsimp only
  repeat' first | with_reducible (first | assumption | apply K.ite | apply K.ite1 | apply K.ite2 | apply K.jtagSelect | apply K.setJtag) | with_reducible apply K.upd

theorem Keeps.setSec (K : Keeps P) {s : State} {x : SecH} (hs : P s) :
    P (s.setSec x) := by
  unfold State.setSec; try dsimp only
  repeat' first | with_reducible (first | assumption) | with_reducible apply K.upd

theorem Keeps.logTamper (K : Keeps P) {s : State} {k : Nat} {off : Bool} {aon : Nat} (hs : P s) :
    P (s.logTamper k off aon) := by
  unfold State.logTamper; try dsimp only
  repeat' first | with_reducible (first | assumption | apply K.ite | apply K.ite1 | apply K.ite2 | apply K.count | apply K.setSec | apply K.ev | apply K.put) | with_reducible apply K.upd

theorem Keeps.switched (K : Keeps P) {s : State} (hs : P s) :
    P (s.switched) := by
  unfold State.switched; try dsimp only
  repeat' first | with_reducible (first | assumption | apply K.ev | apply K.count) | with_reducible apply K.upd

theorem Keeps.pllOff (K : Keeps P) {s : State} {d : Nat} (hs : P s) :
    P (s.pllOff d) := by
  unfold State.pllOff; try dsimp only
  repeat' first | with_reducible (first | assumption | apply K.ite | apply K.ite1 | apply K.ite2 | apply K.setDpl | apply K.put) | split | refine K.fst (by assumption) ?_ | refine K.snd (by assumption) ?_ | with_reducible apply K.upd

theorem Keeps.resetRegs (K : Keeps P) {s : State} {p : Nat → Bool} (hs : P s) :
    P (s.resetRegs p) := by
  exact K.clear _ _ hs

theorem Keeps.clearPort (K : Keeps P) {s : State} {p : Fin 8} (hs : P s) :
    P (s.clearPort p) := by
  unfold State.clearPort; try dsimp only
  repeat' first | with_reducible (first | assumption | apply K.discardTxs | apply K.setPort | apply K.setSeq) | with_reducible apply K.upd

theorem Keeps.setTim (K : Keeps P) {s : State} {t : Fin 32} {x : TimH} (hs : P s) :
    P (s.setTim t x) := by
  unfold State.setTim; try dsimp only
  repeat' first | with_reducible (first | assumption) | with_reducible apply K.upd

theorem Keeps.clearWfg (K : Keeps P) {s : State} {m : Fin 4} (hs : P s) :
    P (s.clearWfg m) := by
  unfold State.clearWfg; try dsimp only
  repeat' first | with_reducible (first | assumption | apply K.setWfg | apply K.setSeq | apply K.discardTxs) | with_reducible apply K.upd

theorem Keeps.clearDomain (K : Keeps P) {s : State} {d : Nat} (hs : P s) :
    P (s.clearDomain d) := by
  unfold State.clearDomain; try dsimp only
  repeat' first | with_reducible (first | assumption | apply K.ite | apply K.ite1 | apply K.ite2 | apply K.resetRegs | apply K.clearPort | apply K.setTim | apply K.setAcq | apply K.clearWfg | apply K.foldl | apply K.foldl1) | (intro _; intros) | split | refine K.fst (by assumption) ?_ | refine K.snd (by assumption) ?_ | with_reducible apply K.upd

theorem Keeps.showDomain (K : Keeps P) {s : State} {d : Nat} {on : Bool} (hs : P s) :
    P (s.showDomain d on) := by
  unfold State.showDomain; try dsimp only
  repeat' first | with_reducible (first | assumption | apply K.ite | apply K.ite1 | apply K.ite2 | apply K.setBit | apply K.clearBit) | with_reducible apply K.upd

theorem Keeps.clearKeys (K : Keeps P) {s : State} (hs : P s) :
    P (s.clearKeys) := by
  unfold State.clearKeys; try dsimp only
  repeat' first | with_reducible (first | assumption | apply K.wn) | with_reducible apply K.upd

theorem KeepsMem.domainDown (K : KeepsMem P) {s : State} {d : Nat} (hs : P s) :
    P (s.domainDown d) := by
  unfold State.domainDown; try dsimp only
  repeat' first | with_reducible (first | assumption | apply K.ite | apply K.ite1 | apply K.ite2 | apply K.linkOff | apply K.pllOff | apply K.clearDomain | apply K.showDomain | apply K.dmcDown | apply K.cxlOff | apply K.put | apply K.zeroMem | apply K.clearKeys | apply K.foldl | apply K.foldl1) | (intro _; intros) | split | refine K.fst (by assumption) ?_ | refine K.snd (by assumption) ?_ | with_reducible apply K.upd

theorem Keeps.settleDests (K : Keeps P) {s : State} {old : List Bool} (hs : P s) :
    P (s.settleDests old) := by
  unfold State.settleDests; try dsimp only
  repeat' first | with_reducible (first | assumption | apply K.ite | apply K.ite1 | apply K.ite2 | apply K.destRise | apply K.foldl | apply K.foldl1) | (intro _; intros) | with_reducible apply K.upd

theorem KeepsMem.endLoad (K : KeepsMem P) {s : State} {l : LoadH} {code : Nat} (hs : P s) :
    P (s.endLoad l code) := by
  unfold State.endLoad; try dsimp only
  repeat' first | with_reducible (first | assumption | apply K.ite | apply K.ite1 | apply K.ite2 | apply K.put | apply K.switched | apply K.domainDown | apply K.longOutcome | apply K.smeDone | apply K.settleDests | apply K.foldl | apply K.foldl1) | (intro _; intros) | with_reducible apply K.upd

theorem KeepsMem.abortLoad (K : KeepsMem P) {s : State} (hs : P s) :
    P (s.abortLoad) := by
  unfold State.abortLoad; try dsimp only
  repeat' first | with_reducible (first | assumption | apply K.ite | apply K.ite1 | apply K.ite2 | apply K.ev | apply K.endLoad) | split | refine K.fst (by assumption) ?_ | refine K.snd (by assumption) ?_ | with_reducible apply K.upd

theorem KeepsMem.fillRegion (K : KeepsMem P) {s : State} {p base : Nat} {l : List Byte} {y4 : Nat} (hs : P s) :
    P (s.fillRegion p base l y4) := by
  induction y4 with
  | zero => exact hs
  | succ n ih =>
    unfold State.fillRegion; try dsimp only
    repeat' first | exact ih | with_reducible (first | assumption | apply K.ite | apply K.ite1 | apply K.ite2 | apply K.setBytes | apply K.zeroMem | apply K.foldl | apply K.foldl1) | (intro _; intros) | split | refine K.fst (by assumption) ?_ | refine K.snd (by assumption) ?_ | with_reducible apply K.upd

theorem Keeps.setChan (K : Keeps P) {s : State} {k : Fin 8} {c : Fin 7} {x : ChanH} (hs : P s) :
    P (s.setChan k c x) := by
  unfold State.setChan; try dsimp only
  repeat' first | with_reducible (first | assumption | apply K.setSess) | with_reducible apply K.upd

theorem Keeps.sendRaw (K : Keeps P) {s : State} {k : Fin 8} {typ channel seq : Nat} {payload : List Byte} (hs : P s) :
    P (s.sendRaw k typ channel seq payload) := by
  unfold State.sendRaw; try dsimp only
  repeat' first | with_reducible (first | assumption | apply K.ite | apply K.ite1 | apply K.ite2 | apply K.wn | apply K.setSess | apply K.transmit) | split | refine K.fst (by assumption) ?_ | refine K.snd (by assumption) ?_ | with_reducible apply K.upd

theorem Keeps.keyExhausted (K : Keeps P) {s : State} {k : Fin 8} (hs : P s) :
    P (s.keyExhausted k) := by
  unfold State.keyExhausted; try dsimp only
  repeat' first | with_reducible (first | assumption | apply K.sessEnd | apply K.sendRaw) | with_reducible apply K.upd

theorem Keeps.send (K : Keeps P) {s : State} {k : Fin 8} {typ channel seq : Nat} {payload : List Byte} (hs : P s) :
    P (s.send k typ channel seq payload) := by
  unfold State.send; try dsimp only
  repeat' first | with_reducible (first | assumption | apply K.ite | apply K.ite1 | apply K.ite2 | apply K.sendRaw | apply K.keyExhausted) | with_reducible apply K.upd

theorem Keeps.sendData (K : Keeps P) {s : State} {k : Fin 8} {c : Fin 7} {payload : List Byte} {hamper : Option Nat} (hs : P s) :
    P (s.sendData k c payload hamper) := by
  unfold State.sendData; try dsimp only
  repeat' first | with_reducible (first | assumption | apply K.send | apply K.setChan) | with_reducible apply K.upd

theorem Keeps.pump (K : Keeps P) {y0 : Nat} {y1 : State} {y2 : Fin 8} {y3 : Fin 7} (hy1 : P y1) :
    P (State.pump y0 y1 y2 y3) := by
  induction y0 generalizing y1 y2 y3 with
  | zero => exact hy1
  | succ n ih =>
    unfold State.pump; try dsimp only
    repeat' first | with_reducible apply ih | with_reducible (first | assumption | apply K.ite | apply K.ite1 | apply K.ite2 | apply K.sendData | apply K.setChan | apply K.foldl | apply K.foldl1) | (intro _; intros) | split | refine K.fst (by assumption) ?_ | refine K.snd (by assumption) ?_ | with_reducible apply K.upd

theorem Keeps.enqueue (K : Keeps P) {s : State} {k : Fin 8} {c : Fin 7} {payload : List Byte} (hs : P s) :
    P (s.enqueue k c payload) := by
  unfold State.enqueue; try dsimp only
  repeat' first | with_reducible (first | assumption | apply K.setChan | apply K.pump) | with_reducible apply K.upd

theorem Keeps.reply (K : Keeps P) {s : State} {k : Fin 8} {opcode status tag seq info : Nat} {results : List Byte} (hs : P s) :
    P (s.reply k opcode status tag seq info results) := by
  unfold State.reply; try dsimp only
  repeat' first | with_reducible (first | assumption | apply K.ite | apply K.ite1 | apply K.ite2 | apply K.enqueue) | with_reducible apply K.upd

theorem Keeps.secReply (K : Keeps P) {s : State} {k : Fin 8} {opcode tag seq code : Nat} {results : List Byte} (hs : P s) :
    P (s.secReply k opcode tag seq code results) := by
  unfold State.secReply; try dsimp only
  repeat' first | with_reducible (first | assumption | apply K.ite | apply K.ite1 | apply K.ite2 | apply K.reply | apply K.put) | with_reducible apply K.upd

theorem Keeps.openReply (K : Keeps P) {s : State} {o : RkOpen} {code : Nat} {results : List Byte} (hs : P s) :
    P (s.openReply o code results) := by
  unfold State.openReply; try dsimp only
  repeat' first | with_reducible (first | assumption | apply K.secReply | apply K.put) | split | refine K.fst (by assumption) ?_ | refine K.snd (by assumption) ?_ | with_reducible apply K.upd

theorem KeepsMem.endOpen (K : KeepsMem P) {s : State} {code : Nat} (hs : P s) :
    P (s.endOpen code) := by
  unfold State.endOpen; try dsimp only
  repeat' first | with_reducible (first | assumption | apply K.fillRegion | apply K.setSec | apply K.openReply) | split | refine K.fst (by assumption) ?_ | refine K.snd (by assumption) ?_ | with_reducible apply K.upd

theorem KeepsMem.stopSecrets (K : KeepsMem P) {s : State} (hs : P s) :
    P (s.stopSecrets) := by
  unfold State.stopSecrets; try dsimp only
  repeat' first | with_reducible (first | assumption | apply K.ite | apply K.ite1 | apply K.ite2 | apply K.ev | apply K.portLeave | apply K.foldl | apply K.foldl1) | (intro _; intros) | with_reducible apply K.upd

theorem KeepsMem.seal (K : KeepsMem P) {s : State} (hs : P s) :
    P (s.seal) := by
  unfold State.seal; try dsimp only
  repeat' first | with_reducible (first | assumption | apply K.ev | apply K.put | apply K.abortLoad | apply K.endOpen | apply K.stopSecrets) | with_reducible apply K.upd

theorem Keeps.endSessions (K : Keeps P) {s : State} {status : Nat} (hs : P s) :
    P (s.endSessions status) := by
  unfold State.endSessions; try dsimp only
  repeat' first | with_reducible (first | assumption | apply K.ite | apply K.ite1 | apply K.ite2 | apply K.sessEnd | apply K.foldl | apply K.foldl1) | (intro _; intros) | with_reducible apply K.upd

theorem Keeps.showPolicy (K : Keeps P) {s : State} (hs : P s) :
    P (s.showPolicy) := by
  unfold State.showPolicy; try dsimp only
  repeat' first | with_reducible (first | assumption | apply K.put) | with_reducible apply K.upd

theorem Keeps.closeRegion (K : Keeps P) {s : State} {p : Nat} {used : Bool} (hs : P s) :
    P (s.closeRegion p used) := by
  unfold State.closeRegion; try dsimp only
  repeat' first | with_reducible (first | assumption | apply K.ite | apply K.ite1 | apply K.ite2 | apply K.setSec) | with_reducible apply K.upd

theorem Keeps.closeRegions (K : Keeps P) {s : State} (hs : P s) :
    P (s.closeRegions) := by
  unfold State.closeRegions; try dsimp only
  repeat' first | with_reducible (first | assumption | apply K.closeRegion | apply K.foldl | apply K.foldl1) | (intro _; intros) | with_reducible apply K.upd

theorem Keeps.zeroKeyStore (K : Keeps P) {s : State} (hs : P s) :
    P (s.zeroKeyStore) := by
  unfold State.zeroKeyStore; try dsimp only
  repeat' first | with_reducible (first | assumption | apply K.setSec | apply K.clearKeys | apply K.wn | apply K.showPolicy | apply K.closeRegions) | with_reducible apply K.upd

theorem Keeps.abortEnrol (K : Keeps P) {s : State} (hs : P s) :
    P (s.abortEnrol) := by
  unfold State.abortEnrol; try dsimp only
  repeat' first | with_reducible (first | assumption | apply K.ite | apply K.ite1 | apply K.ite2) | split | refine K.fst (by assumption) ?_ | refine K.snd (by assumption) ?_ | with_reducible apply K.upd

theorem Keeps.showLifecycle (K : Keeps P) {s : State} (hs : P s) :
    P (s.showLifecycle) := by
  unfold State.showLifecycle; try dsimp only
  repeat' first | with_reducible (first | assumption | apply K.evIf | apply K.put) | with_reducible apply K.upd

theorem Keeps.eraseResponse (K : Keeps P) {s : State} (hs : P s) :
    P (s.eraseResponse) := by
  unfold State.eraseResponse; try dsimp only
  repeat' first | with_reducible (first | assumption | apply K.put | apply K.endSessions | apply K.zeroKeyStore | apply K.abortEnrol | apply K.ev | apply K.showLifecycle | apply K.setSec) | with_reducible apply K.upd

theorem Keeps.scorch (K : Keeps P) {s : State} (hs : P s) :
    P (s.scorch) := by
  unfold State.scorch; try dsimp only
  repeat' first | with_reducible (first | assumption | apply K.showLifecycle | apply K.setSec) | with_reducible apply K.upd

theorem KeepsMem.fireSensors (K : KeepsMem P) {s : State} {l new : List Nat} {off : Bool} {aon : Nat} (hs : P s) :
    P (s.fireSensors l new off aon) := by
  unfold State.fireSensors; try dsimp only
  repeat' first | with_reducible (first | assumption | apply K.ite | apply K.ite1 | apply K.ite2 | apply K.logTamper | apply K.seal | apply K.eraseResponse | apply K.setSec | apply K.scorch | apply K.foldl | apply K.foldl1) | (intro _; intros) | with_reducible apply K.upd

theorem KeepsMem.fireInside (K : KeepsMem P) {s : State} {k : Nat} (hs : P s) :
    P (s.fireInside k) := by
  unfold State.fireInside; try dsimp only
  repeat' first | with_reducible (first | assumption | apply K.draw | apply K.fireSensors) | split | refine K.fst (by assumption) ?_ | refine K.snd (by assumption) ?_ | with_reducible apply K.upd

theorem KeepsMem.authFail (K : KeepsMem P) {s : State} (hs : P s) :
    P (s.authFail) := by
  unfold State.authFail; try dsimp only
  repeat' first | with_reducible (first | assumption | apply K.ite | apply K.ite1 | apply K.ite2 | apply K.ev | apply K.count | apply K.fireInside | apply K.put) | with_reducible apply K.upd

theorem Keeps.authOk (K : Keeps P) {s : State} (hs : P s) :
    P (s.authOk) := by
  unfold State.authOk; try dsimp only
  repeat' first | with_reducible (first | assumption | apply K.put) | with_reducible apply K.upd

theorem KeepsMem.jtagUnlock (K : KeepsMem P) {s : State} {sig : List Byte} (hs : P s) :
    P (s.jtagUnlock sig) := by
  unfold State.jtagUnlock; try dsimp only
  repeat' first | with_reducible (first | assumption | apply K.ite | apply K.ite1 | apply K.ite2 | apply K.setJtag | apply K.fireInside | apply K.ev | apply K.authFail | apply K.authOk | apply K.closeRegions | apply K.clearKeys | apply K.endOpen | apply K.stopSecrets | apply K.put) | with_reducible apply K.upd

theorem Keeps.loadReject (K : Keeps P) {s : State} {x : LoadH} {e : Rej} (hs : P s) :
    P (s.loadReject x e) := by
  unfold State.loadReject; try dsimp only
  repeat' first | with_reducible (first | assumption | apply K.put | apply K.ev | apply K.longOutcome | apply K.smeDone) | with_reducible apply K.upd

theorem KeepsMem.loadChecked (K : KeepsMem P) {s : State} (hs : P s) :
    P (s.loadChecked) := by
  unfold State.loadChecked; try dsimp only
  repeat' first | with_reducible (first | assumption | apply K.ite | apply K.ite1 | apply K.ite2 | apply K.loadReject | apply K.authFail | apply K.authOk) | split | refine K.fst (by assumption) ?_ | refine K.snd (by assumption) ?_ | with_reducible apply K.upd

theorem Keeps.timSettle (K : Keeps P) {s : State} {t : Fin 32} (hs : P s) :
    P (s.timSettle t) := by
  unfold State.timSettle; try dsimp only
  repeat' first | with_reducible (first | assumption | apply K.ite | apply K.ite1 | apply K.ite2 | apply K.put) | split | refine K.fst (by assumption) ?_ | refine K.snd (by assumption) ?_ | with_reducible apply K.upd

theorem Keeps.timSettleAll (K : Keeps P) {s : State} (hs : P s) :
    P (s.timSettleAll) := by
  unfold State.timSettleAll; try dsimp only
  repeat' first | with_reducible (first | assumption | apply K.timSettle | apply K.foldl | apply K.foldl1) | (intro _; intros) | with_reducible apply K.upd

theorem Keeps.loadCommit (K : Keeps P) {s : State} (hs : P s) :
    P (s.loadCommit) := by
  unfold State.loadCommit; try dsimp only
  repeat' first | with_reducible (first | assumption | apply K.ite | apply K.ite1 | apply K.ite2 | apply K.showPolicy | apply K.put | apply K.wn | apply K.settleDests | apply K.timSettleAll | apply K.foldl | apply K.foldl1) | (intro _; intros) | split | refine K.fst (by assumption) ?_ | refine K.snd (by assumption) ?_ | with_reducible apply K.upd

theorem Keeps.groupOff (K : Keeps P) {s : State} {g : Nat} (hs : P s) :
    P (s.groupOff g) := by
  unfold State.groupOff; try dsimp only
  repeat' first | with_reducible (first | assumption | apply K.taskDone | apply K.foldl | apply K.foldl1) | (intro _; intros) | with_reducible apply K.upd

theorem KeepsMem.loadDone (K : KeepsMem P) {s : State} (hs : P s) :
    P (s.loadDone) := by
  unfold State.loadDone; try dsimp only
  repeat' first | with_reducible (first | assumption | apply K.ite | apply K.ite1 | apply K.ite2 | apply K.switched | apply K.domainDown | apply K.groupOff | apply K.smeDone | apply K.wn | apply K.put | apply K.ev | apply K.longOutcome | apply K.foldl | apply K.foldl1) | (intro _; intros) | split | refine K.fst (by assumption) ?_ | refine K.snd (by assumption) ?_ | with_reducible apply K.upd

theorem Keeps.domainUp (K : Keeps P) {s : State} {d : Nat} (hs : P s) :
    P (s.domainUp d) := by
  unfold State.domainUp; try dsimp only
  repeat' first | with_reducible (first | assumption | apply K.ite | apply K.ite1 | apply K.ite2 | apply K.calPowerUp | apply K.clearDomain | apply K.showDomain | apply K.cxlTrain | apply K.put | apply K.timSettleAll | apply K.foldl | apply K.foldl1) | (intro _; intros) | with_reducible apply K.upd

theorem KeepsMem.switchDone (K : KeepsMem P) {s : State} {d : Nat} {on : Bool} (hs : P s) :
    P (s.switchDone d on) := by
  unfold State.switchDone; try dsimp only
  repeat' first | with_reducible (first | assumption | apply K.ite | apply K.ite1 | apply K.ite2 | apply K.domainUp | apply K.domainDown | apply K.put | apply K.switched) | with_reducible apply K.upd

theorem KeepsMem.zeroBank (K : KeepsMem P) {s : State} {b : Nat} (hs : P s) :
    P (s.zeroBank b) := by
  unfold State.zeroBank; try dsimp only
  repeat' first | with_reducible (first | assumption | apply K.zeroMem) | with_reducible apply K.upd

theorem KeepsMem.loadSettled (K : KeepsMem P) {s : State} (hs : P s) :
    P (s.loadSettled) := by
  unfold State.loadSettled; try dsimp only
  repeat' first | with_reducible (first | assumption | apply K.ite | apply K.ite1 | apply K.ite2 | apply K.switchDone | apply K.zeroBank | apply K.foldl | apply K.foldl1) | (intro _; intros) | split | refine K.fst (by assumption) ?_ | refine K.snd (by assumption) ?_ | with_reducible apply K.upd

theorem KeepsMem.portCancel (K : KeepsMem P) {s : State} {p : Fin 8} {cause : Nat} (hs : P s) :
    P (s.portCancel p cause) := by
  unfold State.portCancel; try dsimp only
  repeat' first | with_reducible (first | assumption | apply K.portLeave) | with_reducible apply K.upd

end Sys2Proof.Machine
end

