-- ==== Sys2Proof/Laws/KeepD.lean ====
section
/-! SUPPORT. What the operations keep (see Keep.lean), in the order in which they call one another: part 4 of 7. -/

namespace Sys2Proof.Machine

variable {P : State → Prop}

theorem KeepsMem.stopPort (K : KeepsMem P) {s : State} {p : Fin 8} (hs : P s) :
    P (s.stopPort p) := by
  unfold State.stopPort; try dsimp only
  repeat' first | with_reducible (first | assumption | apply K.ite | apply K.ite1 | apply K.ite2 | apply K.portLeave | apply K.portCancel) | with_reducible apply K.upd

theorem Keeps.timStop (K : Keeps P) {s : State} {t : Fin 32} (hs : P s) :
    P (s.timStop t) := by
  unfold State.timStop; try dsimp only
  repeat' first | with_reducible (first | assumption | apply K.ite | apply K.ite1 | apply K.ite2 | apply K.setTim | apply K.put) | with_reducible apply K.upd

theorem Keeps.stopWfg (K : Keeps P) {s : State} {m : Fin 4} (hs : P s) :
    P (s.stopWfg m) := by
  unfold State.stopWfg; try dsimp only
  repeat' first | with_reducible (first | assumption | apply K.wfgEnd) | split | refine K.fst (by assumption) ?_ | refine K.snd (by assumption) ?_ | with_reducible apply K.upd

theorem KeepsMem.stopUnits (K : KeepsMem P) {s : State} {p : Nat → Bool} (hs : P s) :
    P (s.stopUnits p) := by
  unfold State.stopUnits; try dsimp only
  repeat' first | with_reducible (first | assumption | apply K.ite | apply K.ite1 | apply K.ite2 | apply K.stopPort | apply K.acqEnd | apply K.timStop | apply K.stopWfg | apply K.foldl | apply K.foldl1) | (intro _; intros) | with_reducible apply K.upd

theorem KeepsMem.loadStopped (K : KeepsMem P) {s : State} (hs : P s) :
    P (s.loadStopped) := by
  unfold State.loadStopped; try dsimp only
  repeat' first | with_reducible (first | assumption | apply K.ite | apply K.ite1 | apply K.ite2 | apply K.stopUnits | apply K.put) | split | refine K.fst (by assumption) ?_ | refine K.snd (by assumption) ?_ | with_reducible apply K.upd

theorem KeepsMem.smeFaultLoad (K : KeepsMem P) {s : State} {patchRam : Bool} (hs : P s) :
    P (s.smeFaultLoad patchRam) := by
  unfold State.smeFaultLoad; try dsimp only
  repeat' first | with_reducible (first | assumption | apply K.ite | apply K.ite1 | apply K.ite2 | apply K.smeFault | apply K.draw | apply K.endLoad | apply K.longOutcome | apply K.put) | split | refine K.fst (by assumption) ?_ | refine K.snd (by assumption) ?_ | with_reducible apply K.upd

theorem Keeps.structLoad (K : Keeps P) {s : State} {addr len : Nat} (hs : P s) :
    P (s.structLoad addr len) := by
  unfold State.structLoad; try dsimp only
  repeat' first | with_reducible (first | assumption | apply K.smeRequest | apply K.put) | with_reducible apply K.upd

theorem Keeps.hostReq (K : Keeps P) {s : State} {d : Fin 12} (hs : P s) :
    P (s.hostReq d) := by
  unfold State.hostReq; try dsimp only
  repeat' first | with_reducible (first | assumption | apply K.ite | apply K.ite1 | apply K.ite2 | apply K.put | apply K.produce) | with_reducible apply K.upd

theorem Keeps.stickyGo (K : Keeps P) {s : State} {p : Fin 8} (hs : P s) :
    P (s.stickyGo p) := by
  unfold State.stickyGo; try dsimp only
  repeat' first | with_reducible (first | assumption | apply K.ite | apply K.ite1 | apply K.ite2 | apply K.setPort | apply K.foldl | apply K.foldl1) | (intro _; intros) | with_reducible apply K.upd

theorem Keeps.swStrobe (K : Keeps P) {s : State} {v : Nat} (hs : P s) :
    P (s.swStrobe v) := by
  unfold State.swStrobe; try dsimp only
  repeat' first | with_reducible (first | assumption | apply K.ite | apply K.ite1 | apply K.ite2 | apply K.pulse | apply K.foldl | apply K.foldl1) | (intro _; intros) | with_reducible apply K.upd

theorem Keeps.verdictArrives (K : Keeps P) {s : State} {p : Fin 8} {site : Nat} {fail : Bool} (hs : P s) :
    P (s.verdictArrives p site fail) := by
  unfold State.verdictArrives; try dsimp only
  repeat' first | with_reducible (first | assumption | apply K.ite | apply K.ite1 | apply K.ite2 | apply K.put | apply K.produce) | with_reducible apply K.upd

theorem Keeps.x9Go (K : Keeps P) {s : State} {p : Fin 8} (hs : P s) :
    P (s.x9Go p) := by
  unfold State.x9Go; try dsimp only
  repeat' first | with_reducible (first | assumption | apply K.ite | apply K.ite1 | apply K.ite2 | apply K.verdictArrives | apply K.setPort | apply K.foldl | apply K.foldl1) | (intro _; intros) | with_reducible apply K.upd

theorem Keeps.bulkFail (K : Keeps P) {s : State} {k : Fin 8} {c : Fin 7} {op status tag addr : Nat} (hs : P s) :
    P (s.bulkFail k c op status tag addr) := by
  unfold State.bulkFail; try dsimp only
  repeat' first | with_reducible (first | assumption | apply K.enqueue) | with_reducible apply K.upd

theorem KeepsMem.bulkFreeze (K : KeepsMem P) {s : State} {k : Fin 8} {c : Fin 7} {x : RxItem} {req op : Nat} {y : Nat × Nat} (hs : P s) :
    ∀ tt, s.bulkFreeze k c x req op y = some tt → P tt := by
  intro x hx
  unfold State.bulkFreeze at hx
  obtain ⟨⟨ch, l⟩, _, rfl⟩ := Option.map_eq_some_iff.mp hx
  exact K.freeze (K.correctAll (K.setChan hs))

theorem Keeps.correctLines (K : Keeps P) {s : State} {req op : Nat} {l : List (Nat × Nat)} (hs : P s) :
    P (s.correctLines req op l) := by
  unfold State.correctLines; try dsimp only
  repeat' first | with_reducible (first | assumption | apply K.correctAll | apply K.foldl | apply K.foldl1) | (intro _; intros) | split | refine K.fst (by assumption) ?_ | refine K.snd (by assumption) ?_ | with_reducible apply K.upd

theorem KeepsMem.mergedWrite (K : KeepsMem P) {s : State} {l : List (Nat × Nat)} {a : Nat} {data : List Byte} (hs : P s) :
    P (s.mergedWrite l a data) := by
  unfold State.mergedWrite; try dsimp only
  repeat' first | with_reducible (first | assumption | apply K.setBytes | apply K.setLine | apply K.foldl | apply K.foldl1) | (intro _; intros) | split | refine K.fst (by assumption) ?_ | refine K.snd (by assumption) ?_ | with_reducible apply K.upd

theorem Keeps.poisoned (K : Keeps P) {s : State} {req : Nat} {l : List (Nat × Nat)} (hs : P s) :
    P (s.poisoned req l) := by
  unfold State.poisoned; try dsimp only
  repeat' first | with_reducible (first | assumption | apply K.ite | apply K.ite1 | apply K.ite2 | apply K.ev | apply K.cxlErr | apply K.count | apply K.foldl | apply K.foldl1) | (intro _; intros) | with_reducible apply K.upd

theorem KeepsMem.bulkStep (K : KeepsMem P) {s : State} {k : Fin 8} {c : Fin 7} {x : RxItem} (hs : P s) :
    ∀ tt, s.bulkStep k c x = some tt → P tt := by
  intro x hx
  unfold State.bulkStep at hx; try dsimp only at hx
  repeat' first | (simp at hx; done) | (split at hx) | (injection hx with hx; subst hx)
  all_goals repeat' first | with_reducible (first | assumption | apply K.ite | apply K.ite1 | apply K.ite2 | apply K.bulkFail | apply K.correctLines | apply K.unpattern | apply K.mergedWrite | apply K.enqueue | apply K.poisoned | apply K.foldl | apply K.foldl1) | refine K.bulkFreeze ?_ _ (by assumption) | (intro _; intros) | split | refine K.fst (by assumption) ?_ | refine K.snd (by assumption) ?_ | with_reducible apply K.upd

theorem Keeps.stageLow (K : Keeps P) {s : State} {a : Nat} {v : Word} (hs : P s) :
    P (s.stageLow a v) := by
  unfold State.stageLow; try dsimp only
  repeat' first | with_reducible (first | assumption) | with_reducible apply K.upd

theorem Keeps.unstage (K : Keeps P) {s : State} {a : Nat} (hs : P s) :
    P (s.unstage a) := by
  unfold State.unstage; try dsimp only
  repeat' first | with_reducible (first | assumption) | with_reducible apply K.upd

theorem Keeps.plainWrite (K : Keeps P) {s : State} {a : Nat} {r : Reg} {v : Word} (hs : P s) :
    P (s.plainWrite a r v) := by
  unfold State.plainWrite; try dsimp only
  repeat' first | with_reducible (first | assumption | apply K.wn) | with_reducible apply K.upd

theorem Keeps.pairWrite (K : Keeps P) {s : State} {a : Nat} {r : Reg} {v : Word} (hs : P s) :
    P (s.pairWrite a r v) := by
  unfold State.pairWrite; try dsimp only
  repeat' first | with_reducible (first | assumption | apply K.plainWrite | apply K.wn | apply K.unstage) | with_reducible apply K.upd

theorem Keeps.portCtlFields (K : Keeps P) {s : State} {p : Fin 8} {mode evt : Nat} (hs : P s) :
    P (s.portCtlFields p mode evt) := by
  unfold State.portCtlFields; try dsimp only
  repeat' first | with_reducible (first | assumption | apply K.ite | apply K.ite1 | apply K.ite2 | apply K.put) | with_reducible apply K.upd

theorem Keeps.claim (K : Keeps P) {s : State} {j : Fin 48} {i : Nat} {t : Task} (hs : P s) :
    P (s.claim j i t).1 := by
  unfold State.claim; try dsimp only
  repeat' first | with_reducible (first | assumption | apply K.ite | apply K.ite1 | apply K.ite2 | apply K.setSch) | with_reducible apply K.upd

theorem Keeps.becomeReady (K : Keeps P) {s : State} {i : Nat} {t : Task} (hs : P s) :
    P (s.becomeReady i t) := by
  unfold State.becomeReady; try dsimp only
  repeat' first | with_reducible (first | assumption | apply K.ite | apply K.ite1 | apply K.ite2 | apply K.nextOrd | apply K.putTask) | with_reducible apply K.upd

theorem Keeps.serve (K : Keeps P) {y0 : Nat} {y1 : State} {y2 : Fin 48} (hy1 : P y1) :
    P (State.serve y0 y1 y2) := by
  induction y0 generalizing y1 y2 with
  | zero => exact hy1
  | succ n ih =>
    unfold State.serve; try dsimp only
    repeat' first | with_reducible apply ih | with_reducible (first | assumption | apply K.ite | apply K.ite1 | apply K.ite2 | apply K.claim | apply K.becomeReady | apply K.putTask | apply K.foldl | apply K.foldl1) | (intro _; intros) | split | refine K.fst (by assumption) ?_ | refine K.snd (by assumption) ?_ | with_reducible apply K.upd

theorem Keeps.serveSource (K : Keeps P) {s : State} {j : Fin 48} (hs : P s) :
    P (s.serveSource j) := by
  unfold State.serveSource; try dsimp only
  repeat' first | with_reducible (first | assumption | apply K.serve) | with_reducible apply K.upd

theorem Keeps.syncSource (K : Keeps P) {s : State} {j : Fin 48} (hs : P s) :
    P (s.syncSource j) := by
  unfold State.syncSource; try dsimp only
  repeat' first | with_reducible (first | assumption | apply K.ite | apply K.ite1 | apply K.ite2 | apply K.serveSource | apply K.setSch) | with_reducible apply K.upd

theorem Keeps.syncSources (K : Keeps P) {s : State} (hs : P s) :
    P (s.syncSources) := by
  unfold State.syncSources; try dsimp only
  repeat' first | with_reducible (first | assumption | apply K.syncSource | apply K.foldl | apply K.foldl1) | (intro _; intros) | with_reducible apply K.upd

theorem Keeps.sourceArmed (K : Keeps P) {s : State} {j : Fin 48} {clear : Bool} (hs : P s) :
    P (s.sourceArmed j clear) := by
  unfold State.sourceArmed; try dsimp only
  repeat' first | with_reducible (first | assumption | apply K.ite | apply K.ite1 | apply K.ite2) | with_reducible apply K.upd

theorem Keeps.portArm (K : Keeps P) {s : State} {p : Fin 8} (hs : P s) :
    P (s.portArm p) := by
  unfold State.portArm; try dsimp only
  repeat' first | with_reducible (first | assumption | apply K.put | apply K.wn | apply K.wn64 | apply K.setSeq | apply K.sourceArmed | apply K.showHeld | apply K.setPort) | with_reducible apply K.upd

theorem Keeps.tmgFail (K : Keeps P) {s : State} {p : Fin 8} {code pin ts vec addr : Nat} (hs : P s) :
    P (s.tmgFail p code pin ts vec addr) := by
  unfold State.tmgFail; try dsimp only
  repeat' first | with_reducible (first | assumption | apply K.wn64 | apply K.put) | with_reducible apply K.upd

theorem Keeps.askSlots (K : Keeps P) {s : State} {d : Fin 12} {x : Nat} {stack : List Nat} {branch : Bool} (hs : P s) :
    P (s.askSlots d x stack branch).1 := by
  unfold State.askSlots; try dsimp only
  repeat' first | with_reducible (first | assumption | apply K.ite | apply K.ite1 | apply K.ite2 | apply K.setSeq) | with_reducible apply K.upd

theorem Keeps.walk (K : Keeps P) {s : State} {d : Fin 12} {branch : Bool} {y3 : Nat} {y4 : List (Nat × List Nat)} {y5 : List Nat} {y6 : Nat} (hs : P s) :
    P (s.walk d branch y3 y4 y5 y6).1 := by
  induction y3 generalizing y4 y5 y6 s with
  | zero => exact hs
  | succ n ih =>
    unfold State.walk; try dsimp only
    repeat' first | with_reducible apply ih | with_reducible (first | assumption | apply K.ite | apply K.ite1 | apply K.ite2 | apply K.askSlots | apply K.foldl | apply K.foldl1) | (intro _; intros) | split | refine K.fst (by assumption) ?_ | refine K.snd (by assumption) ?_ | with_reducible apply K.upd

theorem Keeps.planFrom (K : Keeps P) {s : State} {d : Fin 12} {x : Nat} (hs : P s) :
    P (s.planFrom d x) := by
  unfold State.planFrom; try dsimp only
  repeat' first | with_reducible (first | assumption | apply K.walk | apply K.setSeq) | split | refine K.fst (by assumption) ?_ | refine K.snd (by assumption) ?_ | with_reducible apply K.upd

theorem KeepsMem.portRun (K : KeepsMem P) {s : State} {p : Fin 8} (hs : P s) :
    P (s.portRun p) := by
  unfold State.portRun; try dsimp only
  repeat' first | with_reducible (first | assumption | apply K.ite | apply K.ite1 | apply K.ite2 | apply K.ev | apply K.put | apply K.portArm | apply K.portCancel | apply K.tmgFail | apply K.planFrom | apply K.setSeq) | split | refine K.fst (by assumption) ?_ | refine K.snd (by assumption) ?_ | with_reducible apply K.upd

theorem KeepsMem.portStop (K : KeepsMem P) {s : State} {p : Fin 8} (hs : P s) :
    P (s.portStop p) := by
  unfold State.portStop; try dsimp only
  repeat' first | with_reducible (first | assumption | apply K.ite | apply K.ite1 | apply K.ite2 | apply K.portCancel | apply K.portLeave | apply K.setSeq) | split | refine K.fst (by assumption) ?_ | refine K.snd (by assumption) ?_ | with_reducible apply K.upd

theorem KeepsMem.seqCtl (K : KeepsMem P) {s : State} {p : Fin 8} {v : Word} (hs : P s) :
    P (s.seqCtl p v) := by
  unfold State.seqCtl; try dsimp only
  repeat' first | with_reducible (first | assumption | apply K.ite | apply K.ite1 | apply K.ite2 | apply K.portCtlFields | apply K.syncSources | apply K.portRun | apply K.portStop) | with_reducible apply K.upd

theorem Keeps.jumpHost (K : Keeps P) {s : State} {d : Fin 12} {v : Word} (hs : P s) :
    P (s.jumpHost d v) := by
  unfold State.jumpHost; try dsimp only
  repeat' first | with_reducible (first | assumption | apply K.ite | apply K.ite1 | apply K.ite2 | apply K.put | apply K.hostReq) | with_reducible apply K.upd

theorem Keeps.fixM (K : Keeps P) {s : State} {d : Fin 12} {f : Rate} (hs : P s) :
    P (s.fixM d f) := by
  unfold State.fixM; try dsimp only
  repeat' first | with_reducible (first | assumption | apply K.ite | apply K.ite1 | apply K.ite2 | apply K.put | apply K.setDpl) | with_reducible apply K.upd

theorem Keeps.bandWrite (K : Keeps P) {s : State} {p : Fin 8} {band : Nat} (hs : P s) :
    P (s.bandWrite p band) := by
  unfold State.bandWrite; try dsimp only
  repeat' first | with_reducible (first | assumption | apply K.ite | apply K.ite1 | apply K.ite2 | apply K.fixM | apply K.put) | with_reducible apply K.upd

theorem KeepsMem.prtWrite (K : KeepsMem P) {s : State} {p : Fin 8} {o a : Nat} {r : Reg} {v : Word} (hs : P s) :
    P (s.prtWrite p o a r v) := by
  unfold State.prtWrite; try dsimp only
  repeat' first | with_reducible (first | assumption | apply K.ite | apply K.ite1 | apply K.ite2 | apply K.seqCtl | apply K.jumpHost | apply K.bandWrite | apply K.plainWrite) | with_reducible apply K.upd

theorem Keeps.commitWord (K : Keeps P) {s : State} {d : Fin 12} (hs : P s) :
    P (s.commitWord d) := by
  unfold State.commitWord; try dsimp only
  repeat' first | with_reducible (first | assumption | apply K.ite | apply K.ite1 | apply K.ite2 | apply K.put | apply K.setDpl | apply K.fixM | apply K.acquire | apply K.follow) | with_reducible apply K.upd

theorem Keeps.dplCtl (K : Keeps P) {s : State} {d : Fin 12} {v : Word} (hs : P s) :
    P (s.dplCtl d v) := by
  unfold State.dplCtl; try dsimp only
  repeat' first | with_reducible (first | assumption | apply K.ite | apply K.ite1 | apply K.ite2 | apply K.put | apply K.commitWord | apply K.dplReseed | apply K.dplRun | apply K.dplRunOff) | with_reducible apply K.upd

theorem Keeps.dplWrite (K : Keeps P) {s : State} {d : Fin 12} {o a : Nat} {r : Reg} {v : Word} (hs : P s) :
    P (s.dplWrite d o a r v) := by
  unfold State.dplWrite; try dsimp only
  repeat' first | with_reducible (first | assumption | apply K.ite | apply K.ite1 | apply K.ite2 | apply K.dplCtl | apply K.plainWrite | apply K.phaseReq) | with_reducible apply K.upd

theorem Keeps.trailheadArm (K : Keeps P) {s : State} (hs : P s) :
    P (s.trailheadArm) := by
  unfold State.trailheadArm; try dsimp only
  repeat' first | with_reducible (first | assumption | apply K.ite | apply K.ite1 | apply K.ite2 | apply K.put) | with_reducible apply K.upd

theorem Keeps.tmbWrite (K : Keeps P) {s : State} {o a : Nat} {r : Reg} {v : Word} (hs : P s) :
    P (s.tmbWrite o a r v) := by
  unfold State.tmbWrite; try dsimp only
  repeat' first | with_reducible (first | assumption | apply K.ite | apply K.ite1 | apply K.ite2 | apply K.plainWrite | apply K.trailheadArm) | with_reducible apply K.upd

theorem KeepsMem.acqCtl (K : KeepsMem P) {s : State} {e : Fin 8} {v : Word} (hs : P s) :
    P (s.acqCtl e v) := by
  unfold State.acqCtl; try dsimp only
  repeat' first | with_reducible (first | assumption | apply K.ite | apply K.ite1 | apply K.ite2 | apply K.put | apply K.acqArm | apply K.acqStop | apply K.syncSources | apply K.acqForce) | with_reducible apply K.upd

theorem Keeps.drainRdWrite (K : Keeps P) {s : State} {e : Fin 8} {v : Nat} (hs : P s) :
    P (s.drainRdWrite e v) := by
  unfold State.drainRdWrite; try dsimp only
  repeat' first | with_reducible (first | assumption | apply K.releaseItems | apply K.acqDrainRd) | with_reducible apply K.upd

theorem KeepsMem.acqWrite (K : KeepsMem P) {s : State} {e : Fin 8} {o a : Nat} {r : Reg} {v : Word} (hs : P s) :
    P (s.acqWrite e o a r v) := by
  unfold State.acqWrite; try dsimp only
  repeat' first | with_reducible (first | assumption | apply K.ite | apply K.ite1 | apply K.ite2 | apply K.acqCtl | apply K.syncSources | apply K.drainRdWrite | apply K.plainWrite) | with_reducible apply K.upd

theorem Keeps.timArm (K : Keeps P) {s : State} {t : Fin 32} {v1 v2 : BitVec 12} (hs : P s) :
    P (s.timArm t v1 v2) := by
  unfold State.timArm; try dsimp only
  repeat' first | with_reducible (first | assumption | apply K.ite | apply K.ite1 | apply K.ite2 | apply K.put | apply K.ev | apply K.wn | apply K.setTim | apply K.wn64 | apply K.sourceArmed) | with_reducible apply K.upd

theorem Keeps.timCtlPair (K : Keeps P) {s : State} {t : Fin 32} {v : Word} {v1 v2 : BitVec 12} (hs : P s) :
    P (s.timCtlPair t v v1 v2) := by
  unfold State.timCtlPair; try dsimp only
  repeat' first | with_reducible (first | assumption | apply K.ite | apply K.ite1 | apply K.ite2 | apply K.put | apply K.syncSources | apply K.timArm | apply K.timStop) | with_reducible apply K.upd

theorem Keeps.timCtl (K : Keeps P) {s : State} {t : Fin 32} {v : Word} (hs : P s) :
    P (s.timCtl t v) := by
  unfold State.timCtl; try dsimp only
  repeat' first | with_reducible (first | assumption | apply K.timCtlPair | apply K.draw) | with_reducible apply K.upd

theorem Keeps.timHistClear (K : Keeps P) {s : State} {t : Fin 32} (hs : P s) :
    P (s.timHistClear t) := by
  unfold State.timHistClear; try dsimp only
  repeat' first | with_reducible (first | assumption | apply K.put) | with_reducible apply K.upd

theorem Keeps.histCtl (K : Keeps P) {s : State} {t : Fin 32} {a : Nat} {r : Reg} {v : Word} (hs : P s) :
    P (s.histCtl t a r v) := by
  unfold State.histCtl; try dsimp only
  repeat' first | with_reducible (first | assumption | apply K.ite | apply K.ite1 | apply K.ite2 | apply K.plainWrite | apply K.timHistClear) | with_reducible apply K.upd

theorem Keeps.timWrite (K : Keeps P) {s : State} {t : Fin 32} {o a : Nat} {r : Reg} {v : Word} (hs : P s) :
    P (s.timWrite t o a r v) := by
  unfold State.timWrite; try dsimp only
  repeat' first | with_reducible (first | assumption | apply K.ite | apply K.ite1 | apply K.ite2 | apply K.timCtl | apply K.histCtl | apply K.plainWrite) | with_reducible apply K.upd

theorem Keeps.wfgRun (K : Keeps P) {s : State} {m : Fin 4} (hs : P s) :
    P (s.wfgRun m) := by
  unfold State.wfgRun; try dsimp only
  repeat' first | with_reducible (first | assumption | apply K.ite | apply K.ite1 | apply K.ite2 | apply K.wn | apply K.put | apply K.wn64 | apply K.setSeq | apply K.wfgEnd | apply K.planFrom | apply K.setWfg) | split | refine K.fst (by assumption) ?_ | refine K.snd (by assumption) ?_ | with_reducible apply K.upd

theorem Keeps.wfgStop (K : Keeps P) {s : State} {m : Fin 4} (hs : P s) :
    P (s.wfgStop m) := by
  unfold State.wfgStop; try dsimp only
  repeat' first | with_reducible (first | assumption | apply K.ite | apply K.ite1 | apply K.ite2 | apply K.wfgEnd | apply K.setSeq) | split | refine K.fst (by assumption) ?_ | refine K.snd (by assumption) ?_ | with_reducible apply K.upd

theorem Keeps.wfgCtl (K : Keeps P) {s : State} {m : Fin 4} {v : Word} (hs : P s) :
    P (s.wfgCtl m v) := by
  unfold State.wfgCtl; try dsimp only
  repeat' first | with_reducible (first | assumption | apply K.ite | apply K.ite1 | apply K.ite2 | apply K.put | apply K.wfgMarkers | apply K.wfgRun | apply K.wfgStop) | with_reducible apply K.upd

theorem Keeps.wfgWrite (K : Keeps P) {s : State} {m : Fin 4} {o a : Nat} {r : Reg} {v : Word} (hs : P s) :
    P (s.wfgWrite m o a r v) := by
  unfold State.wfgWrite; try dsimp only
  repeat' first | with_reducible (first | assumption | apply K.ite | apply K.ite1 | apply K.ite2 | apply K.wfgCtl | apply K.jumpHost | apply K.plainWrite) | with_reducible apply K.upd

theorem Keeps.pdacCode (K : Keeps P) {s : State} {u : Fin 16} {c : Nat} (hs : P s) :
    P (s.pdacCode u c) := by
  unfold State.pdacCode; try dsimp only
  repeat' first | with_reducible (first | assumption | apply K.ite | apply K.ite1 | apply K.ite2 | apply K.setPdac | apply K.put | apply K.pdacLoad) | with_reducible apply K.upd

theorem Keeps.pdcWrite (K : Keeps P) {s : State} {u : Fin 16} {o a : Nat} {r : Reg} {v : Word} (hs : P s) :
    P (s.pdcWrite u o a r v) := by
  unfold State.pdcWrite; try dsimp only
  repeat' first | with_reducible (first | assumption | apply K.ite | apply K.ite1 | apply K.ite2 | apply K.pdacCode | apply K.setPdac | apply K.plainWrite) | with_reducible apply K.upd

theorem Keeps.gload (K : Keeps P) {s : State} {v : Word} (hs : P s) :
    P (s.gload v) := by
  unfold State.gload; try dsimp only
  repeat' first | with_reducible (first | assumption | apply K.ite | apply K.ite1 | apply K.ite2 | apply K.pdacGroup | apply K.foldl | apply K.foldl1) | (intro _; intros) | with_reducible apply K.upd

theorem Keeps.x9All (K : Keeps P) {s : State} (hs : P s) :
    P (s.x9All) := by
  unfold State.x9All; try dsimp only
  repeat' first | with_reducible (first | assumption | apply K.x9Go | apply K.foldl | apply K.foldl1) | (intro _; intros) | with_reducible apply K.upd

theorem Keeps.setSlk (K : Keeps P) {s : State} {x : SlkH} (hs : P s) :
    P (s.setSlk x) := by
  unfold State.setSlk; try dsimp only
  repeat' first | with_reducible (first | assumption) | with_reducible apply K.upd

theorem Keeps.slkDeliver (K : Keeps P) {s : State} {site : Nat} {fail : Bool} (hs : P s) :
    P (s.slkDeliver site fail) := by
  unfold State.slkDeliver; try dsimp only
  repeat' first | with_reducible (first | assumption | apply K.ite | apply K.ite1 | apply K.ite2 | apply K.ev | apply K.count | apply K.setPort | apply K.foldl | apply K.foldl1) | (intro _; intros) | with_reducible apply K.upd

theorem Keeps.slkForm (K : Keeps P) {s : State} {site round : Nat} {fail : Bool} {cause : Nat} (hs : P s) :
    P (s.slkForm site round fail cause) := by
  unfold State.slkForm; try dsimp only
  repeat' first | with_reducible (first | assumption | apply K.ite | apply K.ite1 | apply K.ite2 | apply K.setSlk | apply K.wn | apply K.ev | apply K.count | apply K.slkDeliver) | with_reducible apply K.upd

theorem Keeps.slkFormAll (K : Keeps P) {s : State} {l : List SlkRound} {cause : Nat} (hs : P s) :
    P (s.slkFormAll l cause) := by
  unfold State.slkFormAll; try dsimp only
  repeat' first | with_reducible (first | assumption | apply K.slkForm | apply K.foldl | apply K.foldl1) | (intro _; intros) | with_reducible apply K.upd

theorem Keeps.slkLeaveUp (K : Keeps P) {s : State} (hs : P s) :
    P (s.slkLeaveUp) := by
  unfold State.slkLeaveUp; try dsimp only
  repeat' first | with_reducible (first | assumption | apply K.ev | apply K.put | apply K.count | apply K.setSlk | apply K.slkFormAll) | with_reducible apply K.upd

theorem Keeps.slkDisable (K : Keeps P) {s : State} (hs : P s) :
    P (s.slkDisable) := by
  unfold State.slkDisable; try dsimp only
  repeat' first | with_reducible (first | assumption | apply K.ite | apply K.ite1 | apply K.ite2 | apply K.put | apply K.setSlk | apply K.slkLeaveUp) | with_reducible apply K.upd

theorem Keeps.slkEnable (K : Keeps P) {s : State} (hs : P s) :
    P (s.slkEnable) := by
  unfold State.slkEnable; try dsimp only
  repeat' first | with_reducible (first | assumption | apply K.ite | apply K.ite1 | apply K.ite2 | apply K.put) | with_reducible apply K.upd

theorem Keeps.slkCtl (K : Keeps P) {s : State} {v : Word} (hs : P s) :
    P (s.slkCtl v) := by
  unfold State.slkCtl; try dsimp only
  repeat' first | with_reducible (first | assumption | apply K.ite | apply K.ite1 | apply K.ite2 | apply K.x9All | apply K.slkDisable | apply K.put | apply K.slkEnable) | with_reducible apply K.upd

theorem Keeps.slkStart (K : Keeps P) {s : State} {t : Nat} {body : List Byte} (hs : P s) :
    P (s.slkStart t body) := by
  unfold State.slkStart; try dsimp only
  repeat' first | with_reducible (first | assumption | apply K.ite | apply K.ite1 | apply K.ite2 | apply K.setSlk) | with_reducible apply K.upd

theorem Keeps.slkDrainN (K : Keeps P) {y0 : Nat} {y1 : State} (hy1 : P y1) :
    P (State.slkDrainN y0 y1) := by
  induction y0 generalizing y1 with
  | zero => exact hy1
  | succ n ih =>
    unfold State.slkDrainN; try dsimp only
    repeat' first | with_reducible apply ih | with_reducible (first | assumption | apply K.ite | apply K.ite1 | apply K.ite2 | apply K.slkStart | apply K.setSlk | apply K.foldl | apply K.foldl1) | (intro _; intros) | split | refine K.fst (by assumption) ?_ | refine K.snd (by assumption) ?_ | with_reducible apply K.upd

theorem Keeps.slkDrain (K : Keeps P) {s : State} (hs : P s) :
    P (s.slkDrain) := by
  unfold State.slkDrain; try dsimp only
  repeat' first | with_reducible (first | assumption | apply K.slkDrainN) | with_reducible apply K.upd

theorem Keeps.slkOwn (K : Keeps P) {s : State} {typ : Nat} {rest : List Byte} (hs : P s) :
    P (s.slkOwn typ rest) := by
  unfold State.slkOwn; try dsimp only
  repeat' first | with_reducible (first | assumption | apply K.ite | apply K.ite1 | apply K.ite2 | apply K.slkDrain | apply K.setSlk) | with_reducible apply K.upd

theorem Keeps.slkThSend (K : Keeps P) {s : State} (hs : P s) :
    P (s.slkThSend) := by
  unfold State.slkThSend; try dsimp only
  repeat' first | with_reducible (first | assumption | apply K.ite | apply K.ite1 | apply K.ite2 | apply K.slkOwn | apply K.put) | with_reducible apply K.upd

theorem Keeps.slkWrite (K : Keeps P) {s : State} {o a : Nat} {r : Reg} {v : Word} (hs : P s) :
    P (s.slkWrite o a r v) := by
  unfold State.slkWrite; try dsimp only
  repeat' first | with_reducible (first | assumption | apply K.ite | apply K.ite1 | apply K.ite2 | apply K.slkCtl | apply K.plainWrite | apply K.slkThSend) | with_reducible apply K.upd

theorem Keeps.schResult (K : Keeps P) {s : State} {i code : Nat} (hs : P s) :
    P (s.schResult i code) := by
  unfold State.schResult; try dsimp only
  repeat' first | with_reducible (first | assumption | apply K.put) | with_reducible apply K.upd

theorem Keeps.takeSeq (K : Keeps P) {s : State} {f : Nat} (hs : P s) :
    P (s.takeSeq f).2 := by
  unfold State.takeSeq; try dsimp only
  repeat' first | with_reducible (first | assumption | apply K.ite | apply K.ite1 | apply K.ite2 | apply K.wn | apply K.put) | with_reducible apply K.upd

theorem Keeps.createTask (K : Keeps P) {s : State} {i : Nat} {d : Desc} {par : List Byte} (hs : P s) :
    P (s.createTask i d par) := by
  unfold State.createTask; try dsimp only
  repeat' first | with_reducible (first | assumption | apply K.ite | apply K.ite1 | apply K.ite2 | apply K.takeSeq | apply K.nextOrd | apply K.serveSource | apply K.putTask | apply K.becomeReady) | split | refine K.fst (by assumption) ?_ | refine K.snd (by assumption) ?_ | with_reducible apply K.upd

theorem Keeps.taskSubmit (K : Keeps P) {s : State} {i : Nat} (hs : P s) :
    P (s.taskSubmit i) := by
  unfold State.taskSubmit; try dsimp only
  repeat' first | with_reducible (first | assumption | apply K.ite | apply K.ite1 | apply K.ite2 | apply K.schResult | apply K.ev | apply K.count | apply K.putTask | apply K.takeSeq | apply K.nextOrd | apply K.createTask) | split | refine K.fst (by assumption) ?_ | refine K.snd (by assumption) ?_ | with_reducible apply K.upd

theorem Keeps.freeSlot (K : Keeps P) {s : State} {i : Nat} (hs : P s) :
    P (s.freeSlot i) := by
  unfold State.freeSlot; try dsimp only
  repeat' first | with_reducible (first | assumption | apply K.setTasks) | with_reducible apply K.upd

theorem Keeps.taskCancel (K : Keeps P) {s : State} {i : Nat} (hs : P s) :
    P (s.taskCancel i) := by
  unfold State.taskCancel; try dsimp only
  repeat' first | with_reducible (first | assumption | apply K.ite | apply K.ite1 | apply K.ite2 | apply K.schResult | apply K.ev | apply K.count | apply K.freeSlot | apply K.taskDone | apply K.setSch | apply K.serveSource | apply K.coreFree) | split | refine K.fst (by assumption) ?_ | refine K.snd (by assumption) ?_ | with_reducible apply K.upd

theorem Keeps.slotReturn (K : Keeps P) {s : State} {i : Nat} (hs : P s) :
    P (s.slotReturn i) := by
  unfold State.slotReturn; try dsimp only
  repeat' first | with_reducible (first | assumption | apply K.ite | apply K.ite1 | apply K.ite2 | apply K.schResult | apply K.freeSlot) | with_reducible apply K.upd

theorem Keeps.schSubmit (K : Keeps P) {s : State} {v : Word} (hs : P s) :
    P (s.schSubmit v) := by
  unfold State.schSubmit; try dsimp only
  repeat' first | with_reducible (first | assumption | apply K.taskSubmit | apply K.taskCancel | apply K.slotReturn) | split | refine K.fst (by assumption) ?_ | refine K.snd (by assumption) ?_ | with_reducible apply K.upd

theorem Keeps.fringRdWrite (K : Keeps P) {s : State} {p : Fin 8} {v : Nat} (hs : P s) :
    P (s.fringRdWrite p v) := by
  unfold State.fringRdWrite; try dsimp only
  repeat' first | with_reducible (first | assumption | apply K.ite | apply K.ite1 | apply K.ite2 | apply K.releaseItems | apply K.wn) | with_reducible apply K.upd

theorem Keeps.flowReset (K : Keeps P) {s : State} {f : Nat} (hs : P s) :
    P (s.flowReset f) := by
  unfold State.flowReset; try dsimp only
  repeat' first | with_reducible (first | assumption | apply K.ite | apply K.ite1 | apply K.ite2 | apply K.wn) | with_reducible apply K.upd

theorem Keeps.flowCfg (K : Keeps P) {s : State} {f a : Nat} {r : Reg} {v : Word} (hs : P s) :
    P (s.flowCfg f a r v) := by
  unfold State.flowCfg; try dsimp only
  repeat' first | with_reducible (first | assumption | apply K.ite | apply K.ite1 | apply K.ite2 | apply K.plainWrite | apply K.flowReset) | with_reducible apply K.upd

theorem Keeps.schWrite (K : Keeps P) {s : State} {o a : Nat} {r : Reg} {v : Word} (hs : P s) :
    P (s.schWrite o a r v) := by
  unfold State.schWrite; try dsimp only
  repeat' first | with_reducible (first | assumption | apply K.ite | apply K.ite1 | apply K.ite2 | apply K.schSubmit | apply K.fringRdWrite | apply K.plainWrite | apply K.flowCfg) | with_reducible apply K.upd

theorem Keeps.dmcWrite (K : Keeps P) {s : State} {c : Fin 4} {o a : Nat} {r : Reg} {v : Word} (hs : P s) :
    P (s.dmcWrite c o a r v) := by
  unfold State.dmcWrite; try dsimp only
  repeat' first | with_reducible (first | assumption | apply K.ite | apply K.ite1 | apply K.ite2 | apply K.plainWrite | apply K.freezeRelease | apply K.diagStart) | with_reducible apply K.upd

theorem KeepsMem.cxhCtl (K : KeepsMem P) {s : State} {a : Nat} {r : Reg} {v : Word} (hs : P s) :
    P (s.cxhCtl a r v) := by
  unfold State.cxhCtl; try dsimp only
  repeat' first | with_reducible (first | assumption | apply K.ite | apply K.ite1 | apply K.ite2 | apply K.plainWrite | apply K.cxlEnable | apply K.cxlDisable | apply K.cxlReenum) | with_reducible apply K.upd

theorem Keeps.policyWrite (K : Keeps P) {s : State} {v : Nat} (hs : P s) :
    P (s.policyWrite v) := by
  unfold State.policyWrite; try dsimp only
  repeat' first | with_reducible (first | assumption | apply K.showPolicy | apply K.setSec) | with_reducible apply K.upd

theorem Keeps.calWrite (K : Keeps P) {s : State} {o a : Nat} {r : Reg} {v : Word} (hs : P s) :
    P (s.calWrite o a r v) := by
  unfold State.calWrite; try dsimp only
  repeat' first | with_reducible (first | assumption | apply K.ite | apply K.ite1 | apply K.ite2 | apply K.calRun | apply K.t64Write | apply K.plainWrite) | with_reducible apply K.upd

theorem KeepsMem.quadrantReset (K : KeepsMem P) {s : State} {go : Nat} (hs : P s) :
    P (s.quadrantReset go) := by
  unfold State.quadrantReset; try dsimp only
  repeat' first | with_reducible (first | assumption | apply K.ite | apply K.ite1 | apply K.ite2 | apply K.stopUnits | apply K.closeRegion | apply K.dplRunOff | apply K.put | apply K.foldl | apply K.foldl1) | (intro _; intros) | with_reducible apply K.upd

theorem Keeps.rwlIgnored (K : Keeps P) {s : State} (hs : P s) :
    P (s.rwlIgnored) := by
  unfold State.rwlIgnored; try dsimp only
  repeat' first | with_reducible (first | assumption | apply K.ev | apply K.put | apply K.count) | with_reducible apply K.upd

theorem KeepsMem.powerTo (K : KeepsMem P) {s : State} {mask : Nat} (hs : P s) :
    P (s.powerTo mask) := by
  unfold State.powerTo; try dsimp only
  repeat' first | with_reducible (first | assumption | apply K.ite | apply K.ite1 | apply K.ite2 | apply K.domainDown | apply K.groupOff | apply K.put | apply K.foldl | apply K.foldl1) | (intro _; intros) | with_reducible apply K.upd

theorem KeepsMem.powerWrite (K : KeepsMem P) {s : State} {mask : Nat} (hs : P s) :
    P (s.powerWrite mask) := by
  unfold State.powerWrite; try dsimp only
  repeat' first | with_reducible (first | assumption | apply K.ite | apply K.ite1 | apply K.ite2 | apply K.put | apply K.powerTo) | with_reducible apply K.upd

theorem KeepsMem.pwrDomainWrite (K : KeepsMem P) {s : State} {hi : Bool} {v : Word} (hs : P s) :
    P (s.pwrDomainWrite hi v) := by
  unfold State.pwrDomainWrite; try dsimp only
  repeat' first | with_reducible (first | assumption | apply K.ite | apply K.ite1 | apply K.ite2 | apply K.rwlIgnored | apply K.stageLow | apply K.powerWrite | apply K.unstage) | with_reducible apply K.upd

theorem Keeps.setPeb (K : Keeps P) {s : State} {b : Fin 8} {x : PebH} (hs : P s) :
    P (s.setPeb b x) := by
  unfold State.setPeb; try dsimp only
  repeat' first | with_reducible (first | assumption) | with_reducible apply K.upd

theorem Keeps.pebCtl (K : Keeps P) {s : State} {b : Fin 8} {v : Word} (hs : P s) :
    P (s.pebCtl b v) := by
  unfold State.pebCtl; try dsimp only
  repeat' first | with_reducible (first | assumption | apply K.ite | apply K.ite1 | apply K.ite2 | apply K.put | apply K.setPeb) | with_reducible apply K.upd

theorem Keeps.pebTxn (K : Keeps P) {s : State} {b : Fin 8} {v : Word} (hs : P s) :
    P (s.pebTxn b v) := by
  unfold State.pebTxn; try dsimp only
  repeat' first | with_reducible (first | assumption | apply K.ite | apply K.ite1 | apply K.ite2 | apply K.put) | with_reducible apply K.upd

theorem KeepsMem.blkWrite (K : KeepsMem P) {s : State} {b : Blk} {u o a : Nat} {r : Reg} {v : Word} (hs : P s) :
    P (s.blkWrite b u o a r v) := by
  unfold State.blkWrite; try dsimp only
  repeat' first | with_reducible (first | assumption | apply K.ite | apply K.ite1 | apply K.ite2 | apply K.prtWrite | apply K.dplWrite | apply K.tmbWrite | apply K.acqWrite | apply K.timWrite | apply K.plainWrite | apply K.wfgWrite | apply K.pdcWrite | apply K.gload | apply K.slkWrite | apply K.schWrite | apply K.dmcWrite | apply K.cxhCtl | apply K.netCtl | apply K.policyWrite | apply K.calWrite | apply K.swStrobe | apply K.latchClear | apply K.quadrantReset | apply K.pwrDomainWrite | apply K.pebCtl | apply K.pebTxn) | split | refine K.fst (by assumption) ?_ | refine K.snd (by assumption) ?_ | with_reducible apply K.upd

theorem KeepsMem.csrPut (K : KeepsMem P) {s : State} {b : Blk} {u o a : Nat} {r : Reg} {v : Word} (hs : P s) :
    P (s.csrPut b u o a r v) := by
  unfold State.csrPut; try dsimp only
  repeat' first | with_reducible (first | assumption | apply K.ite | apply K.ite1 | apply K.ite2 | apply K.stageLow | apply K.unstage | apply K.pairWrite | apply K.blkWrite) | with_reducible apply K.upd

theorem KeepsMem.csrWrite (K : KeepsMem P) {s : State} {a : Nat} {v : Word} (hs : P s) :
    ∀ tt, s.csrWrite a v = some tt → P tt := by
  intro x hx
  unfold State.csrWrite at hx; try dsimp only at hx
  repeat' first | (simp at hx; done) | (split at hx) | (injection hx with hx; subst hx)
  all_goals repeat' first | with_reducible (first | assumption | apply K.ite | apply K.ite1 | apply K.ite2 | apply K.csrPut) | split | refine K.fst (by assumption) ?_ | refine K.snd (by assumption) ?_ | with_reducible apply K.upd

theorem KeepsMem.csrSteps (K : KeepsMem P) {m : Nat} {write : Bool} {y2 : List (Nat × Nat)} {y3 : State} {y4 : Nat} {y5 : List Byte} (hy3 : P y3) :
    P (State.csrSteps m write y2 y3 y4 y5).2.2.2 := by
  induction y2 generalizing y3 y4 y5 with
  | nil => exact hy3
  | cons x l ih =>
    unfold State.csrSteps
    cases write <;> simp only [Bool.false_eq_true, if_false, if_true] <;> split
    · exact hy3
    · exact ih (K.csrRead hy3)
    · exact hy3
    · exact ih (K.getD hy3 fun t h => K.csrWrite hy3 t h)

theorem KeepsMem.regWrite (K : KeepsMem P) {s : State} {a : Nat} {v : Word} (hs : P s) :
    P (s.regWrite a v) := by
  unfold State.regWrite
  exact K.ite hs (K.ite (K.upd hs) (K.getD hs fun t h => K.csrWrite hs t h))

theorem KeepsMem.heldWrites (K : KeepsMem P) {s : State} (hs : P s) :
    P (s.heldWrites) := by
  unfold State.heldWrites; try dsimp only
  repeat' first | with_reducible (first | assumption | apply K.regWrite | apply K.foldl | apply K.foldl1) | (intro _; intros) | with_reducible apply K.upd

theorem Keeps.csrReply (K : Keeps P) {s : State} {w : CsrWait} {status info : Nat} {data : List Byte} (hs : P s) :
    P (s.csrReply w status info data) := by
  unfold State.csrReply; try dsimp only
  repeat' first | with_reducible (first | assumption | apply K.ite | apply K.ite1 | apply K.ite2 | apply K.reply) | split | refine K.fst (by assumption) ?_ | refine K.snd (by assumption) ?_ | with_reducible apply K.upd

theorem KeepsMem.csrCmd (K : KeepsMem P) {s : State} {w : CsrWait} (hs : P s) :
    P (s.csrCmd w) := by
  unfold State.csrCmd; try dsimp only
  repeat' first | with_reducible (first | assumption | apply K.ite | apply K.ite1 | apply K.ite2 | apply K.csrSteps | apply K.heldWrites | apply K.csrReply) | split | refine K.fst (by assumption) ?_ | refine K.snd (by assumption) ?_ | with_reducible apply K.upd

end Sys2Proof.Machine
end

