-- ==== Sys2Proof/Laws/KeepE.lean ====
section
/-! SUPPORT. What the operations keep (see Keep.lean), in the order in which they call one another: part 5 of 7. -/

namespace Sys2Proof.Machine

variable {P : State → Prop}

theorem KeepsMem.cmdCsrRead (K : KeepsMem P) {s : State} {k : Fin 8} {tag seq : Nat} {l : List Byte} (hs : P s) :
    P (s.cmdCsrRead k tag seq l) := by
  unfold State.cmdCsrRead; try dsimp only
  repeat' first | with_reducible (first | assumption | apply K.ite | apply K.ite1 | apply K.ite2 | apply K.reply | apply K.csrCmd) | with_reducible apply K.upd

theorem KeepsMem.cmdCsrWrite (K : KeepsMem P) {s : State} {k : Fin 8} {tag seq : Nat} {l : List Byte} (hs : P s) :
    P (s.cmdCsrWrite k tag seq l) := by
  unfold State.cmdCsrWrite; try dsimp only
  repeat' first | with_reducible (first | assumption | apply K.ite | apply K.ite1 | apply K.ite2 | apply K.reply | apply K.csrCmd) | split | refine K.fst (by assumption) ?_ | refine K.snd (by assumption) ?_ | with_reducible apply K.upd

theorem Keeps.cmdGetCert (K : Keeps P) {s : State} {k : Fin 8} {tag seq : Nat} {l : List Byte} (hs : P s) :
    P (s.cmdGetCert k tag seq l) := by
  unfold State.cmdGetCert; try dsimp only
  repeat' first | with_reducible (first | assumption | apply K.ite | apply K.ite1 | apply K.ite2 | apply K.reply) | with_reducible apply K.upd

theorem Keeps.longBegin (K : Keeps P) {s : State} {k : Fin 8} {opcode tag seq bound : Nat} (hs : P s) :
    P (s.longBegin k opcode tag seq bound) := by
  unfold State.longBegin; try dsimp only
  repeat' first | with_reducible (first | assumption | apply K.ev | apply K.put) | with_reducible apply K.upd

theorem Keeps.cmdImage (K : Keeps P) {s : State} {k : Fin 8} {opcode tag seq : Nat} {l : List Byte} {bound : Nat} {go : State → Nat → Nat → State} (hs : P s) (hgo : ∀ x y z, P x → P (go x y z)) :
    P (s.cmdImage k opcode tag seq l bound go) := by
  unfold State.cmdImage; try dsimp only
  repeat' first | with_reducible apply hgo | with_reducible (first | assumption | apply K.ite | apply K.ite1 | apply K.ite2 | apply K.reply | apply K.longBegin) | with_reducible apply K.upd

theorem Keeps.cmdPlain (K : Keeps P) {s : State} {k : Fin 8} {opcode tag seq : Nat} {l : List Byte} {bound : Nat} {go : State → State} (hs : P s) (hgo : ∀ x, P x → P (go x)) :
    P (s.cmdPlain k opcode tag seq l bound go) := by
  unfold State.cmdPlain; try dsimp only
  repeat' first | with_reducible apply hgo | with_reducible (first | assumption | apply K.ite | apply K.ite1 | apply K.ite2 | apply K.reply | apply K.longBegin) | with_reducible apply K.upd

theorem Keeps.trainGoes (K : Keeps P) {s : State} (hs : P s) :
    P (s.trainGoes) := by
  unfold State.trainGoes; try dsimp only
  repeat' first | with_reducible (first | assumption | apply K.smeRequest | apply K.longOutcome) | split | refine K.fst (by assumption) ?_ | refine K.snd (by assumption) ?_ | with_reducible apply K.upd

theorem Keeps.fullTrain (K : Keeps P) {s : State} {mask : Nat} (hs : P s) :
    P (s.fullTrain mask) := by
  unfold State.fullTrain; try dsimp only
  repeat' first | with_reducible (first | assumption | apply K.trainGoes | apply K.trainNext) | with_reducible apply K.upd

theorem Keeps.cmdTrain (K : Keeps P) {s : State} {k : Fin 8} {tag seq : Nat} {l : List Byte} (hs : P s) :
    P (s.cmdTrain k tag seq l) := by
  unfold State.cmdTrain; try dsimp only
  repeat' first | with_reducible (first | assumption | apply K.ite | apply K.ite1 | apply K.ite2 | apply K.reply | apply K.fullTrain | apply K.longBegin) | with_reducible apply K.upd

theorem Keeps.cmdWarmReset (K : Keeps P) {s : State} {k : Fin 8} {tag seq : Nat} {l : List Byte} (hs : P s) :
    P (s.cmdWarmReset k tag seq l) := by
  unfold State.cmdWarmReset; try dsimp only
  repeat' first | with_reducible (first | assumption | apply K.ite | apply K.ite1 | apply K.ite2 | apply K.reply | apply K.setSess) | with_reducible apply K.upd

theorem Keeps.longEnd (K : Keeps P) {s : State} (hs : P s) :
    P (s.longEnd) := by
  unfold State.longEnd; try dsimp only
  repeat' first | with_reducible (first | assumption | apply K.ite | apply K.ite1 | apply K.ite2 | apply K.ev | apply K.wn | apply K.put | apply K.reply) | split | refine K.fst (by assumption) ?_ | refine K.snd (by assumption) ?_ | with_reducible apply K.upd

theorem KeepsMem.fwUpdate (K : KeepsMem P) {s : State} {addr len : Nat} {flashOk : Bool} (hs : P s) :
    P (s.fwUpdate addr len flashOk) := by
  unfold State.fwUpdate; try dsimp only
  repeat' first | with_reducible (first | assumption | apply K.ite | apply K.ite1 | apply K.ite2 | apply K.put | apply K.authFail | apply K.authOk | apply K.ev | apply K.longOutcome) | with_reducible apply K.upd

theorem KeepsMem.enrol (K : KeepsMem P) {s : State} {addr len : Nat} (hs : P s) :
    P (s.enrol addr len) := by
  unfold State.enrol; try dsimp only
  repeat' first | with_reducible (first | assumption | apply K.ite | apply K.ite1 | apply K.ite2 | apply K.put | apply K.ev | apply K.longOutcome | apply K.authFail | apply K.setSec | apply K.authOk | apply K.showPolicy | apply K.showLifecycle) | with_reducible apply K.upd

theorem KeepsMem.zeroize (K : KeepsMem P) {s : State} (hs : P s) :
    P (s.zeroize) := by
  unfold State.zeroize; try dsimp only
  repeat' first | with_reducible (first | assumption | apply K.longOutcome | apply K.put | apply K.showLifecycle | apply K.zeroKeyStore | apply K.stopSecrets) | with_reducible apply K.upd

theorem KeepsMem.mgmtCommand (K : KeepsMem P) {s : State} {k : Fin 8} {opcode tag seq : Nat} {l : List Byte} {flashOk : Bool} (hs : P s) :
    P (s.mgmtCommand k opcode tag seq l flashOk) := by
  unfold State.mgmtCommand; try dsimp only
  repeat' first | with_reducible (first | assumption | apply K.ite | apply K.ite1 | apply K.ite2 | apply K.reply | apply K.cmdCsrRead | apply K.cmdCsrWrite | apply K.cmdGetCert | apply K.cmdWarmReset | apply K.cmdImage | apply K.structLoad | apply K.cmdTrain | apply K.cmdPlain | apply K.calFull | apply K.fwUpdate | apply K.scrubFull | apply K.enrol | apply K.zeroize) | (intro _; intros) | split | refine K.fst (by assumption) ?_ | refine K.snd (by assumption) ?_ | with_reducible apply K.upd

theorem Keeps.secBare (K : Keeps P) {s : State} {k : Fin 8} {opcode tag seq : Nat} {l : List Byte} {go : State} (hs : P s) (hgo : P go) :
    P (s.secBare k opcode tag seq l go) := by
  unfold State.secBare; try dsimp only
  repeat' first | with_reducible (first | assumption | apply K.ite | apply K.ite1 | apply K.ite2 | apply K.secReply) | with_reducible apply K.upd

theorem Keeps.getOwner (K : Keeps P) {s : State} {k : Fin 8} {tag seq : Nat} (hs : P s) :
    P (s.getOwner k tag seq) := by
  unfold State.getOwner; try dsimp only
  repeat' first | with_reducible (first | assumption | apply K.secReply) | with_reducible apply K.upd

theorem Keeps.getChallenge (K : Keeps P) {s : State} {k : Fin 8} {tag seq : Nat} (hs : P s) :
    P (s.getChallenge k tag seq) := by
  unfold State.getChallenge; try dsimp only
  repeat' first | with_reducible (first | assumption | apply K.draw | apply K.secReply | apply K.setSess) | split | refine K.fst (by assumption) ?_ | refine K.snd (by assumption) ?_ | with_reducible apply K.upd

theorem Keeps.setKey (K : Keeps P) {s : State} {slot : Nat} {key : Option (BitVec 256)} (hs : P s) :
    P (s.setKey slot key) := by
  unfold State.setKey; try dsimp only
  repeat' first | with_reducible (first | assumption | apply K.ite | apply K.ite1 | apply K.ite2 | apply K.setBit | apply K.setSec | apply K.clearBit) | split | refine K.fst (by assumption) ?_ | refine K.snd (by assumption) ?_ | with_reducible apply K.upd

theorem Keeps.loadKey (K : Keeps P) {s : State} {k : Fin 8} {tag seq : Nat} {l : List Byte} (hs : P s) :
    P (s.loadKey k tag seq l) := by
  unfold State.loadKey; try dsimp only
  repeat' first | with_reducible (first | assumption | apply K.ite | apply K.ite1 | apply K.ite2 | apply K.setKey | apply K.ev | apply K.secReply) | with_reducible apply K.upd

theorem Keeps.clearKey (K : Keeps P) {s : State} {k : Fin 8} {tag seq : Nat} {l : List Byte} (hs : P s) :
    P (s.clearKey k tag seq l) := by
  unfold State.clearKey; try dsimp only
  repeat' first | with_reducible (first | assumption | apply K.ite | apply K.ite1 | apply K.ite2 | apply K.secReply | apply K.setKey) | with_reducible apply K.upd

theorem Keeps.rucksackOpen (K : Keeps P) {s : State} {k : Fin 8} {tag seq : Nat} {l : List Byte} (hs : P s) :
    P (s.rucksackOpen k tag seq l) := by
  unfold State.rucksackOpen; try dsimp only
  repeat' first | with_reducible (first | assumption | apply K.ite | apply K.ite1 | apply K.ite2 | apply K.secReply | apply K.setSec) | with_reducible apply K.upd

theorem Keeps.rucksackClose (K : Keeps P) {s : State} {k : Fin 8} {tag seq : Nat} {l : List Byte} (hs : P s) :
    P (s.rucksackClose k tag seq l) := by
  unfold State.rucksackClose; try dsimp only
  repeat' first | with_reducible (first | assumption | apply K.ite | apply K.ite1 | apply K.ite2 | apply K.secReply | apply K.closeRegion) | with_reducible apply K.upd

theorem Keeps.getReceipt (K : Keeps P) {s : State} {k : Fin 8} {tag seq : Nat} (hs : P s) :
    P (s.getReceipt k tag seq) := by
  unfold State.getReceipt; try dsimp only
  repeat' first | with_reducible (first | assumption | apply K.ite | apply K.ite1 | apply K.ite2 | apply K.secReply | apply K.put) | split | refine K.fst (by assumption) ?_ | refine K.snd (by assumption) ?_ | with_reducible apply K.upd

theorem Keeps.tamperLog (K : Keeps P) {s : State} {k : Fin 8} {tag seq : Nat} {l : List Byte} (hs : P s) :
    P (s.tamperLog k tag seq l) := by
  unfold State.tamperLog; try dsimp only
  repeat' first | with_reducible (first | assumption | apply K.ite | apply K.ite1 | apply K.ite2 | apply K.secReply) | with_reducible apply K.upd

theorem KeepsMem.signJudged (K : KeepsMem P) {s : State} {k : Fin 8} {code : Nat} (hs : P s) :
    P (s.signJudged k code) := by
  unfold State.signJudged; try dsimp only
  repeat' first | with_reducible (first | assumption | apply K.ite | apply K.ite1 | apply K.ite2 | apply K.setSess | apply K.authFail | apply K.authOk) | with_reducible apply K.upd

theorem KeepsMem.setPolicy (K : KeepsMem P) {s : State} {k : Fin 8} {tag seq : Nat} {l : List Byte} (hs : P s) :
    P (s.setPolicy k tag seq l) := by
  unfold State.setPolicy; try dsimp only
  repeat' first | with_reducible (first | assumption | apply K.ite | apply K.ite1 | apply K.ite2 | apply K.signJudged | apply K.showPolicy | apply K.setSec | apply K.secReply) | with_reducible apply K.upd

theorem KeepsMem.unseal (K : KeepsMem P) {s : State} {k : Fin 8} {tag seq : Nat} {l : List Byte} (hs : P s) :
    P (s.unseal k tag seq l) := by
  unfold State.unseal; try dsimp only
  repeat' first | with_reducible (first | assumption | apply K.ite | apply K.ite1 | apply K.ite2 | apply K.signJudged | apply K.ev | apply K.put | apply K.secReply) | with_reducible apply K.upd

theorem KeepsMem.release (K : KeepsMem P) {s : State} {k : Fin 8} {tag seq : Nat} {l : List Byte} (hs : P s) :
    P (s.release k tag seq l) := by
  unfold State.release; try dsimp only
  repeat' first | with_reducible (first | assumption | apply K.ite | apply K.ite1 | apply K.ite2 | apply K.signJudged | apply K.secReply | apply K.showLifecycle | apply K.zeroKeyStore) | with_reducible apply K.upd

theorem KeepsMem.secCommand (K : KeepsMem P) {s : State} {k : Fin 8} {opcode tag seq : Nat} {l : List Byte} (hs : P s) :
    P (s.secCommand k opcode tag seq l) := by
  unfold State.secCommand; try dsimp only
  repeat' first | with_reducible (first | assumption | apply K.secBare | apply K.getOwner | apply K.getChallenge | apply K.loadKey | apply K.clearKey | apply K.rucksackOpen | apply K.rucksackClose | apply K.getReceipt | apply K.tamperLog | apply K.setPolicy | apply K.unseal | apply K.release) | split | refine K.fst (by assumption) ?_ | refine K.snd (by assumption) ?_ | with_reducible apply K.upd

theorem KeepsMem.request (K : KeepsMem P) {s : State} {k : Fin 8} {x : RxItem} (hs : P s) :
    P (s.request k x) := by
  unfold State.request; try dsimp only
  repeat' first | with_reducible (first | assumption | apply K.ite | apply K.ite1 | apply K.ite2 | apply K.reply | apply K.secCommand | apply K.mgmtCommand) | split | refine K.fst (by assumption) ?_ | refine K.snd (by assumption) ?_ | with_reducible apply K.upd

theorem KeepsMem.netRun (K : KeepsMem P) {y0 : Nat} {y1 : State} (hy1 : P y1) :
    P (State.netRun y0 y1) := by
  induction y0 generalizing y1 with
  | zero => exact hy1
  | succ n ih =>
    unfold State.netRun; dsimp only
    split
    · split
      · exact ih (K.request (K.setChan (K.upd hy1)))
      · exact hy1
    · split
      next s1 heq =>
        obtain ⟨y, _, hy⟩ := List.exists_of_findSome?_eq_some heq
        split at hy
        · exact ih (K.bulkStep (K.setChan hy1) _ hy)
        · cases hy
      · exact hy1

theorem KeepsMem.netGo (K : KeepsMem P) {s : State} (hs : P s) :
    P (s.netGo) := by
  unfold State.netGo; try dsimp only
  repeat' first | with_reducible (first | assumption | apply K.netRun) | with_reducible apply K.upd

theorem Keeps.hamperDelivered (K : Keeps P) {s : State} {k : Nat} (hs : P s) :
    P (s.hamperDelivered k) := by
  unfold State.hamperDelivered; try dsimp only
  repeat' first | with_reducible (first | assumption | apply K.setSch | apply K.freeSlot) | split | refine K.fst (by assumption) ?_ | refine K.snd (by assumption) ?_ | with_reducible apply K.upd

theorem Keeps.released (K : Keeps P) {s : State} (hs : P s) :
    P (s.released) := by
  unfold State.released; try dsimp only
  repeat' first | with_reducible (first | assumption | apply K.ite | apply K.ite1 | apply K.ite2 | apply K.put) | with_reducible apply K.upd

theorem KeepsMem.resetNear (K : KeepsMem P) {s : State} {keep : Bool} (hs : P s) :
    P (s.resetNear keep) := by
  unfold State.resetNear; try dsimp only
  repeat' first | with_reducible (first | assumption | apply K.ite | apply K.ite1 | apply K.ite2 | apply K.put | apply K.setDmc | apply K.zeroChan | apply K.dmcDown | apply K.foldl | apply K.foldl1) | (intro _; intros) | with_reducible apply K.upd

theorem Keeps.countF (K : Keeps P) {s : State} {f : Fld} {n : optParam Nat 1} (hs : P s) :
    P (s.countF f n) := by
  unfold State.countF; try dsimp only
  repeat' first | with_reducible (first | assumption | apply K.put) | with_reducible apply K.upd

theorem Keeps.resetFields (K : Keeps P) {s : State} {k : ResetKind} (hs : P s) :
    P (s.resetFields k) := by
  unfold State.resetFields; try dsimp only
  repeat' first | with_reducible (first | assumption | apply K.ite | apply K.ite1 | apply K.ite2 | apply K.put | apply K.wn | apply K.countF | apply K.foldl | apply K.foldl1) | (intro _; intros) | with_reducible apply K.upd

theorem Keeps.resetHidden (K : Keeps P) {s : State} {k : ResetKind} (hs : P s) :
    P (s.resetHidden k) := by
  unfold State.resetHidden; try dsimp only
  repeat' first | with_reducible (first | assumption | apply K.ite | apply K.ite1 | apply K.ite2) | with_reducible apply K.upd

theorem Keeps.resetFile (K : Keeps P) {s : State} {k : ResetKind} (hs : P s) :
    P (s.resetFile k) := by
  unfold State.resetFile; try dsimp only
  repeat' first | with_reducible (first | assumption | apply K.resetRegs) | with_reducible apply K.upd

theorem KeepsMem.deviceReset (K : KeepsMem P) {s : State} {k : ResetKind} (hs : P s) :
    P (s.deviceReset k) := by
  unfold State.deviceReset; try dsimp only
  repeat' first | with_reducible (first | assumption | apply K.zeroMem | apply K.resetNear | apply K.showPolicy | apply K.showLifecycle | apply K.resetFields | apply K.resetHidden | apply K.resetFile) | with_reducible apply K.upd

theorem KeepsMem.warmReset (K : KeepsMem P) {s : State} {k : Fin 8} (hs : P s) :
    P (s.warmReset k) := by
  unfold State.warmReset; try dsimp only
  repeat' first | with_reducible (first | assumption | apply K.ite | apply K.ite1 | apply K.ite2 | apply K.sessEnd | apply K.sendRaw | apply K.released | apply K.deviceReset | apply K.stopUnits | apply K.foldl | apply K.foldl1) | (intro _; intros) | with_reducible apply K.upd

theorem KeepsMem.ackedAll (K : KeepsMem P) {s : State} {k : Fin 8} {c : Fin 7} {l : List TxFrame} (hs : P s) :
    P (s.ackedAll k c l) := by
  unfold State.ackedAll; try dsimp only
  repeat' first | with_reducible (first | assumption | apply K.ite | apply K.ite1 | apply K.ite2 | apply K.hamperDelivered | apply K.warmReset | apply K.foldl | apply K.foldl1) | (intro _; intros) | split | refine K.fst (by assumption) ?_ | refine K.snd (by assumption) ?_ | with_reducible apply K.upd

theorem Keeps.resend (K : Keeps P) {s : State} {k : Fin 8} {c : Fin 7} {x : TxFrame} (hs : P s) :
    P (s.resend k c x) := by
  unfold State.resend; try dsimp only
  repeat' first | with_reducible (first | assumption | apply K.ite | apply K.ite1 | apply K.ite2 | apply K.send | apply K.count | apply K.setChan) | with_reducible apply K.upd

theorem KeepsMem.ackFields (K : KeepsMem P) {s : State} {k : Fin 8} {c : Fin 7} {rx : Rx} (hs : P s) :
    P (s.ackFields k c rx) := by
  unfold State.ackFields; try dsimp only
  repeat' first | with_reducible (first | assumption | apply K.ite | apply K.ite1 | apply K.ite2 | apply K.ackedAll | apply K.setChan | apply K.resend | apply K.pump | apply K.foldl | apply K.foldl1) | (intro _; intros) | with_reducible apply K.upd

theorem Keeps.ackTimer (K : Keeps P) {s : State} {k : Fin 8} {c : Fin 7} (hs : P s) :
    P (s.ackTimer k c) := by
  unfold State.ackTimer; try dsimp only
  repeat' first | with_reducible (first | assumption | apply K.ite | apply K.ite1 | apply K.ite2 | apply K.send) | with_reducible apply K.upd

theorem Keeps.pumpAll (K : Keeps P) {s : State} {k : Fin 8} (hs : P s) :
    P (s.pumpAll k) := by
  unfold State.pumpAll; try dsimp only
  repeat' first | with_reducible (first | assumption | apply K.pump | apply K.foldl | apply K.foldl1) | (intro _; intros) | with_reducible apply K.upd

theorem KeepsMem.confirm (K : KeepsMem P) {s : State} {k : Fin 8} {rx : Rx} {o : Offer} (hs : P s) :
    P (s.confirm k rx o) := by
  unfold State.confirm; try dsimp only
  repeat' first | with_reducible (first | assumption | apply K.ite | apply K.ite1 | apply K.ite2 | apply K.count | apply K.authFail | apply K.authOk | apply K.csrOrphan | apply K.openOrphan | apply K.longOrphan | apply K.wn | apply K.setSess | apply K.put | apply K.pumpAll | apply K.ev | apply K.send | apply K.sessEnter) | with_reducible apply K.upd

theorem KeepsMem.dataIn (K : KeepsMem P) {s : State} {k : Fin 8} {c : Fin 7} {rx : Rx} (hs : P s) :
    P (s.dataIn k c rx) := by
  unfold State.dataIn; try dsimp only
  repeat' first | with_reducible (first | assumption | apply K.ite | apply K.ite1 | apply K.ite2 | apply K.netGo | apply K.setChan | apply K.send) | with_reducible apply K.upd

theorem KeepsMem.openFrame (K : KeepsMem P) {s : State} {k : Fin 8} {typ : Nat} {rx : Rx} (hs : P s) :
    P (s.openFrame k typ rx) := by
  unfold State.openFrame; try dsimp only
  repeat' first | with_reducible (first | assumption | apply K.ite | apply K.ite1 | apply K.ite2 | apply K.ackFields | apply K.count | apply K.dataIn | apply K.sessEnd) | split | refine K.fst (by assumption) ?_ | refine K.snd (by assumption) ?_ | with_reducible apply K.upd

theorem KeepsMem.checkPlain (K : KeepsMem P) {s : State} {k : Fin 8} {typ : Nat} {rx : Rx} (hs : P s) :
    P (s.checkPlain k typ rx) := by
  unfold State.checkPlain; try dsimp only
  repeat' first | with_reducible (first | assumption | apply K.ite | apply K.ite1 | apply K.ite2 | apply K.authOk | apply K.count | apply K.setSess | apply K.confirm | apply K.openFrame | apply K.keyExhausted) | split | refine K.fst (by assumption) ?_ | refine K.snd (by assumption) ?_ | with_reducible apply K.upd

theorem KeepsMem.checkTag (K : KeepsMem P) {s : State} {k : Fin 8} {typ : Nat} {rx : Rx} (hs : P s) :
    P (s.checkTag k typ rx) := by
  unfold State.checkTag; try dsimp only
  repeat' first | with_reducible (first | assumption | apply K.authFail | apply K.ev | apply K.count | apply K.checkPlain) | split | refine K.fst (by assumption) ?_ | refine K.snd (by assumption) ?_ | with_reducible apply K.upd

theorem KeepsMem.checkSession (K : KeepsMem P) {s : State} {typ : Nat} {rx : Rx} (hs : P s) :
    P (s.checkSession typ rx) := by
  unfold State.checkSession; try dsimp only
  repeat' first | with_reducible (first | assumption | apply K.ite | apply K.ite1 | apply K.ite2 | apply K.count | apply K.setNet | apply K.checkTag) | split | refine K.fst (by assumption) ?_ | refine K.snd (by assumption) ?_ | with_reducible apply K.upd

theorem Keeps.reject (K : Keeps P) {s : State} {rx : Rx} {status : Nat} (hs : P s) :
    P (s.reject rx status) := by
  unfold State.reject; try dsimp only
  repeat' first | with_reducible (first | assumption | apply K.ite | apply K.ite1 | apply K.ite2 | apply K.draw | apply K.ev | apply K.transmit) | split | refine K.fst (by assumption) ?_ | refine K.snd (by assumption) ?_ | with_reducible apply K.upd

theorem Keeps.welcome (K : Keeps P) {s : State} {rx : Rx} {k : Fin 8} (hs : P s) :
    P (s.welcome rx k) := by
  unfold State.welcome; try dsimp only
  repeat' first | with_reducible (first | assumption | apply K.ite | apply K.ite1 | apply K.ite2 | apply K.draw | apply K.sessEnter | apply K.setSess | apply K.transmit) | split | refine K.fst (by assumption) ?_ | refine K.snd (by assumption) ?_ | with_reducible apply K.upd

theorem KeepsMem.hello (K : KeepsMem P) {s : State} {rx : Rx} (hs : P s) :
    P (s.hello rx) := by
  unfold State.hello; try dsimp only
  repeat' first | with_reducible (first | assumption | apply K.ite | apply K.ite1 | apply K.ite2 | apply K.reject | apply K.count | apply K.authFail | apply K.authOk | apply K.welcome) | split | refine K.fst (by assumption) ?_ | refine K.snd (by assumption) ?_ | with_reducible apply K.upd

theorem KeepsMem.receive (K : KeepsMem P) {s : State} {typ : Nat} {rx : Rx} (hs : P s) :
    P (s.receive typ rx) := by
  unfold State.receive; try dsimp only
  repeat' first | with_reducible (first | assumption | apply K.ite | apply K.ite1 | apply K.ite2 | apply K.rxCount | apply K.police | apply K.reject | apply K.count | apply K.hello | apply K.checkSession) | split | refine K.fst (by assumption) ?_ | refine K.snd (by assumption) ?_ | with_reducible apply K.upd

theorem KeepsMem.dataFrame (K : KeepsMem P) {s : State} {rx : Rx} {want : Nat → List Byte → Bool} (hs : P s) :
    P (s.dataFrame rx want) := by
  unfold State.dataFrame; try dsimp only
  repeat' first | with_reducible (first | assumption | apply K.ite | apply K.ite1 | apply K.ite2 | apply K.receive) | split | refine K.fst (by assumption) ?_ | refine K.snd (by assumption) ?_ | with_reducible apply K.upd

theorem Keeps.eventFrame (K : Keeps P) {s : State} {k : Fin 8} (hs : P s) :
    P (s.eventFrame k) := by
  unfold State.eventFrame; try dsimp only
  repeat' first | with_reducible (first | assumption | apply K.ite | apply K.ite1 | apply K.ite2 | apply K.advanceTo | apply K.sendData | apply K.setSess) | split | refine K.fst (by assumption) ?_ | refine K.snd (by assumption) ?_ | with_reducible apply K.upd

theorem Keeps.hamperFrame (K : Keeps P) {s : State} {k : Fin 8} (hs : P s) :
    P (s.hamperFrame k) := by
  unfold State.hamperFrame; try dsimp only
  repeat' first | with_reducible (first | assumption | apply K.ite | apply K.ite1 | apply K.ite2 | apply K.sendData | apply K.setSess) | split | refine K.fst (by assumption) ?_ | refine K.snd (by assumption) ?_ | with_reducible apply K.upd

theorem KeepsMem.katDone (K : KeepsMem P) {s : State} {pass : Bool} (hs : P s) :
    P (s.katDone pass) := by
  unfold State.katDone; try dsimp only
  repeat' first | with_reducible (first | assumption | apply K.ite | apply K.ite1 | apply K.ite2 | apply K.katRetry | apply K.checkSession | apply K.setNet | apply K.pumpAll | apply K.foldl | apply K.foldl1) | (intro _; intros) | with_reducible apply K.upd

theorem Keeps.keepaliveTimer (K : Keeps P) {s : State} {k : Fin 8} (hs : P s) :
    P (s.keepaliveTimer k) := by
  unfold State.keepaliveTimer; try dsimp only
  repeat' first | with_reducible (first | assumption | apply K.ite | apply K.ite1 | apply K.ite2 | apply K.send | apply K.advanceTo) | with_reducible apply K.upd

theorem Keeps.pendingTimeout (K : Keeps P) {s : State} {k : Fin 8} (hs : P s) :
    P (s.pendingTimeout k) := by
  unfold State.pendingTimeout; try dsimp only
  repeat' first | with_reducible (first | assumption | apply K.advanceTo | apply K.sessEnter | apply K.setSess) | split | refine K.fst (by assumption) ?_ | refine K.snd (by assumption) ?_ | with_reducible apply K.upd

theorem Keeps.resumeTimeout (K : Keeps P) {s : State} {k : Fin 8} (hs : P s) :
    P (s.resumeTimeout k) := by
  unfold State.resumeTimeout; try dsimp only
  repeat' first | with_reducible (first | assumption | apply K.ite | apply K.ite1 | apply K.ite2 | apply K.sessFree | apply K.advanceTo) | with_reducible apply K.upd

theorem Keeps.retransmitTimer (K : Keeps P) {s : State} {k : Fin 8} {c : Fin 7} (hs : P s) :
    P (s.retransmitTimer k c) := by
  unfold State.retransmitTimer; try dsimp only
  repeat' first | with_reducible (first | assumption | apply K.ite | apply K.ite1 | apply K.ite2 | apply K.advanceTo | apply K.resend | apply K.setChan) | split | refine K.fst (by assumption) ?_ | refine K.snd (by assumption) ?_ | with_reducible apply K.upd

theorem Keeps.sessionTimeout (K : Keeps P) {s : State} {k : Fin 8} (hs : P s) :
    P (s.sessionTimeout k) := by
  unfold State.sessionTimeout; try dsimp only
  repeat' first | with_reducible (first | assumption | apply K.ite | apply K.ite1 | apply K.ite2 | apply K.sessEnd | apply K.advanceTo) | with_reducible apply K.upd

theorem Keeps.schPublished (K : Keeps P) {s : State} {e : Fin 8} {lo hi : Nat} {isSeg : Bool} (hs : P s) :
    P (s.schPublished e lo hi isSeg) := by
  unfold State.schPublished; try dsimp only
  repeat' first | with_reducible (first | assumption | apply K.ite | apply K.ite1 | apply K.ite2 | apply K.serveSource | apply K.releaseItems | apply K.setSch) | split | refine K.fst (by assumption) ?_ | refine K.snd (by assumption) ?_ | with_reducible apply K.upd

theorem KeepsMem.acqRecordPublish (K : KeepsMem P) {s : State} {e : Fin 8} (hs : P s) :
    P (s.acqRecordPublish e) := by
  unfold State.acqRecordPublish; try dsimp only
  repeat' first | with_reducible (first | assumption | apply K.ite | apply K.ite1 | apply K.ite2 | apply K.acqPublish | apply K.schPublished) | split | refine K.fst (by assumption) ?_ | refine K.snd (by assumption) ?_ | with_reducible apply K.upd

theorem Keeps.atReg (K : Keeps P) {s : State} {a : Nat} {f : State → State} (hs : P s) (hf : ∀ x, P x → P (f x)) :
    P (s.atReg a f) := by
  unfold State.atReg; try dsimp only
  repeat' first | with_reducible apply hf | with_reducible (first | assumption | apply K.ite | apply K.ite1 | apply K.ite2) | with_reducible apply K.upd

theorem Keeps.atClock (K : Keeps P) {s : State} {a : Nat} {v : Word} {f : State → State} (hs : P s) (hf : ∀ x, P x → P (f x)) :
    P (s.atClock a v f) := by
  unfold State.atClock; try dsimp only
  repeat' first | with_reducible apply hf | with_reducible (first | assumption | apply K.ite | apply K.ite1 | apply K.ite2 | apply K.atReg) | (intro _; intros) | with_reducible apply K.upd

theorem KeepsMem.clockGo (K : KeepsMem P) {s : State} (hs : P s) :
    P (s.clockGo) := by
  unfold State.clockGo; try dsimp only
  repeat' first | with_reducible (first | assumption | apply K.heldWrites | apply K.netGo | apply K.csrCmd) | split | refine K.fst (by assumption) ?_ | refine K.snd (by assumption) ?_ | with_reducible apply K.upd

theorem Keeps.showFill (K : Keeps P) {s : State} {d : Fin 12} (hs : P s) :
    P (s.showFill d) := by
  unfold State.showFill; try dsimp only
  repeat' first | with_reducible (first | assumption | apply K.ite | apply K.ite1 | apply K.ite2 | apply K.wn | apply K.ev | apply K.count | apply K.put) | split | refine K.fst (by assumption) ?_ | refine K.snd (by assumption) ?_ | with_reducible apply K.upd

theorem Keeps.pageAuth (K : Keeps P) {s : State} {d : Fin 12} {tier addr : Nat} (hs : P s) :
    P (s.pageAuth d tier addr).1 := by
  unfold State.pageAuth; try dsimp only
  repeat' first | with_reducible (first | assumption | apply K.ite | apply K.ite1 | apply K.ite2 | apply K.showFill | apply K.setSeq | apply K.ev | apply K.put) | split | refine K.fst (by assumption) ?_ | refine K.snd (by assumption) ?_ | with_reducible apply K.upd

theorem KeepsMem.pageAuthDone (K : KeepsMem P) {s : State} {p : Fin 8} {tier addr : Nat} (hs : P s) :
    P (s.pageAuthDone p tier addr) := by
  unfold State.pageAuthDone; try dsimp only
  repeat' first | with_reducible (first | assumption | apply K.ite | apply K.ite1 | apply K.ite2 | apply K.pageAuth | apply K.authOk | apply K.authFail) | split | refine K.fst (by assumption) ?_ | refine K.snd (by assumption) ?_ | with_reducible apply K.upd

theorem KeepsMem.regCmd (K : KeepsMem P) {s : State} {a : Nat} {v : Word} (hs : P s) :
    P (s.regCmd a v) := by
  unfold State.regCmd; try dsimp only
  repeat' first | with_reducible (first | assumption | apply K.ite | apply K.ite1 | apply K.ite2 | apply K.regWrite | apply K.netGo | apply K.grantTags | apply K.clockGo) | with_reducible apply K.upd

theorem Keeps.timFlag (K : Keeps P) {s : State} {t : Fin 32} {f : Fld} {q src : Nat} (hs : P s) :
    P (s.timFlag t f q src) := by
  unfold State.timFlag; try dsimp only
  repeat' first | with_reducible (first | assumption | apply K.evIf | apply K.setBit | apply K.put) | with_reducible apply K.upd

theorem Keeps.timToHist (K : Keeps P) {s : State} {t : Fin 32} {word : Nat} {range : Bool} (hs : P s) :
    P (s.timToHist t word range) := by
  unfold State.timToHist; try dsimp only
  repeat' first | with_reducible (first | assumption | apply K.ite | apply K.ite1 | apply K.ite2 | apply K.timFlag | apply K.count) | with_reducible apply K.upd

theorem KeepsMem.timToAcq (K : KeepsMem P) {s : State} {t : Fin 32} {word : Nat} (hs : P s) :
    P (s.timToAcq t word) := by
  unfold State.timToAcq; try dsimp only
  repeat' first | with_reducible (first | assumption | apply K.ite | apply K.ite1 | apply K.ite2 | apply K.pushX6 | apply K.timFlag | apply K.count) | split | refine K.fst (by assumption) ?_ | refine K.snd (by assumption) ?_ | with_reducible apply K.upd

theorem KeepsMem.timProduce (K : KeepsMem P) {s : State} {t : Fin 32} {value : Nat} {falling range cal old : Bool} {count : Nat} (hs : P s) :
    P (s.timProduce t value falling range cal old count) := by
  unfold State.timProduce; try dsimp only
  repeat' first | with_reducible (first | assumption | apply K.ite | apply K.ite1 | apply K.ite2 | apply K.wn64 | apply K.setTim | apply K.wn | apply K.timToHist | apply K.timToAcq | apply K.timFlag | apply K.put) | with_reducible apply K.upd

theorem KeepsMem.gateResult (K : KeepsMem P) {s : State} {t : Fin 32} {gate : Nat} (hs : P s) :
    P (s.gateResult t gate) := by
  unfold State.gateResult; try dsimp only
  repeat' first | with_reducible (first | assumption | apply K.ite | apply K.ite1 | apply K.ite2 | apply K.setTim | apply K.timProduce) | split | refine K.fst (by assumption) ?_ | refine K.snd (by assumption) ?_ | with_reducible apply K.upd

theorem KeepsMem.timGates (K : KeepsMem P) {s : State} {t : Fin 32} (hs : P s) :
    P (s.timGates t) := by
  unfold State.timGates; try dsimp only
  repeat' first | with_reducible (first | assumption | apply K.ite | apply K.ite1 | apply K.ite2 | apply K.setTim | apply K.gateResult) | with_reducible apply K.upd

theorem KeepsMem.timGateEnd (K : KeepsMem P) {s : State} {t : Fin 32} (hs : P s) :
    P (s.timGateEnd t) := by
  unfold State.timGateEnd; try dsimp only
  repeat' first | with_reducible (first | assumption | apply K.ite | apply K.ite1 | apply K.ite2 | apply K.timGates | apply K.advanceTo) | with_reducible apply K.upd

theorem KeepsMem.timGateReady (K : KeepsMem P) {s : State} {t : Fin 32} (hs : P s) :
    P (s.timGateReady t) := by
  unfold State.timGateReady; try dsimp only
  repeat' first | with_reducible (first | assumption | apply K.serveSource | apply K.timGateEnd) | with_reducible apply K.upd

theorem Keeps.timConvert (K : Keeps P) {s : State} {t : Fin 32} {p : TimPend} {x : Nat} (hs : P s) :
    P (s.timConvert t p x).1 := by
  unfold State.timConvert; try dsimp only
  repeat' first | with_reducible (first | assumption | apply K.ite | apply K.ite1 | apply K.ite2 | apply K.setTim | apply K.timFlag | apply K.count) | with_reducible apply K.upd

theorem KeepsMem.timInterval (K : KeepsMem P) {s : State} {t : Fin 32} {p : TimPend} {c : TimConv} (hs : P s) :
    P (s.timInterval t p c) := by
  unfold State.timInterval; try dsimp only
  repeat' first | with_reducible (first | assumption | apply K.ite | apply K.ite1 | apply K.ite2 | apply K.timFlag | apply K.count | apply K.timProduce) | split | refine K.fst (by assumption) ?_ | refine K.snd (by assumption) ?_ | with_reducible apply K.upd

theorem KeepsMem.timWaiting (K : KeepsMem P) {t : Fin 32} {y1 : Nat} {y2 : State} (hy2 : P y2) :
    P (State.timWaiting t y1 y2) := by
  induction y1 generalizing y2 with
  | zero => exact hy2
  | succ n ih =>
    unfold State.timWaiting; try dsimp only
    repeat' first | with_reducible apply ih | with_reducible (first | assumption | apply K.ite | apply K.ite1 | apply K.ite2 | apply K.timInterval | apply K.setTim | apply K.foldl | apply K.foldl1) | (intro _; intros) | split | refine K.fst (by assumption) ?_ | refine K.snd (by assumption) ?_ | with_reducible apply K.upd

theorem KeepsMem.timTellPartners (K : KeepsMem P) {s : State} {t : Fin 32} {tb : Int} (hs : P s) :
    P (s.timTellPartners t tb) := by
  unfold State.timTellPartners; try dsimp only
  repeat' first | with_reducible (first | assumption | apply K.ite | apply K.ite1 | apply K.ite2 | apply K.setTim | apply K.timWaiting | apply K.foldl | apply K.foldl1) | (intro _; intros) | with_reducible apply K.upd

theorem KeepsMem.gateEdge (K : KeepsMem P) {s : State} {t : Fin 32} {p : TimPend} {c : TimConv} (hs : P s) :
    P (s.gateEdge t p c) := by
  unfold State.gateEdge; try dsimp only
  repeat' first | with_reducible (first | assumption | apply K.ite | apply K.ite1 | apply K.ite2 | apply K.setTim | apply K.gateResult) | with_reducible apply K.upd

theorem KeepsMem.timResult (K : KeepsMem P) {s : State} {t : Fin 32} {x v1 v2 : BitVec 12} (hs : P s) :
    P (s.timResult t x v1 v2) := by
  unfold State.timResult; try dsimp only
  repeat' first | with_reducible (first | assumption | apply K.ite | apply K.ite1 | apply K.ite2 | apply K.timConvert | apply K.setTim | apply K.put | apply K.timTellPartners | apply K.wn64 | apply K.timProduce | apply K.timInterval | apply K.gateEdge) | split | refine K.fst (by assumption) ?_ | refine K.snd (by assumption) ?_ | with_reducible apply K.upd

theorem KeepsMem.timResultReady (K : KeepsMem P) {s : State} {t : Fin 32} {x v1 v2 : BitVec 12} (hs : P s) :
    P (s.timResultReady t x v1 v2) := by
  unfold State.timResultReady; try dsimp only
  repeat' first | with_reducible (first | assumption | apply K.serveSource | apply K.timResult) | with_reducible apply K.upd

theorem Keeps.advanceToStamp (K : Keeps P) {s : State} {ts ep : Nat} (hs : P s) :
    P (s.advanceToStamp ts ep).1 := by
  unfold State.advanceToStamp; try dsimp only
  repeat' first | with_reducible (first | assumption | apply K.ite | apply K.ite1 | apply K.ite2 | apply K.advance) | with_reducible apply K.upd

theorem Keeps.keepClock (K : Keeps P) {s : State} (hs : P s) :
    P (s.keepClock) := by
  unfold State.keepClock; try dsimp only
  repeat' first | with_reducible (first | assumption) | with_reducible apply K.upd

theorem Keeps.pdacHoldEnd (K : Keeps P) {s : State} {u : Fin 16} (hs : P s) :
    P (s.pdacHoldEnd u) := by
  unfold State.pdacHoldEnd; try dsimp only
  repeat' first | with_reducible (first | assumption | apply K.setPdac | apply K.put) | split | refine K.fst (by assumption) ?_ | refine K.snd (by assumption) ?_ | with_reducible apply K.upd

theorem Keeps.pdacLimit (K : Keeps P) {s : State} {u : Fin 16} {atLimit : Bool} (hs : P s) :
    P (s.pdacLimit u atLimit) := by
  unfold State.pdacLimit; try dsimp only
  repeat' first | with_reducible (first | assumption | apply K.ite | apply K.ite1 | apply K.ite2 | apply K.ev | apply K.put) | with_reducible apply K.upd

theorem Keeps.pdacScOff (K : Keeps P) {s : State} {u : Fin 16} (hs : P s) :
    P (s.pdacScOff u) := by
  unfold State.pdacScOff; try dsimp only
  repeat' first | with_reducible (first | assumption | apply K.ite | apply K.ite1 | apply K.ite2 | apply K.put | apply K.ev) | with_reducible apply K.upd

theorem Keeps.peReadyHigh (K : Keeps P) {s : State} {b : Fin 8} (hs : P s) :
    P (s.peReadyHigh b) := by
  unfold State.peReadyHigh; try dsimp only
  repeat' first | with_reducible (first | assumption | apply K.put) | with_reducible apply K.upd

theorem Keeps.pebTake (K : Keeps P) {s : State} {b : Fin 8} {rx : List Byte} (hs : P s) :
    P (s.pebTake b rx) := by
  unfold State.pebTake; try dsimp only
  repeat' first | with_reducible (first | assumption | apply K.put | apply K.foldl | apply K.foldl1) | (intro _; intros) | with_reducible apply K.upd

theorem Keeps.pebEnd (K : Keeps P) {s : State} {b : Fin 8} {rx : List Byte} (hs : P s) :
    P (s.pebEnd b rx) := by
  unfold State.pebEnd; try dsimp only
  repeat' first | with_reducible (first | assumption | apply K.ite | apply K.ite1 | apply K.ite2 | apply K.put | apply K.setPeb | apply K.pebTake) | with_reducible apply K.upd

theorem Keeps.pebAbort (K : Keeps P) {s : State} {b : Fin 8} {rx : List Byte} (hs : P s) :
    P (s.pebAbort b rx) := by
  unfold State.pebAbort; try dsimp only
  repeat' first | with_reducible (first | assumption | apply K.ite | apply K.ite1 | apply K.ite2 | apply K.pebEnd | apply K.setPeb) | with_reducible apply K.upd

theorem Keeps.pebReady (K : Keeps P) {s : State} {b : Fin 8} (hs : P s) :
    P (s.pebReady b) := by
  unfold State.pebReady; try dsimp only
  repeat' first | with_reducible (first | assumption | apply K.put) | with_reducible apply K.upd

theorem Keeps.pebStart (K : Keeps P) {s : State} {b : Fin 8} (hs : P s) :
    P (s.pebStart b) := by
  unfold State.pebStart; try dsimp only
  repeat' first | with_reducible (first | assumption | apply K.ite | apply K.ite1 | apply K.ite2 | apply K.setPeb) | with_reducible apply K.upd

theorem KeepsMem.cancelTrailheads (K : KeepsMem P) {s : State} (hs : P s) :
    P (s.cancelTrailheads) := by
  unfold State.cancelTrailheads; try dsimp only
  repeat' first | with_reducible (first | assumption | apply K.ite | apply K.ite1 | apply K.ite2 | apply K.portCancel | apply K.foldl | apply K.foldl1) | (intro _; intros) | with_reducible apply K.upd

theorem Keeps.castVote (K : Keeps P) {s : State} {p : Fin 8} {fail : Bool} (hs : P s) :
    P (s.castVote p fail) := by
  unfold State.castVote; try dsimp only
  repeat' first | with_reducible (first | assumption | apply K.setPort) | with_reducible apply K.upd

theorem KeepsMem.failDrain (K : KeepsMem P) {s : State} {p : Fin 8} (hs : P s) :
    P (s.failDrain p) := by
  unfold State.failDrain; try dsimp only
  repeat' first | with_reducible (first | assumption | apply K.ite | apply K.ite1 | apply K.ite2 | apply K.put | apply K.setPort | apply K.ev | apply K.count | apply K.wn | apply K.setBytes) | split | refine K.fst (by assumption) ?_ | refine K.snd (by assumption) ?_ | with_reducible apply K.upd

theorem Keeps.failPush (K : Keeps P) {s : State} {p : Fin 8} {r : FailRec} (hs : P s) :
    P (s.failPush p r) := by
  unfold State.failPush; try dsimp only
  repeat' first | with_reducible (first | assumption | apply K.ite | apply K.ite1 | apply K.ite2 | apply K.setPort | apply K.put | apply K.ev | apply K.count) | with_reducible apply K.upd

theorem Keeps.ramAtLimit (K : Keeps P) {s : State} {p : Fin 8} (hs : P s) :
    P (s.ramAtLimit p) := by
  unfold State.ramAtLimit; try dsimp only
  repeat' first | with_reducible (first | assumption | apply K.ite | apply K.ite1 | apply K.ite2 | apply K.put) | with_reducible apply K.upd

theorem KeepsMem.ramStart (K : KeepsMem P) {s : State} {p : Fin 8} (hs : P s) :
    P (s.ramStart p) := by
  unfold State.ramStart; try dsimp only
  repeat' first | with_reducible (first | assumption | apply K.ite | apply K.ite1 | apply K.ite2 | apply K.ev | apply K.put | apply K.ramLog | apply K.setPort) | with_reducible apply K.upd

theorem KeepsMem.ramEntry (K : KeepsMem P) {s : State} {p : Fin 8} {code : Nat} (hs : P s) :
    P (s.ramEntry p code) := by
  unfold State.ramEntry; try dsimp only
  repeat' first | with_reducible (first | assumption | apply K.ite | apply K.ite1 | apply K.ite2 | apply K.ramStart | apply K.ramEnd | apply K.setPort) | split | refine K.fst (by assumption) ?_ | refine K.snd (by assumption) ?_ | with_reducible apply K.upd

theorem KeepsMem.ramMove (K : KeepsMem P) {s : State} {p : Fin 8} {r : RamProg} {target : Int} {kind : Nat} (hs : P s) :
    P (s.ramMove p r target kind) := by
  unfold State.ramMove; try dsimp only
  repeat' first | with_reducible (first | assumption | apply K.ite | apply K.ite1 | apply K.ite2 | apply K.setPort | apply K.ramLog | apply K.ev | apply K.put | apply K.ramAtLimit | apply K.setOffset) | with_reducible apply K.upd

theorem KeepsMem.ramStep (K : KeepsMem P) {s : State} {p : Fin 8} (hs : P s) :
    P (s.ramStep p) := by
  unfold State.ramStep; try dsimp only
  repeat' first | with_reducible (first | assumption | apply K.ite | apply K.ite1 | apply K.ite2 | apply K.ramMove) | split | refine K.fst (by assumption) ?_ | refine K.snd (by assumption) ?_ | with_reducible apply K.upd

end Sys2Proof.Machine
end

