-- ==== Sys2Proof/Laws/KeepF.lean ====
section
/-! SUPPORT. What the operations keep (see Keep.lean), in the order in which they call one another: part 6 of 7. -/

namespace Sys2Proof.Machine

variable {P : State → Prop}

theorem KeepsMem.ramSweep (K : KeepsMem P) {s : State} {p : Fin 8} (hs : P s) :
    P (s.ramSweep p) := by
  unfold State.ramSweep; try dsimp only
  repeat' first | with_reducible (first | assumption | apply K.ite | apply K.ite1 | apply K.ite2 | apply K.ramMove) | split | refine K.fst (by assumption) ?_ | refine K.snd (by assumption) ?_ | with_reducible apply K.upd

theorem Keeps.countUse (K : Keeps P) {s : State} {p : Fin 8} (hs : P s) :
    ∀ tt, s.countUse p = some tt → P tt := by
  intro x hx
  unfold State.countUse at hx; try dsimp only at hx
  repeat' first | (simp at hx; done) | (split at hx) | (injection hx with hx; subst hx)
  all_goals repeat' first | with_reducible (first | assumption | apply K.ite | apply K.ite1 | apply K.ite2 | apply K.ev | apply K.wn | apply K.setPort) | split | refine K.fst (by assumption) ?_ | refine K.snd (by assumption) ?_ | with_reducible apply K.upd

theorem KeepsMem.entryCheck (K : KeepsMem P) {s : State} {p : Fin 8} {e : Entry} {dirErr : Bool} (hs : P s) :
    P (s.entryCheck p e dirErr).1 := by
  unfold State.entryCheck; try dsimp only
  repeat' first | with_reducible (first | assumption | apply K.ite | apply K.ite1 | apply K.ite2 | apply K.portLeave | apply K.strmAbort | apply K.ev) | refine K.countUse ?_ _ (by assumption) | split | refine K.fst (by assumption) ?_ | refine K.snd (by assumption) ?_ | with_reducible apply K.upd

theorem Keeps.beginPass (K : Keeps P) {s : State} {p : Fin 8} {pass : Nat} (hs : P s) :
    P (s.beginPass p pass) := by
  unfold State.beginPass; try dsimp only
  repeat' first | with_reducible (first | assumption | apply K.setSeq | apply K.wn | apply K.setPort) | with_reducible apply K.upd

theorem KeepsMem.beginEntry (K : KeepsMem P) {s : State} {p : Fin 8} {dest : Nat} {branch : State → State} {dirErr : Bool} (hs : P s) (hbranch : ∀ x, P x → P (branch x)) :
    P (s.beginEntry p dest branch dirErr).1 := by
  unfold State.beginEntry; try dsimp only
  repeat' first | with_reducible apply hbranch | with_reducible (first | assumption | apply K.ite | apply K.ite1 | apply K.ite2 | apply K.entryCheck | apply K.put | apply K.showFill | apply K.beginPass | apply K.setSeq) | split | refine K.fst (by assumption) ?_ | refine K.snd (by assumption) ?_ | with_reducible apply K.upd

theorem KeepsMem.formatAbort (K : KeepsMem P) {s : State} {p : Fin 8} {code pin ts addr : Nat} (hs : P s) :
    P (s.formatAbort p code pin ts addr) := by
  unfold State.formatAbort; try dsimp only
  repeat' first | with_reducible (first | assumption | apply K.ite | apply K.ite1 | apply K.ite2 | apply K.portLeave | apply K.tmgFail) | with_reducible apply K.upd

theorem KeepsMem.blockAbort (K : KeepsMem P) {s : State} {p : Fin 8} {f : BlockFail} {off : Nat} (hs : P s) :
    P (s.blockAbort p f off) := by
  unfold State.blockAbort; try dsimp only
  repeat' first | with_reducible (first | assumption | apply K.formatAbort | apply K.portLeave) | split | refine K.fst (by assumption) ?_ | refine K.snd (by assumption) ?_ | with_reducible apply K.upd

theorem KeepsMem.captureStep (K : KeepsMem P) {s : State} {p : Fin 8} {x : Seen} {pins : List (Nat × Nat × PinSt)} (hs : P s) :
    P (s.captureStep p x pins) := by
  unfold State.captureStep; try dsimp only
  repeat' first | with_reducible (first | assumption | apply K.ite | apply K.ite1 | apply K.ite2 | apply K.acqCapture | apply K.foldl | apply K.foldl1) | (intro _; intros) | with_reducible apply K.upd

theorem Keeps.countAdjusted (K : Keeps P) {s : State} {p : Fin 8} {adj : List Nat} (hs : P s) :
    P (s.countAdjusted p adj) := by
  unfold State.countAdjusted; try dsimp only
  repeat' first | with_reducible (first | assumption | apply K.ev | apply K.count | apply K.foldl | apply K.foldl1) | (intro _; intros) | with_reducible apply K.upd

theorem Keeps.enterHold (K : Keeps P) {s : State} {p : Fin 8} {addr : Nat} (hs : P s) :
    P (s.enterHold p addr) := by
  unfold State.enterHold; try dsimp only
  repeat' first | with_reducible (first | assumption | apply K.put | apply K.wn64 | apply K.count | apply K.ev | apply K.setPort) | with_reducible apply K.upd

theorem KeepsMem.dataOutcome (K : KeepsMem P) {s : State} {p : Fin 8} {b : BlockSt} {tier addr : Nat} (hs : P s) :
    P (s.dataOutcome p b tier addr) := by
  unfold State.dataOutcome; try dsimp only
  repeat' first | with_reducible (first | assumption | apply K.ite | apply K.ite1 | apply K.ite2 | apply K.strmAbort | apply K.portLeave | apply K.enterHold) | split | refine K.fst (by assumption) ?_ | refine K.snd (by assumption) ?_ | with_reducible apply K.upd

theorem Keeps.endPause (K : Keeps P) {s : State} {p : Fin 8} (hs : P s) :
    P (s.endPause p) := by
  unfold State.endPause; try dsimp only
  repeat' first | with_reducible (first | assumption | apply K.wn64 | apply K.wn | apply K.count | apply K.setSeq) | with_reducible apply K.upd

theorem Keeps.failVector (K : Keeps P) {s : State} {p : Fin 8} {t pins : Nat} {secret : Bool} (hs : P s) :
    P (s.failVector p t pins secret) := by
  unfold State.failVector; try dsimp only
  repeat' first | with_reducible (first | assumption | apply K.setPort | apply K.wn64 | apply K.failPush) | with_reducible apply K.upd

theorem Keeps.failStep (K : Keeps P) {s : State} {p : Fin 8} {t fails : Nat} (hs : P s) :
    P (s.failStep p t fails) := by
  unfold State.failStep; try dsimp only
  repeat' first | with_reducible (first | assumption | apply K.ite | apply K.ite1 | apply K.ite2 | apply K.setPort | apply K.failVector) | with_reducible apply K.upd

theorem Keeps.consume (K : Keeps P) {s : State} {d : Fin 12} {e : Entry} {off : Nat} {passEnd : Bool} (hs : P s) :
    P (s.consume d e off passEnd) := by
  unfold State.consume; try dsimp only
  repeat' first | with_reducible (first | assumption | apply K.ite | apply K.ite1 | apply K.ite2 | apply K.setSeq) | with_reducible apply K.upd

theorem KeepsMem.loadBlock (K : KeepsMem P) {s : State} {p : Fin 8} (hs : P s) :
    P (s.loadBlock p).1 := by
  unfold State.loadBlock; try dsimp only
  repeat' first | with_reducible (first | assumption | apply K.ite | apply K.ite1 | apply K.ite2 | apply K.blockAbort | apply K.consume | apply K.wn64 | apply K.setSeq | apply K.setPort) | split | refine K.fst (by assumption) ?_ | refine K.snd (by assumption) ?_ | with_reducible apply K.upd

theorem Keeps.startTimeout (K : Keeps P) {s : State} {p : Fin 8} (hs : P s) :
    P (s.startTimeout p) := by
  unfold State.startTimeout; try dsimp only
  repeat' first | with_reducible (first | assumption | apply K.ite | apply K.ite1 | apply K.ite2 | apply K.setSeq) | with_reducible apply K.upd

theorem Keeps.started (K : Keeps P) {s : State} {p : Fin 8} (hs : P s) :
    P (s.started p) := by
  unfold State.started; try dsimp only
  repeat' first | with_reducible (first | assumption | apply K.ite | apply K.ite1 | apply K.ite2 | apply K.put | apply K.wn64 | apply K.wn | apply K.ev) | with_reducible apply K.upd

theorem Keeps.passConditions (K : Keeps P) {s : State} {p : Fin 8} (hs : P s) :
    P (s.passConditions p) := by
  unfold State.passConditions; try dsimp only
  repeat' first | with_reducible (first | assumption | apply K.ite | apply K.ite1 | apply K.ite2 | apply K.setPort | apply K.produce | apply K.put) | split | refine K.fst (by assumption) ?_ | refine K.snd (by assumption) ?_ | with_reducible apply K.upd

theorem Keeps.showWindow (K : Keeps P) {s : State} {p : Fin 8} (hs : P s) :
    P (s.showWindow p) := by
  unfold State.showWindow; try dsimp only
  repeat' first | with_reducible (first | assumption | apply K.put) | with_reducible apply K.upd

theorem Keeps.markersAt (K : Keeps P) {s : State} {p : Fin 8} (hs : P s) :
    P (s.markersAt p) := by
  unfold State.markersAt; try dsimp only
  repeat' first | with_reducible (first | assumption | apply K.ite | apply K.ite1 | apply K.ite2 | apply K.setMarker | apply K.setPort | apply K.foldl | apply K.foldl1) | (intro _; intros) | split | refine K.fst (by assumption) ?_ | refine K.snd (by assumption) ?_ | with_reducible apply K.upd

theorem Keeps.timBlank (K : Keeps P) {s : State} {p : Nat} {on : Bool} (hs : P s) :
    P (s.timBlank p on) := by
  unfold State.timBlank; try dsimp only
  repeat' first | with_reducible (first | assumption | apply K.ite | apply K.ite1 | apply K.ite2 | apply K.setTim | apply K.put | apply K.foldl | apply K.foldl1) | (intro _; intros) | with_reducible apply K.upd

theorem Keeps.matchStep (K : Keeps P) {s : State} {p : Fin 8} {r : Rate} {band t fails : Nat} (hs : P s) :
    P (s.matchStep p r band t fails) := by
  unfold State.matchStep; try dsimp only
  repeat' first | with_reducible (first | assumption | apply K.ite | apply K.ite1 | apply K.ite2 | apply K.setPort | apply K.castVote | apply K.produceAt) | split | refine K.fst (by assumption) ?_ | refine K.snd (by assumption) ?_ | with_reducible apply K.upd

theorem Keeps.nextVector (K : Keeps P) {s : State} {p : Fin 8} {r : Rate} (hs : P s) :
    P (s.nextVector p r) := by
  unfold State.nextVector; try dsimp only
  repeat' first | with_reducible (first | assumption | apply K.setSeq | apply K.setPort | apply K.showFill | apply K.wn64) | with_reducible apply K.upd

theorem KeepsMem.issue (K : KeepsMem P) {s : State} {p : Fin 8} {x : Seen} {v : Vec} {t : Nat} (hs : P s) :
    P (s.issue p x v t) := by
  unfold State.issue; try dsimp only
  repeat' first | with_reducible (first | assumption | apply K.ite | apply K.ite1 | apply K.ite2 | apply K.startTimeout | apply K.started | apply K.passConditions | apply K.showWindow | apply K.markersAt | apply K.ramEntry | apply K.setPort | apply K.timBlank | apply K.matchStep | apply K.countAdjusted | apply K.captureStep | apply K.failStep | apply K.nextVector) | with_reducible apply K.upd

theorem KeepsMem.passVector (K : KeepsMem P) {s : State} {p : Fin 8} {x : Seen} {sramErr : Bool} (hs : P s) :
    P (s.passVector p x sramErr) := by
  unfold State.passVector; try dsimp only
  repeat' first | with_reducible (first | assumption | apply K.ite | apply K.ite1 | apply K.ite2 | apply K.dataOutcome | apply K.portLeave | apply K.loadBlock | apply K.issue | apply K.formatAbort) | split | refine K.fst (by assumption) ?_ | refine K.snd (by assumption) ?_ | with_reducible apply K.upd

theorem KeepsMem.firstVector (K : KeepsMem P) {s : State} {p : Fin 8} {phase : Nat} {x : Seen} {dirErr sramErr : Bool} (hs : P s) :
    P (s.firstVector p phase x dirErr sramErr) := by
  unfold State.firstVector; try dsimp only
  repeat' first | exact ‹P _› | with_reducible (first | assumption | apply K.ite | apply K.ite1 | apply K.ite2 | apply K.setPort | apply K.setSeq | apply K.beginEntry | apply K.advanceTo | apply K.passVector) | (intro _; intros) | split | refine K.fst (by assumption) ?_ | refine K.snd (by assumption) ?_ | with_reducible apply K.upd

theorem KeepsMem.holdFault (K : KeepsMem P) {s : State} {p : Fin 8} (hs : P s) :
    P (s.holdFault p) := by
  unfold State.holdFault; try dsimp only
  repeat' first | with_reducible (first | assumption | apply K.ite | apply K.ite1 | apply K.ite2 | apply K.strmAbort) | split | refine K.fst (by assumption) ?_ | refine K.snd (by assumption) ?_ | with_reducible apply K.upd

theorem KeepsMem.holdFaults (K : KeepsMem P) {s : State} (hs : P s) :
    P (s.holdFaults) := by
  unfold State.holdFaults; try dsimp only
  repeat' first | with_reducible (first | assumption | apply K.holdFault | apply K.foldl | apply K.foldl1) | (intro _; intros) | with_reducible apply K.upd

theorem Keeps.dropReserve (K : Keeps P) {s : State} {d : Fin 12} (hs : P s) :
    P (s.dropReserve d) := by
  unfold State.dropReserve; try dsimp only
  repeat' first | with_reducible (first | assumption | apply K.discardTxs | apply K.setSeq) | split | refine K.fst (by assumption) ?_ | refine K.snd (by assumption) ?_ | with_reducible apply K.upd

theorem Keeps.planStep (K : Keeps P) {s : State} {d : Fin 12} {branch : Bool} {p : PlanPos} (hs : P s) :
    P (s.planStep d branch p).1 := by
  unfold State.planStep; try dsimp only
  repeat' first | with_reducible (first | assumption | apply K.ite | apply K.ite1 | apply K.ite2 | apply K.walk) | split | refine K.fst (by assumption) ?_ | refine K.snd (by assumption) ?_ | with_reducible apply K.upd

theorem Keeps.openReserve (K : Keeps P) {s : State} {d : Fin 12} {dest : Nat} (hs : P s) :
    P (s.openReserve d dest) := by
  unfold State.openReserve; try dsimp only
  repeat' first | with_reducible (first | assumption | apply K.ite | apply K.ite1 | apply K.ite2 | apply K.walk | apply K.planStep | apply K.setSeq) | split | refine K.fst (by assumption) ?_ | refine K.snd (by assumption) ?_ | with_reducible apply K.upd

theorem Keeps.register (K : Keeps P) {s : State} {d : Fin 12} {r : JumpReq} (hs : P s) :
    P (s.register d r) := by
  unfold State.register; try dsimp only
  repeat' first | with_reducible (first | assumption | apply K.ite | apply K.ite1 | apply K.ite2 | apply K.ev | apply K.count | apply K.dropReserve | apply K.showHeld | apply K.setSeq | apply K.openReserve) | split | refine K.fst (by assumption) ?_ | refine K.snd (by assumption) ?_ | with_reducible apply K.upd

theorem Keeps.registerDue (K : Keeps P) {s : State} {d : Fin 12} {limit : Nat} (hs : P s) :
    P (s.registerDue d limit) := by
  unfold State.registerDue; try dsimp only
  repeat' first | with_reducible (first | assumption | apply K.register | apply K.setSeq | apply K.foldl | apply K.foldl1) | (intro _; intros) | with_reducible apply K.upd

theorem Keeps.leavePasses (K : Keeps P) {s : State} {d : Fin 12} (hs : P s) :
    P (s.leavePasses d) := by
  unfold State.leavePasses; try dsimp only
  repeat' first | with_reducible (first | assumption | apply K.setSeq) | with_reducible apply K.upd

theorem Keeps.popRet (K : Keeps P) {s : State} {d : Fin 12} (hs : P s) :
    ∀ tt, s.popRet d = some tt → P tt.2 := by
  intro x hx
  unfold State.popRet at hx; try dsimp only at hx
  repeat' first | (simp at hx; done) | (split at hx) | (injection hx with hx; subst hx)
  all_goals repeat' first | with_reducible (first | assumption | apply K.ite | apply K.ite1 | apply K.ite2 | apply K.put) | with_reducible apply K.upd

theorem Keeps.leaveByNext (K : Keeps P) {s : State} {d : Fin 12} {x : Entry} {taken : Bool} (hs : P s) :
    P (s.leaveByNext d x taken).1 := by
  unfold State.leaveByNext; try dsimp only
  repeat' first | with_reducible (first | assumption | apply K.ite | apply K.ite1 | apply K.ite2) | refine K.sndSome (by assumption) (K.popRet ?_) | split | refine K.fst (by assumption) ?_ | refine K.snd (by assumption) ?_ | with_reducible apply K.upd

theorem Keeps.setWait (K : Keeps P) {s : State} {d : Fin 12} {producer result passes : Nat} (hs : P s) :
    P (s.setWait d producer result passes) := by
  unfold State.setWait; try dsimp only
  repeat' first | with_reducible (first | assumption | apply K.wn | apply K.put | apply K.evIf) | with_reducible apply K.upd

theorem Keeps.pushRet (K : Keeps P) {s : State} {d : Fin 12} {x : Nat} (hs : P s) :
    ∀ tt, s.pushRet d x = some tt → P tt := by
  intro x hx
  unfold State.pushRet at hx; try dsimp only at hx
  repeat' first | (simp at hx; done) | (split at hx) | (injection hx with hx; subst hx)
  all_goals repeat' first | with_reducible (first | assumption | apply K.ite | apply K.ite1 | apply K.ite2 | apply K.put) | with_reducible apply K.upd

theorem Keeps.leaveByTarget (K : Keeps P) {s : State} {d : Fin 12} {x : Entry} {back : Nat} {taken : Bool} (hs : P s) :
    P (s.leaveByTarget d x back taken).1 := by
  unfold State.leaveByTarget; try dsimp only
  repeat' first | with_reducible (first | assumption | apply K.ite | apply K.ite1 | apply K.ite2) | refine K.pushRet ?_ _ (by assumption) | split | refine K.fst (by assumption) ?_ | refine K.snd (by assumption) ?_ | with_reducible apply K.upd

theorem Keeps.choose (K : Keeps P) {s : State} {d : Fin 12} (hs : P s) :
    P (s.choose d).1 := by
  unfold State.choose; try dsimp only
  repeat' first | with_reducible (first | assumption | apply K.ite | apply K.ite1 | apply K.ite2 | apply K.leavePasses | apply K.count | apply K.showHeld | apply K.setSeq | apply K.leaveByNext | apply K.setWait | apply K.leaveByTarget) | split | refine K.fst (by assumption) ?_ | refine K.snd (by assumption) ?_ | with_reducible apply K.upd

theorem Keeps.planAfter (K : Keeps P) {s : State} {d : Fin 12} {dest : Nat} {slot : Option HeadSlot} (hs : P s) :
    P (s.planAfter d dest slot) := by
  unfold State.planAfter; try dsimp only
  repeat' first | with_reducible (first | assumption | apply K.ite | apply K.ite1 | apply K.ite2 | apply K.planFrom | apply K.setSeq) | split | refine K.fst (by assumption) ?_ | refine K.snd (by assumption) ?_ | with_reducible apply K.upd

theorem Keeps.takeBranch (K : Keeps P) {s : State} {d : Fin 12} {dest : Nat} (hs : P s) :
    P (s.takeBranch d dest) := by
  unfold State.takeBranch; try dsimp only
  repeat' first | with_reducible (first | assumption | apply K.ite | apply K.ite1 | apply K.ite2 | apply K.discardTxs | apply K.setSeq | apply K.planAfter) | split | refine K.fst (by assumption) ?_ | refine K.snd (by assumption) ?_ | with_reducible apply K.upd

theorem Keeps.replan (K : Keeps P) {s : State} {d : Fin 12} (hs : P s) :
    P (s.replan d) := by
  unfold State.replan; try dsimp only
  repeat' first | with_reducible (first | assumption | apply K.walk | apply K.setSeq) | split | refine K.fst (by assumption) ?_ | refine K.snd (by assumption) ?_ | with_reducible apply K.upd

theorem Keeps.leaveSlots (K : Keeps P) {s : State} {d : Fin 12} {owner : Nat} {stack : List Nat} (hs : P s) :
    P (s.leaveSlots d owner stack) := by
  unfold State.leaveSlots; try dsimp only
  repeat' first | with_reducible (first | assumption | apply K.ite | apply K.ite1 | apply K.ite2 | apply K.replan | apply K.setSeq | apply K.foldl | apply K.foldl1) | (intro _; intros) | with_reducible apply K.upd

theorem KeepsMem.jumpPoint (K : KeepsMem P) {s : State} {p : Fin 8} {jumpAt : Nat} {dirErr : Bool} (hs : P s) :
    P (s.jumpPoint p jumpAt dirErr).1 := by
  unfold State.jumpPoint; try dsimp only
  repeat' first | with_reducible (first | assumption | apply K.ite | apply K.ite1 | apply K.ite2 | apply K.castVote | apply K.portLeave | apply K.registerDue | apply K.setSeq | apply K.choose | apply K.beginPass | apply K.beginEntry | apply K.takeBranch | apply K.leaveSlots) | (intro _; intros) | split | refine K.fst (by assumption) ?_ | refine K.snd (by assumption) ?_ | with_reducible apply K.upd

theorem Keeps.secretEnd (K : Keeps P) {s : State} {p : Fin 8} (hs : P s) :
    P (s.secretEnd p) := by
  unfold State.secretEnd; try dsimp only
  repeat' first | with_reducible (first | assumption | apply K.ite | apply K.ite1 | apply K.ite2 | apply K.timBlank | apply K.setPort) | with_reducible apply K.upd

theorem KeepsMem.vectorPeriod (K : KeepsMem P) {s : State} {p : Fin 8} {x : Seen} {dirErr sramErr : Bool} (hs : P s) :
    P (s.vectorPeriod p x dirErr sramErr) := by
  unfold State.vectorPeriod; try dsimp only
  repeat' first | with_reducible (first | assumption | apply K.ite | apply K.ite1 | apply K.ite2 | apply K.flushPort | apply K.advanceTo | apply K.endPause | apply K.jumpPoint | apply K.passVector | apply K.registerDue) | split | refine K.fst (by assumption) ?_ | refine K.snd (by assumption) ?_ | with_reducible apply K.upd

theorem KeepsMem.admitTimeout (K : KeepsMem P) {s : State} {p : Fin 8} (hs : P s) :
    P (s.admitTimeout p) := by
  unfold State.admitTimeout; try dsimp only
  repeat' first | with_reducible (first | assumption | apply K.ite | apply K.ite1 | apply K.ite2 | apply K.portCancel | apply K.put) | with_reducible apply K.upd

theorem Keeps.holdResume (K : Keeps P) {s : State} {p : Fin 8} {phase : Nat} (hs : P s) :
    P (s.holdResume p phase) := by
  unfold State.holdResume; try dsimp only
  repeat' first | with_reducible (first | assumption | apply K.ite | apply K.ite1 | apply K.ite2 | apply K.wn | apply K.countHold | apply K.setSeq | apply K.ev | apply K.put) | with_reducible apply K.upd

theorem KeepsMem.holdTimeout (K : KeepsMem P) {s : State} {p : Fin 8} (hs : P s) :
    P (s.holdTimeout p) := by
  unfold State.holdTimeout; try dsimp only
  repeat' first | with_reducible (first | assumption | apply K.ite | apply K.ite1 | apply K.ite2 | apply K.strmAbort) | with_reducible apply K.upd

theorem Keeps.portStartEvent (K : Keeps P) {s : State} {p : Fin 8} (hs : P s) :
    P (s.portStartEvent p) := by
  unfold State.portStartEvent; try dsimp only
  repeat' first | with_reducible (first | assumption | apply K.ite | apply K.ite1 | apply K.ite2 | apply K.setSeq) | with_reducible apply K.upd

theorem KeepsMem.portTrailhead (K : KeepsMem P) {s : State} {p : Fin 8} (hs : P s) :
    P (s.portTrailhead p) := by
  unfold State.portTrailhead; try dsimp only
  repeat' first | with_reducible (first | assumption | apply K.ite | apply K.ite1 | apply K.ite2 | apply K.advanceToStamp | apply K.portCancel | apply K.put | apply K.setSeq) | split | refine K.fst (by assumption) ?_ | refine K.snd (by assumption) ?_ | with_reducible apply K.upd

theorem Keeps.startAdmitted (K : Keeps P) {s : State} {p : Fin 8} (hs : P s) :
    P (s.startAdmitted p) := by
  unfold State.startAdmitted; try dsimp only
  repeat' first | with_reducible (first | assumption | apply K.ite | apply K.ite1 | apply K.ite2 | apply K.ev | apply K.put | apply K.setSeq) | with_reducible apply K.upd

theorem Keeps.waitTimeout (K : Keeps P) {s : State} {d : Fin 12} (hs : P s) :
    P (s.waitTimeout d) := by
  unfold State.waitTimeout; try dsimp only
  repeat' first | with_reducible (first | assumption | apply K.ite | apply K.ite1 | apply K.ite2 | apply K.advanceTo | apply K.setSeq) | split | refine K.fst (by assumption) ?_ | refine K.snd (by assumption) ?_ | with_reducible apply K.upd

theorem Keeps.taskError (K : Keeps P) {s : State} {c code detail addr : Nat} (hs : P s) :
    P (s.taskError c code detail addr) := by
  unfold State.taskError; try dsimp only
  repeat' first | with_reducible (first | assumption | apply K.ite | apply K.ite1 | apply K.ite2 | apply K.ev | apply K.put | apply K.count | apply K.taskDone | apply K.coreFree) | split | refine K.fst (by assumption) ?_ | refine K.snd (by assumption) ?_ | with_reducible apply K.upd

theorem Keeps.groupFault (K : Keeps P) {s : State} {g : Nat} (hs : P s) :
    P (s.groupFault g) := by
  unfold State.groupFault; try dsimp only
  repeat' first | with_reducible (first | assumption | apply K.groupOff | apply K.taskError | apply K.foldl | apply K.foldl1) | (intro _; intros) | with_reducible apply K.upd

theorem KeepsMem.stopDomain (K : KeepsMem P) {s : State} {d : Nat} (hs : P s) :
    P (s.stopDomain d) := by
  unfold State.stopDomain; try dsimp only
  repeat' first | with_reducible (first | assumption | apply K.ite | apply K.ite1 | apply K.ite2 | apply K.stopPort | apply K.timStop | apply K.acqEnd | apply K.stopWfg | apply K.foldl | apply K.foldl1) | (intro _; intros) | split | refine K.fst (by assumption) ?_ | refine K.snd (by assumption) ?_ | with_reducible apply K.upd

theorem KeepsMem.domainFault (K : KeepsMem P) {s : State} {d : Nat} (hs : P s) :
    P (s.domainFault d) := by
  unfold State.domainFault; try dsimp only
  repeat' first | with_reducible (first | assumption | apply K.ite | apply K.ite1 | apply K.ite2 | apply K.groupFault | apply K.cxlOff | apply K.stopDomain | apply K.domainDown | apply K.put | apply K.failTxs | apply K.zeroChan | apply K.setBit | apply K.ev | apply K.count) | split | refine K.fst (by assumption) ?_ | refine K.snd (by assumption) ?_ | with_reducible apply K.upd

theorem KeepsMem.domainSwitchDone (K : KeepsMem P) {s : State} {d : Nat} (hs : P s) :
    P (s.domainSwitchDone d) := by
  unfold State.domainSwitchDone; try dsimp only
  repeat' first | with_reducible (first | assumption | apply K.switchDone) | split | refine K.fst (by assumption) ?_ | refine K.snd (by assumption) ?_ | with_reducible apply K.upd

theorem Keeps.tempSampled (K : Keeps P) {s : State} {l : List Int} (hs : P s) :
    P (s.tempSampled l) := by
  unfold State.tempSampled; try dsimp only
  repeat' first | with_reducible (first | assumption | apply K.ite | apply K.ite1 | apply K.ite2 | apply K.tempSample | apply K.put | apply K.ev) | split | refine K.fst (by assumption) ?_ | refine K.snd (by assumption) ?_ | with_reducible apply K.upd

theorem Keeps.noteSlew (K : Keeps P) {s : State} (hs : P s) :
    P (s.noteSlew) := by
  unfold State.noteSlew; try dsimp only
  repeat' first | with_reducible (first | assumption | apply K.notePort | apply K.foldl | apply K.foldl1) | (intro _; intros) | with_reducible apply K.upd

theorem Keeps.atStage (K : Keeps P) {s : State} {n : Nat} (hs : P s) :
    P (s.atStage n) := by
  unfold State.atStage; try dsimp only
  repeat' first | with_reducible (first | assumption) | with_reducible apply K.upd

theorem Keeps.loadReg (K : Keeps P) {s : State} {a v : Nat} (hs : P s) :
    P (s.loadReg a v) := by
  unfold State.loadReg; try dsimp only
  repeat' first | with_reducible (first | assumption | apply K.wn) | split | refine K.fst (by assumption) ?_ | refine K.snd (by assumption) ?_ | with_reducible apply K.upd

theorem Keeps.loadConfig (K : Keeps P) {s : State} {l : List Byte} (hs : P s) :
    P (s.loadConfig l) := by
  unfold State.loadConfig; try dsimp only
  repeat' first | with_reducible (first | assumption | apply K.ite | apply K.ite1 | apply K.ite2 | apply K.loadReg | apply K.foldl | apply K.foldl1) | (intro _; intros) | with_reducible apply K.upd

theorem Keeps.loadPatch (K : Keeps P) {s : State} {img : List Byte} (hs : P s) :
    P (s.loadPatch img) := by
  unfold State.loadPatch; try dsimp only
  repeat' first | with_reducible (first | assumption | apply K.ite | apply K.ite1 | apply K.ite2 | apply K.put | apply K.ev | apply K.foldl | apply K.foldl1) | (intro _; intros) | split | refine K.fst (by assumption) ?_ | refine K.snd (by assumption) ?_ | with_reducible apply K.upd

theorem Keeps.trainAt (K : Keeps P) {s : State} {c : Fin 4} (hs : P s) :
    P (s.trainAt c) := by
  unfold State.trainAt; try dsimp only
  repeat' first | with_reducible (first | assumption | apply K.smeRequest | apply K.trainStart) | with_reducible apply K.upd

theorem Keeps.bootSlot (K : Keeps P) {s : State} {n : Nat} {l : List (List Byte)} {config : List Byte} (hs : P s) :
    P (s.bootSlot n l config) := by
  unfold State.bootSlot; try dsimp only
  repeat' first | with_reducible (first | assumption | apply K.ite | apply K.ite1 | apply K.ite2 | apply K.put | apply K.loadConfig | apply K.loadPatch | apply K.startAddr | apply K.takeCfg | apply K.trainAt | apply K.cxlTrain | apply K.foldl | apply K.foldl1) | (intro _; intros) | with_reducible apply K.upd

theorem KeepsMem.trySlot (K : KeepsMem P) {s : State} {n : Nat} {l : List (List Byte)} (hs : P s) :
    P (s.trySlot n l).1 := by
  unfold State.trySlot; try dsimp only
  repeat' first | with_reducible (first | assumption | apply K.ite | apply K.ite1 | apply K.ite2 | apply K.authOk | apply K.authFail | apply K.evIf) | split | refine K.fst (by assumption) ?_ | refine K.snd (by assumption) ?_ | with_reducible apply K.upd

theorem KeepsMem.bootVerified (K : KeepsMem P) {s : State} {slot0 slot1 : List (List Byte)} {config : List Byte} (hs : P s) :
    P (s.bootVerified slot0 slot1 config) := by
  unfold State.bootVerified; try dsimp only
  repeat' first | with_reducible (first | assumption | apply K.ite | apply K.ite1 | apply K.ite2 | apply K.trySlot | apply K.bootSlot | apply K.atStage) | split | refine K.fst (by assumption) ?_ | refine K.snd (by assumption) ?_ | with_reducible apply K.upd

theorem Keeps.wdtService (K : Keeps P) {s : State} (hs : P s) :
    P (s.wdtService) := by
  unfold State.wdtService; try dsimp only
  repeat' first | with_reducible (first | assumption) | with_reducible apply K.upd

theorem Keeps.deviceReady (K : Keeps P) {s : State} {ms : Nat} (hs : P s) :
    P (s.deviceReady ms) := by
  unfold State.deviceReady; try dsimp only
  repeat' first | with_reducible (first | assumption | apply K.ite | apply K.ite1 | apply K.ite2 | apply K.put | apply K.ev | apply K.evIf | apply K.wdtService) | with_reducible apply K.upd

theorem KeepsMem.powerFail (K : KeepsMem P) {s : State} (hs : P s) :
    P (s.powerFail) := by
  unfold State.powerFail; try dsimp only
  repeat' first | with_reducible (first | assumption | apply K.atStage | apply K.wn | apply K.deviceReset) | with_reducible apply K.upd

theorem Keeps.storeCheck (K : Keeps P) {s : State} {ok : Bool} (hs : P s) :
    P (s.storeCheck ok) := by
  unfold State.storeCheck; try dsimp only
  repeat' first | with_reducible (first | assumption | apply K.ite | apply K.ite1 | apply K.ite2 | apply K.setSec | apply K.ev | apply K.put | apply K.showPolicy) | with_reducible apply K.upd

theorem KeepsMem.powerOnReset (K : KeepsMem P) {s : State} {freq : Option (Fin 4)} {storeOk : Bool} (hs : P s) :
    P (s.powerOnReset freq storeOk) := by
  unfold State.powerOnReset; try dsimp only
  repeat' first | with_reducible (first | assumption | apply K.ite | apply K.ite1 | apply K.ite2 | apply K.wn | apply K.deviceReset | apply K.storeCheck | apply K.scorch | apply K.released | apply K.put) | split | refine K.fst (by assumption) ?_ | refine K.snd (by assumption) ?_ | with_reducible apply K.upd

theorem KeepsMem.zeroRing (K : KeepsMem P) {s : State} {d : Fin 12} (hs : P s) :
    P (s.zeroRing d) := by
  unfold State.zeroRing; try dsimp only
  repeat' first | with_reducible (first | assumption | apply K.zeroMem | apply K.foldl | apply K.foldl1) | (intro _; intros) | split | refine K.fst (by assumption) ?_ | refine K.snd (by assumption) ?_ | with_reducible apply K.upd

theorem KeepsMem.regionZeroed (K : KeepsMem P) {s : State} {p : Nat} (hs : P s) :
    P (s.regionZeroed p) := by
  unfold State.regionZeroed; try dsimp only
  repeat' first | with_reducible (first | assumption | apply K.fillRegion | apply K.wn | apply K.evIf | apply K.setSec) | split | refine K.fst (by assumption) ?_ | refine K.snd (by assumption) ?_ | with_reducible apply K.upd

theorem KeepsMem.quadrantResetDone (K : KeepsMem P) {s : State} {q : Fin 4} (hs : P s) :
    P (s.quadrantResetDone q) := by
  unfold State.quadrantResetDone; try dsimp only
  repeat' first | with_reducible (first | assumption | apply K.ite | apply K.ite1 | apply K.ite2 | apply K.resetRegs | apply K.zeroRing | apply K.regionZeroed | apply K.setAcq | apply K.clearPort | apply K.setTim | apply K.setDpl | apply K.clearWfg | apply K.wn | apply K.ev | apply K.put | apply K.foldl | apply K.foldl1) | (intro _; intros) | with_reducible apply K.upd

theorem Keeps.rstNRelease (K : Keeps P) {s : State} (hs : P s) :
    P (s.rstNRelease) := by
  unfold State.rstNRelease; try dsimp only
  repeat' first | with_reducible (first | assumption | apply K.ite | apply K.ite1 | apply K.ite2 | apply K.released) | with_reducible apply K.upd

theorem KeepsMem.rstNReset (K : KeepsMem P) {s : State} {ns : Nat} (hs : P s) :
    P (s.rstNReset ns) := by
  unfold State.rstNReset; try dsimp only
  repeat' first | with_reducible (first | assumption | apply K.ite | apply K.ite1 | apply K.ite2 | apply K.atStage | apply K.deviceReset) | with_reducible apply K.upd

theorem KeepsMem.tamperReset (K : KeepsMem P) {s : State} (hs : P s) :
    P (s.tamperReset) := by
  unfold State.tamperReset; try dsimp only
  repeat' first | with_reducible (first | assumption | apply K.ite | apply K.ite1 | apply K.ite2 | apply K.released | apply K.deviceReset) | with_reducible apply K.upd

theorem KeepsMem.trainDone (K : KeepsMem P) {s : State} {c : Fin 4} {code lane : Nat} (hs : P s) :
    P (s.trainDone c code lane) := by
  unfold State.trainDone; try dsimp only
  repeat' first | with_reducible (first | assumption | apply K.ite | apply K.ite1 | apply K.ite2 | apply K.smeDone | apply K.ddrTrainDone | apply K.trainGoes) | with_reducible apply K.upd

theorem Keeps.wdtHalf (K : Keeps P) {s : State} (hs : P s) :
    P (s.wdtHalf) := by
  unfold State.wdtHalf; try dsimp only
  repeat' first | with_reducible (first | assumption | apply K.ite | apply K.ite1 | apply K.ite2 | apply K.ev | apply K.advanceTo) | with_reducible apply K.upd

theorem KeepsMem.wdtReset (K : KeepsMem P) {s : State} (hs : P s) :
    P (s.wdtReset) := by
  unfold State.wdtReset; try dsimp only
  repeat' first | with_reducible (first | assumption | apply K.ite | apply K.ite1 | apply K.ite2 | apply K.released | apply K.deviceReset | apply K.advanceTo) | with_reducible apply K.upd

theorem Keeps.cloneTask (K : Keeps P) {s : State} {t : Task} (hs : P s) :
    P (s.cloneTask t) := by
  unfold State.cloneTask; try dsimp only
  repeat' first | with_reducible (first | assumption | apply K.ite | apply K.ite1 | apply K.ite2 | apply K.ev | apply K.count | apply K.createTask) | with_reducible apply K.upd

theorem Keeps.bindingFire (K : Keeps P) {s : State} {k : Nat} (hs : P s) :
    P (s.bindingFire k) := by
  unfold State.bindingFire; try dsimp only
  repeat' first | with_reducible (first | assumption | apply K.ite | apply K.ite1 | apply K.ite2 | apply K.setSch | apply K.cloneTask) | split | refine K.fst (by assumption) ?_ | refine K.snd (by assumption) ?_ | with_reducible apply K.upd

theorem Keeps.coreResetDone (K : Keeps P) {s : State} {c : Nat} (hs : P s) :
    P (s.coreResetDone c) := by
  unfold State.coreResetDone; try dsimp only
  repeat' first | with_reducible (first | assumption | apply K.ite | apply K.ite1 | apply K.ite2 | apply K.ev | apply K.coreFree) | with_reducible apply K.upd

theorem Keeps.setBlocked (K : Keeps P) {s : State} {g : Nat} {i : Option Nat} (hs : P s) :
    P (s.setBlocked g i) := by
  unfold State.setBlocked; try dsimp only
  repeat' first | with_reducible (first | assumption | apply K.ite | apply K.ite1 | apply K.ite2 | apply K.put | apply K.setSch) | split | refine K.fst (by assumption) ?_ | refine K.snd (by assumption) ?_ | with_reducible apply K.upd

theorem Keeps.runOn (K : Keeps P) {s : State} {i : Nat} {t : Task} {g c room : Nat} (hs : P s) :
    P (s.runOn i t g c room) := by
  unfold State.runOn; try dsimp only
  repeat' first | with_reducible (first | assumption | apply K.put | apply K.putTask) | with_reducible apply K.upd

theorem Keeps.dispatch (K : Keeps P) {s : State} {g : Nat} (hs : P s) :
    P (s.dispatch g) := by
  unfold State.dispatch; try dsimp only
  repeat' first | with_reducible (first | assumption | apply K.ite | apply K.ite1 | apply K.ite2 | apply K.setBlocked | apply K.ev | apply K.runOn | apply K.count | apply K.unrun) | split | refine K.fst (by assumption) ?_ | refine K.snd (by assumption) ?_ | with_reducible apply K.upd

theorem KeepsMem.failRecordDrain (K : KeepsMem P) {s : State} {p : Fin 8} (hs : P s) :
    P (s.failRecordDrain p) := by
  unfold State.failRecordDrain; try dsimp only
  repeat' first | with_reducible (first | assumption | apply K.serveSource | apply K.failDrain) | with_reducible apply K.upd

theorem Keeps.hamperRelease (K : Keeps P) {s : State} {i : Nat} (hs : P s) :
    P (s.hamperRelease i) := by
  unfold State.hamperRelease; try dsimp only
  repeat' first | with_reducible (first | assumption | apply K.ite | apply K.ite1 | apply K.ite2 | apply K.ev | apply K.put | apply K.putTask | apply K.setSch | apply K.wn) | split | refine K.fst (by assumption) ?_ | refine K.snd (by assumption) ?_ | with_reducible apply K.upd

theorem Keeps.tickSlot (K : Keeps P) {s : State} {i : Nat} (hs : P s) :
    P (s.tickSlot i) := by
  unfold State.tickSlot; try dsimp only
  repeat' first | with_reducible (first | assumption | apply K.ite | apply K.ite1 | apply K.ite2 | apply K.putTask | apply K.becomeReady | apply K.cloneTask) | split | refine K.fst (by assumption) ?_ | refine K.snd (by assumption) ?_ | with_reducible apply K.upd

theorem Keeps.schTick (K : Keeps P) {s : State} (hs : P s) :
    P (s.schTick) := by
  unfold State.schTick; try dsimp only
  repeat' first | with_reducible (first | assumption | apply K.ite | apply K.ite1 | apply K.ite2 | apply K.advanceTo | apply K.setSch | apply K.tickSlot | apply K.foldl | apply K.foldl1) | (intro _; intros) | with_reducible apply K.upd

theorem Keeps.taskTimeout (K : Keeps P) {s : State} {j : Fin 48} (hs : P s) :
    P (s.taskTimeout j) := by
  unfold State.taskTimeout; try dsimp only
  repeat' first | with_reducible (first | assumption | apply K.ite | apply K.ite1 | apply K.ite2 | apply K.advanceTo | apply K.claim | apply K.serveSource | apply K.becomeReady | apply K.ev | apply K.count) | split | refine K.fst (by assumption) ?_ | refine K.snd (by assumption) ?_ | with_reducible apply K.upd

theorem Keeps.receiptQueued (K : Keeps P) {s : State} {p : Fin 8} (hs : P s) :
    P (s.receiptQueued p) := by
  unfold State.receiptQueued; try dsimp only
  repeat' first | with_reducible (first | assumption | apply K.ite | apply K.ite1 | apply K.ite2 | apply K.put | apply K.setPort | apply K.closeRegion) | split | refine K.fst (by assumption) ?_ | refine K.snd (by assumption) ?_ | with_reducible apply K.upd

theorem KeepsMem.rucksackLock (K : KeepsMem P) {s : State} (hs : P s) :
    P (s.rucksackLock) := by
  unfold State.rucksackLock; try dsimp only
  repeat' first | with_reducible (first | assumption | apply K.ite | apply K.ite1 | apply K.ite2 | apply K.authFail | apply K.endOpen | apply K.setSec | apply K.fillRegion | apply K.authOk | apply K.wn | apply K.openReply | apply K.ev) | split | refine K.fst (by assumption) ?_ | refine K.snd (by assumption) ?_ | with_reducible apply K.upd

theorem KeepsMem.tamperFire (K : KeepsMem P) {s : State} {fired active : BitVec 8} {off : Bool} {aon : Nat} (hs : P s) :
    P (s.tamperFire fired active off aon) := by
  unfold State.tamperFire; try dsimp only
  repeat' first | with_reducible (first | assumption | apply K.ite | apply K.ite1 | apply K.ite2 | apply K.setSec | apply K.put | apply K.fireSensors | apply K.foldl | apply K.foldl1) | (intro _; intros) | with_reducible apply K.upd

theorem Keeps.slkAbandon (K : Keeps P) {s : State} {l : List Byte} (hs : P s) :
    P (s.slkAbandon l) := by
  unfold State.slkAbandon; try dsimp only
  repeat' first | with_reducible (first | assumption | apply K.ite | apply K.ite1 | apply K.ite2 | apply K.slkForm) | with_reducible apply K.upd

theorem Keeps.slkEnterForm (K : Keeps P) {s : State} (hs : P s) :
    P (s.slkEnterForm) := by
  unfold State.slkEnterForm; try dsimp only
  repeat' first | with_reducible (first | assumption | apply K.draw | apply K.setSlk | apply K.put) | split | refine K.fst (by assumption) ?_ | refine K.snd (by assumption) ?_ | with_reducible apply K.upd

theorem Keeps.slkAligned (K : Keeps P) {s : State} (hs : P s) :
    P (s.slkAligned) := by
  unfold State.slkAligned; try dsimp only
  repeat' first | with_reducible (first | assumption | apply K.ite | apply K.ite1 | apply K.ite2 | apply K.put | apply K.slkEnterForm | apply K.slkOwn | apply K.setSlk) | with_reducible apply K.upd

theorem Keeps.slkFormed (K : Keeps P) {s : State} (hs : P s) :
    P (s.slkFormed) := by
  unfold State.slkFormed; try dsimp only
  repeat' first | with_reducible (first | assumption | apply K.ite | apply K.ite1 | apply K.ite2 | apply K.ev | apply K.wn | apply K.put) | with_reducible apply K.upd

theorem Keeps.slkAnnounce (K : Keeps P) {s : State} {l : List Byte} (hs : P s) :
    P (s.slkAnnounce l) := by
  unfold State.slkAnnounce; try dsimp only
  repeat' first | with_reducible (first | assumption | apply K.ite | apply K.ite1 | apply K.ite2 | apply K.setSlk | apply K.slkFormed) | with_reducible apply K.upd

theorem Keeps.slkAnnounceTimer (K : Keeps P) {s : State} (hs : P s) :
    P (s.slkAnnounceTimer) := by
  unfold State.slkAnnounceTimer; try dsimp only
  repeat' first | with_reducible (first | assumption | apply K.ite | apply K.ite1 | apply K.ite2 | apply K.slkOwn) | with_reducible apply K.upd

theorem Keeps.slkBreak (K : Keeps P) {s : State} (hs : P s) :
    P (s.slkBreak) := by
  unfold State.slkBreak; try dsimp only
  repeat' first | with_reducible (first | assumption | apply K.ite | apply K.ite1 | apply K.ite2 | apply K.slkEnterForm | apply K.slkLeaveUp) | with_reducible apply K.upd

theorem Keeps.slkClosedExpiry (K : Keeps P) {s : State} {site round : Nat} (hs : P s) :
    P (s.slkClosedExpiry site round) := by
  unfold State.slkClosedExpiry; try dsimp only
  repeat' first | with_reducible (first | assumption | apply K.setSlk) | with_reducible apply K.upd

theorem Keeps.slkFault (K : Keeps P) {s : State} {code : Nat} (hs : P s) :
    P (s.slkFault code) := by
  unfold State.slkFault; try dsimp only
  repeat' first | with_reducible (first | assumption | apply K.ite | apply K.ite1 | apply K.ite2 | apply K.ev | apply K.put | apply K.setSlk | apply K.slkLeaveUp) | with_reducible apply K.upd

theorem Keeps.slkForward (K : Keeps P) {s : State} {body : List Byte} {err : Bool} (hs : P s) :
    P (s.slkForward body err) := by
  unfold State.slkForward; try dsimp only
  repeat' first | with_reducible (first | assumption | apply K.ite | apply K.ite1 | apply K.ite2 | apply K.setSlk) | with_reducible apply K.upd

theorem Keeps.slkJudge (K : Keeps P) {s : State} {r : SlkRound} (hs : P s) :
    P (s.slkJudge r) := by
  unfold State.slkJudge; try dsimp only
  repeat' first | with_reducible (first | assumption | apply K.ite | apply K.ite1 | apply K.ite2 | apply K.slkForm) | with_reducible apply K.upd

theorem Keeps.slkHold (K : Keeps P) {s : State} {site round pos : Nat} {fail : Bool} (hs : P s) :
    P (s.slkHold site round pos fail) := by
  unfold State.slkHold; try dsimp only
  repeat' first | with_reducible (first | assumption | apply K.ite | apply K.ite1 | apply K.ite2 | apply K.count | apply K.slkJudge | apply K.setSlk | apply K.slkFormAll) | split | refine K.fst (by assumption) ?_ | refine K.snd (by assumption) ?_ | with_reducible apply K.upd

end Sys2Proof.Machine
end

