-- ==== Sys2Proof/Laws/KeepG.lean ====
section
/-! SUPPORT. What the operations keep (see Keep.lean), in the order in which they call one another: part 7 of 7. -/

namespace Sys2Proof.Machine

variable {P : State → Prop}

theorem Keeps.slkInputLost (K : Keeps P) {s : State} (hs : P s) :
    P (s.slkInputLost) := by
  unfold State.slkInputLost; try dsimp only
  repeat' first | with_reducible (first | assumption | apply K.put | apply K.setSlk | apply K.slkLeaveUp) | split | refine K.fst (by assumption) ?_ | refine K.snd (by assumption) ?_ | with_reducible apply K.upd

theorem Keeps.slkLocalVote (K : Keeps P) {s : State} (hs : P s) :
    P (s.slkLocalVote) := by
  unfold State.slkLocalVote; try dsimp only
  repeat' first | with_reducible (first | assumption | apply K.ite | apply K.ite1 | apply K.ite2 | apply K.setSlk | apply K.slkOwn | apply K.slkHold) | split | refine K.fst (by assumption) ?_ | refine K.snd (by assumption) ?_ | with_reducible apply K.upd

theorem Keeps.slkRoundTimeout (K : Keeps P) {s : State} {site round : Nat} (hs : P s) :
    P (s.slkRoundTimeout site round) := by
  unfold State.slkRoundTimeout; try dsimp only
  repeat' first | with_reducible (first | assumption | apply K.ite | apply K.ite1 | apply K.ite2 | apply K.slkForm | apply K.advanceTo | apply K.slkOwn) | split | refine K.fst (by assumption) ?_ | refine K.snd (by assumption) ?_ | with_reducible apply K.upd

theorem Keeps.slkThTimeout (K : Keeps P) {s : State} (hs : P s) :
    P (s.slkThTimeout) := by
  unfold State.slkThTimeout; try dsimp only
  repeat' first | with_reducible (first | assumption | apply K.ite | apply K.ite1 | apply K.ite2 | apply K.ev | apply K.put) | with_reducible apply K.upd

theorem KeepsMem.slkApply (K : KeepsMem P) {s : State} {site ts ep : Nat} {arm : Bool} (hs : P s) :
    P (s.slkApply site ts ep arm) := by
  unfold State.slkApply; try dsimp only
  repeat' first | with_reducible (first | assumption | apply K.ite | apply K.ite1 | apply K.ite2 | apply K.ev | apply K.count | apply K.regWrite | apply K.foldl | apply K.foldl1) | (intro _; intros) | with_reducible apply K.upd

theorem KeepsMem.slkTrailhead (K : KeepsMem P) {s : State} {l : List Byte} (hs : P s) :
    P (s.slkTrailhead l) := by
  unfold State.slkTrailhead; try dsimp only
  repeat' first | with_reducible (first | assumption | apply K.ite | apply K.ite1 | apply K.ite2 | apply K.slkApply | apply K.ev | apply K.put) | with_reducible apply K.upd

theorem KeepsMem.slkFrame (K : KeepsMem P) {s : State} {typ : Nat} {l : List Byte} {clean : Bool} (hs : P s) :
    P (s.slkFrame typ l clean) := by
  unfold State.slkFrame; try dsimp only
  repeat' first | with_reducible (first | assumption | apply K.ite | apply K.ite1 | apply K.ite2 | apply K.slkDrain | apply K.slkForward | apply K.ev | apply K.count | apply K.slkFault | apply K.slkHold | apply K.slkAnnounce | apply K.slkTrailhead | apply K.slkBreak | apply K.slkAbandon) | split | refine K.fst (by assumption) ?_ | refine K.snd (by assumption) ?_ | with_reducible apply K.upd

theorem Keeps.issueRead (K : Keeps P) {s : State} {d : Fin 12} {tier addr : Nat} {dest : FabDest} {shared : Bool} (hs : P s) :
    P (s.issueRead d tier addr dest shared) := by
  unfold State.issueRead; try dsimp only
  repeat' first | with_reducible (first | assumption | apply K.ite | apply K.ite1 | apply K.ite2 | apply K.issueTx) | with_reducible apply K.upd

theorem KeepsMem.ringZeroed (K : KeepsMem P) {s : State} {d : Fin 12} (hs : P s) :
    P (s.ringZeroed d) := by
  unfold State.ringZeroed; try dsimp only
  repeat' first | with_reducible (first | assumption | apply K.ite | apply K.ite1 | apply K.ite2 | apply K.zeroRing | apply K.setSeq) | with_reducible apply K.upd

theorem Keeps.streamFetch (K : Keeps P) {s : State} {d : Fin 12} {k : FetchKind} (hs : P s) :
    P (s.streamFetch d k) := by
  unfold State.streamFetch; try dsimp only
  repeat' first | with_reducible (first | assumption | apply K.ite | apply K.ite1 | apply K.ite2 | apply K.planStep | apply K.issueRead | apply K.setSeq) | split | refine K.fst (by assumption) ?_ | refine K.snd (by assumption) ?_ | with_reducible apply K.upd

theorem Keeps.streamLand (K : Keeps P) {s : State} {d : Fin 12} (hs : P s) :
    P (s.streamLand d) := by
  unfold State.streamLand; try dsimp only
  repeat' first | with_reducible (first | assumption | apply K.ite | apply K.ite1 | apply K.ite2 | apply K.dropTx | apply K.setSeq | apply K.showFill) | split | refine K.fst (by assumption) ?_ | refine K.snd (by assumption) ?_ | with_reducible apply K.upd

theorem Keeps.timDllLock (K : Keeps P) {s : State} {t : Fin 32} (hs : P s) :
    P (s.timDllLock t) := by
  unfold State.timDllLock; try dsimp only
  repeat' first | with_reducible (first | assumption | apply K.ite | apply K.ite1 | apply K.ite2 | apply K.put) | with_reducible apply K.upd

theorem Keeps.timDllUnlock (K : Keeps P) {s : State} {t : Fin 32} (hs : P s) :
    P (s.timDllUnlock t) := by
  unfold State.timDllUnlock; try dsimp only
  repeat' first | with_reducible (first | assumption | apply K.ite | apply K.ite1 | apply K.ite2 | apply K.timFlag | apply K.put) | with_reducible apply K.upd

theorem KeepsMem.timEdge (K : KeepsMem P) {s0 : State} {t : Fin 32} {at_ : Nat} {falling : Bool} (hs0 : P s0) :
    P (s0.timEdge t at_ falling) := by
  unfold State.timEdge; try dsimp only
  repeat' first | with_reducible (first | assumption | apply K.ite | apply K.ite1 | apply K.ite2 | apply K.timGates | apply K.advance | apply K.wn64 | apply K.timFlag | apply K.count | apply K.setTim | apply K.pulse) | split | refine K.fst (by assumption) ?_ | refine K.snd (by assumption) ?_ | with_reducible apply K.upd

theorem Keeps.timHistClearDone (K : Keeps P) {s : State} {t : Fin 32} (hs : P s) :
    P (s.timHistClearDone t) := by
  unfold State.timHistClearDone; try dsimp only
  repeat' first | with_reducible exact K.clear _ _ hs | with_reducible (first | assumption | apply K.ite | apply K.ite1 | apply K.ite2 | apply K.put | apply K.wn) | with_reducible apply K.upd

theorem Keeps.timHistUpdate (K : Keeps P) {s : State} {q : Fin 4} (hs : P s) :
    P (s.timHistUpdate q) := by
  unfold State.timHistUpdate; try dsimp only
  repeat' first | with_reducible (first | assumption | apply K.ite | apply K.ite1 | apply K.ite2 | apply K.timFlag | apply K.count) | split | refine K.fst (by assumption) ?_ | refine K.snd (by assumption) ?_ | with_reducible apply K.upd

theorem Keeps.timMeasStart (K : Keeps P) {s : State} {t : Fin 32} (hs : P s) :
    P (s.timMeasStart t) := by
  unfold State.timMeasStart; try dsimp only
  repeat' first | with_reducible (first | assumption | apply K.ite | apply K.ite1 | apply K.ite2 | apply K.setTim | apply K.put) | with_reducible apply K.upd

theorem Keeps.enterHoldover (K : Keeps P) {s : State} (hs : P s) :
    P (s.enterHoldover) := by
  unfold State.enterHoldover; try dsimp only
  repeat' first | with_reducible (first | assumption | apply K.ev | apply K.put) | with_reducible apply K.upd

theorem Keeps.holdoverLong (K : Keeps P) {s : State} (hs : P s) :
    P (s.holdoverLong) := by
  unfold State.holdoverLong; try dsimp only
  repeat' first | with_reducible (first | assumption | apply K.ite | apply K.ite1 | apply K.ite2 | apply K.ev | apply K.put) | with_reducible apply K.upd

theorem Keeps.slewTowards (K : Keeps P) {s : State} {goal : Int} (hs : P s) :
    P (s.slewTowards goal) := by
  unfold State.slewTowards; try dsimp only
  repeat' first | with_reducible (first | assumption | apply K.noteSlew) | with_reducible apply K.upd

theorem Keeps.refAbsent (K : Keeps P) {s : State} (hs : P s) :
    P (s.refAbsent) := by
  unfold State.refAbsent; try dsimp only
  repeat' first | with_reducible (first | assumption | apply K.ite | apply K.ite1 | apply K.ite2 | apply K.ev | apply K.count | apply K.put | apply K.enterHoldover | apply K.slewTowards) | split | refine K.fst (by assumption) ?_ | refine K.snd (by assumption) ?_ | with_reducible apply K.upd

theorem Keeps.refPresent (K : Keeps P) {s : State} (hs : P s) :
    P (s.refPresent) := by
  unfold State.refPresent; try dsimp only
  repeat' first | with_reducible (first | assumption | apply K.ite | apply K.ite1 | apply K.ite2 | apply K.ev | apply K.put) | with_reducible apply K.upd

theorem Keeps.tbpllAligned (K : Keeps P) {s : State} (hs : P s) :
    P (s.tbpllAligned) := by
  unfold State.tbpllAligned; try dsimp only
  repeat' first | with_reducible (first | assumption | apply K.ite | apply K.ite1 | apply K.ite2 | apply K.evIf | apply K.slewTowards | apply K.put) | with_reducible apply K.upd

theorem Keeps.tbpllLocked (K : Keeps P) {s : State} (hs : P s) :
    P (s.tbpllLocked) := by
  unfold State.tbpllLocked; try dsimp only
  repeat' first | with_reducible (first | assumption | apply K.ite | apply K.ite1 | apply K.ite2 | apply K.ev | apply K.put) | with_reducible apply K.upd

theorem Keeps.tbpllMdllReady (K : Keeps P) {s : State} (hs : P s) :
    P (s.tbpllMdllReady) := by
  unfold State.tbpllMdllReady; try dsimp only
  repeat' first | with_reducible (first | assumption | apply K.ite | apply K.ite1 | apply K.ite2 | apply K.put) | with_reducible apply K.upd

theorem KeepsMem.tmbStep (K : KeepsMem P) {s0 : State} {phi : Int} (hs0 : P s0) :
    P (s0.tmbStep phi) := by
  unfold State.tmbStep; try dsimp only
  repeat' first | with_reducible (first | assumption | apply K.keepClock | apply K.cancelTrailheads | apply K.ev | apply K.count | apply K.put) | with_reducible apply K.upd

theorem KeepsMem.tbpllReturn (K : KeepsMem P) {s0 : State} {phi0 slew : Int} (hs0 : P s0) :
    P (s0.tbpllReturn phi0 slew) := by
  unfold State.tbpllReturn; try dsimp only
  repeat' first | with_reducible (first | assumption | apply K.ite | apply K.ite1 | apply K.ite2 | apply K.advanceTo | apply K.wn | apply K.tmbStep | apply K.evIf | apply K.slewTowards | apply K.put) | with_reducible apply K.upd

theorem Keeps.tbpllUnlocked (K : Keeps P) {s : State} (hs : P s) :
    P (s.tbpllUnlocked) := by
  unfold State.tbpllUnlocked; try dsimp only
  repeat' first | with_reducible (first | assumption | apply K.ite | apply K.ite1 | apply K.ite2 | apply K.ev | apply K.put | apply K.enterHoldover) | with_reducible apply K.upd

theorem KeepsMem.timeBaseZero (K : KeepsMem P) {s0 : State} {late : Bool} (hs0 : P s0) :
    P (s0.timeBaseZero late) := by
  unfold State.timeBaseZero; try dsimp only
  repeat' first | with_reducible (first | assumption | apply K.ite | apply K.ite1 | apply K.ite2 | apply K.keepClock | apply K.put | apply K.ev | apply K.cancelTrailheads) | with_reducible apply K.upd

theorem Keeps.timestampWrap (K : Keeps P) {s : State} (hs : P s) :
    P (s.timestampWrap) := by
  unfold State.timestampWrap; try dsimp only
  repeat' first | with_reducible (first | assumption | apply K.ite | apply K.ite1 | apply K.ite2 | apply K.keepClock | apply K.advance | apply K.ev) | with_reducible apply K.upd

theorem Keeps.trailheadReached (K : Keeps P) {s : State} (hs : P s) :
    P (s.trailheadReached) := by
  unfold State.trailheadReached; try dsimp only
  repeat' first | with_reducible (first | assumption | apply K.ite | apply K.ite1 | apply K.ite2 | apply K.advanceToStamp | apply K.pulse | apply K.put) | split | refine K.fst (by assumption) ?_ | refine K.snd (by assumption) ?_ | with_reducible apply K.upd

theorem KeepsMem.dplFail (K : KeepsMem P) {s : State} {d : Fin 12} (hs : P s) :
    P (s.dplFail d) := by
  unfold State.dplFail; try dsimp only
  repeat' first | with_reducible (first | assumption | apply K.ite | apply K.ite1 | apply K.ite2 | apply K.dplEnterFail | apply K.portLeave | apply K.wfgEnd) | split | refine K.fst (by assumption) ?_ | refine K.snd (by assumption) ?_ | with_reducible apply K.upd

theorem KeepsMem.dplUngate (K : KeepsMem P) {s : State} {d : Fin 12} {phase : Nat} (hs : P s) :
    P (s.dplUngate d phase) := by
  unfold State.dplUngate; try dsimp only
  repeat' first | with_reducible (first | assumption | apply K.x9Go | apply K.flushPort | apply K.stickyGo | apply K.dplSettled) | split | refine K.fst (by assumption) ?_ | refine K.snd (by assumption) ?_ | with_reducible apply K.upd

theorem Keeps.wfgAdmitTimeout (K : Keeps P) {s : State} {m : Fin 4} (hs : P s) :
    P (s.wfgAdmitTimeout m) := by
  unfold State.wfgAdmitTimeout; try dsimp only
  repeat' first | with_reducible (first | assumption | apply K.ite | apply K.ite1 | apply K.ite2 | apply K.wfgEnd) | with_reducible apply K.upd

theorem Keeps.wfgAdmitted (K : Keeps P) {s : State} {m : Fin 4} (hs : P s) :
    P (s.wfgAdmitted m) := by
  unfold State.wfgAdmitted; try dsimp only
  repeat' first | with_reducible (first | assumption | apply K.ite | apply K.ite1 | apply K.ite2 | apply K.setSeq) | with_reducible apply K.upd

theorem Keeps.wfgBeginPass (K : Keeps P) {s : State} {m : Fin 4} {pass t : Nat} (hs : P s) :
    P (s.wfgBeginPass m pass t) := by
  unfold State.wfgBeginPass; try dsimp only
  repeat' first | with_reducible (first | assumption | apply K.ite | apply K.ite1 | apply K.ite2 | apply K.setWfg | apply K.setSeq | apply K.produceAt | apply K.put) | split | refine K.fst (by assumption) ?_ | refine K.snd (by assumption) ?_ | with_reducible apply K.upd

theorem Keeps.wfgBegin (K : Keeps P) {s : State} {m : Fin 4} {dest t : Nat} {branch : State → State} (hs : P s) (hbranch : ∀ x, P x → P (branch x)) :
    P (s.wfgBegin m dest t branch).1 := by
  unfold State.wfgBegin; try dsimp only
  repeat' first | with_reducible apply hbranch | with_reducible (first | assumption | apply K.ite | apply K.ite1 | apply K.ite2 | apply K.wfgEnd | apply K.put | apply K.wfgBeginPass | apply K.setSeq) | with_reducible apply K.upd

theorem Keeps.wfgPush (K : Keeps P) {s : State} {m : Fin 4} {x : Int × Nat} (hs : P s) :
    P (s.wfgPush m x) := by
  unfold State.wfgPush; try dsimp only
  repeat' first | with_reducible (first | assumption | apply K.setWfg) | with_reducible apply K.upd

theorem Keeps.wfgJump (K : Keeps P) {s : State} {m : Fin 4} {t : Nat} (hs : P s) :
    P (s.wfgJump m t).1 := by
  unfold State.wfgJump; try dsimp only
  repeat' first | with_reducible (first | assumption | apply K.ite | apply K.ite1 | apply K.ite2 | apply K.setSeq | apply K.choose | apply K.wfgEnd | apply K.wfgBeginPass | apply K.wfgBegin | apply K.takeBranch | apply K.leaveSlots | apply K.setWfg) | (intro _; intros) | split | refine K.fst (by assumption) ?_ | refine K.snd (by assumption) ?_ | with_reducible apply K.upd

theorem Keeps.wfgFrame (K : Keeps P) {s : State} {m : Fin 4} {t : Nat} {sramErr : Bool} (hs : P s) :
    P (s.wfgFrame m t sramErr).1 := by
  unfold State.wfgFrame; try dsimp only
  repeat' first | with_reducible (first | assumption | apply K.ite | apply K.ite1 | apply K.ite2 | apply K.wfgEnd | apply K.consume | apply K.setSeq | apply K.showFill | apply K.setWfg | apply K.foldl | apply K.foldl1) | (intro _; intros) | split | refine K.fst (by assumption) ?_ | refine K.snd (by assumption) ?_ | with_reducible apply K.upd

theorem Keeps.wfgTake (K : Keeps P) {s : State} {m : Fin 4} {t : Nat} {sramErr : Bool} (hs : P s) :
    P (s.wfgTake m t sramErr).1 := by
  unfold State.wfgTake; try dsimp only
  repeat' first | with_reducible (first | assumption | apply K.ite | apply K.ite1 | apply K.ite2 | apply K.wfgEnd | apply K.wfgPush | apply K.setWfg | apply K.wfgJump | apply K.wfgFrame | apply K.setSeq | apply K.registerDue | apply K.wn64) | split | refine K.fst (by assumption) ?_ | refine K.snd (by assumption) ?_ | with_reducible apply K.upd

theorem Keeps.wfgSample (K : Keeps P) {s : State} {m : Fin 4} {t : Nat} {sramErr : Bool} (hs : P s) :
    P (s.wfgSample m t sramErr).1 := by
  unfold State.wfgSample; try dsimp only
  repeat' first | with_reducible (first | assumption | apply K.ite | apply K.ite1 | apply K.ite2 | apply K.setWfg | apply K.wfgTake | apply K.wfgMarkers) | split | refine K.fst (by assumption) ?_ | refine K.snd (by assumption) ?_ | with_reducible apply K.upd

theorem Keeps.wfgSamples (K : Keeps P) {s : State} {m : Fin 4} {r : Rate} {sramErr : Bool} {y4 : Nat} (hs : P s) :
    P (s.wfgSamples m r sramErr y4) := by
  induction y4 generalizing s with
  | zero => exact hs
  | succ n ih =>
    unfold State.wfgSamples; dsimp only
    split
    · exact K.wfgSample hs
    · exact ih (K.setSeq (K.wfgSample hs))

theorem Keeps.wfgCycle (K : Keeps P) {s : State} {m : Fin 4} {sramErr : Bool} (hs : P s) :
    P (s.wfgCycle m sramErr) := by
  unfold State.wfgCycle; try dsimp only
  repeat' first | with_reducible (first | assumption | apply K.ite | apply K.ite1 | apply K.ite2 | apply K.advanceTo | apply K.setSeq | apply K.count | apply K.wfgEnd | apply K.wfgSamples | apply K.setWfg) | with_reducible apply K.upd

theorem Keeps.wfgFirst (K : Keeps P) {s : State} {m : Fin 4} {phase : Nat} {sramErr : Bool} (hs : P s) :
    P (s.wfgFirst m phase sramErr) := by
  unfold State.wfgFirst; try dsimp only
  repeat' first | exact ‹P _› | with_reducible (first | assumption | apply K.ite | apply K.ite1 | apply K.ite2 | apply K.advanceTo | apply K.setSeq | apply K.wfgBegin | apply K.put | apply K.wn64 | apply K.setWfg | apply K.wfgCycle | apply K.ev) | (intro _; intros) | split | refine K.fst (by assumption) ?_ | refine K.snd (by assumption) ?_ | with_reducible apply K.upd

theorem Keeps.wfgPaused (K : Keeps P) {s : State} {d : Fin 12} (hs : P s) :
    P (s.wfgPaused d) := by
  unfold State.wfgPaused; try dsimp only
  repeat' first | with_reducible (first | assumption | apply K.ite | apply K.ite1 | apply K.ite2 | apply K.wfgMarkers | apply K.setWfg) | split | refine K.fst (by assumption) ?_ | refine K.snd (by assumption) ?_ | with_reducible apply K.upd

theorem Keeps.wfgTrailhead (K : Keeps P) {s : State} {m : Fin 4} (hs : P s) :
    P (s.wfgTrailhead m) := by
  unfold State.wfgTrailhead; try dsimp only
  repeat' first | with_reducible (first | assumption | apply K.ite | apply K.ite1 | apply K.ite2 | apply K.advanceToStamp | apply K.wfgEnd | apply K.setSeq) | split | refine K.fst (by assumption) ?_ | refine K.snd (by assumption) ?_ | with_reducible apply K.upd

end Sys2Proof.Machine
end

