-- ==== Sys2Proof/Laws/Ops.lean ====
section
/-! SUPPORT. What the register and memory operations do, each said once: a read after a write, fields that share a register, and the
predicates that every operation keeps (Keep.lean). -/

namespace Sys2Proof.Machine

/-! ## Bits -/

theorem bitsPut_testBit (x lo w v i : Nat) :
    (bitsPut x lo w v).testBit i = if lo ≤ i ∧ i < lo + w then v.testBit (i - lo) else x.testBit i := by
  have h1 : x % 2 ^ lo < 2 ^ lo := Nat.mod_lt _ (Nat.two_pow_pos _)
  have h2 : x % 2 ^ lo + v % 2 ^ w * 2 ^ lo < 2 ^ (lo + w) := by
    have h2 : v % 2 ^ w < 2 ^ w := Nat.mod_lt _ (Nat.two_pow_pos _)
    have : (v % 2 ^ w + 1) * 2 ^ lo ≤ 2 ^ w * 2 ^ lo := Nat.mul_le_mul_right _ h2
    rw [Nat.pow_add, Nat.mul_comm (2 ^ lo)]
    rw [Nat.add_mul, Nat.one_mul] at this
    omega
  simp only [bitsPut, Nat.shiftRight_eq_div_pow]
  rw [Nat.add_comm (x % 2 ^ lo + v % 2 ^ w * 2 ^ lo), Nat.mul_comm (x / 2 ^ (lo + w)), Nat.testBit_two_pow_mul_add _ h2]
  split
  · rw [Nat.add_comm (x % 2 ^ lo), Nat.mul_comm (v % 2 ^ w), Nat.testBit_two_pow_mul_add _ h1]
    split
    · rw [if_neg (by omega), Nat.testBit_mod_two_pow]; simp; omega
    · rw [if_pos (by omega), Nat.testBit_mod_two_pow]; simp; omega
  · rw [if_neg (by omega), ← Nat.shiftRight_eq_div_pow, Nat.testBit_shiftRight]
    congr 1; omega

theorem bitsOf_testBit (x lo w i : Nat) : (bitsOf x lo w).testBit i = (decide (i < w) && x.testBit (lo + i)) := by
  simp [bitsOf, Nat.testBit_mod_two_pow, Nat.testBit_shiftRight]

theorem bitsOf_bitsPut (x lo w v : Nat) : bitsOf (bitsPut x lo w v) lo w = v % 2 ^ w := by
  apply Nat.eq_of_testBit_eq
  intro i
  rw [bitsOf_testBit, bitsPut_testBit, Nat.testBit_mod_two_pow]
  by_cases hi : i < w
  · rw [if_pos (by omega), Nat.add_sub_cancel_left]
  · simp [hi]

theorem bitsPut_lt {x lo w v : Nat} (hx : x < 2 ^ 32) (h : lo + w ≤ 32) : bitsPut x lo w v < 2 ^ 32 := by
  apply Nat.lt_pow_two_of_testBit
  intro i hi
  rw [bitsPut_testBit, if_neg (by omega)]
  exact Nat.testBit_lt_two_pow (Nat.lt_of_lt_of_le hx (Nat.pow_le_pow_right (by decide) hi))

/-- Bits outside a field are not changed by a write of the field. -/
theorem bitsOf_bitsPut_of_disjoint {x lo w v lo2 w2 : Nat} (h : lo2 + w2 ≤ lo ∨ lo + w ≤ lo2) :
    bitsOf (bitsPut x lo w v) lo2 w2 = bitsOf x lo2 w2 := by
  apply Nat.eq_of_testBit_eq
  intro i
  rw [bitsOf_testBit, bitsOf_testBit, bitsPut_testBit]
  by_cases hi : i < w2
  · rw [if_neg (by omega)]
  · simp [hi]

/-! ## Registers -/

section
variable {s : State} {a b v : Nat} {f g : Fld}

theorem State.rd_wr_self (h : cellsWf regReset s.csr = true) (x : Word) : (s.wr a x).rd a = x := cellsGet_set_self h

theorem State.rd_wr_ne (h : cellsWf regReset s.csr = true) (hn : b ≠ a) (x : Word) : (s.wr a x).rd b = s.rd b :=
  cellsGet_set_ne h hn

theorem State.wr_csr_wf (h : cellsWf regReset s.csr = true) (x : Word) : cellsWf regReset (s.wr a x).csr = true := cellsSet_wf h

theorem State.wn_csr_wf (h : cellsWf regReset s.csr = true) : cellsWf regReset (s.wn a v).csr = true := cellsSet_wf h

theorem State.put_csr_wf (h : cellsWf regReset s.csr = true) : cellsWf regReset (s.put f v).csr = true := cellsSet_wf h

theorem State.rn_lt (s : State) (a : Nat) : s.rn a < 2 ^ 32 := (s.rd a).isLt

theorem State.rn_wn_self (h : cellsWf regReset s.csr = true) (hv : v < 2 ^ 32) : (s.wn a v).rn a = v := by
  simp only [State.rn, State.wn, State.rd_wr_self h, BitVec.toNat_ofNat]
  exact Nat.mod_eq_of_lt hv

theorem State.rn_wn_ne (h : cellsWf regReset s.csr = true) (hn : b ≠ a) : (s.wn a v).rn b = s.rn b := by
  simp [State.rn, State.wn, State.rd_wr_ne h hn]

/-- A field reads what was put into it, modulo its width. -/
theorem State.get_put_self (h : cellsWf regReset s.csr = true) (hf : f.lo + f.w ≤ 32) : (s.put f v).get f = v % 2 ^ f.w := by
  rw [State.get, State.put, State.rn_wn_self h (bitsPut_lt (s.rn_lt _) hf), bitsOf_bitsPut]

/-- A field of another register, or one beside the written field in its register, reads what it read. -/
theorem State.get_put_ne (h : cellsWf regReset s.csr = true) (hf : f.lo + f.w ≤ 32)
    (hn : g.addr ≠ f.addr ∨ g.lo + g.w ≤ f.lo ∨ f.lo + f.w ≤ g.lo) : (s.put f v).get g = s.get g := by
  by_cases he : g.addr = f.addr
  · rw [State.get, State.put, he, State.rn_wn_self h (bitsPut_lt (s.rn_lt _) hf),
      bitsOf_bitsPut_of_disjoint (hn.resolve_left fun k => k he), State.get, he]
  · rw [State.get, State.put, State.rn_wn_ne h he, State.get]

/-- A register other than the field's reads what it read. -/
theorem State.rn_put_ne (h : cellsWf regReset s.csr = true) (hn : b ≠ f.addr) : (s.put f v).rn b = s.rn b := by
  rw [State.put, State.rn_wn_ne h hn]

end

/-! ## Memory -/

section
variable {s : State} {a b : Nat} {v : Byte}

theorem State.byte_setByte_self (h : Memory.wf s.mem = true) : (s.setByte a v).byte a = v := cellsGet_set_self h

theorem State.byte_setByte_ne (h : Memory.wf s.mem = true) (hn : b ≠ a) : (s.setByte a v).byte b = s.byte b := cellsGet_set_ne h hn

theorem State.byte_zeroMem {n : Nat} (h : Memory.wf s.mem = true) :
    (s.zeroMem a n).byte b = if a ≤ b ∧ b < a + n then 0 else s.byte b := by
  rw [State.byte, State.zeroMem, cellsGet_clear h]
  simp [memDefault, State.byte]

/-- Every memory operation keeps the canonical form. -/
theorem State.setByte_wf (h : Memory.wf s.mem = true) : Memory.wf (s.setByte a v).mem = true := cellsSet_wf h

theorem State.zeroMem_wf {n : Nat} (h : Memory.wf s.mem = true) : Memory.wf (s.zeroMem a n).mem = true := by
  exact cellsClear_wf (p := fun k => decide (a ≤ k) && decide (k < a + n)) (l := s.mem) h

theorem State.setBytes_wf {l : List Byte} (h : Memory.wf s.mem = true) : Memory.wf (s.setBytes a l).mem = true := by
  induction l generalizing s a with
  | nil => exact h
  | cons c l ih => exact ih (State.setByte_wf h)

/-- Writing memory leaves the registers and the security block alone. -/
theorem State.setBytes_csr {l : List Byte} : (s.setBytes a l).csr = s.csr := by
  induction l generalizing s a with
  | nil => rfl
  | cons c l ih => exact ih

theorem State.setBytes_sec {l : List Byte} : (s.setBytes a l).sec = s.sec := by
  induction l generalizing s a with
  | nil => rfl
  | cons c l ih => exact ih

/-- Bytes outside the written ones are unchanged. -/
theorem State.byte_setBytes_of_out {l : List Byte} (h : Memory.wf s.mem = true) (hb : b < a ∨ a + l.length ≤ b) :
    (s.setBytes a l).byte b = s.byte b := by
  induction l generalizing s a with
  | nil => rfl
  | cons c l ih =>
    simp only [List.length_cons] at hb
    rw [State.setBytes, ih (State.setByte_wf h) (by omega), State.byte_setByte_ne h (by omega)]

/-- A written byte reads back. -/
theorem State.byte_setBytes {l : List Byte} {i : Nat} (h : Memory.wf s.mem = true) (hi : i < l.length) :
    (s.setBytes a l).byte (a + i) = l.getD i 0 := by
  induction l generalizing s a i with
  | nil => exact absurd hi (by simp)
  | cons c l ih =>
    rw [State.setBytes]
    cases i with
    | zero => rw [State.byte_setBytes_of_out (State.setByte_wf h) (by omega), Nat.add_zero, State.byte_setByte_self h]; rfl
    | succ i =>
      rw [show a + (i + 1) = a + 1 + i by omega, ih (State.setByte_wf h) (by simpa using hi)]
      rfl

/-- Written bytes read back, from any place among them and in any number. -/
theorem State.bytes_setBytes {l : List Byte} (i n : Nat) (h : Memory.wf s.mem = true) (hi : i + n ≤ l.length) :
    (s.setBytes a l).bytes (a + i) n = (l.drop i).take n := by
  induction n generalizing i with
  | zero => rw [List.take_zero]; rfl
  | succ n ih =>
    have hl : i < l.length := by omega
    rw [State.bytes, State.byte_setBytes h hl, Nat.add_assoc, ih (i + 1) (by omega), List.drop_eq_getElem_cons hl,
      List.take_succ_cons, List.getD_eq_getElem?_getD, List.getElem?_eq_getElem hl, Option.getD_some]

/-- Reading bytes reads only the memory. -/
theorem State.bytes_congr {t : State} (n : Nat) (h : s.mem = t.mem) : s.bytes a n = t.bytes a n := by
  induction n generalizing a with
  | zero => rfl
  | succ n ih => rw [State.bytes, State.bytes, ih, State.byte, State.byte, h]

/-- A number in memory is that of its bytes. -/
theorem State.le_eq (n : Nat) : s.le a n = ofLe (s.bytes a n) := by
  induction n generalizing a with
  | zero => rfl
  | succ n ih => rw [State.le, ih]; rfl

/-- A number among written bytes. -/
theorem State.le_setBytes {l : List Byte} (i n : Nat) (h : Memory.wf s.mem = true) (hi : i + n ≤ l.length) :
    (s.setBytes a l).le (a + i) n = ofLe ((l.drop i).take n) := by
  rw [State.le_eq, State.bytes_setBytes i n h hi]

end

/-! ## Predicates that the operations keep -/

/-- No operation leaves the canonical form of registers and memory. -/
theorem keepsMem_canonical : KeepsMem fun t => t.canonical = true where
  rest := fun s t _ hc hm h => by simpa [State.canonical, hc, hm] using h
  wrOk := fun s a v h => by
    simp only [State.canonical, Bool.and_eq_true] at h ⊢
    exact ⟨h.1, cellsSet_wf h.2⟩
  clear := fun s p h => by
    simp only [State.canonical, Bool.and_eq_true] at h ⊢
    exact ⟨h.1, cellsClear_wf h.2⟩
  byteOk := fun s a v h => by
    simp only [State.canonical, Bool.and_eq_true] at h ⊢
    exact ⟨State.setByte_wf h.1, h.2⟩
  zeroOk := fun s a n h => by
    simp only [State.canonical, Bool.and_eq_true] at h ⊢
    exact ⟨State.zeroMem_wf h.1, h.2⟩

/-- No operation touches the queue. -/
theorem keepsMem_pending (l : List Instr) : KeepsMem fun t => t.pending = l where
  rest := fun _ _ hp _ _ h => hp.trans h
  wrOk := fun _ _ _ h => h
  clear := fun _ _ h => h
  byteOk := fun _ _ _ h => h
  zeroOk := fun _ _ _ h => h

/-- An operation that stores nothing leaves all of memory as it was. -/
theorem keeps_mem (m : List Host.Cell) : Keeps fun t => t.mem = m where
  rest := fun _ _ _ _ hm h => hm.trans h
  wrOk := fun _ _ _ h => h
  clear := fun _ _ h => h

end Sys2Proof.Machine
end

