-- ==== Sys2Proof/Laws/PerInstr.lean ====
section
/-! SUPPORT. Statements made per command. -/

namespace Sys2Proof.Laws.NoWord

open Sys2Proof

/-- No word of the table of operations and events spells the command: no row has bits. -/
def Statement (i : Instr) : Prop := ∀ n w, decodeTableWord n w ≠ some i

theorem registerWrite (addr : Nat) (v : Word) : Statement (.registerWrite addr v) := by intro n w h; cases h
theorem fabricRequest (req : Fin 31) (addr : Nat) (write : Option (BitVec 512)) (enables : BitVec 64) : Statement (.fabricRequest req addr write enables) := by intro n w h; cases h
theorem fabricResponse (req : Fin 31) (addr k : Nat) (ue : Bool) : Statement (.fabricResponse req addr k ue) := by intro n w h; cases h
theorem structLoad (rx : Rx) : Statement (.structLoad rx) := by intro n w h; cases h
theorem structCheckDone : Statement (.structCheckDone) := by intro n w h; cases h
theorem structUnitsStopped : Statement (.structUnitsStopped) := by intro n w h; cases h
theorem structDomainsSettled : Statement (.structDomainsSettled) := by intro n w h; cases h
theorem structureCommit : Statement (.structureCommit) := by intro n w h; cases h
theorem structLoadDone : Statement (.structLoadDone) := by intro n w h; cases h
theorem stcSwstrobe (v : BitVec 8) : Statement (.stcSwstrobe v) := by intro n w h; cases h
theorem pwrDomainWrite (hi : Bool) (v : Word) : Statement (.pwrDomainWrite hi v) := by intro n w h; cases h
theorem vectorPeriod (p : Fin 8) (x : Seen) (dirErr sramErr : Bool) : Statement (.vectorPeriod p x dirErr sramErr) := by intro n w h; cases h
theorem jumpRequestRegistered (p : Fin 8) : Statement (.jumpRequestRegistered p) := by intro n w h; cases h
theorem jumpHostReq (p : Fin 8) : Statement (.jumpHostReq p) := by intro n w h; cases h
theorem jumpHostCancel (p : Fin 8) : Statement (.jumpHostCancel p) := by intro n w h; cases h
theorem portWaitTimeout (p : Fin 8) : Statement (.portWaitTimeout p) := by intro n w h; cases h
theorem portRun (p : Fin 8) (v : Word) : Statement (.portRun p v) := by intro n w h; cases h
theorem portStop (p : Fin 8) (v : Word) : Statement (.portStop p v) := by intro n w h; cases h
theorem portStartEvent (p : Fin 8) : Statement (.portStartEvent p) := by intro n w h; cases h
theorem portTrailheadReached (p : Fin 8) : Statement (.portTrailheadReached p) := by intro n w h; cases h
theorem portFirstVector (p : Fin 8) (phase : Nat) (x : Seen) (dirErr sramErr : Bool) : Statement (.portFirstVector p phase x dirErr sramErr) := by intro n w h; cases h
theorem bandWrite (p : Fin 8) (band : Fin 4) : Statement (.bandWrite p band) := by intro n w h; cases h
theorem rambleStep (p : Fin 8) : Statement (.rambleStep p) := by intro n w h; cases h
theorem rambleSweepUpdate (p : Fin 8) : Statement (.rambleSweepUpdate p) := by intro n w h; cases h
theorem startAdmitted (p : Fin 8) : Statement (.startAdmitted p) := by intro n w h; cases h
theorem admitTimeout (p : Fin 8) : Statement (.admitTimeout p) := by intro n w h; cases h
theorem ringZeroed (d : Fin 12) : Statement (.ringZeroed d) := by intro n w h; cases h
theorem streamFetch (d : Fin 12) (kind : FetchKind) : Statement (.streamFetch d kind) := by intro n w h; cases h
theorem streamLineValid (d : Fin 12) : Statement (.streamLineValid d) := by intro n w h; cases h
theorem holdResume (p : Fin 8) (phase : Nat) : Statement (.holdResume p phase) := by intro n w h; cases h
theorem holdTimeout (p : Fin 8) : Statement (.holdTimeout p) := by intro n w h; cases h
theorem pageAuthDone (p : Fin 8) (tier : Fin 4) (addr : Nat) : Statement (.pageAuthDone p tier addr) := by intro n w h; cases h
theorem dplRun (d : Fin 12) (v : Word) : Statement (.dplRun d v) := by intro n w h; cases h
theorem dplRunOff (d : Fin 12) (v : Word) : Statement (.dplRunOff d v) := by intro n w h; cases h
theorem dplCommit (d : Fin 12) (v : Word) : Statement (.dplCommit d v) := by intro n w h; cases h
theorem dplReseed (d : Fin 12) (v : Word) : Statement (.dplReseed d v) := by intro n w h; cases h
theorem dplHandover (d : Fin 12) : Statement (.dplHandover d) := by intro n w h; cases h
theorem dplLockDeclared (d : Fin 12) : Statement (.dplLockDeclared d) := by intro n w h; cases h
theorem dplSettled (d : Fin 12) (phase : Nat) : Statement (.dplSettled d phase) := by intro n w h; cases h
theorem dplLossOfLock (d : Fin 12) : Statement (.dplLossOfLock d) := by intro n w h; cases h
theorem dplHoldToAcquire (d : Fin 12) : Statement (.dplHoldToAcquire d) := by intro n w h; cases h
theorem dplFail (d : Fin 12) : Statement (.dplFail d) := by intro n w h; cases h
theorem dplRampUpdate (d : Fin 12) : Statement (.dplRampUpdate d) := by intro n w h; cases h
theorem dplRampSettled (d : Fin 12) : Statement (.dplRampSettled d) := by intro n w h; cases h
theorem ceilingSuppress (clk : Option (Fin 12)) : Statement (.ceilingSuppress clk) := by intro n w h; cases h
theorem refAbsent : Statement (.refAbsent) := by intro n w h; cases h
theorem refPresent : Statement (.refPresent) := by intro n w h; cases h
theorem tbpllMdllReady : Statement (.tbpllMdllReady) := by intro n w h; cases h
theorem tbpllLocked : Statement (.tbpllLocked) := by intro n w h; cases h
theorem tbpllUnlocked : Statement (.tbpllUnlocked) := by intro n w h; cases h
theorem tbpllReturn (phi slew : Int) : Statement (.tbpllReturn phi slew) := by intro n w h; cases h
theorem tbpllAligned : Statement (.tbpllAligned) := by intro n w h; cases h
theorem holdoverLong : Statement (.holdoverLong) := by intro n w h; cases h
theorem timestampWrap : Statement (.timestampWrap) := by intro n w h; cases h
theorem timeBaseZero (late : Bool) : Statement (.timeBaseZero late) := by intro n w h; cases h
theorem trailheadArm : Statement (.trailheadArm) := by intro n w h; cases h
theorem tmbTrailheadReached : Statement (.tmbTrailheadReached) := by intro n w h; cases h
theorem phaseSampleReq (d : Fin 12) (v : Word) : Statement (.phaseSampleReq d v) := by intro n w h; cases h
theorem phaseSample (d : Fin 12) (ofs : BitVec 19) : Statement (.phaseSample d ofs) := by intro n w h; cases h
theorem acqArm (e : Fin 8) (v : Word) : Statement (.acqArm e v) := by intro n w h; cases h
theorem acqStop (e : Fin 8) (v : Word) : Statement (.acqStop e v) := by intro n w h; cases h
theorem acqForce (e : Fin 8) (v : Word) : Statement (.acqForce e v) := by intro n w h; cases h
theorem acqRecordPublish (e : Fin 8) : Statement (.acqRecordPublish e) := by intro n w h; cases h
theorem acqDrainRdWrite (e : Fin 8) (v : Word) : Statement (.acqDrainRdWrite e v) := by intro n w h; cases h
theorem timArm (t : Fin 32) (v : Word) (v1 v2 : BitVec 12) : Statement (.timArm t v v1 v2) := by intro n w h; cases h
theorem timStop (t : Fin 32) (v : Word) : Statement (.timStop t v) := by intro n w h; cases h
theorem timMeasStart (t : Fin 32) : Statement (.timMeasStart t) := by intro n w h; cases h
theorem timEdge (t : Fin 32) (at_ : Nat) (falling : Bool) : Statement (.timEdge t at_ falling) := by intro n w h; cases h
theorem timResult (t : Fin 32) (x v1 v2 : BitVec 12) : Statement (.timResult t x v1 v2) := by intro n w h; cases h
theorem timGateEnd (t : Fin 32) : Statement (.timGateEnd t) := by intro n w h; cases h
theorem timHistUpdate (q : Fin 4) : Statement (.timHistUpdate q) := by intro n w h; cases h
theorem timHistClear (t : Fin 32) (v : Word) : Statement (.timHistClear t v) := by intro n w h; cases h
theorem timHistClearDone (t : Fin 32) : Statement (.timHistClearDone t) := by intro n w h; cases h
theorem timDllLock (t : Fin 32) : Statement (.timDllLock t) := by intro n w h; cases h
theorem timDllUnlock (t : Fin 32) : Statement (.timDllUnlock t) := by intro n w h; cases h
theorem secretPeriodEnd (p : Fin 8) : Statement (.secretPeriodEnd p) := by intro n w h; cases h
theorem wfgRun (m : Fin 4) (v : Word) : Statement (.wfgRun m v) := by intro n w h; cases h
theorem wfgStop (m : Fin 4) (v : Word) : Statement (.wfgStop m v) := by intro n w h; cases h
theorem wfgAdmitted (m : Fin 4) : Statement (.wfgAdmitted m) := by intro n w h; cases h
theorem wfgAdmitTimeout (m : Fin 4) : Statement (.wfgAdmitTimeout m) := by intro n w h; cases h
theorem wfgTrailheadReached (m : Fin 4) : Statement (.wfgTrailheadReached m) := by intro n w h; cases h
theorem wfgFirstSample (m : Fin 4) (phase : Nat) (sramErr : Bool) : Statement (.wfgFirstSample m phase sramErr) := by intro n w h; cases h
theorem wfgWdCycle (m : Fin 4) (sramErr : Bool) : Statement (.wfgWdCycle m sramErr) := by intro n w h; cases h
theorem wfgRequestRegistered (m : Fin 4) : Statement (.wfgRequestRegistered m) := by intro n w h; cases h
theorem wfgJumpHostReq (m : Fin 4) : Statement (.wfgJumpHostReq m) := by intro n w h; cases h
theorem wfgJumpHostCancel (m : Fin 4) : Statement (.wfgJumpHostCancel m) := by intro n w h; cases h
theorem wfgWaitTimeout (m : Fin 4) : Statement (.wfgWaitTimeout m) := by intro n w h; cases h
theorem pdacCodeWrite (u : Fin 16) (code : BitVec 16) : Statement (.pdacCodeWrite u code) := by intro n w h; cases h
theorem pdacGroupLoad (q : Fin 4) (v : Word) : Statement (.pdacGroupLoad q v) := by intro n w h; cases h
theorem pdacMatrixLoad (g : Fin 4) : Statement (.pdacMatrixLoad g) := by intro n w h; cases h
theorem pdacHoldEnd (u : Fin 16) : Statement (.pdacHoldEnd u) := by intro n w h; cases h
theorem pdacLimit (u : Fin 16) (atLimit : Bool) : Statement (.pdacLimit u atLimit) := by intro n w h; cases h
theorem pdacScOff (u : Fin 16) : Statement (.pdacScOff u) := by intro n w h; cases h
theorem slkEnable (v : Word) : Statement (.slkEnable v) := by intro n w h; cases h
theorem slkDisable (v : Word) : Statement (.slkDisable v) := by intro n w h; cases h
theorem slkAligned : Statement (.slkAligned) := by intro n w h; cases h
theorem slkInputLost : Statement (.slkInputLost) := by intro n w h; cases h
theorem announceTimer : Statement (.announceTimer) := by intro n w h; cases h
theorem announce (l : List Byte) (clean : Bool) : Statement (.announce l clean) := by intro n w h; cases h
theorem vote (l : List Byte) (clean : Bool) : Statement (.vote l clean) := by intro n w h; cases h
theorem abandon (l : List Byte) (clean : Bool) : Statement (.abandon l clean) := by intro n w h; cases h
theorem linkBreak (l : List Byte) (clean : Bool) : Statement (.linkBreak l clean) := by intro n w h; cases h
theorem trailheadFrame (l : List Byte) (clean : Bool) : Statement (.trailheadFrame l clean) := by intro n w h; cases h
theorem localVote : Statement (.localVote) := by intro n w h; cases h
theorem roundTimeout (site round : BitVec 8) : Statement (.roundTimeout site round) := by intro n w h; cases h
theorem slkThSend (v : Word) : Statement (.slkThSend v) := by intro n w h; cases h
theorem slkThTimeout : Statement (.slkThTimeout) := by intro n w h; cases h
theorem schAlloc : Statement (.schAlloc) := by intro n w h; cases h
theorem taskSubmit (slot : BitVec 13) : Statement (.taskSubmit slot) := by intro n w h; cases h
theorem taskCancel (slot : BitVec 13) : Statement (.taskCancel slot) := by intro n w h; cases h
theorem slotReturn (slot : BitVec 13) : Statement (.slotReturn slot) := by intro n w h; cases h
theorem bindingFire (k : Fin 64) : Statement (.bindingFire k) := by intro n w h; cases h
theorem schedTick : Statement (.schedTick) := by intro n w h; cases h
theorem taskWaitTimeout (j : Fin 48) : Statement (.taskWaitTimeout j) := by intro n w h; cases h
theorem taskDispatch (g : Fin 4) : Statement (.taskDispatch g) := by intro n w h; cases h
theorem taskFinish (c : Fin 16) (bad : List Nat) : Statement (.taskFinish c bad) := by intro n w h; cases h
theorem taskError (c : Fin 16) (trap : Bool) (detail : Word) (addr : BitVec 64) : Statement (.taskError c trap detail addr) := by intro n w h; cases h
theorem hamperRelease (slot : BitVec 13) : Statement (.hamperRelease slot) := by intro n w h; cases h
theorem failRecordDrain (p : Fin 8) : Statement (.failRecordDrain p) := by intro n w h; cases h
theorem flowReset (f : Fin 256) (v : Word) : Statement (.flowReset f v) := by intro n w h; cases h
theorem coreResetDone (c : Fin 16) : Statement (.coreResetDone c) := by intro n w h; cases h
theorem ddrReadComplete (c : Fin 4) (err : BitVec 640) : Statement (.ddrReadComplete c err) := by intro n w h; cases h
theorem ddrWriteIssued (c : Fin 4) (err : BitVec 640) : Statement (.ddrWriteIssued c err) := by intro n w h; cases h
theorem ddrRefresh (c : Fin 4) (postpone : Bool) : Statement (.ddrRefresh c postpone) := by intro n w h; cases h
theorem ddrMr4Read (c : Fin 4) (v : BitVec 8) : Statement (.ddrMr4Read c v) := by intro n w h; cases h
theorem ddrFullTrain (rx : Rx) : Statement (.ddrFullTrain rx) := by intro n w h; cases h
theorem ddrTrainDone (c : Fin 4) (code lane : BitVec 8) : Statement (.ddrTrainDone c code lane) := by intro n w h; cases h
theorem ddrInitGranule (c : Fin 4) : Statement (.ddrInitGranule c) := by intro n w h; cases h
theorem retrainRoundStart (c : Fin 4) : Statement (.retrainRoundStart c) := by intro n w h; cases h
theorem retrainStep (c : Fin 4) (sub : Fin 2) (late : Bool) : Statement (.retrainStep c sub late) := by intro n w h; cases h
theorem retrainRoundEnd (c : Fin 4) (eyes : List (Nat × Nat)) : Statement (.retrainRoundEnd c eyes) := by intro n w h; cases h
theorem freezeRelease (c : Fin 4) : Statement (.freezeRelease c) := by intro n w h; cases h
theorem diagReadRaw (c : Fin 4) (v : Word) : Statement (.diagReadRaw c v) := by intro n w h; cases h
theorem diagWritePattern (c : Fin 4) (v : Word) : Statement (.diagWritePattern c v) := by intro n w h; cases h
theorem diagDone (c : Fin 4) (err : BitVec 640) : Statement (.diagDone c err) := by intro n w h; cases h
theorem retentionReturn (c : Fin 4) (lost : Bool) (err : BitVec 640) (line : Nat) : Statement (.retentionReturn c lost err line) := by intro n w h; cases h
theorem cxlEnable (v : Word) : Statement (.cxlEnable v) := by intro n w h; cases h
theorem cxlDisable (v : Word) : Statement (.cxlDisable v) := by intro n w h; cases h
theorem cxlReenum (v : Word) : Statement (.cxlReenum v) := by intro n w h; cases h
theorem cxlSetupResult (h : Fin 2) (width speed fail : Nat) (ide : Bool) (cap records : Nat) : Statement (.cxlSetupResult h width speed fail ide cap records) := by intro n w h; cases h
theorem cxlRetryTimer (h : Fin 2) : Statement (.cxlRetryTimer h) := by intro n w h; cases h
theorem cxlWindowEnd (h : Fin 2) : Statement (.cxlWindowEnd h) := by intro n w h; cases h
theorem cxlMemdata (nth : Nat) (poison : Bool) (replays : Nat) : Statement (.cxlMemdata nth poison replays) := by intro n w h; cases h
theorem cxlCmp (nth : Nat) : Statement (.cxlCmp nth) := by intro n w h; cases h
theorem cxlReadTimeout (nth : Nat) : Statement (.cxlReadTimeout nth) := by intro n w h; cases h
theorem cxlRecoveryEnter (h : Fin 2) : Statement (.cxlRecoveryEnter h) := by intro n w h; cases h
theorem cxlRecoveryExit (h : Fin 2) : Statement (.cxlRecoveryExit h) := by intro n w h; cases h
theorem cxlLinkDown (h : Fin 2) : Statement (.cxlLinkDown h) := by intro n w h; cases h
theorem cxlIdeFail (h : Fin 2) : Statement (.cxlIdeFail h) := by intro n w h; cases h
theorem cxlMsix (h : Fin 2) (records : Nat) : Statement (.cxlMsix h records) := by intro n w h; cases h
theorem hello (rx : Rx) : Statement (.hello rx) := by intro n w h; cases h
theorem confirm (rx : Rx) : Statement (.confirm rx) := by intro n w h; cases h
theorem ack (rx : Rx) : Statement (.ack rx) := by intro n w h; cases h
theorem keepalive (rx : Rx) : Statement (.keepalive rx) := by intro n w h; cases h
theorem close (rx : Rx) : Statement (.close rx) := by intro n w h; cases h
theorem pendingTimeout (k : Fin 8) : Statement (.pendingTimeout k) := by intro n w h; cases h
theorem keepaliveTimer (k : Fin 8) : Statement (.keepaliveTimer k) := by intro n w h; cases h
theorem sessionTimeout (k : Fin 8) : Statement (.sessionTimeout k) := by intro n w h; cases h
theorem resumeTimeout (k : Fin 8) : Statement (.resumeTimeout k) := by intro n w h; cases h
theorem ackTimer (k : Fin 8) (c : Fin 7) : Statement (.ackTimer k c) := by intro n w h; cases h
theorem retransmitTimer (k : Fin 8) (c : Fin 7) : Statement (.retransmitTimer k c) := by intro n w h; cases h
theorem hamperFrameSend (k : Fin 8) : Statement (.hamperFrameSend k) := by intro n w h; cases h
theorem eventFrameSend (k : Fin 8) : Statement (.eventFrameSend k) := by intro n w h; cases h
theorem probe (rx : Rx) : Statement (.probe rx) := by intro n w h; cases h
theorem csrRead (rx : Rx) : Statement (.csrRead rx) := by intro n w h; cases h
theorem csrWrite (rx : Rx) : Statement (.csrWrite rx) := by intro n w h; cases h
theorem getCert (rx : Rx) : Statement (.getCert rx) := by intro n w h; cases h
theorem warmReset (rx : Rx) : Statement (.warmReset rx) := by intro n w h; cases h
theorem calFull (rx : Rx) : Statement (.calFull rx) := by intro n w h; cases h
theorem fwUpdate (rx : Rx) : Statement (.fwUpdate rx) := by intro n w h; cases h
theorem scrubFull (rx : Rx) : Statement (.scrubFull rx) := by intro n w h; cases h
theorem enrol (rx : Rx) : Statement (.enrol rx) := by intro n w h; cases h
theorem zeroize (rx : Rx) : Statement (.zeroize rx) := by intro n w h; cases h
theorem longOpEnd : Statement (.longOpEnd) := by intro n w h; cases h
theorem bulkWrite (rx : Rx) : Statement (.bulkWrite rx) := by intro n w h; cases h
theorem bulkRead (rx : Rx) : Statement (.bulkRead rx) := by intro n w h; cases h
theorem arpRequest (p : Fin 2) (target mac ip : Nat) : Statement (.arpRequest p target mac ip) := by intro n w h; cases h
theorem neighbourSolicitation (p : Fin 2) (target mac ip : Nat) : Statement (.neighbourSolicitation p target mac ip) := by intro n w h; cases h
theorem icmpEcho (p : Fin 2) (v6 : Bool) (target mac ip : Nat) (payload : List Byte) : Statement (.icmpEcho p v6 target mac ip payload) := by intro n w h; cases h
theorem dhcpRenew (p : Fin 2) : Statement (.dhcpRenew p) := by intro n w h; cases h
theorem dhcpLeaseLost (p : Fin 2) : Statement (.dhcpLeaseLost p) := by intro n w h; cases h
theorem ethLinkUp (p : Fin 2) : Statement (.ethLinkUp p) := by intro n w h; cases h
theorem ethLinkDown (p : Fin 2) : Statement (.ethLinkDown p) := by intro n w h; cases h
theorem netApply (v : Word) : Statement (.netApply v) := by intro n w h; cases h
theorem dhcpLeaseObtained (p : Fin 2) (ip secs : Word) : Statement (.dhcpLeaseObtained p ip secs) := by intro n w h; cases h
theorem duplicateAddressDetection (p : Fin 2) (global duplicate : Bool) : Statement (.duplicateAddressDetection p global duplicate) := by intro n w h; cases h
theorem pauseFrame (p : Fin 2) : Statement (.pauseFrame p) := by intro n w h; cases h
theorem unknownOpcode (rx : Rx) : Statement (.unknownOpcode rx) := by intro n w h; cases h
theorem getOwner (rx : Rx) : Statement (.getOwner rx) := by intro n w h; cases h
theorem getChallenge (rx : Rx) : Statement (.getChallenge rx) := by intro n w h; cases h
theorem loadKey (rx : Rx) : Statement (.loadKey rx) := by intro n w h; cases h
theorem clearKey (rx : Rx) : Statement (.clearKey rx) := by intro n w h; cases h
theorem rucksackOpen (rx : Rx) : Statement (.rucksackOpen rx) := by intro n w h; cases h
theorem rucksackLock : Statement (.rucksackLock) := by intro n w h; cases h
theorem rucksackClose (rx : Rx) : Statement (.rucksackClose rx) := by intro n w h; cases h
theorem regionZeroed (p : Fin 8) : Statement (.regionZeroed p) := by intro n w h; cases h
theorem getReceipt (rx : Rx) : Statement (.getReceipt rx) := by intro n w h; cases h
theorem receiptQueued (p : Fin 8) : Statement (.receiptQueued p) := by intro n w h; cases h
theorem tamperLog (rx : Rx) : Statement (.tamperLog rx) := by intro n w h; cases h
theorem setPolicy (rx : Rx) : Statement (.setPolicy rx) := by intro n w h; cases h
theorem unsealDevice (rx : Rx) : Statement (.unsealDevice rx) := by intro n w h; cases h
theorem release (rx : Rx) : Statement (.release rx) := by intro n w h; cases h
theorem tamperFire (fired active : BitVec 8) (off : Bool) (aon : Nat) : Statement (.tamperFire fired active off aon) := by intro n w h; cases h
theorem secChallenge : Statement (.secChallenge) := by intro n w h; cases h
theorem secUnlock (sig : List Byte) : Statement (.secUnlock sig) := by intro n w h; cases h
theorem secBoot : Statement (.secBoot) := by intro n w h; cases h
theorem extest (balls load : BitVec 3507) : Statement (.extest balls load) := by intro n w h; cases h
theorem idcode : Statement (.idcode) := by intro n w h; cases h
theorem samplePreload (balls load : BitVec 3507) : Statement (.samplePreload balls load) := by intro n w h; cases h
theorem clamp : Statement (.clamp) := by intro n w h; cases h
theorem highz : Statement (.highz) := by intro n w h; cases h
theorem bypass : Statement (.bypass) := by intro n w h; cases h
theorem tempSampleTick (temps : List Int) : Statement (.tempSampleTick temps) := by intro n w h; cases h
theorem calRun (u : BitVec 7) : Statement (.calRun u) := by intro n w h; cases h
theorem calScan : Statement (.calScan) := by intro n w h; cases h
theorem calRunDone (q : List Nat) : Statement (.calRunDone q) := by intro n w h; cases h
theorem calStale (u : Fin 76) : Statement (.calStale u) := by intro n w h; cases h
theorem calT64Write (p : Fin 256) (path : Fin 3) (c : BitVec 16) : Statement (.calT64Write p path c) := by intro n w h; cases h
theorem istCycle : Statement (.istCycle) := by intro n w h; cases h
theorem istSliceDone (outcome : Fin 3) : Statement (.istSliceDone outcome) := by intro n w h; cases h
theorem cryptoKatRetry (pass : Bool) : Statement (.cryptoKatRetry pass) := by intro n w h; cases h
theorem scrubRead (k : Fin 5) (err : BitVec 640) (sram : Fin 3) : Statement (.scrubRead k err sram) := by intro n w h; cases h
theorem smeCommitPoint (clocks : Nat) : Statement (.smeCommitPoint clocks) := by intro n w h; cases h
theorem smeRoutineEnd : Statement (.smeRoutineEnd) := by intro n w h; cases h
theorem smeFault (patchRam : Bool) : Statement (.smeFault patchRam) := by intro n w h; cases h
theorem eventAccept (src : Fin 512) (merged : Bool) : Statement (.eventAccept src merged) := by intro n w h; cases h
theorem eventLatchClear (k : Fin 16) (v : Word) : Statement (.eventLatchClear k v) := by intro n w h; cases h
theorem evtOutPulseEnd (k : Fin 8) : Statement (.evtOutPulseEnd k) := by intro n w h; cases h
theorem inputEdge (input : Fin 17) (level : Bool) (samples cycles : Nat) : Statement (.inputEdge input level samples cycles) := by intro n w h; cases h
theorem powerOnReset (freq : Option (Fin 4)) (storeOk : Bool) : Statement (.powerOnReset freq storeOk) := by intro n w h; cases h
theorem powerFail : Statement (.powerFail) := by intro n w h; cases h
theorem rstNReset (ns : Nat) : Statement (.rstNReset ns) := by intro n w h; cases h
theorem rstNRelease : Statement (.rstNRelease) := by intro n w h; cases h
theorem watchdogService : Statement (.watchdogService) := by intro n w h; cases h
theorem watchdogHalf : Statement (.watchdogHalf) := by intro n w h; cases h
theorem watchdogReset : Statement (.watchdogReset) := by intro n w h; cases h
theorem tamperReset : Statement (.tamperReset) := by intro n w h; cases h
theorem quadrantReset (go : BitVec 4) : Statement (.quadrantReset go) := by intro n w h; cases h
theorem quadrantResetDone (q : Fin 4) : Statement (.quadrantResetDone q) := by intro n w h; cases h
theorem bootVerified (slot0 slot1 : List (List Byte)) (config : List Byte) : Statement (.bootVerified slot0 slot1 config) := by intro n w h; cases h
theorem deviceReady (ms : Nat) : Statement (.deviceReady ms) := by intro n w h; cases h
theorem domainSwitchDone (d : Fin 44) : Statement (.domainSwitchDone d) := by intro n w h; cases h
theorem domainFault (d : Fin 44) : Statement (.domainFault d) := by intro n w h; cases h
theorem pebReady (b : Fin 8) : Statement (.pebReady b) := by intro n w h; cases h
theorem peReadyHigh (b : Fin 8) : Statement (.peReadyHigh b) := by intro n w h; cases h
theorem pebTxnGo (b : Fin 8) (v : Word) : Statement (.pebTxnGo b v) := by intro n w h; cases h
theorem pebTxnStart (b : Fin 8) : Statement (.pebTxnStart b) := by intro n w h; cases h
theorem pebTxnDone (b : Fin 8) (rx : List Byte) : Statement (.pebTxnDone b rx) := by intro n w h; cases h
theorem pebAbort (b : Fin 8) (rx : List Byte) : Statement (.pebAbort b rx) := by intro n w h; cases h
theorem closedRoundExpiry (site round : BitVec 8) : Statement (.closedRoundExpiry site round) := by intro n w h; cases h

end Sys2Proof.Laws.NoWord
end

