-- ==== Sys2Proof/Laws/State.lean ====
section
/-! SUPPORT. What the named updates leave alone: one lemma per field and update. An update of a register, of memory, of the events on
their way or of one unit changes no other field. -/

namespace Sys2Proof.Machine

variable (s : State)

/-! ## `wr` -/

@[simp] theorem State.wr_pending (a : Nat) (v : Word) : (s.wr a v).pending = s.pending := rfl
@[simp] theorem State.wr_csr (a : Nat) (v : Word) : (s.wr a v).csr = cellsSet regReset s.csr a v := rfl
@[simp] theorem State.wr_mem (a : Nat) (v : Word) : (s.wr a v).mem = s.mem := rfl
@[simp] theorem State.wr_shadow (a : Nat) (v : Word) : (s.wr a v).shadow = s.shadow := rfl
@[simp] theorem State.wr_stagedLo (a : Nat) (v : Word) : (s.wr a v).stagedLo = s.stagedLo := rfl
@[simp] theorem State.wr_waits (a : Nat) (v : Word) : (s.wr a v).waits = s.waits := rfl
@[simp] theorem State.wr_csrWait (a : Nat) (v : Word) : (s.wr a v).csrWait = s.csrWait := rfl
@[simp] theorem State.wr_raised (a : Nat) (v : Word) : (s.wr a v).raised = s.raised := rfl
@[simp] theorem State.wr_pulses (a : Nat) (v : Word) : (s.wr a v).pulses = s.pulses := rfl
@[simp] theorem State.wr_port (a : Nat) (v : Word) : (s.wr a v).port = s.port := rfl
@[simp] theorem State.wr_seq (a : Nat) (v : Word) : (s.wr a v).seq = s.seq := rfl
@[simp] theorem State.wr_acq (a : Nat) (v : Word) : (s.wr a v).acq = s.acq := rfl
@[simp] theorem State.wr_tim (a : Nat) (v : Word) : (s.wr a v).tim = s.tim := rfl
@[simp] theorem State.wr_x7 (a : Nat) (v : Word) : (s.wr a v).x7 = s.x7 := rfl
@[simp] theorem State.wr_wfg (a : Nat) (v : Word) : (s.wr a v).wfg = s.wfg := rfl
@[simp] theorem State.wr_pdac (a : Nat) (v : Word) : (s.wr a v).pdac = s.pdac := rfl
@[simp] theorem State.wr_fab (a : Nat) (v : Word) : (s.wr a v).fab = s.fab := rfl
@[simp] theorem State.wr_fabWait (a : Nat) (v : Word) : (s.wr a v).fabWait = s.fabWait := rfl
@[simp] theorem State.wr_hop (a : Nat) (v : Word) : (s.wr a v).hop = s.hop := rfl
@[simp] theorem State.wr_tagLast (a : Nat) (v : Word) : (s.wr a v).tagLast = s.tagLast := rfl
@[simp] theorem State.wr_outLast (a : Nat) (v : Word) : (s.wr a v).outLast = s.outLast := rfl
@[simp] theorem State.wr_dpl (a : Nat) (v : Word) : (s.wr a v).dpl = s.dpl := rfl
@[simp] theorem State.wr_tmb (a : Nat) (v : Word) : (s.wr a v).tmb = s.tmb := rfl
@[simp] theorem State.wr_voteQ (a : Nat) (v : Word) : (s.wr a v).voteQ = s.voteQ := rfl
@[simp] theorem State.wr_useTab (a : Nat) (v : Word) : (s.wr a v).useTab = s.useTab := rfl
@[simp] theorem State.wr_receipts (a : Nat) (v : Word) : (s.wr a v).receipts = s.receipts := rfl
@[simp] theorem State.wr_cs (a : Nat) (v : Word) : (s.wr a v).cs = s.cs := rfl
@[simp] theorem State.wr_slk (a : Nat) (v : Word) : (s.wr a v).slk = s.slk := rfl
@[simp] theorem State.wr_siteOut (a : Nat) (v : Word) : (s.wr a v).siteOut = s.siteOut := rfl
@[simp] theorem State.wr_sch (a : Nat) (v : Word) : (s.wr a v).sch = s.sch := rfl
@[simp] theorem State.wr_dmc (a : Nat) (v : Word) : (s.wr a v).dmc = s.dmc := rfl
@[simp] theorem State.wr_cxh (a : Nat) (v : Word) : (s.wr a v).cxh = s.cxh := rfl
@[simp] theorem State.wr_cal (a : Nat) (v : Word) : (s.wr a v).cal = s.cal := rfl
@[simp] theorem State.wr_sme (a : Nat) (v : Word) : (s.wr a v).sme = s.sme := rfl
@[simp] theorem State.wr_long (a : Nat) (v : Word) : (s.wr a v).long = s.long := rfl
@[simp] theorem State.wr_trainLeft (a : Nat) (v : Word) : (s.wr a v).trainLeft = s.trainLeft := rfl
@[simp] theorem State.wr_trainCodes (a : Nat) (v : Word) : (s.wr a v).trainCodes = s.trainCodes := rfl
@[simp] theorem State.wr_load (a : Nat) (v : Word) : (s.wr a v).load = s.load := rfl
@[simp] theorem State.wr_lineHold (a : Nat) (v : Word) : (s.wr a v).lineHold = s.lineHold := rfl
@[simp] theorem State.wr_sec (a : Nat) (v : Word) : (s.wr a v).sec = s.sec := rfl
@[simp] theorem State.wr_net (a : Nat) (v : Word) : (s.wr a v).net = s.net := rfl
@[simp] theorem State.wr_evc (a : Nat) (v : Word) : (s.wr a v).evc = s.evc := rfl
@[simp] theorem State.wr_pwr (a : Nat) (v : Word) : (s.wr a v).pwr = s.pwr := rfl
@[simp] theorem State.wr_peb (a : Nat) (v : Word) : (s.wr a v).peb = s.peb := rfl
@[simp] theorem State.wr_jtag (a : Nat) (v : Word) : (s.wr a v).jtag = s.jtag := rfl
@[simp] theorem State.wr_boot (a : Nat) (v : Word) : (s.wr a v).boot = s.boot := rfl
@[simp] theorem State.wr_fresh (a : Nat) (v : Word) : (s.wr a v).fresh = s.fresh := rfl

/-! ## `wn` -/

@[simp] theorem State.wn_pending (a v : Nat) : (s.wn a v).pending = s.pending := rfl
@[simp] theorem State.wn_mem (a v : Nat) : (s.wn a v).mem = s.mem := rfl
@[simp] theorem State.wn_shadow (a v : Nat) : (s.wn a v).shadow = s.shadow := rfl
@[simp] theorem State.wn_stagedLo (a v : Nat) : (s.wn a v).stagedLo = s.stagedLo := rfl
@[simp] theorem State.wn_waits (a v : Nat) : (s.wn a v).waits = s.waits := rfl
@[simp] theorem State.wn_csrWait (a v : Nat) : (s.wn a v).csrWait = s.csrWait := rfl
@[simp] theorem State.wn_raised (a v : Nat) : (s.wn a v).raised = s.raised := rfl
@[simp] theorem State.wn_pulses (a v : Nat) : (s.wn a v).pulses = s.pulses := rfl
@[simp] theorem State.wn_port (a v : Nat) : (s.wn a v).port = s.port := rfl
@[simp] theorem State.wn_seq (a v : Nat) : (s.wn a v).seq = s.seq := rfl
@[simp] theorem State.wn_acq (a v : Nat) : (s.wn a v).acq = s.acq := rfl
@[simp] theorem State.wn_tim (a v : Nat) : (s.wn a v).tim = s.tim := rfl
@[simp] theorem State.wn_x7 (a v : Nat) : (s.wn a v).x7 = s.x7 := rfl
@[simp] theorem State.wn_wfg (a v : Nat) : (s.wn a v).wfg = s.wfg := rfl
@[simp] theorem State.wn_pdac (a v : Nat) : (s.wn a v).pdac = s.pdac := rfl
@[simp] theorem State.wn_fab (a v : Nat) : (s.wn a v).fab = s.fab := rfl
@[simp] theorem State.wn_fabWait (a v : Nat) : (s.wn a v).fabWait = s.fabWait := rfl
@[simp] theorem State.wn_hop (a v : Nat) : (s.wn a v).hop = s.hop := rfl
@[simp] theorem State.wn_tagLast (a v : Nat) : (s.wn a v).tagLast = s.tagLast := rfl
@[simp] theorem State.wn_outLast (a v : Nat) : (s.wn a v).outLast = s.outLast := rfl
@[simp] theorem State.wn_dpl (a v : Nat) : (s.wn a v).dpl = s.dpl := rfl
@[simp] theorem State.wn_tmb (a v : Nat) : (s.wn a v).tmb = s.tmb := rfl
@[simp] theorem State.wn_voteQ (a v : Nat) : (s.wn a v).voteQ = s.voteQ := rfl
@[simp] theorem State.wn_useTab (a v : Nat) : (s.wn a v).useTab = s.useTab := rfl
@[simp] theorem State.wn_receipts (a v : Nat) : (s.wn a v).receipts = s.receipts := rfl
@[simp] theorem State.wn_cs (a v : Nat) : (s.wn a v).cs = s.cs := rfl
@[simp] theorem State.wn_slk (a v : Nat) : (s.wn a v).slk = s.slk := rfl
@[simp] theorem State.wn_siteOut (a v : Nat) : (s.wn a v).siteOut = s.siteOut := rfl
@[simp] theorem State.wn_sch (a v : Nat) : (s.wn a v).sch = s.sch := rfl
@[simp] theorem State.wn_dmc (a v : Nat) : (s.wn a v).dmc = s.dmc := rfl
@[simp] theorem State.wn_cxh (a v : Nat) : (s.wn a v).cxh = s.cxh := rfl
@[simp] theorem State.wn_cal (a v : Nat) : (s.wn a v).cal = s.cal := rfl
@[simp] theorem State.wn_sme (a v : Nat) : (s.wn a v).sme = s.sme := rfl
@[simp] theorem State.wn_long (a v : Nat) : (s.wn a v).long = s.long := rfl
@[simp] theorem State.wn_trainLeft (a v : Nat) : (s.wn a v).trainLeft = s.trainLeft := rfl
@[simp] theorem State.wn_trainCodes (a v : Nat) : (s.wn a v).trainCodes = s.trainCodes := rfl
@[simp] theorem State.wn_load (a v : Nat) : (s.wn a v).load = s.load := rfl
@[simp] theorem State.wn_lineHold (a v : Nat) : (s.wn a v).lineHold = s.lineHold := rfl
@[simp] theorem State.wn_sec (a v : Nat) : (s.wn a v).sec = s.sec := rfl
@[simp] theorem State.wn_net (a v : Nat) : (s.wn a v).net = s.net := rfl
@[simp] theorem State.wn_evc (a v : Nat) : (s.wn a v).evc = s.evc := rfl
@[simp] theorem State.wn_pwr (a v : Nat) : (s.wn a v).pwr = s.pwr := rfl
@[simp] theorem State.wn_peb (a v : Nat) : (s.wn a v).peb = s.peb := rfl
@[simp] theorem State.wn_jtag (a v : Nat) : (s.wn a v).jtag = s.jtag := rfl
@[simp] theorem State.wn_boot (a v : Nat) : (s.wn a v).boot = s.boot := rfl
@[simp] theorem State.wn_fresh (a v : Nat) : (s.wn a v).fresh = s.fresh := rfl

/-! ## `put` -/

@[simp] theorem State.put_pending (f : Fld) (v : Nat) : (s.put f v).pending = s.pending := rfl
@[simp] theorem State.put_mem (f : Fld) (v : Nat) : (s.put f v).mem = s.mem := rfl
@[simp] theorem State.put_shadow (f : Fld) (v : Nat) : (s.put f v).shadow = s.shadow := rfl
@[simp] theorem State.put_stagedLo (f : Fld) (v : Nat) : (s.put f v).stagedLo = s.stagedLo := rfl
@[simp] theorem State.put_waits (f : Fld) (v : Nat) : (s.put f v).waits = s.waits := rfl
@[simp] theorem State.put_csrWait (f : Fld) (v : Nat) : (s.put f v).csrWait = s.csrWait := rfl
@[simp] theorem State.put_raised (f : Fld) (v : Nat) : (s.put f v).raised = s.raised := rfl
@[simp] theorem State.put_pulses (f : Fld) (v : Nat) : (s.put f v).pulses = s.pulses := rfl
@[simp] theorem State.put_port (f : Fld) (v : Nat) : (s.put f v).port = s.port := rfl
@[simp] theorem State.put_seq (f : Fld) (v : Nat) : (s.put f v).seq = s.seq := rfl
@[simp] theorem State.put_acq (f : Fld) (v : Nat) : (s.put f v).acq = s.acq := rfl
@[simp] theorem State.put_tim (f : Fld) (v : Nat) : (s.put f v).tim = s.tim := rfl
@[simp] theorem State.put_x7 (f : Fld) (v : Nat) : (s.put f v).x7 = s.x7 := rfl
@[simp] theorem State.put_wfg (f : Fld) (v : Nat) : (s.put f v).wfg = s.wfg := rfl
@[simp] theorem State.put_pdac (f : Fld) (v : Nat) : (s.put f v).pdac = s.pdac := rfl
@[simp] theorem State.put_fab (f : Fld) (v : Nat) : (s.put f v).fab = s.fab := rfl
@[simp] theorem State.put_fabWait (f : Fld) (v : Nat) : (s.put f v).fabWait = s.fabWait := rfl
@[simp] theorem State.put_hop (f : Fld) (v : Nat) : (s.put f v).hop = s.hop := rfl
@[simp] theorem State.put_tagLast (f : Fld) (v : Nat) : (s.put f v).tagLast = s.tagLast := rfl
@[simp] theorem State.put_outLast (f : Fld) (v : Nat) : (s.put f v).outLast = s.outLast := rfl
@[simp] theorem State.put_dpl (f : Fld) (v : Nat) : (s.put f v).dpl = s.dpl := rfl
@[simp] theorem State.put_tmb (f : Fld) (v : Nat) : (s.put f v).tmb = s.tmb := rfl
@[simp] theorem State.put_voteQ (f : Fld) (v : Nat) : (s.put f v).voteQ = s.voteQ := rfl
@[simp] theorem State.put_useTab (f : Fld) (v : Nat) : (s.put f v).useTab = s.useTab := rfl
@[simp] theorem State.put_receipts (f : Fld) (v : Nat) : (s.put f v).receipts = s.receipts := rfl
@[simp] theorem State.put_cs (f : Fld) (v : Nat) : (s.put f v).cs = s.cs := rfl
@[simp] theorem State.put_slk (f : Fld) (v : Nat) : (s.put f v).slk = s.slk := rfl
@[simp] theorem State.put_siteOut (f : Fld) (v : Nat) : (s.put f v).siteOut = s.siteOut := rfl
@[simp] theorem State.put_sch (f : Fld) (v : Nat) : (s.put f v).sch = s.sch := rfl
@[simp] theorem State.put_dmc (f : Fld) (v : Nat) : (s.put f v).dmc = s.dmc := rfl
@[simp] theorem State.put_cxh (f : Fld) (v : Nat) : (s.put f v).cxh = s.cxh := rfl
@[simp] theorem State.put_cal (f : Fld) (v : Nat) : (s.put f v).cal = s.cal := rfl
@[simp] theorem State.put_sme (f : Fld) (v : Nat) : (s.put f v).sme = s.sme := rfl
@[simp] theorem State.put_long (f : Fld) (v : Nat) : (s.put f v).long = s.long := rfl
@[simp] theorem State.put_trainLeft (f : Fld) (v : Nat) : (s.put f v).trainLeft = s.trainLeft := rfl
@[simp] theorem State.put_trainCodes (f : Fld) (v : Nat) : (s.put f v).trainCodes = s.trainCodes := rfl
@[simp] theorem State.put_load (f : Fld) (v : Nat) : (s.put f v).load = s.load := rfl
@[simp] theorem State.put_lineHold (f : Fld) (v : Nat) : (s.put f v).lineHold = s.lineHold := rfl
@[simp] theorem State.put_sec (f : Fld) (v : Nat) : (s.put f v).sec = s.sec := rfl
@[simp] theorem State.put_net (f : Fld) (v : Nat) : (s.put f v).net = s.net := rfl
@[simp] theorem State.put_evc (f : Fld) (v : Nat) : (s.put f v).evc = s.evc := rfl
@[simp] theorem State.put_pwr (f : Fld) (v : Nat) : (s.put f v).pwr = s.pwr := rfl
@[simp] theorem State.put_peb (f : Fld) (v : Nat) : (s.put f v).peb = s.peb := rfl
@[simp] theorem State.put_jtag (f : Fld) (v : Nat) : (s.put f v).jtag = s.jtag := rfl
@[simp] theorem State.put_boot (f : Fld) (v : Nat) : (s.put f v).boot = s.boot := rfl
@[simp] theorem State.put_fresh (f : Fld) (v : Nat) : (s.put f v).fresh = s.fresh := rfl

/-! ## `wn64` -/

@[simp] theorem State.wn64_pending (a v : Nat) : (s.wn64 a v).pending = s.pending := rfl
@[simp] theorem State.wn64_mem (a v : Nat) : (s.wn64 a v).mem = s.mem := rfl
@[simp] theorem State.wn64_shadow (a v : Nat) : (s.wn64 a v).shadow = s.shadow := rfl
@[simp] theorem State.wn64_stagedLo (a v : Nat) : (s.wn64 a v).stagedLo = s.stagedLo := rfl
@[simp] theorem State.wn64_waits (a v : Nat) : (s.wn64 a v).waits = s.waits := rfl
@[simp] theorem State.wn64_csrWait (a v : Nat) : (s.wn64 a v).csrWait = s.csrWait := rfl
@[simp] theorem State.wn64_raised (a v : Nat) : (s.wn64 a v).raised = s.raised := rfl
@[simp] theorem State.wn64_pulses (a v : Nat) : (s.wn64 a v).pulses = s.pulses := rfl
@[simp] theorem State.wn64_port (a v : Nat) : (s.wn64 a v).port = s.port := rfl
@[simp] theorem State.wn64_seq (a v : Nat) : (s.wn64 a v).seq = s.seq := rfl
@[simp] theorem State.wn64_acq (a v : Nat) : (s.wn64 a v).acq = s.acq := rfl
@[simp] theorem State.wn64_tim (a v : Nat) : (s.wn64 a v).tim = s.tim := rfl
@[simp] theorem State.wn64_x7 (a v : Nat) : (s.wn64 a v).x7 = s.x7 := rfl
@[simp] theorem State.wn64_wfg (a v : Nat) : (s.wn64 a v).wfg = s.wfg := rfl
@[simp] theorem State.wn64_pdac (a v : Nat) : (s.wn64 a v).pdac = s.pdac := rfl
@[simp] theorem State.wn64_fab (a v : Nat) : (s.wn64 a v).fab = s.fab := rfl
@[simp] theorem State.wn64_fabWait (a v : Nat) : (s.wn64 a v).fabWait = s.fabWait := rfl
@[simp] theorem State.wn64_hop (a v : Nat) : (s.wn64 a v).hop = s.hop := rfl
@[simp] theorem State.wn64_tagLast (a v : Nat) : (s.wn64 a v).tagLast = s.tagLast := rfl
@[simp] theorem State.wn64_outLast (a v : Nat) : (s.wn64 a v).outLast = s.outLast := rfl
@[simp] theorem State.wn64_dpl (a v : Nat) : (s.wn64 a v).dpl = s.dpl := rfl
@[simp] theorem State.wn64_tmb (a v : Nat) : (s.wn64 a v).tmb = s.tmb := rfl
@[simp] theorem State.wn64_voteQ (a v : Nat) : (s.wn64 a v).voteQ = s.voteQ := rfl
@[simp] theorem State.wn64_useTab (a v : Nat) : (s.wn64 a v).useTab = s.useTab := rfl
@[simp] theorem State.wn64_receipts (a v : Nat) : (s.wn64 a v).receipts = s.receipts := rfl
@[simp] theorem State.wn64_cs (a v : Nat) : (s.wn64 a v).cs = s.cs := rfl
@[simp] theorem State.wn64_slk (a v : Nat) : (s.wn64 a v).slk = s.slk := rfl
@[simp] theorem State.wn64_siteOut (a v : Nat) : (s.wn64 a v).siteOut = s.siteOut := rfl
@[simp] theorem State.wn64_sch (a v : Nat) : (s.wn64 a v).sch = s.sch := rfl
@[simp] theorem State.wn64_dmc (a v : Nat) : (s.wn64 a v).dmc = s.dmc := rfl
@[simp] theorem State.wn64_cxh (a v : Nat) : (s.wn64 a v).cxh = s.cxh := rfl
@[simp] theorem State.wn64_cal (a v : Nat) : (s.wn64 a v).cal = s.cal := rfl
@[simp] theorem State.wn64_sme (a v : Nat) : (s.wn64 a v).sme = s.sme := rfl
@[simp] theorem State.wn64_long (a v : Nat) : (s.wn64 a v).long = s.long := rfl
@[simp] theorem State.wn64_trainLeft (a v : Nat) : (s.wn64 a v).trainLeft = s.trainLeft := rfl
@[simp] theorem State.wn64_trainCodes (a v : Nat) : (s.wn64 a v).trainCodes = s.trainCodes := rfl
@[simp] theorem State.wn64_load (a v : Nat) : (s.wn64 a v).load = s.load := rfl
@[simp] theorem State.wn64_lineHold (a v : Nat) : (s.wn64 a v).lineHold = s.lineHold := rfl
@[simp] theorem State.wn64_sec (a v : Nat) : (s.wn64 a v).sec = s.sec := rfl
@[simp] theorem State.wn64_net (a v : Nat) : (s.wn64 a v).net = s.net := rfl
@[simp] theorem State.wn64_evc (a v : Nat) : (s.wn64 a v).evc = s.evc := rfl
@[simp] theorem State.wn64_pwr (a v : Nat) : (s.wn64 a v).pwr = s.pwr := rfl
@[simp] theorem State.wn64_peb (a v : Nat) : (s.wn64 a v).peb = s.peb := rfl
@[simp] theorem State.wn64_jtag (a v : Nat) : (s.wn64 a v).jtag = s.jtag := rfl
@[simp] theorem State.wn64_boot (a v : Nat) : (s.wn64 a v).boot = s.boot := rfl
@[simp] theorem State.wn64_fresh (a v : Nat) : (s.wn64 a v).fresh = s.fresh := rfl

/-! ## `count` -/

@[simp] theorem State.count_pending (a n : Nat) : (s.count a n).pending = s.pending := rfl
@[simp] theorem State.count_mem (a n : Nat) : (s.count a n).mem = s.mem := rfl
@[simp] theorem State.count_shadow (a n : Nat) : (s.count a n).shadow = s.shadow := rfl
@[simp] theorem State.count_stagedLo (a n : Nat) : (s.count a n).stagedLo = s.stagedLo := rfl
@[simp] theorem State.count_waits (a n : Nat) : (s.count a n).waits = s.waits := rfl
@[simp] theorem State.count_csrWait (a n : Nat) : (s.count a n).csrWait = s.csrWait := rfl
@[simp] theorem State.count_raised (a n : Nat) : (s.count a n).raised = s.raised := rfl
@[simp] theorem State.count_pulses (a n : Nat) : (s.count a n).pulses = s.pulses := rfl
@[simp] theorem State.count_port (a n : Nat) : (s.count a n).port = s.port := rfl
@[simp] theorem State.count_seq (a n : Nat) : (s.count a n).seq = s.seq := rfl
@[simp] theorem State.count_acq (a n : Nat) : (s.count a n).acq = s.acq := rfl
@[simp] theorem State.count_tim (a n : Nat) : (s.count a n).tim = s.tim := rfl
@[simp] theorem State.count_x7 (a n : Nat) : (s.count a n).x7 = s.x7 := rfl
@[simp] theorem State.count_wfg (a n : Nat) : (s.count a n).wfg = s.wfg := rfl
@[simp] theorem State.count_pdac (a n : Nat) : (s.count a n).pdac = s.pdac := rfl
@[simp] theorem State.count_fab (a n : Nat) : (s.count a n).fab = s.fab := rfl
@[simp] theorem State.count_fabWait (a n : Nat) : (s.count a n).fabWait = s.fabWait := rfl
@[simp] theorem State.count_hop (a n : Nat) : (s.count a n).hop = s.hop := rfl
@[simp] theorem State.count_tagLast (a n : Nat) : (s.count a n).tagLast = s.tagLast := rfl
@[simp] theorem State.count_outLast (a n : Nat) : (s.count a n).outLast = s.outLast := rfl
@[simp] theorem State.count_dpl (a n : Nat) : (s.count a n).dpl = s.dpl := rfl
@[simp] theorem State.count_tmb (a n : Nat) : (s.count a n).tmb = s.tmb := rfl
@[simp] theorem State.count_voteQ (a n : Nat) : (s.count a n).voteQ = s.voteQ := rfl
@[simp] theorem State.count_useTab (a n : Nat) : (s.count a n).useTab = s.useTab := rfl
@[simp] theorem State.count_receipts (a n : Nat) : (s.count a n).receipts = s.receipts := rfl
@[simp] theorem State.count_cs (a n : Nat) : (s.count a n).cs = s.cs := rfl
@[simp] theorem State.count_slk (a n : Nat) : (s.count a n).slk = s.slk := rfl
@[simp] theorem State.count_siteOut (a n : Nat) : (s.count a n).siteOut = s.siteOut := rfl
@[simp] theorem State.count_sch (a n : Nat) : (s.count a n).sch = s.sch := rfl
@[simp] theorem State.count_dmc (a n : Nat) : (s.count a n).dmc = s.dmc := rfl
@[simp] theorem State.count_cxh (a n : Nat) : (s.count a n).cxh = s.cxh := rfl
@[simp] theorem State.count_cal (a n : Nat) : (s.count a n).cal = s.cal := rfl
@[simp] theorem State.count_sme (a n : Nat) : (s.count a n).sme = s.sme := rfl
@[simp] theorem State.count_long (a n : Nat) : (s.count a n).long = s.long := rfl
@[simp] theorem State.count_trainLeft (a n : Nat) : (s.count a n).trainLeft = s.trainLeft := rfl
@[simp] theorem State.count_trainCodes (a n : Nat) : (s.count a n).trainCodes = s.trainCodes := rfl
@[simp] theorem State.count_load (a n : Nat) : (s.count a n).load = s.load := rfl
@[simp] theorem State.count_lineHold (a n : Nat) : (s.count a n).lineHold = s.lineHold := rfl
@[simp] theorem State.count_sec (a n : Nat) : (s.count a n).sec = s.sec := rfl
@[simp] theorem State.count_net (a n : Nat) : (s.count a n).net = s.net := rfl
@[simp] theorem State.count_evc (a n : Nat) : (s.count a n).evc = s.evc := rfl
@[simp] theorem State.count_pwr (a n : Nat) : (s.count a n).pwr = s.pwr := rfl
@[simp] theorem State.count_peb (a n : Nat) : (s.count a n).peb = s.peb := rfl
@[simp] theorem State.count_jtag (a n : Nat) : (s.count a n).jtag = s.jtag := rfl
@[simp] theorem State.count_boot (a n : Nat) : (s.count a n).boot = s.boot := rfl
@[simp] theorem State.count_fresh (a n : Nat) : (s.count a n).fresh = s.fresh := rfl

/-! ## `setBit` -/

@[simp] theorem State.setBit_pending (a i : Nat) : (s.setBit a i).pending = s.pending := rfl
@[simp] theorem State.setBit_mem (a i : Nat) : (s.setBit a i).mem = s.mem := rfl
@[simp] theorem State.setBit_shadow (a i : Nat) : (s.setBit a i).shadow = s.shadow := rfl
@[simp] theorem State.setBit_stagedLo (a i : Nat) : (s.setBit a i).stagedLo = s.stagedLo := rfl
@[simp] theorem State.setBit_waits (a i : Nat) : (s.setBit a i).waits = s.waits := rfl
@[simp] theorem State.setBit_csrWait (a i : Nat) : (s.setBit a i).csrWait = s.csrWait := rfl
@[simp] theorem State.setBit_raised (a i : Nat) : (s.setBit a i).raised = s.raised := rfl
@[simp] theorem State.setBit_pulses (a i : Nat) : (s.setBit a i).pulses = s.pulses := rfl
@[simp] theorem State.setBit_port (a i : Nat) : (s.setBit a i).port = s.port := rfl
@[simp] theorem State.setBit_seq (a i : Nat) : (s.setBit a i).seq = s.seq := rfl
@[simp] theorem State.setBit_acq (a i : Nat) : (s.setBit a i).acq = s.acq := rfl
@[simp] theorem State.setBit_tim (a i : Nat) : (s.setBit a i).tim = s.tim := rfl
@[simp] theorem State.setBit_x7 (a i : Nat) : (s.setBit a i).x7 = s.x7 := rfl
@[simp] theorem State.setBit_wfg (a i : Nat) : (s.setBit a i).wfg = s.wfg := rfl
@[simp] theorem State.setBit_pdac (a i : Nat) : (s.setBit a i).pdac = s.pdac := rfl
@[simp] theorem State.setBit_fab (a i : Nat) : (s.setBit a i).fab = s.fab := rfl
@[simp] theorem State.setBit_fabWait (a i : Nat) : (s.setBit a i).fabWait = s.fabWait := rfl
@[simp] theorem State.setBit_hop (a i : Nat) : (s.setBit a i).hop = s.hop := rfl
@[simp] theorem State.setBit_tagLast (a i : Nat) : (s.setBit a i).tagLast = s.tagLast := rfl
@[simp] theorem State.setBit_outLast (a i : Nat) : (s.setBit a i).outLast = s.outLast := rfl
@[simp] theorem State.setBit_dpl (a i : Nat) : (s.setBit a i).dpl = s.dpl := rfl
@[simp] theorem State.setBit_tmb (a i : Nat) : (s.setBit a i).tmb = s.tmb := rfl
@[simp] theorem State.setBit_voteQ (a i : Nat) : (s.setBit a i).voteQ = s.voteQ := rfl
@[simp] theorem State.setBit_useTab (a i : Nat) : (s.setBit a i).useTab = s.useTab := rfl
@[simp] theorem State.setBit_receipts (a i : Nat) : (s.setBit a i).receipts = s.receipts := rfl
@[simp] theorem State.setBit_cs (a i : Nat) : (s.setBit a i).cs = s.cs := rfl
@[simp] theorem State.setBit_slk (a i : Nat) : (s.setBit a i).slk = s.slk := rfl
@[simp] theorem State.setBit_siteOut (a i : Nat) : (s.setBit a i).siteOut = s.siteOut := rfl
@[simp] theorem State.setBit_sch (a i : Nat) : (s.setBit a i).sch = s.sch := rfl
@[simp] theorem State.setBit_dmc (a i : Nat) : (s.setBit a i).dmc = s.dmc := rfl
@[simp] theorem State.setBit_cxh (a i : Nat) : (s.setBit a i).cxh = s.cxh := rfl
@[simp] theorem State.setBit_cal (a i : Nat) : (s.setBit a i).cal = s.cal := rfl
@[simp] theorem State.setBit_sme (a i : Nat) : (s.setBit a i).sme = s.sme := rfl
@[simp] theorem State.setBit_long (a i : Nat) : (s.setBit a i).long = s.long := rfl
@[simp] theorem State.setBit_trainLeft (a i : Nat) : (s.setBit a i).trainLeft = s.trainLeft := rfl
@[simp] theorem State.setBit_trainCodes (a i : Nat) : (s.setBit a i).trainCodes = s.trainCodes := rfl
@[simp] theorem State.setBit_load (a i : Nat) : (s.setBit a i).load = s.load := rfl
@[simp] theorem State.setBit_lineHold (a i : Nat) : (s.setBit a i).lineHold = s.lineHold := rfl
@[simp] theorem State.setBit_sec (a i : Nat) : (s.setBit a i).sec = s.sec := rfl
@[simp] theorem State.setBit_net (a i : Nat) : (s.setBit a i).net = s.net := rfl
@[simp] theorem State.setBit_evc (a i : Nat) : (s.setBit a i).evc = s.evc := rfl
@[simp] theorem State.setBit_pwr (a i : Nat) : (s.setBit a i).pwr = s.pwr := rfl
@[simp] theorem State.setBit_peb (a i : Nat) : (s.setBit a i).peb = s.peb := rfl
@[simp] theorem State.setBit_jtag (a i : Nat) : (s.setBit a i).jtag = s.jtag := rfl
@[simp] theorem State.setBit_boot (a i : Nat) : (s.setBit a i).boot = s.boot := rfl
@[simp] theorem State.setBit_fresh (a i : Nat) : (s.setBit a i).fresh = s.fresh := rfl

/-! ## `clearBit` -/

@[simp] theorem State.clearBit_pending (a i : Nat) : (s.clearBit a i).pending = s.pending := rfl
@[simp] theorem State.clearBit_mem (a i : Nat) : (s.clearBit a i).mem = s.mem := rfl
@[simp] theorem State.clearBit_shadow (a i : Nat) : (s.clearBit a i).shadow = s.shadow := rfl
@[simp] theorem State.clearBit_stagedLo (a i : Nat) : (s.clearBit a i).stagedLo = s.stagedLo := rfl
@[simp] theorem State.clearBit_waits (a i : Nat) : (s.clearBit a i).waits = s.waits := rfl
@[simp] theorem State.clearBit_csrWait (a i : Nat) : (s.clearBit a i).csrWait = s.csrWait := rfl
@[simp] theorem State.clearBit_raised (a i : Nat) : (s.clearBit a i).raised = s.raised := rfl
@[simp] theorem State.clearBit_pulses (a i : Nat) : (s.clearBit a i).pulses = s.pulses := rfl
@[simp] theorem State.clearBit_port (a i : Nat) : (s.clearBit a i).port = s.port := rfl
@[simp] theorem State.clearBit_seq (a i : Nat) : (s.clearBit a i).seq = s.seq := rfl
@[simp] theorem State.clearBit_acq (a i : Nat) : (s.clearBit a i).acq = s.acq := rfl
@[simp] theorem State.clearBit_tim (a i : Nat) : (s.clearBit a i).tim = s.tim := rfl
@[simp] theorem State.clearBit_x7 (a i : Nat) : (s.clearBit a i).x7 = s.x7 := rfl
@[simp] theorem State.clearBit_wfg (a i : Nat) : (s.clearBit a i).wfg = s.wfg := rfl
@[simp] theorem State.clearBit_pdac (a i : Nat) : (s.clearBit a i).pdac = s.pdac := rfl
@[simp] theorem State.clearBit_fab (a i : Nat) : (s.clearBit a i).fab = s.fab := rfl
@[simp] theorem State.clearBit_fabWait (a i : Nat) : (s.clearBit a i).fabWait = s.fabWait := rfl
@[simp] theorem State.clearBit_hop (a i : Nat) : (s.clearBit a i).hop = s.hop := rfl
@[simp] theorem State.clearBit_tagLast (a i : Nat) : (s.clearBit a i).tagLast = s.tagLast := rfl
@[simp] theorem State.clearBit_outLast (a i : Nat) : (s.clearBit a i).outLast = s.outLast := rfl
@[simp] theorem State.clearBit_dpl (a i : Nat) : (s.clearBit a i).dpl = s.dpl := rfl
@[simp] theorem State.clearBit_tmb (a i : Nat) : (s.clearBit a i).tmb = s.tmb := rfl
@[simp] theorem State.clearBit_voteQ (a i : Nat) : (s.clearBit a i).voteQ = s.voteQ := rfl
@[simp] theorem State.clearBit_useTab (a i : Nat) : (s.clearBit a i).useTab = s.useTab := rfl
@[simp] theorem State.clearBit_receipts (a i : Nat) : (s.clearBit a i).receipts = s.receipts := rfl
@[simp] theorem State.clearBit_cs (a i : Nat) : (s.clearBit a i).cs = s.cs := rfl
@[simp] theorem State.clearBit_slk (a i : Nat) : (s.clearBit a i).slk = s.slk := rfl
@[simp] theorem State.clearBit_siteOut (a i : Nat) : (s.clearBit a i).siteOut = s.siteOut := rfl
@[simp] theorem State.clearBit_sch (a i : Nat) : (s.clearBit a i).sch = s.sch := rfl
@[simp] theorem State.clearBit_dmc (a i : Nat) : (s.clearBit a i).dmc = s.dmc := rfl
@[simp] theorem State.clearBit_cxh (a i : Nat) : (s.clearBit a i).cxh = s.cxh := rfl
@[simp] theorem State.clearBit_cal (a i : Nat) : (s.clearBit a i).cal = s.cal := rfl
@[simp] theorem State.clearBit_sme (a i : Nat) : (s.clearBit a i).sme = s.sme := rfl
@[simp] theorem State.clearBit_long (a i : Nat) : (s.clearBit a i).long = s.long := rfl
@[simp] theorem State.clearBit_trainLeft (a i : Nat) : (s.clearBit a i).trainLeft = s.trainLeft := rfl
@[simp] theorem State.clearBit_trainCodes (a i : Nat) : (s.clearBit a i).trainCodes = s.trainCodes := rfl
@[simp] theorem State.clearBit_load (a i : Nat) : (s.clearBit a i).load = s.load := rfl
@[simp] theorem State.clearBit_lineHold (a i : Nat) : (s.clearBit a i).lineHold = s.lineHold := rfl
@[simp] theorem State.clearBit_sec (a i : Nat) : (s.clearBit a i).sec = s.sec := rfl
@[simp] theorem State.clearBit_net (a i : Nat) : (s.clearBit a i).net = s.net := rfl
@[simp] theorem State.clearBit_evc (a i : Nat) : (s.clearBit a i).evc = s.evc := rfl
@[simp] theorem State.clearBit_pwr (a i : Nat) : (s.clearBit a i).pwr = s.pwr := rfl
@[simp] theorem State.clearBit_peb (a i : Nat) : (s.clearBit a i).peb = s.peb := rfl
@[simp] theorem State.clearBit_jtag (a i : Nat) : (s.clearBit a i).jtag = s.jtag := rfl
@[simp] theorem State.clearBit_boot (a i : Nat) : (s.clearBit a i).boot = s.boot := rfl
@[simp] theorem State.clearBit_fresh (a i : Nat) : (s.clearBit a i).fresh = s.fresh := rfl

/-! ## `resetRegs` -/

@[simp] theorem State.resetRegs_pending (p : Nat → Bool) : (s.resetRegs p).pending = s.pending := rfl
@[simp] theorem State.resetRegs_csr (p : Nat → Bool) : (s.resetRegs p).csr = cellsClear p s.csr := rfl
@[simp] theorem State.resetRegs_mem (p : Nat → Bool) : (s.resetRegs p).mem = s.mem := rfl
@[simp] theorem State.resetRegs_shadow (p : Nat → Bool) : (s.resetRegs p).shadow = s.shadow := rfl
@[simp] theorem State.resetRegs_stagedLo (p : Nat → Bool) : (s.resetRegs p).stagedLo = s.stagedLo := rfl
@[simp] theorem State.resetRegs_waits (p : Nat → Bool) : (s.resetRegs p).waits = s.waits := rfl
@[simp] theorem State.resetRegs_csrWait (p : Nat → Bool) : (s.resetRegs p).csrWait = s.csrWait := rfl
@[simp] theorem State.resetRegs_raised (p : Nat → Bool) : (s.resetRegs p).raised = s.raised := rfl
@[simp] theorem State.resetRegs_pulses (p : Nat → Bool) : (s.resetRegs p).pulses = s.pulses := rfl
@[simp] theorem State.resetRegs_port (p : Nat → Bool) : (s.resetRegs p).port = s.port := rfl
@[simp] theorem State.resetRegs_seq (p : Nat → Bool) : (s.resetRegs p).seq = s.seq := rfl
@[simp] theorem State.resetRegs_acq (p : Nat → Bool) : (s.resetRegs p).acq = s.acq := rfl
@[simp] theorem State.resetRegs_tim (p : Nat → Bool) : (s.resetRegs p).tim = s.tim := rfl
@[simp] theorem State.resetRegs_x7 (p : Nat → Bool) : (s.resetRegs p).x7 = s.x7 := rfl
@[simp] theorem State.resetRegs_wfg (p : Nat → Bool) : (s.resetRegs p).wfg = s.wfg := rfl
@[simp] theorem State.resetRegs_pdac (p : Nat → Bool) : (s.resetRegs p).pdac = s.pdac := rfl
@[simp] theorem State.resetRegs_fab (p : Nat → Bool) : (s.resetRegs p).fab = s.fab := rfl
@[simp] theorem State.resetRegs_fabWait (p : Nat → Bool) : (s.resetRegs p).fabWait = s.fabWait := rfl
@[simp] theorem State.resetRegs_hop (p : Nat → Bool) : (s.resetRegs p).hop = s.hop := rfl
@[simp] theorem State.resetRegs_tagLast (p : Nat → Bool) : (s.resetRegs p).tagLast = s.tagLast := rfl
@[simp] theorem State.resetRegs_outLast (p : Nat → Bool) : (s.resetRegs p).outLast = s.outLast := rfl
@[simp] theorem State.resetRegs_dpl (p : Nat → Bool) : (s.resetRegs p).dpl = s.dpl := rfl
@[simp] theorem State.resetRegs_tmb (p : Nat → Bool) : (s.resetRegs p).tmb = s.tmb := rfl
@[simp] theorem State.resetRegs_voteQ (p : Nat → Bool) : (s.resetRegs p).voteQ = s.voteQ := rfl
@[simp] theorem State.resetRegs_useTab (p : Nat → Bool) : (s.resetRegs p).useTab = s.useTab := rfl
@[simp] theorem State.resetRegs_receipts (p : Nat → Bool) : (s.resetRegs p).receipts = s.receipts := rfl
@[simp] theorem State.resetRegs_cs (p : Nat → Bool) : (s.resetRegs p).cs = s.cs := rfl
@[simp] theorem State.resetRegs_slk (p : Nat → Bool) : (s.resetRegs p).slk = s.slk := rfl
@[simp] theorem State.resetRegs_siteOut (p : Nat → Bool) : (s.resetRegs p).siteOut = s.siteOut := rfl
@[simp] theorem State.resetRegs_sch (p : Nat → Bool) : (s.resetRegs p).sch = s.sch := rfl
@[simp] theorem State.resetRegs_dmc (p : Nat → Bool) : (s.resetRegs p).dmc = s.dmc := rfl
@[simp] theorem State.resetRegs_cxh (p : Nat → Bool) : (s.resetRegs p).cxh = s.cxh := rfl
@[simp] theorem State.resetRegs_cal (p : Nat → Bool) : (s.resetRegs p).cal = s.cal := rfl
@[simp] theorem State.resetRegs_sme (p : Nat → Bool) : (s.resetRegs p).sme = s.sme := rfl
@[simp] theorem State.resetRegs_long (p : Nat → Bool) : (s.resetRegs p).long = s.long := rfl
@[simp] theorem State.resetRegs_trainLeft (p : Nat → Bool) : (s.resetRegs p).trainLeft = s.trainLeft := rfl
@[simp] theorem State.resetRegs_trainCodes (p : Nat → Bool) : (s.resetRegs p).trainCodes = s.trainCodes := rfl
@[simp] theorem State.resetRegs_load (p : Nat → Bool) : (s.resetRegs p).load = s.load := rfl
@[simp] theorem State.resetRegs_lineHold (p : Nat → Bool) : (s.resetRegs p).lineHold = s.lineHold := rfl
@[simp] theorem State.resetRegs_sec (p : Nat → Bool) : (s.resetRegs p).sec = s.sec := rfl
@[simp] theorem State.resetRegs_net (p : Nat → Bool) : (s.resetRegs p).net = s.net := rfl
@[simp] theorem State.resetRegs_evc (p : Nat → Bool) : (s.resetRegs p).evc = s.evc := rfl
@[simp] theorem State.resetRegs_pwr (p : Nat → Bool) : (s.resetRegs p).pwr = s.pwr := rfl
@[simp] theorem State.resetRegs_peb (p : Nat → Bool) : (s.resetRegs p).peb = s.peb := rfl
@[simp] theorem State.resetRegs_jtag (p : Nat → Bool) : (s.resetRegs p).jtag = s.jtag := rfl
@[simp] theorem State.resetRegs_boot (p : Nat → Bool) : (s.resetRegs p).boot = s.boot := rfl
@[simp] theorem State.resetRegs_fresh (p : Nat → Bool) : (s.resetRegs p).fresh = s.fresh := rfl

/-! ## `setByte` -/

@[simp] theorem State.setByte_pending (a : Nat) (v : Byte) : (s.setByte a v).pending = s.pending := rfl
@[simp] theorem State.setByte_csr (a : Nat) (v : Byte) : (s.setByte a v).csr = s.csr := rfl
@[simp] theorem State.setByte_mem (a : Nat) (v : Byte) : (s.setByte a v).mem = cellsSet memDefault s.mem a v := rfl
@[simp] theorem State.setByte_shadow (a : Nat) (v : Byte) : (s.setByte a v).shadow = s.shadow := rfl
@[simp] theorem State.setByte_stagedLo (a : Nat) (v : Byte) : (s.setByte a v).stagedLo = s.stagedLo := rfl
@[simp] theorem State.setByte_waits (a : Nat) (v : Byte) : (s.setByte a v).waits = s.waits := rfl
@[simp] theorem State.setByte_csrWait (a : Nat) (v : Byte) : (s.setByte a v).csrWait = s.csrWait := rfl
@[simp] theorem State.setByte_raised (a : Nat) (v : Byte) : (s.setByte a v).raised = s.raised := rfl
@[simp] theorem State.setByte_pulses (a : Nat) (v : Byte) : (s.setByte a v).pulses = s.pulses := rfl
@[simp] theorem State.setByte_port (a : Nat) (v : Byte) : (s.setByte a v).port = s.port := rfl
@[simp] theorem State.setByte_seq (a : Nat) (v : Byte) : (s.setByte a v).seq = s.seq := rfl
@[simp] theorem State.setByte_acq (a : Nat) (v : Byte) : (s.setByte a v).acq = s.acq := rfl
@[simp] theorem State.setByte_tim (a : Nat) (v : Byte) : (s.setByte a v).tim = s.tim := rfl
@[simp] theorem State.setByte_x7 (a : Nat) (v : Byte) : (s.setByte a v).x7 = s.x7 := rfl
@[simp] theorem State.setByte_wfg (a : Nat) (v : Byte) : (s.setByte a v).wfg = s.wfg := rfl
@[simp] theorem State.setByte_pdac (a : Nat) (v : Byte) : (s.setByte a v).pdac = s.pdac := rfl
@[simp] theorem State.setByte_fab (a : Nat) (v : Byte) : (s.setByte a v).fab = s.fab := rfl
@[simp] theorem State.setByte_fabWait (a : Nat) (v : Byte) : (s.setByte a v).fabWait = s.fabWait := rfl
@[simp] theorem State.setByte_hop (a : Nat) (v : Byte) : (s.setByte a v).hop = s.hop := rfl
@[simp] theorem State.setByte_tagLast (a : Nat) (v : Byte) : (s.setByte a v).tagLast = s.tagLast := rfl
@[simp] theorem State.setByte_outLast (a : Nat) (v : Byte) : (s.setByte a v).outLast = s.outLast := rfl
@[simp] theorem State.setByte_dpl (a : Nat) (v : Byte) : (s.setByte a v).dpl = s.dpl := rfl
@[simp] theorem State.setByte_tmb (a : Nat) (v : Byte) : (s.setByte a v).tmb = s.tmb := rfl
@[simp] theorem State.setByte_voteQ (a : Nat) (v : Byte) : (s.setByte a v).voteQ = s.voteQ := rfl
@[simp] theorem State.setByte_useTab (a : Nat) (v : Byte) : (s.setByte a v).useTab = s.useTab := rfl
@[simp] theorem State.setByte_receipts (a : Nat) (v : Byte) : (s.setByte a v).receipts = s.receipts := rfl
@[simp] theorem State.setByte_cs (a : Nat) (v : Byte) : (s.setByte a v).cs = s.cs := rfl
@[simp] theorem State.setByte_slk (a : Nat) (v : Byte) : (s.setByte a v).slk = s.slk := rfl
@[simp] theorem State.setByte_siteOut (a : Nat) (v : Byte) : (s.setByte a v).siteOut = s.siteOut := rfl
@[simp] theorem State.setByte_sch (a : Nat) (v : Byte) : (s.setByte a v).sch = s.sch := rfl
@[simp] theorem State.setByte_dmc (a : Nat) (v : Byte) : (s.setByte a v).dmc = s.dmc := rfl
@[simp] theorem State.setByte_cxh (a : Nat) (v : Byte) : (s.setByte a v).cxh = s.cxh := rfl
@[simp] theorem State.setByte_cal (a : Nat) (v : Byte) : (s.setByte a v).cal = s.cal := rfl
@[simp] theorem State.setByte_sme (a : Nat) (v : Byte) : (s.setByte a v).sme = s.sme := rfl
@[simp] theorem State.setByte_long (a : Nat) (v : Byte) : (s.setByte a v).long = s.long := rfl
@[simp] theorem State.setByte_trainLeft (a : Nat) (v : Byte) : (s.setByte a v).trainLeft = s.trainLeft := rfl
@[simp] theorem State.setByte_trainCodes (a : Nat) (v : Byte) : (s.setByte a v).trainCodes = s.trainCodes := rfl
@[simp] theorem State.setByte_load (a : Nat) (v : Byte) : (s.setByte a v).load = s.load := rfl
@[simp] theorem State.setByte_lineHold (a : Nat) (v : Byte) : (s.setByte a v).lineHold = s.lineHold := rfl
@[simp] theorem State.setByte_sec (a : Nat) (v : Byte) : (s.setByte a v).sec = s.sec := rfl
@[simp] theorem State.setByte_net (a : Nat) (v : Byte) : (s.setByte a v).net = s.net := rfl
@[simp] theorem State.setByte_evc (a : Nat) (v : Byte) : (s.setByte a v).evc = s.evc := rfl
@[simp] theorem State.setByte_pwr (a : Nat) (v : Byte) : (s.setByte a v).pwr = s.pwr := rfl
@[simp] theorem State.setByte_peb (a : Nat) (v : Byte) : (s.setByte a v).peb = s.peb := rfl
@[simp] theorem State.setByte_jtag (a : Nat) (v : Byte) : (s.setByte a v).jtag = s.jtag := rfl
@[simp] theorem State.setByte_boot (a : Nat) (v : Byte) : (s.setByte a v).boot = s.boot := rfl
@[simp] theorem State.setByte_fresh (a : Nat) (v : Byte) : (s.setByte a v).fresh = s.fresh := rfl

/-! ## `zeroMem` -/

@[simp] theorem State.zeroMem_pending (a n : Nat) : (s.zeroMem a n).pending = s.pending := rfl
@[simp] theorem State.zeroMem_csr (a n : Nat) : (s.zeroMem a n).csr = s.csr := rfl
@[simp] theorem State.zeroMem_shadow (a n : Nat) : (s.zeroMem a n).shadow = s.shadow := rfl
@[simp] theorem State.zeroMem_stagedLo (a n : Nat) : (s.zeroMem a n).stagedLo = s.stagedLo := rfl
@[simp] theorem State.zeroMem_waits (a n : Nat) : (s.zeroMem a n).waits = s.waits := rfl
@[simp] theorem State.zeroMem_csrWait (a n : Nat) : (s.zeroMem a n).csrWait = s.csrWait := rfl
@[simp] theorem State.zeroMem_raised (a n : Nat) : (s.zeroMem a n).raised = s.raised := rfl
@[simp] theorem State.zeroMem_pulses (a n : Nat) : (s.zeroMem a n).pulses = s.pulses := rfl
@[simp] theorem State.zeroMem_port (a n : Nat) : (s.zeroMem a n).port = s.port := rfl
@[simp] theorem State.zeroMem_seq (a n : Nat) : (s.zeroMem a n).seq = s.seq := rfl
@[simp] theorem State.zeroMem_acq (a n : Nat) : (s.zeroMem a n).acq = s.acq := rfl
@[simp] theorem State.zeroMem_tim (a n : Nat) : (s.zeroMem a n).tim = s.tim := rfl
@[simp] theorem State.zeroMem_x7 (a n : Nat) : (s.zeroMem a n).x7 = s.x7 := rfl
@[simp] theorem State.zeroMem_wfg (a n : Nat) : (s.zeroMem a n).wfg = s.wfg := rfl
@[simp] theorem State.zeroMem_pdac (a n : Nat) : (s.zeroMem a n).pdac = s.pdac := rfl
@[simp] theorem State.zeroMem_fab (a n : Nat) : (s.zeroMem a n).fab = s.fab := rfl
@[simp] theorem State.zeroMem_fabWait (a n : Nat) : (s.zeroMem a n).fabWait = s.fabWait := rfl
@[simp] theorem State.zeroMem_hop (a n : Nat) : (s.zeroMem a n).hop = s.hop := rfl
@[simp] theorem State.zeroMem_tagLast (a n : Nat) : (s.zeroMem a n).tagLast = s.tagLast := rfl
@[simp] theorem State.zeroMem_outLast (a n : Nat) : (s.zeroMem a n).outLast = s.outLast := rfl
@[simp] theorem State.zeroMem_dpl (a n : Nat) : (s.zeroMem a n).dpl = s.dpl := rfl
@[simp] theorem State.zeroMem_tmb (a n : Nat) : (s.zeroMem a n).tmb = s.tmb := rfl
@[simp] theorem State.zeroMem_voteQ (a n : Nat) : (s.zeroMem a n).voteQ = s.voteQ := rfl
@[simp] theorem State.zeroMem_useTab (a n : Nat) : (s.zeroMem a n).useTab = s.useTab := rfl
@[simp] theorem State.zeroMem_receipts (a n : Nat) : (s.zeroMem a n).receipts = s.receipts := rfl
@[simp] theorem State.zeroMem_cs (a n : Nat) : (s.zeroMem a n).cs = s.cs := rfl
@[simp] theorem State.zeroMem_slk (a n : Nat) : (s.zeroMem a n).slk = s.slk := rfl
@[simp] theorem State.zeroMem_siteOut (a n : Nat) : (s.zeroMem a n).siteOut = s.siteOut := rfl
@[simp] theorem State.zeroMem_sch (a n : Nat) : (s.zeroMem a n).sch = s.sch := rfl
@[simp] theorem State.zeroMem_dmc (a n : Nat) : (s.zeroMem a n).dmc = s.dmc := rfl
@[simp] theorem State.zeroMem_cxh (a n : Nat) : (s.zeroMem a n).cxh = s.cxh := rfl
@[simp] theorem State.zeroMem_cal (a n : Nat) : (s.zeroMem a n).cal = s.cal := rfl
@[simp] theorem State.zeroMem_sme (a n : Nat) : (s.zeroMem a n).sme = s.sme := rfl
@[simp] theorem State.zeroMem_long (a n : Nat) : (s.zeroMem a n).long = s.long := rfl
@[simp] theorem State.zeroMem_trainLeft (a n : Nat) : (s.zeroMem a n).trainLeft = s.trainLeft := rfl
@[simp] theorem State.zeroMem_trainCodes (a n : Nat) : (s.zeroMem a n).trainCodes = s.trainCodes := rfl
@[simp] theorem State.zeroMem_load (a n : Nat) : (s.zeroMem a n).load = s.load := rfl
@[simp] theorem State.zeroMem_lineHold (a n : Nat) : (s.zeroMem a n).lineHold = s.lineHold := rfl
@[simp] theorem State.zeroMem_sec (a n : Nat) : (s.zeroMem a n).sec = s.sec := rfl
@[simp] theorem State.zeroMem_net (a n : Nat) : (s.zeroMem a n).net = s.net := rfl
@[simp] theorem State.zeroMem_evc (a n : Nat) : (s.zeroMem a n).evc = s.evc := rfl
@[simp] theorem State.zeroMem_pwr (a n : Nat) : (s.zeroMem a n).pwr = s.pwr := rfl
@[simp] theorem State.zeroMem_peb (a n : Nat) : (s.zeroMem a n).peb = s.peb := rfl
@[simp] theorem State.zeroMem_jtag (a n : Nat) : (s.zeroMem a n).jtag = s.jtag := rfl
@[simp] theorem State.zeroMem_boot (a n : Nat) : (s.zeroMem a n).boot = s.boot := rfl
@[simp] theorem State.zeroMem_fresh (a n : Nat) : (s.zeroMem a n).fresh = s.fresh := rfl

/-! ## `ev` -/

@[simp] theorem State.ev_pending (src : Nat) : (s.ev src).pending = s.pending := rfl
@[simp] theorem State.ev_csr (src : Nat) : (s.ev src).csr = s.csr := rfl
@[simp] theorem State.ev_mem (src : Nat) : (s.ev src).mem = s.mem := rfl
@[simp] theorem State.ev_shadow (src : Nat) : (s.ev src).shadow = s.shadow := rfl
@[simp] theorem State.ev_stagedLo (src : Nat) : (s.ev src).stagedLo = s.stagedLo := rfl
@[simp] theorem State.ev_waits (src : Nat) : (s.ev src).waits = s.waits := rfl
@[simp] theorem State.ev_csrWait (src : Nat) : (s.ev src).csrWait = s.csrWait := rfl
@[simp] theorem State.ev_raised (src : Nat) : (s.ev src).raised = s.raised ++ [src] := rfl
@[simp] theorem State.ev_pulses (src : Nat) : (s.ev src).pulses = s.pulses := rfl
@[simp] theorem State.ev_port (src : Nat) : (s.ev src).port = s.port := rfl
@[simp] theorem State.ev_seq (src : Nat) : (s.ev src).seq = s.seq := rfl
@[simp] theorem State.ev_acq (src : Nat) : (s.ev src).acq = s.acq := rfl
@[simp] theorem State.ev_tim (src : Nat) : (s.ev src).tim = s.tim := rfl
@[simp] theorem State.ev_x7 (src : Nat) : (s.ev src).x7 = s.x7 := rfl
@[simp] theorem State.ev_wfg (src : Nat) : (s.ev src).wfg = s.wfg := rfl
@[simp] theorem State.ev_pdac (src : Nat) : (s.ev src).pdac = s.pdac := rfl
@[simp] theorem State.ev_fab (src : Nat) : (s.ev src).fab = s.fab := rfl
@[simp] theorem State.ev_fabWait (src : Nat) : (s.ev src).fabWait = s.fabWait := rfl
@[simp] theorem State.ev_hop (src : Nat) : (s.ev src).hop = s.hop := rfl
@[simp] theorem State.ev_tagLast (src : Nat) : (s.ev src).tagLast = s.tagLast := rfl
@[simp] theorem State.ev_outLast (src : Nat) : (s.ev src).outLast = s.outLast := rfl
@[simp] theorem State.ev_dpl (src : Nat) : (s.ev src).dpl = s.dpl := rfl
@[simp] theorem State.ev_tmb (src : Nat) : (s.ev src).tmb = s.tmb := rfl
@[simp] theorem State.ev_voteQ (src : Nat) : (s.ev src).voteQ = s.voteQ := rfl
@[simp] theorem State.ev_useTab (src : Nat) : (s.ev src).useTab = s.useTab := rfl
@[simp] theorem State.ev_receipts (src : Nat) : (s.ev src).receipts = s.receipts := rfl
@[simp] theorem State.ev_cs (src : Nat) : (s.ev src).cs = s.cs := rfl
@[simp] theorem State.ev_slk (src : Nat) : (s.ev src).slk = s.slk := rfl
@[simp] theorem State.ev_siteOut (src : Nat) : (s.ev src).siteOut = s.siteOut := rfl
@[simp] theorem State.ev_sch (src : Nat) : (s.ev src).sch = s.sch := rfl
@[simp] theorem State.ev_dmc (src : Nat) : (s.ev src).dmc = s.dmc := rfl
@[simp] theorem State.ev_cxh (src : Nat) : (s.ev src).cxh = s.cxh := rfl
@[simp] theorem State.ev_cal (src : Nat) : (s.ev src).cal = s.cal := rfl
@[simp] theorem State.ev_sme (src : Nat) : (s.ev src).sme = s.sme := rfl
@[simp] theorem State.ev_long (src : Nat) : (s.ev src).long = s.long := rfl
@[simp] theorem State.ev_trainLeft (src : Nat) : (s.ev src).trainLeft = s.trainLeft := rfl
@[simp] theorem State.ev_trainCodes (src : Nat) : (s.ev src).trainCodes = s.trainCodes := rfl
@[simp] theorem State.ev_load (src : Nat) : (s.ev src).load = s.load := rfl
@[simp] theorem State.ev_lineHold (src : Nat) : (s.ev src).lineHold = s.lineHold := rfl
@[simp] theorem State.ev_sec (src : Nat) : (s.ev src).sec = s.sec := rfl
@[simp] theorem State.ev_net (src : Nat) : (s.ev src).net = s.net := rfl
@[simp] theorem State.ev_evc (src : Nat) : (s.ev src).evc = s.evc := rfl
@[simp] theorem State.ev_pwr (src : Nat) : (s.ev src).pwr = s.pwr := rfl
@[simp] theorem State.ev_peb (src : Nat) : (s.ev src).peb = s.peb := rfl
@[simp] theorem State.ev_jtag (src : Nat) : (s.ev src).jtag = s.jtag := rfl
@[simp] theorem State.ev_boot (src : Nat) : (s.ev src).boot = s.boot := rfl
@[simp] theorem State.ev_fresh (src : Nat) : (s.ev src).fresh = s.fresh := rfl

/-! ## `setPort` -/

@[simp] theorem State.setPort_pending (p : Fin 8) (x : PortH) : (s.setPort p x).pending = s.pending := rfl
@[simp] theorem State.setPort_csr (p : Fin 8) (x : PortH) : (s.setPort p x).csr = s.csr := rfl
@[simp] theorem State.setPort_mem (p : Fin 8) (x : PortH) : (s.setPort p x).mem = s.mem := rfl
@[simp] theorem State.setPort_shadow (p : Fin 8) (x : PortH) : (s.setPort p x).shadow = s.shadow := rfl
@[simp] theorem State.setPort_stagedLo (p : Fin 8) (x : PortH) : (s.setPort p x).stagedLo = s.stagedLo := rfl
@[simp] theorem State.setPort_waits (p : Fin 8) (x : PortH) : (s.setPort p x).waits = s.waits := rfl
@[simp] theorem State.setPort_csrWait (p : Fin 8) (x : PortH) : (s.setPort p x).csrWait = s.csrWait := rfl
@[simp] theorem State.setPort_raised (p : Fin 8) (x : PortH) : (s.setPort p x).raised = s.raised := rfl
@[simp] theorem State.setPort_pulses (p : Fin 8) (x : PortH) : (s.setPort p x).pulses = s.pulses := rfl
@[simp] theorem State.setPort_port (p : Fin 8) (x : PortH) : (s.setPort p x).port = s.port.set p x := rfl
@[simp] theorem State.setPort_seq (p : Fin 8) (x : PortH) : (s.setPort p x).seq = s.seq := rfl
@[simp] theorem State.setPort_acq (p : Fin 8) (x : PortH) : (s.setPort p x).acq = s.acq := rfl
@[simp] theorem State.setPort_tim (p : Fin 8) (x : PortH) : (s.setPort p x).tim = s.tim := rfl
@[simp] theorem State.setPort_x7 (p : Fin 8) (x : PortH) : (s.setPort p x).x7 = s.x7 := rfl
@[simp] theorem State.setPort_wfg (p : Fin 8) (x : PortH) : (s.setPort p x).wfg = s.wfg := rfl
@[simp] theorem State.setPort_pdac (p : Fin 8) (x : PortH) : (s.setPort p x).pdac = s.pdac := rfl
@[simp] theorem State.setPort_fab (p : Fin 8) (x : PortH) : (s.setPort p x).fab = s.fab := rfl
@[simp] theorem State.setPort_fabWait (p : Fin 8) (x : PortH) : (s.setPort p x).fabWait = s.fabWait := rfl
@[simp] theorem State.setPort_hop (p : Fin 8) (x : PortH) : (s.setPort p x).hop = s.hop := rfl
@[simp] theorem State.setPort_tagLast (p : Fin 8) (x : PortH) : (s.setPort p x).tagLast = s.tagLast := rfl
@[simp] theorem State.setPort_outLast (p : Fin 8) (x : PortH) : (s.setPort p x).outLast = s.outLast := rfl
@[simp] theorem State.setPort_dpl (p : Fin 8) (x : PortH) : (s.setPort p x).dpl = s.dpl := rfl
@[simp] theorem State.setPort_tmb (p : Fin 8) (x : PortH) : (s.setPort p x).tmb = s.tmb := rfl
@[simp] theorem State.setPort_voteQ (p : Fin 8) (x : PortH) : (s.setPort p x).voteQ = s.voteQ := rfl
@[simp] theorem State.setPort_useTab (p : Fin 8) (x : PortH) : (s.setPort p x).useTab = s.useTab := rfl
@[simp] theorem State.setPort_receipts (p : Fin 8) (x : PortH) : (s.setPort p x).receipts = s.receipts := rfl
@[simp] theorem State.setPort_cs (p : Fin 8) (x : PortH) : (s.setPort p x).cs = s.cs := rfl
@[simp] theorem State.setPort_slk (p : Fin 8) (x : PortH) : (s.setPort p x).slk = s.slk := rfl
@[simp] theorem State.setPort_siteOut (p : Fin 8) (x : PortH) : (s.setPort p x).siteOut = s.siteOut := rfl
@[simp] theorem State.setPort_sch (p : Fin 8) (x : PortH) : (s.setPort p x).sch = s.sch := rfl
@[simp] theorem State.setPort_dmc (p : Fin 8) (x : PortH) : (s.setPort p x).dmc = s.dmc := rfl
@[simp] theorem State.setPort_cxh (p : Fin 8) (x : PortH) : (s.setPort p x).cxh = s.cxh := rfl
@[simp] theorem State.setPort_cal (p : Fin 8) (x : PortH) : (s.setPort p x).cal = s.cal := rfl
@[simp] theorem State.setPort_sme (p : Fin 8) (x : PortH) : (s.setPort p x).sme = s.sme := rfl
@[simp] theorem State.setPort_long (p : Fin 8) (x : PortH) : (s.setPort p x).long = s.long := rfl
@[simp] theorem State.setPort_trainLeft (p : Fin 8) (x : PortH) : (s.setPort p x).trainLeft = s.trainLeft := rfl
@[simp] theorem State.setPort_trainCodes (p : Fin 8) (x : PortH) : (s.setPort p x).trainCodes = s.trainCodes := rfl
@[simp] theorem State.setPort_load (p : Fin 8) (x : PortH) : (s.setPort p x).load = s.load := rfl
@[simp] theorem State.setPort_lineHold (p : Fin 8) (x : PortH) : (s.setPort p x).lineHold = s.lineHold := rfl
@[simp] theorem State.setPort_sec (p : Fin 8) (x : PortH) : (s.setPort p x).sec = s.sec := rfl
@[simp] theorem State.setPort_net (p : Fin 8) (x : PortH) : (s.setPort p x).net = s.net := rfl
@[simp] theorem State.setPort_evc (p : Fin 8) (x : PortH) : (s.setPort p x).evc = s.evc := rfl
@[simp] theorem State.setPort_pwr (p : Fin 8) (x : PortH) : (s.setPort p x).pwr = s.pwr := rfl
@[simp] theorem State.setPort_peb (p : Fin 8) (x : PortH) : (s.setPort p x).peb = s.peb := rfl
@[simp] theorem State.setPort_jtag (p : Fin 8) (x : PortH) : (s.setPort p x).jtag = s.jtag := rfl
@[simp] theorem State.setPort_boot (p : Fin 8) (x : PortH) : (s.setPort p x).boot = s.boot := rfl
@[simp] theorem State.setPort_fresh (p : Fin 8) (x : PortH) : (s.setPort p x).fresh = s.fresh := rfl

/-! ## `setSeq` -/

@[simp] theorem State.setSeq_pending (d : Fin 12) (x : SeqH) : (s.setSeq d x).pending = s.pending := rfl
@[simp] theorem State.setSeq_csr (d : Fin 12) (x : SeqH) : (s.setSeq d x).csr = s.csr := rfl
@[simp] theorem State.setSeq_mem (d : Fin 12) (x : SeqH) : (s.setSeq d x).mem = s.mem := rfl
@[simp] theorem State.setSeq_shadow (d : Fin 12) (x : SeqH) : (s.setSeq d x).shadow = s.shadow := rfl
@[simp] theorem State.setSeq_stagedLo (d : Fin 12) (x : SeqH) : (s.setSeq d x).stagedLo = s.stagedLo := rfl
@[simp] theorem State.setSeq_waits (d : Fin 12) (x : SeqH) : (s.setSeq d x).waits = s.waits := rfl
@[simp] theorem State.setSeq_csrWait (d : Fin 12) (x : SeqH) : (s.setSeq d x).csrWait = s.csrWait := rfl
@[simp] theorem State.setSeq_raised (d : Fin 12) (x : SeqH) : (s.setSeq d x).raised = s.raised := rfl
@[simp] theorem State.setSeq_pulses (d : Fin 12) (x : SeqH) : (s.setSeq d x).pulses = s.pulses := rfl
@[simp] theorem State.setSeq_port (d : Fin 12) (x : SeqH) : (s.setSeq d x).port = s.port := rfl
@[simp] theorem State.setSeq_seq (d : Fin 12) (x : SeqH) : (s.setSeq d x).seq = s.seq.set d x := rfl
@[simp] theorem State.setSeq_acq (d : Fin 12) (x : SeqH) : (s.setSeq d x).acq = s.acq := rfl
@[simp] theorem State.setSeq_tim (d : Fin 12) (x : SeqH) : (s.setSeq d x).tim = s.tim := rfl
@[simp] theorem State.setSeq_x7 (d : Fin 12) (x : SeqH) : (s.setSeq d x).x7 = s.x7 := rfl
@[simp] theorem State.setSeq_wfg (d : Fin 12) (x : SeqH) : (s.setSeq d x).wfg = s.wfg := rfl
@[simp] theorem State.setSeq_pdac (d : Fin 12) (x : SeqH) : (s.setSeq d x).pdac = s.pdac := rfl
@[simp] theorem State.setSeq_fab (d : Fin 12) (x : SeqH) : (s.setSeq d x).fab = s.fab := rfl
@[simp] theorem State.setSeq_fabWait (d : Fin 12) (x : SeqH) : (s.setSeq d x).fabWait = s.fabWait := rfl
@[simp] theorem State.setSeq_hop (d : Fin 12) (x : SeqH) : (s.setSeq d x).hop = s.hop := rfl
@[simp] theorem State.setSeq_tagLast (d : Fin 12) (x : SeqH) : (s.setSeq d x).tagLast = s.tagLast := rfl
@[simp] theorem State.setSeq_outLast (d : Fin 12) (x : SeqH) : (s.setSeq d x).outLast = s.outLast := rfl
@[simp] theorem State.setSeq_dpl (d : Fin 12) (x : SeqH) : (s.setSeq d x).dpl = s.dpl := rfl
@[simp] theorem State.setSeq_tmb (d : Fin 12) (x : SeqH) : (s.setSeq d x).tmb = s.tmb := rfl
@[simp] theorem State.setSeq_voteQ (d : Fin 12) (x : SeqH) : (s.setSeq d x).voteQ = s.voteQ := rfl
@[simp] theorem State.setSeq_useTab (d : Fin 12) (x : SeqH) : (s.setSeq d x).useTab = s.useTab := rfl
@[simp] theorem State.setSeq_receipts (d : Fin 12) (x : SeqH) : (s.setSeq d x).receipts = s.receipts := rfl
@[simp] theorem State.setSeq_cs (d : Fin 12) (x : SeqH) : (s.setSeq d x).cs = s.cs := rfl
@[simp] theorem State.setSeq_slk (d : Fin 12) (x : SeqH) : (s.setSeq d x).slk = s.slk := rfl
@[simp] theorem State.setSeq_siteOut (d : Fin 12) (x : SeqH) : (s.setSeq d x).siteOut = s.siteOut := rfl
@[simp] theorem State.setSeq_sch (d : Fin 12) (x : SeqH) : (s.setSeq d x).sch = s.sch := rfl
@[simp] theorem State.setSeq_dmc (d : Fin 12) (x : SeqH) : (s.setSeq d x).dmc = s.dmc := rfl
@[simp] theorem State.setSeq_cxh (d : Fin 12) (x : SeqH) : (s.setSeq d x).cxh = s.cxh := rfl
@[simp] theorem State.setSeq_cal (d : Fin 12) (x : SeqH) : (s.setSeq d x).cal = s.cal := rfl
@[simp] theorem State.setSeq_sme (d : Fin 12) (x : SeqH) : (s.setSeq d x).sme = s.sme := rfl
@[simp] theorem State.setSeq_long (d : Fin 12) (x : SeqH) : (s.setSeq d x).long = s.long := rfl
@[simp] theorem State.setSeq_trainLeft (d : Fin 12) (x : SeqH) : (s.setSeq d x).trainLeft = s.trainLeft := rfl
@[simp] theorem State.setSeq_trainCodes (d : Fin 12) (x : SeqH) : (s.setSeq d x).trainCodes = s.trainCodes := rfl
@[simp] theorem State.setSeq_load (d : Fin 12) (x : SeqH) : (s.setSeq d x).load = s.load := rfl
@[simp] theorem State.setSeq_lineHold (d : Fin 12) (x : SeqH) : (s.setSeq d x).lineHold = s.lineHold := rfl
@[simp] theorem State.setSeq_sec (d : Fin 12) (x : SeqH) : (s.setSeq d x).sec = s.sec := rfl
@[simp] theorem State.setSeq_net (d : Fin 12) (x : SeqH) : (s.setSeq d x).net = s.net := rfl
@[simp] theorem State.setSeq_evc (d : Fin 12) (x : SeqH) : (s.setSeq d x).evc = s.evc := rfl
@[simp] theorem State.setSeq_pwr (d : Fin 12) (x : SeqH) : (s.setSeq d x).pwr = s.pwr := rfl
@[simp] theorem State.setSeq_peb (d : Fin 12) (x : SeqH) : (s.setSeq d x).peb = s.peb := rfl
@[simp] theorem State.setSeq_jtag (d : Fin 12) (x : SeqH) : (s.setSeq d x).jtag = s.jtag := rfl
@[simp] theorem State.setSeq_boot (d : Fin 12) (x : SeqH) : (s.setSeq d x).boot = s.boot := rfl
@[simp] theorem State.setSeq_fresh (d : Fin 12) (x : SeqH) : (s.setSeq d x).fresh = s.fresh := rfl

/-! ## `setAcq` -/

@[simp] theorem State.setAcq_pending (e : Fin 8) (x : AcqH) : (s.setAcq e x).pending = s.pending := rfl
@[simp] theorem State.setAcq_csr (e : Fin 8) (x : AcqH) : (s.setAcq e x).csr = s.csr := rfl
@[simp] theorem State.setAcq_mem (e : Fin 8) (x : AcqH) : (s.setAcq e x).mem = s.mem := rfl
@[simp] theorem State.setAcq_shadow (e : Fin 8) (x : AcqH) : (s.setAcq e x).shadow = s.shadow := rfl
@[simp] theorem State.setAcq_stagedLo (e : Fin 8) (x : AcqH) : (s.setAcq e x).stagedLo = s.stagedLo := rfl
@[simp] theorem State.setAcq_waits (e : Fin 8) (x : AcqH) : (s.setAcq e x).waits = s.waits := rfl
@[simp] theorem State.setAcq_csrWait (e : Fin 8) (x : AcqH) : (s.setAcq e x).csrWait = s.csrWait := rfl
@[simp] theorem State.setAcq_raised (e : Fin 8) (x : AcqH) : (s.setAcq e x).raised = s.raised := rfl
@[simp] theorem State.setAcq_pulses (e : Fin 8) (x : AcqH) : (s.setAcq e x).pulses = s.pulses := rfl
@[simp] theorem State.setAcq_port (e : Fin 8) (x : AcqH) : (s.setAcq e x).port = s.port := rfl
@[simp] theorem State.setAcq_seq (e : Fin 8) (x : AcqH) : (s.setAcq e x).seq = s.seq := rfl
@[simp] theorem State.setAcq_acq (e : Fin 8) (x : AcqH) : (s.setAcq e x).acq = s.acq.set e x := rfl
@[simp] theorem State.setAcq_tim (e : Fin 8) (x : AcqH) : (s.setAcq e x).tim = s.tim := rfl
@[simp] theorem State.setAcq_x7 (e : Fin 8) (x : AcqH) : (s.setAcq e x).x7 = s.x7 := rfl
@[simp] theorem State.setAcq_wfg (e : Fin 8) (x : AcqH) : (s.setAcq e x).wfg = s.wfg := rfl
@[simp] theorem State.setAcq_pdac (e : Fin 8) (x : AcqH) : (s.setAcq e x).pdac = s.pdac := rfl
@[simp] theorem State.setAcq_fab (e : Fin 8) (x : AcqH) : (s.setAcq e x).fab = s.fab := rfl
@[simp] theorem State.setAcq_fabWait (e : Fin 8) (x : AcqH) : (s.setAcq e x).fabWait = s.fabWait := rfl
@[simp] theorem State.setAcq_hop (e : Fin 8) (x : AcqH) : (s.setAcq e x).hop = s.hop := rfl
@[simp] theorem State.setAcq_tagLast (e : Fin 8) (x : AcqH) : (s.setAcq e x).tagLast = s.tagLast := rfl
@[simp] theorem State.setAcq_outLast (e : Fin 8) (x : AcqH) : (s.setAcq e x).outLast = s.outLast := rfl
@[simp] theorem State.setAcq_dpl (e : Fin 8) (x : AcqH) : (s.setAcq e x).dpl = s.dpl := rfl
@[simp] theorem State.setAcq_tmb (e : Fin 8) (x : AcqH) : (s.setAcq e x).tmb = s.tmb := rfl
@[simp] theorem State.setAcq_voteQ (e : Fin 8) (x : AcqH) : (s.setAcq e x).voteQ = s.voteQ := rfl
@[simp] theorem State.setAcq_useTab (e : Fin 8) (x : AcqH) : (s.setAcq e x).useTab = s.useTab := rfl
@[simp] theorem State.setAcq_receipts (e : Fin 8) (x : AcqH) : (s.setAcq e x).receipts = s.receipts := rfl
@[simp] theorem State.setAcq_cs (e : Fin 8) (x : AcqH) : (s.setAcq e x).cs = s.cs := rfl
@[simp] theorem State.setAcq_slk (e : Fin 8) (x : AcqH) : (s.setAcq e x).slk = s.slk := rfl
@[simp] theorem State.setAcq_siteOut (e : Fin 8) (x : AcqH) : (s.setAcq e x).siteOut = s.siteOut := rfl
@[simp] theorem State.setAcq_sch (e : Fin 8) (x : AcqH) : (s.setAcq e x).sch = s.sch := rfl
@[simp] theorem State.setAcq_dmc (e : Fin 8) (x : AcqH) : (s.setAcq e x).dmc = s.dmc := rfl
@[simp] theorem State.setAcq_cxh (e : Fin 8) (x : AcqH) : (s.setAcq e x).cxh = s.cxh := rfl
@[simp] theorem State.setAcq_cal (e : Fin 8) (x : AcqH) : (s.setAcq e x).cal = s.cal := rfl
@[simp] theorem State.setAcq_sme (e : Fin 8) (x : AcqH) : (s.setAcq e x).sme = s.sme := rfl
@[simp] theorem State.setAcq_long (e : Fin 8) (x : AcqH) : (s.setAcq e x).long = s.long := rfl
@[simp] theorem State.setAcq_trainLeft (e : Fin 8) (x : AcqH) : (s.setAcq e x).trainLeft = s.trainLeft := rfl
@[simp] theorem State.setAcq_trainCodes (e : Fin 8) (x : AcqH) : (s.setAcq e x).trainCodes = s.trainCodes := rfl
@[simp] theorem State.setAcq_load (e : Fin 8) (x : AcqH) : (s.setAcq e x).load = s.load := rfl
@[simp] theorem State.setAcq_lineHold (e : Fin 8) (x : AcqH) : (s.setAcq e x).lineHold = s.lineHold := rfl
@[simp] theorem State.setAcq_sec (e : Fin 8) (x : AcqH) : (s.setAcq e x).sec = s.sec := rfl
@[simp] theorem State.setAcq_net (e : Fin 8) (x : AcqH) : (s.setAcq e x).net = s.net := rfl
@[simp] theorem State.setAcq_evc (e : Fin 8) (x : AcqH) : (s.setAcq e x).evc = s.evc := rfl
@[simp] theorem State.setAcq_pwr (e : Fin 8) (x : AcqH) : (s.setAcq e x).pwr = s.pwr := rfl
@[simp] theorem State.setAcq_peb (e : Fin 8) (x : AcqH) : (s.setAcq e x).peb = s.peb := rfl
@[simp] theorem State.setAcq_jtag (e : Fin 8) (x : AcqH) : (s.setAcq e x).jtag = s.jtag := rfl
@[simp] theorem State.setAcq_boot (e : Fin 8) (x : AcqH) : (s.setAcq e x).boot = s.boot := rfl
@[simp] theorem State.setAcq_fresh (e : Fin 8) (x : AcqH) : (s.setAcq e x).fresh = s.fresh := rfl

/-! ## `setTim` -/

@[simp] theorem State.setTim_pending (t : Fin 32) (x : TimH) : (s.setTim t x).pending = s.pending := rfl
@[simp] theorem State.setTim_csr (t : Fin 32) (x : TimH) : (s.setTim t x).csr = s.csr := rfl
@[simp] theorem State.setTim_mem (t : Fin 32) (x : TimH) : (s.setTim t x).mem = s.mem := rfl
@[simp] theorem State.setTim_shadow (t : Fin 32) (x : TimH) : (s.setTim t x).shadow = s.shadow := rfl
@[simp] theorem State.setTim_stagedLo (t : Fin 32) (x : TimH) : (s.setTim t x).stagedLo = s.stagedLo := rfl
@[simp] theorem State.setTim_waits (t : Fin 32) (x : TimH) : (s.setTim t x).waits = s.waits := rfl
@[simp] theorem State.setTim_csrWait (t : Fin 32) (x : TimH) : (s.setTim t x).csrWait = s.csrWait := rfl
@[simp] theorem State.setTim_raised (t : Fin 32) (x : TimH) : (s.setTim t x).raised = s.raised := rfl
@[simp] theorem State.setTim_pulses (t : Fin 32) (x : TimH) : (s.setTim t x).pulses = s.pulses := rfl
@[simp] theorem State.setTim_port (t : Fin 32) (x : TimH) : (s.setTim t x).port = s.port := rfl
@[simp] theorem State.setTim_seq (t : Fin 32) (x : TimH) : (s.setTim t x).seq = s.seq := rfl
@[simp] theorem State.setTim_acq (t : Fin 32) (x : TimH) : (s.setTim t x).acq = s.acq := rfl
@[simp] theorem State.setTim_tim (t : Fin 32) (x : TimH) : (s.setTim t x).tim = s.tim.set t x := rfl
@[simp] theorem State.setTim_x7 (t : Fin 32) (x : TimH) : (s.setTim t x).x7 = s.x7 := rfl
@[simp] theorem State.setTim_wfg (t : Fin 32) (x : TimH) : (s.setTim t x).wfg = s.wfg := rfl
@[simp] theorem State.setTim_pdac (t : Fin 32) (x : TimH) : (s.setTim t x).pdac = s.pdac := rfl
@[simp] theorem State.setTim_fab (t : Fin 32) (x : TimH) : (s.setTim t x).fab = s.fab := rfl
@[simp] theorem State.setTim_fabWait (t : Fin 32) (x : TimH) : (s.setTim t x).fabWait = s.fabWait := rfl
@[simp] theorem State.setTim_hop (t : Fin 32) (x : TimH) : (s.setTim t x).hop = s.hop := rfl
@[simp] theorem State.setTim_tagLast (t : Fin 32) (x : TimH) : (s.setTim t x).tagLast = s.tagLast := rfl
@[simp] theorem State.setTim_outLast (t : Fin 32) (x : TimH) : (s.setTim t x).outLast = s.outLast := rfl
@[simp] theorem State.setTim_dpl (t : Fin 32) (x : TimH) : (s.setTim t x).dpl = s.dpl := rfl
@[simp] theorem State.setTim_tmb (t : Fin 32) (x : TimH) : (s.setTim t x).tmb = s.tmb := rfl
@[simp] theorem State.setTim_voteQ (t : Fin 32) (x : TimH) : (s.setTim t x).voteQ = s.voteQ := rfl
@[simp] theorem State.setTim_useTab (t : Fin 32) (x : TimH) : (s.setTim t x).useTab = s.useTab := rfl
@[simp] theorem State.setTim_receipts (t : Fin 32) (x : TimH) : (s.setTim t x).receipts = s.receipts := rfl
@[simp] theorem State.setTim_cs (t : Fin 32) (x : TimH) : (s.setTim t x).cs = s.cs := rfl
@[simp] theorem State.setTim_slk (t : Fin 32) (x : TimH) : (s.setTim t x).slk = s.slk := rfl
@[simp] theorem State.setTim_siteOut (t : Fin 32) (x : TimH) : (s.setTim t x).siteOut = s.siteOut := rfl
@[simp] theorem State.setTim_sch (t : Fin 32) (x : TimH) : (s.setTim t x).sch = s.sch := rfl
@[simp] theorem State.setTim_dmc (t : Fin 32) (x : TimH) : (s.setTim t x).dmc = s.dmc := rfl
@[simp] theorem State.setTim_cxh (t : Fin 32) (x : TimH) : (s.setTim t x).cxh = s.cxh := rfl
@[simp] theorem State.setTim_cal (t : Fin 32) (x : TimH) : (s.setTim t x).cal = s.cal := rfl
@[simp] theorem State.setTim_sme (t : Fin 32) (x : TimH) : (s.setTim t x).sme = s.sme := rfl
@[simp] theorem State.setTim_long (t : Fin 32) (x : TimH) : (s.setTim t x).long = s.long := rfl
@[simp] theorem State.setTim_trainLeft (t : Fin 32) (x : TimH) : (s.setTim t x).trainLeft = s.trainLeft := rfl
@[simp] theorem State.setTim_trainCodes (t : Fin 32) (x : TimH) : (s.setTim t x).trainCodes = s.trainCodes := rfl
@[simp] theorem State.setTim_load (t : Fin 32) (x : TimH) : (s.setTim t x).load = s.load := rfl
@[simp] theorem State.setTim_lineHold (t : Fin 32) (x : TimH) : (s.setTim t x).lineHold = s.lineHold := rfl
@[simp] theorem State.setTim_sec (t : Fin 32) (x : TimH) : (s.setTim t x).sec = s.sec := rfl
@[simp] theorem State.setTim_net (t : Fin 32) (x : TimH) : (s.setTim t x).net = s.net := rfl
@[simp] theorem State.setTim_evc (t : Fin 32) (x : TimH) : (s.setTim t x).evc = s.evc := rfl
@[simp] theorem State.setTim_pwr (t : Fin 32) (x : TimH) : (s.setTim t x).pwr = s.pwr := rfl
@[simp] theorem State.setTim_peb (t : Fin 32) (x : TimH) : (s.setTim t x).peb = s.peb := rfl
@[simp] theorem State.setTim_jtag (t : Fin 32) (x : TimH) : (s.setTim t x).jtag = s.jtag := rfl
@[simp] theorem State.setTim_boot (t : Fin 32) (x : TimH) : (s.setTim t x).boot = s.boot := rfl
@[simp] theorem State.setTim_fresh (t : Fin 32) (x : TimH) : (s.setTim t x).fresh = s.fresh := rfl

/-! ## `setWfg` -/

@[simp] theorem State.setWfg_pending (m : Fin 4) (x : WfgH) : (s.setWfg m x).pending = s.pending := rfl
@[simp] theorem State.setWfg_csr (m : Fin 4) (x : WfgH) : (s.setWfg m x).csr = s.csr := rfl
@[simp] theorem State.setWfg_mem (m : Fin 4) (x : WfgH) : (s.setWfg m x).mem = s.mem := rfl
@[simp] theorem State.setWfg_shadow (m : Fin 4) (x : WfgH) : (s.setWfg m x).shadow = s.shadow := rfl
@[simp] theorem State.setWfg_stagedLo (m : Fin 4) (x : WfgH) : (s.setWfg m x).stagedLo = s.stagedLo := rfl
@[simp] theorem State.setWfg_waits (m : Fin 4) (x : WfgH) : (s.setWfg m x).waits = s.waits := rfl
@[simp] theorem State.setWfg_csrWait (m : Fin 4) (x : WfgH) : (s.setWfg m x).csrWait = s.csrWait := rfl
@[simp] theorem State.setWfg_raised (m : Fin 4) (x : WfgH) : (s.setWfg m x).raised = s.raised := rfl
@[simp] theorem State.setWfg_pulses (m : Fin 4) (x : WfgH) : (s.setWfg m x).pulses = s.pulses := rfl
@[simp] theorem State.setWfg_port (m : Fin 4) (x : WfgH) : (s.setWfg m x).port = s.port := rfl
@[simp] theorem State.setWfg_seq (m : Fin 4) (x : WfgH) : (s.setWfg m x).seq = s.seq := rfl
@[simp] theorem State.setWfg_acq (m : Fin 4) (x : WfgH) : (s.setWfg m x).acq = s.acq := rfl
@[simp] theorem State.setWfg_tim (m : Fin 4) (x : WfgH) : (s.setWfg m x).tim = s.tim := rfl
@[simp] theorem State.setWfg_x7 (m : Fin 4) (x : WfgH) : (s.setWfg m x).x7 = s.x7 := rfl
@[simp] theorem State.setWfg_wfg (m : Fin 4) (x : WfgH) : (s.setWfg m x).wfg = s.wfg.set m x := rfl
@[simp] theorem State.setWfg_pdac (m : Fin 4) (x : WfgH) : (s.setWfg m x).pdac = s.pdac := rfl
@[simp] theorem State.setWfg_fab (m : Fin 4) (x : WfgH) : (s.setWfg m x).fab = s.fab := rfl
@[simp] theorem State.setWfg_fabWait (m : Fin 4) (x : WfgH) : (s.setWfg m x).fabWait = s.fabWait := rfl
@[simp] theorem State.setWfg_hop (m : Fin 4) (x : WfgH) : (s.setWfg m x).hop = s.hop := rfl
@[simp] theorem State.setWfg_tagLast (m : Fin 4) (x : WfgH) : (s.setWfg m x).tagLast = s.tagLast := rfl
@[simp] theorem State.setWfg_outLast (m : Fin 4) (x : WfgH) : (s.setWfg m x).outLast = s.outLast := rfl
@[simp] theorem State.setWfg_dpl (m : Fin 4) (x : WfgH) : (s.setWfg m x).dpl = s.dpl := rfl
@[simp] theorem State.setWfg_tmb (m : Fin 4) (x : WfgH) : (s.setWfg m x).tmb = s.tmb := rfl
@[simp] theorem State.setWfg_voteQ (m : Fin 4) (x : WfgH) : (s.setWfg m x).voteQ = s.voteQ := rfl
@[simp] theorem State.setWfg_useTab (m : Fin 4) (x : WfgH) : (s.setWfg m x).useTab = s.useTab := rfl
@[simp] theorem State.setWfg_receipts (m : Fin 4) (x : WfgH) : (s.setWfg m x).receipts = s.receipts := rfl
@[simp] theorem State.setWfg_cs (m : Fin 4) (x : WfgH) : (s.setWfg m x).cs = s.cs := rfl
@[simp] theorem State.setWfg_slk (m : Fin 4) (x : WfgH) : (s.setWfg m x).slk = s.slk := rfl
@[simp] theorem State.setWfg_siteOut (m : Fin 4) (x : WfgH) : (s.setWfg m x).siteOut = s.siteOut := rfl
@[simp] theorem State.setWfg_sch (m : Fin 4) (x : WfgH) : (s.setWfg m x).sch = s.sch := rfl
@[simp] theorem State.setWfg_dmc (m : Fin 4) (x : WfgH) : (s.setWfg m x).dmc = s.dmc := rfl
@[simp] theorem State.setWfg_cxh (m : Fin 4) (x : WfgH) : (s.setWfg m x).cxh = s.cxh := rfl
@[simp] theorem State.setWfg_cal (m : Fin 4) (x : WfgH) : (s.setWfg m x).cal = s.cal := rfl
@[simp] theorem State.setWfg_sme (m : Fin 4) (x : WfgH) : (s.setWfg m x).sme = s.sme := rfl
@[simp] theorem State.setWfg_long (m : Fin 4) (x : WfgH) : (s.setWfg m x).long = s.long := rfl
@[simp] theorem State.setWfg_trainLeft (m : Fin 4) (x : WfgH) : (s.setWfg m x).trainLeft = s.trainLeft := rfl
@[simp] theorem State.setWfg_trainCodes (m : Fin 4) (x : WfgH) : (s.setWfg m x).trainCodes = s.trainCodes := rfl
@[simp] theorem State.setWfg_load (m : Fin 4) (x : WfgH) : (s.setWfg m x).load = s.load := rfl
@[simp] theorem State.setWfg_lineHold (m : Fin 4) (x : WfgH) : (s.setWfg m x).lineHold = s.lineHold := rfl
@[simp] theorem State.setWfg_sec (m : Fin 4) (x : WfgH) : (s.setWfg m x).sec = s.sec := rfl
@[simp] theorem State.setWfg_net (m : Fin 4) (x : WfgH) : (s.setWfg m x).net = s.net := rfl
@[simp] theorem State.setWfg_evc (m : Fin 4) (x : WfgH) : (s.setWfg m x).evc = s.evc := rfl
@[simp] theorem State.setWfg_pwr (m : Fin 4) (x : WfgH) : (s.setWfg m x).pwr = s.pwr := rfl
@[simp] theorem State.setWfg_peb (m : Fin 4) (x : WfgH) : (s.setWfg m x).peb = s.peb := rfl
@[simp] theorem State.setWfg_jtag (m : Fin 4) (x : WfgH) : (s.setWfg m x).jtag = s.jtag := rfl
@[simp] theorem State.setWfg_boot (m : Fin 4) (x : WfgH) : (s.setWfg m x).boot = s.boot := rfl
@[simp] theorem State.setWfg_fresh (m : Fin 4) (x : WfgH) : (s.setWfg m x).fresh = s.fresh := rfl

/-! ## `setDpl` -/

@[simp] theorem State.setDpl_pending (d : Fin 12) (x : DplH) : (s.setDpl d x).pending = s.pending := rfl
@[simp] theorem State.setDpl_csr (d : Fin 12) (x : DplH) : (s.setDpl d x).csr = s.csr := rfl
@[simp] theorem State.setDpl_mem (d : Fin 12) (x : DplH) : (s.setDpl d x).mem = s.mem := rfl
@[simp] theorem State.setDpl_shadow (d : Fin 12) (x : DplH) : (s.setDpl d x).shadow = s.shadow := rfl
@[simp] theorem State.setDpl_stagedLo (d : Fin 12) (x : DplH) : (s.setDpl d x).stagedLo = s.stagedLo := rfl
@[simp] theorem State.setDpl_waits (d : Fin 12) (x : DplH) : (s.setDpl d x).waits = s.waits := rfl
@[simp] theorem State.setDpl_csrWait (d : Fin 12) (x : DplH) : (s.setDpl d x).csrWait = s.csrWait := rfl
@[simp] theorem State.setDpl_raised (d : Fin 12) (x : DplH) : (s.setDpl d x).raised = s.raised := rfl
@[simp] theorem State.setDpl_pulses (d : Fin 12) (x : DplH) : (s.setDpl d x).pulses = s.pulses := rfl
@[simp] theorem State.setDpl_port (d : Fin 12) (x : DplH) : (s.setDpl d x).port = s.port := rfl
@[simp] theorem State.setDpl_seq (d : Fin 12) (x : DplH) : (s.setDpl d x).seq = s.seq := rfl
@[simp] theorem State.setDpl_acq (d : Fin 12) (x : DplH) : (s.setDpl d x).acq = s.acq := rfl
@[simp] theorem State.setDpl_tim (d : Fin 12) (x : DplH) : (s.setDpl d x).tim = s.tim := rfl
@[simp] theorem State.setDpl_x7 (d : Fin 12) (x : DplH) : (s.setDpl d x).x7 = s.x7 := rfl
@[simp] theorem State.setDpl_wfg (d : Fin 12) (x : DplH) : (s.setDpl d x).wfg = s.wfg := rfl
@[simp] theorem State.setDpl_pdac (d : Fin 12) (x : DplH) : (s.setDpl d x).pdac = s.pdac := rfl
@[simp] theorem State.setDpl_fab (d : Fin 12) (x : DplH) : (s.setDpl d x).fab = s.fab := rfl
@[simp] theorem State.setDpl_fabWait (d : Fin 12) (x : DplH) : (s.setDpl d x).fabWait = s.fabWait := rfl
@[simp] theorem State.setDpl_hop (d : Fin 12) (x : DplH) : (s.setDpl d x).hop = s.hop := rfl
@[simp] theorem State.setDpl_tagLast (d : Fin 12) (x : DplH) : (s.setDpl d x).tagLast = s.tagLast := rfl
@[simp] theorem State.setDpl_outLast (d : Fin 12) (x : DplH) : (s.setDpl d x).outLast = s.outLast := rfl
@[simp] theorem State.setDpl_dpl (d : Fin 12) (x : DplH) : (s.setDpl d x).dpl = s.dpl.set d x := rfl
@[simp] theorem State.setDpl_tmb (d : Fin 12) (x : DplH) : (s.setDpl d x).tmb = s.tmb := rfl
@[simp] theorem State.setDpl_voteQ (d : Fin 12) (x : DplH) : (s.setDpl d x).voteQ = s.voteQ := rfl
@[simp] theorem State.setDpl_useTab (d : Fin 12) (x : DplH) : (s.setDpl d x).useTab = s.useTab := rfl
@[simp] theorem State.setDpl_receipts (d : Fin 12) (x : DplH) : (s.setDpl d x).receipts = s.receipts := rfl
@[simp] theorem State.setDpl_cs (d : Fin 12) (x : DplH) : (s.setDpl d x).cs = s.cs := rfl
@[simp] theorem State.setDpl_slk (d : Fin 12) (x : DplH) : (s.setDpl d x).slk = s.slk := rfl
@[simp] theorem State.setDpl_siteOut (d : Fin 12) (x : DplH) : (s.setDpl d x).siteOut = s.siteOut := rfl
@[simp] theorem State.setDpl_sch (d : Fin 12) (x : DplH) : (s.setDpl d x).sch = s.sch := rfl
@[simp] theorem State.setDpl_dmc (d : Fin 12) (x : DplH) : (s.setDpl d x).dmc = s.dmc := rfl
@[simp] theorem State.setDpl_cxh (d : Fin 12) (x : DplH) : (s.setDpl d x).cxh = s.cxh := rfl
@[simp] theorem State.setDpl_cal (d : Fin 12) (x : DplH) : (s.setDpl d x).cal = s.cal := rfl
@[simp] theorem State.setDpl_sme (d : Fin 12) (x : DplH) : (s.setDpl d x).sme = s.sme := rfl
@[simp] theorem State.setDpl_long (d : Fin 12) (x : DplH) : (s.setDpl d x).long = s.long := rfl
@[simp] theorem State.setDpl_trainLeft (d : Fin 12) (x : DplH) : (s.setDpl d x).trainLeft = s.trainLeft := rfl
@[simp] theorem State.setDpl_trainCodes (d : Fin 12) (x : DplH) : (s.setDpl d x).trainCodes = s.trainCodes := rfl
@[simp] theorem State.setDpl_load (d : Fin 12) (x : DplH) : (s.setDpl d x).load = s.load := rfl
@[simp] theorem State.setDpl_lineHold (d : Fin 12) (x : DplH) : (s.setDpl d x).lineHold = s.lineHold := rfl
@[simp] theorem State.setDpl_sec (d : Fin 12) (x : DplH) : (s.setDpl d x).sec = s.sec := rfl
@[simp] theorem State.setDpl_net (d : Fin 12) (x : DplH) : (s.setDpl d x).net = s.net := rfl
@[simp] theorem State.setDpl_evc (d : Fin 12) (x : DplH) : (s.setDpl d x).evc = s.evc := rfl
@[simp] theorem State.setDpl_pwr (d : Fin 12) (x : DplH) : (s.setDpl d x).pwr = s.pwr := rfl
@[simp] theorem State.setDpl_peb (d : Fin 12) (x : DplH) : (s.setDpl d x).peb = s.peb := rfl
@[simp] theorem State.setDpl_jtag (d : Fin 12) (x : DplH) : (s.setDpl d x).jtag = s.jtag := rfl
@[simp] theorem State.setDpl_boot (d : Fin 12) (x : DplH) : (s.setDpl d x).boot = s.boot := rfl
@[simp] theorem State.setDpl_fresh (d : Fin 12) (x : DplH) : (s.setDpl d x).fresh = s.fresh := rfl

/-! ## `setDmc` -/

@[simp] theorem State.setDmc_pending (c : Fin 4) (x : DmcH) : (s.setDmc c x).pending = s.pending := rfl
@[simp] theorem State.setDmc_csr (c : Fin 4) (x : DmcH) : (s.setDmc c x).csr = s.csr := rfl
@[simp] theorem State.setDmc_mem (c : Fin 4) (x : DmcH) : (s.setDmc c x).mem = s.mem := rfl
@[simp] theorem State.setDmc_shadow (c : Fin 4) (x : DmcH) : (s.setDmc c x).shadow = s.shadow := rfl
@[simp] theorem State.setDmc_stagedLo (c : Fin 4) (x : DmcH) : (s.setDmc c x).stagedLo = s.stagedLo := rfl
@[simp] theorem State.setDmc_waits (c : Fin 4) (x : DmcH) : (s.setDmc c x).waits = s.waits := rfl
@[simp] theorem State.setDmc_csrWait (c : Fin 4) (x : DmcH) : (s.setDmc c x).csrWait = s.csrWait := rfl
@[simp] theorem State.setDmc_raised (c : Fin 4) (x : DmcH) : (s.setDmc c x).raised = s.raised := rfl
@[simp] theorem State.setDmc_pulses (c : Fin 4) (x : DmcH) : (s.setDmc c x).pulses = s.pulses := rfl
@[simp] theorem State.setDmc_port (c : Fin 4) (x : DmcH) : (s.setDmc c x).port = s.port := rfl
@[simp] theorem State.setDmc_seq (c : Fin 4) (x : DmcH) : (s.setDmc c x).seq = s.seq := rfl
@[simp] theorem State.setDmc_acq (c : Fin 4) (x : DmcH) : (s.setDmc c x).acq = s.acq := rfl
@[simp] theorem State.setDmc_tim (c : Fin 4) (x : DmcH) : (s.setDmc c x).tim = s.tim := rfl
@[simp] theorem State.setDmc_x7 (c : Fin 4) (x : DmcH) : (s.setDmc c x).x7 = s.x7 := rfl
@[simp] theorem State.setDmc_wfg (c : Fin 4) (x : DmcH) : (s.setDmc c x).wfg = s.wfg := rfl
@[simp] theorem State.setDmc_pdac (c : Fin 4) (x : DmcH) : (s.setDmc c x).pdac = s.pdac := rfl
@[simp] theorem State.setDmc_fab (c : Fin 4) (x : DmcH) : (s.setDmc c x).fab = s.fab := rfl
@[simp] theorem State.setDmc_fabWait (c : Fin 4) (x : DmcH) : (s.setDmc c x).fabWait = s.fabWait := rfl
@[simp] theorem State.setDmc_hop (c : Fin 4) (x : DmcH) : (s.setDmc c x).hop = s.hop := rfl
@[simp] theorem State.setDmc_tagLast (c : Fin 4) (x : DmcH) : (s.setDmc c x).tagLast = s.tagLast := rfl
@[simp] theorem State.setDmc_outLast (c : Fin 4) (x : DmcH) : (s.setDmc c x).outLast = s.outLast := rfl
@[simp] theorem State.setDmc_dpl (c : Fin 4) (x : DmcH) : (s.setDmc c x).dpl = s.dpl := rfl
@[simp] theorem State.setDmc_tmb (c : Fin 4) (x : DmcH) : (s.setDmc c x).tmb = s.tmb := rfl
@[simp] theorem State.setDmc_voteQ (c : Fin 4) (x : DmcH) : (s.setDmc c x).voteQ = s.voteQ := rfl
@[simp] theorem State.setDmc_useTab (c : Fin 4) (x : DmcH) : (s.setDmc c x).useTab = s.useTab := rfl
@[simp] theorem State.setDmc_receipts (c : Fin 4) (x : DmcH) : (s.setDmc c x).receipts = s.receipts := rfl
@[simp] theorem State.setDmc_cs (c : Fin 4) (x : DmcH) : (s.setDmc c x).cs = s.cs := rfl
@[simp] theorem State.setDmc_slk (c : Fin 4) (x : DmcH) : (s.setDmc c x).slk = s.slk := rfl
@[simp] theorem State.setDmc_siteOut (c : Fin 4) (x : DmcH) : (s.setDmc c x).siteOut = s.siteOut := rfl
@[simp] theorem State.setDmc_sch (c : Fin 4) (x : DmcH) : (s.setDmc c x).sch = s.sch := rfl
@[simp] theorem State.setDmc_dmc (c : Fin 4) (x : DmcH) : (s.setDmc c x).dmc = s.dmc.set c x := rfl
@[simp] theorem State.setDmc_cxh (c : Fin 4) (x : DmcH) : (s.setDmc c x).cxh = s.cxh := rfl
@[simp] theorem State.setDmc_cal (c : Fin 4) (x : DmcH) : (s.setDmc c x).cal = s.cal := rfl
@[simp] theorem State.setDmc_sme (c : Fin 4) (x : DmcH) : (s.setDmc c x).sme = s.sme := rfl
@[simp] theorem State.setDmc_long (c : Fin 4) (x : DmcH) : (s.setDmc c x).long = s.long := rfl
@[simp] theorem State.setDmc_trainLeft (c : Fin 4) (x : DmcH) : (s.setDmc c x).trainLeft = s.trainLeft := rfl
@[simp] theorem State.setDmc_trainCodes (c : Fin 4) (x : DmcH) : (s.setDmc c x).trainCodes = s.trainCodes := rfl
@[simp] theorem State.setDmc_load (c : Fin 4) (x : DmcH) : (s.setDmc c x).load = s.load := rfl
@[simp] theorem State.setDmc_lineHold (c : Fin 4) (x : DmcH) : (s.setDmc c x).lineHold = s.lineHold := rfl
@[simp] theorem State.setDmc_sec (c : Fin 4) (x : DmcH) : (s.setDmc c x).sec = s.sec := rfl
@[simp] theorem State.setDmc_net (c : Fin 4) (x : DmcH) : (s.setDmc c x).net = s.net := rfl
@[simp] theorem State.setDmc_evc (c : Fin 4) (x : DmcH) : (s.setDmc c x).evc = s.evc := rfl
@[simp] theorem State.setDmc_pwr (c : Fin 4) (x : DmcH) : (s.setDmc c x).pwr = s.pwr := rfl
@[simp] theorem State.setDmc_peb (c : Fin 4) (x : DmcH) : (s.setDmc c x).peb = s.peb := rfl
@[simp] theorem State.setDmc_jtag (c : Fin 4) (x : DmcH) : (s.setDmc c x).jtag = s.jtag := rfl
@[simp] theorem State.setDmc_boot (c : Fin 4) (x : DmcH) : (s.setDmc c x).boot = s.boot := rfl
@[simp] theorem State.setDmc_fresh (c : Fin 4) (x : DmcH) : (s.setDmc c x).fresh = s.fresh := rfl

/-! ## `setCxh` -/

@[simp] theorem State.setCxh_pending (h : Fin 2) (x : CxhH) : (s.setCxh h x).pending = s.pending := rfl
@[simp] theorem State.setCxh_csr (h : Fin 2) (x : CxhH) : (s.setCxh h x).csr = s.csr := rfl
@[simp] theorem State.setCxh_mem (h : Fin 2) (x : CxhH) : (s.setCxh h x).mem = s.mem := rfl
@[simp] theorem State.setCxh_shadow (h : Fin 2) (x : CxhH) : (s.setCxh h x).shadow = s.shadow := rfl
@[simp] theorem State.setCxh_stagedLo (h : Fin 2) (x : CxhH) : (s.setCxh h x).stagedLo = s.stagedLo := rfl
@[simp] theorem State.setCxh_waits (h : Fin 2) (x : CxhH) : (s.setCxh h x).waits = s.waits := rfl
@[simp] theorem State.setCxh_csrWait (h : Fin 2) (x : CxhH) : (s.setCxh h x).csrWait = s.csrWait := rfl
@[simp] theorem State.setCxh_raised (h : Fin 2) (x : CxhH) : (s.setCxh h x).raised = s.raised := rfl
@[simp] theorem State.setCxh_pulses (h : Fin 2) (x : CxhH) : (s.setCxh h x).pulses = s.pulses := rfl
@[simp] theorem State.setCxh_port (h : Fin 2) (x : CxhH) : (s.setCxh h x).port = s.port := rfl
@[simp] theorem State.setCxh_seq (h : Fin 2) (x : CxhH) : (s.setCxh h x).seq = s.seq := rfl
@[simp] theorem State.setCxh_acq (h : Fin 2) (x : CxhH) : (s.setCxh h x).acq = s.acq := rfl
@[simp] theorem State.setCxh_tim (h : Fin 2) (x : CxhH) : (s.setCxh h x).tim = s.tim := rfl
@[simp] theorem State.setCxh_x7 (h : Fin 2) (x : CxhH) : (s.setCxh h x).x7 = s.x7 := rfl
@[simp] theorem State.setCxh_wfg (h : Fin 2) (x : CxhH) : (s.setCxh h x).wfg = s.wfg := rfl
@[simp] theorem State.setCxh_pdac (h : Fin 2) (x : CxhH) : (s.setCxh h x).pdac = s.pdac := rfl
@[simp] theorem State.setCxh_fab (h : Fin 2) (x : CxhH) : (s.setCxh h x).fab = s.fab := rfl
@[simp] theorem State.setCxh_fabWait (h : Fin 2) (x : CxhH) : (s.setCxh h x).fabWait = s.fabWait := rfl
@[simp] theorem State.setCxh_hop (h : Fin 2) (x : CxhH) : (s.setCxh h x).hop = s.hop := rfl
@[simp] theorem State.setCxh_tagLast (h : Fin 2) (x : CxhH) : (s.setCxh h x).tagLast = s.tagLast := rfl
@[simp] theorem State.setCxh_outLast (h : Fin 2) (x : CxhH) : (s.setCxh h x).outLast = s.outLast := rfl
@[simp] theorem State.setCxh_dpl (h : Fin 2) (x : CxhH) : (s.setCxh h x).dpl = s.dpl := rfl
@[simp] theorem State.setCxh_tmb (h : Fin 2) (x : CxhH) : (s.setCxh h x).tmb = s.tmb := rfl
@[simp] theorem State.setCxh_voteQ (h : Fin 2) (x : CxhH) : (s.setCxh h x).voteQ = s.voteQ := rfl
@[simp] theorem State.setCxh_useTab (h : Fin 2) (x : CxhH) : (s.setCxh h x).useTab = s.useTab := rfl
@[simp] theorem State.setCxh_receipts (h : Fin 2) (x : CxhH) : (s.setCxh h x).receipts = s.receipts := rfl
@[simp] theorem State.setCxh_cs (h : Fin 2) (x : CxhH) : (s.setCxh h x).cs = s.cs := rfl
@[simp] theorem State.setCxh_slk (h : Fin 2) (x : CxhH) : (s.setCxh h x).slk = s.slk := rfl
@[simp] theorem State.setCxh_siteOut (h : Fin 2) (x : CxhH) : (s.setCxh h x).siteOut = s.siteOut := rfl
@[simp] theorem State.setCxh_sch (h : Fin 2) (x : CxhH) : (s.setCxh h x).sch = s.sch := rfl
@[simp] theorem State.setCxh_dmc (h : Fin 2) (x : CxhH) : (s.setCxh h x).dmc = s.dmc := rfl
@[simp] theorem State.setCxh_cxh (h : Fin 2) (x : CxhH) : (s.setCxh h x).cxh = s.cxh.set h x := rfl
@[simp] theorem State.setCxh_cal (h : Fin 2) (x : CxhH) : (s.setCxh h x).cal = s.cal := rfl
@[simp] theorem State.setCxh_sme (h : Fin 2) (x : CxhH) : (s.setCxh h x).sme = s.sme := rfl
@[simp] theorem State.setCxh_long (h : Fin 2) (x : CxhH) : (s.setCxh h x).long = s.long := rfl
@[simp] theorem State.setCxh_trainLeft (h : Fin 2) (x : CxhH) : (s.setCxh h x).trainLeft = s.trainLeft := rfl
@[simp] theorem State.setCxh_trainCodes (h : Fin 2) (x : CxhH) : (s.setCxh h x).trainCodes = s.trainCodes := rfl
@[simp] theorem State.setCxh_load (h : Fin 2) (x : CxhH) : (s.setCxh h x).load = s.load := rfl
@[simp] theorem State.setCxh_lineHold (h : Fin 2) (x : CxhH) : (s.setCxh h x).lineHold = s.lineHold := rfl
@[simp] theorem State.setCxh_sec (h : Fin 2) (x : CxhH) : (s.setCxh h x).sec = s.sec := rfl
@[simp] theorem State.setCxh_net (h : Fin 2) (x : CxhH) : (s.setCxh h x).net = s.net := rfl
@[simp] theorem State.setCxh_evc (h : Fin 2) (x : CxhH) : (s.setCxh h x).evc = s.evc := rfl
@[simp] theorem State.setCxh_pwr (h : Fin 2) (x : CxhH) : (s.setCxh h x).pwr = s.pwr := rfl
@[simp] theorem State.setCxh_peb (h : Fin 2) (x : CxhH) : (s.setCxh h x).peb = s.peb := rfl
@[simp] theorem State.setCxh_jtag (h : Fin 2) (x : CxhH) : (s.setCxh h x).jtag = s.jtag := rfl
@[simp] theorem State.setCxh_boot (h : Fin 2) (x : CxhH) : (s.setCxh h x).boot = s.boot := rfl
@[simp] theorem State.setCxh_fresh (h : Fin 2) (x : CxhH) : (s.setCxh h x).fresh = s.fresh := rfl

/-! ## `setPeb` -/

@[simp] theorem State.setPeb_pending (b : Fin 8) (x : PebH) : (s.setPeb b x).pending = s.pending := rfl
@[simp] theorem State.setPeb_csr (b : Fin 8) (x : PebH) : (s.setPeb b x).csr = s.csr := rfl
@[simp] theorem State.setPeb_mem (b : Fin 8) (x : PebH) : (s.setPeb b x).mem = s.mem := rfl
@[simp] theorem State.setPeb_shadow (b : Fin 8) (x : PebH) : (s.setPeb b x).shadow = s.shadow := rfl
@[simp] theorem State.setPeb_stagedLo (b : Fin 8) (x : PebH) : (s.setPeb b x).stagedLo = s.stagedLo := rfl
@[simp] theorem State.setPeb_waits (b : Fin 8) (x : PebH) : (s.setPeb b x).waits = s.waits := rfl
@[simp] theorem State.setPeb_csrWait (b : Fin 8) (x : PebH) : (s.setPeb b x).csrWait = s.csrWait := rfl
@[simp] theorem State.setPeb_raised (b : Fin 8) (x : PebH) : (s.setPeb b x).raised = s.raised := rfl
@[simp] theorem State.setPeb_pulses (b : Fin 8) (x : PebH) : (s.setPeb b x).pulses = s.pulses := rfl
@[simp] theorem State.setPeb_port (b : Fin 8) (x : PebH) : (s.setPeb b x).port = s.port := rfl
@[simp] theorem State.setPeb_seq (b : Fin 8) (x : PebH) : (s.setPeb b x).seq = s.seq := rfl
@[simp] theorem State.setPeb_acq (b : Fin 8) (x : PebH) : (s.setPeb b x).acq = s.acq := rfl
@[simp] theorem State.setPeb_tim (b : Fin 8) (x : PebH) : (s.setPeb b x).tim = s.tim := rfl
@[simp] theorem State.setPeb_x7 (b : Fin 8) (x : PebH) : (s.setPeb b x).x7 = s.x7 := rfl
@[simp] theorem State.setPeb_wfg (b : Fin 8) (x : PebH) : (s.setPeb b x).wfg = s.wfg := rfl
@[simp] theorem State.setPeb_pdac (b : Fin 8) (x : PebH) : (s.setPeb b x).pdac = s.pdac := rfl
@[simp] theorem State.setPeb_fab (b : Fin 8) (x : PebH) : (s.setPeb b x).fab = s.fab := rfl
@[simp] theorem State.setPeb_fabWait (b : Fin 8) (x : PebH) : (s.setPeb b x).fabWait = s.fabWait := rfl
@[simp] theorem State.setPeb_hop (b : Fin 8) (x : PebH) : (s.setPeb b x).hop = s.hop := rfl
@[simp] theorem State.setPeb_tagLast (b : Fin 8) (x : PebH) : (s.setPeb b x).tagLast = s.tagLast := rfl
@[simp] theorem State.setPeb_outLast (b : Fin 8) (x : PebH) : (s.setPeb b x).outLast = s.outLast := rfl
@[simp] theorem State.setPeb_dpl (b : Fin 8) (x : PebH) : (s.setPeb b x).dpl = s.dpl := rfl
@[simp] theorem State.setPeb_tmb (b : Fin 8) (x : PebH) : (s.setPeb b x).tmb = s.tmb := rfl
@[simp] theorem State.setPeb_voteQ (b : Fin 8) (x : PebH) : (s.setPeb b x).voteQ = s.voteQ := rfl
@[simp] theorem State.setPeb_useTab (b : Fin 8) (x : PebH) : (s.setPeb b x).useTab = s.useTab := rfl
@[simp] theorem State.setPeb_receipts (b : Fin 8) (x : PebH) : (s.setPeb b x).receipts = s.receipts := rfl
@[simp] theorem State.setPeb_cs (b : Fin 8) (x : PebH) : (s.setPeb b x).cs = s.cs := rfl
@[simp] theorem State.setPeb_slk (b : Fin 8) (x : PebH) : (s.setPeb b x).slk = s.slk := rfl
@[simp] theorem State.setPeb_siteOut (b : Fin 8) (x : PebH) : (s.setPeb b x).siteOut = s.siteOut := rfl
@[simp] theorem State.setPeb_sch (b : Fin 8) (x : PebH) : (s.setPeb b x).sch = s.sch := rfl
@[simp] theorem State.setPeb_dmc (b : Fin 8) (x : PebH) : (s.setPeb b x).dmc = s.dmc := rfl
@[simp] theorem State.setPeb_cxh (b : Fin 8) (x : PebH) : (s.setPeb b x).cxh = s.cxh := rfl
@[simp] theorem State.setPeb_cal (b : Fin 8) (x : PebH) : (s.setPeb b x).cal = s.cal := rfl
@[simp] theorem State.setPeb_sme (b : Fin 8) (x : PebH) : (s.setPeb b x).sme = s.sme := rfl
@[simp] theorem State.setPeb_long (b : Fin 8) (x : PebH) : (s.setPeb b x).long = s.long := rfl
@[simp] theorem State.setPeb_trainLeft (b : Fin 8) (x : PebH) : (s.setPeb b x).trainLeft = s.trainLeft := rfl
@[simp] theorem State.setPeb_trainCodes (b : Fin 8) (x : PebH) : (s.setPeb b x).trainCodes = s.trainCodes := rfl
@[simp] theorem State.setPeb_load (b : Fin 8) (x : PebH) : (s.setPeb b x).load = s.load := rfl
@[simp] theorem State.setPeb_lineHold (b : Fin 8) (x : PebH) : (s.setPeb b x).lineHold = s.lineHold := rfl
@[simp] theorem State.setPeb_sec (b : Fin 8) (x : PebH) : (s.setPeb b x).sec = s.sec := rfl
@[simp] theorem State.setPeb_net (b : Fin 8) (x : PebH) : (s.setPeb b x).net = s.net := rfl
@[simp] theorem State.setPeb_evc (b : Fin 8) (x : PebH) : (s.setPeb b x).evc = s.evc := rfl
@[simp] theorem State.setPeb_pwr (b : Fin 8) (x : PebH) : (s.setPeb b x).pwr = s.pwr := rfl
@[simp] theorem State.setPeb_peb (b : Fin 8) (x : PebH) : (s.setPeb b x).peb = s.peb.set b x := rfl
@[simp] theorem State.setPeb_jtag (b : Fin 8) (x : PebH) : (s.setPeb b x).jtag = s.jtag := rfl
@[simp] theorem State.setPeb_boot (b : Fin 8) (x : PebH) : (s.setPeb b x).boot = s.boot := rfl
@[simp] theorem State.setPeb_fresh (b : Fin 8) (x : PebH) : (s.setPeb b x).fresh = s.fresh := rfl

/-! ## `setSch` -/

@[simp] theorem State.setSch_pending (x : SchH) : (s.setSch x).pending = s.pending := rfl
@[simp] theorem State.setSch_csr (x : SchH) : (s.setSch x).csr = s.csr := rfl
@[simp] theorem State.setSch_mem (x : SchH) : (s.setSch x).mem = s.mem := rfl
@[simp] theorem State.setSch_shadow (x : SchH) : (s.setSch x).shadow = s.shadow := rfl
@[simp] theorem State.setSch_stagedLo (x : SchH) : (s.setSch x).stagedLo = s.stagedLo := rfl
@[simp] theorem State.setSch_waits (x : SchH) : (s.setSch x).waits = s.waits := rfl
@[simp] theorem State.setSch_csrWait (x : SchH) : (s.setSch x).csrWait = s.csrWait := rfl
@[simp] theorem State.setSch_raised (x : SchH) : (s.setSch x).raised = s.raised := rfl
@[simp] theorem State.setSch_pulses (x : SchH) : (s.setSch x).pulses = s.pulses := rfl
@[simp] theorem State.setSch_port (x : SchH) : (s.setSch x).port = s.port := rfl
@[simp] theorem State.setSch_seq (x : SchH) : (s.setSch x).seq = s.seq := rfl
@[simp] theorem State.setSch_acq (x : SchH) : (s.setSch x).acq = s.acq := rfl
@[simp] theorem State.setSch_tim (x : SchH) : (s.setSch x).tim = s.tim := rfl
@[simp] theorem State.setSch_x7 (x : SchH) : (s.setSch x).x7 = s.x7 := rfl
@[simp] theorem State.setSch_wfg (x : SchH) : (s.setSch x).wfg = s.wfg := rfl
@[simp] theorem State.setSch_pdac (x : SchH) : (s.setSch x).pdac = s.pdac := rfl
@[simp] theorem State.setSch_fab (x : SchH) : (s.setSch x).fab = s.fab := rfl
@[simp] theorem State.setSch_fabWait (x : SchH) : (s.setSch x).fabWait = s.fabWait := rfl
@[simp] theorem State.setSch_hop (x : SchH) : (s.setSch x).hop = s.hop := rfl
@[simp] theorem State.setSch_tagLast (x : SchH) : (s.setSch x).tagLast = s.tagLast := rfl
@[simp] theorem State.setSch_outLast (x : SchH) : (s.setSch x).outLast = s.outLast := rfl
@[simp] theorem State.setSch_dpl (x : SchH) : (s.setSch x).dpl = s.dpl := rfl
@[simp] theorem State.setSch_tmb (x : SchH) : (s.setSch x).tmb = s.tmb := rfl
@[simp] theorem State.setSch_voteQ (x : SchH) : (s.setSch x).voteQ = s.voteQ := rfl
@[simp] theorem State.setSch_useTab (x : SchH) : (s.setSch x).useTab = s.useTab := rfl
@[simp] theorem State.setSch_receipts (x : SchH) : (s.setSch x).receipts = s.receipts := rfl
@[simp] theorem State.setSch_cs (x : SchH) : (s.setSch x).cs = s.cs := rfl
@[simp] theorem State.setSch_slk (x : SchH) : (s.setSch x).slk = s.slk := rfl
@[simp] theorem State.setSch_siteOut (x : SchH) : (s.setSch x).siteOut = s.siteOut := rfl
@[simp] theorem State.setSch_sch (x : SchH) : (s.setSch x).sch = x := rfl
@[simp] theorem State.setSch_dmc (x : SchH) : (s.setSch x).dmc = s.dmc := rfl
@[simp] theorem State.setSch_cxh (x : SchH) : (s.setSch x).cxh = s.cxh := rfl
@[simp] theorem State.setSch_cal (x : SchH) : (s.setSch x).cal = s.cal := rfl
@[simp] theorem State.setSch_sme (x : SchH) : (s.setSch x).sme = s.sme := rfl
@[simp] theorem State.setSch_long (x : SchH) : (s.setSch x).long = s.long := rfl
@[simp] theorem State.setSch_trainLeft (x : SchH) : (s.setSch x).trainLeft = s.trainLeft := rfl
@[simp] theorem State.setSch_trainCodes (x : SchH) : (s.setSch x).trainCodes = s.trainCodes := rfl
@[simp] theorem State.setSch_load (x : SchH) : (s.setSch x).load = s.load := rfl
@[simp] theorem State.setSch_lineHold (x : SchH) : (s.setSch x).lineHold = s.lineHold := rfl
@[simp] theorem State.setSch_sec (x : SchH) : (s.setSch x).sec = s.sec := rfl
@[simp] theorem State.setSch_net (x : SchH) : (s.setSch x).net = s.net := rfl
@[simp] theorem State.setSch_evc (x : SchH) : (s.setSch x).evc = s.evc := rfl
@[simp] theorem State.setSch_pwr (x : SchH) : (s.setSch x).pwr = s.pwr := rfl
@[simp] theorem State.setSch_peb (x : SchH) : (s.setSch x).peb = s.peb := rfl
@[simp] theorem State.setSch_jtag (x : SchH) : (s.setSch x).jtag = s.jtag := rfl
@[simp] theorem State.setSch_boot (x : SchH) : (s.setSch x).boot = s.boot := rfl
@[simp] theorem State.setSch_fresh (x : SchH) : (s.setSch x).fresh = s.fresh := rfl

/-! ## `setSlk` -/

@[simp] theorem State.setSlk_pending (x : SlkH) : (s.setSlk x).pending = s.pending := rfl
@[simp] theorem State.setSlk_csr (x : SlkH) : (s.setSlk x).csr = s.csr := rfl
@[simp] theorem State.setSlk_mem (x : SlkH) : (s.setSlk x).mem = s.mem := rfl
@[simp] theorem State.setSlk_shadow (x : SlkH) : (s.setSlk x).shadow = s.shadow := rfl
@[simp] theorem State.setSlk_stagedLo (x : SlkH) : (s.setSlk x).stagedLo = s.stagedLo := rfl
@[simp] theorem State.setSlk_waits (x : SlkH) : (s.setSlk x).waits = s.waits := rfl
@[simp] theorem State.setSlk_csrWait (x : SlkH) : (s.setSlk x).csrWait = s.csrWait := rfl
@[simp] theorem State.setSlk_raised (x : SlkH) : (s.setSlk x).raised = s.raised := rfl
@[simp] theorem State.setSlk_pulses (x : SlkH) : (s.setSlk x).pulses = s.pulses := rfl
@[simp] theorem State.setSlk_port (x : SlkH) : (s.setSlk x).port = s.port := rfl
@[simp] theorem State.setSlk_seq (x : SlkH) : (s.setSlk x).seq = s.seq := rfl
@[simp] theorem State.setSlk_acq (x : SlkH) : (s.setSlk x).acq = s.acq := rfl
@[simp] theorem State.setSlk_tim (x : SlkH) : (s.setSlk x).tim = s.tim := rfl
@[simp] theorem State.setSlk_x7 (x : SlkH) : (s.setSlk x).x7 = s.x7 := rfl
@[simp] theorem State.setSlk_wfg (x : SlkH) : (s.setSlk x).wfg = s.wfg := rfl
@[simp] theorem State.setSlk_pdac (x : SlkH) : (s.setSlk x).pdac = s.pdac := rfl
@[simp] theorem State.setSlk_fab (x : SlkH) : (s.setSlk x).fab = s.fab := rfl
@[simp] theorem State.setSlk_fabWait (x : SlkH) : (s.setSlk x).fabWait = s.fabWait := rfl
@[simp] theorem State.setSlk_hop (x : SlkH) : (s.setSlk x).hop = s.hop := rfl
@[simp] theorem State.setSlk_tagLast (x : SlkH) : (s.setSlk x).tagLast = s.tagLast := rfl
@[simp] theorem State.setSlk_outLast (x : SlkH) : (s.setSlk x).outLast = s.outLast := rfl
@[simp] theorem State.setSlk_dpl (x : SlkH) : (s.setSlk x).dpl = s.dpl := rfl
@[simp] theorem State.setSlk_tmb (x : SlkH) : (s.setSlk x).tmb = s.tmb := rfl
@[simp] theorem State.setSlk_voteQ (x : SlkH) : (s.setSlk x).voteQ = s.voteQ := rfl
@[simp] theorem State.setSlk_useTab (x : SlkH) : (s.setSlk x).useTab = s.useTab := rfl
@[simp] theorem State.setSlk_receipts (x : SlkH) : (s.setSlk x).receipts = s.receipts := rfl
@[simp] theorem State.setSlk_cs (x : SlkH) : (s.setSlk x).cs = s.cs := rfl
@[simp] theorem State.setSlk_slk (x : SlkH) : (s.setSlk x).slk = x := rfl
@[simp] theorem State.setSlk_siteOut (x : SlkH) : (s.setSlk x).siteOut = s.siteOut := rfl
@[simp] theorem State.setSlk_sch (x : SlkH) : (s.setSlk x).sch = s.sch := rfl
@[simp] theorem State.setSlk_dmc (x : SlkH) : (s.setSlk x).dmc = s.dmc := rfl
@[simp] theorem State.setSlk_cxh (x : SlkH) : (s.setSlk x).cxh = s.cxh := rfl
@[simp] theorem State.setSlk_cal (x : SlkH) : (s.setSlk x).cal = s.cal := rfl
@[simp] theorem State.setSlk_sme (x : SlkH) : (s.setSlk x).sme = s.sme := rfl
@[simp] theorem State.setSlk_long (x : SlkH) : (s.setSlk x).long = s.long := rfl
@[simp] theorem State.setSlk_trainLeft (x : SlkH) : (s.setSlk x).trainLeft = s.trainLeft := rfl
@[simp] theorem State.setSlk_trainCodes (x : SlkH) : (s.setSlk x).trainCodes = s.trainCodes := rfl
@[simp] theorem State.setSlk_load (x : SlkH) : (s.setSlk x).load = s.load := rfl
@[simp] theorem State.setSlk_lineHold (x : SlkH) : (s.setSlk x).lineHold = s.lineHold := rfl
@[simp] theorem State.setSlk_sec (x : SlkH) : (s.setSlk x).sec = s.sec := rfl
@[simp] theorem State.setSlk_net (x : SlkH) : (s.setSlk x).net = s.net := rfl
@[simp] theorem State.setSlk_evc (x : SlkH) : (s.setSlk x).evc = s.evc := rfl
@[simp] theorem State.setSlk_pwr (x : SlkH) : (s.setSlk x).pwr = s.pwr := rfl
@[simp] theorem State.setSlk_peb (x : SlkH) : (s.setSlk x).peb = s.peb := rfl
@[simp] theorem State.setSlk_jtag (x : SlkH) : (s.setSlk x).jtag = s.jtag := rfl
@[simp] theorem State.setSlk_boot (x : SlkH) : (s.setSlk x).boot = s.boot := rfl
@[simp] theorem State.setSlk_fresh (x : SlkH) : (s.setSlk x).fresh = s.fresh := rfl

/-! ## `setSec` -/

@[simp] theorem State.setSec_pending (x : SecH) : (s.setSec x).pending = s.pending := rfl
@[simp] theorem State.setSec_csr (x : SecH) : (s.setSec x).csr = s.csr := rfl
@[simp] theorem State.setSec_mem (x : SecH) : (s.setSec x).mem = s.mem := rfl
@[simp] theorem State.setSec_shadow (x : SecH) : (s.setSec x).shadow = s.shadow := rfl
@[simp] theorem State.setSec_stagedLo (x : SecH) : (s.setSec x).stagedLo = s.stagedLo := rfl
@[simp] theorem State.setSec_waits (x : SecH) : (s.setSec x).waits = s.waits := rfl
@[simp] theorem State.setSec_csrWait (x : SecH) : (s.setSec x).csrWait = s.csrWait := rfl
@[simp] theorem State.setSec_raised (x : SecH) : (s.setSec x).raised = s.raised := rfl
@[simp] theorem State.setSec_pulses (x : SecH) : (s.setSec x).pulses = s.pulses := rfl
@[simp] theorem State.setSec_port (x : SecH) : (s.setSec x).port = s.port := rfl
@[simp] theorem State.setSec_seq (x : SecH) : (s.setSec x).seq = s.seq := rfl
@[simp] theorem State.setSec_acq (x : SecH) : (s.setSec x).acq = s.acq := rfl
@[simp] theorem State.setSec_tim (x : SecH) : (s.setSec x).tim = s.tim := rfl
@[simp] theorem State.setSec_x7 (x : SecH) : (s.setSec x).x7 = s.x7 := rfl
@[simp] theorem State.setSec_wfg (x : SecH) : (s.setSec x).wfg = s.wfg := rfl
@[simp] theorem State.setSec_pdac (x : SecH) : (s.setSec x).pdac = s.pdac := rfl
@[simp] theorem State.setSec_fab (x : SecH) : (s.setSec x).fab = s.fab := rfl
@[simp] theorem State.setSec_fabWait (x : SecH) : (s.setSec x).fabWait = s.fabWait := rfl
@[simp] theorem State.setSec_hop (x : SecH) : (s.setSec x).hop = s.hop := rfl
@[simp] theorem State.setSec_tagLast (x : SecH) : (s.setSec x).tagLast = s.tagLast := rfl
@[simp] theorem State.setSec_outLast (x : SecH) : (s.setSec x).outLast = s.outLast := rfl
@[simp] theorem State.setSec_dpl (x : SecH) : (s.setSec x).dpl = s.dpl := rfl
@[simp] theorem State.setSec_tmb (x : SecH) : (s.setSec x).tmb = s.tmb := rfl
@[simp] theorem State.setSec_voteQ (x : SecH) : (s.setSec x).voteQ = s.voteQ := rfl
@[simp] theorem State.setSec_useTab (x : SecH) : (s.setSec x).useTab = s.useTab := rfl
@[simp] theorem State.setSec_receipts (x : SecH) : (s.setSec x).receipts = s.receipts := rfl
@[simp] theorem State.setSec_cs (x : SecH) : (s.setSec x).cs = s.cs := rfl
@[simp] theorem State.setSec_slk (x : SecH) : (s.setSec x).slk = s.slk := rfl
@[simp] theorem State.setSec_siteOut (x : SecH) : (s.setSec x).siteOut = s.siteOut := rfl
@[simp] theorem State.setSec_sch (x : SecH) : (s.setSec x).sch = s.sch := rfl
@[simp] theorem State.setSec_dmc (x : SecH) : (s.setSec x).dmc = s.dmc := rfl
@[simp] theorem State.setSec_cxh (x : SecH) : (s.setSec x).cxh = s.cxh := rfl
@[simp] theorem State.setSec_cal (x : SecH) : (s.setSec x).cal = s.cal := rfl
@[simp] theorem State.setSec_sme (x : SecH) : (s.setSec x).sme = s.sme := rfl
@[simp] theorem State.setSec_long (x : SecH) : (s.setSec x).long = s.long := rfl
@[simp] theorem State.setSec_trainLeft (x : SecH) : (s.setSec x).trainLeft = s.trainLeft := rfl
@[simp] theorem State.setSec_trainCodes (x : SecH) : (s.setSec x).trainCodes = s.trainCodes := rfl
@[simp] theorem State.setSec_load (x : SecH) : (s.setSec x).load = s.load := rfl
@[simp] theorem State.setSec_lineHold (x : SecH) : (s.setSec x).lineHold = s.lineHold := rfl
@[simp] theorem State.setSec_sec (x : SecH) : (s.setSec x).sec = x := rfl
@[simp] theorem State.setSec_net (x : SecH) : (s.setSec x).net = s.net := rfl
@[simp] theorem State.setSec_evc (x : SecH) : (s.setSec x).evc = s.evc := rfl
@[simp] theorem State.setSec_pwr (x : SecH) : (s.setSec x).pwr = s.pwr := rfl
@[simp] theorem State.setSec_peb (x : SecH) : (s.setSec x).peb = s.peb := rfl
@[simp] theorem State.setSec_jtag (x : SecH) : (s.setSec x).jtag = s.jtag := rfl
@[simp] theorem State.setSec_boot (x : SecH) : (s.setSec x).boot = s.boot := rfl
@[simp] theorem State.setSec_fresh (x : SecH) : (s.setSec x).fresh = s.fresh := rfl

/-! ## `setNet` -/

@[simp] theorem State.setNet_pending (x : NetH) : (s.setNet x).pending = s.pending := rfl
@[simp] theorem State.setNet_csr (x : NetH) : (s.setNet x).csr = s.csr := rfl
@[simp] theorem State.setNet_mem (x : NetH) : (s.setNet x).mem = s.mem := rfl
@[simp] theorem State.setNet_shadow (x : NetH) : (s.setNet x).shadow = s.shadow := rfl
@[simp] theorem State.setNet_stagedLo (x : NetH) : (s.setNet x).stagedLo = s.stagedLo := rfl
@[simp] theorem State.setNet_waits (x : NetH) : (s.setNet x).waits = s.waits := rfl
@[simp] theorem State.setNet_csrWait (x : NetH) : (s.setNet x).csrWait = s.csrWait := rfl
@[simp] theorem State.setNet_raised (x : NetH) : (s.setNet x).raised = s.raised := rfl
@[simp] theorem State.setNet_pulses (x : NetH) : (s.setNet x).pulses = s.pulses := rfl
@[simp] theorem State.setNet_port (x : NetH) : (s.setNet x).port = s.port := rfl
@[simp] theorem State.setNet_seq (x : NetH) : (s.setNet x).seq = s.seq := rfl
@[simp] theorem State.setNet_acq (x : NetH) : (s.setNet x).acq = s.acq := rfl
@[simp] theorem State.setNet_tim (x : NetH) : (s.setNet x).tim = s.tim := rfl
@[simp] theorem State.setNet_x7 (x : NetH) : (s.setNet x).x7 = s.x7 := rfl
@[simp] theorem State.setNet_wfg (x : NetH) : (s.setNet x).wfg = s.wfg := rfl
@[simp] theorem State.setNet_pdac (x : NetH) : (s.setNet x).pdac = s.pdac := rfl
@[simp] theorem State.setNet_fab (x : NetH) : (s.setNet x).fab = s.fab := rfl
@[simp] theorem State.setNet_fabWait (x : NetH) : (s.setNet x).fabWait = s.fabWait := rfl
@[simp] theorem State.setNet_hop (x : NetH) : (s.setNet x).hop = s.hop := rfl
@[simp] theorem State.setNet_tagLast (x : NetH) : (s.setNet x).tagLast = s.tagLast := rfl
@[simp] theorem State.setNet_outLast (x : NetH) : (s.setNet x).outLast = s.outLast := rfl
@[simp] theorem State.setNet_dpl (x : NetH) : (s.setNet x).dpl = s.dpl := rfl
@[simp] theorem State.setNet_tmb (x : NetH) : (s.setNet x).tmb = s.tmb := rfl
@[simp] theorem State.setNet_voteQ (x : NetH) : (s.setNet x).voteQ = s.voteQ := rfl
@[simp] theorem State.setNet_useTab (x : NetH) : (s.setNet x).useTab = s.useTab := rfl
@[simp] theorem State.setNet_receipts (x : NetH) : (s.setNet x).receipts = s.receipts := rfl
@[simp] theorem State.setNet_cs (x : NetH) : (s.setNet x).cs = s.cs := rfl
@[simp] theorem State.setNet_slk (x : NetH) : (s.setNet x).slk = s.slk := rfl
@[simp] theorem State.setNet_siteOut (x : NetH) : (s.setNet x).siteOut = s.siteOut := rfl
@[simp] theorem State.setNet_sch (x : NetH) : (s.setNet x).sch = s.sch := rfl
@[simp] theorem State.setNet_dmc (x : NetH) : (s.setNet x).dmc = s.dmc := rfl
@[simp] theorem State.setNet_cxh (x : NetH) : (s.setNet x).cxh = s.cxh := rfl
@[simp] theorem State.setNet_cal (x : NetH) : (s.setNet x).cal = s.cal := rfl
@[simp] theorem State.setNet_sme (x : NetH) : (s.setNet x).sme = s.sme := rfl
@[simp] theorem State.setNet_long (x : NetH) : (s.setNet x).long = s.long := rfl
@[simp] theorem State.setNet_trainLeft (x : NetH) : (s.setNet x).trainLeft = s.trainLeft := rfl
@[simp] theorem State.setNet_trainCodes (x : NetH) : (s.setNet x).trainCodes = s.trainCodes := rfl
@[simp] theorem State.setNet_load (x : NetH) : (s.setNet x).load = s.load := rfl
@[simp] theorem State.setNet_lineHold (x : NetH) : (s.setNet x).lineHold = s.lineHold := rfl
@[simp] theorem State.setNet_sec (x : NetH) : (s.setNet x).sec = s.sec := rfl
@[simp] theorem State.setNet_net (x : NetH) : (s.setNet x).net = x := rfl
@[simp] theorem State.setNet_evc (x : NetH) : (s.setNet x).evc = s.evc := rfl
@[simp] theorem State.setNet_pwr (x : NetH) : (s.setNet x).pwr = s.pwr := rfl
@[simp] theorem State.setNet_peb (x : NetH) : (s.setNet x).peb = s.peb := rfl
@[simp] theorem State.setNet_jtag (x : NetH) : (s.setNet x).jtag = s.jtag := rfl
@[simp] theorem State.setNet_boot (x : NetH) : (s.setNet x).boot = s.boot := rfl
@[simp] theorem State.setNet_fresh (x : NetH) : (s.setNet x).fresh = s.fresh := rfl

/-! ## `setCal` -/

@[simp] theorem State.setCal_pending (x : CalH) : (s.setCal x).pending = s.pending := rfl
@[simp] theorem State.setCal_csr (x : CalH) : (s.setCal x).csr = s.csr := rfl
@[simp] theorem State.setCal_mem (x : CalH) : (s.setCal x).mem = s.mem := rfl
@[simp] theorem State.setCal_shadow (x : CalH) : (s.setCal x).shadow = s.shadow := rfl
@[simp] theorem State.setCal_stagedLo (x : CalH) : (s.setCal x).stagedLo = s.stagedLo := rfl
@[simp] theorem State.setCal_waits (x : CalH) : (s.setCal x).waits = s.waits := rfl
@[simp] theorem State.setCal_csrWait (x : CalH) : (s.setCal x).csrWait = s.csrWait := rfl
@[simp] theorem State.setCal_raised (x : CalH) : (s.setCal x).raised = s.raised := rfl
@[simp] theorem State.setCal_pulses (x : CalH) : (s.setCal x).pulses = s.pulses := rfl
@[simp] theorem State.setCal_port (x : CalH) : (s.setCal x).port = s.port := rfl
@[simp] theorem State.setCal_seq (x : CalH) : (s.setCal x).seq = s.seq := rfl
@[simp] theorem State.setCal_acq (x : CalH) : (s.setCal x).acq = s.acq := rfl
@[simp] theorem State.setCal_tim (x : CalH) : (s.setCal x).tim = s.tim := rfl
@[simp] theorem State.setCal_x7 (x : CalH) : (s.setCal x).x7 = s.x7 := rfl
@[simp] theorem State.setCal_wfg (x : CalH) : (s.setCal x).wfg = s.wfg := rfl
@[simp] theorem State.setCal_pdac (x : CalH) : (s.setCal x).pdac = s.pdac := rfl
@[simp] theorem State.setCal_fab (x : CalH) : (s.setCal x).fab = s.fab := rfl
@[simp] theorem State.setCal_fabWait (x : CalH) : (s.setCal x).fabWait = s.fabWait := rfl
@[simp] theorem State.setCal_hop (x : CalH) : (s.setCal x).hop = s.hop := rfl
@[simp] theorem State.setCal_tagLast (x : CalH) : (s.setCal x).tagLast = s.tagLast := rfl
@[simp] theorem State.setCal_outLast (x : CalH) : (s.setCal x).outLast = s.outLast := rfl
@[simp] theorem State.setCal_dpl (x : CalH) : (s.setCal x).dpl = s.dpl := rfl
@[simp] theorem State.setCal_tmb (x : CalH) : (s.setCal x).tmb = s.tmb := rfl
@[simp] theorem State.setCal_voteQ (x : CalH) : (s.setCal x).voteQ = s.voteQ := rfl
@[simp] theorem State.setCal_useTab (x : CalH) : (s.setCal x).useTab = s.useTab := rfl
@[simp] theorem State.setCal_receipts (x : CalH) : (s.setCal x).receipts = s.receipts := rfl
@[simp] theorem State.setCal_cs (x : CalH) : (s.setCal x).cs = s.cs := rfl
@[simp] theorem State.setCal_slk (x : CalH) : (s.setCal x).slk = s.slk := rfl
@[simp] theorem State.setCal_siteOut (x : CalH) : (s.setCal x).siteOut = s.siteOut := rfl
@[simp] theorem State.setCal_sch (x : CalH) : (s.setCal x).sch = s.sch := rfl
@[simp] theorem State.setCal_dmc (x : CalH) : (s.setCal x).dmc = s.dmc := rfl
@[simp] theorem State.setCal_cxh (x : CalH) : (s.setCal x).cxh = s.cxh := rfl
@[simp] theorem State.setCal_cal (x : CalH) : (s.setCal x).cal = x := rfl
@[simp] theorem State.setCal_sme (x : CalH) : (s.setCal x).sme = s.sme := rfl
@[simp] theorem State.setCal_long (x : CalH) : (s.setCal x).long = s.long := rfl
@[simp] theorem State.setCal_trainLeft (x : CalH) : (s.setCal x).trainLeft = s.trainLeft := rfl
@[simp] theorem State.setCal_trainCodes (x : CalH) : (s.setCal x).trainCodes = s.trainCodes := rfl
@[simp] theorem State.setCal_load (x : CalH) : (s.setCal x).load = s.load := rfl
@[simp] theorem State.setCal_lineHold (x : CalH) : (s.setCal x).lineHold = s.lineHold := rfl
@[simp] theorem State.setCal_sec (x : CalH) : (s.setCal x).sec = s.sec := rfl
@[simp] theorem State.setCal_net (x : CalH) : (s.setCal x).net = s.net := rfl
@[simp] theorem State.setCal_evc (x : CalH) : (s.setCal x).evc = s.evc := rfl
@[simp] theorem State.setCal_pwr (x : CalH) : (s.setCal x).pwr = s.pwr := rfl
@[simp] theorem State.setCal_peb (x : CalH) : (s.setCal x).peb = s.peb := rfl
@[simp] theorem State.setCal_jtag (x : CalH) : (s.setCal x).jtag = s.jtag := rfl
@[simp] theorem State.setCal_boot (x : CalH) : (s.setCal x).boot = s.boot := rfl
@[simp] theorem State.setCal_fresh (x : CalH) : (s.setCal x).fresh = s.fresh := rfl

/-! ## `setJtag` -/

@[simp] theorem State.setJtag_pending (x : JtagH) : (s.setJtag x).pending = s.pending := rfl
@[simp] theorem State.setJtag_csr (x : JtagH) : (s.setJtag x).csr = s.csr := rfl
@[simp] theorem State.setJtag_mem (x : JtagH) : (s.setJtag x).mem = s.mem := rfl
@[simp] theorem State.setJtag_shadow (x : JtagH) : (s.setJtag x).shadow = s.shadow := rfl
@[simp] theorem State.setJtag_stagedLo (x : JtagH) : (s.setJtag x).stagedLo = s.stagedLo := rfl
@[simp] theorem State.setJtag_waits (x : JtagH) : (s.setJtag x).waits = s.waits := rfl
@[simp] theorem State.setJtag_csrWait (x : JtagH) : (s.setJtag x).csrWait = s.csrWait := rfl
@[simp] theorem State.setJtag_raised (x : JtagH) : (s.setJtag x).raised = s.raised := rfl
@[simp] theorem State.setJtag_pulses (x : JtagH) : (s.setJtag x).pulses = s.pulses := rfl
@[simp] theorem State.setJtag_port (x : JtagH) : (s.setJtag x).port = s.port := rfl
@[simp] theorem State.setJtag_seq (x : JtagH) : (s.setJtag x).seq = s.seq := rfl
@[simp] theorem State.setJtag_acq (x : JtagH) : (s.setJtag x).acq = s.acq := rfl
@[simp] theorem State.setJtag_tim (x : JtagH) : (s.setJtag x).tim = s.tim := rfl
@[simp] theorem State.setJtag_x7 (x : JtagH) : (s.setJtag x).x7 = s.x7 := rfl
@[simp] theorem State.setJtag_wfg (x : JtagH) : (s.setJtag x).wfg = s.wfg := rfl
@[simp] theorem State.setJtag_pdac (x : JtagH) : (s.setJtag x).pdac = s.pdac := rfl
@[simp] theorem State.setJtag_fab (x : JtagH) : (s.setJtag x).fab = s.fab := rfl
@[simp] theorem State.setJtag_fabWait (x : JtagH) : (s.setJtag x).fabWait = s.fabWait := rfl
@[simp] theorem State.setJtag_hop (x : JtagH) : (s.setJtag x).hop = s.hop := rfl
@[simp] theorem State.setJtag_tagLast (x : JtagH) : (s.setJtag x).tagLast = s.tagLast := rfl
@[simp] theorem State.setJtag_outLast (x : JtagH) : (s.setJtag x).outLast = s.outLast := rfl
@[simp] theorem State.setJtag_dpl (x : JtagH) : (s.setJtag x).dpl = s.dpl := rfl
@[simp] theorem State.setJtag_tmb (x : JtagH) : (s.setJtag x).tmb = s.tmb := rfl
@[simp] theorem State.setJtag_voteQ (x : JtagH) : (s.setJtag x).voteQ = s.voteQ := rfl
@[simp] theorem State.setJtag_useTab (x : JtagH) : (s.setJtag x).useTab = s.useTab := rfl
@[simp] theorem State.setJtag_receipts (x : JtagH) : (s.setJtag x).receipts = s.receipts := rfl
@[simp] theorem State.setJtag_cs (x : JtagH) : (s.setJtag x).cs = s.cs := rfl
@[simp] theorem State.setJtag_slk (x : JtagH) : (s.setJtag x).slk = s.slk := rfl
@[simp] theorem State.setJtag_siteOut (x : JtagH) : (s.setJtag x).siteOut = s.siteOut := rfl
@[simp] theorem State.setJtag_sch (x : JtagH) : (s.setJtag x).sch = s.sch := rfl
@[simp] theorem State.setJtag_dmc (x : JtagH) : (s.setJtag x).dmc = s.dmc := rfl
@[simp] theorem State.setJtag_cxh (x : JtagH) : (s.setJtag x).cxh = s.cxh := rfl
@[simp] theorem State.setJtag_cal (x : JtagH) : (s.setJtag x).cal = s.cal := rfl
@[simp] theorem State.setJtag_sme (x : JtagH) : (s.setJtag x).sme = s.sme := rfl
@[simp] theorem State.setJtag_long (x : JtagH) : (s.setJtag x).long = s.long := rfl
@[simp] theorem State.setJtag_trainLeft (x : JtagH) : (s.setJtag x).trainLeft = s.trainLeft := rfl
@[simp] theorem State.setJtag_trainCodes (x : JtagH) : (s.setJtag x).trainCodes = s.trainCodes := rfl
@[simp] theorem State.setJtag_load (x : JtagH) : (s.setJtag x).load = s.load := rfl
@[simp] theorem State.setJtag_lineHold (x : JtagH) : (s.setJtag x).lineHold = s.lineHold := rfl
@[simp] theorem State.setJtag_sec (x : JtagH) : (s.setJtag x).sec = s.sec := rfl
@[simp] theorem State.setJtag_net (x : JtagH) : (s.setJtag x).net = s.net := rfl
@[simp] theorem State.setJtag_evc (x : JtagH) : (s.setJtag x).evc = s.evc := rfl
@[simp] theorem State.setJtag_pwr (x : JtagH) : (s.setJtag x).pwr = s.pwr := rfl
@[simp] theorem State.setJtag_peb (x : JtagH) : (s.setJtag x).peb = s.peb := rfl
@[simp] theorem State.setJtag_jtag (x : JtagH) : (s.setJtag x).jtag = x := rfl
@[simp] theorem State.setJtag_boot (x : JtagH) : (s.setJtag x).boot = s.boot := rfl
@[simp] theorem State.setJtag_fresh (x : JtagH) : (s.setJtag x).fresh = s.fresh := rfl

/-! ## `atStage` -/

@[simp] theorem State.atStage_pending (n : Nat) : (s.atStage n).pending = s.pending := rfl
@[simp] theorem State.atStage_csr (n : Nat) : (s.atStage n).csr = s.csr := rfl
@[simp] theorem State.atStage_mem (n : Nat) : (s.atStage n).mem = s.mem := rfl
@[simp] theorem State.atStage_shadow (n : Nat) : (s.atStage n).shadow = s.shadow := rfl
@[simp] theorem State.atStage_stagedLo (n : Nat) : (s.atStage n).stagedLo = s.stagedLo := rfl
@[simp] theorem State.atStage_waits (n : Nat) : (s.atStage n).waits = s.waits := rfl
@[simp] theorem State.atStage_csrWait (n : Nat) : (s.atStage n).csrWait = s.csrWait := rfl
@[simp] theorem State.atStage_raised (n : Nat) : (s.atStage n).raised = s.raised := rfl
@[simp] theorem State.atStage_pulses (n : Nat) : (s.atStage n).pulses = s.pulses := rfl
@[simp] theorem State.atStage_port (n : Nat) : (s.atStage n).port = s.port := rfl
@[simp] theorem State.atStage_seq (n : Nat) : (s.atStage n).seq = s.seq := rfl
@[simp] theorem State.atStage_acq (n : Nat) : (s.atStage n).acq = s.acq := rfl
@[simp] theorem State.atStage_tim (n : Nat) : (s.atStage n).tim = s.tim := rfl
@[simp] theorem State.atStage_x7 (n : Nat) : (s.atStage n).x7 = s.x7 := rfl
@[simp] theorem State.atStage_wfg (n : Nat) : (s.atStage n).wfg = s.wfg := rfl
@[simp] theorem State.atStage_pdac (n : Nat) : (s.atStage n).pdac = s.pdac := rfl
@[simp] theorem State.atStage_fab (n : Nat) : (s.atStage n).fab = s.fab := rfl
@[simp] theorem State.atStage_fabWait (n : Nat) : (s.atStage n).fabWait = s.fabWait := rfl
@[simp] theorem State.atStage_hop (n : Nat) : (s.atStage n).hop = s.hop := rfl
@[simp] theorem State.atStage_tagLast (n : Nat) : (s.atStage n).tagLast = s.tagLast := rfl
@[simp] theorem State.atStage_outLast (n : Nat) : (s.atStage n).outLast = s.outLast := rfl
@[simp] theorem State.atStage_dpl (n : Nat) : (s.atStage n).dpl = s.dpl := rfl
@[simp] theorem State.atStage_tmb (n : Nat) : (s.atStage n).tmb = s.tmb := rfl
@[simp] theorem State.atStage_voteQ (n : Nat) : (s.atStage n).voteQ = s.voteQ := rfl
@[simp] theorem State.atStage_useTab (n : Nat) : (s.atStage n).useTab = s.useTab := rfl
@[simp] theorem State.atStage_receipts (n : Nat) : (s.atStage n).receipts = s.receipts := rfl
@[simp] theorem State.atStage_cs (n : Nat) : (s.atStage n).cs = s.cs := rfl
@[simp] theorem State.atStage_slk (n : Nat) : (s.atStage n).slk = s.slk := rfl
@[simp] theorem State.atStage_siteOut (n : Nat) : (s.atStage n).siteOut = s.siteOut := rfl
@[simp] theorem State.atStage_sch (n : Nat) : (s.atStage n).sch = s.sch := rfl
@[simp] theorem State.atStage_dmc (n : Nat) : (s.atStage n).dmc = s.dmc := rfl
@[simp] theorem State.atStage_cxh (n : Nat) : (s.atStage n).cxh = s.cxh := rfl
@[simp] theorem State.atStage_cal (n : Nat) : (s.atStage n).cal = s.cal := rfl
@[simp] theorem State.atStage_sme (n : Nat) : (s.atStage n).sme = s.sme := rfl
@[simp] theorem State.atStage_long (n : Nat) : (s.atStage n).long = s.long := rfl
@[simp] theorem State.atStage_trainLeft (n : Nat) : (s.atStage n).trainLeft = s.trainLeft := rfl
@[simp] theorem State.atStage_trainCodes (n : Nat) : (s.atStage n).trainCodes = s.trainCodes := rfl
@[simp] theorem State.atStage_load (n : Nat) : (s.atStage n).load = s.load := rfl
@[simp] theorem State.atStage_lineHold (n : Nat) : (s.atStage n).lineHold = s.lineHold := rfl
@[simp] theorem State.atStage_sec (n : Nat) : (s.atStage n).sec = s.sec := rfl
@[simp] theorem State.atStage_net (n : Nat) : (s.atStage n).net = s.net := rfl
@[simp] theorem State.atStage_evc (n : Nat) : (s.atStage n).evc = s.evc := rfl
@[simp] theorem State.atStage_pwr (n : Nat) : (s.atStage n).pwr = s.pwr := rfl
@[simp] theorem State.atStage_peb (n : Nat) : (s.atStage n).peb = s.peb := rfl
@[simp] theorem State.atStage_jtag (n : Nat) : (s.atStage n).jtag = s.jtag := rfl
@[simp] theorem State.atStage_fresh (n : Nat) : (s.atStage n).fresh = s.fresh := rfl

end Sys2Proof.Machine
end

