-- ==== Sys2Proof/Machine/Package.lean ====
section
/-! DEFINITION. The package: which signal or supply each ball holds (R511 to R515), and the cells of the boundary register (R532). No
command changes any of it. -/

namespace Sys2Proof.Machine

/-- The supplies of R513 to R515; VBAT is a single ball of Table 18.3. -/
inductive Supply where
  | vss | vddPin | vddCore | vddqDdr | vddSerdes | vddSram | vddAn | vddHsdac | vddPdac | vssPdac
  deriving DecidableEq, Repr

/-- The signals of one subchannel of a DDR channel, in the order of Table 18.3. -/
inductive DdrBall where
  | dq (i : Nat) | cb (i : Nat) | dqs (i : Nat) (neg : Bool) | ca (i : Nat) | cs (i : Nat) | ck (neg : Bool)
  deriving DecidableEq, Repr

/-- The signals of Tables 18.2 and 18.3; `neg` marks the _N ball of a pair, port and subchannel 0 are A. -/
inductive Ball where
  | supply (s : Supply)
  | drv (pin : Nat) (neg : Bool) | den (pin : Nat) (neg : Bool) | cmph (pin : Nat) (neg : Bool) | cmpl (pin : Nat) (neg : Bool)
  | ddr (chan sub : Nat) (b : DdrBall) | ddrReset (chan : Nat) | ddrAlert (chan : Nat)
  | cxlTx (lane : Nat) (neg : Bool) | cxlRx (lane : Nat) (neg : Bool) | cxlRefclk (neg : Bool) | cxlPerst (half : Nat) | cxlPrsnt (half : Nat)
  | pebSck (bus : Nat) | pebMosi (bus : Nat) | pebMiso (bus : Nat) | pebCs (bus sel : Nat) | peReady (bus : Nat) | peAlert (bus : Nat)
  | wfgOut (wfg : Nat) (neg : Bool) | mkr (k : Nat) | pdacOut (k : Nat)
  | ethTx (port lane : Nat) (neg : Bool) | ethRx (port lane : Nat) (neg : Bool) | siteOut (neg : Bool) | siteIn (neg : Bool)
  | evtIn (k : Nat) | evtOut (k : Nat) | timIn (k : Nat) | refIn (neg : Bool) | epochIn | lockPulse | lockSense | alertN | rstN | vbat
  | vrefCap | qspiSck | qspiCs | qspiIo (k : Nat) | tck | tms | tdi | tdo | trstN
  deriving DecidableEq, Repr

/-- Both balls of a pair, _P first. -/
def pairBalls (f : Bool → Ball) : List Ball := [f false, f true]

/-- The ball at position (dr, dc) of the tile of pin `p` (R512): row and column. -/
def tileBall (p dr dc : Nat) : Nat × Nat :=
  let i := p % 128
  (if p < 128 then 3 * (i / 21) + 1 + dr else 63 - 3 * (i / 21) - dr, 3 * (i % 21) + 1 + dc)

/-- What the tile of pin `p` holds at (dr, dc) (Table 18.2). -/
def tileSignal (p dr dc : Nat) : Ball :=
  match dr, dc with
  | 0, 0 => .drv p false
  | 0, 1 => .drv p true
  | 0, _ => .den p false
  | 1, 0 => .cmph p false
  | 1, 1 => .supply .vss
  | 1, _ => .den p true
  | _, 0 => .cmph p true
  | _, 1 => .cmpl p false
  | _, _ => .cmpl p true

/-- Rows 1 to 21 and 43 to 63: pin tiles, and the spare tiles i = 128 to 146 (R512, R513). -/
def tileAt (row col : Nat) : Ball :=
  let r := if row ≤ 21 then (row - 1) / 3 else (63 - row) / 3
  let dr := if row ≤ 21 then (row - 1) % 3 else (63 - row) % 3
  let i := 21 * r + (col - 1) / 3
  let dc := (col - 1) % 3
  if i < 128 then tileSignal (if row ≤ 21 then i else 128 + i) dr dc
  else if dr = 1 ∧ dc = 1 then .supply .vss
  else .supply .vddPin

/-- The signals of DDR channel `c` (Table 18.3). -/
def ddrBalls (c : Nat) : List Ball :=
  (List.range 2).flatMap (fun (x : Nat) =>
    ((List.range 32).map DdrBall.dq ++ (List.range 8).map DdrBall.cb ++
      (List.range 10).flatMap (fun (d : Nat) => [DdrBall.dqs d false, DdrBall.dqs d true]) ++ (List.range 14).map DdrBall.ca ++
      [DdrBall.cs 0, DdrBall.cs 1, DdrBall.ck false, DdrBall.ck true]).map (Ball.ddr c x)) ++
  [.ddrReset c, .ddrAlert c]

/-- The signals of the CXL region (Table 18.3). -/
def cxlBalls : List Ball :=
  (List.range 16).flatMap (fun (l : Nat) => pairBalls (.cxlTx l) ++ pairBalls (.cxlRx l)) ++ pairBalls .cxlRefclk ++
  [.cxlPerst 0, .cxlPerst 1, .cxlPrsnt 0, .cxlPrsnt 1]

/-- The signals of the region of the PEB buses and outputs (Table 18.3). -/
def pebBalls : List Ball :=
  (List.range 8).flatMap (fun (b : Nat) =>
    [.pebSck b, .pebMosi b, .pebMiso b] ++ (List.range 8).map (Ball.pebCs b) ++ [.peReady b, .peAlert b]) ++
  (List.range 4).flatMap (fun (m : Nat) => pairBalls (.wfgOut m)) ++ (List.range 16).map Ball.mkr ++ (List.range 16).map Ball.pdacOut

/-- The signals of the system region (Table 18.3). -/
def systemBalls : List Ball :=
  (List.range 2).flatMap (fun (p : Nat) => (List.range 4).flatMap fun (l : Nat) => pairBalls (.ethTx p l) ++ pairBalls (.ethRx p l)) ++
  pairBalls .siteOut ++ pairBalls .siteIn ++ (List.range 8).map Ball.evtIn ++ (List.range 8).map Ball.evtOut ++
  (List.range 4).map Ball.timIn ++ pairBalls .refIn ++
  [.epochIn, .lockPulse, .lockSense, .alertN, .rstN, .vbat, .vrefCap, .qspiSck, .qspiCs] ++ (List.range 4).map Ball.qspiIo ++
  [.tck, .tms, .tdi, .tdo, .trstN]

/-- A region of the middle rows, filled in row-major order from its first ball, the rest a supply (R514). -/
def regionAt (signals : List Ball) (rest : Supply) (row0 col0 width row col : Nat) : Ball :=
  (signals[(row - row0) * width + (col - col0)]?).getD (.supply rest)

/-- The supply region of rows 30 to 34 (R515). -/
def supplyColumn (col : Nat) : Supply :=
  if col ≤ 22 then .vddSerdes
  else if col ≤ 26 then .vddqDdr
  else if col ≤ 30 then .vddSram
  else if col ≤ 33 then .vddAn
  else if col ≤ 35 then .vddHsdac
  else if col ≤ 45 then .vss
  else if col = 46 then .vddPdac
  else .vssPdac

/-- What ball row.column holds (Table 18.1), rows and columns 1 to 63; none outside the array (R511). -/
def ballAt (row col : Nat) : Option Ball :=
  if row = 0 ∨ 63 < row ∨ col = 0 ∨ 63 < col then none
  else if row ≤ 21 ∨ 43 ≤ row then some (tileAt row col)
  else if row ≤ 29 then
    some (if col ≤ 21 then regionAt (ddrBalls 0) .vddqDdr 22 1 21 row col
      else if col ≤ 42 then regionAt pebBalls .vss 22 22 21 row col
      else regionAt (ddrBalls 1) .vddqDdr 22 43 21 row col)
  else if row ≤ 34 then
    some (if col ≤ 16 then regionAt cxlBalls .vss 30 1 16 row col
      else if col ≤ 47 then .supply (supplyColumn col)
      else regionAt systemBalls .vss 30 48 16 row col)
  else
    some (if col ≤ 21 then regionAt (ddrBalls 2) .vddqDdr 35 1 21 row col
      else if col ≤ 42 then .supply (if (row + col) % 2 = 1 then .vddCore else .vss)
      else regionAt (ddrBalls 3) .vddqDdr 35 43 21 row col)

/-- The balls that carry cells of the boundary register (R532). -/
def hasCells : Ball → Bool
  | .epochIn | .evtIn _ | .evtOut _ | .pebSck _ | .pebMosi _ | .pebMiso _ | .pebCs _ _ | .peReady _ | .peAlert _ | .rstN
  | .qspiSck | .qspiCs | .qspiIo _ | .alertN | .mkr _ => true
  | .drv _ neg | .den _ neg | .cmph _ neg | .cmpl _ neg => !neg
  | _ => false

/-- The balls of the array, in ascending row and then ascending column order. -/
def allBalls : List (Nat × Nat) :=
  (List.range 63).flatMap fun (r : Nat) => (List.range 63).map fun (c : Nat) => (r + 1, c + 1)

/-- The positions of the boundary register, in its order from TDI; each has an input, an output and a control cell (R532). -/
def boundaryBalls : List (Nat × Nat) := allBalls.filter fun (x : Nat × Nat) => (ballAt x.1 x.2).any hasCells

end Sys2Proof.Machine
end

