-- ==== Sys2Proof/Tests/Slice0.lean ====
section
/-! SUPPORT. The model's own tests: ill-formed operands that are refused, figures of the spec, and for every statement small states that
meet the hypotheses of each of its clauses. -/

namespace Sys2Proof.Tests

open Sys2Proof Sys2Proof.Machine

set_option Elab.async false

/-- The reset state with every switched domain on and the fields of a list set. -/
def mk (l : List (Fld × Nat)) : State :=
  ((⟨PWR_STATE_LO, 0, 32⟩, 0xFFFFFFFF) :: (⟨PWR_STATE_HI, 0, 12⟩, 0xFFF) :: l).foldl
    (fun (a : State) (x : Fld × Nat) => a.put x.1 x.2) State.reset

/-- The key pair that signs in these tests: the public point, and a signature as r and s. -/
def signer : List Byte :=
  beBytes 0x2CA8C560F92280756D4D4E5903043A370532B246669E6110B033F9AB150D51863208E24BD70CE3738D027638BBD54CD2 48 ++
  beBytes 0x1FC91A81A4CD7EA2AB6C205986767E830926C1BBF7EFF71C25A2245D787DD8CC01731DB7C2D9B1F4AB7CE1959C83624F 48

def sigOf (r s : Nat) : List Byte := beBytes r 48 ++ beBytes s 48

/-! ## Ill-formed operands: every check of Instr.wf refuses its own term -/

/-- Frames with one field past its place in the datagram (Table 14.2). -/
def overlong : List Rx :=
  [{ port := 2 }, { mac := 2 ^ 48 }, { ip := 2 ^ 128 }, { uport := 2 ^ 16 }, { len := 2 ^ 16 }, { magic := 2 ^ 16 },
    { version := 2 ^ 8 }, { flags := 2 ^ 8 }, { session := 2 ^ 8 }, { channel := 2 ^ 8 }, { seq := 2 ^ 32 }, { ack := 2 ^ 32 },
    { sack := 2 ^ 32 }, { credit := 2 ^ 32 }, { length := 2 ^ 16 }, { sid := 2 ^ 32 }, { txc := 2 ^ 32 },
    { payload := List.replicate (2 ^ 16) 0 }]

theorem test_wf_frames : (∀ x ∈ overlong, x.wf = false) ∧ ({} : Rx).wf = true := by decide +kernel

/-- Every command that carries a received frame. -/
def framed : List (Rx → Instr) :=
  [.structLoad, .ddrFullTrain, .hello, .confirm, .ack, .keepalive, .close, .probe, .csrRead, .csrWrite, .getCert, .warmReset, .calFull,
    .fwUpdate, .scrubFull, .enrol, .zeroize, .bulkWrite, .bulkRead, .unknownOpcode, .getOwner, .getChallenge, .loadKey, .clearKey,
    .rucksackOpen, .rucksackClose, .getReceipt, .tamperLog, .setPolicy, .unsealDevice, .release]

theorem test_wf_framed_commands : ∀ f ∈ framed, (f { port := 2 }).wf = false ∧ (f {}).wf = true := by decide

theorem test_wf_addresses :
    (Instr.registerWrite 0x10000000 0).wf = false ∧ (Instr.fabricRequest 0 (2 ^ 64) none 0).wf = false ∧
    (Instr.fabricResponse 0 (2 ^ 64) 0 false).wf = false ∧ (Instr.pageAuthDone 0 0 (2 ^ 64)).wf = false ∧
    (Instr.retentionReturn 0 false 0 (2 ^ 64)).wf = false ∧ (Instr.registerWrite 0x0FFFFFFF 0).wf = true := by decide

theorem test_wf_link_frames :
    ∀ f ∈ [Instr.announce, Instr.vote, Instr.abandon, Instr.linkBreak, Instr.trailheadFrame],
      (f (List.replicate 65 0) true).wf = false ∧ (f (List.replicate 64 0) true).wf = true := by decide

theorem test_wf_results :
    (Instr.cxlSetupResult 0 17 2 0 true 0 0).wf = false ∧ (Instr.cxlSetupResult 0 16 3 0 true 0 0).wf = false ∧
    (Instr.cxlSetupResult 0 16 2 7 true 0 0).wf = false ∧ (Instr.cxlSetupResult 0 16 2 6 true 0 0).wf = true ∧
    (Instr.pebTxnDone 0 (List.replicate 33 0)).wf = false ∧ (Instr.pebAbort 0 (List.replicate 33 0)).wf = false ∧
    (Instr.secUnlock (List.replicate 95 0)).wf = false ∧ (Instr.secUnlock (List.replicate 97 0)).wf = false := by decide

theorem test_wf_addresses_of_hosts :
    (Instr.arpRequest 0 (2 ^ 32) 0 0).wf = false ∧ (Instr.arpRequest 0 0 (2 ^ 48) 0).wf = false ∧
    (Instr.arpRequest 0 0 0 (2 ^ 32)).wf = false ∧ (Instr.neighbourSolicitation 0 (2 ^ 128) 0 0).wf = false ∧
    (Instr.neighbourSolicitation 0 0 (2 ^ 48) 0).wf = false ∧ (Instr.neighbourSolicitation 0 0 0 (2 ^ 128)).wf = false ∧
    (Instr.icmpEcho 0 true (2 ^ 128) 0 0 []).wf = false ∧ (Instr.icmpEcho 0 true 0 (2 ^ 48) 0 []).wf = false ∧
    (Instr.icmpEcho 0 true 0 0 (2 ^ 128) []).wf = false := by decide

/-! ## Witnesses: the queue, registers, fabric and structure loads -/

theorem witness_StepRunsTheQueue : ({ State.reset with pending := [.pebReady 7] } : State).pending = .pebReady 7 :: [] ∧
    State.reset.pending = [] := ⟨rfl, rfl⟩

theorem witness_CommandsLeaveTheQueue : ∃ t, exec (.pebReady 7) State.reset = .next t := ⟨_, rfl⟩

theorem witness_StepKeepsCanonicalForm : State.reset.canonical = true ∧ ∃ t, step State.reset = .next t := ⟨by decide, _, rfl⟩

theorem witness_ResetReadsResetColumn : regAt 1 = none ∧ ∃ b u o r, regAt TMB_NOW_LO = some (b, u, o, r) := ⟨by decide, _, _, _, _, rfl⟩

theorem witness_MemoryIsLeftAlone : storesNothing (.pebReady 7) = true ∧ ∃ t, exec (.pebReady 7) State.reset = .next t :=
  ⟨rfl, _, rfl⟩

/-- Domain PLL `d` settles, with a timeset word of port 7 waiting (Table 6.4: its clocks are gated). -/
def settling (d : Nat) : State := { mk [(DPL_STATUS_state d, 3)] with waits := [(TST_WORD 7 0 0 0, 5)] }

/-- That state when the domain of port 7 has settled. -/
def settled (s : State) : State :=
  ((((((s.put (DPL_STATUS_state 7) 4).put (DPL_STATUS_settling 7) 0).setDpl 7 { s.dpl[(7 : Fin 12)] with relock := false, cur := none }).stickyGo
    7).flushPort 7).x9Go 7)

/-- A CSR command of session 0 that waits with the write of that word. -/
def waitingCsr : CsrWait := { sess := 0, tag := 3, seq := 9, write := true, items := [(TST_WORD 7 0 0 0, 5)] }

theorem witness_RegisterWrites_errors :
    State.reset.csrError (PRT_SEQ_CTL 7) true = true ∧ State.reset.csrError (TIM_CTL 31) true = true ∧
    State.reset.csrError (ACQ_CTL 7) true = true ∧ State.reset.csrError (WFG_CTL 3) true = true ∧
    ((mk []).put PWR_STATE_HI_on 0).csrError CXH_CTL true = true ∧ ((mk []).put (DPL_STATUS_state 10) 7).csrError (WFG_CTL 2) true = true := by
  decide +kernel

theorem witness_RegisterWrites_plain :
    (mk []).waits = [] ∧ (mk []).csrError (OCT_PIN_CFG 31 7) true = false ∧ ((regAt (OCT_PIN_CFG 31 7)).map fun x => x.1) = some .oct ∧
    (mk []).csrError (TST_WORD 7 31 1 0) true = false ∧ ((regAt (TST_WORD 7 31 1 0)).map fun x => x.1) = some .tst ∧
    (mk []).csrError (SEG_WORD 0 0) true = false ∧ ((regAt (SEG_WORD 0 0)).map fun x => x.1) = some .seg ∧
    (mk []).csrError SME_PATCH true = false ∧ ((regAt SME_PATCH).map fun x => x.1) = some .sme ∧
    (mk []).writeWaits (OCT_PIN_CFG 31 7) 1 = false ∧ (mk []).writeWaits (TST_WORD 7 31 1 0) 1 = false ∧
    (mk []).writeWaits (SEG_WORD 0 0) 1 = false ∧ (mk []).writeWaits SME_PATCH 1 = false ∧
    (mk []).csrError STC_SWSTROBE true = false := by decide +kernel

theorem witness_RegisterWrites_wait :
    (settling 7).csrError (TST_WORD 7 0 0 0) true = false ∧ isFreezeCtl (TST_WORD 7 0 0 0) = false ∧ isClockCtl (TST_WORD 7 0 0 0) = false ∧
    (settling 7).writeWaits (TST_WORD 7 0 0 0) 5 = true ∧
    ((settling 7).waits ≠ [] ∧ (settling 7).stopsNow SME_PATCH 1 = false ∧ (settling 7).csrError SME_PATCH true = false ∧
      isFreezeCtl SME_PATCH = false ∧ isClockCtl SME_PATCH = false) ∧
    (settling 7).csrError (PRT_SEQ_CTL 7) true = false ∧ (settling 7).writeWaits (PRT_SEQ_CTL 7) (withBit 0 0 true) = true ∧
    (settling 7).csrError (PRT_JUMP_HOST 7) true = false ∧ (settling 7).writeWaits (PRT_JUMP_HOST 7) 1 = true ∧
    (settling 7).writeWaits (PRT_JUMP_HOST 7) 2 = true ∧ (settling 7).csrError (PRT_TIMING_CTL 7) true = false ∧
    (settling 7).writeWaits (PRT_TIMING_CTL 7) (BitVec.ofNat 32 (2 : Fin 4)) = true ∧ (settling 11).csrError (WFG_CTL 3) true = false ∧
    (settling 11).writeWaits (WFG_CTL 3) (withBit 0 0 true) = true ∧ (settling 11).writeWaits (WFG_CTL 3) (withBit 1 0 false) = true ∧
    (settling 11).csrError (WFG_JUMP_HOST 3) true = false ∧ (settling 11).writeWaits (WFG_JUMP_HOST 3) 1 = true ∧
    (settling 11).writeWaits (WFG_JUMP_HOST 3) 2 = true := by decide +kernel

theorem witness_RegisterWrites_go :
    let x : State := { settled (settling 7) with waits := [] };
    (settling 7).get (DPL_STATUS_state 7) = 3 ∧ (settling 7).dpl[(7 : Fin 12)].relock = false ∧
    (settling 7).seq[(7 : Fin 12)].paused = false ∧ (settled (settling 7)).csrWait = none ∧
    (settled (settling 7)).waits = [(TST_WORD 7 0 0 0, 5)] ∧ ((regAt (TST_WORD 7 0 0 0)).map fun x => x.1) = some .tst ∧
    x.csrError (TST_WORD 7 0 0 0) true = false ∧ x.writeWaits (TST_WORD 7 0 0 0) 5 = false ∧
    (settled { settling 7 with waits := [], csrWait := some waitingCsr }).csrWait = some waitingCsr ∧
    (settled { settling 7 with waits := [], csrWait := some waitingCsr }).waits = [] := by decide +kernel

theorem witness_RegisterPairs :
    (mk []).csrError TMB_NOW_LO false = false ∧ (mk []).csrError (TMB_NOW_LO + 4) false = false ∧
    (∃ u r w, regAt TMB_NOW_LO = some (.tmb, u, 8, r) ∧ pairAt .tmb 8 = some w) ∧ (mk []).shadow = [] ∧
    (mk []).csrError (PRT_TRAILHEAD_LO 7) true = false ∧ (mk []).csrError (PRT_TRAILHEAD_LO 7 + 4) true = false ∧
    ((regAt (PRT_TRAILHEAD_LO 7)).map fun x => pairAt x.1 x.2.2.1) = some (some true) ∧
    ((regAt (PRT_TRAILHEAD_LO 7)).map fun x => (mk []).pairHeld x.1 x.2.1 x.2.2.1) = some false ∧
    ((regAt (PRT_TRAILHEAD_LO 7 + 4)).map fun x =>
      (decide (pairAt x.1 x.2.2.1 ≠ some true) && pairHigh x.1 x.2.2.1 && !(mk []).pairHeld x.1 x.2.1 x.2.2.1)) = some true ∧
    isFreezeCtl (PRT_TRAILHEAD_LO 7 + 4) = false ∧ (mk []).writeWaits (PRT_TRAILHEAD_LO 7) 1 = false ∧
    (mk []).writeWaits (PRT_TRAILHEAD_LO 7 + 4) 1 = false ∧ (mk []).waits = [] := by
  refine ⟨by decide +kernel, by decide +kernel, ⟨_, _, _, rfl, rfl⟩, rfl, by decide +kernel, by decide +kernel, by decide +kernel,
    by decide +kernel, by decide +kernel, by decide +kernel, by decide +kernel, by decide +kernel, rfl⟩

/-- A load at its stage, as the witnesses need one. -/
def loading (n : Nat) : State := { mk [] with load := some { stage := n, before := 0, addr := 0x100000000, length := 40 } }

theorem witness_PowerMaskIgnoredDuringLoad :
    ((loading 1).load.isSome && !(loading 1).csrError PWR_DOMAIN_HI true && !(loading 1).csrError PWR_DOMAIN_LO true) = true := by
  decide +kernel

theorem witness_PowerMaskWrite :
    ((mk []).load = none ∧ (mk []).get STC_STATUS_state = 0 ∧ (mk []).lifecycle ≤ 1) ∧ (mk []).csrError PWR_DOMAIN_LO true = false ∧
    (mk []).csrError PWR_DOMAIN_HI true = false ∧
    (let m := (mk []).stagedLow PWR_DOMAIN_LO ((mk []).cs.power % 2 ^ 32) + 2 ^ 32 * ((0xFFF : Word).toNat % 2 ^ 12);
      powerOk (mk []).cs m (mk []).lifecycle = true ∧ ∀ d < 44, (mk []).domainOn d = true → bit m d = false → (mk []).domainBusy d = false) ∧
    (let s : State := { mk [] with cs := { (mk []).cs with octOwner := [1] } };
      s.load = none ∧ s.get STC_STATUS_state = 0 ∧ s.lifecycle ≤ 1 ∧ s.csrError PWR_DOMAIN_HI true = false ∧
      powerOk s.cs (s.stagedLow PWR_DOMAIN_LO (s.cs.power % 2 ^ 32) + 2 ^ 32 * ((0 : Word).toNat % 2 ^ 12)) s.lifecycle = false) := by
  decide +kernel

/-- A read of requester 22 in flight to the far store, under a shared tag. -/
def sharedTx : FabTx :=
  { req := 22, pool := 4, line := farBase, write := none, shared := true, dest := .other, answer := none }

/-- A read of requester 25 to SRAM that has come back. -/
def backTx : FabTx :=
  { req := 25, pool := 5, line := 0x100000000, write := none, shared := true, dest := .other, answer := some (0, true), hops := 9 }

theorem witness_FabricTransactions :
    (mk []).fabWait = [] ∧ (mk []).freeTag (poolOf 0x100000000) 25 = some true ∧ poolOf 0x100000000 = 5 ∧
    (mk []).fabricServes 0x100000000 = true ∧ Memory.wf (mk []).mem = true ∧
    (let s := mk [(CXH_LINK_state 0, 3), (CXH_LINK_state 1, 3), (CXH_CAP_gib 0, 4096), (CXH_CTL_en, 1)];
      s.fabWait = [] ∧ s.freeTag (poolOf farBase) 22 = some true ∧ poolOf farBase ≠ 5 ∧ s.fabricServes farBase = true) ∧
    (let s : State := { mk [] with fab := List.replicate 128 sharedTx };
      s.fabWait = [] ∧ poolLists (poolOf farBase) 22 = true ∧ s.freeTag (poolOf farBase) 22 = none) ∧
    (let s : State := { mk [] with fab := [backTx] };
      s.fab.find? (fun t => decide (t.req = 25) && decide (t.line = lineOf 0x10000003F) && decide (t.dest = .other) && !t.stale) = some backTx ∧
      backTx.arrived = true) := by decide +kernel

/-- A quadrant load of quadrant 0 that changes nothing, as Tables 2.1 to 2.11 lay it out (R54): header, PORTS, ENGINE_BIND, an empty ROUTE,
STORE_PART, POWER with the domains of the unswitched structure, and SIGNATURE by the signer of these tests over all before its payload
(R57). -/
def quadBits : List Byte :=
  leBytes 0x42535A45 4 ++ leBytes 1 2 ++ [0, 1] ++ leBytes 0 2 ++ leBytes 5 2 ++ leBytes 256 4 ++ leBytes 7 4 ++ leBytes 0 12 ++
  (leBytes 1 2 ++ [1, 0] ++ leBytes 8 4 ++ leBytes 0 8) ++
  (leBytes 2 2 ++ [1, 0] ++ leBytes 24 4 ++ leBytes 0 24) ++
  (leBytes 3 2 ++ [1, 0] ++ leBytes 0 4) ++
  (leBytes 5 2 ++ [1, 0] ++ leBytes 40 4 ++ leBytes 0 40) ++
  (leBytes 6 2 ++ [1, 0] ++ leBytes 8 4 ++ leBytes 0xFFF00000000 8) ++
  (leBytes 0xFF 2 ++ [1, 0] ++ leBytes 96 4) ++
  sigOf 0xF91B5514A332CCA4C615927479C637081A572972730E951716D8686BACB12F5A6706CAA93329200D7EDF6E26B7EC86CE
    0x173F590ACCB4D8F66BE9F86A3ED259C3C8E35408DD7FF0917E781C60BC435D2BC93F7FADB4740E4C0F503FC012CE27C2

/-- The bitstream in SRAM of a device whose provisioning key is the signer's, and its load at a stage. -/
def quadLoad (n : Nat) : State :=
  { (mk []).setBytes 0x100000000 quadBits with
    load := some { stage := n, before := 0, addr := 0x100000000, length := 256 }, sec := { dik := 1, fwDigest := 0, provKey := signer } }

set_option maxRecDepth 100000 in
theorem witness_StructureLoads_signature : (Bits.mk (quadLoad 1) 0x100000000 256).signed = true := by decide +kernel

theorem witness_StructureLoads :
    (match (Bits.mk (quadLoad 1) 0x100000000 256).head with
      | .ok l => (match (Bits.mk (quadLoad 1) 0x100000000 256).body l with | .ok _ => true | .error _ => false)
      | .error _ => false) = true ∧
    (quadLoad 1).load = some { stage := 1, before := 0, addr := 0x100000000, length := 256 } ∧
    (quadLoad 2).load.map (·.stage) = some 2 ∧ ((quadLoad 3).load.map fun x => decide (x.stage = 3) && !(quadLoad 3).resultsWait x) = some true ∧
    (quadLoad 4).load.map (·.stage) = some 4 ∧
    (let s : State := { State.reset with load := (loading 5).load };
      s.load.map (·.stage) = some 5 ∧ ∀ d < 44, s.domainOn d = true → bit s.cs.power d = true) ∧
    (match (Bits.mk (loading 1) 0x100000000 40).head with | .ok _ => false | .error _ => true) = true := by decide +kernel

theorem witness_ReownedBanksAreZeroed :
    let s : State := { loading 3 with cs := { (loading 3).cs with bank := List.replicate 48 0xFF } };
    s.canonical = true ∧ (s.load.map fun x => decide (x.stage = 3) && !s.resultsWait x && decide (x.new.bank.getD 47 0xFF = 0x30)) = some true ∧
    s.cs.bank.getD 47 0xFF ≠ 0x30 ∧ ∃ t, exec .structDomainsSettled s = .next t := by
  refine ⟨by decide +kernel, by decide +kernel, by decide +kernel, _, rfl⟩
/-! ## Witnesses: ports and streams -/

/-- A jump request that is due at vector 0: from a loop that halts, and from one that leaves to entry 0. -/
def reqOf (halt : Bool) : JumpReq := { producer := 1, e := { isLoop := true, halt := halt }, due := 0, order := 0 }

theorem witness_JumpRequests_host :
    (mk []).csrError (PRT_JUMP_HOST 7) true = false ∧ (mk []).csrError (WFG_JUMP_HOST 3) true = false ∧
    (mk []).clockWaits (PRT_JUMP_HOST 7) = false ∧ (mk []).clockWaits (WFG_JUMP_HOST 3) = false := by decide +kernel

theorem witness_JumpRequests_due :
    (let s := (mk []).setSeq 7 { inflight := [reqOf true] };
      s.get (PRT_SEQ_STATUS_state 7) ≠ 3 ∧ s.seq[portUnit 7].inflight = [reqOf true] ∧ (reqOf true).due ≤ s.seqVec (portUnit 7) - 1 ∧
      s.seq[portUnit 7].held = none ∧ (s.setSeq (portUnit 7) { s.seq[portUnit 7] with inflight := [] }).destOf (portUnit 7) (reqOf true) = none) ∧
    (let s := (mk []).setSeq 11 { inflight := [reqOf true] };
      s.seq[wfgUnit 3].inflight = [reqOf true] ∧ (reqOf true).due ≤ s.wfg[(3 : Fin 4)].lastAt ∧ s.seq[wfgUnit 3].held = none ∧
      (s.setSeq (wfgUnit 3) { s.seq[wfgUnit 3] with inflight := [] }).destOf (wfgUnit 3) (reqOf true) = none) := by decide +kernel

theorem witness_JumpRequests_deadline :
    (let s := (mk [(PRT_SEQ_STATUS_state 7, 2)]).setSeq 7 { deadline := some 5 };
      s.seq[portUnit 7].deadline = some 5 ∧ s.unitRuns 7 = true ∧
      (s.seq[portUnit 7].paused && decide (s.seq[portUnit 7].passVec = s.seq[portUnit 7].e.length)) = false) ∧
    (let s := (mk [(WFG_STATUS_state 3, 2)]).setSeq 11 { deadline := some 5 };
      s.seq[wfgUnit 3].deadline = some 5 ∧ s.unitRuns (wfgUnit 3) = true ∧
      (s.seq[wfgUnit 3].paused && decide (s.seq[wfgUnit 3].passVec = s.seq[wfgUnit 3].e.length)) = false) := by decide +kernel

/-- Port 7 owns the last octet; fields of a list are set. -/
def ported (l : List (Fld × Nat)) : State := { mk l with cs := { (mk l).cs with octOwner := (mk l).cs.octOwner.set 31 2 } }

/-- A state in which a write of run takes its fields: what `PortRunArms` asks of it, and the state that its clauses speak of. -/
def runnable (s : State) : Bool :=
  !s.csrError (PRT_SEQ_CTL 7) true && !s.clockWaits (PRT_SEQ_CTL 7) && !(s.portCtlFields 7 0 0).portActive 7

theorem witness_PortRunArms :
    let f := fun (s : State) => s.portCtlFields 7 0 0; let g := fun (s : State) => s.portCtlFields 7 1 0;
    bitsOf (withBit 0 0 true).toNat 2 2 = 0 ∧ bitsOf (withBit 0 0 true).toNat 4 2 = 0 ∧ bitsOf (withBit 4 0 true).toNat 2 2 = 1 ∧
    (runnable (mk []) = true ∧ (f (mk [])).cs.pinCount 7 = 0) ∧
    (let s := ported [(PRT_TIMING_CTL_band 7, 2)];
      runnable s = true ∧ (f s).cs.pinCount 7 ≠ 0 ∧ ((f s).portRate 7).inBand ((f s).get (PRT_TIMING_CTL_band 7)) = false) ∧
    (runnable (ported []) = true ∧ (f (ported [])).cs.pinCount 7 ≠ 0 ∧
      ((f (ported [])).portRate 7).inBand ((f (ported [])).get (PRT_TIMING_CTL_band 7)) = true ∧
      (f (ported [])).get (PRT_SEQ_CTL_start_mode 7) = 0 ∧ (f (ported [])).admission 7 = none) ∧
    ((g (ported [])).get (PRT_SEQ_CTL_start_mode 7) = 1 ∧ ((g (ported [])).portRate 7).inBand ((g (ported [])).get (PRT_TIMING_CTL_band 7)) = true ∧
      (g (ported [])).tooNear ((g (ported [])).rn64 (PRT_TRAILHEAD_LO 7)) ((g (ported [])).rn (PRT_TRAILHEAD_EP 7)) = true) ∧
    (let s := ported [(PRT_STRM_DEMAND_FAR_mbps 7, 20001)];
      runnable s = true ∧ ((f s).portRate 7).inBand ((f s).get (PRT_TIMING_CTL_band 7)) = true ∧ (f s).admission 7 = some 2) ∧
    (ported [(PRT_SEQ_CTL_start_mode 7, 2)]).evtActive 7 3 = false := by decide +kernel

/-- Port 7 in ARMED, its domain PLL locked. -/
def armed (l : List (Fld × Nat)) : State := mk ([(PRT_SEQ_STATUS_state 7, 1), (DPL_STATUS_state 7, 4)] ++ l)

theorem witness_PortWaitsAndStops :
    ((armed [(PRT_SEQ_CTL_start_mode 7, 2)]).get (PRT_SEQ_STATUS_state 7) = 1 ∧
      (armed [(PRT_SEQ_CTL_start_mode 7, 2)]).get (PRT_SEQ_CTL_start_mode 7) = 2) ∧
    (let s : State := ({ armed [(PRT_SEQ_CTL_start_mode 7, 1)] with tmb := { running := true } } : State).setSeq 7 { admitted := true };
      s.get (PRT_SEQ_STATUS_state 7) = 1 ∧ s.get (PRT_SEQ_CTL_start_mode 7) = 1 ∧ s.seq[portPll 7].trailMet = false ∧
      s.tmb.running = true ∧ s.rn (PRT_TRAILHEAD_EP 7) % 2 ^ 16 = s.tmb.epoch % 2 ^ 16 ∧ s.seq[portPll 7].admitted = true ∧
      s.lockedSettled (portPll 7) = true) ∧
    ((armed []).seq[portPll 7].admitted = false ∧ (armed []).seq[portPll 7].zeroing = false ∧
      (armed []).primed (portPll 7) ((armed []).primeBytes 7) = true ∧
      (armed []).slotsFilled (portPll 7) ((armed []).get (PRT_SEQ_START_entry 7)) (fun _ => true) = true) ∧
    ((armed [(PRT_STRM_ADMIT_TMO_ms 7, 1)]).seq[portPll 7].admitted = false ∧
      (armed [(PRT_STRM_ADMIT_TMO_ms 7, 1)]).get (PRT_SEQ_CTL_start_mode 7) ≠ 1 ∧
      (armed [(PRT_STRM_ADMIT_TMO_ms 7, 1)]).get (PRT_STRM_ADMIT_TMO_ms 7) ≠ 0) ∧
    (let u := (armed []).portCtlFields 7 0 0;
      (armed []).csrError (PRT_SEQ_CTL 7) true = false ∧ (armed []).clockWaits (PRT_SEQ_CTL 7) = false ∧ u.get (PRT_SEQ_STATUS_state 7) = 1) ∧
    (let s := mk [(PRT_SEQ_STATUS_state 7, 2), (DPL_STATUS_state 7, 1)]; let u := s.portCtlFields 7 0 0;
      s.csrError (PRT_SEQ_CTL 7) true = false ∧ s.clockWaits (PRT_SEQ_CTL 7) = true ∧ s.portActive 7 = true ∧
      u.get (PRT_SEQ_STATUS_state 7) = 2 ∧ u.seq[portPll 7].paused = false) ∧
    (let s := mk [(PRT_SEQ_STATUS_state 7, 3)]; let u := s.portCtlFields 7 0 0;
      s.csrError (PRT_SEQ_CTL 7) true = false ∧ s.portActive 7 = true ∧ u.get (PRT_SEQ_STATUS_state 7) = 3) := by decide +kernel

/-- Port 7 issues a resident pass with a vector that picks timeset 0; word 7 of its first group as given. -/
def issuing (w : Nat) : State :=
  let s := (mk [(PRT_SEQ_STATUS_state 7, 2), (⟨TST_WORD 7 0 7 7, 0, 32⟩, w)]).setSeq 7 { passVec := 1, e := { length := 2 } }
  s.setPort 7 { s.port[(7 : Fin 8)] with vecs := [{ ts := some 0, pins := [] }] }

theorem witness_VectorsPass :
    (let s := (armed []).setSeq 7 { admitted := true };
      s.get (PRT_SEQ_STATUS_state 7) = 1 ∧ s.seq[portUnit 7].admitted = true ∧ s.lockedSettled (portUnit 7) = true ∧
      s.get (PRT_SEQ_CTL_start_mode 7) = 0) ∧
    (let s := (armed [(PRT_SEQ_CTL_start_mode 7, 1)]).setSeq 7 { admitted := true, trailMet := true };
      s.get (PRT_SEQ_CTL_start_mode 7) = 1 ∧ s.seq[portUnit 7].trailMet = true ∧ s.lockedSettled (portUnit 7) = true) ∧
    (let s := (armed [(PRT_SEQ_CTL_start_mode 7, 2)]).setSeq 7 { admitted := true, condMet := true };
      s.get (PRT_SEQ_CTL_start_mode 7) = 2 ∧ s.seq[portUnit 7].condMet = true ∧ s.lockedSettled (portUnit 7) = true) ∧
    ((mk [(PRT_SEQ_STATUS_state 7, 2)]).get (PRT_SEQ_STATUS_state 7) = 2 ∧
      (mk [(PRT_SEQ_STATUS_state 7, 2)]).seq[portUnit 7].paused = false) ∧
    ((issuing 0).port[(7 : Fin 8)].vecs = [{ ts := some 0, pins := [] }] ∧ ((issuing 0).dataCheck 7).1 = .ready ∧
      (issuing 0).seq[portUnit 7].stopReq = false ∧ (issuing 0).timesetOf 7 (issuing 0).seq[portUnit 7].e { ts := some 0, pins := [] } = 0 ∧
      (issuing 0).timesetOk 7 ((issuing 0).get (PRT_TIMING_CTL_band 7)) 0 = true) ∧
    (((issuing 32).dataCheck 7).1 = .ready ∧ (issuing 32).seq[portUnit 7].stopReq = false ∧
      (issuing 32).timesetOk 7 ((issuing 32).get (PRT_TIMING_CTL_band 7)) 0 = false) := by decide +kernel

/-- A Ramble program that steps, and one that sweeps. -/
def ramble (sweep : Bool) : RamProg :=
  { sweep := sweep, step := 5, dwell := 3, slew := 10, limit := 100, logEn := false, startOfs := 0, updates := 0, count := 3
    held := false, ret := false }

theorem witness_BandAndRamble :
    ((mk []).csrError (PRT_TIMING_CTL 7) true = false ∧ (mk []).clockWaits (PRT_TIMING_CTL 7) = false ∧ (mk []).portActive 7 = false) ∧
    (let s := (mk [(PRT_SEQ_STATUS_state 7, 2)]).setPort 7 { ram := some (ramble false) };
      s.port[(7 : Fin 8)].ram = some (ramble false) ∧ s.ramAdvances 7 = true ∧ (ramble false).dwell ≤ (ramble false).count ∧
      (ramble false).ret = false ∧ (ramble false).logEn = false ∧ (5 : Int) = min 5 (ramble false).limit ∧
      (5 : Int) ≠ s.rambleOfs (portPll 7) ∧ s.offsetOk 7 5 = true ∧ (5 : Int) ≠ (ramble false).limit) ∧
    (let s := (mk [(PRT_SEQ_STATUS_state 7, 2)]).setPort 7 { ram := some (ramble true) };
      s.port[(7 : Fin 8)].ram = some (ramble true) ∧ (ramble true).held = false ∧ s.ramAdvances 7 = true) := by decide +kernel

/-- A read of unit 7 that landed. -/
def landedTx : FabTx :=
  { req := 7, pool := 3, line := nearBase 3, write := none, shared := false, dest := .ring 7, answer := some (0, true), hops := 9 }

/-- Port 7 streams entry 0 from the near store: its window, its ring of 512 KiB and its plan. -/
def streaming : State :=
  let s := ported [(PRT_SEQ_STATUS_state 7, 2), (PRT_STRM_RING_size 7, 8)]
  { s.setSeq 7 { plan := { ended := false } } with fab := [landedTx] }

theorem witness_StreamsAndRings :
    (streaming.seq[(7 : Fin 12)].zeroing = false ∧ streaming.unitRuns 7 = true ∧ streaming.seq[(7 : Fin 12)].plan.ended = false ∧
      streaming.ringCredit 7 = true ∧ (streaming.fetchTag 7 (streaming.entryAt 0).tier).isSome = true) ∧
    (streaming.findTx (fun t => t.dest.ofUnit 7 && t.arrived) = some landedTx ∧ landedTx.dest = .ring 7) ∧
    (((mk []).setSeq 11 { zeroing := true }).seq[(11 : Fin 12)].zeroing = true ∧ ((mk []).setSeq 11 { zeroing := true }).inFlight 11 = false) ∧
    (let s : State := (({ mk [] with cs := { (mk []).cs with bank := List.replicate 48 0x07 } } : State)).setSeq 7 { zeroing := true, zeroSize := 1 };
      s.canonical = true ∧ s.seq[(7 : Fin 12)].zeroing = true ∧ s.inFlight 7 = false ∧ 0 < s.seq[(7 : Fin 12)].zeroSize ∧
      (s.cs.sramAddr 7 (0x10000 * (s.segStore 7 / 0x10000 - s.seq[(7 : Fin 12)].zeroSize + 0))).isSome = true) := by
  decide +kernel

theorem witness_HoldEnds :
    let s := mk [(PRT_SEQ_STATUS_state 7, 3), (PRT_STRM_HOLD_TMO_us 7, 1)];
    s.get (PRT_SEQ_STATUS_state 7) = 3 ∧ s.seq[portPll 7].paused = false ∧ s.primed (portPll 7) (s.primeBytes 7) = true ∧
    s.slotsFilled (portPll 7) (s.get (PRT_SEQ_ENTRY_entry 7)) (fun _ => true) = true ∧ s.get (PRT_STRM_HOLD_TMO_us 7) ≠ 0 := by
  decide +kernel

/-- The 64 ciphertext lines of a page of port 7 and its tag, and a key in its slot. -/
def paged (v : BitVec 128) : State :=
  let s := (mk []).setSeq 7 { ring := (List.range 64).map fun k =>
    { tier := 1, addr := nearBase 3 + 64 * k, st := .landed, data := 0, enc := true, validAt := 0, validTb := 0 }, tags := [⟨1, nearBase 3 / 4096, some v⟩] }
  { s with sec := { s.sec with keys := [(0, 1)] } }

/-- The tag that was read under an address, as `PageVerdict` looks for it. -/
def tagHere (t : PageTag) : Bool := decide (t.tier = 1) && decide (t.page = nearBase 3 / 4096)

theorem witness_PageVerdict (v : BitVec 128) :
    ((paged 0).freeTag 5 21).isSome = true ∧ (paged v).seq[portUnit 7].tags.find? tagHere = some ⟨1, nearBase 3 / 4096, some v⟩ ∧
    ((paged 0).seq[portUnit 7].nextPage 1 (nearBase 3 / 4096)).isSome = true ∧
    (paged 0).sec.keys.lookup ((paged 0).get (PRT_STRM_KEY_slot 7)) = some (BitVec.ofNat 256 1) := by
  refine ⟨by decide +kernel, rfl, by decide +kernel, by decide +kernel⟩

theorem le_bytes_of_le (l : List Byte) : leBytes (ofLe l) l.length = l := by
  induction l with
  | nil => rfl
  | cons b l ih =>
    have h := b.isLt
    have h1 : (b.toNat + 256 * ofLe l) / 256 = ofLe l := by omega
    simp only [leBytes, ofLe, List.length_cons, h1, ih, List.cons.injEq, and_true]
    apply BitVec.eq_of_toNat_eq
    simp; omega

theorem of_le_lt (l : List Byte) : ofLe l < 256 ^ l.length := by
  induction l with
  | nil => decide
  | cons b l ih =>
    have h := b.isLt
    simp only [ofLe, List.length_cons, Nat.pow_succ]
    omega

theorem length_le_bytes (x n : Nat) : (leBytes x n).length = n := by
  induction n generalizing x with
  | zero => rfl
  | succ n ih => simp [leBytes, ih]

/-- Whatever the page's bytes are, one tag verifies and another does not. -/
theorem witness_PageVerdict_tags (key nonce : Nat) (text : List Byte) :
    (∃ (v : BitVec 128) (b : List Byte), gcmOpen key nonce [] text (leBytes v.toNat 16) = some b) ∧
    ∃ v : BitVec 128, gcmOpen key nonce [] text (leBytes v.toNat 16) = none := by
  have n : (gcmTag key nonce [] text).length = 16 := by simp [gcmTag, beBytes, length_le_bytes]
  have e := le_bytes_of_le (gcmTag key nonce [] text)
  have b : ofLe (gcmTag key nonce [] text) < 2 ^ 128 := Nat.lt_of_lt_of_eq (n ▸ of_le_lt (gcmTag key nonce [] text)) (by decide)
  rw [n] at e
  constructor
  · refine ⟨BitVec.ofNat 128 (ofLe (gcmTag key nonce [] text)), gcmCrypt key nonce text, ?_⟩
    rw [BitVec.toNat_ofNat, Nat.mod_eq_of_lt b, e]
    exact if_pos rfl
  · by_cases h : gcmTag key nonce [] text = leBytes (0 : BitVec 128).toNat 16
    · refine ⟨1, if_neg fun k => ?_⟩
      exact absurd (h.symm.trans k) (by decide)
    · exact ⟨0, if_neg h⟩
/-! ## Witnesses: clocks and the time base -/

/-- Domain PLL `d` in a state, with what a write of DPL_CTL puts first. -/
def dpl (d st : Nat) : State := mk [(DPL_CTL_dither d, 0), (DPL_STATUS_state d, st)]

theorem witness_DplCommands_run :
    (dpl 11 0).csrError (DPL_CTL 11) true = false ∧ bitsOf (withBit 0 0 true).toNat 2 1 = 0 ∧ bit (0 : Word).toNat 1 = false ∧
    bit (0 : Word).toNat 3 = false ∧ (((dpl 11 0).put (DPL_CTL_dither 11) 0).put (DPL_CTL_run 11) 1).get (DPL_STATUS_state 11) = 0 ∧
    bitsOf (withBit 1 0 false).toNat 2 1 = 0 ∧ ((dpl 11 0).put (DPL_CTL_dither 11) 0).unitActive 11 = false := by decide +kernel

theorem witness_DplCommands_commit :
    bit (1 : Word).toNat 0 = true ∧ bit (1 : Word).toNat 1 = false ∧ bit (1 : Word).toNat 3 = false ∧
    bitsOf (withBit 1 1 true).toNat 2 1 = 0 ∧ bitsOf (withBit 1 3 true).toNat 2 1 = 0 ∧
    (∀ d : Fin 12, d = 7 ∨ d = 11 →
      (dpl d 0).csrError (DPL_CTL d) true = false ∧ (dpl d 0).canonical = true ∧
      (let u := (dpl d 0).put (DPL_CTL_dither d) 0;
        (u.staged d).valid = true ∧ u.get (DPL_STATUS_state d) = 0 ∧ u.unitActive d = false ∧ u.on (PRT_RAMBLE_STATUS_active d) = false)) ∧
    (let u := (mk [(DPL_INT_int 11, 31)]).put (DPL_CTL_dither 11) 0; (u.staged 11).valid = false) := by decide +kernel

theorem witness_DplCommands_phase :
    (mk []).waits = [] ∧ (mk []).csrError (DPL_PHASE_CTL 11) true = false ∧
    (mk []).writeWaits (DPL_PHASE_CTL 11) (withBit 0 2 true) = false ∧
    ((regAt (DPL_PHASE_CTL 11)).map fun x => (x.1, x.2.1, x.2.2.1)) = some (.dpl, 11, 0x030) ∧ bitsOf (withBit 0 2 true).toNat 0 2 = 0 ∧
    ((regAt (DPL_PHASE_CTL 11)).map fun x =>
      ((mk []).plainWrite (DPL_PHASE_CTL 11) x.2.2.2 (withBit 0 2 true)).get (DPL_PHASE_CTL_mode 11)) = some 0 ∧
    (let s : State := { mk [(DPL_PHASE_CTL_mode 11, 1)] with tmb := { running := true } }; s.get (DPL_PHASE_CTL_mode 11) = 1 ∧ s.tmb.running = true) ∧
    (let s : State := State.setDpl { mk [] with tmb := { running := true } } 11 { phaseReq := true };
      s.dpl[(11 : Fin 12)].phaseReq = true ∧ s.tmb.running = true) := by decide +kernel

/-- A ramp of domain PLL 11 at a frequency, and where it goes. -/
def ramping (c : Option Nat) : State := (dpl 11 5).setDpl 11 { cur := c }

theorem witness_DplStates :
    ((dpl 11 1).get (DPL_STATUS_state 11) = 1 ∧ ({ dpl 11 1 with tmb := { running := true } } : State).tmb.running = true ∧
      (dpl 11 1).unitRuns 11 = false) ∧
    ((dpl 11 2).get (DPL_STATUS_state 11) = 2 ∧ (dpl 11 2).dpl[(11 : Fin 12)].relock = false ∧ (dpl 11 2).unitRuns 11 = false) ∧
    (∀ d : Fin 12, d = 7 ∨ d = 11 → (dpl d 3).get (DPL_STATUS_state d) = 3 ∧ (dpl d 3).dpl[d].relock = false ∧ (dpl d 3).seq[d].paused = false) ∧
    (dpl 11 6).get (DPL_STATUS_state 11) = 6 ∧
    (let target := 2 ^ 20 * ((ramping none).targetRate 11).num / ((ramping none).targetRate 11).den;
      (ramping none).get (DPL_STATUS_state 11) = 5 ∧ (ramping (some 1)).dpl[(11 : Fin 12)].cur = some 1 ∧ 1 < target ∧
      (ramping (some target)).dpl[(11 : Fin 12)].cur = some target ∧ target ≤ target ∧ (ramping none).dpl[(11 : Fin 12)].cur = none) := by
  decide +kernel

/-- The TBPLL in a state. -/
def tbpll (st : Nat) (l : List (Fld × Nat)) : State := mk ((TMB_STATUS_state, st) :: l)

theorem witness_TimeBaseStates_tbpll :
    (tbpll 2 []).get TMB_STATUS_state = 2 ∧
    (let s := tbpll 2 [(TMB_STATUS_ref_valid, 1), (TMB_STATUS_ref_present, 1)];
      s.on TMB_STATUS_ref_valid = true ∧ s.on TMB_STATUS_ref_present = true ∧ s.get TMB_STATUS_state = 2) ∧
    (let s := tbpll 5 [(TMB_STATUS_ref_valid, 1)];
      s.on TMB_STATUS_ref_valid = true ∧ s.on TMB_STATUS_ref_present = false ∧ s.get TMB_STATUS_state ≠ 1 ∧ s.canonical = true) ∧
    (let s := tbpll 1 [(TMB_STATUS_ref_valid, 1)];
      s.on TMB_STATUS_ref_valid = true ∧ s.on TMB_STATUS_ref_present = false ∧ s.get TMB_STATUS_state = 1) ∧
    ((tbpll 3 []).get TMB_STATUS_state = 3 ∧ (tbpll 3 []).tmb.running = false) ∧
    (let s := tbpll 4 [(TMB_STATUS_locked, 1)]; s.on TMB_STATUS_locked = true ∧ s.canonical = true ∧ s.get TMB_STATUS_state = 4) ∧
    (let s := tbpll 5 [(TMB_STATUS_ref_present, 1)];
      s.get TMB_STATUS_state = 5 ∧ s.on TMB_STATUS_ref_present = true ∧
      ((s.advanceTo (s.tmb.holdAt + 100000 * tuPerNs)).reducePhi (-131072)).natAbs ≤ 131072) ∧
    (let s : State := { tbpll 6 [(⟨TMB_PHASE_ERR, 0, 32⟩, 131072)] with tmb := { slewing := true } };
      s.get TMB_STATUS_state = 6 ∧ s.tmb.slewing = true ∧ (toSigned 32 (s.rn TMB_PHASE_ERR)).natAbs ≤ 131072) ∧
    (tbpll 5 []).get TMB_STATUS_state = 5 := by decide +kernel

theorem witness_TimeBaseStates_count :
    (let s : State := { mk [(TMB_TRAILHEAD_CTL_arm, 1)] with tmb := { running := true, zeroMode := 2, count := wrapTu } };
      s.tmb.running = true ∧ s.tmb.count ≤ wrapTu ∧ s.tmb.zeroMode = 2 ∧ s.on TMB_TRAILHEAD_CTL_arm = true ∧
      s.tmb.armEp % 2 ^ 16 = s.tmb.epoch % 2 ^ 16 ∧ s.csrError TMB_TRAILHEAD_CTL true = false ∧
      s.when_ (s.rn64 TMB_TRAILHEAD_LO) (s.rn TMB_TRAILHEAD_EP) = .past) ∧
    ((mk []).csrError TMB_TRAILHEAD_CTL true = false ∧ (mk []).when_ ((mk []).rn64 TMB_TRAILHEAD_LO) ((mk []).rn TMB_TRAILHEAD_EP) ≠ .past) := by
  decide +kernel

/-! ## Witnesses: acquisition and edge-time measurement -/

/-- Engine 7 can be armed: bound to port 7, with a drain window, staging and its channel up. -/
def engine (l : List (Fld × Nat)) : State :=
  let s := ported ([(DMC_STATUS_state 3, 3), (ACQ_STG_CFG_size 7, 8), (ACQ_STG_PANIC_level 7, 1), (ACQ_SRC_source 7, 1), (ACQ_SEG_COUNT_count 7, 1),
    (⟨ACQ_SEG_POST 7, 0, 32⟩, 1), (DMC_CAPACITY_units 3, 1)] ++ l)
  { s with cs := { s.cs with acqEn := s.cs.acqEn.set 7 true, store := s.cs.store.set 3 { nearAcqB := { size := 1 } } } }

/-- A segment record of one line. -/
def rec1 : AcqRec := { bytes := List.replicate 64 0, entries := 1, isSeg := true, last := false }

theorem witness_AcquisitionRuns_commands :
    let f := fun (s : State) => s.put (ACQ_CTL_stop_with_port 7) 0;
    ((engine []).csrError (ACQ_CTL 7) true = false ∧ (engine []).clockWaits (ACQ_CTL 7) = false ∧ bitsOf (1 : Word).toNat 2 1 = 0 ∧
      bitsOf (0 : Word).toNat 2 1 = 0 ∧ bit (1 : Word).toNat 0 = true ∧ bit (0 : Word).toNat 0 = false ∧
      (f (engine [])).acqRuns 7 = false ∧ (f (engine [])).acqArmCode 7 = 1) ∧
    ((mk []).csrError (ACQ_CTL 7) true = false ∧ (mk []).clockWaits (ACQ_CTL 7) = false ∧ (f (mk [])).acqRuns 7 = false ∧
      (f (mk [])).acqArmCode 7 ≠ 1) ∧
    (let s := engine [(ACQ_STATUS_state 7, 3)];
      s.csrError (ACQ_CTL 7) true = false ∧ s.clockWaits (ACQ_CTL 7) = false ∧ (f s).acqRuns 7 = true ∧ (f s).acq[(7 : Fin 8)].x6 = [] ∧
      (f s).acq[(7 : Fin 8)].cubic = none ∧ (f s).acq[(7 : Fin 8)].seg = none ∧ (f s).acq[(7 : Fin 8)].span = none) ∧
    ((engine []).csrError (ACQ_DRAIN_RD 7) true = false ∧ (engine []).clockWaits (ACQ_DRAIN_RD 7) = false ∧
      ((engine []).rn (ACQ_DRAIN_WR 7) + 2 ^ 32 - (0 : Word).toNat) % 2 ^ 32 ≤ (engine []).drainSize 7) := by decide +kernel

theorem witness_AcquisitionRuns_publish :
    (let s := (engine []).setAcq 7 { recs := [rec1] };
      s.canonical = true ∧ s.acq[(7 : Fin 8)].recs = [rec1] ∧ s.acq[(7 : Fin 8)].frozenWait = false ∧ s.on (DMC_STATUS_frozen (7 / 2)) = false ∧
      s.writerGo 7 (s.drainAddr 7) = true ∧ 0 < rec1.bytes.length / 64 ∧ rec1.bytes.length / 64 ≤ s.drainFree 7 ∧
      rec1.bytes.length / 64 < 2 ^ 32) ∧
    (let s := (engine [(⟨ACQ_DRAIN_WR 7, 0, 32⟩, 0x1000000)]).setAcq 7 { recs := [rec1] };
      s.canonical = true ∧ s.acq[(7 : Fin 8)].frozenWait = false ∧ s.on (DMC_STATUS_frozen (7 / 2)) = false ∧
      s.writerGo 7 (s.drainAddr 7) = true ∧ s.drainFree 7 < rec1.bytes.length / 64) ∧
    (let s := (engine []).setAcq 7 { recs := [rec1], frozenWait := true };
      s.canonical = true ∧ s.acq[(7 : Fin 8)].recs = [rec1] ∧ s.acq[(7 : Fin 8)].frozenWait = true) := by decide +kernel

/-- TIM channel 31 in a state. -/
def tim (st : Nat) (l : List (Fld × Nat)) : State := mk ((TIM_STATUS_state 31, st) :: l)

/-- What a write of TIM_CTL = 0 puts first. -/
def timCtl (s : State) : State :=
  ((((s.put (TIM_CTL_mode 31) 0).put (TIM_CTL_kind 31) 0).put (TIM_CTL_edge 31) 0).put (TIM_CTL_arm_src 31) 0).put (TIM_CTL_partner 31) 0

/-- What a write of TIM_CTL = 0x30 puts first: the reserved edge choice. -/
def timCtlBad (s : State) : State :=
  ((((s.put (TIM_CTL_mode 31) 0).put (TIM_CTL_kind 31) 0).put (TIM_CTL_edge 31) 3).put (TIM_CTL_arm_src 31) 0).put (TIM_CTL_partner 31) 0

theorem witness_TimChannelStates :
    ((tim 2 []).csrError (TIM_CTL 31) true = false ∧ (tim 2 []).timActive 31 = true) ∧
    ((tim 1 []).csrError (TIM_CTL 31) true = false ∧ (tim 1 []).timActive 31 = false ∧ bit (0 : Word).toNat 1 = false ∧
      (timCtl (tim 1 [])).timActive 31 = false ∧ (timCtl (tim 1 [])).get (TIM_STATUS_state 31) = 1 ∧ (timCtl (tim 1 [])).timArmCode 31 = 1) ∧
    (bitsOf (0x30 : Word).toNat 4 2 = 3 ∧ bitsOf (0x30 : Word).toNat 2 2 = 0 ∧ bit (0x30 : Word).toNat 1 = false ∧
      (timCtlBad (tim 5 [])).get (TIM_STATUS_state 31) = 5 ∧ (timCtlBad (tim 5 [])).timArmCode 31 ≠ 1) ∧
    ((tim 2 []).get (TIM_STATUS_state 31) = 2 ∧ (tim 2 []).on (TIM_CTL_arm_src 31) = false ∧ (tim 2 []).on (TIM_CTL_mode 31) = false ∧
      (tim 2 []).on (TIM_STATUS_leased 31) = false) ∧
    (let s := (tim 2 [(TIM_CTL_arm_src 31, 1), (TIM_CTL_mode 31, 1), (TIM_STATUS_dll_locked 31, 1)]).setTim 31 { met := true };
      s.get (TIM_STATUS_state 31) = 2 ∧ s.on (TIM_CTL_arm_src 31) = true ∧ s.tim[(31 : Fin 32)].met = true ∧
      s.on (TIM_CTL_mode 31) = true ∧ s.on (TIM_STATUS_dll_locked 31) = true ∧ s.on (TIM_STATUS_leased 31) = false) ∧
    ((tim 1 [(TIM_CTL_mode 31, 1)]).on (TIM_CTL_mode 31) = true ∧ (tim 1 [(TIM_CTL_mode 31, 1)]).get (TIM_STATUS_state 31) ≠ 0) ∧
    (let s := (mk []).setPort 7 { secretOn := true };
      s.port[(7 : Fin 8)].secretOn = true ∧ (s.portRuns 7 && s.seq[portUnit 7].e.secret) = false) := by decide +kernel

/-- Channel 31 in MEAS after an edge at a time of 32 ns, when its last measured edge was at `m`. -/
def edged (m : Option Int) (l : List (Fld × Nat)) : State :=
  State.timGates (State.advance { (tim 3 l).setTim 31 { lastMeas := m } with tmb := { running := true } } (1000 * 262144 - 0)) 31

theorem witness_TimResults_edges :
    ((edged none []).get (TIM_STATUS_state 31) = 3 ∧ (edged none []).timSelected 31 true = false ∧ (edged none []).timSelected 31 false = true ∧
      (edged none []).on (TIM_STATUS_blanked 31) = false ∧ (edged none []).on (TIM_CTL_mode 31) = false ∧
      (edged none []).tim[(31 : Fin 32)].lastMeas = none) ∧
    (edged none [(TIM_STATUS_blanked 31, 1)]).on (TIM_STATUS_blanked 31) = true ∧
    ((edged (some 114688000) []).tim[(31 : Fin 32)].lastMeas = some 114688000 ∧ ((edged (some 114688000) []).tmb.clk : Int) ≥ 114688000 + 18 * tuPerNs) ∧
    ((edged (some 114688001) []).tim[(31 : Fin 32)].lastMeas = some 114688001 ∧ ((edged (some 114688001) []).tmb.clk : Int) < 114688001 + 18 * tuPerNs) := by
  decide +kernel

/-- A measured edge that converts. -/
def edge1 : TimPend := { coarse := 65536, falling := false, number := 1, n := 1, ep := 0, ofs := 0, at_ := 65536000, gate := 0 }

/-- Channel 31 in MEAS measures with that edge, in a kind, with an earlier edge; its bracket is a good pair. -/
def converting (kind : Nat) (prev : Option Int) (partner : List TimPend) : State :=
  let s := mk [(TIM_STATUS_state 31, 3), (TIM_STATUS_state 24, 3), (TIM_CTL_kind 31, kind), (TIM_BRACKET_v1 31, 0), (TIM_BRACKET_v2 31, 4000)]
  (s.setTim 31 { pend := [edge1], prev := prev }).setTim 24 { pend := partner }

/-- The chain of states of `TimResults` for a conversion with the code 0: s1, c, s3 and s4. -/
def chain (s : State) : TimConv × State × State :=
  let r := (s.setTim 31 { s.tim[(31 : Fin 32)] with pend := [] }).timConvert 31 edge1 0
  let s2 := (r.1.put (TIM_BRACKET_v1 31) 0).put (TIM_BRACKET_v2 31) 0
  let s3 := ((s2.wn64 (TIM_LAST_TS_LO 31) (ofSigned 64 (8 * r.2.edge + ((s.clockMap edge1.at_).2.2 : Int)))).put (TIM_LAST_EP_epoch 31)
    (if r.2.edge < 0 then (edge1.ep + 65535) % 65536 else edge1.ep)).timTellPartners 31 r.2.tb
  (r.2, s3, s3.setTim 31 { s3.tim[(31 : Fin 32)] with prev := some r.2.tb, lastMeas := some r.2.tb })

theorem witness_TimResults_conversions :
    (mk []).tim[(31 : Fin 32)].pend = [] ∧
    ((converting 0 none []).tim[(31 : Fin 32)].pend = [edge1] ∧ edge1.old = false ∧ (converting 0 none []).on (TIM_CTL_mode 31) = false ∧
      (converting 0 none []).get (TIM_CTL_kind 31) = 0) ∧
    ((converting 1 none []).get (TIM_CTL_kind 31) = 1 ∧ (chain (converting 1 none [])).2.1.tim[(31 : Fin 32)].prev = none) ∧
    (let x := chain (converting 1 (some 1000) []);
      (converting 1 (some 1000) []).get (TIM_CTL_kind 31) = 1 ∧ x.2.1.tim[(31 : Fin 32)].prev = some 1000 ∧ edgeDiff x.1.tb 1000 ≤ 0xFFFFFFFF) ∧
    (let x := chain (converting 2 none []);
      (converting 2 none []).get (TIM_CTL_kind 31) = 2 ∧ x.2.2.tim[(31 : Fin 32)].wait = [] ∧ x.2.2.partnerBusy 31 x.1.tb = false) ∧
    (let x := chain (converting 2 none [{ edge1 with at_ := 0 }]);
      (converting 2 none [{ edge1 with at_ := 0 }]).get (TIM_CTL_kind 31) = 2 ∧ x.2.2.partnerBusy 31 x.1.tb = true) ∧
    (converting 3 none []).get (TIM_CTL_kind 31) = 3 := by decide +kernel

/-- A FREQ gate of channel 31 of 8 ns that is open. -/
def gated (first : Option (Int × Nat)) : State :=
  { (tim 3 [(TIM_CTL_kind 31, 3), (⟨TIM_GATE 31, 0, 32⟩, 1)]).setTim 31 { gFirst := first, gLast := first } with tmb := { running := true } }

/-- Channel 31 with a result of a kind and value in X7, and its histogram set up. -/
def binned (w : Nat) (l : List (Fld × Nat)) : State := { mk l with x7 := Vector.replicate 4 [(31, w)] }

theorem witness_GatesAndHistograms :
    (let s := gated none;
      s.tmb.running = true ∧ s.get (TIM_STATUS_state 31) = 3 ∧ s.get (TIM_CTL_kind 31) = 3 ∧ 0 < 8 * tuPerNs * s.rn (TIM_GATE 31) ∧
      s.tmb.clk ≤ s.tim[(31 : Fin 32)].gAt + 8 * tuPerNs * s.rn (TIM_GATE 31) ∧ s.tim[(31 : Fin 32)].pend = [] ∧
      s.on (TIM_STATUS_blanked 31) = false ∧ s.tim[(31 : Fin 32)].gFirst = none) ∧
    (let s := gated (some (5, 1));
      s.tim[(31 : Fin 32)].gFirst = some (5, 1) ∧ s.tim[(31 : Fin 32)].gLast = some (5, 1) ∧ s.tim[(31 : Fin 32)].gOf = s.tim[(31 : Fin 32)].gate ∧
      (s.tim[(31 : Fin 32)].gBad.take 4).contains s.tim[(31 : Fin 32)].gate = false ∧ edgeDiff 5 5 ≤ 0xFFFFFFFF) ∧
    ((binned 5 [(TIM_HIST_CTL_busy 31, 1)]).x7[(3 : Fin 4)] = [(31, 5)] ∧ (binned 5 [(TIM_HIST_CTL_busy 31, 1)]).on (TIM_HIST_CTL_busy 31) = true) ∧
    ((binned 5 []).on (TIM_HIST_CTL_busy 31) = false ∧ (binned 5 []).rn (TIM_HIST_FOLD 31) = 0 ∧ (binned 5 []).rn (TIM_HIST_OFS 31) = 0 ∧
      (binned 5 []).get (TIM_HIST_CTL_shift 31) = 0 ∧ (binned 5 []).rn (TIM_HIST_BIN 31 5) ≠ 0xFFFFFFFF ∧
      ((4096 : Int) - toSigned 32 ((binned 4096 []).rn (TIM_HIST_OFS 31))).toNat / 2 ^ (binned 4096 []).get (TIM_HIST_CTL_shift 31) = 4096 ∧
      (let s := binned 5 [(⟨TIM_HIST_OFS 31, 0, 32⟩, 6)]; (5 : Int) - toSigned 32 (s.rn (TIM_HIST_OFS 31)) < 0)) ∧
    ((mk []).csrError (TIM_HIST_CTL 31) true = false ∧ (mk []).waits = [] ∧
      ((regAt (TIM_HIST_CTL 31)).map fun x => (x.1, x.2.1, x.2.2.1)) = some (.tim, 31, 0x050)) ∧
    ((mk [(TIM_HIST_CTL_busy 31, 1)]).on (TIM_HIST_CTL_busy 31) = true ∧ (mk [(TIM_HIST_CTL_busy 31, 1)]).canonical = true) := by
  decide +kernel
/-! ## Witnesses: analogue outputs and the site link -/

/-- WFG 3 in a state, its domain PLL locked, with a start entry that plays 4096 samples from the near window. -/
def wfg (st : Nat) (l : List (Fld × Nat)) : State :=
  let s := mk ([(WFG_STATUS_state 3, st), (DPL_STATUS_state 11, 4), (⟨SEG_WORD 0 2, 0, 32⟩, 4096), (⟨SEG_WORD 0 6, 0, 32⟩, 0x1000)] ++ l)
  { s with cs := { s.cs with store := s.cs.store.set 3 { nearW := { size := 1 } } } }

/-- What a write of WFG_CTL = 0x10 puts first. -/
def wfgCtl (s : State) : State := (s.put (WFG_CTL_start_mode 3) 0).put (WFG_CTL_out_en 3) 1

/-- The state in which a write of run finds WFG 3 ARMED. -/
def wfgArmed (u : State) : State :=
  (((((((u.put (WFG_ENTRY_depth 3) 0).wn64 (WFG_SAMPLE_LO 3) 0).put (WFG_STATUS_code 3) 0).wn (WFG_WAIT_STATUS 3) 0).wn
    (WFG_WAIT_PASSES 3) 0).put (WFG_STATUS_state 3) 1).put (WFG_CTL_run 3) 1).setSeq (wfgUnit 3)
      { condMet := decide (u.get (WFG_CTL_start_mode 3) = 2) && u.inTbCycle u.wfg[(3 : Fin 4)].evtAt }

theorem witness_WaveformGenerators_control :
    bitsOf (0x10 : Word).toNat 2 2 = 0 ∧ bitsOf (0x10 : Word).toNat 4 1 = 1 ∧ bit (0x10 : Word).toNat 4 = true ∧
    bitsOf (0xC : Word).toNat 2 2 = 3 ∧ bit (0xC : Word).toNat 4 = false ∧
    (∀ n : Fin 3, (wfg n []).csrError (WFG_CTL 3) true = false ∧ (wfg n []).clockWaits (WFG_CTL 3) = false) ∧
    ((wfgCtl (wfg 0 [])).wfgActive 3 = false ∧ (wfgArmed (wfgCtl (wfg 0 []))).wfgRefusal 3 = none ∧
      (wfgArmed (wfgCtl (wfg 0 [(WFG_DEMAND_FAR_mbps 3, 8001)]))).wfgRefusal 3 = some 1) ∧
    ((wfgCtl (wfg 1 [])).wfgActive 3 = true ∧ (wfgCtl (wfg 1 [])).get (WFG_STATUS_state 3) = 1) ∧
    ((wfgCtl (wfg 2 [])).get (WFG_STATUS_state 3) = 2 ∧ (wfgCtl (wfg 2 [])).seq[wfgUnit 3].paused = false ∧
      (wfgCtl ((wfg 2 []).setSeq 11 { paused := true })).seq[wfgUnit 3].paused = true) := by decide +kernel

theorem witness_WaveformGenerators_starts :
    ((wfg 1 []).get (WFG_STATUS_state 3) = 1 ∧ (wfg 1 []).primed (wfgUnit 3) 0x40000 = true ∧
      (wfg 1 []).slotsFilled (wfgUnit 3) ((wfg 1 []).get (WFG_START_entry 3)) (fun _ => true) = true) ∧
    (let s := wfg 1 [(WFG_ADMIT_TMO_ms 3, 1)];
      s.seq[wfgUnit 3].admitted = false ∧ s.get (WFG_CTL_start_mode 3) ≠ 1 ∧ s.get (WFG_ADMIT_TMO_ms 3) ≠ 0) ∧
    (let s : State := State.setSeq { wfg 1 [(WFG_CTL_start_mode 3, 1)] with tmb := { running := true } } 11 { admitted := true };
      s.get (WFG_STATUS_state 3) = 1 ∧ s.get (WFG_CTL_start_mode 3) = 1 ∧ s.seq[wfgUnit 3].trailMet = false ∧ s.tmb.running = true ∧
      s.rn (WFG_TRAILHEAD_EP 3) % 2 ^ 16 = s.tmb.epoch % 2 ^ 16 ∧ s.seq[wfgUnit 3].admitted = true ∧ s.lockedSettled (wfgUnit 3) = true) ∧
    (let s := (wfg 1 []).setSeq 11 { admitted := true };
      s.get (WFG_CTL_start_mode 3) = 0 ∧ s.seq[wfgUnit 3].admitted = true ∧ s.lockedSettled (wfgUnit 3) = true ∧ s.unitLeased (48 + 3) = false ∧
      (let u := (s.setSeq (wfgUnit 3) { s.seq[wfgUnit 3] with at_ := s.tmb.clk, frac := 0, fracDen := 1 }).advanceTo s.tmb.clk;
        (u.entryAt 0).wfgValid = true ∧ (u.entryAt 0).dataOffset % 64 = 0 ∧ (u.entryAt 0).dataOffset < u.windowSize (wfgUnit 3) (u.entryAt 0).tier ∧
        u.wfgShort 3 (u.entryAt 0) = false)) ∧
    ((wfg 1 [(⟨SEG_WORD 0 2, 0, 32⟩, 0)]).entryAt 0).wfgValid = false ∧
    (let s := (wfg 1 [(WFG_CTL_start_mode 3, 1)]).setSeq 11 { admitted := true, trailMet := true };
      s.get (WFG_CTL_start_mode 3) = 1 ∧ s.seq[wfgUnit 3].trailMet = true ∧ s.lockedSettled (wfgUnit 3) = true ∧ s.unitLeased (48 + 3) = false) ∧
    (let s := (wfg 1 [(WFG_CTL_start_mode 3, 2)]).setSeq 11 { admitted := true, condMet := true };
      s.get (WFG_CTL_start_mode 3) = 2 ∧ s.seq[wfgUnit 3].condMet = true ∧ s.lockedSettled (wfgUnit 3) = true) := by decide +kernel

theorem witness_WaveformGenerators_runs :
    ((wfg 2 []).get (WFG_STATUS_state 3) = 2 ∧ (wfg 2 []).seq[wfgUnit 3].paused = false ∧ (wfg 2 []).seq[wfgUnit 3].stopReq = false) ∧
    (let s := (wfg 2 []).setSeq 11 { paused := true, resume := true, stopReq := true };
      s.seq[wfgUnit 3].paused = true ∧ s.seq[wfgUnit 3].resume = true ∧ s.seq[wfgUnit 3].stopReq = true) ∧
    (let s := (wfg 2 []).setWfg 3 { frame := [(5, 1)] };
      s.on (WFG_RS_CTL_en 3) = false ∧ s.wfg[(3 : Fin 4)].flush = none ∧ s.wfg[(3 : Fin 4)].frame = [(5, 1)]) := by decide +kernel

/-- PDAC 15 with fields, and what a write of its code puts first. -/
def pdac (l : List (Fld × Nat)) (x : PdacH) : State := (mk l).setPdac 15 x

def pdacCtl (s : State) (c : Nat) : State :=
  (if s.inTbCycle s.pdac[(15 : Fin 16)].wrAt then s else s.setPdac 15 { s.pdac[(15 : Fin 16)] with
    wrAt := s.tbCycle, wrOld := s.get (PDC_CODE_code 15) }).put (PDC_CODE_code 15) c

theorem witness_PrecisionLevelDacs_codes :
    (mk []).csrError (PDC_CODE 15) true = false ∧ (pdac [(PDC_CTL_mode 15, 1)] {}).get (PDC_CTL_mode 15) ≠ 0 ∧
    ((pdac [] {}).get (PDC_CTL_mode 15) = 0 ∧ (pdac [] {}).pdac[(15 : Fin 16)].pend = none) ∧
    (0 : BitVec 16).toNat = (pdacCtl (pdac [] {}) 0).get (PDC_OUT_code 15) ∧
    ((1023 : BitVec 16).toNat ≠ (pdacCtl (pdac [] {}) 1023).get (PDC_OUT_code 15) ∧
      (1023 : BitVec 16).toNat / 1024 = (pdacCtl (pdac [] {}) 1023).get (PDC_OUT_code 15) / 1024) ∧
    (1024 : BitVec 16).toNat / 1024 ≠ (pdacCtl (pdac [] {}) 1024).get (PDC_OUT_code 15) / 1024 ∧
    ((pdac [] { pend := some 2000 }).pdac[(15 : Fin 16)].pend = some 2000 ∧
      (1023 : BitVec 16).toNat / 1024 = (pdacCtl (pdac [] { pend := some 2000 }) 1023).get (PDC_OUT_code 15) / 1024 ∧
      (1024 : BitVec 16).toNat / 1024 ≠ (pdacCtl (pdac [] { pend := some 2000 }) 1024).get (PDC_OUT_code 15) / 1024) ∧
    (mk []).csrError (PDC_GLOAD 3) true = false ∧ (mk []).canonical = true := by decide +kernel

theorem witness_PrecisionLevelDacs_limit :
    ((pdac [(PDC_CTL_en 15, 1)] {}).on (PDC_STATUS_limit 15) = false ∧ (pdac [(PDC_CTL_en 15, 1)] {}).on (PDC_CTL_en 15) = true) ∧
    (let s := pdac [(PDC_STATUS_limit 15, 1), (PDC_CTL_sc_off 15, 1)] {};
      s.on (PDC_STATUS_limit 15) = true ∧ s.on (PDC_CTL_sc_off 15) = true ∧ s.inTbCycle s.pdac[(15 : Fin 16)].enAt = false) ∧
    (let s : State := { pdac [(PDC_STATUS_limit 15, 1), (PDC_CTL_sc_off 15, 1)] { enAt := some 0 } with tmb := { running := true } };
      s.on (PDC_STATUS_limit 15) = true ∧ s.on (PDC_CTL_sc_off 15) = true ∧ s.inTbCycle s.pdac[(15 : Fin 16)].enAt = true) := by decide +kernel

/-- A device of a ring of two that is UP, with one voting port of site 0. -/
def ringed (l : List (Fld × Nat)) : State := ported ([(SLK_CTL_en, 1), (SLK_CTL_members, 2), (SLK_STATUS_state, 3), (SLK_PORT_CFG_vote_mode 7, 1)] ++ l)

/-- An open round of site 0 whose mask is the positions 0 and 1. -/
def round0 : SlkRound := ⟨0, 1, 0, 3, 1, false⟩

theorem witness_SiteLinkStates_ring :
    ((mk []).csrError SLK_CTL true = false ∧ (mk []).on SLK_CTL_en = false) ∧
    ((ringed []).csrError SLK_CTL true = false ∧ (ringed []).on SLK_CTL_en = true) ∧
    ((mk [(SLK_STATUS_state, 1)]).get SLK_STATUS_state = 1 ∧ (mk []).slk.breakDue = false ∧
      ({ mk [] with slk := { breakDue := true } } : State).slk.breakDue = true) ∧
    (mk [(SLK_STATUS_state, 2)]).get SLK_STATUS_state = 2 ∧ (ringed []).get SLK_STATUS_state = 3 := by decide +kernel

theorem witness_SiteLinkStates_rounds :
    (let s : State := { ringed [] with voteQ := [(7, 1, true)] };
      s.voteQ = [(7, 1, true)] ∧ s.cs.site.getD 7 0 = 0 ∧ s.slk.locals = [] ∧ ((0 ||| 2 ^ 7) &&& s.slkMembersOf 0 = s.slkMembersOf 0) ∧
      ((0 ||| 2 ^ 6) &&& s.slkMembersOf 0 ≠ s.slkMembersOf 0)) ∧
    (({ ringed [] with slk := { rounds := [round0] } } : State).slk.rounds.find? fun x =>
      decide (x.site = (0 : BitVec 8).toNat) && decide (x.round = (1 : BitVec 8).toNat)) = some round0 ∧
    ((ringed []).csrError SLK_TH_CTL true = false ∧ (ringed []).waits = [] ∧
      ((regAt SLK_TH_CTL).map fun x => (x.1, x.2.1, x.2.2.1)) = some (.slk, 0, 0x024) ∧
      ((regAt SLK_TH_CTL).map fun x =>
        let u := (ringed []).plainWrite SLK_TH_CTL x.2.2.2 (withBit 0 0 true); decide (u.get SLK_STATUS_state = 3) && !u.on SLK_TH_CTL_busy) = some true) ∧
    (ringed [(SLK_TH_CTL_busy, 1)]).on SLK_TH_CTL_busy = true := by decide +kernel

/-- Frames of a ring of two by the origin `o`: VOTE, ANNOUNCE, TRAILHEAD, BREAK, ABANDON. -/
def frameOf (o typ : Nat) : List Byte :=
  withCrc (leBytes typ 1 ++ leBytes o 1 ++ [0] ++ if typ = 2 then [2, 0, 0, 0, 0] else List.replicate (frameLength typ - 5) 0)

theorem witness_SiteLinkReceives_frames :
    (∀ k : Fin 5, ∀ o : Fin 2, byteAt (frameOf o (k + 1)) 0 = k + 1 ∧ crc16 (frameOf o (k + 1)) = 0 ∧
      (frameOf o (k + 1)).length = frameLength (k + 1) ∧ (ringed []).slkMismatch (frameOf o (k + 1)) = none ∧
      byteAt (frameOf o (k + 1)) 2 % 64 < (ringed []).slkMembers) ∧
    (ringed []).get SLK_STATUS_state = 3 ∧ (ringed []).slkPos = 0 ∧ byteAt (frameOf 1 2) 1 % 32 ≠ 0 ∧ byteAt (frameOf 0 2) 1 % 32 = 0 ∧
    (ringed []).slkDrain.slkPos = 0 ∧ (ringed []).slkDrain.get SLK_STATUS_state = 3 ∧
    (ringed []).slkDrain.slkForwards (frameOf 0 1) = true ∧ ((ringed []).slkDrain.slkForward (forwarded (frameOf 1 5)) false).slk.closed = [] ∧
    ((ringed [(SLK_TH_CTL_busy, 1)]).slkDrain.on SLK_TH_CTL_busy = true ∧ (ringed []).slkDrain.slkForwards (frameOf 0 3) = false) ∧
    (frameOf 1 1).dropLast.length ≠ 8 ∧ crc16 [1, 2, 3, 4, 5, 6, 7, 8] ≠ 0 ∧ (frameOf 1 1).length ≠ 10 ∧ (frameOf 1 1).length ≠ 17 ∧
    (frameOf 1 1).length ≠ 6 ∧ (frameOf 1 1).length ≠ 7 := by
  decide +kernel

theorem witness_SiteLinkReceives_rounds :
    (let s : State := { ringed [] with slk := { rounds := [round0] } };
      (s.slk.rounds.find? fun r => decide (r.site = 0) && decide (r.round = 1)) = some round0 ∧ bit round0.mask 2 = false ∧
      bit round0.mask 1 = true ∧ (round0.votes ||| 2 ^ 1) &&& round0.mask = round0.mask ∧ bit round0.mask 0 = true ∧
      (round0.votes ||| 2 ^ 0) &&& round0.mask ≠ round0.mask ∧ s.get SLK_STATUS_state = 3) ∧
    (let s := ringed [(⟨SLK_SITE_MASK 255, 0, 32⟩, 2)];
      (s.slk.rounds.find? fun r => decide (r.site = 255) && decide (r.round = 1)) = none ∧ s.rn (SLK_SITE_MASK 255) = 2 ∧
      s.slk.rounds.length < 64 ∧ (255, 1) ∉ s.slk.closed ∧ bit 2 0 = false ∧ bit 2 1 = true ∧ 2 ^ 1 &&& 2 = 2) ∧
    (let s := ringed [(⟨SLK_SITE_MASK 255, 0, 32⟩, 3)];
      s.rn (SLK_SITE_MASK 255) = 3 ∧ bit 3 1 = true ∧ 2 ^ 1 &&& 3 ≠ 3 ∧ s.get SLK_STATUS_state = 3) ∧
    ({ ringed [] with slk := { closed := [(255, 1)] } } : State).slk.closed = [(255, 1)] ∧
    (let s := ringed [(SLK_PORT_CFG_listen_en 7, 1), (SLK_PORT_CFG_listen_site 7, 255)];
      s.canonical = true ∧ s.on (SLK_PORT_CFG_listen_en 7) = true ∧ s.get (SLK_PORT_CFG_listen_site 7) = 255 ∧
      s.port[(7 : Fin 8)].x9.length < 16) := by decide +kernel
/-! ## Witnesses: the scheduler, the near store and the far store -/

/-- The reset state with one slot of the task pool. -/
def pooled (l : List (Fld × Nat)) (t : Task) : State := { ported l with sch := { tasks := [(8191, t)] } }

/-- A descriptor (Table 11.1): kind, the byte of priority, group and start, flow, wait, wait source, wait count, delay, period and length
of the parameter block, which stands at the start of SRAM. -/
def desc (kind b flow wait wsrc wcount delay period plen : Nat) : List Byte :=
  leBytes kind 1 ++ leBytes b 1 ++ leBytes flow 2 ++ leBytes 0 6 ++ leBytes wait 1 ++ leBytes wsrc 1 ++ leBytes wcount 4 ++ leBytes 0 4 ++
  leBytes delay 4 ++ leBytes period 4 ++ leBytes 0 4 ++ leBytes 0x100000000 8 ++ leBytes plen 4 ++ leBytes 0 20

/-- What `taskSubmit` finds in slot 8191, which was allocated, with a descriptor in its memory: the descriptor and its refusal code. -/
def submitted (s0 : State) (l : List Byte) : Desc × Bool × Option Nat :=
  let s := s0.setBytes (s0.slotAddr 8191) l
  let d := Desc.ofBytes (s.bytes (s.slotAddr 8191) 64)
  let par := s.bytes d.param (min d.plen 8200)
  let tmpl := decide (d.start = 1) || (decide (d.start = 2) && decide (1 ≤ d.period))
  (d, tmpl, if s.slotState 8191 ≠ 1 then some 1 else if s.descOk (s.bytes (s.slotAddr 8191) 64) par = false then some 2
    else if d.group < 4 ∧ s.groupOn d.group = false then some 4
    else if d.flow ≠ 0xFFFF ∧ (256 ≤ d.flow ∨ s.on (SCH_FLOW_CFG_en d.flow) = false) then some 5
    else if tmpl = false ∧ d.flow < 256 ∧ 128 ≤ s.flowHeld d.flow then some 3 else none)

theorem witness_TaskPoolAndTemplates_submit :
    let s := pooled [] {}; let a := fun (x : Desc × Bool × Option Nat) => (x.1.start, x.2.1, x.1.wait, x.2.2);
    (mk []).csrError SCH_ALLOC false = false ∧ s.csrError SCH_SUBMIT true = false ∧ s.slotState 8191 = 1 ∧
    a (submitted s (desc 7 0x60 0xFFFF 0 0 0 0 0 24)) = (1, true, 0, none) ∧ a (submitted s (desc 7 0xA0 0xFFFF 0 0 0 1 1 24)) = (2, true, 0, none) ∧
    a (submitted s (desc 7 0xA0 0xFFFF 0 0 0 1 0 24)) = (2, false, 0, none) ∧ a (submitted s (desc 7 0x20 0xFFFF 0 0 0 0 0 24)) = (0, false, 0, none) ∧
    a (submitted s (desc 1 0x20 0xFFFF 2 7 1 0 0 0)) = (0, false, 2, none) ∧ (a (submitted (mk []) (desc 7 0x20 0xFFFF 0 0 0 0 0 24))).2.2.2 = some 1 ∧
    (a (submitted s (desc 8 0x20 0xFFFF 0 0 0 0 0 24))).2.2.2 = some 2 ∧
    (a (submitted (pooled [(⟨PWR_STATE_HI, 0, 12⟩, 0)] {}) (desc 7 0x18 0xFFFF 0 0 0 0 0 24))).2.2.2 = some 4 ∧
    (a (submitted s (desc 7 0x20 255 0 0 0 0 0 24))).2.2.2 = some 5 ∧
    (a (submitted (pooled [(SCH_FLOW_CFG_en 255, 1), (⟨SCH_FLOW_NEXT 255, 0, 32⟩, 128)] {}) (desc 7 0x20 255 0 0 0 0 0 24))).2.2.2 = some 3 := by
  decide +kernel

/-- An occurrence of binding 63 for the template in slot 8191. -/
def bound (t : Task) (l : List (Fld × Nat)) : State :=
  { mk ((SCH_BIND_slot 63, 8191) :: l) with sch := { tasks := [(8191, t)], binds := [(63, some 1)] } }

theorem witness_TaskPoolAndTemplates_cancel :
    (∀ st ∈ [2, 3, 5, 6, 7], (pooled [] { st := st }).task 8191 = some { st := st }) ∧ (mk []).task 8191 = none ∧
    (let s := bound { st := 2 } []; let u : State := { s with sch := { s.sch with binds := s.sch.binds.erase (63, some 1) } };
      (s.sch.binds.find? fun x => decide (x.1 = 63)) = some (63, some 1) ∧ (∀ y ∈ s.sch.binds, ¬y.1 < 63) ∧
      u.task (u.get (SCH_BIND_slot 63)) = some { st := 2 } ∧ lowestFree 0 u.sch.tasks < 8192 ∧
      ¬(({} : Desc).flow < 256 ∧ 128 ≤ u.flowHeld ({} : Desc).flow)) ∧
    ({ mk [] with tmb := { running := true } } : State).tmb.running = true ∧
    ((pooled [] { st := 3, left := 2 }).task 8191 = some { st := 3, left := 2 } ∧ (pooled [] { st := 3, left := 1 }).task 8191 = some { st := 3, left := 1 }) := by
  decide +kernel

theorem lowest_free_full (n k : Nat) (l : List (Nat × Task)) (h : l.map (·.1) = List.range' k n) : lowestFree k l = k + n := by
  induction n generalizing k l with
  | zero => cases l <;> simp_all [lowestFree]
  | succ n ih =>
    cases l with
    | nil => simp [List.range'] at h
    | cons x l =>
      simp only [List.map_cons, List.range'_succ, List.cons.injEq] at h
      simp only [lowestFree, h.1, if_true]
      rw [ih (k + 1) l h.2]; omega

/-- A pool in which every slot is taken: a clone finds none. -/
theorem witness_TaskPoolAndTemplates_full : 8192 ≤ lowestFree 0 ((List.range' 0 8192).map fun i => (i, ({ st := 2 } : Task))) := by
  exact Nat.le_of_eq (lowest_free_full 8192 0 _ (by simp [Function.comp_def])).symm

/-- A core that a task of slot 8191 runs on. -/
def busyCore (t : Task) : State := pooled [(SCH_CORE_state 15, 1), (SCH_CORE_slot 15, 8191)] { t with st := 6, core := 15, group := 3 }

theorem witness_TasksRun_waits :
    let t : Task := { st := 4, d := { wait := 1, wcount := 2, wtmo := 1, wsrc := 0 } };
    ((pooled [] t).headOf 0 = some (8191, t) ∧ t.d.wtmo ≠ 0 ∧
      (((pooled [] t).advanceTo (t.headAt.getD (pooled [] t).tmb.clk + t.d.wtmo * 8 * 8192000)).claim 0 8191 t).2.items < t.d.wcount) ∧
    (let t : Task := { t with items := 2 };
      (pooled [] t).headOf 0 = some (8191, t) ∧
      t.d.wcount ≤ (((pooled [] t).advanceTo (t.headAt.getD (pooled [] t).tmb.clk + t.d.wtmo * 8 * 8192000)).claim 0 8191 t).2.items) := by
  decide +kernel

theorem witness_TasksRun_dispatch :
    (let t : Task := { st := 5, group := 3, d := { kind := 1, prio := 7 } }; let s := pooled [(SCH_CTL_en, 1), (SCH_HAMPER_AREA_size, 1)] t;
      s.on SCH_CTL_en = true ∧ s.groupOn 3 = true ∧ s.blockedSlot 3 = none ∧ s.nextReady 3 = some (8191, t) ∧ t.room = 0 ∧
      s.hamperUsed + largestHamper t.d t.param ≤ 0x10000 * s.get SCH_HAMPER_AREA_size ∧ (s.idleCore 3).isSome = true ∧
      s.sch.blocked.lookup 3 ≠ some 8191) ∧
    (let t : Task := { st := 5, group := 3, d := { kind := 1 } }; let s : State := { pooled [(SCH_CTL_en, 1), (SCH_HAMPER_AREA_size, 0)] t with sch := { tasks := [(8191, t)], blocked := [(3, 8191)] } };
      s.blockedSlot 3 = some (8191, t) ∧ 0x10000 * s.get SCH_HAMPER_AREA_size < s.hamperUsed + largestHamper t.d t.param) ∧
    (let t : Task := { st := 5, group := 3, d := { kind := 1, prio := 7 }, room := 1 };
      let s := pooled [(SCH_CTL_en, 1), (SCH_CORE_state 12, 1), (SCH_CORE_state 13, 1), (SCH_CORE_state 14, 1), (SCH_CORE_state 15, 1)] t;
      s.nextReady 3 = some (8191, t) ∧ t.room ≠ 0 ∧ s.idleCore 3 = none ∧ (s.victim 3 t.d.prio).isSome = true ∧ s.victim 3 0 = none) ∧
    (let t : Task := { st := 5, group := 3, d := { kind := 1, prio := 7 } };
      (pooled [(SCH_CTL_en, 1), (SCH_HAMPER_AREA_size, 0)] t).sch.blocked.lookup 3 ≠ some 8191 ∧
      0x10000 * (pooled [(SCH_CTL_en, 1), (SCH_HAMPER_AREA_size, 0)] t).get SCH_HAMPER_AREA_size < (pooled [(SCH_CTL_en, 1), (SCH_HAMPER_AREA_size, 0)] t).hamperUsed + largestHamper t.d t.param) := by
  decide +kernel

theorem witness_TasksRun_ends :
    (let t : Task := { st := 6, core := 15, group := 3, d := { kind := 5, wait := 0 } }; let s := busyCore t;
      s.get (SCH_CORE_state 15) = 1 ∧ s.get (SCH_CORE_slot 15) = 8191 ∧ s.task 8191 = some t ∧ t.inputChans &&& s.frozenMask = 0 ∧
      s.limitWaits t = false ∧ (∀ x ∈ s.jobSpans t, s.mayMove (22 + 15 / 4) x.1 x.2 = true)) ∧
    ({ kind := 1 } : Desc).kind = 1 ∧ (mk [(SCH_CORE_state 15, 3)]).get (SCH_CORE_state 15) = 3 := by decide +kernel

/-- A fail record. -/
def fail0 : FailRec := ⟨0, 0, 0, 0, 0, 0, false⟩

/-- A ring of port 7 of 256 records that can be used: behind the task pool and the Hamper area in the banks of the result cores. -/
def fringed (l : List (Fld × Nat)) : State :=
  let s := ported ([(SCH_FRING_SIZE_size 7, 8)] ++ l)
  (s.wn64 (SCH_FRING_BASE_LO 7) (s.slotAddr 0xA000)).setPort 7 { fifo := [fail0] }

theorem witness_HampersAndFails :
    (let t : Task := { st := 7, d := { flow := 256 } };
      (pooled [] t).task 8191 = some t ∧ (pooled [] t).releasable t = true ∧
      (pooled [] t).get (NET_SESS_STATUS_state ((pooled [] t).flowSession 256)) ≠ 2) ∧
    (let t : Task := { st := 7, d := { flow := 256 } }; let s := pooled [(NET_SESS_STATUS_state 0, 2)] t;
      s.releasable t = true ∧ s.get (NET_SESS_STATUS_state (s.flowSession 256)) = 2) ∧
    (let t : Task := { st := 7, d := { flow := 255 } }; let s := pooled [] t;
      s.releasable t = true ∧ s.get (NET_SESS_STATUS_state (s.flowSession 255)) ≠ 2 ∧ s.on (SCH_FLOW_STATUS_stalled 255) = false) ∧
    (let t : Task := { st := 7, d := { flow := 255 } }; let s := pooled [(SCH_FLOW_STATUS_stalled 255, 1)] t;
      s.releasable t = true ∧ s.get (NET_SESS_STATUS_state (s.flowSession 255)) ≠ 2 ∧ s.on (SCH_FLOW_STATUS_stalled 255) = true) ∧
    (let t : Task := { st := 7, d := { flow := 255 } }; let s := pooled [(NET_SESS_STATUS_state 0, 2)] t;
      s.releasable t = true ∧ s.get (NET_SESS_STATUS_state (s.flowSession 255)) = 2) ∧
    ((fringed []).port[(7 : Fin 8)].fifo = [fail0] ∧ (fringed []).failRingOk 7 = true ∧
      ((fringed []).rn (SCH_FRING_WR 7) + 2 ^ 32 - (fringed []).rn (SCH_FRING_RD 7)) % 2 ^ 32 ≠ 2 ^ (fringed []).get (SCH_FRING_SIZE_size 7)) ∧
    (let s := fringed [(⟨SCH_FRING_WR 7, 0, 32⟩, 256)];
      s.failRingOk 7 = true ∧ (s.rn (SCH_FRING_WR 7) + 2 ^ 32 - s.rn (SCH_FRING_RD 7)) % 2 ^ 32 = 2 ^ s.get (SCH_FRING_SIZE_size 7)) ∧
    (((mk []).setPort 7 { fifo := [fail0] }).port[(7 : Fin 8)].fifo = [fail0] ∧ ((mk []).setPort 7 { fifo := [fail0] }).failRingOk 7 = false) ∧
    ((mk []).csrError (SCH_FLOW_CFG 255) true = false ∧ (mk []).waits = [] ∧
      ((regAt (SCH_FLOW_CFG 255)).map fun x => (x.1, x.2.1, x.2.2.1)) = some (.sch, 0, 0x1000 + 16 * 255)) := by decide +kernel

/-- A read or a write of line 0 of channel 3. -/
def nearTx (req : Nat) (w : Option (BitVec 512)) (en : BitVec 64) : FabTx :=
  { req := req, pool := 3, line := nearBase 3, write := w, shared := false, dest := .other, answer := none, enables := en, hops := 9 }

/-- Channel 3 runs with that transaction in its queue. -/
def channel (l : List (Fld × Nat)) (t : FabTx) : State :=
  { mk ([(DMC_STATUS_state 3, 3), (DMC_CAPACITY_units 3, 1)] ++ l) with fab := [t], dmc := Vector.replicate 4 { burst := t.write.isSome } }

theorem witness_NearAccesses_reads :
    (∀ req ∈ [7, 20], ((channel [] (nearTx req none 0)).dmcPick 3 false).map (·.tx) = some (nearTx req none 0)) ∧
    (let s := channel [] (nearTx 7 none 0);
      s.dmcRuns 3 = true ∧ s.zeroed 3 (nearBase 3) = true ∧ uncorrectables (s.lineRead 3 (nearBase 3) 0) = 0 ∧
      uncorrectables (s.lineRead 3 (nearBase 3) 1) = 0 ∧ uncorrectables (s.lineRead 3 (nearBase 3) 0x11) ≠ 0) ∧
    (let s : State := { channel [(DMC_STATUS_state 3, 2)] (nearTx 7 none 0) with dmc := Vector.replicate 4 { initEnd := 1 } };
      s.dmcRuns 3 = true ∧ (s.dmcPick 3 false).isSome = true ∧ s.zeroed 3 (nearBase 3) = false) ∧
    ((mk []).dmc[(3 : Fin 4)].patterned.lookup (lineOf (nearBase 3)) = none ∧ errSyms (0 : BitVec 640).toNat 7 = [] ∧
      errSyms (1 : BitVec 640).toNat 0 = [(0, 1)] ∧ errSyms (0x11 : BitVec 640).toNat 0 = [(0, 1), (1, 1)]) := by decide +kernel

theorem witness_NearAccesses_writes :
    (let s := channel [] (nearTx 7 (some 5) (BitVec.allOnes 64));
      s.canonical = true ∧ s.dmcRuns 3 = true ∧ (s.dmcPick 3 true).map (·.tx) = some (nearTx 7 (some 5) (BitVec.allOnes 64)) ∧
      partialWrite (BitVec.allOnes 64) = false) ∧
    (let s := channel [] (nearTx 7 (some 5) 1);
      s.canonical = true ∧ s.dmcRuns 3 = true ∧ (s.dmcPick 3 true).map (·.tx) = some (nearTx 7 (some 5) 1) ∧ partialWrite 1 = true ∧
      uncorrectables (s.lineRead 3 (nearBase 3) 0x11) ≠ 0) := by decide +kernel

/-- Channel 3 with what it holds beside its registers. -/
def upkept (l : List (Fld × Nat)) (h : DmcH) : State := { mk l with dmc := Vector.replicate 4 h }

theorem witness_NearUpkeep :
    (true && (mk []).chanPanic 3 && decide ((mk []).dmc[(3 : Fin 4)].postponed < 4)) = false ∧
    (let s := upkept [(PRT_STRM_STATUS_panic 7, 1)] { postponed := 2 }; s.chanPanic 3 = true ∧ s.dmc[(3 : Fin 4)].postponed < 3) ∧
    (upkept [(PRT_STRM_STATUS_panic 7, 1)] { postponed := 3 }).dmc[(3 : Fin 4)].postponed = 3 ∧
    ((mk [(DMC_STATUS_state 3, 3)]).get (DMC_STATUS_state 3) = 3 ∧ (mk []).on (DMC_STATUS_frozen 3) = false) ∧
    ((upkept [] { round := true }).dmc[(3 : Fin 4)].round = true ∧ (upkept [] { round := true }).chanPanic 3 = false ∧
      (upkept [(PRT_STRM_STATUS_panic 7, 1)] { round := true }).chanPanic 3 = true ∧ (upkept [] { round := true }).cal.run ≠ some 75) ∧
    (∀ l < 80, (mk []).get (DMC_RETRAIN_CFG_min_w 3) ≤ ((List.replicate 80 (255, 255)).getD l (0, 0)).1 ∧
      2 * (mk []).get (DMC_RETRAIN_CFG_min_h 3) ≤ ((List.replicate 80 (255, 255)).getD l (0, 0)).2) ∧
    (∃ l < 80, (([] : List (Nat × Nat)).getD l (0, 0)).1 < (mk []).get (DMC_RETRAIN_CFG_min_w 3)) ∧ (mk []).get (DMC_STATUS_rt_fails 3) < 2 ∧
    (let s := mk [(DMC_STATUS_state 3, 2)];
      s.get (DMC_STATUS_state 3) = 2 ∧ s.domainOn (32 + 3) = true ∧ s.on (DMC_STATUS_frozen 3) = false ∧
      (s.dmcQueue 3).find? (fun t => t.write.isSome && !s.zeroed 3 t.line) = none ∧ s.dmc[(3 : Fin 4)].initDone = []) ∧
    ((mk [(DMC_STATUS_state 3, 1)]).get (DMC_STATUS_state 3) = 1 ∧ (mk [(DMC_STATUS_state 3, 1)]).trainLeft = []) := by decide +kernel

/-- Channel 3 is frozen, and a diagnostic access is set up at its first line. -/
def frozen3 : State := mk [(DMC_STATUS_frozen 3, 1), (DMC_CAPACITY_units 3, 1), (⟨DMC_DIAG_ADDR_LO 3 + 4, 0, 32⟩, nearBase 3 / 2 ^ 32)]

theorem witness_FrozenAndRetained_freeze :
    (frozen3.csrError (DMC_FREEZE_CTL 3) true = false ∧ frozen3.on (DMC_STATUS_frozen 3) = true) ∧
    (frozen3.csrError (DMC_DIAG_CTL 3) true = false ∧ frozen3.waits = [] ∧
      ((regAt (DMC_DIAG_CTL 3)).map fun x => (x.1, x.2.1, x.2.2.1)) = some (.dmc, 3, 0x088)) := by decide +kernel

/-- A diagnostic access starts in the state that a write of DMC_DIAG_CTL leaves (R375). -/
def diagReady (u : State) : Bool :=
  !u.on (DMC_DIAG_CTL_busy 3) && u.on (DMC_STATUS_frozen 3) && decide (nearBase 3 ≤ lineOf (u.rn64 (DMC_DIAG_ADDR_LO 3))) &&
    decide (lineOf (u.rn64 (DMC_DIAG_ADDR_LO 3)) < nearBase 3 + nearUnit * u.get (DMC_CAPACITY_units 3))

theorem witness_FrozenAndRetained_diag :
    ((regAt (DMC_DIAG_CTL 3)).map fun x => diagReady (frozen3.plainWrite (DMC_DIAG_CTL 3) x.2.2.2 1)) = some true ∧
    ((regAt (DMC_DIAG_CTL 3)).map fun x => diagReady (frozen3.plainWrite (DMC_DIAG_CTL 3) x.2.2.2 2)) = some true ∧
    withBit (withBit 0 0 true) 1 false = (1 : Word) ∧ withBit (withBit 0 0 false) 1 true = (2 : Word) := by decide +kernel

theorem witness_FrozenAndRetained_done :
    ((upkept [] { diag := some (2, nearBase 3, 255) }).dmc[(3 : Fin 4)].diag = some (2, nearBase 3, 255) ∧
      (upkept [] { diag := some (1, nearBase 3, 0) }).canonical = true) := by decide +kernel

theorem witness_FrozenAndRetained_retention :
    let s := mk [(DMC_STATUS_state 3, 5)];
    s.get (DMC_STATUS_state 3) = 5 ∧ s.domainOn (32 + 3) = true ∧ uncorrectables (s.lineRead 3 (nearBase 3) 0) = 0 ∧
    (0x11 : BitVec 640) ≠ 0 ∧ uncorrectables (s.lineRead 3 (nearBase 3) 0x11) ≠ 0 := by decide +kernel

/-- A read or a write of the far store's first line. -/
def farTx (w : Option (BitVec 512)) : FabTx :=
  { req := 20, pool := 4, line := farBase, write := w, shared := false, dest := .other, answer := none, hops := 9 }

/-- Both halves are UP, and those transactions are in flight. -/
def farUp (l : List FabTx) : State :=
  { mk [(CXH_LINK_state 0, 3), (CXH_LINK_state 1, 3), (CXH_CAP_gib 0, 4096), (CXH_CTL_en, 1)] with fab := l }

theorem witness_CxlHalves :
    ((mk []).csrError CXH_CTL true = false ∧ (mk []).waits = [] ∧ ((regAt CXH_CTL).map fun x => (x.1, x.2.1, x.2.2.1)) = some (.cxh, 0, 0x000) ∧
      (mk [(CXH_CTL_en, 0)]).on CXH_CTL_en = false ∧ bit (1 : Word).toNat 5 = false ∧ (mk [(CXH_CTL_en, 1)]).on CXH_CTL_en = true ∧
      (mk [(CXH_CTL_en, 1)]).on CXH_CTL_en = bit (1 : Word).toNat 0) ∧
    (((regAt CXH_CTL).map fun x => ((mk []).plainWrite CXH_CTL x.2.2.2 1).domainOn 36) = some true ∧
      ((regAt CXH_CTL).map fun x => ((mk [(⟨PWR_STATE_HI, 0, 12⟩, 0)]).plainWrite CXH_CTL x.2.2.2 1).domainOn 36) = some false) ∧
    ((mk [(CXH_LINK_state 1, 1)]).get (CXH_LINK_state 1) = 1 ∧ (mk []).setupStep 16 0 0 false ≠ 0 ∧ (mk []).setupStep 16 5 0 true = 0) ∧
    (mk [(CXH_LINK_state 1, 2)]).get (CXH_LINK_state 1) = 2 ∧ (farUp []).get (CXH_LINK_state 1) = 3 ∧ (mk []).get (CXH_LINK_state 1) ≠ 2 ∧
    (mk [(CXH_LINK_state 1, 4)]).get (CXH_LINK_state 1) = 4 := by decide +kernel

theorem witness_FarTransactions :
    (((farUp [farTx none]).cxlFlight false)[0]? = some (farTx none) ∧ (farTx none).stale = false ∧
      (farUp [farTx none]).behindLine (farTx none) = false ∧ (farUp [farTx none]).txHalf (farTx none) = 0 ∧
      (0 : Nat) + 1 < 16 ∧ (farUp [farTx none]).cxh[(0 : Fin 2)].timeouts = []) ∧
    (let s := farUp [farTx (some 5), farTx none]; (s.cxlFlight false)[0]? = some (farTx none) ∧ s.behindLine (farTx none) = true) ∧
    (let t := { farTx none with stale := true }; ((farUp [t]).cxlFlight false)[0]? = some t) ∧
    (((farUp [farTx (some 5)]).cxlFlight true)[0]? = some (farTx (some 5)) ∧ (farUp [farTx (some 5)]).behindLine (farTx (some 5)) = false ∧
      (farUp [farTx (some 5)]).canonical = true) ∧
    (let s : State := { farUp [farTx none] with cxh := Vector.replicate 2 { timeouts := List.replicate 15 9000000000000 }, tmb := { running := true, count := 9000000000000, clk := 9000000000000 } };
      let c := (s.advanceTo ((farTx none).at_ + max 1 (s.get CXH_TMO_us) * 8192000000)).tmb.clk;
      16 ≤ (c :: (s.cxh[(0 : Fin 2)].timeouts.filter fun x => decide (c < x + 8192000000000))).length) ∧
    (farUp []).get (CXH_LINK_state 1) = 3 ∧ (mk [(CXH_LINK_state 1, 4)]).get (CXH_LINK_state 1) = 4 := by decide +kernel
/-! ## Witnesses: the host protocol -/

/-- READY, port A up with a valid IPv4 address, session 7 open with every permission and credit for two units on each channel. -/
def opened (l : List (Fld × Nat)) : State :=
  { mk ([(NET_PORT_STATUS_link 0, 1), (NET_PORT_STATUS_v4_valid 0, 1), (NET_SESS_STATUS_state 7, 2)] ++ l) with
    boot := { stage := 4 }
    sec := { dik := 5, fwDigest := 0, provKey := signer }
    net := { sess := Vector.replicate 8 { perms := 7, chans := Vector.replicate 7 { credit := 2 } } } }

/-- A plaintext frame of a channel of session 7, with a payload. -/
def frame (channel : Nat) (l : List Byte) : Rx := { session := 7, channel := channel, len := 32 + l.length, length := l.length, payload := l }

/-- A request of the management channel: opcode, tag and arguments (Table 14.7). -/
def request (o : Nat) (l : List Byte) : Rx := frame 0 (beBytes o 2 ++ beBytes 0 2 ++ beBytes 9 4 ++ l)

/-- A session-7 request is taken as it is received. -/
def takes (s : State) (o : Nat) (l : List Byte) : Bool :=
  s.requestOk 7 (request o l) (request o l) o && decide ((request o l).payload.drop 8 = l) && decide (argBe (request o l).payload 4 4 = 9)

theorem witness_ShortRequests :
    takes (opened []) 1 [] = true ∧
    (let l := beBytes GLB_ID 8 ++ beBytes 256 4; takes (opened []) 2 l = true ∧ l.length = 12 ∧ 1 ≤ argBe l 8 4 ∧ argBe l 8 4 ≤ 256) ∧
    (let l := beBytes 1 4 ++ beBytes 0 4 ++ beBytes EVC_CTL 8 ++ beBytes 1 4 ++ beBytes 0 4;
      takes (opened []) 3 l = true ∧ 8 ≤ l.length ∧ argBe l 4 4 = 0 ∧ 1 ≤ argBe l 0 4 ∧ argBe l 0 4 ≤ 256 ∧
      csrItems (argBe l 0 4) (l.drop 8) = some [(EVC_CTL, 1)]) ∧
    (let l := beBytes 0 4 ++ beBytes 8172 4; takes (opened []) 4 l = true ∧ l.length = 8 ∧ argBe l 4 4 ≤ 8172) ∧
    takes (opened []) 5 [] = true ∧ (takes (opened []) 0x2F [] = true ∧ opcodeKnown 0x2F = false) := by decide +kernel

/-- Arguments that name bytes of SRAM. -/
def inSramArgs : List Byte := beBytes 0x106000000 8 ++ beBytes 0 4

theorem witness_LongOperations :
    (inSramArgs.length = 12 ∧ inSram (argBe inSramArgs 0 8) (argBe inSramArgs 8 4) = true) ∧
    takes (opened []) 0x10 inSramArgs = true ∧ takes (opened []) 0x13 inSramArgs = true ∧ takes (opened []) 0x15 inSramArgs = true ∧
    (takes (opened []) 0x11 (beBytes 15 4) = true ∧ argBe (beBytes 15 4) 0 4 ≤ 15) ∧
    takes (opened []) 0x12 [] = true ∧ takes (opened []) 0x14 [] = true ∧ takes (opened []) 0x16 [] = true ∧
    (let o : LongOp := { opcode := 0x14, sess := 8, sid := 0, tag := 0, seq := 0, at_ := 0, bound := 1, outcome := some (0, []) };
      ({ mk [] with long := some o } : State).long = some o ∧ o.outcome = some (0, []) ∧ 8 ≤ o.sess ∧ { o with sess := 7 }.sess = (7 : Fin 8).val) := by
  decide +kernel

theorem length_beBytes (x n : Nat) : (beBytes x n).length = n := by simp [beBytes, length_le_bytes]

/-- The owner package that the tests enrol (Table 15.7): ephemeral point and authority are the test key, the ORK is sealed to the DIK 5. -/
def enrolHead : List Byte :=
  leBytes 0x504F5A45 4 ++ leBytes 1 2 ++ leBytes 0 26 ++ signer ++ signer
def enrolBody : List Byte := beBytes 0x6E3AEF8753BD8F65D28DF4144A631F72451F0E445E9CC2A8EF0D091DE7EE78D7 32
def enrolTag : List Byte := beBytes 0x3C9C14D8542ACBF07EDE99FB3F06B973 16
def enrolSig (r : Nat) : List Byte :=
  sigOf r 0x1EF49A76CDE8B472F0ED37259659071615CCC361735FE47FD57908E3A0AB4D44850BE9768743BBB0206C5C0E51703514
def enrolPackage (r : Nat) : List Byte := enrolHead ++ enrolBody ++ enrolTag ++ enrolSig r

/-- A PROVISIONED device with the package, of a signature with `r`, in SRAM. -/
def enrolling (r : Nat) : State :=
  ((mk []).setBytes 0x100000000 (enrolPackage r)).setSec { dik := 5, fwDigest := 0, provKey := [], provisioned := true }

def enrolR : Nat := 0xF91B5514A332CCA4C615927479C637081A572972730E951716D8686BACB12F5A6706CAA93329200D7EDF6E26B7EC86CE

theorem enrol_key : (enrolling enrolR).enrolKey signer =
    7977662485849052706986530696750519200322602491342009629235611516389203187176 := by decide +kernel

set_option maxRecDepth 100000 in
theorem enrol_tag : gcmTag 7977662485849052706986530696750519200322602491342009629235611516389203187176 0 enrolHead enrolBody = enrolTag := by
  decide +kernel

set_option maxRecDepth 100000 in
theorem enrol_signed : ownerSigned (enrolPackage enrolR) = true ∧ ownerSigned (enrolPackage 0) = false := by decide +kernel

theorem enrolPackage_parts : ∀ r ∈ [enrolR, 0], (enrolPackage r).take 224 = enrolHead ∧ ((enrolPackage r).drop 128).take 96 = signer ∧
    ((enrolPackage r).drop 224).take 32 = enrolBody ∧ ((enrolPackage r).drop 256).take 16 = enrolTag := by decide +kernel

theorem length_enrolPackage (r : Nat) : (enrolPackage r).length = 368 := by
  simp [enrolPackage, enrolHead, enrolBody, enrolTag, enrolSig, sigOf, signer, length_beBytes, length_le_bytes]

theorem enrolling_mem (r : Nat) : (enrolling r).mem = ((mk []).setBytes 0x100000000 (enrolPackage r)).mem := by
  rw [enrolling, State.setSec_mem]

theorem enrolling_bytes_at (r i n : Nat) (h : i + n ≤ 368) : (enrolling r).bytes (0x100000000 + i) n = ((enrolPackage r).drop i).take n :=
  (State.bytes_congr n (enrolling_mem r)).trans (State.bytes_setBytes i n (by decide +kernel) (length_enrolPackage r ▸ h))

theorem enrolling_le (r i n : Nat) (h : i + n ≤ 368) : (enrolling r).le (0x100000000 + i) n = ofLe (((enrolPackage r).drop i).take n) := by
  rw [State.le_eq, enrolling_bytes_at r i n h]

theorem enrolling_bytes (r : Nat) : (enrolling r).bytes 0x100000000 368 = enrolPackage r :=
  (enrolling_bytes_at r 0 368 (by decide)).trans (List.take_of_length_le (Nat.le_of_eq (length_enrolPackage r)))

theorem enrol_ork : ((enrolling enrolR).enrolOrk (enrolPackage enrolR)).isSome = true := by
  obtain ⟨h1, h2, h3, h4⟩ := enrolPackage_parts enrolR (by simp)
  rw [State.enrolOrk, h1, h2, h3, h4, enrol_key, gcmOpen, if_pos enrol_tag]
  rfl

theorem witness_LongOperations_ork : ((enrolling enrolR).enrolOrk ((enrolling enrolR).bytes 0x100000000 368)).isSome = true := by
  rw [enrolling_bytes]
  exact enrol_ork

theorem witness_LongOperations_enrol :
    (enrolling enrolR).enrolCode 0x100000000 368 = 0 ∧ (enrolling 0).enrolCode 0x100000000 368 = 12 ∧ (mk []).enrolCode 0x100000000 368 = 1 := by
  have h0 := fun r => enrolling_le r 0 4 (by decide)
  have h4 := fun r => enrolling_le r 4 2 (by decide)
  have h6 := fun r => enrolling_le r 6 2 (by decide)
  have h8 := fun r => enrolling_le r 8 8 (by decide)
  have h28 := fun r => enrolling_le r 28 4 (by decide)
  refine ⟨?_, ?_, by decide +kernel⟩
  all_goals
    simp only [State.enrolCode, enrolling_bytes, h0, h4, h6, h8, h28, enrol_signed.1, enrol_signed.2, Option.isNone_eq_false_iff.mpr enrol_ork]
    decide +kernel

/-- A firmware image of a kind (Table 17.14): header with rollback 63, an empty body, the key of the firmware and its signature. -/
def imageHead (kind : Nat) : List Byte :=
  leBytes 0x49465A45 4 ++ leBytes kind 1 ++ leBytes 0 1 ++ leBytes kind 2 ++ leBytes 63 1 ++ leBytes 0 3 ++ leBytes 0 4 ++
  beBytes 0x38B060A751AC96384CD9327EB1B1E36A21FDB71114BE07434C0CC7BF63F6E1DA274EDEBFE76F65FBD51AD2F14898B95B 48 ++ signer
def image (kind s : Nat) : List Byte := imageHead kind ++ sigOf enrolR s

def image1 : List Byte := image 1 0xC18C85EB12358F3CC349EDC2855C99B05B0F77EC1D66121D3D25BC8178CE1F14EB6C9D1CEE8AA40F4D0D64CAE8CA7519
def image2 : List Byte := image 2 0x04F14EB376A384EDF5B8C40AD1E59809AF7AFE7E436DEA2191E2F75C20FA9D6A825958FB59AF60D2765668E210AB613DF
def image3 : List Byte := image 3 0x80F3F430F9567D9636280AB388228B9CE886E84C56E4949EC3F73FDAC8E0C135DF4F35E191545ED75989F705BE4387C3

/-- The state before it, in boot stage 1. -/
def staged1 : State := { mk [] with boot := { stage := 1 } }

/-- A device in LOCKED whose boot ROM knows that key, with its three images in SRAM. -/
def imaged : State :=
  (staged1.setBytes 0x100000000 (image1 ++ image2 ++ image3)).setSec {
    dik := 5, provKey := [], provisioned := true, dikOff := true
    fwDigest := 0xA896F77C800D75E6248FCF02B201E58C563E3A6A31EE359EFAEAFC4054A15B42976D374C353B6A197C294657F0791C12 }

set_option maxRecDepth 100000 in
theorem signer_digest : sha384 signer =
    0xA896F77C800D75E6248FCF02B201E58C563E3A6A31EE359EFAEAFC4054A15B42976D374C353B6A197C294657F0791C12 ∧
    shaBytes [] = beBytes 0x38B060A751AC96384CD9327EB1B1E36A21FDB71114BE07434C0CC7BF63F6E1DA274EDEBFE76F65FBD51AD2F14898B95B 48 := by
  decide +kernel

/-- The parts of the three images. -/
theorem images_parts : ∀ x ∈ [image1, image2, image3], (x.drop 64).take 96 = signer ∧ x.drop 256 = [] ∧ x.length = 256 ∧
    (x.drop 16).take 48 = beBytes 0x38B060A751AC96384CD9327EB1B1E36A21FDB71114BE07434C0CC7BF63F6E1DA274EDEBFE76F65FBD51AD2F14898B95B 48 := by
  decide +kernel

set_option maxRecDepth 100000 in
theorem images_verify : ∀ x ∈ [image1, image2, image3], sigVerifies signer (x.take 160) ((x.drop 160).take 96) = true := by decide +kernel

/-- The images are signed for every state whose boot ROM knows the key. -/
theorem images_signed {s : State} (hf : s.sec.fwDigest = sha384 signer) (x : List Byte) (h : x ∈ [image1, image2, image3]) :
    s.imageSign x = 0 := by
  obtain ⟨h1, h2, -, h3⟩ := images_parts x h
  simp only [State.imageSign, h1, h2, h3, hf, images_verify x h, signer_digest.2, List.take_nil, ne_eq, not_true_eq_false, if_false,
    Bool.not_true, Bool.false_eq_true]

theorem length_images : (image1 ++ image2 ++ image3).length = 768 := by decide +kernel

theorem imaged_mem : imaged.mem =
    (staged1.setBytes 0x100000000 (image1 ++ image2 ++ image3)).mem := by
  rw [imaged, State.setSec_mem]

theorem imaged_bytes (i n : Nat) (h : i + n ≤ 768) : imaged.bytes (0x100000000 + i) n = ((image1 ++ image2 ++ image3).drop i).take n :=
  (State.bytes_congr n imaged_mem).trans (State.bytes_setBytes i n (by decide +kernel) (length_images ▸ h))

theorem imaged_le (i n : Nat) (h : i + n ≤ 768) : imaged.le (0x100000000 + i) n = ofLe (((image1 ++ image2 ++ image3).drop i).take n) := by
  rw [State.le_eq, imaged_bytes i n h]

/-- The fields of the header of each image, and its bytes. -/
theorem images_heads : ∀ x ∈ [(0, 1, image1), (256, 2, image2), (512, 3, image3)],
    let l := image1 ++ image2 ++ image3;
    ofLe ((l.drop x.1).take 4) = 0x49465A45 ∧ ofLe ((l.drop (x.1 + 4)).take 1) = x.2.1 ∧ ofLe ((l.drop (x.1 + 5)).take 1) = 0 ∧
    ofLe ((l.drop (x.1 + 8)).take 1) = 63 ∧ ofLe ((l.drop (x.1 + 9)).take 3) = 0 ∧ ofLe ((l.drop (x.1 + 12)).take 4) = 0 ∧
    (l.drop x.1).take 256 = x.2.2 ∧ x.1 + 256 ≤ 768 := by decide +kernel

/-- The same in SRAM. -/
theorem imaged_heads (x : Nat × Nat × List Byte) (h : x ∈ [(0, 1, image1), (256, 2, image2), (512, 3, image3)]) :
    imaged.le (0x100000000 + x.1) 4 = 0x49465A45 ∧ imaged.le (0x100000000 + x.1 + 4) 1 = x.2.1 ∧ imaged.le (0x100000000 + x.1 + 5) 1 = 0 ∧
    imaged.le (0x100000000 + x.1 + 8) 1 = 63 ∧ imaged.le (0x100000000 + x.1 + 9) 3 = 0 ∧ imaged.le (0x100000000 + x.1 + 12) 4 = 0 ∧
    imaged.bytes (0x100000000 + x.1) 256 = x.2.2 := by
  obtain ⟨h1, h2, h3, h4, h5, h6, h7, hx⟩ := images_heads x h
  simp only [Nat.add_assoc]
  rw [imaged_le _ 4 (by omega), imaged_le (x.1 + 4) 1 (by omega), imaged_le (x.1 + 5) 1 (by omega), imaged_le (x.1 + 8) 1 (by omega),
    imaged_le (x.1 + 9) 3 (by omega), imaged_le (x.1 + 12) 4 (by omega), imaged_bytes _ 256 hx]
  exact ⟨h1, h2, h3, h4, h5, h6, h7⟩

/-- One image at the head of a concatenation. -/
theorem fwImages_head {s : State} {a len n k : Nat} {img : List Byte} (hl : 256 ≤ len) (hm : 256 ≤ imageMax k)
    (h : s.le a 4 = 0x49465A45 ∧ s.le (a + 4) 1 = k ∧ s.le (a + 5) 1 = 0 ∧ s.le (a + 8) 1 = 63 ∧ s.le (a + 9) 3 = 0 ∧ s.le (a + 12) 4 = 0 ∧
      s.bytes a 256 = img) :
    s.fwImages a len (n + 1) = (s.fwImages (a + 256) (len - 256) n).map fun l => (k, 63, img) :: l := by
  obtain ⟨h1, h2, h3, h4, h5, h6, h7⟩ := h
  simp only [State.fwImages, h1, h2, h3, h4, h5, h6, h7]
  rw [if_neg (by omega), if_neg (by omega)]

theorem witness_LongOperations_firmware :
    imaged.fwImages 0x100000000 768 3 = some [(1, 63, image1), (2, 63, image2), (3, 63, image3)] ∧
    ([1, 2, 3] : List Nat).Perm [1, 2, 3] ∧ imaged.rollbackOf 1 ≤ 63 ∧ imaged.rollbackOf 2 ≤ 63 ∧ imaged.rollbackOf 3 ≤ 63 ∧
    ∀ x ∈ [image1, image2, image3], imaged.imageSign x = 0 := by
  refine ⟨?_, List.Perm.refl _, by decide +kernel, by decide +kernel, by decide +kernel, images_signed signer_digest.1.symm⟩
  have h1 := fwImages_head (s := imaged) (len := 768) (n := 2) (by decide) (by decide) (imaged_heads (0, 1, image1) (by simp))
  have h2 := fwImages_head (s := imaged) (len := 512) (n := 1) (by decide) (by decide) (imaged_heads (256, 2, image2) (by simp))
  have h3 := fwImages_head (s := imaged) (len := 256) (n := 0) (by decide) (by decide) (imaged_heads (512, 3, image3) (by simp))
  simp only [Nat.reduceAdd, Nat.reduceSub] at h1 h2 h3
  rw [h1, h2, h3]
  rfl

/-- A bulk frame: op, flags, tag, length and address (Table 14.10), then data. -/
def bulk (op len addr : Nat) (l : List Byte) : Rx := frame 1 ([BitVec.ofNat 8 op, 1] ++ beBytes 5 2 ++ beBytes len 4 ++ beBytes addr 8 ++ l)

/-- What `BulkTransfers` asks of a state and a frame, beside the form of its op. -/
def bulkOk (s : State) (rx : Rx) : Bool :=
  s.dataOk 7 1 rx rx && decide (16 ≤ rx.payload.length) && decide (argBe rx.payload 8 8 % 4 = 0) && decide (argBe rx.payload 4 4 % 4 = 0) &&
  (s.taken 7 rx).holdsPerm 7 0 && !(s.taken 7 rx).net.sess[(7 : Fin 8)].limited

/-- A bulk write of a word to SRAM, a read of one, a write to an address that no memory serves, and a read of a near-store line. -/
def bulkW : Rx := bulk 1 4 0x104000000 [1, 2, 3, 4]
def bulkR : Rx := bulk 2 4 0x104000000 []
def bulkX : Rx := bulk 2 0x1000000 0x100000000 []
def bulkN : Rx := { bulk 2 4 (nearBase 3) [] with bad := [(nearBase 3, 0x11)] }

/-- Channel 3 runs, and session 7 is open. -/
def nearOpened (l : List (Fld × Nat)) : State := opened ([(DMC_STATUS_state 3, 3), (DMC_CAPACITY_units 3, 1)] ++ l)

theorem witness_BulkTransfers_open :
    (let s := (opened []).taken 7 bulkW;
      bulkOk (opened []) bulkW = true ∧ argBe bulkW.payload 0 1 = 1 ∧ argBe bulkW.payload 4 4 = 4 ∧ bulkW.payload.length = 16 + 4 ∧
      s.memStatus 0x104000000 4 = none ∧ s.memWaits 0x104000000 4 = false ∧ s.mayMove (27 + s.get (NET_SESS_STATUS_port 7)) 0x104000000 4 = true ∧
      s.mayMove (27 + s.get (NET_SESS_STATUS_port 7)) 0x104000003 1 = true ∧ mergedLines (requestItem bulkW) 0x104000000 4 = [] ∧
      s.unmet (requestItem bulkW) [] = none ∧ bit (argBe bulkW.payload 1 1) 0 = true) ∧
    (let s := (opened []).taken 7 bulkR;
      bulkOk (opened []) bulkR = true ∧ argBe bulkR.payload 0 1 = 2 ∧ bulkR.payload.length = 16 ∧ s.memStatus 0x104000000 4 = none ∧
      s.memWaits 0x104000000 4 = false ∧ s.mayMove (27 + s.get (NET_SESS_STATUS_port 7)) 0x104000000 4 = true ∧
      (requestItem bulkR).badIn 0x104000000 4 = []) ∧
    (bulkOk (opened []) bulkX = true ∧ argBe bulkX.payload 4 4 = 0x1000000 ∧
      (((opened []).taken 7 bulkX).memStatus 0x100000000 0x1000000).isSome = true) := by decide +kernel

theorem witness_BulkTransfers_near :
    (let s := (nearOpened []).taken 7 bulkN;
      bulkOk (nearOpened []) bulkN = true ∧ argBe bulkN.payload 0 1 = 2 ∧ argBe bulkN.payload 8 8 = nearBase 3 ∧
      (requestItem bulkN).badIn (nearBase 3) 4 = [(nearBase 3, 0x11)] ∧ s.memStatus (nearBase 3) 4 = none ∧ s.memWaits (nearBase 3) 4 = false ∧
      s.mayMove (27 + s.get (NET_SESS_STATUS_port 7)) (nearBase 3) 4 = true ∧
      s.mayMove (27 + s.get (NET_SESS_STATUS_port 7)) (nearBase 3 + 4 - 1) 1 = true ∧
      s.unmet (requestItem bulkN) [(nearBase 3, 0x11)] = some (nearBase 3, 0x11) ∧ (s.badLine (nearBase 3, 0x11)).isSome = true) ∧
    (let s := (nearOpened [(DMC_STATUS_frozen 3, 1)]).taken 7 bulkN;
      bulkOk (nearOpened [(DMC_STATUS_frozen 3, 1)]) bulkN = true ∧ s.memStatus (nearBase 3) 4 = none ∧ s.memWaits (nearBase 3) 4 = true) := by
  decide +kernel

/-- A HELLO of 136 bytes without a credential, for any slot (Table 14.4). -/
def helloRx : Rx :=
  { len := 168, length := 136, session := 0, payload := [0, 0xFF] ++ List.replicate 134 0 }

theorem witness_SessionLife_hello :
    let a := (opened []).rxCount 0; let b := (a.police 0 0).1; let l := helloRx.payload;
    (opened []).linkUp 0 = true ∧ (a.police 0 0).2 = true ∧ b.boot.stage = 4 ∧ b.ipTakes 0 helloRx = true ∧ rxLengthOk helloRx = true ∧
    helloRx.magic = 0x414D ∧ helloRx.version = 1 ∧ b.lifecycle ≠ 3 ∧ b.sealedFor l = false ∧ helloForm l = true ∧ b.lifecycle ≠ 2 ∧
    b.credOk helloRx = true ∧ argBe l 2 2 = 0 ∧ b.helloSlot l = some 0 ∧ b.slotRefusal 0 l = none := by decide +kernel

/-- Session 6 was offered. -/
def offered : State :=
  let o : Offer := { sid := 5, keys := none, enc := false, resume := false, peer := {}, perms := 7, limited := false, hello := [1], welcome := [2], before := 0 }
  (opened [(NET_SESS_STATUS_state 6, 1)]).setSess 6 { offer := some o }

/-- Its CONFIRM: the hash, seven credits and a reserved field (Table 14.6). -/
def confirmRx : Rx :=
  { session := 6, sid := 5, channel := 0xFF, len := 96, length := 64, txc := 1, payload := shaBytes [1, 2] ++ List.replicate 16 0 }

set_option maxRecDepth 100000 in
theorem witness_SessionLife_confirm :
    let a := offered.rxCount 0; let b := (a.police 0 0).1;
    (offered.linkUp 0 = true ∧ (a.police 0 0).2 = true ∧ a.ofOpen confirmRx = false ∧ b.boot.stage = 4 ∧ b.ipTakes 0 confirmRx = true ∧
      rxLengthOk confirmRx = true ∧ confirmRx.magic = 0x414D ∧ confirmRx.version = 1 ∧ b.fromPeer 6 confirmRx = true ∧
      b.encMode 6 = bit confirmRx.flags 0 ∧ b.encMode 6 = false) ∧
    (b.net.sess[(6 : Fin 8)].offer.map fun o => txcFresh o.seen confirmRx.txc && decide (o.hello ++ o.welcome = [1, 2])) = some true ∧
    confirmRx.channel = 0xFF := by decide +kernel

theorem witness_SessionLife_plain (s : State) (h : s.encMode 6 = false) : s.plain 6 0x03 confirmRx = some confirmRx := by
  simp [State.plain, openPayload, h]

theorem witness_SessionLife_hash :
    confirmRx.payload.length = 64 ∧ argBe confirmRx.payload 62 2 = 0 ∧ confirmRx.payload.take 48 = shaBytes ([1] ++ [2]) := by
  have h : (shaBytes [1, 2]).length = 48 := length_beBytes _ _
  refine ⟨?_, ?_, List.take_left' h⟩
  · show (shaBytes [1, 2] ++ List.replicate 16 0).length = 64
    rw [List.length_append, h, List.length_replicate]
  · show argBe (shaBytes [1, 2] ++ List.replicate 16 0) 62 2 = 0
    simp only [argBe, List.drop_append, h, List.drop_eq_nil_of_le (show (shaBytes [1, 2]).length ≤ 62 by omega)]
    decide

theorem witness_SessionLife_frames :
    ∀ x ∈ [(0x12, frame 0xFF []), (0x13, frame 0xFF []), (0x11, { frame 6 [] with flags := 2 })], (opened []).frameOk 7 x.1 x.2 x.2 = true := by
  decide +kernel

theorem witness_SessionLife_timers :
    (offered.net.sess[(6 : Fin 8)].offer.isSome = true ∧ (opened []).sessOpen 7 = true) ∧
    (opened [(NET_SESS_STATUS_state 6, 3)]).sessState 6 = 3 ∧
    (((opened []).setChan 7 6 { ackDue := 1 }).chan 7 6).ackDue ≠ 0 ∧
    (let x : TxFrame := { seq := 0, payload := [], sentAt := 0, sacked := false, hamper := none };
      (((opened []).setChan 7 6 { unacked := [x] }).chan 7 6).unacked = [x]) ∧
    (let t : Task := { st := 7, hseq := some 0 }; let s : State := { opened [] with sch := { tasks := [(8191, t)], out := [(7, 8191)] } };
      s.nextHamper 7 = some (8191, 0) ∧ s.task 8191 = some t ∧
      s.maySend 7 5 (beBytes 0 4 ++ beBytes 0 4 ++ ((t.hamper 8191).drop 0).take 8184) = true) ∧
    (let s := (opened []).setSess 7 { (opened []).net.sess[(7 : Fin 8)] with evts := [(511, 1, 0, 0)] };
      s.net.sess[(7 : Fin 8)].evts ≠ [] ∧
      s.maySend 7 6 (beBytes (s.net.sess[(7 : Fin 8)].evts.take 511).length 2 ++ List.replicate 6 0 ++
        (s.net.sess[(7 : Fin 8)].evts.take 511).flatMap evtRecord) = true) := by decide +kernel

/-- Port A has its link and all of its addresses, by DHCP. -/
def addressed : State :=
  let s := opened [(NET_CTL_a_en, 1)]
  s.setNetPort 0 { cfg := 15, ip4 := 0, ip6 := 9, lease := some 0x0A000001, llOk := true, glOk := true }

theorem witness_EthernetPorts :
    (addressed.linkUp 0 = true ∧ ((addressed.rxCount 0).police 0 1).2 = true ∧
      (let u := ((addressed.rxCount 0).police 0 1).1;
        u.on (NET_PORT_STATUS_v4_valid 0) = true ∧ u.ip4Of 0 = 0x0A000001 ∧ u.ownIp6 0 9 = true ∧ u.boot.stage = 4 ∧
        u.ownIp 0 false 0x0A000001 = true ∧ u.ownIp 0 true 9 = true)) ∧
    (addressed.dhcpOn 0 = true ∧ addressed.net.port[(0 : Fin 2)].lease = some 0x0A000001) ∧
    (bit addressed.net.port[(0 : Fin 2)].cfg 3 = true ∧ addressed.net.port[(0 : Fin 2)].ip6 ≠ 0) ∧
    (addressed.ethOn 0 = true ∧ (addressed.put (NET_PORT_STATUS_link 0) 0).ethOn 0 = true ∧ (addressed.put (NET_PORT_STATUS_link 0) 0).linkUp 0 = false) ∧
    addressed.csrError NET_CTL true = false := by decide +kernel

/-! ## Witnesses: trust and tamper -/

/-- An owned device with session 7 open: every field of the owner record that the checks read. -/
def owned (l : List (Fld × Nat)) : State :=
  { opened ([(SEC_STATUS_jtag_open, 0)] ++ l) with sec := { dik := 5, fwDigest := 0, provKey := [], provisioned := true, owner := true, oak := signer } }

/-- A Rucksack package for port 7 with an empty body (Table 15.9), and its tag under the key of the owner record of `owned`. -/
def rkHead : List Byte := leBytes 0x4B525A45 4 ++ leBytes 1 2 ++ leBytes 0 2 ++ leBytes 0 4 ++ leBytes 0 2 ++ [0x80, 0] ++ leBytes 1 4 ++ leBytes 0 28

/-- That package in SRAM, with a tag. -/
def rkPackage (tag : Nat) : List Byte := rkHead ++ beBytes tag 16
def packed (tag : Nat) : State := (owned [(SEC_POLICY_flags, 4)]).setBytes 0x104000000 (rkPackage tag)

/-- The arguments of RUCKSACK_OPEN for it. -/
def rkArgs : List Byte := beBytes 0x104000000 8 ++ beBytes 64 4 ++ [7] ++ beBytes 0 4

/-- Its opening. -/
def rkOpen : RkOpen := { port := 7, base := 0, size := 0, addr := 0x104000000, id := 0, limit := 1, ptLen := 0, sess := 7, seq := 0, tag := 0 }

theorem witness_SecurityCommands :
    (∀ k : Fin 11, takes (opened []) (0x30 + k) [] = true) ∧
    (owned []).lifecycle = 2 ∧ (owned []).loadKeyCode 7 (beBytes 63 1 ++ beBytes 0 3 ++ beBytes 5 4) = 0 ∧
    (owned []).clearKeyCode 7 (beBytes 63 1 ++ beBytes 0 3) = 0 ∧ (packed 0).rucksackCode 7 rkArgs = 0 ∧
    (let l := beBytes 7 1 ++ beBytes 0 3;
      takes (opened []) 0x35 l = true ∧ l.length = 4 ∧ argBe l 0 1 ≤ 7 ∧ argBe l 1 3 = 0 ∧ ((opened []).taken 7 (request 0x35 l)).holdsPerm 7 1 = true) ∧
    ((opened []).taken 7 (request 0x36 [])).holdsPerm 7 1 = true ∧
    (let l := beBytes 31 1 ++ beBytes 0 3; takes (opened []) 0x37 l = true ∧ l.length = 4 ∧ argBe l 1 3 = 0 ∧ argBe l 0 1 < 32) := by decide +kernel

/-- The owned device has given session 7 the challenge 1. -/
def challenged (l : List (Fld × Nat)) : State := (owned l).setSess 7 { perms := 4, chal := some (1, 0) }

/-- Arguments signed by the owner's key over challenge, serial, opcode and arguments (R429). -/
def policyArgs : List Byte := List.replicate 16 0 ++
  sigOf 0xF91B5514A332CCA4C615927479C637081A572972730E951716D8686BACB12F5A6706CAA93329200D7EDF6E26B7EC86CE
    0x4B663258BE7D64C1C67C827D1F6FB836F549DF6A41AB35C5B67808E695A9E79BE5BE790BB5F0D324D630C23A7AECD145
def unsealArgs : List Byte :=
  sigOf 0xF91B5514A332CCA4C615927479C637081A572972730E951716D8686BACB12F5A6706CAA93329200D7EDF6E26B7EC86CE
    0x1E193EE03436DD4D07E30836FF8F84C6699F40DC8C3CA35C59330A9F96C07D9A80D76FD1B125FAB42F787802E0AB1CA3
def releaseArgs : List Byte :=
  sigOf 0xF91B5514A332CCA4C615927479C637081A572972730E951716D8686BACB12F5A6706CAA93329200D7EDF6E26B7EC86CE
    0x7745EA8A50A64732CE10A0BE0B0C076CC0CA94E9DE3C2B1E2A081E04239CB04C3FD4C1F08546ADB703BB289EFC3209C6

theorem witness_SignedCommands :
    let s := challenged [];
    s.lifecycle = 2 ∧ s.holdsPerm 7 2 = true ∧ s.challengeOk 7 = true ∧ s.on SEC_STATUS_sealed = false ∧ policyArgs.length = 112 ∧
    policyRsvOk (policyArgs.take 8) = true ∧ zeros policyArgs 12 4 = true ∧ unsealArgs.length = 96 ∧ releaseArgs.length = 96 ∧
    (let s := challenged [(SEC_STATUS_sealed, 1)];
      s.lifecycle = 2 ∧ s.holdsPerm 7 2 = true ∧ s.challengeOk 7 = true ∧
      (State.authOk (s.setSess 7 { s.net.sess[(7 : Fin 8)] with chal := none })).on SEC_STATUS_sealed = true) := by decide +kernel

set_option maxRecDepth 100000 in
theorem witness_SignedCommands_signatures :
    (challenged []).cmdSigned 7 0x38 policyArgs = true ∧ (challenged [(SEC_STATUS_sealed, 1)]).cmdSigned 7 0x39 unsealArgs = true ∧
    (challenged []).cmdSigned 7 0x3A releaseArgs = true ∧ (challenged []).cmdSigned 7 0x38 (List.replicate 112 0) = false ∧
    (challenged []).cmdSigned 7 0x3A (List.replicate 96 0) = false := by decide +kernel

def rkTag : Nat := 0xA66B22AC6A34C3669BDE6AEEA00D994C

theorem rk_key (tag : Nat) : (packed tag).rucksackKey 0 = (owned [(SEC_POLICY_flags, 4)]).rucksackKey 0 := by
  simp only [packed, State.rucksackKey, State.serialBytes, State.rn64, State.get, State.rn, State.rd, State.setBytes_sec, State.setBytes_csr]

set_option maxRecDepth 100000 in
theorem rk_key_value : (owned [(SEC_POLICY_flags, 4)]).rucksackKey 0 =
    90598501099265528198907224506334721193911890512844001515393733911550840884910 := by decide +kernel

set_option maxRecDepth 100000 in
theorem rk_tag : gcmTag 90598501099265528198907224506334721193911890512844001515393733911550840884910 0 rkHead [] = beBytes rkTag 16 := by
  decide +kernel

theorem length_rkPackage (tag : Nat) : (rkPackage tag).length = 64 := by
  simp [rkPackage, rkHead, length_beBytes, length_le_bytes]

theorem packed_bytes (tag i n : Nat) (h : i + n ≤ 64) : (packed tag).bytes (0x104000000 + i) n = ((rkPackage tag).drop i).take n := by
  rw [packed, State.bytes_setBytes i n (by decide +kernel) (length_rkPackage tag ▸ h)]

/-- The opening compares the tag of the package. -/
theorem rucksackPlain_packed (tag : Nat) : (packed tag).rucksackPlain rkOpen = if beBytes rkTag 16 = beBytes tag 16 then some [] else none := by
  have h1 : (rkPackage tag).take 48 = rkHead := List.take_left' (by simp [rkHead, length_le_bytes])
  have h2 : ((rkPackage tag).drop 48).take 16 = beBytes tag 16 := by
    rw [rkPackage, List.drop_left' (by simp [rkHead, length_le_bytes]), List.take_of_length_le (by simp [length_beBytes])]
  have h3 : ((rkPackage tag).drop 32).take 12 = List.replicate 12 0 := rfl
  have b0 : (packed tag).bytes (0x104000000 + 48) 0 = [] := rfl
  have b1 := packed_bytes tag 0 48 (by decide)
  have b2 := packed_bytes tag 48 16 (by decide)
  have b3 := packed_bytes tag 32 12 (by decide)
  rw [List.drop_zero, h1] at b1
  rw [h2] at b2
  rw [h3] at b3
  rw [Nat.add_zero] at b1
  simp only [State.rucksackPlain, rkOpen, rk_key, rk_key_value, b0, b1, b2, b3, Nat.add_zero, gcmOpen]
  rw [show ofBe (List.replicate 12 (0 : Byte)) = 0 from by decide, rk_tag]
  rfl

theorem witness_RegionsAndReceipts_open :
    (∀ t : Nat, ({ packed t with sec := { (packed t).sec with opening := some rkOpen } } : State).sec.opening = some rkOpen) ∧
    (packed 0).on CAL_STATUS_crypto_hold = false ∧ (packed 0).domainOn 43 = true ∧ (packed rkTag).rucksackPlain rkOpen = some [] ∧
    (packed 0).rucksackPlain rkOpen = none := by
  refine ⟨fun _ => rfl, by decide +kernel, by decide +kernel, ?_, ?_⟩
  · rw [rucksackPlain_packed, if_pos rfl]
  · rw [rucksackPlain_packed, if_neg (by decide +kernel)]

theorem witness_RegionsAndReceipts :
    (({ mk [] with sec := { (mk []).sec with closing := [(7, true)] } } : State).sec.closing.find? fun x => decide (x.1 = 7)) = some (7, true) ∧
    (let r : RunUse := ⟨1, 1, 1, 0, 0, 0, 0, 0⟩; ((mk []).setPort 7 { owed := some r }).port[(7 : Fin 8)].owed = some r) := by decide +kernel

/-- A policy that gives sensor 6 a class. -/
def classed (c : Nat) : State :=
  { mk [(SEC_POLICY_tamper_floor, 2 ^ 12 * c)] with sec := { dik := 5, fwDigest := 0, provKey := [], provisioned := true, owner := true } }

/-- The state before the response to sensor 6, as `SensorsAndJtag` has it. -/
def firing (s : State) (active : BitVec 8) (off : Bool) (aon : Nat) : State :=
  (s.put SEC_TAMPER_active (((List.range 7).filter (s.sensed active off)).foldl (fun (m : Nat) j => m + 2 ^ j) 0)).setSec
    { s.sec with
      coolAt := if bit (((List.range 7).filter (s.sensed active off)).foldl (fun (m : Nat) j => m + 2 ^ j) 0) 2 then none
        else if bit (s.get SEC_TAMPER_active) 2 then some aon else s.sec.coolAt }

theorem witness_SensorsAndJtag_sensors :
    (∀ c : Fin 4, (∀ j < 7, ((classed c).sensed 64 false j && (classed c).sensorArmed j 0) = decide (j = (6 : Fin 7).val)) ∧
      (firing (classed c) 64 false 0).sensorClass 6 = c ∧ (firing (classed c) 64 false 0).on SEC_STATUS_sealed = false) ∧
    (firing ((classed 1).put SEC_STATUS_sealed 1) 64 false 0).on SEC_STATUS_sealed = true := by decide +kernel

/-- An UNLOCK challenge of 7 is open, in a lifecycle state. -/
def unlocking (own : Bool) (l : List (Fld × Nat)) : State :=
  { mk (l ++ [(SEC_POLICY_flags, 0)]) with
    jtag := { chal := some 7 }, sec := { dik := 5, fwDigest := 0, provKey := signer, provisioned := true, owner := own, oak := signer } }

def unlockSig : List Byte :=
  sigOf 0xF91B5514A332CCA4C615927479C637081A572972730E951716D8686BACB12F5A6706CAA93329200D7EDF6E26B7EC86CE
    0x3F6CEB12B07DC3C042502C2383AD583C857ECC3F5BA9734972847BAA22FDCB08B20DDB71A0EFC38842467F32D49FD91F

set_option maxRecDepth 100000 in
theorem witness_SensorsAndJtag_unlock :
    ((unlocking false []).unlockRefused = false ∧ (unlocking false []).lifecycle ≠ 2 ∧ (unlocking false []).unlockSigned unlockSig = true) ∧
    ((unlocking true []).unlockRefused = false ∧ (unlocking true []).lifecycle = 2 ∧ (unlocking true []).unlockSigned unlockSig = true) ∧
    (unlocking true []).unlockSigned (List.replicate 96 0) = false ∧ (unlocking true [(SEC_STATUS_sealed, 1)]).unlockRefused = true ∧
    (mk [(SEC_STATUS_jtag_open, 1)]).jtagOpen = true ∧ (mk [(SEC_STATUS_jtag_open, 0)]).jtagOpen = false := by decide +kernel
/-! ## Witnesses: calibration and service -/

/-- Only unit `u` is pending, and the state is otherwise as the list says. -/
def pendingOnly (u : Nat) (l : List (Fld × Nat)) : State :=
  ((List.range 76).foldl (fun (a : State) v => a.put (CAL_UNIT_pending v) 0) (mk l)).put (CAL_UNIT_pending u) 1

/-- CAL_SCAN takes that unit, as `CalibrationRuns` has it. -/
def scans (u : Nat) (l : List (Fld × Nat)) : Bool :=
  let s := pendingOnly u l
  let ready := fun (v : Nat) => s.on (CAL_UNIT_pending v) && s.idleWindow v && s.cal.failAt.isEmpty
  decide (s.cal.run = none) && decide (s.cal.full = none) && ready u && (List.range u).all fun v => !ready v

theorem witness_CalibrationRuns_scan :
    scans 15 [] = true ∧ scans 16 [(TIM_STATUS_state 0, 1)] = true ∧ scans 47 [(TIM_STATUS_state 31, 5)] = true ∧ scans 48 [] = true ∧
    scans 71 [] = true ∧ scans 72 [(DMC_STATUS_state 0, 3)] = true ∧ scans 75 [(DMC_STATUS_state 3, 3)] = true ∧
    (∀ u < 76, ((pendingOnly 75 []).put (CAL_UNIT_pending 75) 0).on (CAL_UNIT_pending u) = false) := by decide +kernel

theorem witness_CalibrationRuns :
    ((mk []).canonical = true ∧ (-640 : Int) ≤ (List.replicate 16 (-640 : Int)).getD 15 0 ∧ (List.replicate 16 (2400 : Int)).getD 15 0 ≤ 2400 ∧
      (List.replicate 16 (-641 : Int)).getD 15 0 < -640 ∧ (2400 : Int) < (List.replicate 16 (2401 : Int)).getD 15 0) ∧
    (let s : State := { mk [(CAL_CTL_en, 1), (CAL_TEMP_THR_thr, 4), (CAL_UNIT_pending 75, 0)] with cal := { ref := [(75, 0, 0)] } };
      let t := s.tempSample (List.replicate 16 5);
      (s.cal.ref.find? fun y => decide (y.1 = (75 : Fin 76).val)) = some (75, 0, 0) ∧ t.on (CAL_TEMP_valid (unitSensor 75)) = true ∧
      s.canonical = true ∧ s.on CAL_CTL_en = true ∧ s.on (CAL_UNIT_pending 75) = false ∧
      clampNat 4 160 (s.get CAL_TEMP_THR_thr) < (toSigned 13 (t.get (CAL_TEMP_temp (unitSensor 75))) - 0).natAbs) ∧
    ((mk []).csrError CAL_RUN true = false ∧ (75 : BitVec 7).toNat < 76 ∧ (0x7F : BitVec 7).toNat = 0x7F ∧ 76 ≤ (76 : BitVec 7).toNat ∧
      (0x7E : BitVec 7).toNat ≠ 0x7F) ∧
    (let s : State := { mk [] with cal := { run := some 15 } };
      s.cal.run = some 15 ∧ s.idleWindow 15 = true ∧ residualFails 15 (List.replicate 48 50) = false ∧
      residualFails 15 (List.replicate 48 51) = true) ∧
    (let s : State := { ported [(PRT_SEQ_STATUS_state 7, 2)] with cal := { run := some 15 } }; s.idleWindow 15 = false) ∧
    ((mk [(CAL_UNIT_stale 71, 0)]).on (CAL_UNIT_pending 71) = true ∧ (mk [(CAL_UNIT_stale 71, 0)]).on (CAL_UNIT_stale 71) = false) ∧
    ((mk []).csrError (CAL_T64_B 255) true = false ∧ (mk []).csrError (CAL_T64_A 255) true = false ∧
      4 * toSigned 16 (8191 : BitVec 16).toNat - toSigned 16 ((mk []).get (factEdge 255 2)) ≤ 32767 ∧
      32767 < 4 * toSigned 16 (8192 : BitVec 16).toNat - toSigned 16 ((mk []).get (factEdge 255 2)) ∧
      4 * toSigned 16 (57343 : BitVec 16).toNat - toSigned 16 ((mk []).get (factEdge 255 2)) < -32768 ∧
      -32768 ≤ 4 * toSigned 16 (57344 : BitVec 16).toNat - toSigned 16 ((mk []).get (factEdge 255 2))) := by decide +kernel

theorem witness_T64ReadsEffectiveDelay :
    let s := mk [(CAL_USER_EDGE_B_compare 255, 0xFFFA)];
    s.csrError (CAL_T64_B 255) false = false ∧ (s.shadow.find? fun x => decide (x.1 = 8) && decide (x.2.1 = CAL_T64_B 255)) = none := by
  decide +kernel

/-- R469: −6 over 4 is −1.5, a tie, and reads −2. -/
theorem test_t64_tie : (mk [(CAL_USER_EDGE_B_compare 255, 0xFFFA)]).t64Read 255 2 = 0xFFFE := by decide +kernel

/-- A slice is in progress. -/
def slicing (test unit : Nat) : State := { mk [] with cal := { ist := some (test, unit) } }

theorem witness_FailedTestIsRecorded :
    (∀ x ∈ [(1, 47), (2, 67), (3, 67), (4, 15), (5, 0x7F)], (slicing x.1 x.2).cal.ist = some (x.1, x.2) ∧ (slicing x.1 x.2).canonical = true) ∧
    47 < 76 := by decide +kernel

/-- A scrub of region `k` reads its line, as `SelfTestAndScrub` asks. -/
def scrubs (s : State) (k : Fin 5) : Bool :=
  (s.on CAL_CTL_scrub_en || s.cal.scrubFull.isSome) && s.scrubServed k && s.mayMove 30 ((s.scrubRegion k).1 + s.cal.scrub[k]) 64

theorem witness_SelfTestAndScrub :
    ((mk []).cal.ist.all (fun x => decide (x ∈ istAll)) = true ∧ (slicing 1 47).cal.ist.all (fun x => decide (x ∈ istAll)) = true ∧
      (mk [(CAL_CTL_ist_en, 1)]).on CAL_CTL_ist_en = true ∧ (mk [(CAL_CTL_ist_en, 1)]).cal.ist = none ∧
      ((istAll.find? fun y => (mk []).istEligible y.1 y.2).isSome = true) ∧
      (istAll.find? fun y => (((List.range 44).foldl (fun (a : State) d => a.showDomain d false) State.reset).put CAL_STATUS_crypto_hold 1).istEligible
        y.1 y.2) = none) ∧
    (slicing 1 47).cal.ist = some (1, 47) ∧
    ((mk [(CAL_STATUS_crypto_hold, 1)]).on CAL_STATUS_crypto_hold = true ∧ (mk [(CAL_STATUS_crypto_hold, 1)]).canonical = true) ∧
    (let s := mk [(CAL_CTL_scrub_en, 1), (DMC_STATUS_state 3, 3), (DMC_CAPACITY_units 3, 1)];
      scrubs s 0 = true ∧ scrubs s 4 = true ∧ s.cal.scrub[(4 : Fin 5)] + 64 < (s.scrubRegion 4).2 ∧ s.cal.scrub[(0 : Fin 5)] + 64 < 0x6000000 ∧
      (s.scrubRegion 0).2 = 0x6000000 ∧
      (uncorrectables (s.lineRead 3 (nearBase 3) 0) = 0 ∧ corrections (s.lineRead 3 (nearBase 3) 0) = []) ∧
      (uncorrectables (s.lineRead 3 (nearBase 3) 1) = 0 ∧ corrections (s.lineRead 3 (nearBase 3) 1) ≠ []) ∧
      uncorrectables (s.lineRead 3 (nearBase 3) 0x10001) ≠ 0) ∧
    (let s : State := { mk [] with cal := { scrub := Vector.replicate 5 (0x6000000 - 64) } }; (s.scrubRegion 0).2 ≤ s.cal.scrub[(0 : Fin 5)] + 64) ∧
    scrubs ({ mk [] with cal := { scrubFull := some (1, 0) } } : State) 0 = true := by decide +kernel

/-- The SME runs a routine; others are requested and suspended. -/
def serving (j : SmeJob) (reqs susp : List SmeJob) : State := { mk [] with sme := { run := some j, reqs := reqs, susp := susp } }

theorem witness_ServiceRoutines :
    (let s := serving ⟨10, 0⟩ [⟨5, 0⟩] [];
      s.sme.run = some ⟨10, 0⟩ ∧ smeAtomic 10 = false ∧ s.leaseLost ⟨10, 0⟩ = false ∧ firstJob s.sme.reqs = some ⟨5, 0⟩ ∧
      (smePrio 10 < smePrio 5 ∨ smeAtomic 5 = true) ∧ s.sme.susp.length < 8) ∧
    (let s := serving ⟨9, 0⟩ [⟨10, 0⟩] [];
      s.leaseLost ⟨9, 0⟩ = false ∧ smeAtomic 9 = false ∧ firstJob s.sme.reqs = some ⟨10, 0⟩ ∧ smePrio 10 ≤ smePrio 9 ∧ smeAtomic 10 = false) ∧
    (let s : State := { ported [(PRT_SEQ_STATUS_state 7, 2)] with sme := { run := some ⟨8, 15⟩ } }; s.leaseLost ⟨8, 15⟩ = true) ∧
    (let s : State := { ported [(PRT_SEQ_STATUS_state 7, 2)] with sme := { run := some ⟨9, 15⟩ }, cal := { ist := some (4, 15) } };
      s.leaseLost ⟨9, 15⟩ = true) ∧
    ((mk []).sme.reqs = [] ∧ (mk []).sme.susp = []) ∧
    (let s := serving ⟨10, 0⟩ [⟨5, 0⟩] [⟨10, 0⟩]; firstJob s.sme.reqs = some ⟨5, 0⟩ ∧ firstJob s.sme.susp = some ⟨10, 0⟩ ∧ smePrio 10 < smePrio 5) ∧
    (let s := serving ⟨5, 0⟩ [⟨10, 0⟩] [⟨9, 0⟩]; firstJob s.sme.reqs = some ⟨10, 0⟩ ∧ firstJob s.sme.susp = some ⟨9, 0⟩ ∧ smePrio 10 ≤ smePrio 9) ∧
    ((mk []).sme.run.all fun j => smeAtomic j.routine) = true ∧
    (({ serving ⟨8, 15⟩ [] [] with cal := { run := some 15 } } : State).cal.run = some 15) ∧ (serving ⟨9, 15⟩ [] []).sme.run = some ⟨9, 15⟩ ∧
    (serving ⟨6, 3⟩ [] []).sme.run = some ⟨6, (3 : Fin 4).val⟩ ∧
    (({ serving ⟨7, 3⟩ [] [] with cal := { run := some 75 } } : State).cal.run = some (72 + (3 : Fin 4).val)) := by decide +kernel

theorem witness_ThermalWarning :
    let s := mk [(PWR_TEMP_WARN_thr, 1600), (PWR_TEMP_WARN_hyst, 80)]; let t := ({ s with pwr := { hot := true } } : State);
    s.hottest = none ∧ (s.tempSample (List.replicate 16 2401)).hottest = none ∧ (s.tempSample (List.replicate 16 1600)).hottest = some 1600 ∧
    s.pwr.hot = false ∧ toSigned 13 (s.get PWR_TEMP_WARN_thr) = 1600 ∧ (s.tempSample (List.replicate 16 1599)).hottest = some 1599 ∧
    (t.tempSample (List.replicate 16 1519)).hottest = some 1519 ∧ (1519 : Int) < 1600 - t.get PWR_TEMP_WARN_hyst ∧
    (t.tempSample (List.replicate 16 1520)).hottest = some 1520 ∧ (1600 : Int) - t.get PWR_TEMP_WARN_hyst ≤ 1520 := by decide +kernel

/-! ## Witnesses: events, resets, power and the pin-electronics buses -/

/-- READY, with an occurrence of source 511 that goes every route. -/
def occurred (l : List (Fld × Nat)) : State :=
  { opened ([(EVC_SRC_en 511, 1), (EVC_SRC_amiuc 511, 1), (EVC_SRC_out 511, 1), (EVC_SRC_out_idx 511, 7), (EVC_OUT_CFG_mode 7, 1)] ++ l) with
    raised := [511] }

theorem witness_EventsAndInputs :
    (511 ∈ (occurred []).raised ∧ (occurred []).booted = true ∧ (occurred []).on (EVC_SRC_en 511) = true ∧ (mk []).booted = false ∧
      (occurred [(EVC_SRC_en 511, 0)]).on (EVC_SRC_en 511) = false ∧
      (occurred []).on (EVC_SRC_amiuc 511) = true ∧ (occurred []).sessOpen 7 = true ∧ (occurred []).mayMerge 511 = false ∧
      (({ occurred [] with evc := { accepted := [(511, 0)] } } : State).mayMerge 511 = true) ∧
      (occurred [(NET_SESS_CFG_evt_en 7, 1)]).on (NET_SESS_CFG_evt_en 7) = true ∧ (mk []).sessOpen 7 = false ∧
      (occurred []).on (EVC_SRC_out 511) = true ∧ (occurred []).get (EVC_OUT_CFG_mode ((occurred []).get (EVC_SRC_out_idx 511))) = 1) ∧
    (let s := occurred [(EVC_SRC_amiuc 511, 0), (EVC_SRC_out 511, 0)];
      s.on (EVC_SRC_amiuc 511) = false ∧ s.on (EVC_SRC_sched 511) = false ∧ s.on (EVC_SRC_out 511) = false) ∧
    (mk []).csrError (EVC_LATCH 15) true = false ∧
    (({ mk [] with evc := { pulse := [(7, 10)] } } : State).evc.pulse.lookup (7 : Fin 8).val = some 10) ∧
    ((mk []).bitAt EVC_IN_STATE 16 = false ∧ max 1 ((mk []).get (EVC_IN_CFG_filter 16)) ≤ 65535 ∧ 0 < max 1 ((mk []).get (EVC_IN_CFG_filter 16)) ∧
      bit (mk []).evc.inSeen 16 = false ∧ bit ({ mk [] with evc := { inSeen := 2 ^ 16 } } : State).evc.inSeen 16 = true ∧
      max 1 ((mk [(EVC_IN_CFG_interval 16, 2)]).get (EVC_IN_CFG_interval 16)) ≤ 2 ∧
      1 < max 1 ((mk [(EVC_IN_CFG_interval 16, 2)]).get (EVC_IN_CFG_interval 16))) ∧
    (((mk []).setBit EVC_IN_STATE 7).bitAt EVC_IN_STATE 7 = true ∧ bit ({ mk [] with evc := { inActive := 128 } } : State).evc.inActive 7 = true ∧
      bit (mk []).evc.inActive 7 = false) := by decide +kernel

theorem witness_ResetsReturnTheDevice : (mk []).canonical = true ∧ warmReg (SEG_WORD 0 0) = false ∧ 0x01000000 ≤ SEG_WORD 0 0 := by
  decide +kernel

/-- A tamper response asks for its reset; a response scorches at the next power-up. -/
def resetDue : State := { mk [] with sec := { dik := 5, fwDigest := 0, provKey := [], resetDue := true } }
def scorching : State := { mk [] with sec := { dik := 5, fwDigest := 0, provKey := [], scorchPending := true } }

theorem witness_ResetsAreTaken :
    ((mk []).deviceReset .power).sec.scorchPending = false ∧ (scorching.deviceReset .power).sec.scorchPending = true ∧
    (mk []).boot.stage ≠ 5 ∧ (({ mk [] with boot := { stage := 0 } } : State).boot.stage = 0) ∧
    (({ mk [(GLB_WDT_CTL_en, 1)] with boot := { stage := 4 } } : State).boot.stage = 4 ∧ (mk [(GLB_WDT_CTL_en, 1)]).on GLB_WDT_CTL_en = true) ∧
    (resetDue.sec.resetDue = true ∧ resetDue.sec.closing = []) ∧
    ((mk []).csrError GLB_QRESET true = false ∧ (mk []).load = none ∧ (loading 1).load.isSome = true ∧ (loading 1).csrError GLB_QRESET true = false) ∧
    (bit ((mk [(GLB_QRESET_busy, 8)]).get GLB_QRESET_busy) (3 : Fin 4) = true ∧ (mk [(GLB_QRESET_busy, 8)]).canonical = true ∧
      (6 : Fin 8).val = 2 * (3 : Fin 4).val ∧ (7 : Fin 8).val = 2 * (3 : Fin 4).val + 1 ∧ (11 : Fin 12).val = 8 + (3 : Fin 4).val) := by decide +kernel

/-- An image that is none, of version 2. -/
def noImage : List Byte := List.replicate 6 0 ++ [2, 0]

/-- The three images of `imaged` are right in every state of LOCKED whose boot ROM knows the key. -/
theorem images_good {s : State} (hf : s.sec.fwDigest = sha384 signer) (hl : s.lifecycle = 3)
    (hr : s.rollbackOf 1 ≤ 63 ∧ s.rollbackOf 2 ≤ 63 ∧ s.rollbackOf 3 ≤ 63) : s.slotBad [image1, image2, image3] = none := by
  have f1 : image1.length = 256 ∧ imageField image1 0 4 = 0x49465A45 ∧ imageField image1 4 1 = 1 ∧ imageField image1 12 4 = 0 ∧
    imageField image1 8 1 = 63 := by decide +kernel
  have f2 : image2.length = 256 ∧ imageField image2 0 4 = 0x49465A45 ∧ imageField image2 4 1 = 2 ∧ imageField image2 12 4 = 0 ∧
    imageField image2 8 1 = 63 := by decide +kernel
  have f3 : image3.length = 256 ∧ imageField image3 0 4 = 0x49465A45 ∧ imageField image3 4 1 = 3 ∧ imageField image3 12 4 = 0 ∧
    imageField image3 8 1 = 63 := by decide +kernel
  have g1 : s.imageBad 1 image1 = 0 := by
    simp only [State.imageBad, f1, images_signed hf image1 (by simp), hl]
    simp [Nat.not_lt.mpr hr.1]
  have g2 : s.imageBad 2 image2 = 0 := by
    simp only [State.imageBad, f2, images_signed hf image2 (by simp), hl]
    simp [Nat.not_lt.mpr hr.2.1]
  have g3 : s.imageBad 3 image3 = 0 := by
    simp only [State.imageBad, f3, images_signed hf image3 (by simp), hl]
    simp [Nat.not_lt.mpr hr.2.2]
  simp [State.slotBad, g1, g2, g3]

/-- What `images_good` asks of a state. -/
def knowsImages (s : State) : Bool :=
  decide (s.sec.fwDigest = imaged.sec.fwDigest) && decide (s.lifecycle = 3) && decide (s.rollbackOf 1 ≤ 63) && decide (s.rollbackOf 2 ≤ 63) &&
  decide (s.rollbackOf 3 ≤ 63)

theorem images_good_of {s : State} (h : knowsImages s = true) : s.slotBad [image1, image2, image3] = none := by
  simp only [knowsImages, Bool.and_eq_true, decide_eq_true_eq] at h
  obtain ⟨⟨⟨⟨h0, h1⟩, h2⟩, h3⟩, h4⟩ := h
  exact images_good (h0.trans signer_digest.1.symm) h1 ⟨h2, h3, h4⟩

theorem witness_BootAndDomains_slots :
    imaged.boot.stage = 1 ∧ imaged.slotBad [image1, image2, image3] = none ∧
    imageField ([].getD 0 []) 6 2 ≤ imageField ([image1, image2, image3].getD 0 []) 6 2 ∧
    imageField (([] : List (List Byte)).getD 0 []) 6 2 < imageField ([image1, image2, image3].getD 0 []) 6 2 ∧
    imageField ([image1, image2, image3].getD 0 []) 6 2 ≤ imageField ([noImage].getD 0 []) 6 2 ∧
    imageField ([image1, image2, image3].getD 0 []) 6 2 < imageField ([noImage].getD 0 []) 6 2 ∧
    (imaged.trySlot 0 [noImage]).2 = false ∧ (imaged.trySlot 0 [noImage]).1.slotBad [image1, image2, image3] = none ∧
    (imaged.trySlot 1 [noImage]).2 = false ∧ (imaged.trySlot 1 [noImage]).1.slotBad [image1, image2, image3] = none ∧
    ((imaged.trySlot 0 [noImage]).1.trySlot 1 []).2 = false ∧ ((imaged.trySlot 1 [noImage]).1.trySlot 0 []).2 = false ∧
    imageField (([] : List (List Byte)).getD 0 []) 6 2 < imageField ([noImage].getD 0 []) 6 2 ∧ imaged.slotBad [noImage] = some (1, 5) := by
  refine ⟨by decide +kernel, images_good_of (by decide +kernel), by decide +kernel, by decide +kernel, by decide +kernel, by decide +kernel,
    by decide +kernel, images_good_of (by decide +kernel), by decide +kernel, images_good_of (by decide +kernel), by decide +kernel,
    by decide +kernel, by decide +kernel, by decide +kernel⟩

theorem witness_BootAndDomains :
    (({ mk [] with boot := { stage := 3 } } : State).boot.stage = 3) ∧
    (let s : State := { mk [] with pwr := { sw := [(43, true), (0, false)] } };
      (s.pwr.sw.take 4).find? (fun x => decide (x.1 = (43 : Fin 44).val)) = some (43, true) ∧
      (s.pwr.sw.take 4).find? (fun x => decide (x.1 = (0 : Fin 44).val)) = some (0, false) ∧
      (s.pwr.sw.erase (43, true)).contains (43, false) = false) ∧
    (let s : State := { mk [] with pwr := { sw := [(43, true), (43, false)] } };
      (s.pwr.sw.take 4).find? (fun x => decide (x.1 = (43 : Fin 44).val)) = some (43, true) ∧
      (s.pwr.sw.erase (43, true)).contains (43, false) = true) ∧
    (mk []).domainOn (31 : Fin 44) = true ∧ (mk []).domainOn (36 : Fin 44) = true ∧ (mk []).domainOn (41 : Fin 44) = true ∧
    (mk []).domainOn (43 : Fin 44) = true ∧ (mk []).domainOn (35 : Fin 44) = true ∧ (mk [(DMC_STATUS_state 3, 5)]).get (DMC_STATUS_state 3) = 5 := by
  decide +kernel

theorem witness_PinElectronicsBuses :
    ((mk []).csrError (PEB_TXN 7) true = false ∧ (mk [(PEB_STATUS_busy 7, 1)]).on (PEB_STATUS_busy 7) = true ∧
      (mk []).on (PEB_STATUS_busy 7) = false ∧ bitsOf (0x2000 : Word).toNat 8 6 = 32 ∧ bitsOf (0x0100 : Word).toNat 8 6 = 1 ∧
      bitsOf (0x2100 : Word).toNat 8 6 = 33 ∧ bitsOf (0 : Word).toNat 8 6 = 0) ∧
    ((mk [(PEB_STATUS_busy 7, 1)]).peb[(7 : Fin 8)].cs = none ∧ (mk [(PEB_STATUS_ready 7, 1)]).on (PEB_STATUS_ready 7) = true ∧
      (mk []).on (PEB_STATUS_ready 7) = false ∧ (mk []).pebSecret 7 = false ∧ ((mk []).setPort 7 { secretOn := true }).pebSecret 7 = true) ∧
    (let s := (mk [(PEB_TXN_bytes 7, 32)]).setPeb 7 { cs := some 7 };
      s.peb[(7 : Fin 8)].cs.isSome = true ∧ s.get (PEB_TXN_bytes 7) = 32 ∧ s.csrError (PEB_CTL 7) true = false ∧ s.canonical = true) := by
  decide +kernel

/-! ## Figures of the spec, one step each -/

/-- What one command leaves, or the state as it was where it stops. -/
def after (c : Instr) (s : State) : State :=
  match exec c s with
  | .next t => t
  | .fault _ => s
  | .refused _ => s

theorem test_reset_canonical : State.reset.canonical = true := by decide

/-- R305: from the code 1023 to 1024 the upper segment changes, so a hold starts with the new code pending. -/
theorem test_pdac_hold : (after (.pdacCodeWrite 15 1024) ((mk []).put (PDC_OUT_code 15) 1023)).pdac[(15 : Fin 16)].pend = some 1024 ∧
    (after (.pdacCodeWrite 15 1023) ((mk []).put (PDC_OUT_code 15) 0)).pdac[(15 : Fin 16)].pend = none := by decide +kernel

/-- R516: a transaction longer than 32 bytes is ignored and sets err. -/
theorem test_peb_too_long : (after (.pebTxnGo 7 0x80002100) (mk [])).on (PEB_STATUS_err 7) = true ∧
    (after (.pebTxnGo 7 0x80002100) (mk [])).on (PEB_STATUS_busy 7) = false := by decide +kernel

/-- R211: run from OFF enters ACQUIRE. -/
theorem test_dpl_run : (after (.dplRun 11 1) ((mk []).put (DPL_CTL_dither 11) 0)).get (DPL_STATUS_state 11) = 1 := by decide +kernel

/-- R225: the first lock starts the count at 0. -/
theorem test_first_lock : let t := after .tbpllLocked (mk [(TMB_STATUS_state, 3)]);
    t.tmb.running = true ∧ t.tmb.count = 0 ∧ t.on TMB_STATUS_locked = true := by decide +kernel

/-- R230: at 2^48 ns the count wraps and the epoch after 0xFFFF is 0. -/
theorem test_epoch_wraps :
    let s : State := { mk [] with tmb := { running := true, count := wrapTu, epoch := 0xFFFF } };
    (after .timestampWrap s).tmb.count = 0 ∧ (after .timestampWrap s).tmb.epoch = 0 := by decide +kernel

set_option maxRecDepth 100000 in
/-- R72: a load whose header, sections and signature hold goes on to the units' stop. -/
theorem test_structure_checked : (after .structCheckDone (quadLoad 1)).load.map (·.stage) = some 2 := by decide +kernel

set_option maxRecDepth 100000 in
/-- FIPS 180-4: the digest of "abc". -/
theorem test_sha384 : sha384 [0x61, 0x62, 0x63] =
    0xCB00753F45A35E8BB5A03D699AC65007272C32AB0EDED1631A8B605A43FF5BED8086072BA1E7CC2358BAECA134C825A7 := by decide +kernel

/-- The GCM specification, test case 13: AES-256, a zero key and nonce, no data. -/
theorem test_gcm : gcmTag 0 0 [] [] = beBytes 0x530F8AFBC74536B9A963B4F1C4CB738B 16 := by decide +kernel

set_option maxRecDepth 100000 in
/-- RFC 6979, A.2.6: the signature of "sample" with SHA-384, and not of "sampl". -/
theorem test_ecdsa :
    let key := beBytes 0xEC3A4E415B4E19A4568618029F427FA5DA9A8BC4AE92E02E06AAE5286B300C64DEF8F0EA9055866064A254515480BC13 48 ++
      beBytes 0x8015D9B72D7D57244EA8EF9AC0C621896708A59367F9DFB9F54CA84B3F1C9DB1288B231C3AE0D4FE7344FD2533264720 48;
    let sig := sigOf 0x94EDBB92A5ECB8AAD4736E56C691916B3F88140666CE9FA73D64C4EA95AD133C81A648152E44ACF96E36DD1E80FABE46
      0x99EF4AEB15F178CEA1FE40DB2603138F130E740A19624526203B6351D0A3A94FA329C145786E679E7B82C71A38628AC8;
    sigVerifies key [0x73, 0x61, 0x6D, 0x70, 0x6C, 0x65] sig = true ∧ sigVerifies key [0x73, 0x61, 0x6D, 0x70, 0x6C] sig = false := by
  decide +kernel

/-- R444, R445: sensor 6 of class 0 is logged and neither seals nor resets; of class 1 it seals. -/
theorem test_tamper_class :
    (after (.tamperFire 64 64 false 0) (mk [])).on SEC_STATUS_sealed = false ∧
    (after (.tamperFire 64 64 false 0) (mk [(SEC_POLICY_tamper_floor, 2 ^ 12)])).on SEC_STATUS_sealed = true := by decide +kernel

/-- R502, Table 17.10: a watchdog reset records the cause 2. -/
theorem test_watchdog : (after .watchdogReset { mk [(GLB_WDT_CTL_en, 1)] with boot := { stage := 4 } }).get GLB_RESET_CAUSE_cause = 2 := by
  decide +kernel

/-- R509: the highest sensor at the threshold raises the warning, source 506. -/
theorem test_thermal : 506 ∈ (after (.tempSampleTick (List.replicate 16 1600)) (mk [(PWR_TEMP_WARN_thr, 1600)])).raised := by decide +kernel

/-- R215: a timeset word written while its domain settles waits, and is made when the domain has settled. -/
theorem test_write_waits :
    (after (.registerWrite (TST_WORD 7 0 0 0) 5) (mk [(DPL_STATUS_state 7, 3)])).waits = [(TST_WORD 7 0 0 0, 5)] ∧
    (after (.dplSettled 7 0) (settling 7)).rn (TST_WORD 7 0 0 0) = 5 := by decide +kernel

/-- R512, R514: the spec's examples for pin 141, pin 127 and PEB bus 4. -/
theorem test_balls :
    ballAt 63 40 = some (.drv 141 false) ∧ ballAt 62 42 = some (.den 141 true) ∧ ballAt 61 42 = some (.cmpl 141 true) ∧
    ballAt 19 4 = some (.drv 127 false) ∧ ballAt 24 32 = some (.pebSck 4) ∧ ballAt 25 22 = some (.peReady 4) := by decide +kernel

/-- R532: 1,169 ball positions carry boundary cells. -/
theorem test_boundary : boundaryBalls.length = 1169 := by decide +kernel
end Sys2Proof.Tests
end

section
/-! PROOFS. The host's write of the power mask while a structure load is in progress (R77, R82). -/

namespace Sys2Proof.Machine

/-- An access that completes without an address error does what the register does (R52). -/
theorem State.atReg_of_csrError_eq_false {s : State} {a : Nat} (f : State → State) (h : s.csrError a true = false) :
    s.atReg a f = f s := by
  simp [State.atReg, h]

/-- While a load is in progress the host may not write the power mask, whatever the structure and the lifecycle state (R77). -/
theorem State.mayPower_eq_false_of_load {s : State} {x : LoadH} (h : s.load = some x) : s.mayPower = false := by
  simp [State.mayPower, h]

/-- Where the mask may not be written, the write of either word of it is ignored (R77, R82). -/
theorem State.pwrDomainWrite_eq_rwlIgnored {s : State} (hi : Bool) (v : Word) (h : s.mayPower = false) :
    s.pwrDomainWrite hi v = s.rwlIgnored := by
  simp [State.pwrDomainWrite, h]

/-- PWR_DOMAIN_WRITE that meets no address error writes the word; then waiting accesses go and the ports and sources follow. -/
theorem exec_pwrDomainWrite {s : State} {hi : Bool} (v : Word)
    (h : s.csrError (if hi then PWR_DOMAIN_HI else PWR_DOMAIN_LO) true = false) :
    exec (.pwrDomainWrite hi v) s = .next (s.pwrDomainWrite hi v).clockGo.holdFaults.syncSources :=
  congrArg finishSync (State.atReg_of_csrError_eq_false _ h)

/-- Settles O9: a load in progress takes the host's right to the mask away, so the write does what R77 says of an ignored one. -/
theorem powerMaskIgnoredDuringLoad : Obligations.PowerMaskIgnoredDuringLoad := by
  intro s hi v x hload herr
  have hno : s.mayPower = false := State.mayPower_eq_false_of_load hload
  rw [exec_pwrDomainWrite v herr, State.pwrDomainWrite_eq_rwlIgnored hi v hno, State.rwlIgnored]

end Sys2Proof.Machine
end

section
/-! PROOFS. The CAL_T64 view of the delays (R469). -/

namespace Sys2Proof.Machine

/-! ## Words made of two halves -/

theorem bitsOf_low_of_lt {x y : Nat} (hx : x < 2 ^ 16) : bitsOf (x + 2 ^ 16 * y) 0 16 = x := by
  rw [bitsOf, Nat.shiftRight_zero, Nat.add_mul_mod_self_left, Nat.mod_eq_of_lt hx]

theorem bitsOf_high_of_lt {x y : Nat} (hx : x < 2 ^ 16) (hy : y < 2 ^ 16) : bitsOf (x + 2 ^ 16 * y) 16 16 = y := by
  rw [bitsOf, Nat.shiftRight_eq_div_pow, Nat.add_mul_div_left _ _ (by decide), Nat.div_eq_of_lt hx, Nat.zero_add,
    Nat.mod_eq_of_lt hy]

theorem ofSigned_lt (w : Nat) (x : Int) : ofSigned w x < 2 ^ w := by
  have hpos : (0 : Int) < 2 ^ w := Int.pow_pos (by decide)
  rw [ofSigned, Int.toNat_lt (Int.emod_nonneg x (Int.ne_of_gt hpos)), Int.natCast_pow]
  exact Int.emod_lt_of_pos x hpos

/-! ## The rounding of R469 -/

/-- A quarter of an integer, to the nearest integer with ties away from zero (R469). -/
def roundQuarter (x : Int) : Int :=
  if x < 0 then -(((x.natAbs + 2) / 4 : Nat) : Int) else ((x.natAbs + 2) / 4 : Nat)

/-- The effective delay of a path of a pin: its user and its factory value (R469). -/
def State.effectiveDelay (s : State) (p path : Nat) : Int :=
  toSigned 16 (s.get (userEdge p path)) + toSigned 16 (s.get (factEdge p path))

theorem State.t64Read_eq (s : State) (p path : Nat) : s.t64Read p path = ofSigned 16 (roundQuarter (s.effectiveDelay p path)) := rfl

theorem State.t64Read_lt (s : State) (p path : Nat) : s.t64Read p path < 2 ^ 16 := ofSigned_lt 16 _

/-- Four times the rounded quarter is within two of the integer: no integer's fourfold is nearer. -/
theorem natAbs_four_mul_roundQuarter_sub_le (x : Int) : (4 * roundQuarter x - x).natAbs ≤ 2 := by
  unfold roundQuarter
  split <;> omega

/-- At a tie the rounded quarter is the one away from zero. -/
theorem natAbs_le_four_mul_roundQuarter {x : Int} (h : (4 * roundQuarter x - x).natAbs = 2) :
    x.natAbs ≤ (4 * roundQuarter x).natAbs := by
  unfold roundQuarter at h ⊢
  split at h <;> omega

/-! ## Reads of the CAL block -/

theorem locate_cal {o : Nat} (h : o < 0x10000) : locate (CAL + o) = some (.cal, 0, o) := by
  have hlt : CAL + o < 0xB0000 := by simp only [CAL]; omega
  have hblk : (CAL + o) / 0x10000 = 6 := by simp only [CAL]; omega
  have hoff : (CAL + o) % 0x10000 = o := by simp only [CAL]; omega
  rw [locate, if_pos hlt, hblk, hoff]
  rfl

/-- Where an access meets no address error there is a register, of the block and at the offset that the address locates. -/
theorem regAt_of_csrError_eq_false {s : State} {a u o : Nat} {w : Bool} {b : Blk} (hl : locate a = some (b, u, o))
    (h : s.csrError a w = false) : ∃ r, regAt a = some (b, u, o, r) := by
  have hsome : (regAt a).isNone = false := by
    simp only [State.csrError, Bool.or_eq_false_iff] at h
    exact h.1.1.2
  simp only [regAt, hl] at hsome ⊢
  cases hr : b.regs.find? (·.holds o) with
  | none => simp [hr] at hsome
  | some r => exact ⟨r, rfl⟩

/-- The one pair of CAL lies below offset 0x14C (R53). -/
theorem pairAt_cal_eq_none {o : Nat} (h : 0x14C ≤ o) : pairAt .cal o = none := by
  have hpast : 1 ≤ (o - 0x144) / 8 := by omega
  simp [pairAt, pairTable, hpast]

/-- A register of CAL that is no half of a pair reads as the block shows it, for every master, and the read changes nothing. -/
theorem State.csrRead_cal {s : State} {m o : Nat} (ho : o < 0x10000) (hp : pairAt .cal o = none)
    (herr : s.csrError (CAL + o) false = false)
    (hsh : (s.shadow.find? fun x => decide (x.1 = m) && decide (x.2.1 = CAL + o)) = none) :
    s.csrRead m (CAL + o) = (some (BitVec.ofNat 32 (s.csrView .cal 0 o (CAL + o))), s) := by
  obtain ⟨r, hr⟩ := regAt_of_csrError_eq_false (locate_cal ho) herr
  have hne : CAL + o ≠ SCH_ALLOC := by simp only [CAL, SCH_ALLOC, SCH]; omega
  simp [State.csrRead, herr, hr, hne, hsh, hp]

/-- The first word of a pin's view: the drive path below the enable path. -/
theorem State.csrView_t64A (s : State) {p : Nat} (hp : p < 256) (a : Nat) :
    s.csrView .cal 0 (0x4000 + 8 * p) a = s.t64Read p 0 + 2 ^ 16 * s.t64Read p 1 := by
  have hin : 0x4000 ≤ 0x4000 + 8 * p ∧ 0x4000 + 8 * p < 0x4800 := by omega
  have hpin : (0x4000 + 8 * p - 0x4000) / 8 = p := by omega
  have hword : (0x4000 + 8 * p) % 8 = 0 := by omega
  simp only [State.csrView, if_pos hin, hpin, if_pos hword]

/-- The second word of a pin's view: the compare path. -/
theorem State.csrView_t64B (s : State) {p : Nat} (hp : p < 256) (a : Nat) :
    s.csrView .cal 0 (0x4004 + 8 * p) a = s.t64Read p 2 := by
  have hin : 0x4000 ≤ 0x4004 + 8 * p ∧ 0x4004 + 8 * p < 0x4800 := by omega
  have hpin : (0x4004 + 8 * p - 0x4000) / 8 = p := by omega
  have hword : ¬(0x4004 + 8 * p) % 8 = 0 := by omega
  simp only [State.csrView, if_pos hin, hpin, if_neg hword]

/-- A read of the register of a path's CAL_T64 field gives, in that field, what `t64Read` says. -/
theorem State.csrRead_t64 {s : State} {m : Nat} (p : Fin 256) (path : Fin 3)
    (herr : s.csrError (if path.val = 2 then CAL_T64_B p else CAL_T64_A p) false = false)
    (hsh : (s.shadow.find? fun x => decide (x.1 = m) &&
      decide (x.2.1 = if path.val = 2 then CAL_T64_B p else CAL_T64_A p)) = none) :
    ∃ v : Word, s.csrRead m (if path.val = 2 then CAL_T64_B p else CAL_T64_A p) = (some v, s) ∧
      bitsOf v.toNat (if path.val = 1 then 16 else 0) 16 = s.t64Read p path := by
  have hp := p.isLt
  have h0 := s.t64Read_lt p 0
  have h1 := s.t64Read_lt p 1
  have h2 := s.t64Read_lt p 2
  by_cases hpath : path.val = 2
  · rw [if_pos hpath, show CAL_T64_B p = CAL + (0x4004 + 8 * p) by rw [CAL_T64_B, Nat.add_assoc]] at herr hsh ⊢
    refine ⟨_, State.csrRead_cal (by omega) (pairAt_cal_eq_none (by omega)) herr hsh, ?_⟩
    rw [State.csrView_t64B s hp, BitVec.toNat_ofNat, Nat.mod_eq_of_lt (by omega), hpath, if_neg (by decide)]
    simpa using bitsOf_low_of_lt (y := 0) h2
  · rw [if_neg hpath, show CAL_T64_A p = CAL + (0x4000 + 8 * p) by rw [CAL_T64_A, Nat.add_assoc]] at herr hsh ⊢
    refine ⟨_, State.csrRead_cal (by omega) (pairAt_cal_eq_none (by omega)) herr hsh, ?_⟩
    rw [State.csrView_t64A s hp, BitVec.toNat_ofNat, Nat.mod_eq_of_lt (by omega)]
    obtain hdrive | henable : path.val = 0 ∨ path.val = 1 := by omega
    · rw [hdrive, if_neg (by decide), bitsOf_low_of_lt h0]
    · rw [henable, if_pos rfl, bitsOf_high_of_lt h0 h1]

/-- Settles O51: the field holds the rounded quarter of the effective delay. -/
theorem t64ReadsEffectiveDelay : Obligations.T64ReadsEffectiveDelay := by
  rintro s m p path a rfl herr hsh
  obtain ⟨v, hread, hfield⟩ := State.csrRead_t64 p path herr hsh
  exact ⟨v, roundQuarter (s.effectiveDelay p path), hread, hfield.trans (s.t64Read_eq p path),
    natAbs_four_mul_roundQuarter_sub_le (s.effectiveDelay p path), natAbs_le_four_mul_roundQuarter⟩

end Sys2Proof.Machine
end

section
/-! PROOFS. The record of a failed in-service test (R472): what the failing slice writes, and that nothing after it in the command
writes it again. -/

namespace Sys2Proof.Machine

/-! ## Fields and counters -/

theorem bitsOf_whole {x : Nat} (h : x < 2 ^ 32) : bitsOf x 0 32 = x := by
  rw [bitsOf, Nat.shiftRight_zero, Nat.mod_eq_of_lt h]

theorem State.get_istFailCnt (s : State) : s.get CAL_IST_FAIL_CNT_count = s.rn CAL_IST_FAIL_CNT := bitsOf_whole (s.rn_lt _)

theorem State.get_congr {s t : State} (h : t.csr = s.csr) (f : Fld) : t.get f = s.get f := by
  rw [State.get, State.rn, State.rd, h, State.get, State.rn, State.rd]

/-- A counter register saturates. -/
theorem State.rn_count_self {s : State} {a n : Nat} (h : cellsWf regReset s.csr = true) :
    (s.count a n).rn a = min (s.rn a + n) 0xFFFFFFFF := State.rn_wn_self h (by omega)

theorem State.get_count_ne {s : State} {a n : Nat} {f : Fld} (h : cellsWf regReset s.csr = true) (hn : f.addr ≠ a) :
    (s.count a n).get f = s.get f := by
  rw [State.get, State.count, State.rn_wn_ne h hn, State.get]

/-! ## What an operation leaves of a set of fields -/

/-- From `s` to `t` the registers stay in canonical form, the fields of `F` read as they read, and no occurrence is lost. -/
structure Leaves (F : Fld → Prop) (s t : State) : Prop where
  wf : cellsWf regReset s.csr = true → cellsWf regReset t.csr = true
  get : cellsWf regReset s.csr = true → ∀ g, F g → t.get g = s.get g
  raised : s.raised ⊆ t.raised

section
variable {F : Fld → Prop} {s t u : State}

theorem Leaves.trans (hst : Leaves F s t) (htu : Leaves F t u) : Leaves F s u where
  wf h := htu.wf (hst.wf h)
  get h g hg := (htu.get (hst.wf h) g hg).trans (hst.get h g hg)
  raised := List.Subset.trans hst.raised htu.raised

/-- Hidden state may change at will. -/
theorem Leaves.of_csr_eq (hc : t.csr = s.csr) (hr : s.raised ⊆ t.raised) : Leaves F s t where
  wf h := hc ▸ h
  get _ g _ := State.get_congr hc g
  raised := hr

/-- What leaves more fields leaves fewer. -/
theorem Leaves.mono {G : Fld → Prop} (hst : Leaves G s t) (hFG : ∀ g, F g → G g) : Leaves F s t where
  wf := hst.wf
  get h g hg := hst.get h g (hFG g hg)
  raised := hst.raised

theorem Leaves.refl (s : State) : Leaves F s s := .of_csr_eq rfl (List.Subset.refl _)

theorem Leaves.ev (s : State) (e : Nat) : Leaves F s (s.ev e) := .of_csr_eq rfl (by simp)

theorem Leaves.setSme (s : State) (x : SmeH) : Leaves F s (s.setSme x) := .of_csr_eq rfl (List.Subset.refl _)

theorem Leaves.setCal (s : State) (x : CalH) : Leaves F s (s.setCal x) := .of_csr_eq rfl (List.Subset.refl _)

/-- A write of a field that shares no bit with those of `F`. -/
theorem Leaves.put (s : State) {f : Fld} (v : Nat) (hf : f.lo + f.w ≤ 32)
    (hF : ∀ g, F g → g.addr ≠ f.addr ∨ g.lo + g.w ≤ f.lo ∨ f.lo + f.w ≤ g.lo) : Leaves F s (s.put f v) where
  wf := State.put_csr_wf
  get h g hg := State.get_put_ne h hf (hF g hg)
  raised := List.Subset.refl _

theorem Leaves.count (s : State) {a n : Nat} (hF : ∀ g, F g → g.addr ≠ a) : Leaves F s (s.count a n) where
  wf := State.wn_csr_wf
  get h g hg := State.get_count_ne h (hF g hg)
  raised := List.Subset.refl _

end

/-! ## The service microengine leaves the CAL block alone -/

/-- The field lies in the CAL block (Table 1.7). -/
def InCal (f : Fld) : Prop := CAL ≤ f.addr ∧ f.addr < CAL + 0x10000

section
variable (s : State)

/-- A write of a field of SME_STATUS. -/
theorem Leaves.putSme {f : Fld} (v : Nat) (ha : f.addr = SME_STATUS) (hf : f.lo + f.w ≤ 32) : Leaves InCal s (s.put f v) :=
  .put s v hf fun g hg => .inl <| by
    have hlow : CAL ≤ g.addr := hg.1
    simp only [CAL] at hlow
    simp only [ha, SME_STATUS, SME]
    omega

/-- The lease of a TIM channel is shown. -/
theorem Leaves.putLeased (i v : Nat) : Leaves InCal s (s.put (TIM_STATUS_leased i) v) :=
  .put s v (show 15 + 1 ≤ 32 by decide) fun g hg => .inl <| by
    have hhigh : g.addr < CAL + 0x10000 := hg.2
    simp only [CAL] at hhigh
    simp only [TIM_STATUS_leased, TIM_STATUS, TIM, QWIN]
    omega

theorem Leaves.showSme : Leaves InCal s s.showSme :=
  ((Leaves.putSme s _ rfl (by decide)).trans (.putSme _ _ rfl (by decide))).trans (.putSme _ _ rfl (by decide))

theorem Leaves.smeNext : Leaves InCal s s.smeNext := by
  have start (x : SmeH) : Leaves InCal s (s.setSme x).showSme := (Leaves.setSme s x).trans (.showSme _)
  have resume (x : SmeH) : Leaves InCal s ((s.setSme x).ev 436).showSme :=
    ((Leaves.setSme s x).trans (.ev _ 436)).trans (.showSme _)
  unfold State.smeNext
  split
  · exact .showSme s
  · split
    · exact .showSme s
    · exact resume _
    · exact start _
    · split
      · exact start _
      · exact resume _

theorem Leaves.smeRequest (routine unit : Nat) : Leaves InCal s (s.smeRequest routine unit) :=
  (Leaves.setSme s _).trans (.smeNext _)

theorem Leaves.smeDone (routine unit : Nat) : Leaves InCal s (s.smeDone routine unit) := by
  unfold State.smeDone
  dsimp only
  split
  · exact (Leaves.setSme s _).trans (.smeNext _)
  · split
    · exact (Leaves.setSme s _).trans (.showSme _)
    · exact .setSme s _

/-- The cycle's next slice, or its end, writes nothing of CAL. -/
theorem Leaves.istFrom (l : List (Nat × Nat)) : Leaves InCal s (s.istFrom l) := by
  unfold State.istFrom
  split
  · next t u _ =>
    have hslice : Leaves InCal s ((s.setCal { s.cal with ist := some (t, u) }).smeRequest 9 u) :=
      (Leaves.setCal s _).trans (.smeRequest _ 9 u)
    dsimp only
    split
    · exact hslice.trans (.putLeased _ _ 1)
    · exact hslice
  · exact (Leaves.setCal s _).trans (.ev _ 422)

end

/-! ## The parts of a failed slice -/

section
variable (s : State) (t u : Nat)

/-- The slice is over: the lease of a TIM channel ends, and so does the routine. -/
def State.istStopped : State := (if t = 1 then s.put (TIM_STATUS_leased (u - 16)) 0 else s).smeDone 9 u

/-- The record of the failure of test `t` on unit `u` (R472). -/
def State.istRecorded : State :=
  ((((s.put CAL_IST_LAST_test t).put CAL_IST_LAST_unit u).count CAL_IST_FAIL_CNT).put CAL_STATUS_ist_fail 1).ev (istEvent t)

/-- What the failure brings on: the unit of test 1 or 4 is pending (R461), that of test 5 begins a crypto hold (R473). -/
def State.istFollowed : State :=
  if t = 1 ∨ t = 4 then s.setPending u
  else if t = 5 then (s.put CAL_STATUS_crypto_hold 1).setCal { s.cal with katAt := some s.tmb.clk }
  else s

variable {s t u}

theorem State.istSliceDone_failed (h : s.cal.ist = some (t, u)) :
    s.istSliceDone 1 = (((s.istStopped t u).istRecorded t u).istFollowed t u).istFrom (after (t, u) istAll) := by
  simp only [State.istSliceDone, h, if_true]
  rfl

variable (s t u)

theorem Leaves.istStopped : Leaves InCal s (s.istStopped t u) := by
  unfold State.istStopped
  split
  · exact (Leaves.putLeased s _ 0).trans (.smeDone _ 9 u)
  · exact .smeDone s 9 u

/-! ### The record reads as it was written -/

/-- The fields of the record (R472). -/
def IstRecordField (f : Fld) : Prop :=
  f ∈ [CAL_IST_LAST_test, CAL_IST_LAST_unit, CAL_IST_FAIL_CNT_count, CAL_STATUS_ist_fail]

theorem IstRecordField.inCal {f : Fld} (h : IstRecordField f) : InCal f := by
  simp only [IstRecordField, List.mem_cons, List.not_mem_nil, or_false] at h
  obtain rfl | rfl | rfl | rfl := h <;> exact ⟨by decide, by decide⟩

variable {s}

/-- What is written of the record after CAL_IST_LAST. -/
theorem Leaves.istRecorded_last {F : Fld → Prop} (hF : ∀ g, F g → g.addr = CAL_IST_LAST) :
    Leaves F ((s.put CAL_IST_LAST_test t).put CAL_IST_LAST_unit u) (s.istRecorded t u) :=
  ((Leaves.count _ fun g hg => by rw [hF g hg]; decide).trans
    (.put _ 1 (by decide) fun g hg => .inl (by rw [hF g hg]; decide))).trans (.ev _ _)

theorem State.get_istRecorded_test (h : cellsWf regReset s.csr = true) :
    (s.istRecorded t u).get CAL_IST_LAST_test = t % 16 := by
  have hrest : Leaves (· = CAL_IST_LAST_test) (s.put CAL_IST_LAST_test t) (s.istRecorded t u) :=
    (Leaves.put _ u (by decide) (by rintro g rfl; decide)).trans (.istRecorded_last t u (by rintro g rfl; rfl))
  rw [hrest.get (State.put_csr_wf h) _ rfl, State.get_put_self h (by decide)]
  rfl

theorem State.get_istRecorded_unit (h : cellsWf regReset s.csr = true) :
    (s.istRecorded t u).get CAL_IST_LAST_unit = u % 128 := by
  have hrest := Leaves.istRecorded_last (s := s) (F := (· = CAL_IST_LAST_unit)) t u (by rintro g rfl; rfl)
  have hwf := State.put_csr_wf (f := CAL_IST_LAST_test) (v := t) h
  rw [hrest.get (State.put_csr_wf hwf) _ rfl, State.get_put_self hwf (by decide)]
  rfl

theorem State.rn_istRecorded_failCnt (h : cellsWf regReset s.csr = true) :
    (s.istRecorded t u).rn CAL_IST_FAIL_CNT = min 0xFFFFFFFF (s.rn CAL_IST_FAIL_CNT + 1) := by
  have h1 := State.put_csr_wf (f := CAL_IST_LAST_test) (v := t) h
  have h2 := State.put_csr_wf (f := CAL_IST_LAST_unit) (v := u) h1
  have h3 : cellsWf regReset (((s.put CAL_IST_LAST_test t).put CAL_IST_LAST_unit u).count CAL_IST_FAIL_CNT).csr = true :=
    State.wn_csr_wf h2
  calc (s.istRecorded t u).rn CAL_IST_FAIL_CNT
    _ = (((s.put CAL_IST_LAST_test t).put CAL_IST_LAST_unit u).count CAL_IST_FAIL_CNT).rn CAL_IST_FAIL_CNT :=
      State.rn_put_ne h3 (by decide)
    _ = min (((s.put CAL_IST_LAST_test t).put CAL_IST_LAST_unit u).rn CAL_IST_FAIL_CNT + 1) 0xFFFFFFFF :=
      State.rn_count_self h2
    _ = min 0xFFFFFFFF (s.rn CAL_IST_FAIL_CNT + 1) := by
      rw [State.rn_put_ne h1 (by decide), State.rn_put_ne h (by decide), Nat.min_comm]

theorem State.get_istRecorded_istFail (h : cellsWf regReset s.csr = true) :
    (s.istRecorded t u).get CAL_STATUS_ist_fail = 1 := by
  have h2 := State.put_csr_wf (f := CAL_IST_LAST_unit) (v := u) (State.put_csr_wf (f := CAL_IST_LAST_test) (v := t) h)
  exact State.get_put_self (State.wn_csr_wf h2) (by decide)

theorem State.istRecorded_csr_wf (h : cellsWf regReset s.csr = true) : cellsWf regReset (s.istRecorded t u).csr = true :=
  State.put_csr_wf (State.wn_csr_wf (State.put_csr_wf (State.put_csr_wf h)))

theorem State.istEvent_mem_raised_istRecorded : istEvent t ∈ (s.istRecorded t u).raised := by
  simp [State.istRecorded]

/-! ### What follows writes nothing of the record -/

variable (s)

theorem Leaves.setPending : Leaves IstRecordField s (s.setPending u) := by
  have hbelow : ∀ g, IstRecordField g → g.addr ≠ (CAL_UNIT_pending u).addr := by
    intro g hg
    have hlt : g.addr < CAL + 0x400 := by
      simp only [IstRecordField, List.mem_cons, List.not_mem_nil, or_false] at hg
      obtain rfl | rfl | rfl | rfl := hg <;> decide
    simp only [CAL_UNIT_pending, CAL_UNIT]
    omega
  unfold State.setPending
  split
  · exact .refl s
  · exact (Leaves.setCal s _).trans (.put _ 1 (show 1 + 1 ≤ 32 by decide) fun g hg => .inl (hbelow g hg))

theorem Leaves.putCryptoHold : Leaves IstRecordField s (s.put CAL_STATUS_crypto_hold 1) :=
  .put s 1 (by decide) fun g hg => by
    simp only [IstRecordField, List.mem_cons, List.not_mem_nil, or_false] at hg
    obtain rfl | rfl | rfl | rfl := hg <;> decide

theorem Leaves.istFollowed : Leaves IstRecordField s (s.istFollowed t u) := by
  unfold State.istFollowed
  split
  · exact .setPending s u
  · split
    · exact (Leaves.putCryptoHold s).trans (.setCal _ _)
    · exact .refl s

variable {s}

/-- A unit made pending is pending, whether or not it was before. -/
theorem State.get_setPending (h : cellsWf regReset s.csr = true) : (s.setPending u).get (CAL_UNIT_pending u) = 1 := by
  unfold State.setPending
  split
  · next hon => simpa [State.on] using hon
  · exact State.get_put_self (f := CAL_UNIT_pending u) h (show 1 + 1 ≤ 32 by decide)

theorem State.get_istFollowed_pending (h : cellsWf regReset s.csr = true) (ht : t = 1 ∨ t = 4) :
    (s.istFollowed t u).get (CAL_UNIT_pending u) = 1 := by
  rw [State.istFollowed, if_pos ht, State.get_setPending u h]

theorem inCal_pending (hu : u < 76) : InCal (CAL_UNIT_pending u) := by
  simp only [InCal, CAL_UNIT_pending, CAL_UNIT]
  omega

/-! ### The whole slice -/

/-- The fail count before the record is that before the command. -/
theorem State.rn_istStopped_failCnt (h : cellsWf regReset s.csr = true) :
    (s.istStopped t u).rn CAL_IST_FAIL_CNT = s.rn CAL_IST_FAIL_CNT := by
  have hget := (Leaves.istStopped s t u).get h CAL_IST_FAIL_CNT_count ⟨by decide, by decide⟩
  rwa [State.get_istFailCnt, State.get_istFailCnt] at hget

variable {t u}

/-- All that the command does after the record leaves the record. -/
theorem Leaves.istSliceDone_failed (hist : s.cal.ist = some (t, u)) :
    Leaves IstRecordField ((s.istStopped t u).istRecorded t u) (s.istSliceDone 1) := by
  rw [State.istSliceDone_failed hist]
  exact (Leaves.istFollowed _ t u).trans ((Leaves.istFrom _ _).mono fun _ => IstRecordField.inCal)

theorem State.get_istSliceDone_pending (h : cellsWf regReset s.csr = true) (hist : s.cal.ist = some (t, u))
    (ht : t = 1 ∨ t = 4) (hu : u < 76) : (s.istSliceDone 1).get (CAL_UNIT_pending u) = 1 := by
  have hrec := State.istRecorded_csr_wf t u ((Leaves.istStopped s t u).wf h)
  have hfol := (Leaves.istFollowed _ t u).wf hrec
  rw [State.istSliceDone_failed hist, (Leaves.istFrom _ _).get hfol _ (inCal_pending u hu),
    State.get_istFollowed_pending t u hrec ht]

end

/-- Settles O52: the slice's record reads as it was written, and what the command does after it, to the unit and for the cycle's next
slice, leaves the record's fields. -/
theorem failedTestIsRecorded : Obligations.FailedTestIsRecorded := by
  intro s test u hcan hist
  obtain ⟨-, hwf⟩ : Memory.wf s.mem = true ∧ cellsWf regReset s.csr = true := by
    simpa only [State.canonical, Bool.and_eq_true] using hcan
  have hstop := (Leaves.istStopped s test u).wf hwf
  have hafter := Leaves.istSliceDone_failed hist
  have hkept := hafter.get (State.istRecorded_csr_wf test u hstop)
  have hevent : istEvent test ∈ (s.istSliceDone 1).raised := hafter.raised (State.istEvent_mem_raised_istRecorded test u)
  refine ⟨s.istSliceDone 1, rfl, ?_, ?_, ?_, ?_, ?_, ?_, ?_, ?_, State.get_istSliceDone_pending hwf hist⟩
  · rw [hkept CAL_IST_LAST_test (by simp [IstRecordField]), State.get_istRecorded_test test u hstop]
  · rw [hkept CAL_IST_LAST_unit (by simp [IstRecordField]), State.get_istRecorded_unit test u hstop]
  · rw [← State.get_istFailCnt, hkept CAL_IST_FAIL_CNT_count (by simp [IstRecordField]), State.get_istFailCnt,
      State.rn_istRecorded_failCnt test u hstop, State.rn_istStopped_failCnt test u hwf]
  · rw [hkept CAL_STATUS_ist_fail (by simp [IstRecordField]), State.get_istRecorded_istFail test u hstop]
  · rintro rfl
    exact hevent
  · rintro (rfl | rfl) <;> exact hevent
  · rintro rfl
    exact hevent
  · rintro rfl
    exact hevent

end Sys2Proof.Machine
end

section
/-! PROOFS. The hottest sensor and the thermal warning (R509). -/

namespace Sys2Proof.Machine

/-- The readings of the valid ones among the sensors of a list, in 1/16 °C. -/
def State.validTemps (s : State) (l : List Nat) : List Int :=
  (l.filter fun k => s.on (CAL_TEMP_valid k)).map fun k => toSigned 13 (s.get (CAL_TEMP_temp k))

section
variable {s : State} {k : Nat} {l : List Nat}

theorem State.validTemps_cons_of_valid (h : s.on (CAL_TEMP_valid k) = true) :
    s.validTemps (k :: l) = toSigned 13 (s.get (CAL_TEMP_temp k)) :: s.validTemps l := by
  simp only [State.validTemps, List.filter_cons, if_pos h, List.map_cons]

theorem State.validTemps_cons_of_not_valid (h : ¬s.on (CAL_TEMP_valid k) = true) : s.validTemps (k :: l) = s.validTemps l := by
  simp only [State.validTemps, List.filter_cons, if_neg h]

theorem State.mem_validTemps {x : Int} :
    x ∈ s.validTemps l ↔ ∃ k ∈ l, s.on (CAL_TEMP_valid k) = true ∧ toSigned 13 (s.get (CAL_TEMP_temp k)) = x := by
  simp only [State.validTemps, List.mem_map, List.mem_filter, and_assoc]

theorem State.forall_mem_validTemps {P : Int → Prop} :
    (∀ x ∈ s.validTemps l, P x) ↔ ∀ k ∈ l, s.on (CAL_TEMP_valid k) = true → P (toSigned 13 (s.get (CAL_TEMP_temp k))) := by
  simp only [State.validTemps, List.forall_mem_map, List.mem_filter, and_imp]

end

/-- The hotter of the hottest sensor so far and sensor `k`, if that is valid. -/
def State.hotter (s : State) (m : Option Int) (k : Nat) : Option Int :=
  if s.on (CAL_TEMP_valid k) then
    let x := toSigned 13 (s.get (CAL_TEMP_temp k))
    some (match m with | none => x | some y => max x y)
  else m

theorem State.hottest_eq_foldl (s : State) : s.hottest = (List.range 16).foldl s.hotter none := rfl

/-- A valid sensor joins the readings whose maximum is known. -/
theorem State.hotter_max?_of_valid {s : State} {k : Nat} (h : s.on (CAL_TEMP_valid k) = true) (seen : List Int) :
    s.hotter seen.max? k = (seen ++ [toSigned 13 (s.get (CAL_TEMP_temp k))]).max? := by
  rw [State.hotter, if_pos h]
  cases seen with
  | nil => rfl
  | cons y l =>
    rw [List.cons_append, List.max?_cons', List.max?_cons', List.foldl_append]
    exact congrArg some (Int.max_comm _ _)

/-- The pass over the sensors finds the maximum of what was seen before it and the valid readings. -/
theorem State.foldl_hotter_max? (s : State) (l : List Nat) (seen : List Int) :
    l.foldl s.hotter seen.max? = (seen ++ s.validTemps l).max? := by
  induction l generalizing seen with
  | nil => rw [State.validTemps, List.filter_nil, List.map_nil, List.append_nil, List.foldl_nil]
  | cons k l ih =>
    rw [List.foldl_cons]
    by_cases hvalid : s.on (CAL_TEMP_valid k) = true
    · rw [State.hotter_max?_of_valid hvalid, ih, State.validTemps_cons_of_valid hvalid, List.append_assoc, List.singleton_append]
    · rw [State.hotter, if_neg hvalid, ih, State.validTemps_cons_of_not_valid hvalid]

theorem State.hottest_eq_max? (s : State) : s.hottest = (s.validTemps (List.range 16)).max? :=
  s.hottest_eq_foldl.trans (s.foldl_hotter_max? (List.range 16) [])

theorem exec_tempSampleTick (temps : List Int) (s : State) : exec (.tempSampleTick temps) s = .next (s.tempSampled temps) := rfl

/-- Settles O55: the pass finds the maximum of the valid readings, and each combination of the warning's state and the reading takes its
own branch of the sample. -/
theorem thermalWarning : Obligations.ThermalWarning := by
  constructor
  · intro s x
    rw [State.hottest_eq_max?, List.max?_eq_some_iff, State.mem_validTemps, State.forall_mem_validTemps]
    simp only [List.mem_range]
  · intro s a temps x thr ha hthr
    simp only [exec_tempSampleTick, State.tempSampled, ← ha, ← hthr]
    refine ⟨fun hnone => ?_, fun hsome => ⟨fun hcool hrise => ?_, fun hcool hbelow => ?_, fun hhot hfallen => ?_, fun hhot hstays => ?_⟩⟩
    · rw [hnone]
    · simp [hsome, hcool, hrise]
    · simp [hsome, hcool, Int.not_le.mpr hbelow]
    · simp [hsome, hhot, hfallen]
    · simp [hsome, hhot, Int.not_lt.mpr hstays]

end Sys2Proof.Machine
end

section
/-! PROOFS. Events and inputs (R487 to R494). -/

namespace Sys2Proof.Machine

/-! ## The events of the open sessions (R418) -/

section
variable (s : State) (src : Nat) (k : Fin 8)

/-- Session `k` after an occurrence that goes to the host: the events of an open session that takes them hold it. -/
def State.sessNoted : SessH :=
  if s.sessOpen k ∧ s.on (NET_SESS_CFG_evt_en k) then
    { s.net.sess[k] with evts := addRecord src s.tmb.epoch s.stamp s.net.sess[k].evts }
  else s.net.sess[k]

/-- An occurrence joins the events of session `k`, if the session takes them. -/
def State.noteEvent : State :=
  if s.sessOpen k ∧ s.on (NET_SESS_CFG_evt_en k) then
    s.setSess k { s.net.sess[k] with evts := addRecord src s.tmb.epoch s.stamp s.net.sess[k].evts }
  else s

theorem State.eventToHost_eq_foldl : s.eventToHost src = (List.finRange 8).foldl (fun a k => a.noteEvent src k) s := rfl

@[simp] theorem State.noteEvent_csr : (s.noteEvent src k).csr = s.csr := by
  unfold State.noteEvent
  split <;> rfl

@[simp] theorem State.noteEvent_tmb : (s.noteEvent src k).tmb = s.tmb := by
  unfold State.noteEvent
  split <;> rfl

theorem State.noteEvent_sess_self : (s.noteEvent src k).net.sess[k] = s.sessNoted src k := by
  unfold State.noteEvent State.sessNoted
  split
  · exact Vector.getElem_set_self k.isLt
  · rfl

variable {s src k}

theorem State.noteEvent_sess_ne {j : Fin 8} (hne : j ≠ k) : (s.noteEvent src j).net.sess[k] = s.net.sess[k] := by
  unfold State.noteEvent
  split
  · exact Vector.getElem_set_ne j.isLt k.isLt (Fin.val_ne_of_ne hne)
  · rfl

/-- What an occurrence does to session `k` depends on the registers, the time base and that session only. -/
theorem State.sessNoted_congr {t : State} (hcsr : t.csr = s.csr) (htmb : t.tmb = s.tmb)
    (hsess : t.net.sess[k] = s.net.sess[k]) : t.sessNoted src k = s.sessNoted src k := by
  have hget (f : Fld) : t.get f = s.get f := State.get_congr hcsr f
  have hopen : t.sessOpen k = s.sessOpen k := by rw [State.sessOpen, State.sessState, hget, State.sessOpen, State.sessState]
  have hen : t.on (NET_SESS_CFG_evt_en k) = s.on (NET_SESS_CFG_evt_en k) := by rw [State.on, hget, State.on]
  have hstamp : t.stamp = s.stamp := by rw [State.stamp, htmb, hget, State.stamp]
  rw [State.sessNoted, hopen, hen, hstamp, htmb, hsess, State.sessNoted]

theorem State.foldl_noteEvent_sess_of_notMem {l : List (Fin 8)} (hk : k ∉ l) :
    (l.foldl (fun a j => a.noteEvent src j) s).net.sess[k] = s.net.sess[k] := by
  induction l generalizing s with
  | nil => rfl
  | cons j l ih =>
    obtain ⟨hne, hl⟩ := List.ne_and_not_mem_of_not_mem_cons hk
    exact (ih hl).trans (State.noteEvent_sess_ne (Ne.symm hne))

/-- A pass over distinct sessions does to each what it does to that one alone. -/
theorem State.foldl_noteEvent_sess_of_mem {l : List (Fin 8)} (hl : l.Nodup) (hk : k ∈ l) :
    (l.foldl (fun a j => a.noteEvent src j) s).net.sess[k] = s.sessNoted src k := by
  induction l generalizing s with
  | nil => exact absurd hk List.not_mem_nil
  | cons j l ih =>
    obtain ⟨hj, hl⟩ := List.nodup_cons.mp hl
    rcases List.mem_cons.mp hk with rfl | hk
    · exact (State.foldl_noteEvent_sess_of_notMem hj).trans (s.noteEvent_sess_self src k)
    · have hne : j ≠ k := fun h => hj (h ▸ hk)
      exact (ih hl hk).trans (State.sessNoted_congr (s.noteEvent_csr src j) (s.noteEvent_tmb src j)
        (State.noteEvent_sess_ne hne))

variable (s src k)

/-- An occurrence that goes to the host joins the events of the open sessions that take them, and of no other. -/
theorem State.eventToHost_sess : (s.eventToHost src).net.sess[k] = s.sessNoted src k := by
  rw [State.eventToHost_eq_foldl, State.foldl_noteEvent_sess_of_mem (List.nodup_finRange 8) (List.mem_finRange k)]

end

/-! ## An occurrence reaches the controller (R487, R488) -/

section
variable {s : State} {src : Nat} {merged : Bool}

/-- The occurrence has left its crossing, and the controller has noted when. -/
def State.arrived (s : State) (src : Nat) : State :=
  { s with
    raised := s.raised.erase src
    evc := { s.evc with accepted := (src, s.tmb.clk) :: s.evc.accepted.filter fun x => decide (x.1 ≠ src) } }

theorem State.eventAccept_dropped (hsrc : src < 512 ∧ src ∈ s.raised) (hdrop : s.booted = false ∨ s.on (EVC_SRC_en src) = false) :
    s.eventAccept src merged = s.arrived src := by
  rw [State.eventAccept, if_pos hsrc]
  exact if_pos (by simpa using hdrop)

theorem State.eventAccept_enabled (hsrc : src < 512 ∧ src ∈ s.raised) (hboot : s.booted = true)
    (hen : s.on (EVC_SRC_en src) = true) :
    s.eventAccept src merged =
      if merged && s.mayMerge src then (s.arrived src).count EVC_MERGED else (s.arrived src).routeEvent src := by
  rw [State.eventAccept, if_pos hsrc]
  exact if_neg (by simp [hboot, hen])

end

/-! ## The level of an input (R491 to R494) -/

section
variable {s : State} {n samples cycles : Nat} {level : Bool}

/-- Input `n` shows a level after its filter; EPOCH_IN shows it to the matrix too (Table 2.7). -/
def State.inputShown (s : State) (n : Nat) (level : Bool) : State :=
  let t := if level then s.setBit EVC_IN_STATE n else s.clearBit EVC_IN_STATE n
  if n = 16 then State.levelTo { t with evc := { t.evc with inActive := putBit t.evc.inActive 16 level } } 0x90 level else t

/-- A level that the input has already, or that is shorter than the filter, does nothing. -/
theorem State.inputEdge_filtered (h : s.bitAt EVC_IN_STATE n = level ∨ samples < max 1 (s.get (EVC_IN_CFG_filter n))) :
    s.inputEdge n level samples cycles = s := if_pos (.inr h)

/-- A change that lasts passes the filter. -/
theorem inputEdge_passes (hn : n < 17) (hlevel : s.bitAt EVC_IN_STATE n = !level)
    (hlong : max 1 (s.get (EVC_IN_CFG_filter n)) ≤ samples) :
    ¬(17 ≤ n ∨ s.bitAt EVC_IN_STATE n = level ∨ samples < max 1 (s.get (EVC_IN_CFG_filter n))) := by
  rw [hlevel]
  simp [Nat.not_le.mpr hn, Nat.not_lt.mpr hlong]

theorem State.inputEdge_active (hn : n < 17) (hlow : s.bitAt EVC_IN_STATE n = false)
    (hlong : max 1 (s.get (EVC_IN_CFG_filter n)) ≤ samples) :
    s.inputEdge n true samples cycles =
      if !bit s.evc.inSeen n || decide (max 1 (s.get (EVC_IN_CFG_interval n)) ≤ cycles) then (s.inputShown n true).inputAccepted n
      else (s.inputShown n true).inputOverrun n :=
  if_neg (inputEdge_passes hn hlow hlong)

theorem State.inputEdge_inactive (hn : n < 17) (hhigh : s.bitAt EVC_IN_STATE n = true)
    (hlong : max 1 (s.get (EVC_IN_CFG_filter n)) ≤ samples) :
    s.inputEdge n false samples cycles =
      if n < 8 ∧ bit (s.inputShown n false).evc.inActive n then
        State.levelTo { s.inputShown n false with
          evc := { (s.inputShown n false).evc with inActive := putBit (s.inputShown n false).evc.inActive n false } } n false
      else s.inputShown n false :=
  if_neg (inputEdge_passes hn hhigh hlong)

end

/-! ## The commands -/

theorem exec_eventAccept (src : Fin 512) (merged : Bool) (s : State) :
    exec (.eventAccept src merged) s = .next (s.eventAccept src merged) := rfl

theorem exec_eventLatchClear {s : State} {k : Fin 16} (v : Word) (h : s.csrError (EVC_LATCH k) true = false) :
    exec (.eventLatchClear k v) s = .next (s.wr (EVC_LATCH k) (s.rd (EVC_LATCH k) &&& ~~~v)) :=
  congrArg finish ((State.atReg_of_csrError_eq_false _ h).trans (if_pos k.isLt))

theorem exec_evtOutPulseEnd {s : State} {k : Fin 8} {t : Nat} (h : s.evc.pulse.lookup k.val = some t) :
    exec (.evtOutPulseEnd k) s = .next { s.advanceTo t with
      evc := { (s.advanceTo t).evc with pulse := (s.advanceTo t).evc.pulse.filter fun x => decide (x.1 ≠ k.val) } } := by
  change finish (s.outPulseEnd k) = _
  rw [State.outPulseEnd, h]
  rfl

theorem exec_inputEdge (n : Fin 17) (level : Bool) (samples cycles : Nat) (s : State) :
    exec (.inputEdge n level samples cycles) s = .next (s.inputEdge n level samples cycles) := rfl

/-- Settles O56: each clause's hypotheses select one branch of its operation; only the events of the sessions need an induction, over the
pass through them. -/
theorem eventsAndInputs : Obligations.EventsAndInputs := by
  intro s
  refine ⟨?accept, ?host, fun k v => exec_eventLatchClear v, ?pulse, ?input, ?accepted⟩
  case accept =>
    rintro src m u hraised rfl
    have hsrc : src.val < 512 ∧ src.val ∈ s.raised := ⟨src.isLt, hraised⟩
    refine ⟨fun hdrop => ?_, fun hboot hen => ⟨fun hm hmerge => ?_, ?_⟩⟩
    · rw [exec_eventAccept, State.eventAccept_dropped hsrc hdrop, State.arrived]
    · rw [exec_eventAccept, State.eventAccept_enabled hsrc hboot hen, hm, hmerge]
      rfl
    · rintro a b c hnot rfl rfl rfl
      have hroute : (m && s.mayMerge src) = false := Bool.and_eq_false_iff.mpr hnot
      rw [exec_eventAccept, State.eventAccept_enabled hsrc hboot hen, hroute]
      rfl
  case host =>
    intro src k
    refine ⟨fun hopen hen => ?_, fun hnot => ?_⟩
    · rw [State.eventToHost_sess, State.sessNoted, if_pos ⟨hopen, hen⟩]
    · rw [State.eventToHost_sess, State.sessNoted, if_neg (by rcases hnot with h | h <;> simp [h])]
  case pulse =>
    rintro k t u hlookup rfl
    exact exec_evtOutPulseEnd hlookup
  case input =>
    intro n level samples cycles
    rw [exec_inputEdge]
    refine ⟨fun h => by rw [State.inputEdge_filtered h], ?_⟩
    rintro u v hlong rfl hu
    obtain rfl : u = s.inputShown n level := hu
    refine ⟨?_, ?_⟩
    · rintro rfl hlow
      rw [State.inputEdge_active n.isLt hlow hlong]
      refine ⟨fun hlate => ?_, fun hseen hearly => ?_⟩
      · rw [if_pos (by simpa using hlate)]
      · rw [if_neg (by simp [hseen, Nat.not_le.mpr hearly]), State.inputOverrun]
    · rintro rfl hhigh
      rw [State.inputEdge_inactive n.isLt hhigh hlong]
      refine ⟨fun hidle => ?_, fun hn hactive => ?_⟩
      · rw [if_neg]
        rintro ⟨hn, hactive⟩
        rcases hidle with hhigh | hclear
        · exact Nat.not_le.mpr hn hhigh
        · exact Bool.eq_false_iff.mp hclear hactive
      · rw [if_pos ⟨hn, hactive⟩]
  case accepted =>
    rintro n u v rfl rfl
    refine ⟨fun hn => ?_, fun hlow hn => ?_, rfl⟩
    · rw [State.inputAccepted, if_pos hn]
      rfl
    · rw [State.inputAccepted, if_neg (Nat.not_lt.mpr hlow), if_pos hn]
      rfl

end Sys2Proof.Machine
end

section
/-! PROOFS. What every command keeps: the canonical form of registers and memory (R14), and the queue of the commands that wait. -/

namespace Sys2Proof.Machine

/-- A command does not end, or ends in a state of which `P` holds. -/
def Ends (P : State → Prop) (o : Host.Outcome State Fault Refusal) : Prop := ∀ t, o = .next t → P t

section
variable {P : State → Prop} {s : State}

theorem Ends.finish (h : P s) : Ends P (finish s) := by
  rintro t ⟨⟩
  exact h

theorem KeepsMem.ends_finishSync (K : KeepsMem P) (h : P s) : Ends P (finishSync s) := .finish (K.syncSources (K.holdFaults h))

/-- Every command keeps what every operation keeps, for it is made of operations. -/
theorem KeepsMem.exec_ends (K : KeepsMem P) (hs : P s) (c : Instr) : Ends P (exec c s) := by
  cases c with
  | registerWrite _ _ => exact K.ends_finishSync (K.regCmd hs)
  | fabricRequest _ _ _ _ => exact .finish (K.fabricRequest hs)
  | fabricResponse _ _ _ _ => exact K.ends_finishSync (K.netGo (K.fabricResponse hs))
  | structLoad _ => exact K.ends_finishSync (K.dataFrame hs)
  | structCheckDone => exact .finish (K.loadChecked hs)
  | structUnitsStopped => exact K.ends_finishSync (K.loadStopped hs)
  | structDomainsSettled => exact .finish (K.loadSettled hs)
  | structureCommit => exact .finish (K.loadCommit hs)
  | structLoadDone => exact K.ends_finishSync (K.clockGo (K.loadDone hs))
  | stcSwstrobe _ => exact .finish (K.atReg hs fun _ h => K.swStrobe h)
  | pwrDomainWrite _ _ => exact K.ends_finishSync (K.atReg hs fun _ h => K.clockGo (K.pwrDomainWrite h))
  | vectorPeriod _ _ _ _ => exact K.ends_finishSync (K.vectorPeriod hs)
  | jumpRequestRegistered _ => exact .finish (K.ite hs (K.registerDue hs))
  | jumpHostReq _ => exact .finish (K.atClock hs fun _ h => K.hostReq h)
  | jumpHostCancel _ => exact .finish (K.atClock hs fun _ h => K.put h)
  | portWaitTimeout _ => exact .finish (K.waitTimeout hs)
  | portRun _ _ => exact .finish (K.atClock hs fun _ h => K.seqCtl h)
  | portStop _ _ => exact .finish (K.atClock hs fun _ h => K.seqCtl h)
  | portStartEvent _ => exact .finish (K.portStartEvent hs)
  | portTrailheadReached _ => exact .finish (K.portTrailhead hs)
  | portFirstVector _ _ _ _ _ => exact K.ends_finishSync (K.firstVector hs)
  | bandWrite _ _ => exact .finish (K.atClock hs fun _ h => K.bandWrite h)
  | rambleStep _ => exact .finish (K.ramStep hs)
  | rambleSweepUpdate _ => exact .finish (K.ramSweep hs)
  | startAdmitted _ => exact .finish (K.startAdmitted hs)
  | admitTimeout _ => exact .finish (K.admitTimeout hs)
  | ringZeroed _ => exact .finish (K.ringZeroed hs)
  | streamFetch _ _ => exact .finish (K.streamFetch hs)
  | streamLineValid _ => exact K.ends_finishSync (K.netGo (K.grantTags (K.streamLand hs)))
  | holdResume _ _ => exact .finish (K.holdResume hs)
  | holdTimeout _ => exact K.ends_finishSync (K.holdTimeout hs)
  | pageAuthDone _ _ _ => exact K.ends_finishSync (K.pageAuthDone hs)
  | dplRun _ _ => exact .finish (K.atReg hs fun _ h => K.dplCtl h)
  | dplRunOff _ _ => exact .finish (K.atReg hs fun _ h => K.clockGo (K.dplCtl h))
  | dplCommit _ _ => exact .finish (K.atReg hs fun _ h => K.dplCtl h)
  | dplReseed _ _ => exact .finish (K.atReg hs fun _ h => K.dplCtl h)
  | dplHandover _ => exact .finish (K.dplHandover hs)
  | dplLockDeclared _ => exact .finish (K.dplLock hs)
  | dplSettled _ _ => exact .finish (K.clockGo (K.dplUngate hs))
  | dplLossOfLock _ => exact .finish (K.dplLoss hs)
  | dplHoldToAcquire _ => exact .finish (K.dplHoldToAcquire hs)
  | dplFail _ => exact K.ends_finishSync (K.clockGo (K.dplFail hs))
  | dplRampUpdate _ => exact .finish (K.dplRampUpdate hs)
  | dplRampSettled _ => exact .finish (K.dplRampSettled hs)
  | ceilingSuppress _ => exact .finish (K.ceiling hs)
  | refAbsent => exact .finish (K.refAbsent hs)
  | refPresent => exact .finish (K.refPresent hs)
  | tbpllMdllReady => exact .finish (K.tbpllMdllReady hs)
  | tbpllLocked => exact .finish (K.tbpllLocked hs)
  | tbpllUnlocked => exact .finish (K.tbpllUnlocked hs)
  | tbpllReturn _ _ => exact .finish (K.tbpllReturn hs)
  | tbpllAligned => exact .finish (K.tbpllAligned hs)
  | holdoverLong => exact .finish (K.holdoverLong hs)
  | timestampWrap => exact .finish (K.timestampWrap hs)
  | timeBaseZero _ => exact .finish (K.timeBaseZero hs)
  | trailheadArm => exact .finish (K.atReg hs fun _ h => K.trailheadArm h)
  | tmbTrailheadReached => exact .finish (K.trailheadReached hs)
  | phaseSampleReq _ _ => exact .finish (K.regCmd hs)
  | phaseSample _ _ => exact .finish (K.phaseSample hs)
  | acqArm _ _ => exact .finish (K.atClock hs fun _ h => K.acqCtl h)
  | acqStop _ _ => exact .finish (K.atClock hs fun _ h => K.acqCtl h)
  | acqForce _ _ => exact .finish (K.atClock hs fun _ h => K.acqCtl h)
  | acqRecordPublish _ => exact .finish (K.acqRecordPublish hs)
  | acqDrainRdWrite _ _ => exact K.ends_finishSync (K.atClock hs fun _ h => K.drainRdWrite h)
  | timArm _ _ _ _ => exact .finish (K.atReg hs fun _ h => K.timCtlPair h)
  | timStop _ _ => exact .finish (K.atReg hs fun _ h => K.timCtlPair h)
  | timMeasStart _ => exact K.ends_finishSync (K.timMeasStart hs)
  | timEdge _ _ _ => exact .finish (K.timEdge hs)
  | timResult _ _ _ _ => exact K.ends_finishSync (K.timResultReady hs)
  | timGateEnd _ => exact K.ends_finishSync (K.timGateReady hs)
  | timHistUpdate _ => exact .finish (K.timHistUpdate hs)
  | timHistClear _ _ => exact .finish (K.regCmd hs)
  | timHistClearDone _ => exact .finish (K.timHistClearDone hs)
  | timDllLock _ => exact .finish (K.timDllLock hs)
  | timDllUnlock _ => exact .finish (K.timDllUnlock hs)
  | secretPeriodEnd _ => exact .finish (K.secretEnd hs)
  | wfgRun _ _ => exact .finish (K.atClock hs fun _ h => K.wfgCtl h)
  | wfgStop _ _ => exact .finish (K.atClock hs fun _ h => K.wfgCtl h)
  | wfgAdmitted _ => exact .finish (K.wfgAdmitted hs)
  | wfgAdmitTimeout _ => exact .finish (K.wfgAdmitTimeout hs)
  | wfgTrailheadReached _ => exact .finish (K.wfgTrailhead hs)
  | wfgFirstSample _ _ _ => exact .finish (K.wfgFirst hs)
  | wfgWdCycle _ _ => exact .finish (K.wfgCycle hs)
  | wfgRequestRegistered _ => exact .finish (K.registerDue hs)
  | wfgJumpHostReq _ => exact .finish (K.atClock hs fun _ h => K.hostReq h)
  | wfgJumpHostCancel _ => exact .finish (K.atClock hs fun _ h => K.put h)
  | wfgWaitTimeout _ => exact .finish (K.waitTimeout hs)
  | pdacCodeWrite _ _ => exact .finish (K.atReg hs fun _ h => K.pdacCode h)
  | pdacGroupLoad _ _ => exact .finish (K.atReg hs fun _ h => K.gload h)
  | pdacMatrixLoad _ => exact .finish (K.pdacGroup hs)
  | pdacHoldEnd _ => exact .finish (K.pdacHoldEnd hs)
  | pdacLimit _ _ => exact .finish (K.pdacLimit hs)
  | pdacScOff _ => exact .finish (K.pdacScOff hs)
  | slkEnable _ => exact .finish (K.atReg hs fun _ h => K.slkCtl h)
  | slkDisable _ => exact .finish (K.atReg hs fun _ h => K.slkCtl h)
  | slkAligned => exact .finish (K.slkAligned hs)
  | slkInputLost => exact .finish (K.x9All (K.slkInputLost hs))
  | announceTimer => exact .finish (K.slkAnnounceTimer hs)
  | announce _ _ => exact .finish (K.x9All (K.slkFrame hs))
  | vote _ _ => exact .finish (K.x9All (K.slkFrame hs))
  | abandon _ _ => exact .finish (K.x9All (K.slkFrame hs))
  | linkBreak _ _ => exact .finish (K.x9All (K.slkFrame hs))
  | trailheadFrame _ _ => exact .finish (K.x9All (K.slkFrame hs))
  | localVote => exact .finish (K.x9All (K.slkLocalVote hs))
  | roundTimeout _ _ => exact .finish (K.x9All (K.slkRoundTimeout hs))
  | slkThSend _ => exact .finish (K.regCmd hs)
  | slkThTimeout => exact .finish (K.slkThTimeout hs)
  | schAlloc => exact .finish (K.csrRead hs)
  | taskSubmit _ => exact .finish (K.atReg hs fun _ h => K.taskSubmit h)
  | taskCancel _ => exact .finish (K.atReg hs fun _ h => K.taskCancel h)
  | slotReturn _ => exact .finish (K.atReg hs fun _ h => K.slotReturn h)
  | bindingFire _ => exact .finish (K.bindingFire hs)
  | schedTick => exact .finish (K.schTick hs)
  | taskWaitTimeout _ => exact .finish (K.taskTimeout hs)
  | taskDispatch _ => exact .finish (K.dispatch hs)
  | taskFinish _ _ => exact .finish (K.taskFinish hs)
  | taskError _ _ _ _ => exact .finish (K.taskError hs)
  | hamperRelease _ => exact .finish (K.hamperRelease hs)
  | failRecordDrain _ => exact .finish (K.failRecordDrain hs)
  | flowReset _ _ => exact .finish (K.regCmd hs)
  | coreResetDone _ => exact .finish (K.coreResetDone hs)
  | ddrReadComplete _ _ => exact K.ends_finishSync (K.netGo (K.ddrReadComplete hs))
  | ddrWriteIssued _ _ => exact K.ends_finishSync (K.netGo (K.ddrWriteIssued hs))
  | ddrRefresh _ _ => exact .finish (K.ddrRefresh hs)
  | ddrMr4Read _ _ => exact .finish (K.ddrMr4 hs)
  | ddrFullTrain _ => exact K.ends_finishSync (K.dataFrame hs)
  | ddrTrainDone _ _ _ => exact .finish (K.netGo (K.trainDone hs))
  | ddrInitGranule _ => exact .finish (K.ddrInitGranule hs)
  | retrainRoundStart _ => exact .finish (K.retrainStart hs)
  | retrainStep _ _ _ => exact .finish (K.retrainStep hs)
  | retrainRoundEnd _ _ => exact .finish (K.retrainRoundEnd hs)
  | freezeRelease _ => exact .finish (K.atReg hs fun _ h => K.netGo (K.grantTags (K.freezeRelease h)))
  | diagReadRaw _ _ => exact .finish (K.regCmd hs)
  | diagWritePattern _ _ => exact .finish (K.regCmd hs)
  | diagDone _ _ => exact .finish (K.diagDone hs)
  | retentionReturn _ _ _ _ => exact K.ends_finishSync (K.retentionReturn hs)
  | cxlEnable _ => exact .finish (K.regCmd hs)
  | cxlDisable _ => exact K.ends_finishSync (K.regCmd hs)
  | cxlReenum _ => exact .finish (K.regCmd hs)
  | cxlSetupResult _ _ _ _ _ _ _ => exact .finish (K.cxlSetup hs)
  | cxlRetryTimer _ => exact .finish (K.cxlRetry hs)
  | cxlWindowEnd _ => exact .finish (K.cxlWindowEnd hs)
  | cxlMemdata _ _ _ => exact .finish (K.netGo (K.grantTags (K.cxlMemData hs)))
  | cxlCmp _ => exact .finish (K.netGo (K.cxlCmp hs))
  | cxlReadTimeout _ => exact K.ends_finishSync (K.netGo (K.cxlReadTimeout hs))
  | cxlRecoveryEnter _ => exact K.ends_finishSync (K.netGo (K.grantTags (K.cxlRecoveryEnter hs)))
  | cxlRecoveryExit _ => exact .finish (K.cxlRecoveryExit hs)
  | cxlLinkDown _ => exact K.ends_finishSync (K.netGo (K.grantTags (K.cxlLinkDown hs)))
  | cxlIdeFail _ => exact K.ends_finishSync (K.netGo (K.grantTags (K.cxlIdeFail hs)))
  | cxlMsix _ _ => exact .finish (K.cxlMsix hs)
  | hello _ => exact K.ends_finishSync (K.receive hs)
  | confirm _ => exact K.ends_finishSync (K.receive hs)
  | ack _ => exact K.ends_finishSync (K.receive hs)
  | keepalive _ => exact K.ends_finishSync (K.receive hs)
  | close _ => exact K.ends_finishSync (K.receive hs)
  | pendingTimeout _ => exact .finish (K.pendingTimeout hs)
  | keepaliveTimer _ => exact .finish (K.keepaliveTimer hs)
  | sessionTimeout _ => exact .finish (K.sessionTimeout hs)
  | resumeTimeout _ => exact .finish (K.resumeTimeout hs)
  | ackTimer _ _ => exact .finish (K.ackTimer hs)
  | retransmitTimer _ _ => exact .finish (K.retransmitTimer hs)
  | hamperFrameSend _ => exact .finish (K.hamperFrame hs)
  | eventFrameSend _ => exact .finish (K.eventFrame hs)
  | probe _ => exact K.ends_finishSync (K.dataFrame hs)
  | csrRead _ => exact K.ends_finishSync (K.dataFrame hs)
  | csrWrite _ => exact K.ends_finishSync (K.dataFrame hs)
  | getCert _ => exact K.ends_finishSync (K.dataFrame hs)
  | warmReset _ => exact K.ends_finishSync (K.dataFrame hs)
  | calFull _ => exact K.ends_finishSync (K.dataFrame hs)
  | fwUpdate _ => exact K.ends_finishSync (K.dataFrame hs)
  | scrubFull _ => exact K.ends_finishSync (K.dataFrame hs)
  | enrol _ => exact K.ends_finishSync (K.dataFrame hs)
  | zeroize _ => exact K.ends_finishSync (K.dataFrame hs)
  | longOpEnd => exact .finish (K.longEnd hs)
  | bulkWrite _ => exact K.ends_finishSync (K.dataFrame hs)
  | bulkRead _ => exact K.ends_finishSync (K.dataFrame hs)
  | arpRequest _ _ _ _ => exact .finish (K.arpRequest hs)
  | neighbourSolicitation _ _ _ _ => exact .finish (K.neighbourSolicitation hs)
  | icmpEcho _ _ _ _ _ _ => exact .finish (K.icmpEcho hs)
  | dhcpRenew _ => exact .finish (K.dhcpRenew hs)
  | dhcpLeaseLost _ => exact .finish (K.dhcpLost hs)
  | ethLinkUp _ => exact .finish (K.ethLinkUp hs)
  | ethLinkDown _ => exact .finish (K.ethLinkDown hs)
  | netApply _ => exact .finish (K.atReg hs fun _ h => K.netCtl h)
  | dhcpLeaseObtained _ _ _ => exact .finish (K.dhcpLease hs)
  | duplicateAddressDetection _ _ _ => exact .finish (K.dadDone hs)
  | pauseFrame _ => exact .finish (K.pauseFrame hs)
  | unknownOpcode _ => exact K.ends_finishSync (K.dataFrame hs)
  | getOwner _ => exact K.ends_finishSync (K.dataFrame hs)
  | getChallenge _ => exact K.ends_finishSync (K.dataFrame hs)
  | loadKey _ => exact K.ends_finishSync (K.dataFrame hs)
  | clearKey _ => exact K.ends_finishSync (K.dataFrame hs)
  | rucksackOpen _ => exact K.ends_finishSync (K.dataFrame hs)
  | rucksackLock => exact K.ends_finishSync (K.netGo (K.rucksackLock hs))
  | rucksackClose _ => exact K.ends_finishSync (K.dataFrame hs)
  | regionZeroed _ => exact .finish (K.regionZeroed hs)
  | getReceipt _ => exact K.ends_finishSync (K.dataFrame hs)
  | receiptQueued _ => exact .finish (K.receiptQueued hs)
  | tamperLog _ => exact K.ends_finishSync (K.dataFrame hs)
  | setPolicy _ => exact K.ends_finishSync (K.dataFrame hs)
  | unsealDevice _ => exact K.ends_finishSync (K.dataFrame hs)
  | release _ => exact K.ends_finishSync (K.dataFrame hs)
  | tamperFire _ _ _ _ => exact K.ends_finishSync (K.netGo (K.tamperFire hs))
  | secChallenge => exact .finish (K.jtagChallenge hs)
  | secUnlock _ => exact K.ends_finishSync (K.netGo (K.jtagUnlock hs))
  | secBoot => exact .finish (K.jtagSelect hs)
  | extest _ _ => exact .finish (K.jtagScan hs)
  | idcode => exact .finish (K.jtagSelect hs)
  | samplePreload _ _ => exact .finish (K.jtagScan hs)
  | clamp => exact .finish (K.jtagSelect hs)
  | highz => exact .finish (K.jtagSelect hs)
  | bypass => exact .finish (K.jtagSelect hs)
  | tempSampleTick _ => exact .finish (K.tempSampled hs)
  | calRun _ => exact .finish (K.atReg hs fun _ h => K.calRun h)
  | calScan => exact .finish (K.calScan hs)
  | calRunDone _ => exact .finish (K.calRunDone hs)
  | calStale _ => exact .finish (K.calStaleMark hs)
  | calT64Write _ _ _ => exact .finish (K.atReg hs fun _ h => K.t64Write h)
  | istCycle => exact .finish (K.istCycle hs)
  | istSliceDone _ => exact .finish (K.istSliceDone hs)
  | cryptoKatRetry _ => exact K.ends_finishSync (K.katDone hs)
  | scrubRead _ _ _ => exact K.ends_finishSync (K.scrubRead hs)
  | smeCommitPoint _ => exact .finish (K.smeCommitPoint hs)
  | smeRoutineEnd => exact K.ends_finishSync (K.netGo (K.smeRoutineEnd hs))
  | smeFault _ => exact .finish (K.smeFaultLoad hs)
  | eventAccept _ _ => exact .finish (K.eventAccept hs)
  | eventLatchClear _ _ => exact .finish (K.atReg hs fun _ h => K.latchClear h)
  | evtOutPulseEnd _ => exact .finish (K.outPulseEnd hs)
  | inputEdge _ _ _ _ => exact .finish (K.inputEdge hs)
  | powerOnReset _ _ => exact .finish (K.powerOnReset hs)
  | powerFail => exact .finish (K.powerFail hs)
  | rstNReset _ => exact .finish (K.rstNReset hs)
  | rstNRelease => exact .finish (K.rstNRelease hs)
  | watchdogService => exact .finish (K.wdtService hs)
  | watchdogHalf => exact .finish (K.wdtHalf hs)
  | watchdogReset => exact .finish (K.wdtReset hs)
  | tamperReset => exact .finish (K.tamperReset hs)
  | quadrantReset _ => exact K.ends_finishSync (K.atReg hs fun _ h => K.clockGo (K.quadrantReset h))
  | quadrantResetDone _ => exact .finish (K.quadrantResetDone hs)
  | bootVerified _ _ _ => exact .finish (K.bootVerified hs)
  | deviceReady _ => exact .finish (K.deviceReady hs)
  | domainSwitchDone _ => exact K.ends_finishSync (K.clockGo (K.domainSwitchDone hs))
  | domainFault _ => exact K.ends_finishSync (K.clockGo (K.domainFault hs))
  | pebReady _ => exact .finish (K.pebReady hs)
  | peReadyHigh _ => exact .finish (K.peReadyHigh hs)
  | pebTxnGo _ _ => exact .finish (K.atReg hs fun _ h => K.pebTxn h)
  | pebTxnStart _ => exact .finish (K.pebStart hs)
  | pebTxnDone _ _ => exact .finish (K.pebEnd hs)
  | pebAbort _ _ => exact .finish (K.atReg hs fun _ h => K.pebAbort h)
  | closedRoundExpiry _ _ => exact .finish (K.slkClosedExpiry hs)

end

/-- Settles O3: on an empty queue only the time moves; the command at the front keeps the form, as every operation does. -/
theorem stepKeepsCanonicalForm : Obligations.StepKeepsCanonicalForm := by
  intro s t hcan hstep
  have K := keepsMem_canonical
  rw [step] at hstep
  split at hstep
  case h_1 =>
    obtain rfl : s.advance tuPerNs = t := by simpa using hstep
    exact K.advance hcan
  case h_2 c rest _ =>
    exact K.exec_ends (s := { s with pending := rest }) hcan c t hstep

/-- Settles O2: the queue is one of the things that every operation keeps. -/
theorem commandsLeaveTheQueue : Obligations.CommandsLeaveTheQueue :=
  fun c s t hexec => (keepsMem_pending s.pending).exec_ends rfl c t hexec

/-! ## A stop of an engine stages what waits in X6 (R243, R258) -/

/-- Engine 0 runs on TIM results, and its port is in a vector in which it captures. -/
def timCapture : State :=
  ((((State.reset.wn PWR_STATE_LO (2 ^ 6)).put (ACQ_STATUS_state 0) 1).put (ACQ_SRC_source 0) 1).put (ACQ_STG_CFG_size 0) 1).put
    (PRT_SEQ_STATUS_state 0) 2

/-- The same with a TIM result of value 1 in X6. -/
def timCaptured : State :=
  (timCapture.setAcq 0 { x6 := [(0, 1)] }).setSeq 0 { e := { (timCapture.seq[(0 : Fin 12)]).e with capture := true } }

set_option maxRecDepth 4000 in
/-- The result in X6 reaches the engine before its run ends, so its sample is written to the share in SRAM. -/
theorem acqStop_stages_x6 : ∃ t, exec (.acqStop 0 0) timCaptured = .next t ∧ t.byte 0x104000000 = 1 := ⟨_, rfl, by decide⟩

/-- Refutes O6: ACQ_STOP, which `storesNothing` names, takes the TIM results that wait in X6 (R243), and the engine stages their samples
in SRAM (R258): byte 0x104000000 of `timCaptured` goes from 0 to 1. -/
theorem not_memoryIsLeftAlone : ¬ Obligations.MemoryIsLeftAlone := by
  intro h
  obtain ⟨t, hexec, hbyte⟩ := acqStop_stages_x6
  have hkept : t.byte 0x104000000 = timCaptured.byte 0x104000000 := h _ _ _ rfl hexec _
  rw [hbyte] at hkept
  exact absurd hkept (by decide)

end Sys2Proof.Machine
end

section
/-! PROOFS. A step on the queue, and the state after reset (R14). -/

namespace Sys2Proof.Machine

/-! ## The two parts of the canonical form -/

section
variable {s : State} (h : s.canonical = true)
include h

theorem State.mem_wf_of_canonical : Memory.wf s.mem = true := by
  simp only [State.canonical, Bool.and_eq_true] at h
  exact h.1

theorem State.csr_wf_of_canonical : cellsWf regReset s.csr = true := by
  simp only [State.canonical, Bool.and_eq_true] at h
  exact h.2

end

/-! ## A step -/

theorem step_of_pending_cons {s : State} {c : Instr} {l : List Instr} (h : s.pending = c :: l) :
    step s = exec c { s with pending := l } := by
  simp [step, h]

theorem step_of_pending_nil {s : State} (h : s.pending = []) : step s = .next (s.advance tuPerNs) := by
  simp [step, h]

/-- Settles O1: one TB cycle is 8192000 units of time. -/
theorem stepRunsTheQueue : Obligations.StepRunsTheQueue := by
  refine ⟨fun s c l h => step_of_pending_cons h, fun s h => ?_⟩
  rw [step_of_pending_nil h, State.advance, tuPerNs]

/-! ## Reset -/

theorem regReset_of_regAt {a u o : Nat} {b : Blk} {r : Reg} (h : regAt a = some (b, u, o, r)) :
    regReset a = BitVec.ofNat 32 (resetOf b u o r) := by
  simp [regReset, h]

theorem regReset_of_regAt_eq_none {a : Nat} (h : regAt a = none) : regReset a = 0 := by
  simp [regReset, h]

/-- No register and no byte is listed after reset, so each reads as its default. -/
theorem State.rd_reset (a : Nat) : State.reset.rd a = regReset a := rfl

theorem State.byte_reset (a : Nat) : State.reset.byte a = 0 := rfl

/-- Settles O4: empty stores are in canonical form, and the time base does not run after reset. -/
theorem resetIsCanonical : Obligations.ResetIsCanonical :=
  ⟨rfl, rfl, step_of_pending_nil rfl⟩

/-- Settles O5: what is not listed reads as its default, and the default of a register is its Reset column. -/
theorem resetReadsResetColumn : Obligations.ResetReadsResetColumn := by
  refine fun a => ⟨State.rd_reset a, State.byte_reset a, fun hnone => ?_, fun b u o r hreg => ?_⟩
  · rw [State.rd_reset, regReset_of_regAt_eq_none hnone]
  · rw [State.rd_reset, regReset_of_regAt hreg]

end Sys2Proof.Machine
end

section
/-! PROOFS. Reads and writes of the CSR space that meet no address error (R43, R52, R53). -/

namespace Sys2Proof.Machine

/-! ## Registers whose write lets something go on -/

/-- The registers of `isFreezeCtl` and `isClockCtl`. -/
def goRegisters : List Nat :=
  [CXH_CTL, GLB_QRESET, PWR_DOMAIN_HI] ++ (List.range 4).map DMC_FREEZE_CTL ++ (List.range 12).map DPL_CTL

theorem mem_goRegisters_of_isFreezeCtl {a : Nat} (h : isFreezeCtl a = true) : a ∈ goRegisters := by
  simp only [isFreezeCtl, Bool.or_eq_true, decide_eq_true_eq, List.any_eq_true, List.mem_range] at h
  simp only [goRegisters, List.mem_append, List.mem_map, List.mem_range]
  obtain rfl | ⟨c, hc, rfl⟩ := h
  · simp
  · exact .inl (.inr ⟨c, hc, rfl⟩)

theorem mem_goRegisters_of_isClockCtl {a : Nat} (h : isClockCtl a = true) : a ∈ goRegisters := by
  simp only [isClockCtl, Bool.or_eq_true, decide_eq_true_eq, List.any_eq_true, List.mem_range] at h
  simp only [goRegisters, List.mem_append, List.mem_map, List.mem_range]
  obtain (rfl | rfl) | ⟨d, hd, rfl⟩ := h
  · simp
  · simp
  · exact .inr ⟨d, hd, rfl⟩

/-- None of them is a word of a 64-bit value that the host writes. -/
theorem pairAt_ne_of_mem_goRegisters {a : Nat} (h : a ∈ goRegisters) : ∀ x ∈ regAt a, pairAt x.1 x.2.2.1 ≠ some true :=
  (by decide : ∀ a ∈ goRegisters, ∀ x ∈ regAt a, pairAt x.1 x.2.2.1 ≠ some true) a h

theorem pairHigh_of_mem_goRegisters {a : Nat} (h : a ∈ goRegisters) : ∀ x ∈ regAt a, pairHigh x.1 x.2.2.1 = false :=
  (by decide : ∀ a ∈ goRegisters, ∀ x ∈ regAt a, pairHigh x.1 x.2.2.1 = false) a h

section
variable {s : State} {a u o : Nat} {b : Blk} {r : Reg} {v : Word}

/-! ## Writes -/

/-- A write that nothing holds back is made (R43, R215). -/
theorem State.regWrite_of_goes (hw : s.waits = []) (he : s.csrError a true = false) (hc : s.writeWaits a v = false)
    (hr : regAt a = some (b, u, o, r)) : s.regWrite a v = s.csrPut b u o a r v := by
  simp [State.regWrite, State.csrWrite, hw, he, hc, hr]

theorem State.regCmd_of_plain (he : s.csrError a true = false) (hf : isFreezeCtl a = false) (hk : isClockCtl a = false) :
    s.regCmd a v = s.regWrite a v := by
  simp [State.regCmd, he, hf, hk]

/-- A write of half of a 64-bit value lets nothing else go on, so it is all that the command does. -/
theorem State.regCmd_of_pair (hw : s.waits = []) (he : s.csrError a true = false) (hc : s.writeWaits a v = false)
    (hr : regAt a = some (b, u, o, r)) (hp : pairAt b o = some true ∨ pairHigh b o = true) :
    s.regCmd a v = s.csrPut b u o a r v := by
  have hgo : a ∉ goRegisters := fun hmem => by
    rcases hp with hp | hp
    · exact pairAt_ne_of_mem_goRegisters hmem _ hr hp
    · exact Bool.false_ne_true ((pairHigh_of_mem_goRegisters hmem _ hr).symm.trans hp)
  rw [State.regCmd_of_plain he (Bool.eq_false_iff.mpr fun h => hgo (mem_goRegisters_of_isFreezeCtl h))
    (Bool.eq_false_iff.mpr fun h => hgo (mem_goRegisters_of_isClockCtl h)), State.regWrite_of_goes hw he hc hr]

theorem State.csrPut_low (hp : pairAt b o = some true) (hh : s.pairHeld b u o = false) :
    s.csrPut b u o a r v = s.stageLow a v := by
  simp [State.csrPut, hp, hh]

theorem State.csrPut_high (hp : pairAt b o ≠ some true) (hi : pairHigh b o = true) (hh : s.pairHeld b u o = false) :
    s.csrPut b u o a r v = s.pairWrite a r v := by
  simp [State.csrPut, hp, hi, hh]

/-! ## Reads -/

/-- SCH_ALLOC, whose read has an effect, is no half of a 64-bit value, and no word before it is the low word of one. -/
theorem ne_schAlloc_of_pairAt {w : Bool} (hr : regAt a = some (b, u, o, r)) (hp : pairAt b o = some w) :
    a ≠ SCH_ALLOC ∧ a + 4 ≠ SCH_ALLOC := by
  have hnone : ∀ k ∈ [SCH_ALLOC, SCH_ALLOC - 4], ∀ x ∈ regAt k, pairAt x.1 x.2.2.1 = none := by decide
  constructor
  · rintro rfl
    exact Option.some_ne_none _ (hp.symm.trans (hnone _ (by simp) _ hr))
  · intro h
    obtain rfl : a = SCH_ALLOC - 4 := by omega
    exact Option.some_ne_none _ (hp.symm.trans (hnone _ (by simp) _ hr))

theorem exists_regAt_of_csrError_eq_false {w : Bool} (h : s.csrError a w = false) : ∃ b u o r, regAt a = some (b, u, o, r) := by
  simp only [State.csrError, Bool.or_eq_false_iff] at h
  obtain ⟨⟨b, u, o, r⟩, hr⟩ := Option.ne_none_iff_exists'.mp (Option.isNone_eq_false_iff.mp h.1.1.2 |> Option.isSome_iff_ne_none.mp)
  exact ⟨b, u, o, r, hr⟩

/-- The first read of a low word: what it shows, and the high word latched for the master (R53). -/
theorem State.csrRead_low {m : Nat} {w : Bool} (he : s.csrError a false = false) (hr : regAt a = some (b, u, o, r))
    (hp : pairAt b o = some w) (hs : ∀ v, (m, a, v) ∉ s.shadow) :
    s.csrRead m a = (some (BitVec.ofNat 32 (s.csrView b u o a)), s.latchShadow m a (s.csrView b u (o + 4) (a + 4))
      (if a = TMB_NOW_LO then some (s.csrView b u (o + 8) (a + 8)) else none)) := by
  have hfind : (s.shadow.find? fun x => decide (x.1 = m) && decide (x.2.1 = a)) = none := by
    rw [List.find?_eq_none]
    rintro ⟨m', a', v⟩ hmem hx
    obtain ⟨rfl, rfl⟩ : m' = m ∧ a' = a := by simpa using hx
    exact hs v hmem
  simp [State.csrRead, he, hr, (ne_schAlloc_of_pairAt hr hp).1, hfind, hp]

theorem State.exists_latchShadow_shadow {m hi : Nat} {ep : Option Nat} :
    ∃ l, (s.latchShadow m a hi ep).shadow = (m, a + 4, BitVec.ofNat 32 hi) :: l := ⟨_, rfl⟩

/-- A read of a word that the master has latched gives the word latched (R53). -/
theorem State.csrRead_latched {m : Nat} {x : Word} (he : s.csrError a false = false)
    (ha : a ≠ SCH_ALLOC) (hs : ∃ l, s.shadow = (m, a, x) :: l) : (s.csrRead m a).1 = some x := by
  obtain ⟨l, hs⟩ := hs
  obtain ⟨b, u, o, r, hr⟩ := exists_regAt_of_csrError_eq_false he
  simp [State.csrRead, he, hr, ha, hs]

end

/-- Settles O8: the read of the low word latches, and a write of either word of a pair is all that its command does before the two shared
checks. -/
theorem registerPairs : Obligations.RegisterPairs := by
  constructor
  · intro s t m a b u o r w he he' hr hp hs ht
    have hread := State.csrRead_low he hr hp hs
    refine ⟨by rw [hread], State.csrRead_latched he' (ne_schAlloc_of_pairAt hr hp).2 ?_⟩
    rw [ht, hread]
    exact State.exists_latchShadow_shadow
  · intro s a v b u o r hw he hc hr
    refine ⟨fun hp hh => ?_, fun hp hi hh _ => ?_⟩
    · exact congrArg finishSync ((State.regCmd_of_pair hw he hc hr (.inl hp)).trans (State.csrPut_low hp hh))
    · exact congrArg finishSync ((State.regCmd_of_pair hw he hc hr (.inr hi)).trans (State.csrPut_high hp hi hh))

end Sys2Proof.Machine
end

section
/-! PROOFS. Lines of 64 bytes, and writes of their enabled bytes (R26, R360). -/

namespace Sys2Proof.Machine

/-! ## Little-endian bytes -/

theorem length_leBytes (x n : Nat) : (leBytes x n).length = n := by
  induction n generalizing x with
  | zero => rfl
  | succ n ih => rw [leBytes, List.length_cons, ih]

theorem getD_leBytes (x : Nat) {n i : Nat} (h : i < n) : (leBytes x n).getD i 0 = BitVec.ofNat 8 (x / 256 ^ i) := by
  induction n generalizing x i with
  | zero => omega
  | succ n ih =>
    cases i with
    | zero => simp [leBytes]
    | succ i =>
      rw [leBytes, List.getD_cons_succ, ih _ (by omega), Nat.div_div_eq_div_mul, Nat.pow_succ, Nat.mul_comm]

theorem ofLe_lt (l : List Byte) : ofLe l < 256 ^ l.length := by
  induction l with
  | nil => simp [ofLe]
  | cons b l ih =>
    have hb : b.toNat < 256 := b.isLt
    rw [ofLe, List.length_cons, Nat.pow_succ]
    omega

theorem leBytes_ofLe (l : List Byte) : leBytes (ofLe l) l.length = l := by
  induction l with
  | nil => rfl
  | cons b l ih =>
    have hb : b.toNat < 256 := b.isLt
    have hlow : BitVec.ofNat 8 (b.toNat + 256 * ofLe l) = b := BitVec.eq_of_toNat_eq (by
      rw [BitVec.toNat_ofNat]
      omega)
    have hhigh : (b.toNat + 256 * ofLe l) / 256 = ofLe l := by omega
    rw [ofLe, List.length_cons, leBytes, hlow, hhigh, ih]

/-- Byte `i` of the number that bytes spell. -/
theorem ofNat_ofLe_div (l : List Byte) {i : Nat} (h : i < l.length) : BitVec.ofNat 8 (ofLe l / 256 ^ i) = l.getD i 0 := by
  rw [← getD_leBytes _ h, leBytes_ofLe]

theorem ofLe_concat (l : List Byte) (b : Byte) : ofLe (l ++ [b]) = ofLe l + 256 ^ l.length * b.toNat := by
  induction l with
  | nil => simp [ofLe]
  | cons c l ih =>
    rw [List.cons_append, ofLe, ih, ofLe, List.length_cons, Nat.pow_succ]
    rw [Nat.mul_add, Nat.mul_left_comm, Nat.mul_assoc, ← Nat.add_assoc]

/-- A number given as a sum of its bytes in their places. -/
theorem sum_bytes_eq_ofLe (f : Nat → Byte) (n : Nat) :
    ((List.range n).map fun i => 2 ^ (8 * i) * (f i).toNat).sum = ofLe ((List.range n).map f) := by
  induction n with
  | zero => rfl
  | succ n ih =>
    rw [List.range_succ, List.map_append, List.sum_append, ih, List.map_append, List.map_singleton, List.map_singleton, ofLe_concat,
      List.length_map, List.length_range, List.sum_singleton, Nat.pow_mul]

/-! ## Lines -/

@[simp] theorem lineOf_lineOf (a : Nat) : lineOf (lineOf a) = lineOf a := by
  simp [lineOf]

theorem State.length_bytes (s : State) (a n : Nat) : (s.bytes a n).length = n := by
  induction n generalizing a with
  | zero => rfl
  | succ n ih => rw [State.bytes, List.length_cons, ih]

theorem State.getD_bytes (s : State) (a : Nat) {n i : Nat} (h : i < n) : (s.bytes a n).getD i 0 = s.byte (a + i) := by
  induction n generalizing a i with
  | zero => omega
  | succ n ih =>
    cases i with
    | zero => rfl
    | succ i => rw [State.bytes, List.getD_cons_succ, ih _ (by omega), Nat.add_assoc, Nat.add_comm 1]

/-- Byte `i` of a word of 512 bits. -/
def lineByte (v : BitVec 512) (i : Nat) : Byte := v.extractLsb' (8 * i) 8

theorem lineByte_eq_ofNat (v : BitVec 512) (i : Nat) : lineByte v i = BitVec.ofNat 8 (v.toNat / 256 ^ i) := by
  apply BitVec.eq_of_toNat_eq
  rw [lineByte, BitVec.extractLsb'_toNat, BitVec.toNat_ofNat, Nat.shiftRight_eq_div_pow, Nat.pow_mul]

/-- A word as wide as its bytes holds the number that they spell. -/
theorem toNat_ofNat_ofLe {l : List Byte} {w : Nat} (h : 8 * l.length = w) : (BitVec.ofNat w (ofLe l)).toNat = ofLe l := by
  subst h
  rw [BitVec.toNat_ofNat, Nat.mod_eq_of_lt]
  rw [Nat.pow_mul]
  exact ofLe_lt l

theorem lineByte_ofNat_ofLe {l : List Byte} (hl : l.length = 64) {i : Nat} (h : i < 64) :
    lineByte (BitVec.ofNat 512 (ofLe l)) i = l.getD i 0 := by
  rw [lineByte_eq_ofNat, toNat_ofNat_ofLe (by omega), ofNat_ofLe_div l (by omega)]

theorem State.lineByte_lineData (s : State) (a : Nat) {i : Nat} (h : i < 64) :
    lineByte (s.lineData a) i = s.byte (lineOf a + i) := by
  rw [State.lineData, State.le_eq, lineByte_ofNat_ofLe (s.length_bytes _ _) h, s.getD_bytes _ h]

/-- An enabled byte of a merged line is the new one, another the old one (R360). -/
theorem lineByte_mergeLine (old new : BitVec 512) (en : BitVec 64) {i : Nat} (h : i < 64) :
    lineByte (mergeLine old new en) i = if en.getLsbD i then lineByte new i else lineByte old i := by
  have hbyte (k : Nat) : bitsOf (if en.getLsbD k then new.toNat else old.toNat) (8 * k) 8 =
      (if en.getLsbD k then lineByte new k else lineByte old k).toNat := by
    split <;> simp [bitsOf, lineByte]
  simp only [mergeLine, hbyte, sum_bytes_eq_ofLe]
  rw [lineByte_ofNat_ofLe (by simp) h, List.getD_eq_getElem?_getD, List.getElem?_map, List.getElem?_range h]
  rfl

section
variable {s : State} {a : Nat} (h : Memory.wf s.mem = true)
include h

theorem State.byte_setLine (v : BitVec 512) {i : Nat} (hi : i < 64) : (s.setLine a v).byte (lineOf a + i) = lineByte v i := by
  rw [State.setLine, State.byte_setBytes h (by rwa [length_leBytes]), getD_leBytes _ hi, lineByte_eq_ofNat]

/-- A write of a line stores its enabled bytes. -/
theorem State.byte_setLine_mergeLine (v : BitVec 512) (en : BitVec 64) {i : Nat} (hi : i < 64) :
    (s.setLine a (mergeLine (s.lineData a) v en)).byte (lineOf a + i) =
      if en.getLsbD i then v.extractLsb' (8 * i) 8 else s.byte (lineOf a + i) := by
  rw [State.byte_setLine h _ hi, lineByte_mergeLine _ _ _ hi, State.lineByte_lineData _ _ hi, lineByte]

/-- A write of a line stores nothing beside it. -/
theorem State.byte_setLine_of_out (v : BitVec 512) {x : Nat} (hx : x < lineOf a ∨ lineOf a + 64 ≤ x) :
    (s.setLine a v).byte x = s.byte x :=
  State.byte_setBytes_of_out h (by rwa [length_leBytes])

theorem State.setLine_wf (v : BitVec 512) : Memory.wf (s.setLine a v).mem = true := State.setBytes_wf h

end

theorem State.setLine_csr (s : State) (a : Nat) (v : BitVec 512) : (s.setLine a v).csr = s.csr := State.setBytes_csr

end Sys2Proof.Machine
end

section
/-! PROOFS. The fabric: what its operations leave alone, the arbiter's choice where one request waits, and the requests and responses of
FABRIC_REQUEST and FABRIC_RESPONSE (R26 to R31, R35, R360). -/

namespace Sys2Proof.Machine

/-! ## Operations of the fabric change nothing else -/

/-- From `s` to `t` only the hops' credits and the transactions that hold a tag change. -/
def OnFabric (s t : State) : Prop := ∃ h f, t = { s with hop := h, fab := f }

section
variable {s t u : State}

theorem OnFabric.refl (s : State) : OnFabric s s := ⟨s.hop, s.fab, rfl⟩

theorem OnFabric.trans (hst : OnFabric s t) (htu : OnFabric t u) : OnFabric s u := by
  obtain ⟨h, f, rfl⟩ := hst
  obtain ⟨h', f', rfl⟩ := htu
  exact ⟨h', f', rfl⟩

theorem OnFabric.setFab (s : State) (f : List FabTx) : OnFabric s { s with fab := f } := ⟨s.hop, f, rfl⟩

theorem OnFabric.takeHop (s : State) (h : Fin 7) (rsp : Bool) : OnFabric s (s.takeHop h rsp) := ⟨_, s.fab, rfl⟩

theorem OnFabric.giveHop (s : State) (h : Option (Fin 7)) (rsp : Bool) : OnFabric s (s.giveHop h rsp) := by
  cases h with
  | none => exact .refl s
  | some h => exact ⟨_, s.fab, rfl⟩

theorem OnFabric.passRequest (s : State) (prev : Option (Fin 7)) (l : List (Fin 7)) : OnFabric s (s.passRequest prev l) := by
  induction l generalizing s prev with
  | nil => exact .giveHop s prev false
  | cons h l ih => exact ((OnFabric.takeHop s h false).trans (.giveHop _ prev false)).trans (ih _ _)

theorem OnFabric.passResponse (s : State) (path : List (Fin 7)) (fuel k : Nat) : OnFabric s (s.passResponse path fuel k).1 := by
  induction fuel generalizing s k with
  | zero => exact .refl s
  | succ fuel ih =>
    rw [State.passResponse]
    split
    · exact .refl s
    · split
      · exact ((OnFabric.takeHop s _ true).trans (.giveHop _ _ true)).trans (ih _ _)
      · exact .refl s

theorem OnFabric.passAll (s : State) (l : List FabTx) : OnFabric s (s.passAll l).1 := by
  induction l generalizing s with
  | nil => exact .refl s
  | cons t l ih =>
    simp only [State.passAll]
    split
    · exact (OnFabric.passResponse s _ _ _).trans (ih _)
    · exact ih s

theorem OnFabric.forward (s : State) : OnFabric s s.forward := (OnFabric.passAll s s.fab).trans (.setFab _ _)

theorem OnFabric.putTx (s : State) (t : FabTx) : OnFabric s (s.putTx t) := (OnFabric.setFab s _).trans (.forward _)

theorem OnFabric.issueTx (s : State) (t : FabTx) : OnFabric s (s.issueTx t) := (OnFabric.passRequest s _ _).trans (.putTx _ _)

theorem OnFabric.updateTx (s : State) (t : FabTx) (f : FabTx → FabTx) : OnFabric s (s.updateTx t f) :=
  (OnFabric.setFab s _).trans (.forward _)

theorem OnFabric.failTxs (s : State) (p : FabTx → Bool) : OnFabric s (s.failTxs p) := (OnFabric.setFab s _).trans (.forward _)

section
variable (h : OnFabric s t)
include h

theorem OnFabric.csr : t.csr = s.csr := by
  obtain ⟨h, f, rfl⟩ := h
  rfl

theorem OnFabric.mem : t.mem = s.mem := by
  obtain ⟨h, f, rfl⟩ := h
  rfl

theorem OnFabric.byte (a : Nat) : t.byte a = s.byte a := by
  rw [State.byte, h.mem, State.byte]

end
end

/-! ## The arbiters where one request waits (R35) -/

theorem rrFirst_singleton (last x : Nat) : rrFirst last [x] = some x := by
  by_cases h : last < x <;> simp [rrFirst, h]

theorem rrFirst_nil (last : Nat) : rrFirst last [] = none := rfl

theorem filterMap_range_single {α : Type} {n k : Nat} (x : Option α) (h : k < n) :
    (List.range n).filterMap (fun r => if r = k then x else none) = x.toList := by
  induction n with
  | zero => omega
  | succ n ih =>
    rw [List.range_succ, List.filterMap_append]
    by_cases hk : k = n
    · subst hk
      have hnone : (List.range k).filterMap (fun r => if r = k then x else none) = [] := by
        rw [List.filterMap_eq_nil_iff]
        intro r hr
        exact if_neg (Nat.ne_of_lt (List.mem_range.mp hr))
      rw [hnone]
      cases x <;> simp
    · simp [ih (by omega), Ne.symm hk]

section
variable {s : State} {w : FabWait} {sh : Bool}

/-- Where one request waits, it is the only one that can be granted: with the tag it can take, if there is one. -/
theorem State.canGrant_single (hw : s.fabWait = [w]) (hr : w.req < 31) :
    s.canGrant w.pool = ((s.freeTag w.pool w.req).map fun sh => (w.req, sh)).toList := by
  have hone : s.canGrant w.pool = (List.range 31).filterMap fun r =>
      if r = w.req then (s.freeTag w.pool w.req).map fun sh => (w.req, sh) else none := by
    rw [State.canGrant, hw]
    congr 1
    funext r
    by_cases h : r = w.req
    · subst h
      simp
    · simp [h, Ne.symm h]
  rw [hone, filterMap_range_single _ hr]

theorem State.outPick_singleton (s : State) (pool r : Nat) : s.outPick pool [r] = some r := by
  by_cases hreal : r < 20
  · by_cases hpanic : s.panicOf r = true <;> simp [State.outPick, hreal, hpanic, rrFirst_singleton]
  · simp [State.outPick, hreal, rrFirst_singleton]

theorem State.outPick_nil (s : State) (pool : Nat) : s.outPick pool [] = none := by
  simp [State.outPick, rrFirst_nil]

/-- The only request that waits is granted the tag that it can take. -/
theorem State.nextGrant_single (hw : s.fabWait = [w]) (hr : w.req < 31) (hf : s.freeTag w.pool w.req = some sh) :
    s.nextGrant w.pool = some (w.req, sh) := by
  have hcan : s.canGrant w.pool = [(w.req, sh)] := by rw [State.canGrant_single hw hr, hf]; rfl
  cases sh <;> simp [State.nextGrant, hcan, State.outPick_singleton, State.outPick_nil, rrFirst_singleton]

theorem State.nextGrant_none (hw : s.fabWait = [w]) (hr : w.req < 31) (hf : s.freeTag w.pool w.req = none) :
    s.nextGrant w.pool = none := by
  have hcan : s.canGrant w.pool = [] := by rw [State.canGrant_single hw hr, hf]; rfl
  simp [State.nextGrant, hcan, State.outPick_nil, rrFirst_nil]

theorem State.grantPool_single_none (hw : s.fabWait = [w]) (hr : w.req < 31) (hf : s.freeTag w.pool w.req = none) :
    State.grantPool w.pool 1 s = s := by
  simp [State.grantPool, State.nextGrant_none hw hr hf]

theorem State.grantPool_single (hw : s.fabWait = [w]) (hr : w.req < 31) (hf : s.freeTag w.pool w.req = some sh) :
    State.grantPool w.pool 1 s = (State.granted { s with fabWait := [] } w.pool w.req sh).issueWait w sh := by
  simp [State.grantPool, State.nextGrant_single hw hr hf, hw]

end

/-! ## The issue of a request (R29 to R31) -/

section
variable {s : State} {w : FabWait} {sh : Bool} (hserve : s.fabricServes w.addr = true)
include hserve

theorem State.issueWait_store (hp : w.pool ≠ 5) :
    s.issueWait w sh = s.issueTx { req := w.req, pool := w.pool, line := lineOf w.addr, write := w.write, shared := sh, dest := .other
                                   answer := none, at_ := s.tmb.clk, enables := w.enables } := by
  simp [State.issueWait, hserve, hp]

theorem State.issueWait_sramRead (hp : w.pool = 5) (hw : w.write = none) :
    s.issueWait w sh = s.issueTx { req := w.req, pool := w.pool, line := lineOf w.addr, write := w.write, shared := sh, dest := .other
                                   answer := some (s.lineData (lineOf w.addr), true), at_ := s.tmb.clk, enables := w.enables } := by
  simp [State.issueWait, hserve, hp, hw]

/-- SRAM performs a write when it is issued. -/
theorem State.issueWait_sramWrite {v : BitVec 512} (hp : w.pool = 5) (hw : w.write = some v) :
    OnFabric (s.setLine (lineOf w.addr) (mergeLine (s.lineData (lineOf w.addr)) v w.enables)) (s.issueWait w sh) := by
  simp only [State.issueWait, hserve, hp, hw]
  exact .issueTx _ _

end

/-! ## A request with nothing waiting before it -/

section
variable {s : State} {req : Fin 31} {a : Nat} {w : Option (BitVec 512)} {en : BitVec 64} {sh : Bool}

theorem poolLists_of_freeTag {pool r : Nat} (h : s.freeTag pool r = some sh) : poolLists pool r = true := by
  cases hp : poolLists pool r with
  | true => rfl
  | false => simp [State.freeTag, hp] at h

/-- The free tags are those that no transaction on the fabric holds. -/
theorem State.freeTag_congr {t : State} (h : t.fab = s.fab) (pool r : Nat) : t.freeTag pool r = s.freeTag pool r := by
  simp only [State.freeTag, State.reservedUsed, State.sharedUsed, h]
  rfl

/-- With a free tag the request is issued under it. -/
theorem State.fabricRequest_granted (hw : s.fabWait = []) (hf : s.freeTag (poolOf a) req = some sh) :
    s.fabricRequest req a w en = (State.granted { s with fabWait := [] } (poolOf a) req sh).issueWait
      { req := req, pool := poolOf a, addr := a, write := w, enables := en } sh := by
  have hgrant := State.grantPool_single (s := { s with fabWait := [⟨req, poolOf a, a, w, en⟩] }) rfl req.isLt
    ((State.freeTag_congr rfl _ _).trans hf)
  simpa [State.fabricRequest, poolLists_of_freeTag hf, hw] using hgrant

/-- Without one it waits. -/
theorem State.fabricRequest_waits (hw : s.fabWait = []) (hl : poolLists (poolOf a) req = true)
    (hf : s.freeTag (poolOf a) req = none) :
    s.fabricRequest req a w en =
      { s with fabWait := [{ req := req, pool := poolOf a, addr := a, write := w, enables := en }] } := by
  have hgrant := State.grantPool_single_none (s := { s with fabWait := [⟨req, poolOf a, a, w, en⟩] }) rfl req.isLt
    ((State.freeTag_congr rfl _ _).trans hf)
  simpa [State.fabricRequest, hl, hw] using hgrant

end

theorem exec_fabricRequest (s : State) (req : Fin 31) (a : Nat) (w : Option (BitVec 512)) (en : BitVec 64) :
    exec (.fabricRequest req a w en) s = .next (s.fabricRequest req a w en) := rfl

/-- What a target answers depends on neither the arbiters nor on what waits. -/
@[simp] theorem State.fabricServes_granted (s : State) (pool req a : Nat) (sh : Bool) :
    (State.granted { s with fabWait := [] } pool req sh).fabricServes a = s.fabricServes a := rfl

theorem State.lineData_congr {s t : State} (h : t.mem = s.mem) (a : Nat) : t.lineData a = s.lineData a := by
  simp only [State.lineData, State.le, State.byte, h]

theorem State.lineData_granted (s : State) (pool req a : Nat) (sh : Bool) :
    (State.granted { s with fabWait := [] } pool req sh).lineData a = s.lineData a :=
  State.lineData_congr (s := s) (t := State.granted { s with fabWait := [] } pool req sh) (by rw [State.granted]) a

@[simp] theorem State.tagNo_granted (s : State) (pool req pool' : Nat) (sh : Bool) :
    (State.granted { s with fabWait := [] } pool req sh).tagNo pool' = s.tagNo pool' := rfl

@[simp] theorem State.granted_tmb (s : State) (pool req : Nat) (sh : Bool) :
    (State.granted { s with fabWait := [] } pool req sh).tmb = s.tmb := rfl

/-- A write of SRAM merges its line; beyond that only the fabric and its arbiters change. -/
theorem State.fabricRequest_sramWrite {s : State} {req : Fin 31} {a : Nat} {sh : Bool} (v : BitVec 512) (en : BitVec 64)
    (hw : s.fabWait = []) (hf : s.freeTag (poolOf a) req = some sh) (hserve : s.fabricServes a = true) (hp : poolOf a = 5) :
    ∃ u : State, u.csr = s.csr ∧ u.mem = s.mem ∧
      OnFabric (u.setLine (lineOf a) (mergeLine (u.lineData (lineOf a)) v en)) (s.fabricRequest req a (some v) en) := by
  have hissued := State.issueWait_sramWrite (sh := sh) (w := { req := req, pool := poolOf a, addr := a, write := some v, enables := en })
    ((State.fabricServes_granted s (poolOf a) req a sh).trans hserve) hp rfl
  rw [← State.fabricRequest_granted hw hf] at hissued
  exact ⟨State.granted { s with fabWait := [] } (poolOf a) req sh, rfl, rfl, hissued⟩

/-- Settles O11: where one request waits the arbiters grant that one, and what is issued changes nothing but the fabric and, for a write
of SRAM, its line. -/
theorem fabricTransactions : Obligations.FabricTransactions := by
  refine ⟨⟨?granted, ?waits, ?response⟩, ?sramWrite⟩
  case granted =>
    rintro s u req a w en sh t hw hf hserve rfl rfl
    have hserved := (State.fabricServes_granted s (poolOf a) req a sh).trans hserve
    let x : FabWait := { req := req, pool := poolOf a, addr := a, write := w, enables := en }
    refine ⟨fun hp => ?_, fun hp hread => ?_⟩
    · rw [exec_fabricRequest, State.fabricRequest_granted hw hf, State.issueWait_store (w := x) hserved hp, State.issueTx, State.putTx,
        State.tagNo_granted, State.granted_tmb]
    · rw [exec_fabricRequest, State.fabricRequest_granted hw hf, State.issueWait_sramRead (w := x) hserved hp hread, State.issueTx, State.putTx,
        State.tagNo_granted, State.granted_tmb, State.lineData_granted]
  case waits =>
    intro s req a w en hw hl hf
    rw [exec_fabricRequest, State.fabricRequest_waits hw hl hf]
  case response =>
    rintro s u req a k mine t rfl hfind harr rfl
    refine congrArg (fun x : State => finishSync x.netGo) ?_
    simp [State.fabricResponse, State.findTx, State.dropTx, hfind, harr]
  case sramWrite =>
    intro s req a v en sh hwf hw hf hserve hp
    obtain ⟨u, hcsr, hmem, hfab⟩ := State.fabricRequest_sramWrite v en hw hf hserve hp
    rw [← hmem] at hwf
    have hbyte : ∀ x, s.byte x = u.byte x := fun x => by rw [State.byte, ← hmem, State.byte]
    refine ⟨s.fabricRequest req a (some v) en, rfl, ?_, fun i hi => ?_, fun x hx => ?_⟩
    · rw [hfab.csr, State.setLine_csr, hcsr]
    · rw [hfab.byte, hbyte]
      have hstored := State.byte_setLine_mergeLine (a := lineOf a) hwf v en hi
      rwa [lineOf_lineOf] at hstored
    · rw [hfab.byte, hbyte]
      exact State.byte_setLine_of_out hwf _ (by rwa [lineOf_lineOf])

end Sys2Proof.Machine
end

section
/-! PROOFS. The structure load: each stage of it, its rejection by the header (R72 to R78), and the banks that change owner (R65). -/

namespace Sys2Proof.Machine

/-! ## What the SME and the end of an operation leave alone -/

section
variable (s : State)

@[simp] theorem State.setSme_cs (x : SmeH) : (s.setSme x).cs = s.cs := rfl
@[simp] theorem State.setSme_load (x : SmeH) : (s.setSme x).load = s.load := rfl
@[simp] theorem State.showSme_cs : s.showSme.cs = s.cs := rfl
@[simp] theorem State.showSme_load : s.showSme.load = s.load := rfl

@[simp] theorem State.smeNext_cs : s.smeNext.cs = s.cs := by
  unfold State.smeNext
  split
  · rfl
  · split
    · rfl
    · rfl
    · rfl
    · split <;> rfl

@[simp] theorem State.smeNext_load : s.smeNext.load = s.load := by
  unfold State.smeNext
  split
  · rfl
  · split
    · rfl
    · rfl
    · rfl
    · split <;> rfl

@[simp] theorem State.smeDone_cs (routine unit : Nat) : (s.smeDone routine unit).cs = s.cs := by
  unfold State.smeDone
  dsimp only
  split
  · simp
  · split
    · simp
    · rfl

@[simp] theorem State.smeDone_load (routine unit : Nat) : (s.smeDone routine unit).load = s.load := by
  unfold State.smeDone
  dsimp only
  split
  · simp
  · split
    · simp
    · rfl

@[simp] theorem State.longOutcome_cs (opcode result : Nat) (data : List Byte) : (s.longOutcome opcode result data).cs = s.cs := by
  unfold State.longOutcome
  split
  · split <;> rfl
  · rfl

@[simp] theorem State.longOutcome_load (opcode result : Nat) (data : List Byte) : (s.longOutcome opcode result data).load = s.load := by
  unfold State.longOutcome
  split
  · split <;> rfl
  · rfl

end

section
variable {s : State} {x : LoadH}

/-! ## The stages (R72 to R81) -/

theorem State.loadChecked_ok (hx : s.load = some x) (h1 : x.stage = 1) {l : List Sect} {c : Committed}
    (hhead : (Bits.mk s x.addr x.length).head = .ok l) (hsig : (Bits.mk s x.addr x.length).signed = true)
    (hbody : (Bits.mk s x.addr x.length).body l = .ok c) :
    s.loadChecked = { s.put SEC_AUTH_RUN_run 0 with load := some { x with
      stage := 2, scope := if (Bits.mk s x.addr x.length).quad then (Bits.mk s x.addr x.length).scope else 4
      serial := (Bits.mk s x.addr x.length).u 16 4, new := c, raised := (Bits.mk s x.addr x.length).raised c } } := by
  simp only [State.loadChecked, hx, h1, hhead, hsig, hbody, State.authOk, ne_eq, not_true_eq_false, if_false, Bool.not_true,
    Bool.false_eq_true]

/-- A failed check of the header or of the section table rejects the bitstream. -/
theorem State.loadChecked_error (hx : s.load = some x) (h1 : x.stage = 1) {e : Rej}
    (hhead : (Bits.mk s x.addr x.length).head = .error e) : s.loadChecked = s.loadReject x e := by
  simp only [State.loadChecked, hx, h1, hhead, ne_eq, not_true_eq_false, if_false]

/-- A rejection ends the load, raises source 445, and leaves the committed structure and memory alone. -/
theorem State.loadReject_leaves (s : State) (x : LoadH) (e : Rej) :
    (s.loadReject x e).cs = s.cs ∧ (s.loadReject x e).load = none ∧ 445 ∈ (s.loadReject x e).raised ∧
      (s.loadReject x e).mem = s.mem :=
  ⟨by simp [State.loadReject], by simp [State.loadReject], by simp [State.loadReject], (keeps_mem s.mem).loadReject rfl⟩

/-- The domains that a load switches on: those of the new mask that are off. -/
theorem maskDiff_zero_filter (m : Nat) (p : Nat → Bool) :
    (maskDiff m 0).filter p = (List.range 44).filter fun d => bit m d && p d := by
  rw [maskDiff, List.filter_filter]
  refine List.filter_congr fun d _ => ?_
  simp [bit, Bool.and_comm]

theorem State.loadStopped_stage2 (hx : s.load = some x) (h2 : x.stage = 2) {u v : State} {on new : List Nat}
    (hu : u = s.stopUnits (fun q => decide (x.scope = 4) || decide (q = x.scope)))
    (hon : on = (List.range 44).filter (fun d => bit x.new.power d && !u.domainOn d))
    (hnew : new = on.filter (fun d => !u.pwr.sw.contains (d, true)))
    (hv : v = { u with load := some { x with stage := 3, ups := new }, lineHold := if x.scope = 4 then none else some x.scope
                       pwr := { u.pwr with sw := u.pwr.sw ++ new.map fun d => (d, true) } }) :
    s.loadStopped = if on = [] then v else v.put PWR_STATUS_busy 1 := by
  subst hv hnew hon hu
  simp only [State.loadStopped, hx, h2, maskDiff_zero_filter, ne_eq, not_true_eq_false, if_false]

theorem State.loadSettled_stage3 (hx : s.load = some x) (h3 : x.stage = 3) (hw : s.resultsWait x = false) :
    s.loadSettled = { (List.range 48).foldl
      (fun (a : State) k => if x.new.bank.getD k 0xFF ≠ s.cs.bank.getD k 0xFF then a.zeroMem (bankBase k) 0x200000 else a)
      (s.pwr.sw.foldl (fun (a : State) d => if d.2 then a.switchDone d.1 true else a) s) with load := some { x with stage := 4 } } := by
  simp [State.loadSettled, hx, h3, hw, State.zeroBank]

theorem State.loadCommit_stage4 (hx : s.load = some x) (h4 : x.stage = 4) {u v : State}
    (hu : u = (State.put { s with cs := x.new, lineHold := none, load := some { x with stage := 5 } } STC_STATUS_last_scope
      (if x.scope = 4 then 7 else x.scope)).showPolicy)
    (hv : v = (if x.scope = 4 then (List.range 4).foldl (fun (a : State) q => a.wn (STC_SERIAL_Q q) x.serial) (u.wn STC_SERIAL_DEV x.serial)
      else u.wn (STC_SERIAL_Q x.scope) x.serial)) :
    s.loadCommit = (if x.raised then v.put STC_STATUS_policy_raised 1 else v).timSettleAll.settleDests s.destLevels := by
  subst hv hu
  simp only [State.loadCommit, hx, h4, ne_eq, not_true_eq_false, if_false]

/-- A load that switches no domain off ends. -/
theorem State.loadDone_stage5 (hx : s.load = some x) (h5 : x.stage = 5)
    (hon : ∀ d < 44, s.domainOn d = true → bit s.cs.power d = true) :
    s.loadDone = ((((({ s with load := none }).put STC_STATUS_state 1).wn STC_LOAD_RESULT 0).smeDone 5 0).longOutcome 0x10 0 []).ev 444 := by
  have hoffs : (List.range 44).filter (fun d => s.domainOn d && !bit s.cs.power d) = [] := by
    rw [List.filter_eq_nil_iff]
    intro d hd
    simpa using hon d (List.mem_range.mp hd)
  simp [State.loadDone, hx, h5, hoffs]

end

/-- Settles O12: each stage of the load is the one its operation is for, so its branch is known; a rejected header touches neither the
committed structure nor memory. -/
theorem structureLoads : Obligations.StructureLoads := by
  refine ⟨fun s x hx => ⟨?check, ?stop, ?settle, ?commit, ?done⟩, ?reject⟩
  case check =>
    intro l c h1 hhead hsig hbody
    exact congrArg finish (State.loadChecked_ok hx h1 hhead hsig hbody)
  case stop =>
    intro u v on new h2 hu hon hnew hv
    exact congrArg finishSync (State.loadStopped_stage2 hx h2 hu hon hnew hv)
  case settle =>
    intro h3 hw
    exact congrArg finish (State.loadSettled_stage3 hx h3 hw)
  case commit =>
    intro u v h4 hu hv
    exact congrArg finish (State.loadCommit_stage4 hx h4 hu hv)
  case done =>
    intro h5 hon
    exact congrArg (fun t : State => finishSync t.clockGo) (State.loadDone_stage5 hx h5 hon)
  case reject =>
    intro s x e hx h1 hhead
    exact ⟨s.loadReject x e, congrArg finish (State.loadChecked_error hx h1 hhead), State.loadReject_leaves s x e⟩

/-! ## The banks that change owner (R65) -/

/-- What one step of a fold brings about, and no step of it undoes, holds after the fold. -/
theorem foldl_reaches {α β : Type} {P Q : β → Prop} {f : β → α → β} {l : List α} {k : α} {b : β} (hk : k ∈ l)
    (hinv : ∀ a n, P a → P (f a n)) (hget : ∀ a, P a → Q (f a k)) (hkeep : ∀ a n, P a → Q a → Q (f a n)) (hb : P b) :
    Q (l.foldl f b) := by
  induction l generalizing b with
  | nil => cases hk
  | cons j l ih =>
    rcases List.mem_cons.mp hk with rfl | hk
    · exact (List.foldlRecOn (motive := fun a => P a ∧ Q a) l f ⟨hinv b k hb, hget b hb⟩
        fun a ha n _ => ⟨hinv a n ha.1, hkeep a n ha.1 ha.2⟩).2
    · exact ih hk (hinv b j hb)

/-- Zeroing sets no byte to another value. -/
theorem State.byte_zeroMem_of_zero {s : State} {a n x : Nat} (h : Memory.wf s.mem = true) (hx : s.byte x = 0) :
    (s.zeroMem a n).byte x = 0 := by
  rw [State.byte_zeroMem h, hx, ite_self]

/-- Zeroing the banks of a list that a condition picks leaves zeros in each bank that it picks. -/
theorem State.byte_zeroBanks {s : State} {p : Nat → Prop} [DecidablePred p] {l : List Nat} {k i : Nat} (h : Memory.wf s.mem = true)
    (hk : k ∈ l) (hp : p k) (hi : i < 0x200000) :
    (l.foldl (fun (a : State) k => if p k then a.zeroMem (bankBase k) 0x200000 else a) s).byte (bankBase k + i) = 0 := by
  refine foldl_reaches (P := fun a : State => Memory.wf a.mem = true) (Q := fun a => a.byte (bankBase k + i) = 0) hk
    (fun a n ha => ?inv) (fun a ha => ?get) (fun a n ha hz => ?keep) h
  case inv =>
    split
    · exact State.zeroMem_wf ha
    · exact ha
  case get =>
    rw [if_pos hp, State.byte_zeroMem ha, if_pos (by omega)]
  case keep =>
    split
    · exact State.byte_zeroMem_of_zero ha hz
    · exact hz

/-- The domains that settle leave memory in canonical form. -/
theorem State.switchesDone_canonical {s : State} (l : List (Nat × Bool)) (h : s.canonical = true) :
    (l.foldl (fun (a : State) d => if d.2 then a.switchDone d.1 true else a) s).canonical = true := by
  refine List.foldlRecOn (motive := fun a : State => a.canonical = true) l _ h fun a ha d _ => ?_
  split
  · exact keepsMem_canonical.switchDone ha
  · exact ha

/-- Settles O13: every bank of the list that changes owner is zeroed, and no later step of the same list writes it. -/
theorem reownedBanksAreZeroed : Obligations.ReownedBanksAreZeroed := by
  intro s t x k i hs hx h3 hw ht hk hown hi
  have hsettled : t = s.loadSettled := (Host.Outcome.next.inj ht).symm
  rw [hsettled, State.loadSettled_stage3 hx h3 hw]
  exact State.byte_zeroBanks (State.mem_wf_of_canonical (State.switchesDone_canonical _ hs)) (List.mem_range.mpr hk) hown hi

end Sys2Proof.Machine
end

section
/-! PROOFS. The streams of ports and WFGs: the read of a line, its landing, the ring after a run (R166, R171, R183), and the verdict on an
encrypted page (R197, R199). -/

namespace Sys2Proof.Machine

section
variable {s : State} {d : Fin 12}

/-! ## The ring's reads -/

theorem State.streamFetch_ring {u : State} {sh ok : Bool} {pl : PlanPos} {e : Entry} {a pool : Nat} (hz : s.seq[d].zeroing = false)
    (hrun : (s.unitArmed d || s.unitRuns d) = true) (hplan : s.seq[d].plan.ended = false) (hcredit : s.ringCredit d = true)
    (he : e = s.entryAt s.seq[d].plan.entry) (htag : s.fetchTag d e.tier = some sh) (ha : a = s.windowAddr d e.tier s.seq[d].plan.next)
    (hstep : (u, pl) = s.planStep d false s.seq[d].plan) (hpool : pool = (if e.tier = 1 then unitChan d else 4))
    (hok : ok = (decide (poolOf a = pool) && u.storeServes d e.tier a)) :
    s.streamFetch d .ring = (u.setSeq d { u.seq[d] with
      plan := pl, ring := s.seq[d].ring ++ [flyingLine e.tier (lineOf a) e.enc] }).issueTx
        { req := fetchReq d e.tier, pool := pool, line := lineOf a, write := none, shared := sh, dest := .ring d, at_ := u.tmb.clk
          answer := if ok then none else some (0, false), lost := !ok } := by
  subst hok hpool ha he
  simp only [State.streamFetch, hz, hrun, hplan, hcredit, htag, ← hstep, Bool.not_true, Bool.or_false, Bool.false_eq_true, if_false]
  rfl

theorem State.streamLand_ring {x : FabTx} {mine : FabTx → Bool} (hmine : mine = fun t => t.dest.ofUnit d && t.arrived)
    (hfind : s.findTx mine = some x) (hx : x.dest = .ring d) :
    s.streamLand d = ((s.dropTx mine).setSeq d { (s.dropTx mine).seq[d] with
      ring := landLine x.line (x.answer.getD (0, false)).1 (x.answer.getD (0, false)).2 x.lost (s.seqVec d) s.tmb.clk
        (s.dropTx mine).seq[d].ring }).showFill d := by
  subst hmine
  simp only [State.streamLand, hfind, hx]

/-! ## The zeroing of a ring (R171) -/

/-- The zeroing writes memory and nothing else. -/
theorem State.zeroRing_eq_mem (s : State) (d : Fin 12) : ∃ m : List Host.Cell, s.zeroRing d = { s with mem := m } := by
  refine List.foldlRecOn (motive := fun a => ∃ m : List Host.Cell, a = { s with mem := m }) _ _ ⟨s.mem, rfl⟩ fun a ha n _ => ?_
  obtain ⟨m, rfl⟩ := ha
  split
  · exact ⟨_, rfl⟩
  · exact ⟨m, rfl⟩

theorem State.byte_zeroRing {n x i : Nat} (h : Memory.wf s.mem = true) (hn : n < s.seq[d].zeroSize)
    (hx : s.cs.sramAddr d (0x10000 * (s.segStore d / 0x10000 - s.seq[d].zeroSize + n)) = some x) (hi : i < 0x10000) :
    (s.zeroRing d).byte (x + i) = 0 := by
  refine foldl_reaches (P := fun a : State => Memory.wf a.mem = true ∧ a.cs = s.cs) (Q := fun a => a.byte (x + i) = 0)
    (List.mem_range.mpr hn) (fun a k ha => ?inv) (fun a ha => ?get) (fun a k ha hz => ?keep) ⟨h, rfl⟩
  case inv =>
    split
    · exact ⟨State.zeroMem_wf ha.1, ha.2⟩
    · exact ha
  case get =>
    simp only [ha.2, hx]
    rw [State.byte_zeroMem ha.1, if_pos (by omega)]
  case keep =>
    split
    · exact State.byte_zeroMem_of_zero ha.1 hz
    · exact hz

theorem State.ringZeroed_of_zeroing (hz : s.seq[d].zeroing = true) (hfly : s.inFlight d = false) :
    s.ringZeroed d = (if d.val < 8 then s.zeroRing d else s).setSeq d
      { (if d.val < 8 then s.zeroRing d else s).seq[d] with zeroing := false } := by
  simp only [State.ringZeroed, hz, hfly, Bool.not_false, Bool.and_self, if_true]

end

/-- Settles O19: an issue and a landing are the one branch that their hypotheses leave; the zeroing writes memory only, block by block,
and no later block is given another value than 0. -/
theorem streamsAndRings : Obligations.StreamsAndRings := by
  refine ⟨fun s d hz hrun => ⟨?fetch, ?land⟩, ?zero⟩
  case fetch =>
    intro u sh ok pl e a pool hplan hcredit he htag ha hstep hpool hok
    exact congrArg finish (State.streamFetch_ring hz hrun hplan hcredit he htag ha hstep hpool hok)
  case land =>
    intro x mine hmine hfind hx
    exact congrArg (fun t : State => finishSync t.grantTags.netGo) (State.streamLand_ring hmine hfind hx)
  case zero =>
    intro s d hz hfly
    refine ⟨s.ringZeroed d, rfl, ?_⟩
    rw [State.ringZeroed_of_zeroing hz hfly]
    refine ⟨by simp [State.setSeq], ?csr, fun hwfg => ?mem, fun hs hport n x hn hx i hi => ?byte⟩
    case csr =>
      split
      · obtain ⟨m, hm⟩ := s.zeroRing_eq_mem d
        rw [hm]
        rfl
      · rfl
    case mem =>
      rw [if_neg (by omega)]
      rfl
    case byte =>
      rw [if_pos hport]
      exact State.byte_zeroRing (State.mem_wf_of_canonical hs) hn hx hi

/-! ## The verdict on a page (R197, R199) -/

section
variable {s : State} {p : Fin 8} {tier : Fin 4} {a key nonce : Nat} {x : PageTag} {v : BitVec 128} {l : List RLine}
  {put : List RLine → SeqH} {text : List Byte} {mine : PageTag → Bool}

/-- The key in the port's slot, as the crypto engine reads it. -/
theorem State.patKey_toNat {slot : Nat} (hkey : s.sec.keys.lookup slot = some (BitVec.ofNat 256 key)) (hlt : key < 2 ^ 256) :
    (s.patKey slot).toNat = key := by
  rw [State.patKey, hkey, Option.getD_some, BitVec.toNat_ofNat, Nat.mod_eq_of_lt hlt]

section
variable (htag : (s.freeTag 5 21).isSome = true) (hmine : mine = fun t => decide (t.tier = tier.val) && decide (t.page = a / 4096))
  (hfind : s.seq[portUnit p].tags.find? mine = some x) (hv : x.value = some v)
  (hpage : s.seq[portUnit p].nextPage tier (a / 4096) = some (l, put))
  (hkey : s.sec.keys.lookup (s.get (PRT_STRM_KEY_slot p)) = some (BitVec.ofNat 256 key)) (hlt : key < 2 ^ 256)
  (hnonce : nonce = s.pageNonce (portUnit p) tier (4096 * (a / 4096) - s.windowAddr (portUnit p) tier 0))
  (htext : text = l.flatMap fun y => leBytes y.data.toNat 64)
include htag hmine hfind hv hpage hkey hlt hnonce htext

/-- A page whose tag verifies becomes plaintext, and a run of failures ends. -/
theorem State.pageAuthDone_plain {b : List Byte} (hopen : gcmOpen key nonce [] text (leBytes v.toNat 16) = some b) :
    s.pageAuthDone p tier a = ((s.setSeq (portUnit p)
      { put (authLines (.plain b) (s.seqVec (portUnit p)) s.tmb.clk l) with tags := s.seq[portUnit p].tags.eraseP mine }).showFill
        (portUnit p)).put SEC_AUTH_RUN_run 0 := by
  have hk : (s.patKey (s.get (PRT_STRM_KEY_slot (portUnit p)))).toNat = key := State.patKey_toNat hkey hlt
  subst hmine hnonce htext
  simp only [State.pageAuthDone, State.pageAuth, Option.isNone_iff_eq_none, Option.ne_none_iff_isSome.mpr htag, if_false, hfind, hv,
    hpage, hk, hopen, hkey, Option.isSome_some, if_true]
  rfl

/-- A page whose tag does not verify has no line; source 14 and the failure count show it. -/
theorem State.pageAuthDone_failed (hopen : gcmOpen key nonce [] text (leBytes v.toNat 16) = none) :
    s.pageAuthDone p tier a = ((((s.setSeq (portUnit p)
      { put (authLines .failed (s.seqVec (portUnit p)) s.tmb.clk l) with tags := s.seq[portUnit p].tags.eraseP mine }).showFill
        (portUnit p)).put (PRT_STRM_STATUS_auth_fail p) 1).ev (portSrc p 14)).authFail := by
  have hk : (s.patKey (s.get (PRT_STRM_KEY_slot (portUnit p)))).toNat = key := State.patKey_toNat hkey hlt
  subst hmine hnonce htext
  simp only [State.pageAuthDone, State.pageAuth, Option.isNone_iff_eq_none, Option.ne_none_iff_isSome.mpr htag, if_false, hfind, hv,
    hpage, hk, hopen, hkey, Option.isSome_some, if_true, show (portUnit p).val < 8 from p.isLt]
  rfl

end
end

/-- Settles O21: the key in the port's slot is the one the verdict is formed under, and GCM's answer decides between the two ends. -/
theorem pageVerdict : Obligations.PageVerdict := by
  intro s p tier a nonce key x v l put text mine htag hmine hfind hv hpage hkey hlt hnonce htext
  refine ⟨fun b hopen => ?plain, fun hopen => ?failed⟩
  case plain => exact congrArg finishSync (State.pageAuthDone_plain htag hmine hfind hv hpage hkey hlt hnonce htext hopen)
  case failed => exact congrArg finishSync (State.pageAuthDone_failed htag hmine hfind hv hpage hkey hlt hnonce htext hopen)

end Sys2Proof.Machine
end

section
/-! PROOFS. Writes that commands make: the bit a command sets in the value written, and register accesses whose clocks run
(R43, R52, R215); then the control of the domain PLLs and their phase samples (R205, R210, R211, R233). -/

namespace Sys2Proof.Machine

/-! ## The value written -/

theorem bit_eq_testBit (x i : Nat) : bit x i = x.testBit i := by
  simp [bit, Nat.testBit, Nat.and_comm 1, Nat.and_one_is_mod]

/-- A command writes its own bit as it says and every other bit as the host does. -/
theorem bit_withBit (v : Word) {i j : Nat} (b : Bool) (hj : j < 32) :
    bit (withBit v i b).toNat j = if i = j then b else bit v.toNat j := by
  have hpow : (BitVec.ofNat 32 (2 ^ i)).getLsbD j = decide (i = j) := by
    rw [BitVec.getLsbD_ofNat, Nat.testBit_two_pow, decide_eq_true hj, Bool.true_and]
  rw [bit_eq_testBit, bit_eq_testBit, BitVec.testBit_toNat, BitVec.testBit_toNat, withBit]
  cases b with
  | true =>
    rw [if_pos rfl, BitVec.getLsbD_or, hpow]
    by_cases h : i = j <;> simp [h]
  | false =>
    rw [if_neg Bool.false_ne_true, BitVec.getLsbD_and, BitVec.getLsbD_not, hpow]
    by_cases h : i = j <;> simp [h, hj]

/-! ## Writes of registers whose clocks run -/

section
variable {s : State} {a : Nat} {v : Word}

theorem State.atReg_of_csrError (f : State → State) (h : s.csrError a true = true) : s.atReg a f = s := by
  simp [State.atReg, h]

theorem State.atClock_of_writeWaits_eq_false (f : State → State) (he : s.csrError a true = false) (hw : s.writeWaits a v = false) :
    s.atClock a v f = f s := by
  simp [State.atClock, State.atReg, he, hw]

theorem State.writeWaits_of_clockWaits_eq_false (h : s.clockWaits a = false) : s.writeWaits a v = false := by
  simp [State.writeWaits, h]

theorem State.atClock_of_clockWaits_eq_false (f : State → State) (he : s.csrError a true = false) (hc : s.clockWaits a = false) :
    s.atClock a v f = f s :=
  State.atClock_of_writeWaits_eq_false f he (State.writeWaits_of_clockWaits_eq_false hc)

end

/-! ## The control of a domain PLL (Table 6.4, R205, R210, R211) -/

section
variable {s u : State} {d : Fin 12} {v : Word}

/-- A write of run = 1 alone. -/
theorem State.dplCtl_run (h0 : bit v.toNat 0 = true) (h1 : bit v.toNat 1 = false) (h3 : bit v.toNat 3 = false) :
    s.dplCtl d v = (s.put (DPL_CTL_dither d) (bitsOf v.toNat 2 1)).dplRun d := by
  simp [State.dplCtl, h0, h1, h3]

theorem State.dplCtl_runOff (h0 : bit v.toNat 0 = false) (h1 : bit v.toNat 1 = false) (h3 : bit v.toNat 3 = false) :
    s.dplCtl d v = (s.put (DPL_CTL_dither d) (bitsOf v.toNat 2 1)).dplRunOff d := by
  simp [State.dplCtl, h0, h1, h3]

theorem State.dplCtl_commit (h0 : bit v.toNat 0 = true) (h1 : bit v.toNat 1 = true) (h3 : bit v.toNat 3 = false) :
    s.dplCtl d v = ((s.put (DPL_CTL_dither d) (bitsOf v.toNat 2 1)).commitWord d).dplRun d := by
  simp [State.dplCtl, h0, h1, h3]

theorem State.dplCtl_reseed (h0 : bit v.toNat 0 = true) (h1 : bit v.toNat 1 = false) (h3 : bit v.toNat 3 = true) :
    s.dplCtl d v = ((s.put (DPL_CTL_dither d) (bitsOf v.toNat 2 1)).dplReseed d).dplRun d := by
  simp [State.dplCtl, h0, h1, h3]

theorem State.dplRun_off (h : (s.put (DPL_CTL_run d) 1).get (DPL_STATUS_state d) = 0) :
    s.dplRun d = (s.put (DPL_CTL_run d) 1).acquire d := by
  simp [State.dplRun, h]

theorem State.commitWord_invalid (h : (s.staged d).valid = false) : s.commitWord d = s.put (DPL_STATUS_refused d) 1 := by
  simp [State.commitWord, h]

/-- In OFF no loop follows a new word. -/
theorem State.follow_off {r : Rate} {sameDiv : Bool} (h : s.get (DPL_STATUS_state d) = 0) : s.follow d r sameDiv = s := by
  simp [State.follow, State.dplLocked, h]

theorem State.fixM_get_state (h : cellsWf regReset s.csr = true) (f : Rate) :
    (s.fixM d f).get (DPL_STATUS_state d) = s.get (DPL_STATUS_state d) := by
  unfold State.fixM
  split
  · exact State.get_put_ne (s := s.setDpl d _) h (show 5 + 3 ≤ 32 by decide) (.inr (.inl (show 0 + 3 ≤ 5 by decide)))
  · rfl

/-- A commit in OFF puts the staged word into the loop. -/
theorem State.commitWord_off (h : cellsWf regReset s.csr = true) (hv : (s.staged d).valid = true)
    (hoff : s.get (DPL_STATUS_state d) = 0) (hidle : s.unitActive d = false)
    (hramble : d.val < 8 → s.on (PRT_RAMBLE_STATUS_active d) = false) :
    s.commitWord d = (s.setDpl d { s.dpl[d] with
      wN := (s.staged d).n, wF := (s.staged d).f, wO := (s.staged d).odiv, wD := (s.staged d).dither }).fixM d (s.staged d).rate := by
  have hr : (decide (d.val < 8) && s.on (PRT_RAMBLE_STATUS_active d)) = false := by
    by_cases hd : d.val < 8
    · simp [hramble hd]
    · simp [hd]
  have hrelock : s.inRelock d = false := by simp [State.inRelock, hoff]
  simp only [State.commitWord, hv, hoff, hidle, hr, hrelock, Bool.not_true, Bool.and_false, Bool.false_and, Bool.or_false,
    Bool.false_eq_true, if_false]
  have hset (x : DplH) (f : Rate) : ((s.setDpl d x).fixM d f).get (DPL_STATUS_state d) = 0 := by
    rw [State.fixM_get_state (s := s.setDpl d x) h f, State.get_congr (State.setDpl_csr s d x), hoff]
  exact State.follow_off (hset _ _)

/-! ## Phase samples (R233) -/

/-- Time that goes on moves the time base only. -/
theorem State.advance_eq (s : State) (n : Nat) : ∃ x, s.advance n = { s with tmb := x } := by
  unfold State.advance
  split
  · exact ⟨_, rfl⟩
  · exact ⟨s.tmb, rfl⟩

@[simp] theorem State.advance_dpl (s : State) (n : Nat) : (s.advance n).dpl = s.dpl := by
  obtain ⟨x, hx⟩ := s.advance_eq n
  rw [hx]

theorem State.dplWrite_sample {r : Reg} {a : Nat} (h2 : bit v.toNat 2 = true) (hmode : bitsOf v.toNat 0 2 = 0)
    (hcur : (s.plainWrite a r v).get (DPL_PHASE_CTL_mode d) = 0) :
    s.dplWrite d 0x030 a r v = (s.plainWrite a r v).setDpl d { s.dpl[d] with phaseReq := true } := by
  simp only [State.dplWrite, h2, hmode, State.phaseReq, hcur, if_false, if_true,
    show ¬ 2 ≤ 0 by decide]
  rfl

theorem State.phaseSample_asked {w : State} {ofs : BitVec 19}
    (hask : s.get (DPL_PHASE_CTL_mode d) = 1 ∨ s.dpl[d].phaseReq = true) (hrun : s.tmb.running = true)
    (hu : u = s.advance (s.phaseInstant d - s.tmb.count))
    (hw : w = (((((u.wn64 (DPL_PHASE_TS_LO d) (stampOf (s.phaseInstant d) (u.get TMB_STATUS_step_flag))).put (DPL_PHASE_EP_epoch d)
      u.tmb.epoch).put (DPL_PHASE_OFS_ofs d) (ofs.toNat % ((u.rate d).lastStep + 1))).put (DPL_PHASE_OFS_valid d)
        (if 4 ≤ u.get (DPL_STATUS_state d) ∧ u.get (DPL_STATUS_state d) ≤ 6 then 1 else 0)).wn64 (DPL_PHASE_VEC_LO d)
          (if d.val < 8 ∧ u.get (PRT_SEQ_STATUS_state d) = 2 then u.vecFrom d u.tmb.clk else 0))) :
    s.phaseSample d ofs = w.setDpl d { s.dpl[d] with phaseReq := false } := by
  subst hw hu
  simp only [State.phaseSample, hask, hrun, Bool.and_eq_true, decide_eq_true_eq, and_self, if_true, State.wn64_dpl, State.put_dpl,
    State.advance_dpl]

end

theorem exec_phaseSampleReq {s : State} {d : Fin 12} {v : Word} {r : Reg} (hw : s.waits = [])
    (he : s.csrError (DPL_PHASE_CTL d) true = false) (hc : s.writeWaits (DPL_PHASE_CTL d) (withBit v 2 true) = false)
    (hr : regAt (DPL_PHASE_CTL d) = some (.dpl, d.val, 0x030, r)) :
    exec (.phaseSampleReq d v) s = .next (s.dplWrite d 0x030 (DPL_PHASE_CTL d) r (withBit v 2 true)) := by
  have hplain : isFreezeCtl (DPL_PHASE_CTL d) = false ∧ isClockCtl (DPL_PHASE_CTL d) = false :=
    (by decide : ∀ d : Fin 12, isFreezeCtl (DPL_PHASE_CTL d) = false ∧ isClockCtl (DPL_PHASE_CTL d) = false) d
  have hblk : Fin.ofNat 12 d.val = d := Fin.ext (Nat.mod_eq_of_lt d.isLt)
  refine congrArg finish ?_
  rw [State.regCmd_of_plain he hplain.1 hplain.2, State.regWrite_of_goes hw he hc hr, State.csrPut,
    if_neg (by decide), if_neg (by decide), State.blkWrite, hblk]

/-- Settles O22: the written value's bits pick the branch of the control, and the state of the loop what it does. -/
theorem dplCommands : Obligations.DplCommands := by
  refine ⟨fun s u d v => ⟨?run, ?off, ?commit, ?reseed, ?req⟩, ?sample⟩
  case run =>
    rintro he rfl h1 h3 hoff
    refine congrArg finish ((State.atReg_of_csrError_eq_false _ he).trans ?_)
    rw [State.dplCtl_run (by simp [bit_withBit]) (by simpa [bit_withBit] using h1) (by simpa [bit_withBit] using h3),
      State.dplRun_off hoff]
  case off =>
    rintro he rfl h1 h3 hidle
    refine ⟨_, congrArg finish ((State.atReg_of_csrError_eq_false _ he).trans ?_), rfl⟩
    rw [State.dplCtl_runOff (by simp [bit_withBit]) (by simpa [bit_withBit] using h1) (by simpa [bit_withBit] using h3),
      State.dplRunOff, hidle]
    rfl
  case commit =>
    rintro he rfl h0 h3
    refine ⟨congrArg finish ((State.atReg_of_csrError_eq_false _ he).trans ?_), State.commitWord_invalid, fun hs hv hoff hidle hr => ?_⟩
    · rw [State.dplCtl_commit (by simpa [bit_withBit] using h0) (by simp [bit_withBit]) (by simpa [bit_withBit] using h3)]
    · exact State.commitWord_off (State.put_csr_wf (State.csr_wf_of_canonical hs)) hv hoff hidle hr
  case reseed =>
    rintro he rfl h0 h1 hidle
    refine congrArg finish ((State.atReg_of_csrError_eq_false _ he).trans ?_)
    rw [State.dplCtl_reseed (by simpa [bit_withBit] using h0) (by simpa [bit_withBit] using h1) (by simp [bit_withBit]),
      State.dplReseed, hidle]
    rfl
  case req =>
    intro r hw he hc hr hmode hcur
    rw [exec_phaseSampleReq hw he hc hr, State.dplWrite_sample (by simp [bit_withBit]) hmode hcur]
  case sample =>
    intro s u w d ofs hask hrun hu hw
    exact congrArg finish (State.phaseSample_asked hask hrun hu hw)

end Sys2Proof.Machine
end

section
/-! PROOFS. The TIM channels: edges, conversions and results by kind (R270 to R276, R281 to R283), FREQ gates and histograms
(R282 to R286). -/

namespace Sys2Proof.Machine

/-! ## Edges (R270, R274 to R276) -/

section
variable {s u : State} {t : Fin 32} {at_ : Nat} {f : Bool} (hu : u = (s.advance (1000 * at_ - s.tmb.count)).timGates t)
include hu

theorem State.timEdge_unseen (h : u.timSelected t f = false ∨ u.on (TIM_STATUS_blanked t) = true) : s.timEdge t at_ f = u := by
  simp only [State.timEdge, ← hu, Bool.not_eq_true']
  exact if_pos (.inr h)

section
variable (hst : u.get (TIM_STATUS_state t) = 3) (hsel : u.timSelected t f = true) (hbl : u.on (TIM_STATUS_blanked t) = false)
  (hmode : u.on (TIM_CTL_mode t) = false)
include hst hsel hbl hmode

/-- An edge outside the dead time waits for its conversion. -/
theorem State.timEdge_measured {w : State} (hw : w = u.wn64 (TIM_EDGES_LO t) (u.rn64 (TIM_EDGES_LO t) + 1))
    (hdead : ∀ m, u.tim[t].lastMeas = some m → m + 18 * tuPerNs ≤ u.tmb.clk) :
    s.timEdge t at_ f = ((w.setTim t { u.tim[t] with
      since := 0, lastMeas := some (u.tmb.clk : Int)
      pend := u.tim[t].pend ++ [{ coarse := (at_ / 4096 + 2) * 4096, falling := f, number := u.rn64 (TIM_EDGES_LO t)
                                  n := u.tim[t].since + 1, ep := u.tmb.epoch, ofs := (u.tmb.count : Int) - u.tmb.clk
                                  at_ := u.tmb.clk, gate := u.tim[t].gate }] }).pulse (0x50 + t)) := by
  subst hw
  simp only [State.timEdge, ← hu, hst, hsel, hbl, hmode, State.timDead]
  cases hm : u.tim[t].lastMeas with
  | none => simp
  | some m => simp [Int.not_lt.mpr (hdead m hm)]

/-- An edge in the dead time is lost. -/
theorem State.timEdge_lost {w : State} (hw : w = u.wn64 (TIM_EDGES_LO t) (u.rn64 (TIM_EDGES_LO t) + 1)) {m : Int}
    (hm : u.tim[t].lastMeas = some m) (hdead : (u.tmb.clk : Int) < m + 18 * tuPerNs) :
    s.timEdge t at_ f = ((w.setTim t { u.tim[t] with since := u.tim[t].since + 1, lost := true }).count
      (TIM_LOST t)).timFlag t (TIM_STATUS_lost t) 1 49 := by
  subst hw
  simp only [State.timEdge, ← hu, hst, hsel, hbl, hmode, State.timDead, hm]
  simp [hdead]

end
end

/-! ## Results (R270 to R273, R281 to R283) -/

/-- What a converted edge `c` of the present run gives in the channel's kind, where `prev` is the edge converted before it. -/
def State.timGive (s : State) (kind : Nat) (t : Fin 32) (p : TimPend) (c : TimConv) (prev : Option Int) : State :=
  match kind with
  | 0 => s.timProduce t (ofSigned 32 c.edge) p.falling c.range c.cal false (p.number % 2 ^ 16)
  | 1 =>
    match prev with
    | none => s
    | some b => s.timProduce t (if decide (0xFFFFFFFF < edgeDiff c.tb b) then 0xFFFFFFFF else (edgeDiff c.tb b).toNat) p.falling
        (c.range || decide (0xFFFFFFFF < edgeDiff c.tb b)) c.cal false p.n
  | 2 =>
    if s.tim[t].wait ≠ [] ∨ s.partnerBusy t c.tb then s.setTim t { s.tim[t] with wait := s.tim[t].wait ++ [(p, c)] }
    else s.timInterval t p c
  | _ => s.gateEdge t p c

section
variable {s : State} {t : Fin 32} {p : TimPend} {c : TimConv} {prev : Option Int}

theorem State.timGive_period {b : Int} (h : edgeDiff c.tb b ≤ 0xFFFFFFFF) :
    s.timGive 1 t p c (some b) = s.timProduce t (edgeDiff c.tb b).toNat p.falling c.range c.cal false p.n := by
  simp [State.timGive, Int.not_lt.mpr h]

theorem State.timGive_interval (hwait : s.tim[t].wait = []) (hb : s.partnerBusy t c.tb = false) :
    s.timGive 2 t p c prev = s.timInterval t p c := by
  rw [State.timGive, hwait, hb]
  simp

theorem State.timGive_waits (hb : s.partnerBusy t c.tb = true) :
    s.timGive 2 t p c prev = s.setTim t { s.tim[t] with wait := s.tim[t].wait ++ [(p, c)] } := by
  rw [State.timGive, if_pos (.inr hb)]

end

section
variable {s s1 s2 s3 s4 : State} {t : Fin 32} {x v1 v2 : BitVec 12} {p : TimPend} {rest : List TimPend} {c : TimConv}

/-- A conversion: the oldest edge leaves the wait list, is stamped and told to the partners, and gives its result. -/
theorem State.timResult_of (hp : s.tim[t].pend = p :: rest) (hold : p.old = false)
    (hc : (s.setTim t { s.tim[t] with pend := rest }).timConvert t p x.toNat = (s1, c))
    (h2 : s2 = (if s.on (TIM_CTL_mode t) then s1 else (s1.put (TIM_BRACKET_v1 t) v1.toNat).put (TIM_BRACKET_v2 t) v2.toNat))
    (h3 : s3 = ((s2.wn64 (TIM_LAST_TS_LO t) (ofSigned 64 (8 * c.edge + ((s.clockMap p.at_).2.2 : Int)))).put (TIM_LAST_EP_epoch t)
      (if c.edge < 0 then (p.ep + 65535) % 65536 else p.ep)).timTellPartners t c.tb)
    (h4 : s4 = s3.setTim t { s3.tim[t] with prev := some c.tb, lastMeas := if rest = [] then some c.tb else s3.tim[t].lastMeas }) :
    s.timResult t x v1 v2 = s4.timGive (s.get (TIM_CTL_kind t)) t p c s3.tim[t].prev := by
  rw [State.timResult, hp]
  dsimp -zeta only
  rw [hc]
  extract_lets u2 ts ep u3 h prev old u4 src
  have e2 : u2 = s2 := h2.symm
  have e3 : u3 = s3 := by
    rw [h3, ← e2]
  have e4 : u4 = s4 := by
    rw [h4, ← e3]
    exact congrArg (u3.setTim t) (if_neg (by rw [hold]; exact Bool.false_ne_true))
  have eprev : prev = s3.tim[t].prev := by
    rw [← e3]
    exact if_neg (by rw [hold]; exact Bool.false_ne_true)
  have esrc : src = u4.tim[t] := rfl
  clear_value src u4 prev
  subst esrc e4 eprev
  generalize s.get (TIM_CTL_kind t) = kind
  match kind with
  | 0 => simp only [hold]; rfl
  | 1 => simp only [hold]; rfl
  | 2 => rfl
  | _ + 3 => simp only [hold]; rfl

theorem exec_timResult {u : State} (h : s.timResult t x v1 v2 = u) :
    exec (.timResult t x v1 v2) s = .next (u.serveSource (timTaskSource t)).holdFaults.syncSources :=
  congrArg (fun a : State => finishSync (a.serveSource (timTaskSource t))) h

end

/-- Settles O27: the dead time decides between a measured and a lost edge, and the channel's kind what a conversion gives. -/
theorem timResults : Obligations.TimResults := by
  refine ⟨fun s u w t at_ f hu hst hw => ⟨?unseen, ?measured, ?lost⟩, fun s s1 s2 s3 s4 t x v1 v2 p rest c => ⟨?none, ?some⟩⟩
  case unseen => exact fun h => congrArg finish (State.timEdge_unseen hu h)
  case measured =>
    exact fun hsel hbl hmode hdead => congrArg finish (State.timEdge_measured hu hst hsel hbl hmode hw hdead)
  case lost =>
    exact fun m hsel hbl hmode hm hdead => congrArg finish (State.timEdge_lost hu hst hsel hbl hmode hw hm hdead)
  case none =>
    intro hp
    refine exec_timResult ?_
    simp only [State.timResult, hp]
  case some =>
    intro hp hold hc h2 h3 h4
    have hgive : ∀ k, s.get (TIM_CTL_kind t) = k → s.timResult t x v1 v2 = s4.timGive k t p c s3.tim[t].prev := by
      rintro k rfl
      exact State.timResult_of hp hold hc h2 h3 h4
    refine ⟨?arrival, ?first, ?period, ?interval, ?waits, ?freq⟩
    case arrival => exact fun hk => exec_timResult (hgive 0 hk)
    case first =>
      intro hk hprev
      refine exec_timResult ((hgive 1 hk).trans ?_)
      rw [hprev]
      rfl
    case period =>
      intro b hk hprev hfit
      refine exec_timResult ((hgive 1 hk).trans ?_)
      rw [hprev, State.timGive_period hfit]
    case interval => exact fun hk hwait hb => exec_timResult ((hgive 2 hk).trans (State.timGive_interval hwait hb))
    case waits => exact fun hk hb => exec_timResult ((hgive 2 hk).trans (State.timGive_waits hb))
    case freq => exact fun hk => exec_timResult (hgive 3 hk)

/-! ## FREQ gates (R282, R283) -/

section
variable {s : State}

@[simp] theorem State.setTim_tim_self (t : Fin 32) (x : TimH) : (s.setTim t x).tim[t] = x := by
  simp [State.setTim]

@[simp] theorem State.advance_csr (s : State) (n : Nat) : (s.advance n).csr = s.csr := by
  obtain ⟨x, hx⟩ := s.advance_eq n
  rw [hx]

@[simp] theorem State.advance_tim (s : State) (n : Nat) : (s.advance n).tim = s.tim := by
  obtain ⟨x, hx⟩ := s.advance_eq n
  rw [hx]

theorem State.advance_tmb_clk (h : s.tmb.running = true) (n : Nat) : (s.advance n).tmb.clk = s.tmb.clk + n := by
  rw [State.advance, if_pos h]

theorem State.on_congr {t : State} (h : t.csr = s.csr) (f : Fld) : t.on f = s.on f := by
  rw [State.on, State.get_congr h, State.on]

theorem State.rn_congr {t : State} (h : t.csr = s.csr) (a : Nat) : t.rn a = s.rn a := by
  rw [State.rn, State.rd, h, State.rn, State.rd]

/-- One gate has ended and no edge is in conversion: the next gate opens, and the ended one gives its result. -/
theorem State.timGates_one {t : Fin 32} {len : Nat} (hst : s.get (TIM_STATUS_state t) = 3) (hk : s.get (TIM_CTL_kind t) = 3)
    (hlen : len = 8 * tuPerNs * s.rn (TIM_GATE t)) (hpos : 0 < len) (hclk : s.tmb.clk = s.tim[t].gAt + len) (hp : s.tim[t].pend = [])
    (hbl : s.on (TIM_STATUS_blanked t) = false) :
    s.timGates t = (s.setTim t { s.tim[t] with
      gate := s.tim[t].gate + 1, gAt := s.tim[t].gAt + len, gBad := s.tim[t].gBad.take 4 }).gateResult t s.tim[t].gate := by
  have hn : (s.tmb.clk - s.tim[t].gAt) / max 1 len = 1 := by
    rw [hclk, Nat.add_sub_cancel_left, Nat.max_eq_right hpos, Nat.div_self hpos]
  simp only [State.timGates, hst, hk, ← hlen, hn, hp, hbl, List.any_nil, Nat.one_mul, Bool.false_eq_true, if_false]
  exact if_neg (by simp [Nat.pos_iff_ne_zero.mp hpos])

theorem State.timGateEnd_one {u : State} {t : Fin 32} {len : Nat} (hrun : s.tmb.running = true)
    (hst : s.get (TIM_STATUS_state t) = 3) (hk : s.get (TIM_CTL_kind t) = 3) (hlen : len = 8 * tuPerNs * s.rn (TIM_GATE t))
    (hpos : 0 < len) (hclk : s.tmb.clk ≤ s.tim[t].gAt + len) (hp : s.tim[t].pend = []) (hbl : s.on (TIM_STATUS_blanked t) = false)
    (hu : u = (s.advance (s.tim[t].gAt + len - s.tmb.clk)).setTim t { s.tim[t] with
      gate := s.tim[t].gate + 1, gAt := s.tim[t].gAt + len, gBad := s.tim[t].gBad.take 4 }) :
    s.timGateEnd t = u.gateResult t s.tim[t].gate := by
  have hcsr := s.advance_csr (s.tim[t].gAt + len - s.tmb.clk)
  have htim : (s.advance (s.tim[t].gAt + len - s.tmb.clk)).tim[t] = s.tim[t] := by rw [State.advance_tim]
  rw [State.timGateEnd, if_pos ⟨hst, hk⟩, ← hlen, State.advanceTo, State.timGates_one ((State.get_congr hcsr _).trans hst)
    ((State.get_congr hcsr _).trans hk) (hlen.trans (by rw [State.rn_congr hcsr])) hpos
    (by rw [State.advance_tmb_clk hrun, htim]; omega) (by rw [htim, hp]) ((State.on_congr hcsr _).trans hbl), htim, hu]

/-- A gate with no edge of its own gives nothing. -/
theorem State.gateResult_none {t : Fin 32} {g : Nat} (h : s.tim[t].gFirst = none ∨ s.tim[t].gOf ≠ g) : s.gateResult t g = s := by
  unfold State.gateResult
  dsimp only
  split
  case h_1 a b ha hb => exact if_pos (h.resolve_left fun hnone => Option.some_ne_none a (ha.symm.trans hnone))
  case h_2 => rfl

/-- A gate that nothing spoilt gives the distance of its last from its first measured edge. -/
theorem State.gateResult_some {t : Fin 32} {g : Nat} {a b : Int × Nat} (ha : s.tim[t].gFirst = some a) (hb : s.tim[t].gLast = some b)
    (hof : s.tim[t].gOf = g) (hbad : s.tim[t].gBad.contains g = false) (hfit : edgeDiff b.1 a.1 ≤ 0xFFFFFFFF) :
    s.gateResult t g = (s.setTim t { s.tim[t] with gFirst := none, gLast := none }).timProduce t (edgeDiff b.1 a.1).toNat
      s.tim[t].gFalling s.tim[t].gRange (s.tim[t].gCal || s.calStale (16 + t)) false (b.2 - a.2) := by
  simp only [State.gateResult, ha, hb, hof, hbad, Int.not_lt.mpr hfit, ne_eq, not_true_eq_false, if_false, decide_false,
    Bool.false_eq_true, Bool.or_false]

end

/-! ## Histograms (R285, R286) -/

section
variable {s u : State} {q : Fin 4} {k w b : Nat} {l : List (Nat × Nat)} {t : Fin 32} {d v : Int}
  (hx : s.x7[q] = (k, w) :: l) (ht : t = ⟨k % 32, Nat.mod_lt _ (by decide)⟩) (hu : u = { s with x7 := s.x7.set q l })
  (hv : v = (if w / 2 ^ 44 % 16 = 2 then toSigned 32 w else (w % 2 ^ 32 : Nat)))
  (hd : d = (if s.rn (TIM_HIST_FOLD t) = 0 then v else v % (s.rn (TIM_HIST_FOLD t) : Int)) - toSigned 32 (s.rn (TIM_HIST_OFS t)))
  (hb : b = d.toNat / 2 ^ s.get (TIM_HIST_CTL_shift t))
include hx ht hu hv hd hb

/-- The result of X7 that is taken counts as its difference says. -/
theorem State.timHistUpdate_cons : s.timHistUpdate q =
    if s.on (TIM_HIST_CTL_busy t) then (u.count (TIM_HIST_DROP t)).timFlag t (TIM_STATUS_hist_drop t) 2 51
    else if d < 0 then u.count (TIM_HIST_UNDER t)
    else if 4096 ≤ b then u.count (TIM_HIST_OVER t)
    else if s.rn (TIM_HIST_BIN t b) ≠ 0xFFFFFFFF then u.count (TIM_HIST_BIN t b)
    else u.timFlag t (TIM_STATUS_hist_drop t) 2 51 := by
  subst hb hd hv hu ht
  simp only [State.timHistUpdate, hx]

end

/-! ### The addresses of a channel's histogram -/

theorem locate_timHistBin (t : Fin 32) {b : Nat} (hb : b < 4096) : locate (TIM_HIST_BIN t b) = some (.tbins, t.val, 4 * b) := by
  have ht := t.isLt
  have hq : (TIM_HIST_BIN t b - 0x01000000) / 0x400000 = t.val / 8 := by simp only [TIM_HIST_BIN, BIN, QWIN]; omega
  have hw : (TIM_HIST_BIN t b - 0x01000000) % 0x400000 = 0x1A0000 + 0x4000 * (t.val % 8) + 4 * b := by
    simp only [TIM_HIST_BIN, BIN, QWIN]; omega
  have hlo : 0x01000000 ≤ TIM_HIST_BIN t b := by simp only [TIM_HIST_BIN, BIN, QWIN]; omega
  have hhi : TIM_HIST_BIN t b < 0x02000000 := by simp only [TIM_HIST_BIN, BIN, QWIN]; omega
  rw [locate, if_neg (by omega), if_neg (by omega), if_neg (by omega), if_neg (by omega), if_pos ⟨hlo, hhi⟩, hq, hw, locateQuad,
    if_neg (by omega), if_neg (by omega), if_pos (by omega), if_neg (by omega), if_neg (by omega), if_pos (by omega)]
  simp only [Option.some.injEq, Prod.mk.injEq, true_and]
  omega

/-- A bin reads 0 after reset. -/
theorem regReset_timHistBin (t : Fin 32) {b : Nat} (hb : b < 4096) : regReset (TIM_HIST_BIN t b) = 0 := by
  cases hr : regAt (TIM_HIST_BIN t b) with
  | none => exact regReset_of_regAt_eq_none hr
  | some x =>
    have hfound := hr
    rw [regAt, locate_timHistBin t hb] at hfound
    obtain ⟨r, hfind, rfl⟩ := Option.map_eq_some_iff.mp hfound
    have hreset : r.resetBits = 0 :=
      (by decide : ∀ r ∈ Blk.tbins.regs, r.resetBits = 0) r (List.mem_of_find?_eq_some hfind)
    rw [regReset_of_regAt hr]
    exact congrArg (BitVec.ofNat 32) hreset

/-! ### The clear -/

section
variable {s : State} {t : Fin 32}

theorem State.timHistClear_written {r : Reg} {v : Word} {a : Nat} (h : bit v.toNat 1 = true) :
    s.timWrite t 0x050 a r v = (s.plainWrite a r (if s.timActive t then keepBits s a 8 5 v else v)).put (TIM_HIST_CTL_busy t) 1 := by
  simp only [State.timWrite, State.histCtl, State.timHistClear, h, show ¬ 0x050 = 0 by decide, if_false, if_true]

theorem locate_timHistCtl : ∀ t : Fin 32, locate (TIM_HIST_CTL t) = some (.tim, t.val, 0x050) := by decide

theorem State.clockAt_timHistCtl : s.clockAt (TIM_HIST_CTL t) = none := by
  rw [State.clockAt, locate_timHistCtl]

theorem exec_timHistClear {v : Word} {r : Reg} (he : s.csrError (TIM_HIST_CTL t) true = false) (hw : s.waits = [])
    (hr : regAt (TIM_HIST_CTL t) = some (.tim, t.val, 0x050, r)) :
    exec (.timHistClear t v) s = .next (s.timWrite t 0x050 (TIM_HIST_CTL t) r (withBit v 1 true)) := by
  have hfreeze := (by decide : ∀ t : Fin 32, isFreezeCtl (TIM_HIST_CTL t) = false) t
  have hclock := (by decide : ∀ t : Fin 32, isClockCtl (TIM_HIST_CTL t) = false) t
  have hclk : s.clockWaits (TIM_HIST_CTL t) = false := by rw [State.clockWaits, State.clockAt_timHistCtl]
  have hblk : Fin.ofNat 32 t.val = t := Fin.ext (Nat.mod_eq_of_lt t.isLt)
  refine congrArg finish ?_
  rw [State.regCmd_of_plain he hfreeze hclock,
    State.regWrite_of_goes hw he (State.writeWaits_of_clockWaits_eq_false hclk) hr, State.csrPut, if_neg (by decide), if_neg (by decide),
    State.blkWrite, hblk]

section
variable {u : State} (hwf : cellsWf regReset s.csr = true)
  (hu : u = (((State.wn { s with
    csr := cellsClear (fun k => decide (TIM_HIST_BIN t 0 ≤ k) && decide (k < TIM_HIST_BIN t 0 + 0x4000)) s.csr } (TIM_HIST_UNDER t) 0).wn
    (TIM_HIST_OVER t) 0).put (TIM_HIST_CTL_busy t) 0))
include hwf hu

theorem State.histCleared_busy : u.get (TIM_HIST_CTL_busy t) = 0 := by
  have hwf' := cellsClear_wf (p := fun k => decide (TIM_HIST_BIN t 0 ≤ k) && decide (k < TIM_HIST_BIN t 0 + 0x4000)) hwf
  rw [hu, State.get_put_self (State.wn_csr_wf (State.wn_csr_wf hwf')) (show 2 + 1 ≤ 32 by decide), Nat.zero_mod]

theorem State.histCleared_bin {b : Nat} (hb : b < 4096) : u.rn (TIM_HIST_BIN t b) = 0 := by
  have ht := t.isLt
  have hwf' := cellsClear_wf (p := fun k => decide (TIM_HIST_BIN t 0 ≤ k) && decide (k < TIM_HIST_BIN t 0 + 0x4000)) hwf
  have hctl : TIM_HIST_BIN t b ≠ TIM_HIST_CTL t := by simp only [TIM_HIST_BIN, TIM_HIST_CTL, TIM, BIN]; omega
  have hover : TIM_HIST_BIN t b ≠ TIM_HIST_OVER t := by simp only [TIM_HIST_BIN, TIM_HIST_OVER, TIM, BIN]; omega
  have hunder : TIM_HIST_BIN t b ≠ TIM_HIST_UNDER t := by simp only [TIM_HIST_BIN, TIM_HIST_UNDER, TIM, BIN]; omega
  have hin : (decide (TIM_HIST_BIN t 0 ≤ TIM_HIST_BIN t b) && decide (TIM_HIST_BIN t b < TIM_HIST_BIN t 0 + 0x4000)) = true := by
    simp [TIM_HIST_BIN]
    omega
  rw [hu, State.rn_put_ne (State.wn_csr_wf (State.wn_csr_wf hwf')) hctl, State.rn_wn_ne (State.wn_csr_wf hwf') hover,
    State.rn_wn_ne hwf' hunder, State.rn, State.rd, cellsGet_clear hwf, if_pos hin, regReset_timHistBin t hb]
  rfl

theorem State.histCleared_under : u.rn (TIM_HIST_UNDER t) = 0 := by
  have hwf' := cellsClear_wf (p := fun k => decide (TIM_HIST_BIN t 0 ≤ k) && decide (k < TIM_HIST_BIN t 0 + 0x4000)) hwf
  have hctl : TIM_HIST_UNDER t ≠ TIM_HIST_CTL t := by simp [TIM_HIST_UNDER, TIM_HIST_CTL]
  have hover : TIM_HIST_UNDER t ≠ TIM_HIST_OVER t := by simp [TIM_HIST_UNDER, TIM_HIST_OVER]
  rw [hu, State.rn_put_ne (State.wn_csr_wf (State.wn_csr_wf hwf')) hctl, State.rn_wn_ne (State.wn_csr_wf hwf') hover,
    State.rn_wn_self hwf' (by decide)]

end
end

/-- Settles O28: at the end of its time one gate has ended, and its edges decide what it gives; a result of X7 counts where its difference
falls; the end of a clear is a clear of the bins' cells. -/
theorem gatesAndHistograms : Obligations.GatesAndHistograms := by
  refine ⟨?gates, fun s u q k w b l t d v hx ht hu hv hd hb => ⟨?drop, fun hfree => ⟨?below, ?above, ?bin⟩⟩, fun s u t => ⟨?clear, ?done⟩⟩
  case gates =>
    intro s u t len hrun hst hk hlen hpos hclk hp hbl hu
    have hend := State.timGateEnd_one hrun hst hk hlen hpos hclk hp hbl hu
    have hut : u.tim[t] = { s.tim[t] with
        gate := s.tim[t].gate + 1, gAt := s.tim[t].gAt + len, gBad := s.tim[t].gBad.take 4 } := by
      rw [hu, State.setTim_tim_self]
    refine ⟨fun hnone => ?none, fun a b ha hb hof hbad hfit => ?some⟩
    case none =>
      refine congrArg (fun x : State => finishSync (x.serveSource (timTaskSource t))) (hend.trans (State.gateResult_none ?_))
      rw [hut]
      exact hnone
    case some =>
      refine congrArg (fun x : State => finishSync (x.serveSource (timTaskSource t))) (hend.trans (State.gateResult_some ?_ ?_ ?_ ?_ hfit))
      · rw [hut]; exact ha
      · rw [hut]; exact hb
      · rw [hut]; exact hof
      · rw [hut]; exact hbad
  case drop =>
    intro hbusy
    exact congrArg finish ((State.timHistUpdate_cons hx ht hu hv hd hb).trans (if_pos hbusy))
  case below =>
    intro hneg
    refine congrArg finish ((State.timHistUpdate_cons hx ht hu hv hd hb).trans ?_)
    rw [if_neg (by simp [hfree]), if_pos hneg]
  case above =>
    intro hpos hb'
    refine congrArg finish ((State.timHistUpdate_cons hx ht hu hv hd hb).trans ?_)
    rw [if_neg (by simp [hfree]), if_neg (Int.not_lt.mpr hpos), if_pos hb']
  case bin =>
    intro hpos hb' hfull
    refine congrArg finish ((State.timHistUpdate_cons hx ht hu hv hd hb).trans ?_)
    rw [if_neg (by simp [hfree]), if_neg (Int.not_lt.mpr hpos), if_neg (Nat.not_le.mpr hb'), if_pos hfull]
  case clear =>
    intro v r he hw hr
    rw [exec_timHistClear he hw hr, State.timHistClear_written (by simp [bit_withBit])]
  case done =>
    intro hbusy hs hu
    have hwf := State.csr_wf_of_canonical hs
    refine ⟨congrArg finish ?_, State.histCleared_busy hwf hu, fun b hb => State.histCleared_bin hwf hu hb,
      State.histCleared_under hwf hu, by rw [hu]; rfl⟩
    rw [State.timHistClearDone, if_pos hbusy, hu]

end Sys2Proof.Machine
end

section
/-! PROOFS. The precision level DACs: writes of their codes, group loads, holds and the current limit (R305 to R308). -/

namespace Sys2Proof.Machine

/-! ## A load (R306) -/

section
variable {s : State} {u : Fin 16} {c : Nat} {x : PdacH}
  (hx : x = { s.pdac[u] with ofs := (s.pdacCal u).1, gain := (s.pdacCal u).2 })
include hx

theorem State.pdacLoad_free (hp : s.pdac[u].pend = none) : s.pdacLoad u c =
    if c = s.get (PDC_OUT_code u) then s
    else if c / 1024 = s.get (PDC_OUT_code u) / 1024 then (s.put (PDC_OUT_code u) c).setPdac u x
    else (s.put (PDC_STATUS_hold u) 1).setPdac u { x with pend := some c } := by
  subst hx
  simp only [State.pdacLoad, hp, pdacSegs]

theorem State.pdacLoad_holding (hp : s.pdac[u].pend ≠ none) : s.pdacLoad u c =
    if c / 1024 = s.get (PDC_OUT_code u) / 1024 then
      ((s.put (PDC_OUT_code u) c).put (PDC_STATUS_hold u) 0).setPdac u { x with pend := none }
    else (s.count (PDC_HOLD_RESTART u)).setPdac u { x with pend := some c } := by
  obtain ⟨k, hk⟩ := Option.ne_none_iff_exists'.mp hp
  subst hx
  simp only [State.pdacLoad, hk, pdacSegs]
  rfl

end

/-- A write of PDC_CODE stages the code, and in mode 0 loads it (R305). -/
theorem State.pdacCode_eq {s w : State} {u : Fin 16} {c : BitVec 16}
    (hw : w = (if s.inTbCycle s.pdac[u].wrAt then s else s.setPdac u { s.pdac[u] with
      wrAt := s.tbCycle, wrOld := s.get (PDC_CODE_code u) }).put (PDC_CODE_code u) c.toNat) :
    s.pdacCode u c.toNat = if s.get (PDC_CTL_mode u) = 0 then w.pdacLoad u c.toNat else w := by
  subst hw
  simp only [State.pdacCode, Nat.mod_eq_of_lt (show c.toNat < 65536 from c.isLt)]

theorem State.pdacCode_pend {s w : State} {u : Fin 16} {c : BitVec 16}
    (hw : w = (if s.inTbCycle s.pdac[u].wrAt then s else s.setPdac u { s.pdac[u] with
      wrAt := s.tbCycle, wrOld := s.get (PDC_CODE_code u) }).put (PDC_CODE_code u) c.toNat) :
    w.pdac[u].pend = s.pdac[u].pend := by
  subst hw
  split
  · rfl
  · simp [State.setPdac]

/-! ## A group load, one PDAC at a time (R305) -/

/-- A group load as it goes over PDAC `k`. -/
def State.pdacGroupStep (g : Nat) (edge : Bool) (s : State) (k : Fin 16) : State :=
  if s.get (PDC_CTL_mode k) = 1 ∧ s.get (PDC_CTL_group k) = g ∧
      !s.inTbCycle (s.pdac[k].loadAt.bind fun l => if l.2 = edge then none else some l.1) then
    (s.pdacLoad k (if edge && s.inTbCycle s.pdac[k].wrAt then s.pdac[k].wrOld else s.get (PDC_CODE_code k))).pdacLoaded k edge
  else s

theorem State.pdacGroup_eq (s : State) (g : Nat) (edge : Bool) :
    s.pdacGroup g edge = (List.finRange 16).foldl (State.pdacGroupStep g edge) s := rfl

/-- The registers of the PDACs other than `u`. -/
def OtherPdac (u : Fin 16) (a : Nat) : Prop := ∃ k : Fin 16, k ≠ u ∧ PDC k ≤ a ∧ a < PDC k + 0x40

theorem not_otherPdac_window {u : Fin 16} {a : Nat} (h : PDC u ≤ a) (h' : a < PDC u + 0x40) : ¬ OtherPdac u a := by
  rintro ⟨k, hne, hk, hk'⟩
  have hval : k.val ≠ u.val := fun h => hne (Fin.ext h)
  have := k.isLt
  have := u.isLt
  simp only [PDC, QWIN] at h h' hk hk'
  omega

theorem not_otherPdac_low {u : Fin 16} {a : Nat} (h : a < 0x01000000) : ¬ OtherPdac u a := by
  rintro ⟨k, -, hk, -⟩
  simp only [PDC, QWIN] at hk
  omega

/-- Two states agree in all that a load of PDAC `u` reads or writes: `t` may differ from `s` in the other PDACs. -/
structure SamePdac (u : Fin 16) (s t : State) : Prop where
  wf : cellsWf regReset s.csr = true
  wf' : cellsWf regReset t.csr = true
  tmb : t.tmb = s.tmb
  pdac : t.pdac[u] = s.pdac[u]
  rn : ∀ a, ¬ OtherPdac u a → t.rn a = s.rn a

section
variable {u k : Fin 16} {s t : State}

theorem SamePdac.refl (h : cellsWf regReset s.csr = true) : SamePdac u s s := ⟨h, h, rfl, rfl, fun _ _ => rfl⟩

/-- A register of another PDAC may change. -/
theorem SamePdac.wnOther {a v : Nat} (h : SamePdac u s t) (ha : OtherPdac u a) : SamePdac u s (t.wn a v) where
  wf := h.wf
  wf' := State.wn_csr_wf h.wf'
  tmb := h.tmb
  pdac := h.pdac
  rn := fun b hb => (State.rn_wn_ne h.wf' fun (he : b = a) => hb (he ▸ ha)).trans (h.rn b hb)

theorem SamePdac.setOther {x : PdacH} (h : SamePdac u s t) (hk : k ≠ u) : SamePdac u s (t.setPdac k x) where
  wf := h.wf
  wf' := h.wf'
  tmb := h.tmb
  pdac := by
    rw [← h.pdac]
    have hne : k.val ≠ u.val := fun he => hk (Fin.ext he)
    simp [State.setPdac, Vector.getElem_set_ne, hne]
  rn := h.rn

/-- The same write of a register keeps the agreement. -/
theorem SamePdac.wn {a v : Nat} (h : SamePdac u s t) (hv : v < 2 ^ 32) : SamePdac u (s.wn a v) (t.wn a v) where
  wf := State.wn_csr_wf h.wf
  wf' := State.wn_csr_wf h.wf'
  tmb := h.tmb
  pdac := h.pdac
  rn := fun b hb => by
    by_cases hab : b = a
    · rw [hab, State.rn_wn_self h.wf' hv, State.rn_wn_self h.wf hv]
    · rw [State.rn_wn_ne h.wf' hab, State.rn_wn_ne h.wf hab, h.rn b hb]

theorem SamePdac.set {x : PdacH} (h : SamePdac u s t) : SamePdac u (s.setPdac u x) (t.setPdac u x) where
  wf := h.wf
  wf' := h.wf'
  tmb := h.tmb
  pdac := by simp [State.setPdac]
  rn := h.rn

section
variable (h : SamePdac u s t)
include h

theorem SamePdac.get {f : Fld} (hf : ¬ OtherPdac u f.addr) : t.get f = s.get f := by
  rw [State.get, h.rn _ hf, State.get]

theorem SamePdac.put {f : Fld} {v : Nat} (hf : ¬ OtherPdac u f.addr) (hw : f.lo + f.w ≤ 32) :
    SamePdac u (s.put f v) (t.put f v) := by
  rw [State.put, State.put, h.rn _ hf]
  exact h.wn (bitsPut_lt (s.rn_lt _) hw)

theorem SamePdac.count {a : Nat} (ha : ¬ OtherPdac u a) : SamePdac u (s.count a) (t.count a) := by
  rw [State.count, State.count, h.rn _ ha]
  exact h.wn (Nat.lt_of_le_of_lt (Nat.min_le_right _ _) (by decide))

theorem SamePdac.tbCycle : t.tbCycle = s.tbCycle := by
  rw [State.tbCycle, h.tmb, State.tbCycle]

theorem SamePdac.inTbCycle (c : Option Nat) : t.inTbCycle c = s.inTbCycle c := by
  rw [State.inTbCycle, h.tbCycle, State.inTbCycle]

theorem SamePdac.pdacCal : t.pdacCal u = s.pdacCal u := by
  have := u.isLt
  rw [State.pdacCal, h.get (not_otherPdac_low (by simp only [CAL_FACT_PDAC_OFS_ofs, CAL_FACT_PDAC_OFS, CAL]; omega)),
    h.get (not_otherPdac_low (by simp only [CAL_USER_PDAC_OFS_ofs, CAL_USER_PDAC_OFS, CAL]; omega)),
    h.rn _ (not_otherPdac_low (by simp only [CAL_FACT_PDAC_GAIN, CAL]; omega)),
    h.rn _ (not_otherPdac_low (by simp only [CAL_USER_PDAC_GAIN, CAL]; omega)), State.pdacCal]

/-- A load of `u` keeps the agreement. -/
theorem SamePdac.pdacLoad (c : Nat) : SamePdac u (s.pdacLoad u c) (t.pdacLoad u c) := by
  have hout : ¬ OtherPdac u (PDC_OUT_code u).addr := not_otherPdac_window (Nat.le_add_right _ _) (Nat.add_lt_add_left (by decide) _)
  have hstat : ¬ OtherPdac u (PDC_STATUS_hold u).addr := not_otherPdac_window (Nat.le_add_right _ _) (Nat.add_lt_add_left (by decide) _)
  have hrest : ¬ OtherPdac u (PDC_HOLD_RESTART u) := not_otherPdac_window (Nat.le_add_right _ _) (Nat.add_lt_add_left (by decide) _)
  have hput (v : Nat) : SamePdac u (s.put (PDC_OUT_code u) v) (t.put (PDC_OUT_code u) v) := h.put hout (show 0 + 16 ≤ 32 by decide)
  by_cases hp : s.pdac[u].pend = none
  · rw [State.pdacLoad_free rfl hp, State.pdacLoad_free rfl (h.pdac ▸ hp), h.get hout, h.pdac, h.pdacCal]
    split
    · exact h
    · split
      · exact (hput c).set
      · exact (h.put hstat (show 0 + 1 ≤ 32 by decide)).set
  · rw [State.pdacLoad_holding rfl hp, State.pdacLoad_holding rfl (h.pdac ▸ hp), h.get hout, h.pdac, h.pdacCal]
    split
    · exact ((hput c).put hstat (show 0 + 1 ≤ 32 by decide)).set
    · exact (h.count hrest).set

/-- A group load's step over `u` keeps the agreement. -/
theorem SamePdac.stepSelf (g : Nat) (edge : Bool) : SamePdac u (s.pdacGroupStep g edge u) (t.pdacGroupStep g edge u) := by
  have hctl : ¬ OtherPdac u (PDC_CTL u) := not_otherPdac_window (Nat.le_add_right _ _) (Nat.add_lt_add_left (by decide) _)
  have hcode : ¬ OtherPdac u (PDC_CODE u) := not_otherPdac_window (Nat.le_add_right _ _) (Nat.add_lt_add_left (by decide) _)
  rw [State.pdacGroupStep, State.pdacGroupStep, h.get (f := PDC_CTL_mode u) hctl, h.get (f := PDC_CTL_group u) hctl,
    h.get (f := PDC_CODE_code u) hcode, h.pdac, h.inTbCycle, h.inTbCycle]
  split
  · have hload := h.pdacLoad (if edge && s.inTbCycle s.pdac[u].wrAt then s.pdac[u].wrOld else s.get (PDC_CODE_code u))
    rw [State.pdacLoaded, State.pdacLoaded, hload.pdac, hload.tbCycle]
    exact hload.set
  · exact h

/-- A load of another PDAC is not seen. -/
theorem SamePdac.loadOther (hk : k ≠ u) (c : Nat) : SamePdac u s (t.pdacLoad k c) := by
  have hout : OtherPdac u (PDC_OUT k) := ⟨k, hk, Nat.le_add_right _ _, Nat.add_lt_add_left (by decide) _⟩
  have hstat : OtherPdac u (PDC_STATUS k) := ⟨k, hk, Nat.le_add_right _ _, Nat.add_lt_add_left (by decide) _⟩
  have hrest : OtherPdac u (PDC_HOLD_RESTART k) := ⟨k, hk, Nat.le_add_right _ _, Nat.add_lt_add_left (by decide) _⟩
  by_cases hp : t.pdac[k].pend = none
  · rw [State.pdacLoad_free rfl hp]
    split
    · exact h
    · split
      · exact (h.wnOther hout).setOther hk
      · exact (h.wnOther hstat).setOther hk
  · rw [State.pdacLoad_holding rfl hp]
    split
    · exact ((h.wnOther hout).wnOther hstat).setOther hk
    · exact (h.wnOther hrest).setOther hk

theorem SamePdac.stepOther (g : Nat) (edge : Bool) (hk : k ≠ u) : SamePdac u s (t.pdacGroupStep g edge k) := by
  unfold State.pdacGroupStep
  split
  · exact (h.loadOther hk _).setOther hk
  · exact h

theorem SamePdac.foldOther (g : Nat) (edge : Bool) {l : List (Fin 16)} (hl : u ∉ l) :
    SamePdac u s (l.foldl (State.pdacGroupStep g edge) t) :=
  List.foldlRecOn (motive := SamePdac u s) l _ h fun _ ha _ hk => ha.stepOther g edge fun he => hl (he ▸ hk)

end

/-- What a group load does to `u` is its step over `u`. -/
theorem SamePdac.pdacGroup (hs : cellsWf regReset s.csr = true) (g : Nat) (edge : Bool) :
    SamePdac u (s.pdacGroupStep g edge u) (s.pdacGroup g edge) := by
  obtain ⟨l, r, hlr⟩ := List.append_of_mem (List.mem_finRange u)
  obtain ⟨-, hnd, hdisj⟩ := List.nodup_append.mp (hlr ▸ List.nodup_finRange 16)
  have hl : u ∉ l := fun h => hdisj u h u List.mem_cons_self rfl
  rw [State.pdacGroup_eq, hlr, List.foldl_append, List.foldl_cons]
  exact (((SamePdac.refl hs).foldOther g edge hl).stepSelf g edge).foldOther g edge (List.nodup_cons.mp hnd).1

end

/-- Settles O30: whether a code is pending and whether the segments stay pick what a load does; a group load does to a PDAC what its step
over that PDAC does, for the steps over the others touch nothing that it reads. -/
theorem precisionLevelDacs : Obligations.PrecisionLevelDacs := by
  refine ⟨fun s w u c x => ⟨?code, ?holdEnd, ?group, ?matrix⟩, fun s u => ⟨?limit, rfl, ?off⟩⟩
  case code =>
    intro he hw hx
    have hexec (t : State) (h : s.pdacCode u c.toNat = t) : exec (.pdacCodeWrite u c) s = .next t :=
      congrArg finish ((State.atReg_of_csrError_eq_false _ he).trans h)
    have hcode := State.pdacCode_eq hw
    refine ⟨fun hmode => hexec _ (hcode.trans (if_neg hmode)), fun hmode => ?_⟩
    rw [if_pos hmode] at hcode
    rw [← State.pdacCode_pend hw]
    refine ⟨fun hp hsame => ?_, fun hp hne hseg => ?_, fun hp hseg => ?_, fun hp hseg => ?_, fun hp hseg => ?_⟩
    · rw [hexec _ hcode, State.pdacLoad_free hx hp, if_pos hsame]
    · rw [hexec _ hcode, State.pdacLoad_free hx hp, if_neg hne, if_pos hseg]
    · rw [hexec _ hcode, State.pdacLoad_free hx hp, if_neg fun h => hseg (by rw [← h]), if_neg hseg]
    · rw [hexec _ hcode, State.pdacLoad_holding hx hp, if_pos hseg]
    · rw [hexec _ hcode, State.pdacLoad_holding hx hp, if_neg hseg]
  case holdEnd =>
    intro k hk
    refine congrArg finish ?_
    simp only [State.pdacHoldEnd, hk]
  case group => exact fun q v he => congrArg finish (State.atReg_of_csrError_eq_false _ he)
  case matrix =>
    refine fun g => ⟨rfl, fun hs edge r hr => ?_⟩
    have hstep : r = s.pdacGroupStep g edge u := by
      rw [hr, State.pdacGroupStep]
      simp only [Bool.not_eq_true']
    have hsame := SamePdac.pdacGroup (u := u) (State.csr_wf_of_canonical hs) g edge
    rw [hstep]
    exact ⟨hsame.pdac, hsame.get (not_otherPdac_window (Nat.le_add_right _ _) (Nat.add_lt_add_left (by decide) _))⟩
  case limit =>
    intro hlim hen
    refine congrArg finish ?_
    simp [State.pdacLimit, hlim, hen]
  case off =>
    intro hlim hsc
    refine ⟨fun hcyc => congrArg finish ?_, fun hcyc => congrArg finish ?_⟩
    · simp only [State.pdacScOff, hlim, hsc, hcyc, and_self, if_true, Bool.false_eq_true, if_false]
    · simp only [State.pdacScOff, hlim, hsc, hcyc, and_self, if_true]

end Sys2Proof.Machine
end

section
/-! PROOFS. Writes of registers of the global blocks, which let nothing else go on and wait for no clocks; then the release of Hampers,
fail records and flow resets (R339, R348, R350). -/

namespace Sys2Proof.Machine

/-! ## Registers of the global blocks -/

theorem not_goes_of_global {a : Nat} (h : 0x10000 ≤ a) (h' : a < 0xA0000) : isFreezeCtl a = false ∧ isClockCtl a = false := by
  have hgo : a ∉ goRegisters := fun hmem => by
    have := (by decide : ∀ g ∈ goRegisters, g < 0x10000 ∨ 0xA0000 ≤ g) a hmem
    omega
  exact ⟨Bool.eq_false_iff.mpr fun hf => hgo (mem_goRegisters_of_isFreezeCtl hf),
    Bool.eq_false_iff.mpr fun hc => hgo (mem_goRegisters_of_isClockCtl hc)⟩

theorem locate_sch {a : Nat} (h : 0x70000 ≤ a) (h' : a < 0x80000) : locate a = some (.sch, 0, a - 0x70000) := by
  have hk : a / 0x10000 = 7 := by omega
  have ho : a % 0x10000 = a - 0x70000 := by omega
  rw [locate, if_pos (by omega), hk, ho]
  rfl

theorem State.clockWaits_sch (s : State) {a : Nat} (h : 0x70000 ≤ a) (h' : a < 0x80000) : s.clockWaits a = false := by
  rw [State.clockWaits, State.clockAt, locate_sch h h']

/-- A write of a register of the scheduler is made where no other waits. -/
theorem State.regCmd_sch {s : State} {a u o : Nat} {r : Reg} {v : Word} (h : 0x70000 ≤ a) (h' : a < 0x80000)
    (he : s.csrError a true = false) (hw : s.waits = []) (hr : regAt a = some (.sch, u, o, r)) (hp : pairAt .sch o ≠ some true)
    (hp' : pairHigh .sch o = false) : s.regCmd a v = s.schWrite o a r v := by
  obtain ⟨hfreeze, hclock⟩ := not_goes_of_global (show 0x10000 ≤ a by omega) (show a < 0xA0000 by omega)
  rw [State.regCmd_of_plain he hfreeze hclock,
    State.regWrite_of_goes hw he (State.writeWaits_of_clockWaits_eq_false (s.clockWaits_sch h h')) hr, State.csrPut, if_neg hp,
    if_neg (by rw [hp']; exact Bool.false_ne_true), State.blkWrite]

/-! ## Release of a Hamper (R348, R350) -/

section
variable {s : State} {i : Nat} {t : Task} (ht : s.task i = some t) (hr : s.releasable t = true)
include ht hr

/-- With no open session the flow stalls. -/
theorem State.hamperRelease_stall (hs : s.get (NET_SESS_STATUS_state (s.flowSession t.d.flow)) ≠ 2) : s.hamperRelease i =
    if t.d.flow < 256 then
      if s.on (SCH_FLOW_STATUS_stalled t.d.flow) then s else (s.put (SCH_FLOW_STATUS_stalled t.d.flow) 1).ev 455
    else s.ev 455 := by
  simp only [State.hamperRelease, ht, hr, if_pos hs, Bool.not_true, Bool.false_eq_true, if_false]

theorem State.hamperRelease_out (hs : s.get (NET_SESS_STATUS_state (s.flowSession t.d.flow)) = 2) {u x : State}
    (hu : u = s.putTask i { t with hseq := some s.sch.hseq })
    (hx : x = { u with sch := { u.sch with
      hseq := (s.sch.hseq + 1) % 2 ^ 32, out := u.sch.out ++ [(s.flowSession t.d.flow, i)] } }) :
    s.hamperRelease i = if t.d.flow < 256 then
      (((x.wn (SCH_FLOW_REL t.d.flow) ((x.rn (SCH_FLOW_REL t.d.flow) + 1) % 2 ^ 32)).put (SCH_FLOW_STATUS_stalled t.d.flow) 0).put
        (SCH_FLOW_STATUS_held t.d.flow)
        (((x.wn (SCH_FLOW_REL t.d.flow) ((x.rn (SCH_FLOW_REL t.d.flow) + 1) % 2 ^ 32)).put (SCH_FLOW_STATUS_stalled t.d.flow) 0).flowHeld
          t.d.flow))
      else x := by
  subst hx hu
  simp only [State.hamperRelease, ht, hr, hs, State.setSch, Bool.not_true, Bool.false_eq_true, if_false, ne_eq, not_true_eq_false]

end

/-! ## Fail records (R339) -/

section
variable {s : State} {p : Fin 8} {r : FailRec} {l : List FailRec} {n : Nat} (hf : s.port[p].fifo = r :: l)
  (hn : n = (s.rn (SCH_FRING_WR p) + 2 ^ 32 - s.rn (SCH_FRING_RD p)) % 2 ^ 32)
include hf hn

/-- What becomes of the oldest fail record of a port. -/
theorem State.failDrain_cons : s.failDrain p =
    if !s.failRingOk p then (s.setPort p { s.port[p] with fifo := l }).put SCH_STATUS_fring_bad 1
    else if n = 2 ^ s.get (SCH_FRING_SIZE_size p) then
      (((s.setPort p { s.port[p] with fifo := l, failOvf := true }).count (SCH_FRING_DROP p)).put SCH_STATUS_fail_drop 1).ev 453
    else
      ((s.setBytes (s.rn64 (SCH_FRING_BASE_LO p) + 32 * (s.rn (SCH_FRING_WR p) % 2 ^ s.get (SCH_FRING_SIZE_size p)))
        (r.bytes s.port[p].failOvf)).wn (SCH_FRING_WR p) ((s.rn (SCH_FRING_WR p) + 1) % 2 ^ 32)).setPort p
          { s.port[p] with fifo := l, failOvf := false } := by
  subst hn
  simp only [State.failDrain, hf]

end

/-! ## Flow resets (R348) -/

/-- The 64-bit values of the scheduler lie below its tables. -/
theorem pairAt_sch_of_le {o : Nat} (h : 0x400 ≤ o) : pairAt .sch o = none := by
  rw [pairAt, List.find?_eq_none.mpr, Option.map_none]
  intro x hx
  obtain ⟨hpos, hend⟩ := (by decide : ∀ x ∈ pairTable, 0 < x.2.2.2.1 ∧ (x.1 = .sch → x.2.1 + x.2.2.1 * x.2.2.2.1 ≤ 0x400)) x hx
  simp only [Bool.and_eq_true, decide_eq_true_eq, Nat.div_lt_iff_lt_mul hpos, not_and]
  intro ⟨⟨hb, _⟩, _⟩ hlt
  have := hend hb
  omega

theorem pairAt_flowCfg (f : Fin 256) :
    pairAt .sch (0x1000 + 16 * f.val) ≠ some true ∧ pairHigh .sch (0x1000 + 16 * f.val) = false := by
  rw [pairHigh, pairAt_sch_of_le (by omega), pairAt_sch_of_le (by omega)]
  simp

theorem State.schWrite_flowCfg (s : State) (f : Fin 256) (a : Nat) (r : Reg) (v : Word) :
    s.schWrite (0x1000 + 16 * f.val) a r v = s.flowCfg f.val a r v := by
  have hf : (0x1000 + 16 * f.val - 0x1000) / 16 = f.val := by omega
  rw [State.schWrite, if_neg (by omega), if_neg (by omega), if_neg (by omega), if_pos (by omega), hf]

/-- Settles O35: the session's state decides between a release and a stall, the ring's room what becomes of a fail record, and what the
flow holds whether its reset is made. -/
theorem hampersAndFails : Obligations.HampersAndFails := by
  refine fun s => ⟨fun slot t u ht hr hflow => ⟨?stallHost, ?outHost⟩, fun slot t ht hr hflow => ⟨?stall, ?stalled, ?out⟩,
    fun p r l n hf hn => ⟨?bad, ?full, ?room⟩, ?flow⟩
  case stallHost =>
    intro hs
    refine congrArg finish ?_
    rw [State.hamperRelease_stall ht hr hs, if_neg (Nat.not_lt.mpr hflow)]
  case outHost =>
    intro hs hu
    refine congrArg finish ?_
    rw [State.hamperRelease_out ht hr hs hu rfl, if_neg (Nat.not_lt.mpr hflow)]
  case stall =>
    intro hs hst
    refine congrArg finish ?_
    rw [State.hamperRelease_stall ht hr hs, if_pos hflow, hst]
    rfl
  case stalled =>
    intro hs hst
    refine congrArg finish ?_
    rw [State.hamperRelease_stall ht hr hs, if_pos hflow, if_pos hst]
  case out =>
    intro u x y hs hu hx hy
    refine congrArg finish ?_
    rw [State.hamperRelease_out ht hr hs hu hx, if_pos hflow, hy]
  case bad =>
    intro hok
    refine congrArg (fun a : State => finish (a.serveSource ⟨8 + p.val, by omega⟩)) ?_
    rw [State.failDrain_cons hf hn, hok]
    rfl
  case full =>
    intro hok hfull
    refine congrArg (fun a : State => finish (a.serveSource ⟨8 + p.val, by omega⟩)) ?_
    rw [State.failDrain_cons hf hn, hok, if_neg (by decide), if_pos hfull]
  case room =>
    intro hok hfull
    refine congrArg (fun a : State => finish (a.serveSource ⟨8 + p.val, by omega⟩)) ?_
    rw [State.failDrain_cons hf hn, hok, if_neg (by decide), if_neg hfull]
  case flow =>
    rintro f v r u he hw hr rfl
    have hlo : 0x70000 ≤ SCH_FLOW_CFG f := by simp only [SCH_FLOW_CFG, SCH]; omega
    have hhi : SCH_FLOW_CFG f < 0x80000 := by simp only [SCH_FLOW_CFG, SCH]; omega
    have hbit0 : bit (withBit v 1 true).toNat 0 = bit v.toNat 0 := by simp [bit_withBit]
    have hbit1 : bit (withBit v 1 true).toNat 1 = true := by simp [bit_withBit]
    refine congrArg finish ?_
    rw [State.regCmd_sch hlo hhi he hw hr (pairAt_flowCfg f).1 (pairAt_flowCfg f).2, State.schWrite_flowCfg, State.flowCfg,
      if_pos hbit1, hbit0, State.flowReset]

end Sys2Proof.Machine
end

section
/-! PROOFS. Read and write bursts of a near-store channel (R357 to R363, R368, R372). -/

namespace Sys2Proof.Machine

/-! ## Reads (R358, R359, R368, R372) -/

section
variable {s u v w : State} {c : Fin 4} {err : BitVec 640} {x : DmcCand} {l : List CwRead}
  (hrun : s.dmcRuns c = true) (hpick : s.dmcPick c false = some x) (hu : u = s.dmcServe c x)
include hrun hpick hu

/-- A granule that is not zeroed yet reads zeros. -/
theorem State.ddrReadComplete_fresh (hz : s.zeroed c x.tx.line = false) :
    s.ddrReadComplete c err = u.updateTx x.tx fun y => { y with answer := some (0, true) } := by
  subst hu
  simp only [State.ddrReadComplete, hrun, hpick, hz, Bool.not_true, Bool.not_false, Bool.false_eq_true, if_false, if_true]

section
variable (hl : l = s.lineRead c x.tx.line err) (hv : v = u.correctAll c x.tx.line x.tx.req 0 (corrections l))
  (hz : s.zeroed c x.tx.line = true)
include hl hv hz

theorem State.ddrReadComplete_data (hue : uncorrectables l = 0) :
    s.ddrReadComplete c err = v.updateTx x.tx fun y => { y with answer := some (s.readData x.tx.line err l, true) } := by
  subst hv hu hl
  simp only [State.ddrReadComplete, hrun, hpick, hz, hue, Bool.not_true, Bool.false_eq_true, if_false, if_true]

/-- An uncorrectable codeword freezes the channel; who asked decides whether the read fails or is held. -/
theorem State.ddrReadComplete_freeze (hw : w = v.freeze c x.tx.line x.tx.req 0 (uncorrectables l) (decide (corrections l ≠ [])))
    (hue : uncorrectables l ≠ 0) : s.ddrReadComplete c err =
      if x.tx.req < 20 then w.updateTx x.tx fun y => { y with answer := some (0, false) }
      else w.updateTx x.tx fun y => { y with cause := true } := by
  simp only [State.ddrReadComplete, hrun, hpick, hz, ← hu, ← hl, ← hv, ← hw, hue, Bool.not_true, Bool.false_eq_true, if_false]

end
end

/-! ## The code (R358) -/

section
variable {s : State} {c : Fin 4} {line k : Nat} {err : BitVec 640} {a b : Nat × Nat} {d : CwRead} (hk : k < 8)
  (hp : s.dmc[c].patterned.lookup (lineOf line) = none)
include hk hp

/-- A line that no pattern was put into reads by the code. -/
theorem State.lineRead_getD : (s.lineRead c line err).getD k d = cwRead true (s.rawLine c line) err.toNat k := by
  rw [State.lineRead, hp]
  simp [List.getD_eq_getElem?_getD, hk]

theorem State.lineRead_clean (h : errSyms err.toNat k = []) : (s.lineRead c line err).getD k d = .clean := by
  rw [State.lineRead_getD hk hp, cwRead, h]
  rfl

theorem State.lineRead_corrected (h : errSyms err.toNat k = [a]) : (s.lineRead c line err).getD k d = .corrected a.1 a.2 := by
  rw [State.lineRead_getD hk hp, cwRead, h]
  rfl

theorem State.lineRead_uncorrectable (h : errSyms err.toNat k = [a, b]) : (s.lineRead c line err).getD k d = .uncorrectable := by
  rw [State.lineRead_getD hk hp, cwRead, h]
  rfl

end

/-! ## Writes (R360, R363) -/

/-- The bytes that a write of a whole line, or of some of its bytes, leaves in memory. -/
theorem State.byte_writeIssued {s u v : State} {c : Fin 4} {x : DmcCand} (hwf : Memory.wf s.mem = true)
    (hu : u = (s.dmcServe c x).setLine x.tx.line (mergeLine (s.lineData x.tx.line) (x.tx.write.getD 0) x.tx.enables))
    (hv : v = u.updateTx x.tx (fun y => { y with answer := some (0, true) })) :
    (∀ i < 64, v.byte (lineOf x.tx.line + i) = if x.tx.enables.getLsbD i then (x.tx.write.getD 0).extractLsb' (8 * i) 8
      else s.byte (lineOf x.tx.line + i)) ∧
    ∀ a, a < lineOf x.tx.line ∨ lineOf x.tx.line + 64 ≤ a → v.byte a = s.byte a := by
  have hmem : (s.dmcServe c x).mem = s.mem := (keeps_mem s.mem).dmcServe rfl
  have hbyte (a : Nat) : v.byte a = u.byte a := by rw [hv, (OnFabric.updateTx u _ _).byte]
  have hserve (a : Nat) : s.byte a = (s.dmcServe c x).byte a := by rw [State.byte, ← hmem, State.byte]
  rw [← State.lineData_congr hmem] at hu
  rw [← hmem] at hwf
  refine ⟨fun i hi => ?_, fun a ha => ?_⟩
  · rw [hbyte, hu, State.byte_setLine_mergeLine hwf _ _ hi, hserve]
  · rw [hbyte, hu, State.byte_setLine_of_out hwf _ ha, hserve]

section
variable {s : State} {c : Fin 4} {err : BitVec 640} {x : DmcCand} (hrun : s.dmcRuns c = true) (hpick : s.dmcPick c true = some x)
include hrun hpick

theorem State.ddrWriteIssued_whole {u v : State} {n hi lo : Nat} (hen : partialWrite x.tx.enables = false)
    (hu : u = (s.dmcServe c x).setLine x.tx.line (mergeLine (s.lineData x.tx.line) (x.tx.write.getD 0) x.tx.enables))
    (hv : v = u.updateTx x.tx (fun y => { y with answer := some (0, true) }))
    (hn : n = ((v.dmcQueue c).filter fun y => y.write.isSome).length) (hhi : hi = max 8 (s.get (DMC_SCHED_CFG_wr_hi c)))
    (hlo : lo = (if hi ≤ s.get (DMC_SCHED_CFG_wr_lo c) then hi - 1 else s.get (DMC_SCHED_CFG_wr_lo c))) :
    s.ddrWriteIssued c err = v.setDmc c { v.dmc[c] with
      burst := s.inBurst c && decide (lo < n)
      patterned := v.dmc[c].patterned.filter fun y => decide (y.1 ≠ lineOf x.tx.line) } := by
  have hmem : (s.dmcServe c x).mem = s.mem := (keeps_mem s.mem).dmcServe rfl
  rw [← State.lineData_congr hmem] at hu
  subst hlo hhi hn hv hu
  simp only [State.ddrWriteIssued, hrun, hpick, hen, Bool.not_true, Bool.false_and, Bool.false_eq_true, if_false]

/-- The read of a read-modify-write that cannot be corrected freezes the channel. -/
theorem State.ddrWriteIssued_freeze (hen : partialWrite x.tx.enables = true)
    (hue : uncorrectables (s.lineRead c x.tx.line err) ≠ 0) : s.ddrWriteIssued c err =
      ((s.dmcServe c x).correctAll c x.tx.line x.tx.req 1 (corrections (s.lineRead c x.tx.line err))).freeze c x.tx.line x.tx.req 1
        (uncorrectables (s.lineRead c x.tx.line err)) (decide (corrections (s.lineRead c x.tx.line err) ≠ [])) := by
  simp only [State.ddrWriteIssued, hrun, hpick, hen, hue, Bool.not_true, Bool.true_and, Bool.false_eq_true, if_false, if_true, ne_eq,
    not_false_eq_true, decide_true]

end

/-- Settles O36: the decoder's verdict picks the branch of a read or of a write's own read; the issued write is a merge of its line, and
nothing else of its operation stores. -/
theorem nearAccesses : Obligations.NearAccesses := by
  refine ⟨⟨fun s u v w c err x l hrun hpick hu hl hv hw => ⟨?fresh, ?data, ?fails, ?held⟩,
    fun s c line err k a b hk hp => ⟨State.lineRead_clean hk hp, State.lineRead_corrected hk hp, State.lineRead_uncorrectable hk hp⟩⟩,
    fun s c err x hs hrun hpick => ⟨?whole, ?freeze⟩⟩
  case fresh =>
    exact fun hz => congrArg (fun t : State => finishSync t.netGo) (State.ddrReadComplete_fresh hrun hpick hu hz)
  case data =>
    exact fun hz hue => congrArg (fun t : State => finishSync t.netGo) (State.ddrReadComplete_data hrun hpick hu hl hv hz hue)
  case fails =>
    exact fun hz hue hreq => congrArg (fun t : State => finishSync t.netGo)
      ((State.ddrReadComplete_freeze hrun hpick hu hl hv hz hw hue).trans (if_pos hreq))
  case held =>
    exact fun hz hue hreq => congrArg (fun t : State => finishSync t.netGo)
      ((State.ddrReadComplete_freeze hrun hpick hu hl hv hz hw hue).trans (if_neg (Nat.not_lt.mpr hreq)))
  case whole =>
    intro u v n hi lo hen hu hv hn hhi hlo
    exact ⟨congrArg (fun t : State => finishSync t.netGo) (State.ddrWriteIssued_whole hrun hpick hen hu hv hn hhi hlo),
      State.byte_writeIssued (State.mem_wf_of_canonical hs) hu hv⟩
  case freeze =>
    exact fun hen hue => congrArg (fun t : State => finishSync t.netGo) (State.ddrWriteIssued_freeze hrun hpick hen hue)

end Sys2Proof.Machine
end

section
/-! PROOFS. Refresh, retraining, initialisation and the end of a training of a near-store channel (R365 to R370). -/

namespace Sys2Proof.Machine

section
variable {s : State} {c : Fin 4}

/-! ## Refresh (R365) -/

theorem State.ddrRefresh_issued {p : Bool} (h : (p && s.chanPanic c && decide (s.dmc[c].postponed < 4)) = false) :
    s.ddrRefresh c p = s.setDmc c { s.dmc[c] with
      postponed := 0, refBank := (s.dmc[c].refBank + 1) % 4
      rows := s.dmc[c].rows.filter fun r => decide (r.bank % 4 ≠ s.dmc[c].refBank) } := by
  simp only [State.ddrRefresh, h, Bool.false_eq_true, if_false]

theorem State.ddrRefresh_postponed (hp : s.chanPanic c = true) (hn : s.dmc[c].postponed < 4) : s.ddrRefresh c true =
    ((s.setDmc c { s.dmc[c] with postponed := s.dmc[c].postponed + 1 }).count (DMC_REF_POSTPONE_CNT c)).evIf
      (decide (s.dmc[c].postponed = 3)) (dmcSrc c 8) := by
  simp only [State.ddrRefresh, hp, hn, decide_true, Bool.and_self, if_true]

/-! ## Retraining rounds (R369, R370) -/

theorem State.retrainStep_waits {sub : Nat} {due : Nat} (hr : s.dmc[c].round = true) (hdue : due = s.dmc[c].stepDue.getD s.tmb.clk)
    (hp : s.chanPanic c = true) : s.retrainStep c sub false = s.setDmc c { s.dmc[c] with stepDue := some due } := by
  subst hdue
  simp only [State.retrainStep, hr, hp, Bool.not_true, Bool.not_false, Bool.and_self, Bool.false_eq_true, if_false, if_true]

/-- A step that panic does not keep waiting. -/
theorem State.retrainStep_made {sub : Fin 2} {late : Bool} {due : Nat} {u v : State} (hr : s.dmc[c].round = true)
    (hdue : due = s.dmc[c].stepDue.getD s.tmb.clk) (hp : s.chanPanic c = false ∨ late = true)
    (hu : u = (if s.chanPanic c then s.advanceTo (due + 1000000 * tuPerNs) else s))
    (hv : v = ((s.dmc[c].steps.lookup sub.val).elim u fun t => u.advanceTo (t + 10000 * tuPerNs))) :
    s.retrainStep c sub late = v.setDmc c { s.dmc[c] with
      rows := s.dmc[c].rows.filter fun r => decide (r.bank / 32 % 2 ≠ sub.val)
      stepDue := none, steps := (sub.val, v.tmb.clk) :: s.dmc[c].steps.filter fun x => decide (x.1 ≠ sub.val) } := by
  have hgo : ¬ (s.chanPanic c && !late) = true := by
    rcases hp with hp | rfl
    · simp [hp]
    · simp
  have hlast : (match s.dmc[c].steps.lookup sub.val with | some t => u.advanceTo (t + 10000 * tuPerNs) | none => u) = v := by
    rw [hv]
    cases s.dmc[c].steps.lookup sub.val <;> rfl
  simp only [State.retrainStep, hr, hgo, ← hdue, ← hu, Nat.mod_eq_of_lt sub.isLt, Bool.not_true, Bool.false_eq_true, if_false]
  rw [← hlast] <;> rfl

section
variable {eyes : List (Nat × Nat)} {u : State} (hr : s.dmc[c].round = true)
  (hu : u = (List.range 80).foldl (fun (a : State) l => (a.put (DMC_EYE_width c l) (min (eyes.getD l (0, 0)).1 1023)).put
    (DMC_EYE_height c l) (min (eyes.getD l (0, 0)).2 1023)) ((s.setDmc c { s.dmc[c] with round := false }).count (DMC_RETRAIN_CNT c)))
include hr hu

/-- A round whose eyes all reach the limits. -/
theorem State.retrainEnd_good (hgood : ∀ l < 80, s.get (DMC_RETRAIN_CFG_min_w c) ≤ (eyes.getD l (0, 0)).1 ∧
    2 * s.get (DMC_RETRAIN_CFG_min_h c) ≤ (eyes.getD l (0, 0)).2) : s.retrainEnd c eyes = u.put (DMC_STATUS_rt_fails c) 0 := by
  have hall : ((List.range 80).all fun l => decide (s.get (DMC_RETRAIN_CFG_min_w c) ≤ (eyes.getD l (0, 0)).1) &&
      decide (2 * s.get (DMC_RETRAIN_CFG_min_h c) ≤ (eyes.getD l (0, 0)).2)) = true := by
    rw [List.all_eq_true]
    intro l hl
    simpa using hgood l (List.mem_range.mp hl)
  simp only [State.retrainEnd, hr, hall, ← hu, Bool.not_true, Bool.false_eq_true, if_false, if_true]

/-- A round with an eye that is too narrow, the third in a row excepted. -/
theorem State.retrainEnd_narrow (hbad : ∃ l < 80, (eyes.getD l (0, 0)).1 < s.get (DMC_RETRAIN_CFG_min_w c))
    (hn : u.get (DMC_STATUS_rt_fails c) < 2) : s.retrainEnd c eyes =
      (((u.count (DMC_RETRAIN_FAIL_CNT c)).put (DMC_STATUS_rt_fails c) ((u.get (DMC_STATUS_rt_fails c)) + 1)).put
        (DMC_STATUS_rt_fail_seen c) 1).ev (dmcSrc c 3) := by
  have hall : ((List.range 80).all fun l => decide (s.get (DMC_RETRAIN_CFG_min_w c) ≤ (eyes.getD l (0, 0)).1) &&
      decide (2 * s.get (DMC_RETRAIN_CFG_min_h c) ≤ (eyes.getD l (0, 0)).2)) = false := by
    rw [List.all_eq_false]
    obtain ⟨l, hl, hlt⟩ := hbad
    exact ⟨l, List.mem_range.mpr hl, by rw [decide_eq_false (Nat.not_le.mpr hlt), Bool.false_and]; exact Bool.false_ne_true⟩
  have hmin : min 3 (u.get (DMC_STATUS_rt_fails c) + 1) = u.get (DMC_STATUS_rt_fails c) + 1 := by omega
  have hthird : u.get (DMC_STATUS_rt_fails c) + 1 ≠ 3 := by omega
  simp only [State.retrainEnd, hr, hall, ← hu, hmin, hthird, Bool.not_true, Bool.false_eq_true, if_false, false_and]

end

/-- Where no calibration run waits for the round, its end is all that happens. -/
theorem State.retrainRoundEnd_eq {eyes : List (Nat × Nat)} (hr : s.dmc[c].round = true) (hrun : s.cal.run ≠ some (72 + c.val)) :
    s.retrainRoundEnd c eyes = s.retrainEnd c eyes := by
  simp only [State.retrainRoundEnd, hr, hrun, Bool.not_true, Bool.false_eq_true, if_false]

/-! ## Initialisation (R368) -/

/-- With no write waiting and none done out of order, the next granule is zeroed. -/
theorem State.ddrInitGranule_next {u : State} (hst : s.get (DMC_STATUS_state c) = 2) (hon : s.domainOn (32 + c) = true)
    (hfr : s.on (DMC_STATUS_frozen c) = false) (hq : (s.dmcQueue c).find? (fun t => t.write.isSome && !s.zeroed c t.line) = none)
    (hdone : s.dmc[c].initDone = [])
    (hu : u = (s.wn (DMC_INIT_LEFT c) (s.rn (DMC_INIT_LEFT c) - 1)).setDmc c { s.dmc[c] with initNext := s.dmc[c].initNext + 1 }) :
    s.ddrInitGranule c = if s.rn (DMC_INIT_LEFT c) ≤ 1 then (u.put (DMC_STATUS_state c) 3).ev (dmcSrc c 6) else u := by
  simp only [hdone] at hu
  have hleft : s.rn (DMC_INIT_LEFT c) - 1 = 0 ↔ s.rn (DMC_INIT_LEFT c) ≤ 1 := by omega
  simp only [State.ddrInitGranule, hst, hon, hfr, hq, hdone, List.length_nil, Nat.zero_add, List.range_one, List.map_cons, List.map_nil,
    Nat.add_zero, List.contains_nil, Bool.not_false, List.find?_cons_of_pos, Option.getD_some, List.filter_nil, ← hu, hleft,
    ne_eq, not_true_eq_false, decide_false, Bool.not_true, Bool.or_self, Bool.false_eq_true, if_false]

/-! ## The end of a training (R366, R367) -/

theorem State.failTxs_trainLeft (s : State) (p : FabTx → Bool) : (s.failTxs p).trainLeft = s.trainLeft := by
  obtain ⟨h, f, ht⟩ := OnFabric.failTxs s p
  rw [ht]

theorem State.initStart_trainLeft (s : State) (c : Fin 4) (first last : Nat) : (s.initStart c first last).trainLeft = s.trainLeft := by
  simp only [State.initStart]
  split <;> rfl

/-- A training that no DDR_FULL_TRAIN waits for is over with its own end. -/
theorem State.trainDone_alone {code lane : Nat} (hst : s.get (DMC_STATUS_state c) = 1) (hleft : s.trainLeft = []) :
    s.trainDone c code lane = (s.ddrTrainDone c code lane).smeDone 6 c := by
  simp only [State.trainDone, hst, hleft, List.head?_nil, reduceCtorEq, decide_false, Bool.false_eq_true, if_false, ne_eq,
    not_true_eq_false]

theorem State.ddrTrainDone_ok {code lane : Nat} {u w : State} (hst : s.get (DMC_STATUS_state c) = 1) (hleft : s.trainLeft = [])
    (h4 : code ≠ 4) (h5 : code ≠ 5) (hu : u = s.trainResult c 0 0xFF)
    (hw : w = (((u.zeroChan c).wn (DMC_CAPACITY c) (u.cfgUnits c)).put (DMC_STATUS_fenced c) 0).put (DMC_STATUS_rt_fails c) 0) :
    s.ddrTrainDone c code lane = (w.initStart c 0 (128 * u.cfgUnits c)).ev (dmcSrc c 5) := by
  have hnone : ((w.initStart c 0 (128 * u.cfgUnits c)).ev (dmcSrc c 5)).trainLeft = [] := by
    rw [State.ev_trainLeft, State.initStart_trainLeft, hw, hu]
    exact hleft
  simp only [State.ddrTrainDone, hst, h4, h5, ← hu, ← hw, ne_eq, not_true_eq_false, not_false_eq_true, decide_true, Bool.and_self, if_true,
    if_false]
  rw [hnone]

theorem State.ddrTrainDone_failed {code lane : Nat} {u : State} (hst : s.get (DMC_STATUS_state c) = 1) (hleft : s.trainLeft = [])
    (hcode : code = 4 ∨ code = 5) (hu : u = s.trainResult c code (if code = 4 then lane else 0xFF)) : s.ddrTrainDone c code lane =
      ((u.put (DMC_STATUS_state c) 4).failTxs fun t => decide (t.pool = c)).ev (dmcSrc c 5) := by
  have hnone : (((u.put (DMC_STATUS_state c) 4).failTxs fun t => decide (t.pool = c)).ev (dmcSrc c 5)).trainLeft = [] := by
    rw [State.ev_trainLeft, State.failTxs_trainLeft, hu]
    exact hleft
  have hok : (decide (code ≠ 4) && decide (code ≠ 5)) = false := by rcases hcode with rfl | rfl <;> rfl
  simp only [State.ddrTrainDone, hst, hok, ← hu, Bool.false_eq_true, if_false, ne_eq, not_true_eq_false]
  rw [hnone]

end

/-- Settles O37: each operation is the branch that the channel's state and panic leave. -/
theorem nearUpkeep : Obligations.NearUpkeep := by
  refine fun s c => ⟨?refresh, ?postponed, ?fourth, ?mr4, ?start, ?step, ?roundEnd, ?granule, ?train⟩
  case refresh => exact fun p h => congrArg finish (State.ddrRefresh_issued h)
  case postponed =>
    intro hp hn
    refine congrArg finish ?_
    rw [State.ddrRefresh_postponed hp (by omega), decide_eq_false (by omega)]
    rfl
  case fourth =>
    intro hp hn
    refine congrArg finish ?_
    rw [State.ddrRefresh_postponed hp (by omega), hn]
    rfl
  case mr4 =>
    intro v
    refine congrArg finish ?_
    rw [State.ddrMr4, Nat.mod_eq_of_lt v.isLt]
  case start =>
    intro hst hfr
    exact congrArg finish (if_pos ⟨hst, by rw [hfr]; rfl⟩)
  case step =>
    intro sub late due u v hr hdue
    exact ⟨fun hp => congrArg finish (State.retrainStep_waits hr hdue hp),
      fun hp hu hv => congrArg finish (State.retrainStep_made hr hdue hp hu hv)⟩
  case roundEnd =>
    intro eyes u hr hrun hu
    have hend := State.retrainRoundEnd_eq (eyes := eyes) hr hrun
    exact ⟨fun hgood => congrArg finish (hend.trans (State.retrainEnd_good hr hu hgood)),
      fun hbad hn => congrArg finish (hend.trans (State.retrainEnd_narrow hr hu hbad hn))⟩
  case granule =>
    intro hst hon hfr hq hdone u hu
    exact congrArg finish (State.ddrInitGranule_next hst hon hfr hq hdone hu)
  case train =>
    intro code lane u hst hleft
    have hne (k : BitVec 8) (h : code ≠ k) : code.toNat ≠ k.toNat := fun he => h (BitVec.eq_of_toNat_eq he)
    refine ⟨fun h4 h5 hu => ?_, fun hcode hu => ?_⟩
    · refine congrArg (fun t : State => finish t.netGo) ((State.trainDone_alone hst hleft).trans ?_)
      rw [State.ddrTrainDone_ok hst hleft (hne 4 h4) (hne 5 h5) hu rfl]
      rfl
    · refine congrArg (fun t : State => finish t.netGo) ((State.trainDone_alone hst hleft).trans ?_)
      rw [State.ddrTrainDone_failed hst hleft (hcode.imp (congrArg BitVec.toNat) (congrArg BitVec.toNat)) (u := u)]
      · rfl
      · rw [hu]
        rcases hcode with rfl | rfl <;> rfl

end Sys2Proof.Machine
end

section
/-! PROOFS. Frozen channels, diagnostic operations and retention (R374 to R376). -/

namespace Sys2Proof.Machine

/-! ## Operations that change registers only, or memory only -/

/-- From `s` to `t` only registers change. -/
def OnCsr (s t : State) : Prop := ∃ r : List (Nat × Word), t = { s with csr := r }

section
variable {s t u : State}

theorem OnCsr.refl (s : State) : OnCsr s s := ⟨s.csr, rfl⟩

theorem OnCsr.trans (hst : OnCsr s t) (htu : OnCsr t u) : OnCsr s u := by
  obtain ⟨r, rfl⟩ := hst
  obtain ⟨r', rfl⟩ := htu
  exact ⟨r', rfl⟩

theorem OnCsr.wn (s : State) (a v : Nat) : OnCsr s (s.wn a v) := ⟨_, rfl⟩

theorem OnCsr.put (s : State) (f : Fld) (v : Nat) : OnCsr s (s.put f v) := ⟨_, rfl⟩

theorem OnCsr.foldl {α : Type} {f : State → α → State} (hf : ∀ a x, OnCsr a (f a x)) (s : State) (l : List α) :
    OnCsr s (l.foldl f s) :=
  List.foldlRecOn (motive := OnCsr s) l f (.refl s) fun a ha x _ => ha.trans (hf a x)

theorem State.setBytes_eq (s : State) (a : Nat) (l : List Byte) : ∃ m : List Host.Cell, s.setBytes a l = { s with mem := m } := by
  induction l generalizing s a with
  | nil => exact ⟨s.mem, rfl⟩
  | cons b l ih =>
    obtain ⟨m, hm⟩ := ih (s.setByte a b) (a + 1)
    exact ⟨m, hm.trans rfl⟩

end

@[simp] theorem State.setLine_dmc (s : State) (a : Nat) (v : BitVec 512) : (s.setLine a v).dmc = s.dmc := by
  obtain ⟨m, hm⟩ := s.setBytes_eq (lineOf a) (leBytes v.toNat 64)
  rw [State.setLine, hm]

/-- A line filled with one byte. -/
theorem lineByte_pattern {p i : Nat} (hp : p < 256) (hi : i < 64) :
    lineByte (BitVec.ofNat 512 ((List.range 64).map fun i => p * 2 ^ (8 * i)).sum) i = BitVec.ofNat 8 p := by
  have hbyte : p = (BitVec.ofNat 8 p).toNat := (Nat.mod_eq_of_lt hp).symm
  have hsum : ((List.range 64).map fun i => p * 2 ^ (8 * i)).sum = ofLe ((List.range 64).map fun _ => BitVec.ofNat 8 p) := by
    rw [← sum_bytes_eq_ofLe, ← hbyte]
    simp only [Nat.mul_comm p]
  rw [hsum, lineByte_ofNat_ofLe (by simp) hi, List.getD_eq_getElem?_getD, List.getElem?_map, List.getElem?_range hi]
  rfl

/-! ## The start of a diagnostic operation (R375) -/

theorem bitsOf_two (x : Nat) : bitsOf x 0 2 = (bit x 0).toNat + 2 * (bit x 1).toNat := by
  have h0 : (bit x 0).toNat = x % 2 := by
    rw [bit, Nat.shiftRight_zero]
    rcases Nat.mod_two_eq_zero_or_one x with h | h <;> simp [h]
  have h1 : (bit x 1).toNat = x / 2 % 2 := by
    rw [bit, Nat.shiftRight_eq_div_pow]
    rcases Nat.mod_two_eq_zero_or_one (x / 2 ^ 1) with h | h <;> simp_all
  rw [h0, h1, bitsOf, Nat.shiftRight_zero]
  omega

section
variable {s : State} {c : Fin 4}

theorem locate_diagCtl : ∀ c : Fin 4, locate (DMC_DIAG_CTL c) = some (.dmc, c.val, 0x088) := by decide

theorem not_goes_diagCtl : ∀ c : Fin 4, isFreezeCtl (DMC_DIAG_CTL c) = false ∧ isClockCtl (DMC_DIAG_CTL c) = false := by decide

theorem State.clockWaits_diagCtl (s : State) (c : Fin 4) : s.clockWaits (DMC_DIAG_CTL c) = false := by
  rw [State.clockWaits, State.clockAt, locate_diagCtl]

/-- A write of DMC_DIAG_CTL whose low two bits are an operation starts it. -/
theorem State.regCmd_diagCtl {r : Reg} {v : Word} {op : Nat} (he : s.csrError (DMC_DIAG_CTL c) true = false) (hw : s.waits = [])
    (hr : regAt (DMC_DIAG_CTL c) = some (.dmc, c.val, 0x088, r)) (hop : bitsOf v.toNat 0 2 = op) (h12 : op = 1 ∨ op = 2) :
    s.regCmd (DMC_DIAG_CTL c) v = (s.plainWrite (DMC_DIAG_CTL c) r v).diagStart c op := by
  have hblk : Fin.ofNat 4 c.val = c := Fin.ext (Nat.mod_eq_of_lt c.isLt)
  rw [State.regCmd_of_plain he (not_goes_diagCtl c).1 (not_goes_diagCtl c).2,
    State.regWrite_of_goes hw he (State.writeWaits_of_clockWaits_eq_false (s.clockWaits_diagCtl c)) hr, State.csrPut,
    if_neg (by decide), if_neg (by decide), State.blkWrite, hblk, State.dmcWrite, if_neg (by decide), if_neg (by decide),
    if_pos rfl]
  dsimp only
  rw [hop, if_pos h12]

theorem State.diagStart_inRange {op line : Nat} (hl : line = lineOf (s.rn64 (DMC_DIAG_ADDR_LO c)))
    (hb : s.on (DMC_DIAG_CTL_busy c) = false) (hf : s.on (DMC_STATUS_frozen c) = true) (hlo : nearBase c ≤ line)
    (hhi : line < nearBase c + nearUnit * s.get (DMC_CAPACITY_units c)) :
    s.diagStart c op = ((s.put (DMC_DIAG_CTL_busy c) 1).put (DMC_DIAG_CTL_result c) 0).setDmc c { s.dmc[c] with
      diag := some (op, line, s.get (DMC_DIAG_CTL_pattern c)) } := by
  have hin : ¬ (line < nearBase c ∨ nearBase c + nearUnit * s.get (DMC_CAPACITY_units c) ≤ line) := by omega
  simp only [State.diagStart, hb, hf, ← hl, hin, Bool.not_true, Bool.false_eq_true, if_false]

/-! ## Its end -/

theorem OnCsr.showDiag (s : State) (c : Fin 4) (raw : Nat) (l : List CwRead) : OnCsr s (s.showDiag c raw l) :=
  (OnCsr.foldl (fun a _ => .wn a _ _) s _).trans
    (OnCsr.foldl (fun a _ => ((OnCsr.put a _ _).trans (.put _ _ _)).trans (.put _ _ _)) _ _)

/-- The raw words that a diagnostic operation shows. -/
theorem State.showDiag_raw (h : cellsWf regReset s.csr = true) {raw i : Nat} {l : List CwRead} (hi : i < 20) :
    (s.showDiag c raw l).rn (DMC_DIAG_RAW c i) = bitsOf raw (32 * i) 32 ∧ cellsWf regReset (s.showDiag c raw l).csr = true := by
  have hlt (k : Nat) : bitsOf raw (32 * k) 32 < 2 ^ 32 := Nat.mod_lt _ (Nat.two_pow_pos _)
  have hwords : cellsWf regReset ((List.range 20).foldl (fun (a : State) k => a.wn (DMC_DIAG_RAW c k) (bitsOf raw (32 * k) 32)) s).csr
      = true := List.foldlRecOn (motive := fun a : State => cellsWf regReset a.csr = true) _ _ h fun _ ha _ _ => State.wn_csr_wf ha
  have hraw : ((List.range 20).foldl (fun (a : State) k => a.wn (DMC_DIAG_RAW c k) (bitsOf raw (32 * k) 32)) s).rn (DMC_DIAG_RAW c i) =
      bitsOf raw (32 * i) 32 := by
    refine foldl_reaches (P := fun a : State => cellsWf regReset a.csr = true)
      (Q := fun a => a.rn (DMC_DIAG_RAW c i) = bitsOf raw (32 * i) 32) (List.mem_range.mpr hi) (fun a k ha => State.wn_csr_wf ha)
      (fun a ha => State.rn_wn_self ha (hlt i)) (fun a k ha hq => ?_) h
    by_cases hk : k = i
    · rw [hk, State.rn_wn_self ha (hlt i)]
    · rw [State.rn_wn_ne ha (by simp only [DMC_DIAG_RAW]; omega), hq]
  refine List.foldlRecOn (motive := fun a : State => a.rn (DMC_DIAG_RAW c i) = bitsOf raw (32 * i) 32 ∧ cellsWf regReset a.csr = true)
    _ _ ⟨hraw, hwords⟩ fun a ha k hk => ?_
  have hne : DMC_DIAG_RAW c i ≠ DMC_DIAG_SYN c k := by
    have := List.mem_range.mp hk
    simp only [DMC_DIAG_RAW, DMC_DIAG_SYN]
    omega
  obtain ⟨hval, hwf⟩ := ha
  refine ⟨?_, State.put_csr_wf (State.put_csr_wf (State.put_csr_wf hwf))⟩
  rw [State.rn_put_ne (State.put_csr_wf (State.put_csr_wf hwf)) hne, State.rn_put_ne (State.put_csr_wf hwf) hne,
    State.rn_put_ne hwf hne, hval]

/-- What a completed operation `op` on a line leaves in the channel and in memory: op 2 has written its pattern. -/
def State.diagStored (s : State) (c : Fin 4) (op line p : Nat) : State :=
  let s1 := s.setDmc c { s.dmc[c] with diag := none }
  if op = 2 then
    (s1.setLine line (BitVec.ofNat 512 ((List.range 64).map fun i => p * 2 ^ (8 * i)).sum)).setDmc c { s1.dmc[c] with
      patterned := (line, p) :: s1.dmc[c].patterned.filter fun y => decide (y.1 ≠ line) }
  else s1

section
variable {op line p : Nat}

theorem State.diagDone_eq (h : s.dmc[c].diag = some (op, line, p)) (err : BitVec 640) : s.diagDone c err =
    (((s.diagStored c op line p).showDiag c (BitVec.ofNat 640 ((s.diagStored c op line p).rawLine c line) ^^^ err).toNat
      ((s.diagStored c op line p).lineRead c line err)).put (DMC_DIAG_CTL_busy c) 0).put (DMC_DIAG_CTL_result c) 1 := by
  rw [State.diagDone, h]
  rfl

theorem State.setDmc_dmc_self (s : State) (c : Fin 4) (x : DmcH) : (s.setDmc c x).dmc[c] = x := by
  simp [State.setDmc]

theorem State.diagStored_diag : (s.diagStored c op line p).dmc[c].diag = none := by
  unfold State.diagStored
  dsimp only
  split
  · rw [State.setDmc_dmc_self, State.setDmc_dmc_self]
  · rw [State.setDmc_dmc_self]

theorem State.diagStored_csr : (s.diagStored c op line p).csr = s.csr := by
  unfold State.diagStored
  dsimp only
  split
  · rw [State.setDmc_csr, State.setLine_csr, State.setDmc_csr]
  · rfl

theorem State.diagStored_mem (h : op ≠ 2) : (s.diagStored c op line p).mem = s.mem := by
  unfold State.diagStored
  dsimp only
  rw [if_neg h]
  rfl

theorem State.rawLine_congr {t : State} (hm : t.mem = s.mem) (hp : t.dmc[c].patterned = s.dmc[c].patterned) (line : Nat) :
    t.rawLine c line = s.rawLine c line := by
  rw [State.rawLine, State.rawLine, hp, State.lineData_congr hm]

/-- An operation that writes no pattern reads the line as it is stored. -/
theorem State.diagStored_rawLine (h : op ≠ 2) : (s.diagStored c op line p).rawLine c line = s.rawLine c line := by
  refine State.rawLine_congr (State.diagStored_mem h) ?_ line
  unfold State.diagStored
  dsimp only
  rw [if_neg h, State.setDmc_dmc_self]

theorem State.diagStored_two_mem : ∃ x : DmcH, (s.diagStored c 2 line p).mem =
    ((s.setDmc c x).setLine line (BitVec.ofNat 512 ((List.range 64).map fun i => p * 2 ^ (8 * i)).sum)).mem := by
  refine ⟨{ s.dmc[c] with diag := none }, ?_⟩
  unfold State.diagStored
  dsimp only
  rw [if_pos rfl, State.setDmc_mem]

/-- A pattern write fills its line. -/
theorem State.byte_diagStored (hwf : Memory.wf s.mem = true) (hp : p < 256) {i : Nat} (hi : i < 64) :
    (s.diagStored c 2 line p).byte (lineOf line + i) = BitVec.ofNat 8 p := by
  obtain ⟨x, hx⟩ := State.diagStored_two_mem (s := s) (c := c) (line := line) (p := p)
  have hline := State.byte_setLine (s := s.setDmc c x) (a := line) hwf
    (BitVec.ofNat 512 ((List.range 64).map fun i => p * 2 ^ (8 * i)).sum) hi
  rw [State.byte, hx, ← State.byte, hline, lineByte_pattern hp hi]

/-- Beside its line it stores nothing. -/
theorem State.byte_diagStored_of_out (hwf : Memory.wf s.mem = true) {a : Nat} (ha : op ≠ 2 ∨ a < lineOf line ∨ lineOf line + 64 ≤ a) :
    (s.diagStored c op line p).byte a = s.byte a := by
  by_cases h : op = 2
  · subst h
    obtain ⟨x, hx⟩ := State.diagStored_two_mem (s := s) (c := c) (line := line) (p := p)
    have hline := State.byte_setLine_of_out (s := s.setDmc c x) hwf
      (BitVec.ofNat 512 ((List.range 64).map fun i => p * 2 ^ (8 * i)).sum) (ha.resolve_left fun h => h rfl)
    rw [State.byte, hx, ← State.byte, hline, State.byte, State.setDmc_mem, State.byte]
  · rw [State.byte, State.diagStored_mem h, State.byte]

theorem OnCsr.dmc {t : State} (h : OnCsr s t) : t.dmc = s.dmc := by
  obtain ⟨r, rfl⟩ := h
  rfl

theorem OnCsr.byte {t : State} (h : OnCsr s t) (a : Nat) : t.byte a = s.byte a := by
  obtain ⟨r, rfl⟩ := h
  rfl

theorem OnCsr.diagDone (h : s.dmc[c].diag = some (op, line, p)) (err : BitVec 640) : OnCsr (s.diagStored c op line p) (s.diagDone c err) := by
  rw [State.diagDone_eq h]
  exact ((OnCsr.showDiag _ _ _ _).trans (.put _ _ _)).trans (.put _ _ _)

/-- The result of the operation in its registers. -/
theorem State.diagDone_shown (h : s.dmc[c].diag = some (op, line, p)) (err : BitVec 640) (hwf : cellsWf regReset s.csr = true) :
    (s.diagDone c err).get (DMC_DIAG_CTL_busy c) = 0 ∧ (s.diagDone c err).get (DMC_DIAG_CTL_result c) = 1 ∧
      ∀ i < 20, (s.diagDone c err).rn (DMC_DIAG_RAW c i) =
        bitsOf (BitVec.ofNat 640 ((s.diagStored c op line p).rawLine c line) ^^^ err).toNat (32 * i) 32 := by
  rw [← State.diagStored_csr (c := c) (op := op) (line := line) (p := p)] at hwf
  have hraw (i : Nat) (hi : i < 20) := State.showDiag_raw (c := c) hwf
    (raw := (BitVec.ofNat 640 ((s.diagStored c op line p).rawLine c line) ^^^ err).toNat)
    (l := (s.diagStored c op line p).lineRead c line err) hi
  have hshown := (hraw 0 (by decide)).2
  have hbusy := State.put_csr_wf (f := DMC_DIAG_CTL_busy c) (v := 0) hshown
  rw [State.diagDone_eq h]
  refine ⟨?_, ?_, fun i hi => ?_⟩
  · rw [State.get_put_ne hbusy (show 3 + 2 ≤ 32 by decide) (.inr (.inl (show 2 + 1 ≤ 3 by decide))),
      State.get_put_self hshown (show 2 + 1 ≤ 32 by decide), Nat.zero_mod]
  · rw [State.get_put_self hbusy (show 3 + 2 ≤ 32 by decide)]
    rfl
  · have hne : DMC_DIAG_RAW c i ≠ DMC_DIAG_CTL c := by
      simp only [DMC_DIAG_RAW, DMC_DIAG_CTL]
      omega
    rw [State.rn_put_ne hbusy hne, State.rn_put_ne hshown hne, (hraw i hi).1]

end

/-! ## Retention (R376) -/

section
variable {err : BitVec 640} {line all half : Nat} {u : State} (hst : s.get (DMC_STATUS_state c) = 5) (hon : s.domainOn (32 + c) = true)
include hst hon

theorem State.retentionReturn_lost : s.retentionReturn c true err line =
    ((((s.zeroChan c).put (DMC_STATUS_state c) 4).put (DMC_STATUS_retain_lost c) 1).failTxs fun t => decide (t.pool = c)).ev
      (dmcSrc c 7) := by
  simp only [State.retentionReturn, hst, hon, ne_eq, not_true_eq_false, decide_false, Bool.not_true, Bool.or_self, Bool.false_eq_true,
    if_false, if_true]

/-- The initialiser starts on the ranks not retained; the read that is part of the return decides what else happens. -/
theorem State.retentionReturn_kept (hall : all = 128 * s.get (DMC_CAPACITY_units c)) (hhalf : half = all / s.dmc[c].ranks)
    (hu : u = s.initStart c (if bit (s.get (DMC_RETAIN_ranks c)) 0 then half else 0)
      (if s.dmc[c].ranks = 2 ∧ bit (s.get (DMC_RETAIN_ranks c)) 1 then half else all)) :
    s.retentionReturn c false err line =
      if uncorrectables (s.lineRead c line err) = 0 then
        (if err = 0 then u else u.draw.2.correctAll c line (u.draw.1.toNat % 32) 3 (corrections (s.lineRead c line err)))
      else (if err = 0 then u else u.draw.2.correctAll c line (u.draw.1.toNat % 32) 3 (corrections (s.lineRead c line err))).freeze c line
        (u.draw.1.toNat % 32) 3 (uncorrectables (s.lineRead c line err)) (decide (corrections (s.lineRead c line err) ≠ [])) := by
  have hcap : 2 * s.get (DMC_CAPACITY_units c) * 64 = all := by omega
  simp only [State.retentionReturn, hst, hon, hcap, ← hhalf, ← hu, ne_eq, not_true_eq_false, decide_false, Bool.not_true, Bool.or_self,
    Bool.false_eq_true, if_false]

end
end

/-- Settles O38: an operation that starts is the branch that the freeze and the range leave; at its end only registers change beyond the
line written; a return from retention is the initialiser's start and one read. -/
theorem frozenAndRetained : Obligations.FrozenAndRetained := by
  refine fun s c => ⟨?release, ?start, ?done, fun hst hon err line => ⟨?lost, fun all half u hall hhalf hu => ⟨?clean, ?frozen⟩⟩⟩
  case release =>
    intro he hf
    refine congrArg finish ((State.atReg_of_csrError_eq_false _ he).trans ?_)
    rw [State.freezeRelease, if_pos hf]
    rfl
  case start =>
    intro v r u line he hw hr hl hb hf hlo hhi
    refine ⟨fun hu => congrArg finish ?_, fun hu => congrArg finish ?_⟩
    · rw [State.regCmd_diagCtl he hw hr (op := 1) (by simp [bitsOf_two, bit_withBit]) (.inl rfl), ← hu,
        State.diagStart_inRange hl hb hf hlo hhi]
    · rw [State.regCmd_diagCtl he hw hr (op := 2) (by simp [bitsOf_two, bit_withBit]) (.inr rfl), ← hu,
        State.diagStart_inRange hl hb hf hlo hhi]
  case done =>
    intro err op line p hd hs
    have hmem := State.mem_wf_of_canonical hs
    have hcsr := OnCsr.diagDone hd err
    obtain ⟨hbusy, hresult, hraw⟩ := State.diagDone_shown hd err (State.csr_wf_of_canonical hs)
    refine ⟨s.diagDone c err, rfl, ?_, hbusy, hresult, fun hop hp i hi => ?_, fun a ha => ?_, fun hop i hi => ?_⟩
    · rw [hcsr.dmc, State.diagStored_diag]
    · subst hop
      rw [hcsr.byte, State.byte_diagStored hmem hp hi]
    · rw [hcsr.byte, State.byte_diagStored_of_out hmem ha]
    · rw [hraw i hi, State.diagStored_rawLine hop]
  case lost => exact congrArg finishSync (State.retentionReturn_lost hst hon)
  case clean =>
    intro hue
    refine congrArg finishSync ?_
    rw [State.retentionReturn_kept hst hon hall hhalf hu, if_pos hue, if_pos rfl]
  case frozen =>
    intro herr hue
    refine congrArg finishSync ?_
    rw [State.retentionReturn_kept hst hon hall hhalf hu, if_neg hue, if_neg herr]

end Sys2Proof.Machine
end

section
/-! PROOFS. The CXL host: control and setup of the halves (R384 to R386, R391, R392), and the transactions of the far store
(R388 to R392). -/

namespace Sys2Proof.Machine

/-! ## A write of CXH_CTL (R384, R386) -/

section
variable {s u : State} {v : Word} {r : Reg} {busy : Bool}

theorem State.clockWaits_cxhCtl (s : State) : s.clockWaits CXH_CTL = false := by
  rw [State.clockWaits, State.clockAt, show locate CXH_CTL = some (.cxh, 0, 0) by decide]

theorem State.regCmd_cxhCtl (he : s.csrError CXH_CTL true = false) (hw : s.waits = []) (hr : regAt CXH_CTL = some (.cxh, 0, 0x000, r)) :
    s.regCmd CXH_CTL v = (s.cxhCtl CXH_CTL r v).grantTags.netGo := by
  have hwrite : s.regWrite CXH_CTL v = s.cxhCtl CXH_CTL r v := by
    rw [State.regWrite_of_goes hw he (State.writeWaits_of_clockWaits_eq_false s.clockWaits_cxhCtl) hr, State.csrPut, if_neg (by decide),
      if_neg (by decide), State.blkWrite, if_pos rfl]
  rw [State.regCmd, if_neg (by rw [he]; exact Bool.false_ne_true), if_pos (by decide), hwrite]

section
variable (hb : busy = ([0, 1].any fun (h : Nat) => [1, 3, 4].contains (s.get (CXH_LINK_state h))))
  (hu : u = s.plainWrite CXH_CTL r (keepBits s CXH_CTL 0 1
    (if busy then keepBits s CXH_CTL 16 13 (keepBits s CXH_CTL 1 4 v) else v)))
include hb hu

theorem State.cxhCtl_enable (hen : s.on CXH_CTL_en = false) (h0 : bit v.toNat 0 = true) (h5 : bit v.toNat 5 = false) :
    s.cxhCtl CXH_CTL r v = u.cxlEnable := by
  simp only [State.cxhCtl, ← hb, ← hu, hen, h0, h5, Bool.not_false, Bool.and_self, if_true, Bool.false_eq_true, if_false]

theorem State.cxhCtl_disable (hen : s.on CXH_CTL_en = true) (h0 : bit v.toNat 0 = false) (h5 : bit v.toNat 5 = false) :
    s.cxhCtl CXH_CTL r v = u.cxlDisable := by
  simp only [State.cxhCtl, ← hb, ← hu, hen, h0, h5, Bool.not_false, Bool.false_and, Bool.and_self, if_true, Bool.false_eq_true, if_false]

theorem State.cxhCtl_reenum (hen : s.on CXH_CTL_en = bit v.toNat 0) (h5 : bit v.toNat 5 = true) :
    s.cxhCtl CXH_CTL r v = u.cxlReenum := by
  simp only [State.cxhCtl, ← hb, ← hu, hen, h5, Bool.and_not_self, Bool.not_and_self, if_true, Bool.false_eq_true, if_false]

end

theorem State.cxlEnable_off (h : s.domainOn 36 = false) : s.cxlEnable = s.put CXH_CTL_en 1 := by
  simp only [State.cxlEnable, h, Bool.false_eq_true, if_false]

theorem State.cxlEnable_on (h : s.domainOn 36 = true) : s.cxlEnable = (s.put CXH_CTL_en 1).cxlTrain := by
  simp only [State.cxlEnable, h, if_true]

end

/-! ## Setup of a half (R384, R385) -/

section
variable {s u : State} {h : Fin 2} {width speed fail cap records : Nat} {ide : Bool} (hst : s.get (CXH_LINK_state h) = 1)
include hst

theorem State.cxlSetup_failed (hstep : s.setupStep width speed fail ide ≠ 0)
    (hu : u = ((((s.put (CXH_LINK_fail_step h) (s.setupStep width speed fail ide)).put (CXH_LINK_width h) 0).put (CXH_LINK_speed h) 0).put
      (CXH_LINK_ide h) 0).put (CXH_LINK_degraded h) 0) : s.cxlSetup h width speed fail ide cap records =
      if s.cxh[h].windowOver then (u.halfEnter h 6).ev 321 else u.halfEnter h 2 := by
  simp only [State.cxlSetup, hst, hstep, ← hu, ne_eq, not_true_eq_false, not_false_eq_true, if_false, if_true]

theorem State.cxlSetup_up {mapped : Nat} {low : Bool} (hstep : s.setupStep width speed fail ide = 0)
    (hm : mapped = (if s.on CXH_CTL_bifurcate = false then min cap 4096 else if s.on CXH_CTL_interleave then min cap 2048
      else if h = 0 then min cap s.farBase1 else min cap (4096 - s.farBase1)))
    (hl : low = ((decide (speed < 2) && !s.on CXH_CTL_max_speed) || (!s.on CXH_CTL_bifurcate && decide (width < 16))))
    (hu : u = ((((s.put (CXH_LINK_fail_step h) 0).put (CXH_LINK_width h) (if width < 16 ∨ s.on CXH_CTL_bifurcate then 8 else 16)).put
      (CXH_LINK_speed h) (if s.on CXH_CTL_max_speed then 1 else speed)).put (CXH_LINK_ide h) (if ide then 1 else 0)).put
      (CXH_LINK_degraded h) (if low then 1 else 0)) : s.cxlSetup h width speed fail ide cap records =
      ((((u.put (CXH_CAP_gib h) mapped).cxlRecords records).halfEnter h 3).ev 320).evIf low 327 := by
  simp only [State.cxlSetup, hst, hstep, ← hl, ← hu, Bool.not_eq_true', ← hm, ne_eq, not_true_eq_false, if_false]

end

/-- Settles O39: the bits written pick what a write of the control does, and the state of the half what each event of its setup does. -/
theorem cxlHalves : Obligations.CxlHalves := by
  refine fun s u h => ⟨?control, ?failed, ?up, ?waiting, ?elsewhere, ?msix, ?back⟩
  case control =>
    intro v w r busy he hw hr hb hu
    have hwrite := State.regCmd_cxhCtl (v := w) he hw hr
    refine ⟨fun hen h5 hv => ?enable, fun hen h5 hv => ?disable, fun hen hv => ?reenum⟩
    case enable =>
      have hctl : s.cxhCtl CXH_CTL r w = u.cxlEnable :=
        State.cxhCtl_enable hb hu hen (by simp [hv, bit_withBit]) (by simpa [hv, bit_withBit] using h5)
      rw [hctl] at hwrite
      subst hv
      refine ⟨fun hon => congrArg finish ?_, fun hon => congrArg finish ?_⟩
      · rw [hwrite, State.cxlEnable_off hon]
      · rw [hwrite, State.cxlEnable_on hon, State.cxlTrain]
    case disable =>
      have hctl : s.cxhCtl CXH_CTL r w = u.cxlDisable :=
        State.cxhCtl_disable hb hu hen (by simp [hv, bit_withBit]) (by simpa [hv, bit_withBit] using h5)
      rw [hctl] at hwrite
      subst hv
      exact congrArg finishSync hwrite
    case reenum =>
      have hctl : s.cxhCtl CXH_CTL r w = u.cxlReenum :=
        State.cxhCtl_reenum hb hu (hen.trans (by simp [hv, bit_withBit])) (by simp [hv, bit_withBit])
      rw [hctl] at hwrite
      subst hv
      exact congrArg finish hwrite
  case failed =>
    intro width speed fail ide cap records hst hstep hu
    exact congrArg finish (State.cxlSetup_failed hst hstep hu)
  case up =>
    intro width speed fail ide cap records mapped low hst hstep hm hl hu
    exact congrArg finish (State.cxlSetup_up hst hstep hm hl hu)
  case waiting => exact fun hst => ⟨congrArg finish (if_pos hst), congrArg finish (if_pos hst)⟩
  case elsewhere => exact fun hst => congrArg finish (if_neg hst)
  case msix => exact fun hst => ⟨congrArg finish (if_pos hst), fun n => congrArg finish (if_pos hst)⟩
  case back => exact fun hst => congrArg finish (if_pos hst)

/-! ## Transactions (R388 to R390) -/

section
variable {s u : State} {n k : Nat} {t : FabTx}

section
variable (ht : (s.cxlFlight false)[n]? = some t) (hu : u = (if k = 0 then s else s.count CXH_REPLAY_CNT k))
include ht hu

theorem State.cxlMemData_late (hs : t.stale = true) (p : Bool) : s.cxlMemData n p k = { u with fab := u.fab.erase t } := by
  simp only [State.cxlMemData, ht, hs, ← hu, if_true]

theorem State.cxlMemData_behind (hs : t.stale = false) (hb : s.behindLine t = true) (p : Bool) : s.cxlMemData n p k = u := by
  simp only [State.cxlMemData, ht, hs, hb, ← hu, if_true, Bool.false_eq_true, if_false]

theorem State.cxlMemData_answered (hs : t.stale = false) (hb : s.behindLine t = false) (p : Bool) : s.cxlMemData n p k =
    if p then (((u.updateTx t fun y => { y with answer := some (0, false) }).count CXH_POISON_CNT).cxlErr 1 t).ev 325
    else u.updateTx t fun y => { y with answer := some (s.lineData t.line, true) } := by
  simp only [State.cxlMemData, ht, hs, hb, ← hu, Bool.false_eq_true, if_false]

end

theorem State.isSome_of_cxlFlight {w : Bool} (ht : (s.cxlFlight w)[n]? = some t) : t.write.isSome = w := by
  have hmem := List.mem_of_getElem? ht
  simp only [State.cxlFlight, List.mem_filter, Bool.and_eq_true, decide_eq_true_eq] at hmem
  obtain ⟨-, ⟨-, hw⟩, -⟩ := hmem
  exact hw

theorem State.cxlCmp_done (ht : (s.cxlFlight true)[n]? = some t) (hb : s.behindLine t = false) :
    s.cxlCmp n = (s.doWrite t).updateTx t fun y => { y with answer := some (0, true) } := by
  simp only [State.cxlCmp, ht, hb, Bool.false_eq_true, if_false]

/-- A write merges its line. -/
theorem State.doWrite_some {v : BitVec 512} (h : t.write = some v) :
    s.doWrite t = s.setLine t.line (mergeLine (s.lineData t.line) v t.enables) := by
  rw [State.doWrite, h]

/-! ### Time-outs (R389) -/

theorem OnFabric.tmb {a b : State} (h : OnFabric a b) : b.tmb = a.tmb := by
  obtain ⟨h, f, rfl⟩ := h
  rfl

theorem State.setCxh_setCxh (s : State) (h : Fin 2) (x y : CxhH) : (s.setCxh h x).setCxh h y = s.setCxh h y := by
  simp [State.setCxh]

theorem State.setCxh_cxh_self (s : State) (h : Fin 2) (x : CxhH) : (s.setCxh h x).cxh[h] = x := by
  simp [State.setCxh]

/-- A read in flight times out: it fails and keeps its tag, and the time-out is noted; 16 of them in 1 ms force Recovery. -/
theorem State.cxlReadTimeout_some {h : Fin 2} {l : List Nat} (ht : (s.cxlFlight false)[n]? = some t) (hs : t.stale = false)
    (hh : h.val = s.txHalf t)
    (hu : u = ((((((s.advanceTo (t.at_ + max 1 (s.get CXH_TMO_us) * 8192000000)).updateTx t fun y =>
      { y with answer := some (0, false), lost := true, noTag := true }).count CXH_TMO_CNT).cxlErr 2 t).ev 326).putTx
        { t with stale := true, dest := .other }))
    (hl : l = u.tmb.clk :: (u.cxh[h].timeouts.filter fun x => decide (u.tmb.clk < x + 8192000000000))) :
    s.cxlReadTimeout n = if 16 ≤ l.length then (u.setCxh h { u.cxh[h] with timeouts := [] }).cxlRecoveryEnter h
      else u.setCxh h { u.cxh[h] with timeouts := l } := by
  have hhalf : (⟨s.txHalf t % 2, Nat.mod_lt _ (by decide)⟩ : Fin 2) = h := Fin.ext (by rw [← hh]; exact Nat.mod_eq_of_lt h.isLt)
  have hus : max 1 (s.get CXH_TMO_us) * 1000 * tuPerNs = max 1 (s.get CXH_TMO_us) * 8192000000 := by
    simp only [tuPerNs]
    omega
  have hms : 1000000 * tuPerNs = 8192000000000 := rfl
  have hclk : (s.advanceTo (t.at_ + max 1 (s.get CXH_TMO_us) * 8192000000)).tmb.clk = u.tmb.clk := by
    rw [hu, (OnFabric.putTx _ _).tmb]
    exact congrArg (·.clk) (OnFabric.updateTx _ _ _).tmb.symm
  simp only [State.cxlReadTimeout, ht, hs, hus, ← hu, hhalf, hms, hclk, ← hl, State.setCxh_setCxh, State.setCxh_cxh_self,
    Bool.false_eq_true, if_false]

end

/-- Settles O40: what is in flight and whether it is late or behind an earlier request pick the branch; a completed write is a merge of
its line. -/
theorem farTransactions : Obligations.FarTransactions := by
  refine fun s => ⟨fun n k t u ht hu => ⟨?data, ?poison, ?behind, ?late⟩, ?cmp, ?timeout, fun h => ⟨?recovery, ?down⟩⟩
  case data =>
    intro hs hb
    exact congrArg (fun a : State => finish a.grantTags.netGo) (State.cxlMemData_answered ht hu hs hb false)
  case poison =>
    intro hs hb
    exact congrArg (fun a : State => finish a.grantTags.netGo) (State.cxlMemData_answered ht hu hs hb true)
  case behind =>
    exact fun hs hb p => congrArg (fun a : State => finish a.grantTags.netGo) (State.cxlMemData_behind ht hu hs hb p)
  case late => exact fun hs p => congrArg (fun a : State => finish a.grantTags.netGo) (State.cxlMemData_late ht hu hs p)
  case cmp =>
    intro n t ht hb hs u hu
    obtain ⟨v, hv⟩ := Option.isSome_iff_exists.mp (State.isSome_of_cxlFlight ht)
    have hmem := State.mem_wf_of_canonical hs
    rw [State.doWrite_some hv] at hu
    refine ⟨congrArg (fun a : State => finish a.netGo) ?_, fun i hi => ?_, fun a ha => ?_, ?_⟩
    · rw [State.cxlCmp_done ht hb, State.doWrite_some hv, hu]
    · rw [hu, State.byte_setLine_mergeLine hmem v _ hi, hv]
      rfl
    · rw [hu, State.byte_setLine_of_out hmem _ ha]
    · rw [hu, State.setLine_csr]
  case timeout =>
    intro n t h u l ht hs hh hu hl
    have hend := State.cxlReadTimeout_some ht hs hh hu hl
    exact ⟨fun hlt => congrArg (fun a : State => finishSync a.netGo) (hend.trans (if_neg (Nat.not_le.mpr hlt))),
      fun hge => congrArg (fun a : State => finishSync a.netGo) (hend.trans (if_pos hge))⟩
  case recovery =>
    exact fun hst => ⟨congrArg (fun a : State => finishSync a.grantTags.netGo) (if_pos hst),
      congrArg (fun a : State => finishSync a.grantTags.netGo) (if_pos hst)⟩
  case down => exact fun hst => congrArg (fun a : State => finishSync a.grantTags.netGo) (if_pos hst)

end Sys2Proof.Machine
end

section
/-! PROOFS. A frame that passes every check of R400 has its effect in the state `State.taken`, the request that a quiet session's next
DATA frame carries is run at once, and the short management commands. -/

namespace Sys2Proof.Machine

/-! ## What taking a frame leaves unchanged -/

/-- The state after the checks of a frame: its port has counted it, and a verified tag has ended a run of authentication failures. -/
def State.verified (s : State) (k : Fin 8) (p : Fin 2) : State :=
  if (s.rxCount p).encMode k then (s.rxCount p).authOk else s.rxCount p

/-- A session that takes a frame: its txc, its time and its source. -/
def SessH.takes (q : SessH) (rx : Rx) (clk : Nat) : SessH :=
  { q with rxSeen := txcTake q.rxSeen rx.txc, lastRx := clk, peer := { q.peer with mac := rx.mac, uport := rx.uport } }

theorem State.taken_eq (s : State) (k : Fin 8) (rx : Rx) :
    s.taken k rx = (s.verified k (Fin.ofNat 2 rx.port)).setSess k
      ((s.verified k (Fin.ofNat 2 rx.port)).net.sess[k].takes rx (s.verified k (Fin.ofNat 2 rx.port)).tmb.clk) := rfl

/-- Checking a frame touches registers only. -/
theorem State.verified_eq (s : State) (k : Fin 8) (p : Fin 2) : ∃ l : List (Nat × Word), s.verified k p = { s with csr := l } := by
  by_cases h : (s.rxCount p).encMode k = true
  · exact ⟨(s.rxCount p).authOk.csr, by rw [State.verified, if_pos h]; rfl⟩
  · exact ⟨(s.rxCount p).csr, by rw [State.verified, if_neg h]; rfl⟩

theorem State.verified_net (s : State) (k : Fin 8) (p : Fin 2) : (s.verified k p).net = s.net := by
  obtain ⟨l, h⟩ := s.verified_eq k p
  rw [h]

theorem State.setSess_chan (s : State) (k : Fin 8) (x : SessH) (hx : x.chans = s.net.sess[k].chans) (j : Fin 8) (c : Fin 7) :
    (s.setSess k x).chan j c = s.chan j c := by
  by_cases h : j = k
  · subst h
    simp [State.chan, State.setSess, hx]
  · have hne : k.val ≠ j.val := fun e => h (Fin.ext e.symm)
    simp [State.chan, State.setSess, Vector.getElem_set_ne, hne]

theorem State.chan_congr {s t : State} (h : t.net = s.net) (k : Fin 8) (c : Fin 7) : t.chan k c = s.chan k c := by
  rw [State.chan, h, State.chan]

@[simp] theorem State.taken_chan (s : State) (k : Fin 8) (rx : Rx) (j : Fin 8) (c : Fin 7) : (s.taken k rx).chan j c = s.chan j c := by
  rw [State.taken_eq, State.setSess_chan _ k (SessH.takes _ _ _) rfl, State.chan_congr (s.verified_net k _)]

@[simp] theorem State.taken_sec (s : State) (k : Fin 8) (rx : Rx) : (s.taken k rx).sec = s.sec := by
  obtain ⟨l, h⟩ := s.verified_eq k (Fin.ofNat 2 rx.port)
  rw [State.taken_eq, h]
  rfl

@[simp] theorem State.taken_csrWait (s : State) (k : Fin 8) (rx : Rx) : (s.taken k rx).csrWait = s.csrWait := by
  obtain ⟨l, h⟩ := s.verified_eq k (Fin.ofNat 2 rx.port)
  rw [State.taken_eq, h]
  rfl

theorem State.encMode_congr {s t : State} (k : Fin 8) (hn : t.net = s.net)
    (hg : t.get (NET_SESS_STATUS_enc k) = s.get (NET_SESS_STATUS_enc k)) : t.encMode k = s.encMode k := by
  rw [State.encMode, State.encMode, hn, State.on, State.on, hg]

/-- A write of a value that is not the default moves no other cell, whatever the form of the store. -/
theorem cellsGet_set_ne_of_ne_default {α : Type} [DecidableEq α] {d : Nat → α} {v : α} {a k : Nat} (hn : a ≠ k) (hv : v ≠ d k)
    (l : List (Nat × α)) : cellsGet d (cellsSet d l k v) a = cellsGet d l a := by
  induction l with
  | nil =>
    rw [cellsSet, if_neg hv]
    simp [cellsGet, hn.symm]
  | cons x l ih =>
    obtain ⟨j, u⟩ := x
    simp only [cellsSet, hv, if_false]
    split
    · simp only [cellsGet, hn.symm, if_false]
      split
      · rw [if_neg (by omega), if_pos (by omega)]
      · rfl
    · split
      · subst k
        simp only [cellsGet, hn.symm, if_false]
      · simp only [cellsGet, ih]

theorem regReset_netRxOk (p : Fin 2) : regReset (NET_RX_OK p) = 0 := by
  revert p
  decide

theorem netRxOk_ne_sessStatus (p : Fin 2) (k : Fin 8) : (NET_SESS_STATUS_enc k).addr ≠ NET_RX_OK p := by
  revert p k
  decide

/-- The counter of received frames of a port is no field of a session's status. -/
theorem State.rxCount_encMode (s : State) (p : Fin 2) (k : Fin 8) : (s.rxCount p).encMode k = s.encMode k := by
  have hv : BitVec.ofNat 32 (min (s.rn (NET_RX_OK p) + 1) 0xFFFFFFFF) ≠ regReset (NET_RX_OK p) := by
    rw [regReset_netRxOk]
    intro h
    have := congrArg BitVec.toNat h
    rw [BitVec.toNat_ofNat] at this
    simp at this
    omega
  have hr : (s.rxCount p).rd (NET_SESS_STATUS_enc k).addr = s.rd (NET_SESS_STATUS_enc k).addr :=
    cellsGet_set_ne_of_ne_default (netRxOk_ne_sessStatus p k) hv s.csr
  refine State.encMode_congr k rfl ?_
  rw [State.get, State.rn, hr, State.get, State.rn]

/-! ## The checks of R400 -/

/-- The frame with its payload as plaintext is the frame, but for the payload. -/
theorem State.eq_of_plain {s : State} {k : Fin 8} {typ : Nat} {raw rx : Rx} (h : s.plain k typ raw = some rx) :
    rx = { raw with payload := rx.payload } := by
  rw [State.plain, Option.map_eq_some_iff] at h
  obtain ⟨l, -, rfl⟩ := h
  rfl

theorem State.plain_congr {s t : State} (k : Fin 8) (typ : Nat) (rx : Rx) (hn : t.net = s.net) (he : t.encMode k = s.encMode k) :
    t.plain k typ rx = s.plain k typ rx := by
  rw [State.plain, State.plain, State.sessKey, State.sessKey, hn, he]

theorem State.checkPlain_of_fresh {s : State} {k : Fin 8} {typ : Nat} {rx : Rx} {a t : State} (ha : a = s.verified k (Fin.ofNat 2 rx.port))
    (ht : t = s.taken k rx) (hoffer : t.net.sess[k].offer.isNone = true) (hfresh : txcFresh a.net.sess[k].rxSeen rx.txc = true)
    (hchan : chanOk typ rx.channel = true) (htxc : rx.txc < 0xFFFFFF00) :
    (s.rxCount (Fin.ofNat 2 rx.port)).checkPlain k typ rx = t.openFrame k typ rx := by
  have hno : a.net.sess[k].offer = none := by
    rw [ht, State.taken_eq, ← ha] at hoffer
    simpa [State.setSess, SessH.takes] using hoffer
  have hv : (if (s.rxCount (Fin.ofNat 2 rx.port)).encMode k = true then (s.rxCount (Fin.ofNat 2 rx.port)).authOk
      else s.rxCount (Fin.ofNat 2 rx.port)) = a := ha.symm
  simp only [State.checkPlain, hv, hno, hfresh, hchan, Bool.not_true, Bool.false_eq_true, if_false]
  rw [if_neg fun h => absurd h.1 (by omega), ht, State.taken_eq, ← ha, SessH.takes, hno]

/-- A frame that passes every check of R400 is taken and has the effect of its type. -/
theorem State.receive_of_frameOk {s : State} {k : Fin 8} {typ : Nat} {raw rx : Rx} (h1 : typ ≠ 1)
    (h : s.frameOk k typ raw rx = true) : s.receive typ raw = (s.taken k rx).openFrame k typ rx := by
  simp only [State.frameOk, Bool.and_eq_true, decide_eq_true_eq, Bool.not_eq_true'] at h
  obtain ⟨⟨⟨⟨⟨⟨⟨⟨⟨⟨⟨⟨⟨⟨⟨⟨hplain, hlink⟩, hk⟩, hof⟩, hboot⟩, hip⟩, hlen⟩, hmagic⟩, hver⟩, hpeer⟩, henc⟩, hhold⟩, hoffer⟩, hfresh⟩, hchan⟩,
    htxc⟩, hopen⟩ := h
  obtain ⟨l, rfl⟩ : ∃ l, rx = { raw with payload := l } := ⟨_, State.eq_of_plain hplain⟩
  have hk' : raw.session < 8 := hk ▸ k.isLt
  have hkeq : (⟨raw.session, hk'⟩ : Fin 8) = k := Fin.ext hk
  have hof' : (s.rxCount (Fin.ofNat 2 raw.port)).ofOpen raw = true := hof
  have hip' : (s.rxCount (Fin.ofNat 2 raw.port)).ipTakes (Fin.ofNat 2 raw.port) raw = true := hip
  have hpeer' : (s.rxCount (Fin.ofNat 2 raw.port)).fromPeer k raw = true := hpeer
  have hmag : raw.magic = 0x414D := hmagic
  have hv1 : raw.version = 1 := hver
  have hno : ¬((s.rxCount (Fin.ofNat 2 raw.port)).encMode k = true ∧ (s.rxCount (Fin.ofNat 2 raw.port)).on CAL_STATUS_crypto_hold = true) := by
    rintro ⟨he, hc⟩
    rw [he, hc] at hhold
    exact absurd hhold (by decide)
  simp only [State.receive, hlink, hof', hboot, hip', hlen, hmag, hv1, h1, ne_eq, not_false_eq_true, and_self, if_true, Bool.not_true,
    Bool.false_eq_true, if_false, not_true_eq_false, or_self, and_false]
  rw [State.checkSession, dif_pos hk']
  simp only [hkeq, hpeer', henc, Bool.not_true, Bool.or_self, Bool.false_eq_true, if_false, hno]
  rw [State.checkTag, hplain]
  exact State.checkPlain_of_fresh (s := s) (k := k) (rx := { raw with payload := l }) rfl rfl hoffer hfresh hchan htxc

/-! ## The next DATA frame of a quiet session -/

theorem State.setChan_setChan (s : State) (k : Fin 8) (c : Fin 7) (x y : ChanH) : (s.setChan k c x).setChan k c y = s.setChan k c y := by
  simp [State.setChan, State.setSess]

@[simp] theorem State.setChan_chan_self (s : State) (k : Fin 8) (c : Fin 7) (x : ChanH) : (s.setChan k c x).chan k c = x := by
  simp [State.chan, State.setChan, State.setSess]

theorem State.setChan_chan_ne (s : State) {k j : Fin 8} {c i : Fin 7} (x : ChanH) (h : ¬(j = k ∧ i = c)) :
    (s.setChan k c x).chan j i = s.chan j i := by
  by_cases hj : j = k
  · subst j
    have hi : c.val ≠ i.val := fun e => h ⟨rfl, Fin.ext e.symm⟩
    simp [State.chan, State.setChan, State.setSess, Vector.getElem_set_ne, hi]
  · have hne : k.val ≠ j.val := fun e => hj (Fin.ext e.symm)
    simp [State.chan, State.setChan, State.setSess, Vector.getElem_set_ne, hne]

/-- The next frame in sequence leaves the frames held and can be executed. -/
theorem deliverHeld_single {h : ChanH} {x : RxItem} (hx : x.seq = h.rx) : deliverHeld 1 { h with held := [x] } =
    { h with rx := (h.rx + 1) % 2 ^ 32, held := [], todo := h.todo ++ [x] } := by
  simp [deliverHeld, hx]

/-- The state in which the next frame of a channel is taken and delivered, with `todo` left to execute. -/
def State.delivered (s : State) (k : Fin 8) (c : Fin 7) (rx : Rx) (todo : List RxItem) : State :=
  (s.taken k rx).setChan k c { (s.taken k rx).chan k c with
    rx := (((s.taken k rx).chan k c).rx + 1) % 2 ^ 32, held := [], todo := todo, ackDue := ((s.taken k rx).chan k c).ackDue + 1 }

theorem State.delivered_chan_ne (s : State) {k j : Fin 8} {c i : Fin 7} (rx : Rx) (todo : List RxItem) (h : ¬(j = k ∧ i = c)) :
    (s.delivered k c rx todo).chan j i = s.chan j i := by
  rw [State.delivered, State.setChan_chan_ne _ _ h, State.taken_chan]

theorem State.delivered_todo (s : State) (k : Fin 8) (c : Fin 7) (rx : Rx) (todo : List RxItem) :
    ((s.delivered k c rx todo).chan k c).todo = todo := by
  rw [State.delivered, State.setChan_chan_self]

theorem State.delivered_setTodo (s : State) (k : Fin 8) (c : Fin 7) (rx : Rx) (todo l : List RxItem) :
    (s.delivered k c rx todo).setChan k c { (s.delivered k c rx todo).chan k c with todo := l } = s.delivered k c rx l := by
  rw [State.delivered, State.setChan_chan_self, State.setChan_setChan]
  rfl

theorem sum_map_eq_zero {α : Type} {f : α → Nat} {l : List α} (h : ∀ j ∈ l, f j = 0) : (l.map f).sum = 0 := by
  induction l with
  | nil => rfl
  | cons x l ih =>
    obtain ⟨hx, hl⟩ := List.forall_mem_cons.mp h
    rw [List.map_cons, List.sum_cons, hx, ih hl]

theorem sum_map_single {α : Type} [DecidableEq α] {f : α → Nat} {k : α} {l : List α} (hnd : l.Nodup) (hk : k ∈ l)
    (h : ∀ j ∈ l, j ≠ k → f j = 0) : (l.map f).sum = f k := by
  induction l with
  | nil => cases hk
  | cons x l ih =>
    obtain ⟨hx, hl⟩ := List.nodup_cons.mp hnd
    obtain ⟨hfx, hfl⟩ := List.forall_mem_cons.mp h
    rw [List.map_cons, List.sum_cons]
    rcases List.mem_cons.mp hk with rfl | hk
    · rw [sum_map_eq_zero fun j hj => hfl j hj (ne_of_mem_of_not_mem hj hx), Nat.add_zero]
    · rw [hfx (ne_of_mem_of_not_mem hk hx).symm, ih hl hk hfl, Nat.zero_add]

theorem sum_flatMap_eq {α : Type} (g : α → List Nat) (l : List α) : (l.flatMap g).sum = (l.map fun j => (g j).sum).sum := by
  induction l with
  | nil => rfl
  | cons x l ih => rw [List.flatMap_cons, List.sum_append_nat, ih, List.map_cons, List.sum_cons]

theorem sum_map_finRange_single {n : Nat} {f : Fin n → Nat} {k : Fin n} (h : ∀ j, j ≠ k → f j = 0) :
    ((List.finRange n).map f).sum = f k := by
  exact sum_map_single (List.nodup_finRange n) (List.mem_finRange k) fun j _ hj => h j hj

/-- A sum over all channels of all sessions with one term that is not 0. -/
theorem sum_flatMap_finRange_single {m n : Nat} {f : Fin m → Fin n → Nat} {k : Fin m} {c : Fin n}
    (h : ∀ j i, ¬(j = k ∧ i = c) → f j i = 0) :
    ((List.finRange m).flatMap fun j => (List.finRange n).map fun i => f j i).sum = f k c := by
  have hrow (j : Fin m) (hj : j ≠ k) : ((List.finRange n).map fun i => f j i).sum = 0 := sum_map_eq_zero fun i _ => h j i fun e => hj e.1
  rw [sum_flatMap_eq, sum_map_finRange_single hrow]
  exact sum_map_finRange_single fun i hi => h k i fun e => hi e.2

theorem filter_range_single (k : Fin 8) : ((List.range 8).filter fun n => decide (n = k.val)) = [k.val] := by
  revert k
  decide

/-- The state in which the management request of a quiet session is executed: its frame is delivered, and its session has the grant. -/
def State.requesting (s : State) (k : Fin 8) (rx : Rx) : State :=
  (s.delivered k 0 rx []).setNet { (s.delivered k 0 rx []).net with csrLast := k }

theorem State.requesting_sess (s : State) (k : Fin 8) (rx : Rx) : ∃ x : Vector ChanH 7,
    (s.requesting k rx).net.sess[k] = { (s.taken k rx).net.sess[k] with chans := x } :=
  ⟨_, Vector.getElem_set_self ..⟩

section
variable {s : State} {k : Fin 8} {c : Fin 7} {raw rx : Rx} (hd : s.dataOk k c raw rx = true)
include hd

theorem State.frameOk_of_dataOk : s.frameOk k 0x10 raw rx = true := by
  simp only [State.dataOk, Bool.and_eq_true] at hd
  exact hd.1.1.1.1.1

theorem State.quiet_of_dataOk : s.quiet k c = true := by
  simp only [State.dataOk, Bool.and_eq_true] at hd
  exact hd.1.2

theorem State.todo_of_dataOk (j : Fin 8) (i : Fin 7) : (s.chan j i).todo = [] := by
  have hq := State.quiet_of_dataOk hd
  simp only [State.quiet, Bool.and_eq_true, List.all_eq_true, decide_eq_true_eq] at hq
  exact hq.1.1.1 j (List.mem_finRange j) i (List.mem_finRange i)

/-- The frame is delivered, what can be executed is, and every fourth frame is acknowledged. -/
theorem State.dataIn_of_dataOk : (s.taken k rx).dataIn k c rx =
    let g := (s.delivered k c rx [requestItem rx]).netGo
    if g.sessOpen k ∧ 4 ≤ (g.chan k c).ackDue then g.send k 0x11 c 0 [] else g := by
  have htodo := State.todo_of_dataOk hd k c
  simp only [State.dataOk, State.quiet, Bool.and_eq_true, decide_eq_true_eq] at hd
  obtain ⟨⟨-, -, hheld⟩, hseq⟩ := hd
  have h0 : (rx.seq + 2 ^ 32 - (s.chan k c).rx) % 2 ^ 32 = 0 := by rw [← hseq]; omega
  have hfresh : (decide ((rx.seq + 2 ^ 32 - (s.chan k c).rx) % 2 ^ 32 < 256) && !(s.chan k c).held.any fun y => decide (y.seq = rx.seq)) =
      true := by
    rw [h0, hheld]
    rfl
  rw [State.dataIn, State.taken_chan]
  simp only [hfresh, if_true]
  have hone : deliverHeld ((s.chan k c).held.length + 1) { s.chan k c with held := (s.chan k c).held ++ [requestItem rx] } =
      { s.chan k c with rx := ((s.chan k c).rx + 1) % 2 ^ 32, held := [], todo := [requestItem rx] } := by
    rw [hheld]
    exact (deliverHeld_single (x := requestItem rx) hseq).trans (by rw [htodo]; rfl)
  rw [requestItem] at hone
  rw [hone, State.delivered, State.taken_chan]
  rfl

theorem State.delivered_todo_ne (todo : List RxItem) {j : Fin 8} {i : Fin 7} (h : ¬(j = k ∧ i = c)) :
    ((s.delivered k c rx todo).chan j i).todo = [] := by
  rw [State.delivered_chan_ne s rx todo h, State.todo_of_dataOk hd]

theorem State.netFuel_delivered : (s.delivered k c rx [requestItem rx]).netFuel = 1 + (1 + rx.bad.length) := by
  have hz : ∀ j i, ¬(j = k ∧ i = c) →
      ((((s.delivered k c rx [requestItem rx]).chan j i).todo.map fun x => 1 + x.bad.length).sum = 0) := by
    intro j i h
    rw [State.delivered_todo_ne hd _ h]
    rfl
  rw [State.netFuel, sum_flatMap_finRange_single hz, State.delivered_todo]
  rfl

theorem State.delivered_idle (todo : List RxItem) :
    (s.delivered k c rx todo).sec.opening.isNone = true ∧ (s.delivered k c rx todo).csrWait.isNone = true := by
  have hq := State.quiet_of_dataOk hd
  simp only [State.quiet, Bool.and_eq_true] at hq
  obtain ⟨⟨⟨-, ho⟩, hw⟩, -⟩ := hq
  refine ⟨?_, ?_⟩
  · change (s.taken k rx).sec.opening.isNone = true
    rw [State.taken_sec, ho]
  · change (s.taken k rx).csrWait.isNone = true
    rw [State.taken_csrWait, hw]

/-- The management request of a quiet session is executed under the grant of its session (R35). -/
theorem State.netGo_delivered_request (hc : c = 0) : (s.delivered k c rx [requestItem rx]).netGo = State.netRun (1 + rx.bad.length)
    ((s.requesting k rx).request k (requestItem rx)) := by
  subst c
  obtain ⟨ho, hw⟩ := State.delivered_idle hd [requestItem rx]
  have hready : ((List.range 8).filter fun n => decide (((s.delivered k 0 rx [requestItem rx]).chan (Fin.ofNat 8 n) 0).todo ≠ []) &&
      (s.delivered k 0 rx [requestItem rx]).sec.opening.isNone && (s.delivered k 0 rx [requestItem rx]).csrWait.isNone) = [k.val] := by
    rw [← filter_range_single k]
    refine List.filter_congr fun n hn => ?_
    have hn8 := List.mem_range.mp hn
    rw [ho, hw, Bool.and_true, Bool.and_true, decide_eq_decide]
    by_cases hnk : Fin.ofNat 8 n = k
    · have : n = k.val := by rw [← hnk]; exact (Nat.mod_eq_of_lt hn8).symm
      rw [hnk, State.delivered_todo]
      simp [this]
    · have hne : n ≠ k.val := fun e => hnk (by rw [e]; exact Fin.ext (Nat.mod_eq_of_lt k.isLt))
      rw [State.delivered_todo_ne hd _ fun e => hnk e.1]
      simp [hne]
  have hkk : Fin.ofNat 8 k.val = k := Fin.ext (Nat.mod_eq_of_lt k.isLt)
  rw [State.netGo, State.netFuel_delivered hd, Nat.add_comm 1 (1 + rx.bad.length), State.netRun, hready, rrFirst_singleton]
  simp only [hkk, State.delivered_todo]
  rw [State.requesting, ← s.delivered_setTodo k 0 rx [requestItem rx] []]
  rfl

theorem State.dataText_of_dataOk : s.dataText raw = some rx.payload ∧ raw.channel = rx.channel := by
  have hf := State.frameOk_of_dataOk hd
  simp only [State.frameOk, Bool.and_eq_true, decide_eq_true_eq] at hf
  obtain ⟨⟨⟨⟨⟨⟨⟨⟨⟨⟨⟨⟨⟨⟨⟨⟨hplain, -⟩, hk⟩, -⟩, -⟩, -⟩, -⟩, -⟩, -⟩, -⟩, -⟩, -⟩, -⟩, -⟩, -⟩, -⟩, -⟩ := hf
  rw [State.plain_congr (s := s) (t := s.rxCount (Fin.ofNat 2 rx.port)) k 0x10 raw rfl (s.rxCount_encMode _ k)] at hplain
  have hraw := State.eq_of_plain hplain
  have hsess : raw.session = k.val := by rw [hraw] at hk; exact hk
  have hlt : raw.session < 8 := hsess ▸ k.isLt
  refine ⟨?_, by rw [hraw]⟩
  rw [State.dataText, dif_pos hlt, show (⟨raw.session, hlt⟩ : Fin 8) = k from Fin.ext hsess, hplain]
  rfl

/-- The next DATA frame of a quiet session is delivered, what can be executed is, and every fourth frame is acknowledged. -/
theorem State.dataFrame_of_dataOk {want : Nat → List Byte → Bool} (hw : want rx.channel rx.payload = true) : s.dataFrame raw want =
    let g := (s.delivered k c rx [requestItem rx]).netGo
    if g.sessOpen k ∧ 4 ≤ (g.chan k c).ackDue then g.send k 0x11 c 0 [] else g := by
  have hf := State.frameOk_of_dataOk hd
  have hrec := State.receive_of_frameOk (by decide) hf
  obtain ⟨htext, hraw⟩ := State.dataText_of_dataOk hd
  have hin := State.dataIn_of_dataOk hd
  simp only [State.dataOk, Bool.and_eq_true, decide_eq_true_eq, Bool.not_eq_true'] at hd
  obtain ⟨⟨⟨⟨⟨-, hchan⟩, hpay⟩, hflag⟩, -⟩, -⟩ := hd
  simp only [State.frameOk, Bool.and_eq_true] at hf
  obtain ⟨-, hopen⟩ := hf
  have hc : rx.channel < 7 := hchan ▸ c.isLt
  have hceq : (⟨rx.channel, hc⟩ : Fin 7) = c := Fin.ext hchan
  rw [← hin, State.dataFrame, htext, hraw]
  simp only [hw, if_true]
  rw [hrec, State.openFrame, dif_neg (by rw [hflag]; exact fun h => absurd h.1 (by decide))]
  simp only [hopen, Bool.not_true, Bool.false_eq_true, if_false]
  rw [dif_pos ⟨trivial, hc⟩, if_neg hpay, hceq]

/-- A management request that its session's quiet lets run at once. -/
theorem State.dataFrame_served_request {want : Nat → List Byte → Bool} {f : State → State} (hc : c = 0)
    (hw : want rx.channel rx.payload = true)
    (hf : (s.requesting k rx).request k (requestItem rx) = f (s.requesting k rx)) :
    (s.dataFrame raw want).holdFaults.syncSources = s.served k 0 rx f := by
  subst c
  rw [State.dataFrame_of_dataOk hd hw, State.netGo_delivered_request hd rfl, hf]
  rfl

end

/-! ## Management requests (R412 to R414) -/

theorem State.requesting_limited (s : State) (k : Fin 8) (rx : Rx) :
    (s.requesting k rx).net.sess[k].limited = (s.taken k rx).net.sess[k].limited := by
  obtain ⟨x, hx⟩ := s.requesting_sess k rx
  rw [hx]

theorem State.requesting_holdsPerm (s : State) (k : Fin 8) (rx : Rx) (p : Nat) :
    (s.requesting k rx).holdsPerm k p = (s.taken k rx).holdsPerm k p := by
  obtain ⟨x, hx⟩ := s.requesting_sess k rx
  rw [State.holdsPerm, hx, State.holdsPerm]

section
variable {s : State} {k : Fin 8} {raw rx : Rx} {o : Nat} (h : s.requestOk k raw rx o = true)
include h

theorem State.dataOk_of_requestOk : s.dataOk k 0 raw rx = true := by
  simp only [State.requestOk, Bool.and_eq_true] at h
  exact h.1.1.1.1.1.1

theorem State.want_of_requestOk : wantOpcode o rx.channel rx.payload = true := by
  have hd := State.dataOk_of_requestOk h
  simp only [State.dataOk, Bool.and_eq_true, decide_eq_true_eq] at hd
  obtain ⟨⟨⟨⟨⟨-, hchan⟩, -⟩, -⟩, -⟩, -⟩ := hd
  simp only [State.requestOk, Bool.and_eq_true, decide_eq_true_eq] at h
  obtain ⟨⟨⟨⟨⟨⟨-, hlen⟩, hop⟩, -⟩, -⟩, -⟩, -⟩ := h
  simp only [wantOpcode, Bool.and_eq_true, decide_eq_true_eq]
  exact ⟨⟨hchan, by omega⟩, hop⟩

/-- Nothing turns the request away before its opcode is looked up. -/
theorem State.request_of_requestOk : (s.requesting k rx).request k (requestItem rx) =
    if !opcodeKnown o then (s.requesting k rx).reply k o 4 (argBe rx.payload 4 4) rx.seq 0 []
    else if 0x30 ≤ o then (s.requesting k rx).secCommand k o (argBe rx.payload 4 4) rx.seq (rx.payload.drop 8)
    else (s.requesting k rx).mgmtCommand k o (argBe rx.payload 4 4) rx.seq (rx.payload.drop 8) rx.flashOk := by
  simp only [State.requestOk, Bool.and_eq_true, decide_eq_true_eq] at h
  obtain ⟨⟨⟨⟨⟨⟨-, hlen⟩, hop⟩, hzero⟩, hlong⟩, hlim⟩, hperm⟩ := h
  have hlong' : (s.requesting k rx).long = none := Option.isNone_iff_eq_none.mp hlong
  simp only [State.request, requestItem, hlong', hop, hzero, Option.isSome_none, Bool.false_eq_true, if_false, ne_eq, not_true_eq_false,
    or_false, if_neg (show ¬rx.payload.length < 8 by omega)]
  cases hk : opcodeKnown o
  · rfl
  · have hnl : ¬((s.requesting k rx).net.sess[k].limited = true ∧ ¬o = 1 ∧ ¬o = 4 ∧ o < 0x30) := by
      rintro ⟨hl, h1, h4, hlt⟩
      rw [State.requesting_limited] at hl
      rw [hl, hk] at hlim
      simp [h1, h4] at hlim
      omega
    rw [if_neg hnl]
    simp only [Bool.not_true, Bool.false_eq_true, if_false]
    cases hp : opcodePerm o with
    | none => rfl
    | some p =>
      rw [hp] at hperm
      simp only [State.requesting_holdsPerm] at hperm ⊢
      rw [if_pos hperm]

/-- A request of Tables 14.8 and 14.9 that nothing turns away runs as its command says. -/
theorem State.served_of_mgmt {f : State → State} (hk : opcodeKnown o = true) (hlt : o < 0x30)
    (hf : ∀ a : State, a.mgmtCommand k o (argBe rx.payload 4 4) rx.seq (rx.payload.drop 8) rx.flashOk = f a) :
    (s.dataFrame raw (wantOpcode o)).holdFaults.syncSources = s.served k 0 rx f := by
  refine State.dataFrame_served_request (State.dataOk_of_requestOk h) rfl (State.want_of_requestOk h) ?_
  rw [State.request_of_requestOk h, hk, if_neg (by decide), if_neg (by omega), hf]

/-- A security command that nothing turns away runs as its command says, under the permissions of its session. -/
theorem State.served_of_sec {f : State → State} (hk : opcodeKnown o = true) (hlt : 0x30 ≤ o)
    (hf : ∀ a : State, (∀ p, a.holdsPerm k p = (s.taken k rx).holdsPerm k p) →
      a.secCommand k o (argBe rx.payload 4 4) rx.seq (rx.payload.drop 8) = f a) :
    (s.dataFrame raw (wantOpcode o)).holdFaults.syncSources = s.served k 0 rx f := by
  refine State.dataFrame_served_request (State.dataOk_of_requestOk h) rfl (State.want_of_requestOk h) ?_
  rw [State.request_of_requestOk h, hk, if_neg (by decide), if_pos hlt, hf _ fun p => s.requesting_holdsPerm k rx p]

/-- An unknown opcode gets status 4. -/
theorem State.served_of_unknown (hk : opcodeKnown o = false) :
    (s.dataFrame raw wantUnknown).holdFaults.syncSources =
      s.served k 0 rx fun a => a.reply k o 4 (argBe rx.payload 4 4) rx.seq 0 [] := by
  have hw := State.want_of_requestOk h
  refine State.dataFrame_served_request (State.dataOk_of_requestOk h) rfl ?_ ?_
  · simp only [wantOpcode, Bool.and_eq_true, decide_eq_true_eq] at hw
    obtain ⟨⟨hc, -⟩, hop⟩ := hw
    simp [wantUnknown, hc, hop, hk]
  · rw [State.request_of_requestOk h, hk]
    rfl

end

/-! ## The short commands (Table 14.8) -/

/-- Writes read no values. -/
theorem State.csrSteps_write_acc (m : Nat) (l : List (Nat × Nat)) (s : State) (i : Nat) (acc : List Byte) :
    (State.csrSteps m true l s i acc).1 = acc := by
  induction l generalizing s i with
  | nil => rfl
  | cons x l ih =>
    simp only [State.csrSteps, if_true]
    split
    · rfl
    · exact ih _ _

theorem State.csrReply_sess (s : State) (k : Fin 8) {w : CsrWait} (hw : w.sess = k.val) (status info : Nat) (data : List Byte) :
    s.csrReply w status info data = s.reply k (if w.write then 3 else 2) status w.tag w.seq info data := by
  have hlt : w.sess < 8 := hw ▸ k.isLt
  rw [State.csrReply, dif_pos hlt, show (⟨w.sess, hlt⟩ : Fin 8) = k from Fin.ext hw]

theorem State.cmdCsrRead_ok {k : Fin 8} {tag seq : Nat} {l : List Byte} {items : List (Nat × Nat)} (a : State) (hl : l.length = 12)
    (h1 : 1 ≤ argBe l 8 4) (h2 : argBe l 8 4 ≤ 256)
    (hi : items = ((List.range (argBe l 8 4)).map fun i => (argBe l 0 8 + 4 * i, 0))) :
    a.cmdCsrRead k tag seq l = match State.csrSteps k false items a 0 [] with
      | (v, [], _, b) => b.reply k 2 0 tag seq 0 v
      | (v, y :: r, i, b) => if b.csrError y.1 false then b.reply k 2 6 tag seq i v
        else { b with csrWait := some {
          sess := k, tag := tag, seq := seq, write := false, items := y :: r, index := i, acc := v } } := by
  rw [State.cmdCsrRead, if_neg (by omega), if_neg (by omega), State.csrCmd, ← hi]
  simp only [Bool.false_eq_true, if_false]
  rcases State.csrSteps k false items a 0 [] with ⟨v, _ | ⟨y, r⟩, i, b⟩
  · exact b.csrReply_sess k rfl 0 0 v
  · simp only
    split
    · exact b.csrReply_sess k rfl 6 i v
    · rfl

theorem State.cmdCsrWrite_ok {k : Fin 8} {tag seq : Nat} {l : List Byte} {items : List (Nat × Nat)} (a : State) (hl : 8 ≤ l.length)
    (h0 : argBe l 4 4 = 0) (h1 : 1 ≤ argBe l 0 4) (h2 : argBe l 0 4 ≤ 256) (hi : csrItems (argBe l 0 4) (l.drop 8) = some items) :
    a.cmdCsrWrite k tag seq l = match State.csrSteps k true items a 0 [] with
      | (_, [], _, b) => b.heldWrites.reply k 3 0 tag seq 0 []
      | (v, y :: r, i, b) => if b.csrError y.1 true then b.heldWrites.reply k 3 6 tag seq i []
        else { b.heldWrites with csrWait := some {
          sess := k, tag := tag, seq := seq, write := true, items := y :: r, index := i, acc := v } } := by
  rw [State.cmdCsrWrite, if_neg (by omega), if_neg (by omega), hi]
  have hacc := State.csrSteps_write_acc k.val items a 0 []
  dsimp only
  rw [State.csrCmd]
  simp only [if_true]
  rcases h : State.csrSteps k true items a 0 [] with ⟨v, _ | ⟨y, r⟩, i, b⟩
  · rw [h] at hacc
    exact (b.heldWrites.csrReply_sess k rfl 0 0 v).trans (congrArg _ hacc)
  · rw [h] at hacc
    simp only
    split
    · exact (b.heldWrites.csrReply_sess k rfl 6 i v).trans (congrArg _ hacc)
    · rfl

/-- Settles O41: a well-formed short command runs at once in a quiet session, and an unknown opcode gets status 4. -/
theorem shortRequests : Obligations.ShortRequests := by
  intro s k raw rx l tag hl htag
  subst hl htag
  refine ⟨fun h hl => ?_, fun items h hlen h1 h2 hi => ?_, fun items h hlen h0 h1 h2 hi => ?_, fun h hlen h2 => ?_, fun h hl => ?_,
    fun o h ho => congrArg Host.Outcome.next (State.served_of_unknown h ho)⟩
  · exact congrArg Host.Outcome.next (State.served_of_mgmt h rfl (by decide) fun a => if_neg (not_not_intro hl))
  · exact congrArg Host.Outcome.next (State.served_of_mgmt h rfl (by decide) fun a => State.cmdCsrRead_ok a hlen h1 h2 hi)
  · exact congrArg Host.Outcome.next (State.served_of_mgmt h rfl (by decide) fun a => State.cmdCsrWrite_ok a hlen h0 h1 h2 hi)
  · refine congrArg Host.Outcome.next (State.served_of_mgmt h rfl (by decide) fun a => ?_)
    change a.cmdGetCert k _ _ _ = _
    rw [State.cmdGetCert, if_neg (not_not_intro hlen), if_neg (by omega)]
  · refine congrArg Host.Outcome.next (State.served_of_mgmt h rfl (by decide) fun a => ?_)
    change a.cmdWarmReset k _ _ _ = _
    rw [State.cmdWarmReset, if_neg (not_not_intro hl)]

end Sys2Proof.Machine
end

section
/-! PROOFS. The long operations of Table 14.9: their start, the work of ENROL and FW_UPDATE, and the one reply at their end. -/

namespace Sys2Proof.Machine

theorem State.cmdImage_ok (a : State) {k : Fin 8} {opcode tag seq : Nat} {l : List Byte} (bound : Nat) (go : State → Nat → Nat → State)
    (hl : l.length = 12) (hs : inSram (argBe l 0 8) (argBe l 8 4) = true) :
    a.cmdImage k opcode tag seq l bound go = go (a.longBegin k opcode tag seq bound) (argBe l 0 8) (argBe l 8 4) := by
  rw [State.cmdImage, if_neg (not_not_intro hl), hs, if_neg (by decide)]

theorem State.cmdPlain_ok (a : State) {k : Fin 8} {opcode tag seq : Nat} {l : List Byte} (bound : Nat) (go : State → State)
    (hl : l = []) : a.cmdPlain k opcode tag seq l bound go = go (a.longBegin k opcode tag seq bound) :=
  if_neg (not_not_intro hl)

theorem State.cmdTrain_ok (a : State) {k : Fin 8} {tag seq : Nat} {l : List Byte} (hl : l.length = 4) (hm : argBe l 0 4 ≤ 15) :
    a.cmdTrain k tag seq l =
      (a.longBegin k 0x11 tag seq (800 * ((List.range 4).countP fun c => bit (argBe l 0 4) c))).fullTrain (argBe l 0 4) := by
  rw [State.cmdTrain, if_neg (not_not_intro hl), if_neg (by omega)]

theorem State.calFull_eq (b : State) {v : State} (hv : v = (b.calRun 0x7F).put CAL_STATUS_full_busy 1) :
    b.calFull = if v.cal.run.isSome then v.setCal { v.cal with full := some (0, 0) } else State.fullFrom 77 v 0 0 := by
  rw [State.calFull, ← hv]
  cases v.cal.run with
  | none => rw [Option.isSome_none, if_neg Bool.false_ne_true]
  | some x => rw [Option.isSome_some, if_pos rfl]

/-! ## The end of a long operation (R414) -/

section
variable {s u : State} {o : LongOp} {result : Nat} {data : List Byte} (hs : s.long = some o) (ho : o.outcome = some (result, data))
  (hu : u = (({ s with long := none }.put NET_STATUS_long_op 0).wn NET_LONG_RESULT result).ev 361)
include hs ho hu

theorem State.longEnd_eq :
    s.longEnd = if h : o.sess < 8 then u.reply ⟨o.sess, h⟩ o.opcode (if result = 0 then 0 else 18) o.tag o.seq result data else u := by
  simp only [State.longEnd, hs, ho, ← hu]

theorem State.longEnd_replies {k : Fin 8} (hk : o.sess = k.val) :
    s.longEnd = u.reply k o.opcode (if result = 0 then 0 else 18) o.tag o.seq result data := by
  have hlt : o.sess < 8 := hk ▸ k.isLt
  rw [State.longEnd_eq hs ho hu, dif_pos hlt, show (⟨o.sess, hlt⟩ : Fin 8) = k from Fin.ext hk]

theorem State.longEnd_orphaned (hk : 8 ≤ o.sess) : s.longEnd = u := by
  rw [State.longEnd_eq hs ho hu, dif_neg (by omega)]

end

/-! ## ENROL (R432) -/

section
variable {s u : State} {addr len : Nat}

theorem State.enrol_refused (h0 : s.enrolCode addr len ≠ 0)
    (hu : u = (s.put SEC_LAST_RESULT_code (s.enrolCode addr len)).put SEC_LAST_RESULT_opcode 0x15) :
    s.enrol addr len =
      ((if s.enrolCode addr len = 12 then u.authFail else u).longOutcome 0x15 (s.enrolCode addr len) []).ev 395 := by
  simp only [State.enrol, ← hu, h0, ne_eq, not_false_eq_true, if_true]

theorem State.enrol_ok {l ork : List Byte} (h0 : s.enrolCode addr len = 0) (hl : l = s.bytes addr 368) (ho : s.enrolOrk l = some ork)
    (hu : u = (s.put SEC_LAST_RESULT_code 0).put SEC_LAST_RESULT_opcode 0x15) :
    s.enrol addr len = ((((u.authOk.put SEC_STATUS_epoch (s.get SEC_STATUS_epoch + 1)).setSec
      { u.sec with
        owner := true
        ork := BitVec.ofNat 256 (ofBe ork)
        oak := (l.drop 32).take 96
        polFlags := bytesBits l 16 0 4
        polTamper := bytesBits l 18 0 14
        credFloor := s.le (addr + 24) 4 }).showLifecycle.showPolicy.ev 395).longOutcome 0x15 0 []) := by
  simp only [State.enrol, h0, ← hu, ← hl, ho, ne_eq, not_true_eq_false, if_false, Option.getD_some]

end

/-! ## FW_UPDATE (R434) -/

section
variable {s u : State} {addr len : Nat} {images : List (Nat × Nat × List Byte)} (hi : s.fwImages addr len 3 = some images)
  (hk : (images.map (·.1)).Perm [1, 2, 3]) (hsign : ∀ x ∈ images, s.imageSign x.2.2 = 0) (hroll : ∀ x ∈ images, s.rollbackOf x.1 ≤ x.2.1)
include hi hk hsign hroll

/-- The images pass their checks: what is left is whether the flash took them. -/
theorem State.fwUpdate_checked (flashOk : Bool) : firstCode [(!((((s.fwImages addr len 3).getD []).map (·.1)).contains 1 &&
      (((s.fwImages addr len 3).getD []).map (·.1)).contains 2 && (((s.fwImages addr len 3).getD []).map (·.1)).contains 3), 7),
    (((s.fwImages addr len 3).getD []).any fun x => decide (s.imageSign x.2.2 ≠ 0), 12),
    (((s.fwImages addr len 3).getD []).any fun x => decide (x.2.1 < s.rollbackOf x.1), 15), (!flashOk, 16)] =
      if flashOk then 0 else 16 := by
  have hkinds : ∀ n ∈ [1, 2, 3], (images.map (·.1)).contains n = true := fun n hn => List.contains_iff_mem.mpr (hk.mem_iff.mpr hn)
  have h12 : (images.any fun x => decide (s.imageSign x.2.2 ≠ 0)) = false :=
    List.any_eq_false.mpr fun x hx => by simp [hsign x hx]
  have h15 : (images.any fun x => decide (x.2.1 < s.rollbackOf x.1)) = false :=
    List.any_eq_false.mpr fun x hx => by simpa using hroll x hx
  rw [hi, Option.getD_some, hkinds 1 (by simp), hkinds 2 (by simp), hkinds 3 (by simp), h12, h15]
  cases flashOk <;> rfl

theorem State.fwUpdate_ok (hu : u = (((s.put SEC_LAST_RESULT_code 0).put SEC_LAST_RESULT_opcode 0x13).authOk)) :
    s.fwUpdate addr len true = (State.ev { u with
      boot := { u.boot with flash := u.boot.flash ++ [(1 - s.get GLB_STATE_slot, s.bytes addr len)] } } 405).longOutcome 0x13 0 [] := by
  have hc := State.fwUpdate_checked hi hk hsign hroll true
  simp only [State.fwUpdate, hc, if_true]
  rw [if_neg (by decide), if_pos (by decide), ← hu]

theorem State.fwUpdate_flashFails (hu : u = (((s.put SEC_LAST_RESULT_code 16).put SEC_LAST_RESULT_opcode 0x13).authOk)) :
    s.fwUpdate addr len false = u.longOutcome 0x13 16 [] := by
  have hc := State.fwUpdate_checked hi hk hsign hroll false
  simp only [State.fwUpdate, hc, Bool.false_eq_true, if_false]
  rw [if_neg (show ¬16 = 0 by decide), if_neg (show ¬16 = 12 by decide), if_pos (show 12 < 16 ∨ 16 = 0 by decide), ← hu]

end

/-- Settles O42: a long operation occupies the management channel and starts its work, and its end replies once. -/
theorem longOperations : Obligations.LongOperations := by
  refine ⟨?_, ?_, ?_, ?_⟩
  · intro s k raw rx l tag addr len hl htag haddr hlen
    subst hl htag haddr hlen
    refine ⟨fun h hl hs => ?_, fun h hl hm => ?_, fun h hl => ?_, fun h hl hs => ?_, fun h hl => ?_, fun h hl hs => ?_, fun h hl => ?_⟩
    all_goals refine congrArg Host.Outcome.next (State.served_of_mgmt h rfl (by decide) fun a => ?_)
    · exact a.cmdImage_ok 2500 _ hl hs
    · exact a.cmdTrain_ok hl hm
    · exact (a.cmdPlain_ok 4000 _ hl).trans (State.calFull_eq _ rfl)
    · exact a.cmdImage_ok 60000 (fun b x n => b.fwUpdate x n rx.flashOk) hl hs
    · exact a.cmdPlain_ok a.scrubBound _ hl
    · exact a.cmdImage_ok 5000 _ hl hs
    · exact a.cmdPlain_ok 1000 _ hl
  · intro s u o result data hs ho hu
    exact ⟨fun k hk => congrArg Host.Outcome.next (State.longEnd_replies hs ho hu hk),
      fun hk => congrArg Host.Outcome.next (State.longEnd_orphaned hs ho hu hk)⟩
  · intro s u addr len code l ork hc hl hu
    subst hc
    refine ⟨fun h12 => ?_, fun h0 h12 => ?_, fun h0 ho => State.enrol_ok h0 hl ho (h0 ▸ hu)⟩
    · rw [State.enrol_refused (by omega) hu, if_pos h12, h12]
    · rw [State.enrol_refused h0 hu, if_neg h12]
  · intro s u addr len images hi hk hsign hroll
    exact ⟨State.fwUpdate_ok hi hk hsign hroll, State.fwUpdate_flashFails hi hk hsign hroll⟩

end Sys2Proof.Machine
end

section
/-! PROOFS. The security commands of Table 15.13 and what their signatures decide, the Rucksack regions, and the receipts. -/

namespace Sys2Proof.Machine

/-! ## Checks with codes (Table 15.8) -/

theorem firstCode_eq_zero_iff {l : List (Bool × Nat)} (h : ∀ x ∈ l, x.2 ≠ 0) : firstCode l = 0 ↔ ∀ x ∈ l, x.1 = false := by
  induction l with
  | nil => simp [firstCode]
  | cons x l ih =>
    obtain ⟨b, c⟩ := x
    have hc : c ≠ 0 := h (b, c) (by simp)
    cases b with
    | false => simpa [firstCode] using ih fun x hx => h x (by simp [hx])
    | true => simp [firstCode, hc]

theorem State.loadKeyCode_eq_zero_iff (s : State) (k : Fin 8) (l : List Byte) : s.loadKeyCode k l = 0 ↔
    s.lifecycle = 2 ∧ s.holdsPerm k 0 = true ∧ s.on SEC_STATUS_sealed = false ∧ s.on SEC_STATUS_jtag_open = false ∧
      s.slotBusy (argBe l 0 1) = false ∧ l.length = 8 ∧ argBe l 1 3 = 0 ∧ argBe l 0 1 ≤ 63 := by
  rw [State.loadKeyCode, firstCode_eq_zero_iff (by simp)]
  simp [and_assoc]

theorem State.clearKeyCode_eq_zero_iff (s : State) (k : Fin 8) (l : List Byte) : s.clearKeyCode k l = 0 ↔
    s.lifecycle = 2 ∧ s.holdsPerm k 0 = true ∧ s.on SEC_STATUS_jtag_open = false ∧ s.slotBusy (argBe l 0 1) = false ∧ l.length = 4 ∧
      argBe l 1 3 = 0 ∧ argBe l 0 1 ≤ 63 := by
  rw [State.clearKeyCode, firstCode_eq_zero_iff (by simp)]
  simp [and_assoc]

theorem State.rucksackCode_eq_zero {s : State} {k : Fin 8} {l : List Byte} (h : s.rucksackCode k l = 0) :
    s.lifecycle = 2 ∧ s.holdsPerm k 1 = true ∧ s.on SEC_STATUS_sealed = false ∧ s.on SEC_STATUS_jtag_open = false ∧
      bit (s.get SEC_POLICY_flags) 2 = true ∧ l.length = 17 ∧ argBe l 12 1 ≤ 7 ∧ s.memStatus (argBe l 0 8) (argBe l 8 4) = none := by
  rw [State.rucksackCode, firstCode_eq_zero_iff (by simp)] at h
  simp only [List.forall_mem_cons, Bool.or_eq_false_iff, decide_eq_false_iff_not, Bool.not_eq_false', Decidable.not_not] at h
  obtain ⟨h1, h2, h3, h4, h5, -, ⟨⟨⟨⟨⟨⟨⟨⟨⟨⟨⟨⟨⟨⟨hlen, hport⟩, hmem⟩, -⟩, -⟩, -⟩, -⟩, -⟩, -⟩, -⟩, -⟩, -⟩, -⟩, -⟩, -⟩, -⟩ := h
  exact ⟨h1, h2, h3, h4, h5, hlen, by omega, by simpa using hmem⟩

/-! ## The commands -/

theorem State.secBare_ok (s : State) (k : Fin 8) (opcode tag seq : Nat) {l : List Byte} (go : State) (hl : l = []) :
    s.secBare k opcode tag seq l go = go := if_neg (not_not_intro hl)

theorem State.rucksackOpen_eq (s : State) (k : Fin 8) (tag seq : Nat) (l : List Byte) :
    s.rucksackOpen k tag seq l = if s.rucksackCode k l = 0
      then s.setSec { s.sec with
        opening := some {
          port := argBe l 12 1, base := argBe l 13 2, size := argBe l 15 2, addr := argBe l 0 8, id := s.le (argBe l 0 8 + 8) 4,
          limit := s.le (argBe l 0 8 + 16) 4, ptLen := s.le (argBe l 0 8 + 20) 4, sess := k, seq := seq, tag := tag } }
      else s.secReply k 0x34 tag seq (s.rucksackCode k l) [] := by
  rw [State.rucksackOpen]
  exact ite_not (s.rucksackCode k l = 0) _ _

theorem State.rucksackClose_ok {s : State} {k : Fin 8} {l : List Byte} (tag seq : Nat) (hp : s.holdsPerm k 1 = true) (hl : l.length = 4)
    (h7 : argBe l 0 1 ≤ 7) (h0 : argBe l 1 3 = 0) :
    s.rucksackClose k tag seq l = (s.closeRegion (argBe l 0 1) false).secReply k 0x35 tag seq 0 [] := by
  have hc : firstCode [(!s.holdsPerm k 1, 2), (decide (l.length ≠ 4) || decide (7 < argBe l 0 1) || decide (argBe l 1 3 ≠ 0), 7)] = 0 := by
    rw [firstCode_eq_zero_iff (by simp)]
    simp [hp, hl, h7, h0]
  simp only [State.rucksackClose, hc, if_true]

theorem State.getReceipt_ok {s : State} {k : Fin 8} (tag seq : Nat) (hp : s.holdsPerm k 1 = true) :
    s.getReceipt k tag seq = match s.receipts with
      | [] => s.secReply k 0x36 tag seq 0 (beBytes 0 4)
      | r :: q => (({ s with receipts := q }).put SEC_RCPT_queued q.length).secReply k 0x36 tag seq 0 (beBytes 1 4 ++ r) := by
  rw [State.getReceipt, hp]
  rfl

theorem State.tamperLog_ok (s : State) (k : Fin 8) (tag seq : Nat) {l : List Byte} (hl : l.length = 4) (h0 : argBe l 1 3 = 0)
    (h32 : argBe l 0 1 < 32) : s.tamperLog k tag seq l =
      let x := s.sec.tlog.getD (argBe l 0 1) { sensor := 0, cls := 0, flags := 0, aon := 0, ts := 0 }
      s.secReply k 0x37 tag seq 0 ([BitVec.ofNat 8 x.sensor, BitVec.ofNat 8 x.cls, BitVec.ofNat 8 x.flags, 0] ++
        beBytes x.aon 4 ++ beBytes x.ts 8) := by
  rw [State.tamperLog, if_neg (by omega)]

theorem State.unseal_eq (s : State) (k : Fin 8) (tag seq : Nat) (l : List Byte) : s.unseal k tag seq l =
    let code := firstCode ([(!s.holdsPerm k 2, 2), (decide (l.length ≠ if s.lifecycle = 2 then 96 else 0), 7)] ++
      if s.lifecycle = 2 then s.signChecks k 0x39 l else [])
    let b := if s.lifecycle = 2 then s.signJudged k code else s
    (if code = 0 ∧ b.on SEC_STATUS_sealed = true then (b.put SEC_STATUS_sealed 0).ev 392 else b).secReply k 0x39 tag seq code [] := by
  simp only [State.unseal, decide_eq_true_eq]

/-- Settles O46: a well-formed security command that nothing turns away runs where its checks give code 0 and replies the first check
that fails otherwise. -/
theorem securityCommands : Obligations.SecurityCommands := by
  intro s k raw rx l tag hl htag
  subst hl htag
  refine ⟨fun h hl => ?_, fun h hl => ?_, fun h => ?_, fun h => ?_, fun h => ?_, fun h hlen h7 h0 hp => ?_, fun h hl hp => ?_,
    fun h hlen h0 h32 => ?_, fun h => ?_, fun h => ?_, fun h => ?_, s.loadKeyCode_eq_zero_iff k _, s.clearKeyCode_eq_zero_iff k _,
    State.rucksackCode_eq_zero⟩
  all_goals refine congrArg Host.Outcome.next (State.served_of_sec h rfl (by decide) fun a ha => ?_)
  · exact a.secBare_ok k 0x30 _ _ _ hl
  · exact a.secBare_ok k 0x31 _ _ _ hl
  · rfl
  · rfl
  · exact a.rucksackOpen_eq k _ _ _
  · exact State.rucksackClose_ok _ _ ((ha 1).trans hp) hlen h7 h0
  · exact (a.secBare_ok k 0x36 _ _ _ hl).trans (State.getReceipt_ok _ _ ((ha 1).trans hp))
  · exact a.tamperLog_ok k _ _ hlen h0 h32
  · rfl
  · exact a.unseal_eq k _ _ _
  · rfl

/-! ## Signed commands (R442, R453) -/

theorem State.signJudged_ok {s v : State} {k : Fin 8} (hv : v = s.setSess k { s.net.sess[k] with chal := none }) :
    s.signJudged k 0 = v.authOk := by
  rw [State.signJudged, ← hv]
  rfl

theorem State.signJudged_failed {s v : State} {k : Fin 8} (hv : v = s.setSess k { s.net.sess[k] with chal := none }) :
    s.signJudged k 12 = v.authFail := by
  rw [State.signJudged, ← hv]
  rfl

section
variable {s v : State} {k : Fin 8} (tag seq : Nat) {l : List Byte} (hlife : s.lifecycle = 2) (hperm : s.holdsPerm k 2 = true)
  (hchal : s.challengeOk k = true) (hv : v = s.setSess k { s.net.sess[k] with chal := none })
include hlife hperm hchal hv

section
variable (hseal : s.on SEC_STATUS_sealed = false)
include hseal

section
variable (hlen : l.length = 112) (hrsv : policyRsvOk (l.take 8) = true) (hzero : zeros l 12 4 = true)
include hlen hrsv hzero

theorem State.setPolicy_signed {u : State} (hu : u = v.authOk) (hsign : s.cmdSigned k 0x38 l = true) :
    s.setPolicy k tag seq l = (State.showPolicy { u with sec := { u.sec with
      polFlags := bytesBits l 0 0 4
      polTamper := bytesBits l 2 0 14
      credFloor := max u.sec.credFloor (argBe l 8 4) } }).secReply k 0x38 tag seq 0 [] := by
  have hj := (State.signJudged_ok hv).trans hu.symm
  simp only [State.setPolicy, State.signChecks, hlife, hperm, hseal, hlen, hrsv, hzero, hsign, hchal, firstCode, List.cons_append,
    List.nil_append, ne_eq, not_true_eq_false, decide_false, Bool.not_true, Bool.or_self, Bool.false_eq_true, if_false, hj, if_true]
  rfl

theorem State.setPolicy_unsigned (hsign : s.cmdSigned k 0x38 l = false) :
    s.setPolicy k tag seq l = v.authFail.secReply k 0x38 tag seq 12 [] := by
  have hj := State.signJudged_failed hv
  simp only [State.setPolicy, State.signChecks, hlife, hperm, hseal, hlen, hrsv, hzero, hsign, hchal, firstCode, List.cons_append,
    List.nil_append, ne_eq, not_true_eq_false, decide_false, Bool.not_true, Bool.not_false, Bool.or_self, Bool.false_eq_true, if_false,
    if_true, hj, show ¬ 12 = 0 by decide]

end

variable (hlen : l.length = 96)
include hlen

theorem State.release_signed {u : State} (hu : u = v.authOk) (hsign : s.cmdSigned k 0x3A l = true) :
    s.release k tag seq l = u.zeroKeyStore.showLifecycle.secReply k 0x3A tag seq 0 [] := by
  have hj := (State.signJudged_ok hv).trans hu.symm
  simp only [State.release, State.signChecks, hlife, hperm, hseal, hlen, hsign, hchal, firstCode, List.cons_append,
    List.nil_append, ne_eq, not_true_eq_false, decide_false, Bool.not_true, Bool.false_eq_true, if_false, hj, if_true]

theorem State.release_unsigned (hsign : s.cmdSigned k 0x3A l = false) :
    s.release k tag seq l = v.authFail.secReply k 0x3A tag seq 12 [] := by
  have hj := State.signJudged_failed hv
  simp only [State.release, State.signChecks, hlife, hperm, hseal, hlen, hsign, hchal, firstCode, List.cons_append, List.nil_append, ne_eq,
    not_true_eq_false, decide_false, Bool.not_true, Bool.not_false, Bool.false_eq_true, if_false, if_true, hj, show ¬ 12 = 0 by decide]

end

theorem State.unseal_signed {u : State} (hu : u = v.authOk) (hlen : l.length = 96) (hseal : u.on SEC_STATUS_sealed = true)
    (hsign : s.cmdSigned k 0x39 l = true) :
    s.unseal k tag seq l = ((u.put SEC_STATUS_sealed 0).ev 392).secReply k 0x39 tag seq 0 [] := by
  have hj := (State.signJudged_ok hv).trans hu.symm
  simp only [State.unseal_eq, State.signChecks, hlife, hperm, hlen, hsign, hchal, firstCode, List.cons_append, List.nil_append, ne_eq,
    not_true_eq_false, decide_false, Bool.not_true, Bool.false_eq_true, if_false, hj, if_true, hseal, and_self]

end

/-! ## The key store is erased (R446) -/

theorem State.closeRegion_eq (s : State) (p : Nat) (used : Bool) :
    ∃ c, s.closeRegion p used = s.setSec { s.sec with closing := c } := by
  rw [State.closeRegion]
  split
  · exact ⟨_, rfl⟩
  · exact ⟨s.sec.closing, rfl⟩

/-- The start of every region's zeroing changes nothing but the list of what is being zeroed. -/
theorem State.closeRegions_eq (s : State) : ∃ c, s.closeRegions = s.setSec { s.sec with closing := c } := by
  rw [State.closeRegions]
  generalize List.range 8 = l
  induction l generalizing s with
  | nil => exact ⟨s.sec.closing, rfl⟩
  | cons p l ih =>
    obtain ⟨c, hc⟩ := s.closeRegion_eq p false
    obtain ⟨d, hd⟩ := ih (s.closeRegion p false)
    refine ⟨d, ?_⟩
    rw [List.foldl_cons, hd, hc]
    rfl

theorem State.zeroKeyStore_erased (u : State) : u.zeroKeyStore.sec.owner = false ∧ u.zeroKeyStore.sec.ork = 0 ∧
    u.zeroKeyStore.sec.keys = [] ∧ u.zeroKeyStore.useTab = [] ∧ u.zeroKeyStore.receipts = [] ∧
    ∀ j : Fin 8, u.zeroKeyStore.net.sess[j].keys = none := by
  rw [State.zeroKeyStore]
  dsimp only
  generalize hw : State.clearKeys _ = w
  obtain ⟨c, hc⟩ := State.closeRegions_eq { w with net := { w.net with sess := w.net.sess.map SessH.clearKeys } }
  rw [hc]
  subst hw
  refine ⟨rfl, rfl, rfl, rfl, rfl, fun j => ?_⟩
  change (Vector.map SessH.clearKeys _)[j.val].keys = none
  rw [Vector.getElem_map]
  rfl

/-- Settles O47: a verified signature puts the policy in force, ends SEALED or erases the key store, and one that does not verify is
code 12. -/
theorem signedCommands : Obligations.SignedCommands := by
  intro s u v k tag seq l hlife hperm hchal hv hu
  exact ⟨fun hseal hlen hrsv hzero => ⟨State.setPolicy_signed tag seq hlife hperm hchal hv hseal hlen hrsv hzero hu,
      State.setPolicy_unsigned tag seq hlife hperm hchal hv hseal hlen hrsv hzero⟩,
    fun hlen => ⟨State.unseal_signed tag seq hlife hperm hchal hv hu hlen,
      fun hseal => ⟨State.release_signed tag seq hlife hperm hchal hv hseal hlen hu,
        State.release_unsigned tag seq hlife hperm hchal hv hseal hlen⟩⟩,
    u.zeroKeyStore_erased⟩

/-! ## Regions and receipts (R436, R437, R439) -/

theorem State.fillRegion_sec (s : State) (p base : Nat) (l : List Byte) (n : Nat) : (s.fillRegion p base l n).sec = s.sec := by
  induction n with
  | zero => rfl
  | succ n ih =>
    rw [State.fillRegion]
    split
    · rw [State.setBytes_sec, State.zeroMem_sec, ih]
    · exact ih

section
variable {s : State} {o : RkOpen} (ho : s.sec.opening = some o) (hhold : s.on CAL_STATUS_crypto_hold = false) (hon : s.domainOn 43 = true)
include ho hhold hon

theorem State.rucksackLock_failed (hp : s.rucksackPlain o = none) : s.rucksackLock = (s.endOpen 12).authFail := by
  simp only [State.rucksackLock, ho, hhold, hon, hp, Bool.not_true, Bool.false_eq_true, or_self, if_false]

theorem State.rucksackLock_locked {text : List Byte} {u : State} {tab : List (Nat × Nat × Nat)} {left : Nat}
    (hp : s.rucksackPlain o = some text)
    (hu : u = State.setSec (s.authOk.fillRegion o.port o.base text o.size)
      { (s.authOk.fillRegion o.port o.base text o.size).sec with opening := none })
    (htab : tab = (if u.useTab.any (fun x => decide (x.1 = o.id)) then u.useTab else u.useTab ++ [(o.id, 0, o.limit)]))
    (hleft : left = (match tab.find? (fun x => decide (x.1 = o.id)) with | some (_, n, limit) => limit - n | none => 0)) :
    s.rucksackLock = ((((({ u with useTab := tab }).wn (SEC_RK_REGION o.port) (o.base + 2 ^ 16 * o.size + 2 ^ 31)).wn
      (SEC_RK_ID o.port) o.id).wn (SEC_RK_LEFT o.port) left).ev 397).openReply o 0 (beBytes left 4) := by
  have hu' : u = (s.authOk.fillRegion o.port o.base text o.size).setSec { s.sec with opening := none } := by
    rw [hu, State.fillRegion_sec]
    rfl
  simp only [State.rucksackLock, ho, hhold, hon, hp, Bool.not_true, Bool.false_eq_true, or_self, if_false, ← hu', ← htab]
  rw [hleft] <;> rfl

end

theorem State.regionZeroed_closing {s u : State} {p : Nat} {used : Bool}
    (hf : s.sec.closing.find? (fun x => decide (x.1 = p)) = some (p, used))
    (hu : u = (((s.fillRegion p (s.get (SEC_RK_REGION_base p)) [] (s.get (SEC_RK_REGION_size p))).wn (SEC_RK_REGION p) 0).wn
      (SEC_RK_ID p) 0).wn (SEC_RK_LEFT p) 0) :
    s.regionZeroed p = State.evIf { u with sec := { u.sec with
      closing := u.sec.closing.filter fun x => decide (x.1 ≠ p) } } used 399 := by
  simp only [State.regionZeroed, hf, ← hu]
  rfl

theorem State.receiptQueued_owed {s u : State} {p : Fin 8} {r : RunUse} (hr : s.port[p].owed = some r)
    (hu : u = State.put { s.setPort p { s.port[p] with owed := none } with receipts := s.receipts ++ [s.receiptBytes p r] }
      SEC_RCPT_queued (s.receipts.length + 1)) :
    s.receiptQueued p = if r.use = r.limit then u.closeRegion p true else u := by
  simp only [State.receiptQueued, hr, List.length_append, List.length_singleton, ← hu]

/-- Settles O48: a verified package locks its region, a failed one ends the opening, a zeroed region is unlocked, and a port's receipt
joins the queue. -/
theorem regionsAndReceipts : Obligations.RegionsAndReceipts := by
  refine fun s => ⟨fun o ho hhold hon => ⟨fun hp => ?_, fun text u tab left hp hu htab hleft => ?_⟩, fun p used u hf hu => ?_,
    fun p r u hr hu => ?_⟩
  · exact congrArg (fun t : State => finishSync t.netGo) (State.rucksackLock_failed ho hhold hon hp)
  · exact congrArg (fun t : State => finishSync t.netGo) (State.rucksackLock_locked ho hhold hon hp hu htab hleft)
  · exact congrArg finish (State.regionZeroed_closing hf hu)
  · exact congrArg finish (State.receiptQueued_owed hr hu)

end Sys2Proof.Machine
end

section
/-! PROOFS. The bulk channels (R415, R416): the request of a quiet session is executed, fails, waits, or meets an uncorrectable line. -/

namespace Sys2Proof.Machine

/-! ## The request at the head of a bulk channel -/

theorem findSome_single {α β : Type} {l : List α} {f : α → Option β} {x : α} (hx : x ∈ l) (h : ∀ y ∈ l, y ≠ x → f y = none) :
    l.findSome? f = f x := by
  cases hf : f x with
  | none =>
    refine List.findSome?_eq_none_iff.mpr fun y hy => ?_
    by_cases e : y = x
    · rw [e, hf]
    · exact h y hy e
  | some b =>
    induction l with
    | nil => cases hx
    | cons y l ih =>
      by_cases e : y = x
      · rw [List.findSome?_cons, e, hf]
      · rw [List.findSome?_cons, h y (by simp) e]
        exact ih ((List.mem_cons.mp hx).resolve_left (Ne.symm e)) fun z hz => h z (by simp [hz])

/-- The bulk channels of the sessions, in the order in which they are served. -/
def bulkChannels : List (Fin 8 × Fin 7) := (List.finRange 8).flatMap fun (k : Fin 8) => [(k, (1 : Fin 7)), (k, 2), (k, 3), (k, 4)]

theorem mem_bulkChannels {k : Fin 8} {c : Fin 7} (h1 : 1 ≤ c.val) (h4 : c.val ≤ 4) : (k, c) ∈ bulkChannels := by
  revert k c
  decide

/-- The request at the head of a bulk channel is tried. -/
def State.headStep (s : State) (y : Fin 8 × Fin 7) : Option State :=
  match (s.chan y.1 y.2).todo with
  | x :: l => (s.setChan y.1 y.2 { s.chan y.1 y.2 with todo := l }).bulkStep y.1 y.2 x
  | [] => none

theorem State.headStep_nil {s : State} {y : Fin 8 × Fin 7} (h : (s.chan y.1 y.2).todo = []) : s.headStep y = none := by
  rw [State.headStep, h]

theorem State.headStep_cons {s : State} {k : Fin 8} {c : Fin 7} {x : RxItem} {l : List RxItem} (h : (s.chan k c).todo = x :: l) :
    s.headStep (k, c) = (s.setChan k c { s.chan k c with todo := l }).bulkStep k c x := by
  rw [State.headStep, h]

section
variable {s : State} {k : Fin 8} {c : Fin 7} {raw rx : Rx} (hd : s.dataOk k c raw rx = true) (h1 : 1 ≤ c.val) (h4 : c.val ≤ 4)
include hd h1

theorem State.delivered_mgmtTodo (todo : List RxItem) (j : Fin 8) : ((s.delivered k c rx todo).chan j 0).todo = [] :=
  State.delivered_todo_ne hd todo fun e => by
    have := congrArg Fin.val e.2
    simp at this
    omega

include h4

/-- With no management request, the one bulk request that waits is tried. -/
theorem State.netRun_delivered (n : Nat) (x : RxItem) : State.netRun (n + 1) (s.delivered k c rx [x]) =
    (((s.delivered k c rx []).bulkStep k c x).map (State.netRun n)).getD (s.delivered k c rx [x]) := by
  have hready : ((List.range 8).filter fun n => decide (((s.delivered k c rx [x]).chan (Fin.ofNat 8 n) 0).todo ≠ []) &&
      (s.delivered k c rx [x]).sec.opening.isNone && (s.delivered k c rx [x]).csrWait.isNone) = [] := by
    refine List.filter_eq_nil_iff.mpr fun n _ => ?_
    rw [State.delivered_mgmtTodo hd h1]
    simp
  have hnext : bulkChannels.findSome? (s.delivered k c rx [x]).headStep = (s.delivered k c rx []).bulkStep k c x := by
    have hother : ∀ y ∈ bulkChannels, y ≠ (k, c) → (s.delivered k c rx [x]).headStep y = none := fun y _ hne =>
      State.headStep_nil (State.delivered_todo_ne hd [x] fun e => hne (Prod.ext e.1 e.2))
    rw [findSome_single (mem_bulkChannels h1 h4) hother, State.headStep_cons (State.delivered_todo s k c rx [x]),
      State.delivered_setTodo]
  rw [State.netRun, hready, rrFirst_nil]
  change (match bulkChannels.findSome? (s.delivered k c rx [x]).headStep with
    | some t => State.netRun n t
    | none => s.delivered k c rx [x]) = _
  rw [hnext]
  cases (s.delivered k c rx []).bulkStep k c x <;> rfl

/-- A bulk request that its session's quiet lets run at once. -/
theorem State.dataFrame_served_bulk {want : Nat → List Byte → Bool} {f : State → State} (hw : want rx.channel rx.payload = true)
    (hf : (s.delivered k c rx []).bulkStep k c (requestItem rx) = some (f (s.delivered k c rx []))) :
    (s.dataFrame raw want).holdFaults.syncSources = s.served k c rx f := by
  have hc : c ≠ 0 := fun e => by rw [e] at h1; simp at h1
  rw [State.dataFrame_of_dataOk hd hw, State.netGo, State.netFuel_delivered hd, Nat.add_comm 1 (1 + rx.bad.length),
    State.netRun_delivered hd h1 h4, hf, State.served]
  simp only [hc, if_false]
  rfl

/-- A bulk request that has to wait stays at the head of its channel. -/
theorem State.dataFrame_served_waits {want : Nat → List Byte → Bool} (hw : want rx.channel rx.payload = true)
    (hf : (s.delivered k c rx []).bulkStep k c (requestItem rx) = none) : (s.dataFrame raw want).holdFaults.syncSources =
      s.served k c rx fun a => a.setChan k c { a.chan k c with todo := [requestItem rx] } := by
  have hc : c ≠ 0 := fun e => by rw [e] at h1; simp at h1
  have hstay (n : Nat) : State.netRun (n + 1) (s.delivered k c rx [requestItem rx]) = s.delivered k c rx [requestItem rx] := by
    rw [State.netRun_delivered hd h1 h4, hf]
    rfl
  rw [State.dataFrame_of_dataOk hd hw, State.netGo, State.netFuel_delivered hd, Nat.add_comm 1 (1 + rx.bad.length), hstay, State.served]
  simp only [hc, if_false]
  rw [← State.delivered, State.delivered_setTodo, Nat.add_comm 1, hstay]

end

/-! ## What a bulk request reads of the state -/

theorem State.setSess_memStatus (s : State) (k : Fin 8) (x : SessH) (a n : Nat) : (s.setSess k x).memStatus a n = s.memStatus a n := by
  have hon : ∀ d, (s.setSess k x).domainOn d = s.domainOn d := fun _ => rfl
  have hget : ∀ f, (s.setSess k x).get f = s.get f := fun _ => rfl
  have hcs : (s.setSess k x).cs = s.cs := rfl
  have hwin : ∀ u i, (s.setSess k x).windowSize u i = s.windowSize u i := fun _ _ => rfl
  have hring : ∀ p h, (s.setSess k x).ringHides p h = s.ringHides p h := fun _ _ => rfl
  have hlock : ∀ p, (s.setSess k x).lockedRegion p = s.lockedRegion p := fun _ => rfl
  have hfar : ∀ a b, (s.setSess k x).farCovered a b = s.farCovered a b := fun _ _ => rfl
  simp only [State.memStatus, hon, hget, hcs, hwin, hring, hlock, hfar]

theorem State.setSess_memWaits (s : State) (k : Fin 8) (x : SessH) (a n : Nat) : (s.setSess k x).memWaits a n = s.memWaits a n := by
  have hget : ∀ f, (s.setSess k x).get f = s.get f := fun _ => rfl
  have hon : ∀ f, (s.setSess k x).on f = s.on f := fun _ => rfl
  simp only [State.memWaits, hget, hon]

theorem State.setSess_mayMove (s : State) (k : Fin 8) (x : SessH) (r a n : Nat) : (s.setSess k x).mayMove r a n = s.mayMove r a n := rfl

theorem State.setSess_badLine (s : State) (k : Fin 8) (x : SessH) (y : Nat × Nat) : (s.setSess k x).badLine y = s.badLine y := by
  have hline : ∀ a, (s.setSess k x).lineData a = s.lineData a := State.lineData_congr rfl
  have hdmc : (s.setSess k x).dmc = s.dmc := rfl
  simp only [State.badLine, State.lineRead, State.rawLine, hline, hdmc]

theorem State.setSess_unmet (s : State) (k : Fin 8) (x : SessH) (y : RxItem) (l : List (Nat × Nat)) :
    (s.setSess k x).unmet y l = s.unmet y l := by
  simp only [State.unmet, State.lineLost, State.setSess_badLine]

/-! ## A bulk request that is well formed and permitted -/

section
variable {s : State} {k : Fin 8} {c : Fin 7} {x : RxItem} {op len addr tag req : Nat} {errs : List (Nat × Nat)}
  (h16 : 16 ≤ x.payload.length) (hop : op = argBe x.payload 0 1) (hlen : len = argBe x.payload 4 4) (haddr : addr = argBe x.payload 8 8)
  (htag : tag = argBe x.payload 2 2) (hreq : req = 27 + s.get (NET_SESS_STATUS_port k)) (ha : addr % 4 = 0) (hl : len % 4 = 0)
  (hperm : s.holdsPerm k 0 = true) (hlim : s.net.sess[k].limited = false) (hmet : x.met = [])
  (hkind : op = 1 ∧ x.payload.length = 16 + len ∧ errs = mergedLines x addr len ∨
    op = 2 ∧ x.payload.length = 16 ∧ 0 < len ∧ len ≤ 0x1000000 ∧ errs = x.badIn addr len)
include h16 hop hlen haddr htag hreq ha hl hperm hlim hmet hkind

/-- The checks of form, permission and alignment pass: what is left is what memory says. -/
theorem State.bulkStep_checked : s.bulkStep k c x =
    match s.memStatus addr len with
    | some st => some (s.bulkFail k c (5 - op) st tag addr)
    | none =>
      if s.memWaits addr len || !s.mayMove req addr len || !s.mayMove req (addr + len - 1) 1 then none
      else match s.unmet x errs with
      | some y => s.bulkFreeze k c x req (2 - op) y
      | none =>
        if op = 1 then
          let b := ((s.correctLines req 1 errs).mergedWrite errs addr (x.payload.drop 16)).unpattern addr len
          some (if bit (argBe x.payload 1 1) 0 then b.enqueue k c (bulkFrame 4 0 tag 0 addr []) else b)
        else
          some ((s.readFrames x tag (len / 4032 + 2) addr len).foldl (fun (a : State) f => a.enqueue k c f)
            ((s.correctLines req 0 errs).poisoned req errs)) := by
  have hform : ¬(x.payload.length < 16 ∨ (op ≠ 1 ∧ op ≠ 2) ∨ (op = 1 ∧ x.payload.length ≠ 16 + len) ∨
      (op = 2 ∧ x.payload.length ≠ 16)) := by omega
  have hpermit : ¬(!s.holdsPerm k 0 || s.net.sess[k].limited) = true := by rw [hperm, hlim]; decide
  have halign : ¬(addr % 4 ≠ 0 ∨ len % 4 ≠ 0 ∨ (op = 2 ∧ (len = 0 ∨ 0x1000000 < len))) := by omega
  have hall : ∀ l : List (Nat × Nat), (l.filter fun y => !x.met.contains (y.1 / 64)) = l := fun l => by
    simp [hmet]
  rw [State.bulkStep]
  simp only [← hop, ← hlen, ← haddr, ← htag, ← hreq, hform, hpermit, halign, hall, if_false]
  obtain ⟨h1, -, he⟩ | ⟨h2, -, -, -, he⟩ := hkind
  · have h2 : ¬op = 2 := by omega
    simp only [h1, show ¬ 1 = 2 by decide, Bool.false_eq_true, if_true, if_false, Nat.reduceSub, ← he] <;> rfl
  · have h1 : ¬op = 1 := by omega
    simp only [h2, show ¬ 2 = 1 by decide, Bool.false_eq_true, if_true, if_false, Nat.reduceSub, ← he] <;> rfl

theorem State.bulkStep_fails {st : Nat} (hst : s.memStatus addr len = some st) :
    s.bulkStep k c x = some (s.enqueue k c (bulkFrame (5 - op) st tag 0 addr [])) := by
  rw [State.bulkStep_checked h16 hop hlen haddr htag hreq ha hl hperm hlim hmet hkind, hst]
  rfl

theorem State.bulkStep_waits (hst : s.memStatus addr len = none) (hw : s.memWaits addr len = true ∨ s.mayMove req addr len = false ∨
    s.mayMove req (addr + len - 1) 1 = false) : s.bulkStep k c x = none := by
  have hor : (s.memWaits addr len || !s.mayMove req addr len || !s.mayMove req (addr + len - 1) 1) = true := by
    rcases hw with h | h | h <;> simp [h]
  rw [State.bulkStep_checked h16 hop hlen haddr htag hreq ha hl hperm hlim hmet hkind, hst]
  dsimp only
  rw [if_pos hor]

section
variable (hst : s.memStatus addr len = none) (hw : s.memWaits addr len = false) (hm : s.mayMove req addr len = true)
  (hm' : s.mayMove req (addr + len - 1) 1 = true)
include hst hw hm hm'

theorem State.bulkStep_meets {y : Nat × Nat} {ch : Fin 4} {r : List CwRead} (hy : s.unmet x errs = some y)
    (hb : s.badLine y = some (ch, r)) : s.bulkStep k c x =
      some (((s.setChan k c { s.chan k c with todo := { x with met := [y.1 / 64] } :: (s.chan k c).todo }).correctAll ch y.1 req (2 - op)
        (corrections r)).freeze ch (lineOf y.1) req (2 - op) (uncorrectables r) (decide (corrections r ≠ []))) := by
  rw [State.bulkStep_checked h16 hop hlen haddr htag hreq ha hl hperm hlim hmet hkind, hst, hw, hm, hm', hy]
  dsimp only
  rw [if_neg (by decide), State.bulkFreeze, hb, hmet]
  rfl

theorem State.bulkStep_runs (hy : s.unmet x errs = none) : s.bulkStep k c x = some (
    if op = 1 then
      let b := ((s.correctLines req 1 errs).mergedWrite errs addr (x.payload.drop 16)).unpattern addr len
      if bit (argBe x.payload 1 1) 0 then b.enqueue k c (bulkFrame 4 0 tag 0 addr []) else b
    else (s.readFrames x tag (len / 4032 + 2) addr len).foldl (fun (a : State) f => a.enqueue k c f)
      ((s.correctLines req 0 errs).poisoned req errs)) := by
  rw [State.bulkStep_checked h16 hop hlen haddr htag hreq ha hl hperm hlim hmet hkind, hst, hw, hm, hm', hy]
  dsimp only
  rw [if_neg (by decide)]
  split <;> rfl

end

end

/-- The session of a delivered frame is that of the taken one, but for its channels. -/
theorem State.delivered_sess (s : State) (k : Fin 8) (c : Fin 7) (rx : Rx) (todo : List RxItem) : ∃ x : Vector ChanH 7,
    (s.delivered k c rx todo).net.sess[k] = { (s.taken k rx).net.sess[k] with chans := x } :=
  ⟨_, Vector.getElem_set_self ..⟩

theorem State.delivered_eq (s : State) (k : Fin 8) (c : Fin 7) (rx : Rx) (todo : List RxItem) :
    ∃ x, s.delivered k c rx todo = (s.taken k rx).setSess k x := ⟨_, rfl⟩

/-- Settles O43: the bulk request of a quiet session is answered, waits, meets a new uncorrectable line, or moves its data. -/
theorem bulkTransfers : Obligations.BulkTransfers := by
  intro s k c raw rx len addr tag op req errs h1 h4 hd h16 hop hlen haddr htag hreq ha hl hperm hlim hkind
  obtain ⟨q, hq⟩ := s.delivered_sess k c rx []
  obtain ⟨q', hD⟩ := s.delivered_eq k c rx []
  have hperm' : (s.delivered k c rx []).holdsPerm k 0 = true := by rw [State.holdsPerm, hq]; exact hperm
  have hlim' : (s.delivered k c rx []).net.sess[k].limited = false := by rw [hq]; exact hlim
  have hstatus : (s.delivered k c rx []).memStatus addr len = (s.taken k rx).memStatus addr len := by rw [hD, State.setSess_memStatus]
  have hwaits : (s.delivered k c rx []).memWaits addr len = (s.taken k rx).memWaits addr len := by rw [hD, State.setSess_memWaits]
  have hmove : ∀ a n, (s.delivered k c rx []).mayMove req a n = (s.taken k rx).mayMove req a n := fun a n => by
    rw [hD, State.setSess_mayMove]
  have hunmet : (s.delivered k c rx []).unmet (requestItem rx) errs = (s.taken k rx).unmet (requestItem rx) errs := by
    rw [hD, State.setSess_unmet]
  have hbad : ∀ y, (s.delivered k c rx []).badLine y = (s.taken k rx).badLine y := fun y => by rw [hD, State.setSess_badLine]
  have hreq' : req = 27 + (s.delivered k c rx []).get (NET_SESS_STATUS_port k) := hreq
  have hchan : 1 ≤ rx.channel ∧ rx.channel ≤ 4 := by
    simp only [State.dataOk, Bool.and_eq_true, decide_eq_true_eq] at hd
    obtain ⟨⟨⟨⟨⟨-, hc⟩, -⟩, -⟩, -⟩, -⟩ := hd
    omega
  have hwrite : op = 1 → wantWrite rx.channel rx.payload = true := fun h => by simp [wantWrite, hchan, ← hop, h]
  have hread : op = 2 → wantRead rx.channel rx.payload = true := fun h => by simp [wantRead, hchan, ← hop, h]
  have hexec : ∀ {f : State → State}, (∀ want : Nat → List Byte → Bool, want rx.channel rx.payload = true →
      (s.dataFrame raw want).holdFaults.syncSources = s.served k c rx f) →
      exec (if op = 1 then .bulkWrite raw else .bulkRead raw) s = .next (s.served k c rx f) := by
    intro f hf
    by_cases h : op = 1
    · rw [if_pos h]
      exact congrArg Host.Outcome.next (hf wantWrite (hwrite h))
    · rw [if_neg h]
      exact congrArg Host.Outcome.next (hf wantRead (hread (by omega)))
  refine ⟨fun st hst => hexec fun want hw => State.dataFrame_served_bulk hd h1 h4 hw ?_,
    fun hst => ⟨fun hwt => hexec fun want hw => State.dataFrame_served_waits hd h1 h4 hw ?_,
      fun hwt hm hm' => ⟨fun y ch r hy hb => hexec fun want hw => State.dataFrame_served_bulk hd h1 h4 hw ?_,
        fun hy => ⟨fun ho => congrArg Host.Outcome.next (State.dataFrame_served_bulk hd h1 h4 (hwrite ho) ?_),
          fun ho => congrArg Host.Outcome.next (State.dataFrame_served_bulk hd h1 h4 (hread ho) ?_)⟩⟩⟩, fun data a => rfl⟩
  · exact State.bulkStep_fails h16 hop hlen haddr htag hreq' ha hl hperm' hlim' rfl hkind (hstatus.trans hst)
  · refine State.bulkStep_waits h16 hop hlen haddr htag hreq' ha hl hperm' hlim' rfl hkind (hstatus.trans hst) ?_
    rw [hwaits, hmove, hmove]
    exact hwt
  · rw [State.bulkStep_meets h16 hop hlen haddr htag hreq' ha hl hperm' hlim' rfl hkind (hstatus.trans hst) (hwaits.trans hwt)
      ((hmove _ _).trans hm) ((hmove _ _).trans hm') (hunmet.trans hy) ((hbad y).trans hb), State.delivered_todo]
  · rw [State.bulkStep_runs h16 hop hlen haddr htag hreq' ha hl hperm' hlim' rfl hkind (hstatus.trans hst) (hwaits.trans hwt)
      ((hmove _ _).trans hm) ((hmove _ _).trans hm') (hunmet.trans hy), if_pos ho]
    rfl
  · rw [State.bulkStep_runs h16 hop hlen haddr htag hreq' ha hl hperm' hlim' rfl hkind (hstatus.trans hst) (hwaits.trans hwt)
      ((hmove _ _).trans hm) ((hmove _ _).trans hm') (hunmet.trans hy), if_neg (by omega)]

end Sys2Proof.Machine
end

section
/-! PROOFS. The life of a session: HELLO and CONFIRM, the frames that end or keep it, and the timers and frames of the device. -/

namespace Sys2Proof.Machine

/-! ## HELLO (R402, R407) -/

section
variable {s a b u : State} {rx : Rx} {p : Fin 2} (hp : p = Fin.ofNat 2 rx.port) (hlink : s.linkUp p = true) (ha : a = s.rxCount p)
  (hpol : (b, true) = a.police p rx.mac) (hboot : b.boot.stage = 4) (hip : b.ipTakes p rx = true) (hlen : rxLengthOk rx = true)
  (hmagic : rx.magic = 0x414D)
include hp hlink ha hpol hboot hip hlen hmagic

theorem State.receive_hello : s.receive 0x01 rx = b.hello rx := by
  simp only [State.receive, ← hp, hlink, ← ha, ← hpol, hboot, hip, hlen, hmagic, ne_eq, not_true_eq_false, false_and, or_self, Bool.not_true,
    Bool.false_eq_true, if_false, if_true]

/-- A frame of no open session passes the policer and comes to the checks of its session. -/
theorem State.receive_unopened {typ : Nat} (h1 : typ ≠ 1) (hof : a.ofOpen rx = false) (hver : rx.version = 1) :
    s.receive typ rx = b.checkSession typ rx := by
  simp only [State.receive, ← hp, hlink, ← ha, hof, ← hpol, hboot, hip, hlen, hmagic, hver, h1, ne_eq, not_true_eq_false, and_false,
    or_self, Bool.not_true, Bool.false_eq_true, if_false]

end

theorem State.hello_welcome {b u : State} {rx : Rx} {k : Fin 8} (hlife : b.lifecycle ≠ 3) (hseal : b.sealedFor rx.payload = false)
    (hver : rx.version = 1) (hform : helloForm rx.payload = true) (henc : b.lifecycle = 2 → bit (argBe rx.payload 0 1) 0 = true)
    (hcred : b.credOk rx = true) (hu : u = (if argBe rx.payload 2 2 = 0 then b else b.authOk))
    (hslot : u.helloSlot rx.payload = some k) (href : u.slotRefusal k rx.payload = none) : b.hello rx = u.welcome rx k := by
  have hne : ¬(b.lifecycle = 2 ∧ bit (argBe rx.payload 0 1) 0 = false) := fun h => by simp [henc h.1] at h
  simp only [State.hello, hlife, hseal, hver, hform, hne, hcred, ← hu, hslot, href, ne_eq, not_true_eq_false, Bool.not_true,
    Bool.false_eq_true, if_false]

theorem decide_mod_two_eq_bit (x : Nat) : decide (x % 2 = 1) = bit x 0 := by
  rw [bit_eq_testBit, Nat.testBit_zero]

/-- WELCOME carries the offer that the session slot keeps. -/
theorem State.welcome_offer (u : State) {rx : Rx} (k : Fin 8) {p : Fin 2} (hp : p = Fin.ofNat 2 rx.port) :
    ∃ (o : Offer) (v : State), u.welcome rx k = v.transmit p (.amiuc o.peer (amiucHeader 0x02 0 k 0xFF 0 0 0 0 304 o.sid 0) o.welcome) ∧
      v = (State.setSess { u with fresh := u.fresh + 3 } k { u.net.sess[k] with offer := some o }).sessEnter k 1 ∧
      o.sid = (Config.freeValue u.fresh).toNat % 2 ^ 32 ∧ o.hello = rx.payload ∧ o.before = u.sessState k ∧ o.at_ = u.tmb.clk ∧
      o.enc = bit (argBe rx.payload 0 1) 0 ∧ o.resume = bit (argBe rx.payload 0 1) 1 ∧ o.limited = u.on SEC_STATUS_sealed ∧
      o.perms = (if argBe rx.payload 2 2 = 0 then 7 else argBe rx.payload 140 4) ∧
      o.peer = { port := p.val, mac := rx.mac, v6 := rx.v6, ip := rx.ip, uport := rx.uport } := by
  subst hp
  generalize hW : u.welcome rx k = W
  dsimp -zeta only [State.welcome, State.draw] at hW
  extract_lets l enc resume sid nonce eph seqs body header payload peer none_ o old v at hW
  refine ⟨o, v, hW.symm, rfl, rfl, rfl, rfl, rfl, decide_mod_two_eq_bit _, rfl, rfl, ?_, rfl⟩
  exact ite_congr (propext decide_eq_true_iff) (fun _ => rfl) fun _ => rfl

/-! ## CONFIRM (R403) -/

section
variable {u v w : State} {k : Fin 8} {rx : Rx} {o : Offer} (hlen : rx.payload.length = 64) (hzero : argBe rx.payload 62 2 = 0)
  (hhash : rx.payload.take 48 = shaBytes (o.hello ++ o.welcome))
include hlen hzero hhash

/-- The session that a CONFIRM opens goes on from what the slot held with the offer. -/
theorem State.confirm_ok (hq : w.net.sess[k] = { u.net.sess[k] with offer := some o }) (hclk : w.tmb.clk = u.tmb.clk)
    (hv : v = w.authOk) : w.confirm k rx o =
      ((((((((((if o.resume then v else ((v.longOrphan k).openOrphan k).csrOrphan k).setSess k
        { keys := o.keys
          peer := { o.peer with mac := rx.mac, uport := rx.uport }
          perms := o.perms
          limited := o.limited
          rxSeen := rx.txc :: o.seen
          lastRx := u.tmb.clk
          lastTx := u.tmb.clk
          chans := Vector.ofFn fun c => { (if o.resume then u.net.sess[k].chans[c] else {}) with
            credit := argBe rx.payload (48 + 2 * c.val) 2
            creditTxc := rx.txc
            rto := 1 }
          evts := if o.resume then u.net.sess[k].evts else []
          lastEvt := if o.resume then u.net.sess[k].lastEvt else none
          ham := if o.resume then u.net.sess[k].ham else none }).wn (NET_SESS_SID k) o.sid).wn (NET_SESS_TXC k) 0).put
            (NET_SESS_STATUS_enc k) (if o.enc then 1 else 0)).put (NET_SESS_STATUS_port k) o.peer.port).put
            (NET_SESS_STATUS_resumed k) (if o.resume then 1 else 0)).sessEnter k 2).send k 0x11 0xFF 0 []).ev 356).pumpAll k := by
  rw [State.confirm, if_neg (by omega), if_neg (not_not_intro hhash), hq, hclk, ← hv]
  rfl

end

section
variable {b u : State} {k : Fin 8} {raw rx : Rx} {o : Offer}

theorem State.checkSession_plain {typ : Nat} (hsess : raw.session = k.val) (hpeer : b.fromPeer k raw = true)
    (henc : b.encMode k = bit raw.flags 0) (hhold : b.encMode k = true → b.on CAL_STATUS_crypto_hold = false)
    (hplain : b.plain k typ raw = some rx) : b.checkSession typ raw = b.checkPlain k typ rx := by
  have hlt : raw.session < 8 := hsess ▸ k.isLt
  have hkeq : (⟨raw.session, hlt⟩ : Fin 8) = k := Fin.ext hsess
  have hno : ¬(bit raw.flags 0 = true ∧ b.on CAL_STATUS_crypto_hold = true) := by
    rintro ⟨he, hc⟩
    rw [hhold (henc.trans he)] at hc
    exact absurd hc (by decide)
  rw [State.checkSession, dif_pos hlt]
  simp only [hkeq, hpeer, henc, hno, Bool.not_true, Bool.xor_self, Bool.or_self, Bool.false_eq_true, if_false]
  rw [State.checkTag, hplain]

theorem State.checkPlain_confirm (hu : u = (if b.encMode k then b.authOk else b)) (ho : u.net.sess[k].offer = some o)
    (hfresh : txcFresh o.seen rx.txc = true) (hchan : rx.channel = 0xFF) {o' : Offer} {w : State}
    (ho' : o' = { o with seen := txcTake o.seen rx.txc }) (hw : w = u.setSess k { u.net.sess[k] with offer := some o' }) :
    b.checkPlain k 0x03 rx = w.confirm k rx o' := by
  have hok : chanOk 0x03 rx.channel = true := by rw [hchan]; decide
  simp only [State.checkPlain, ← hu, ho, hfresh, hok, ← ho', ← hw, Bool.not_true, Bool.false_eq_true, if_false, if_true]

end

/-! ## The other frames of an open session (R400) -/

section
variable {s : State} {k : Fin 8} {typ : Nat} {raw rx : Rx} (h : s.frameOk k typ raw rx = true)
include h

theorem State.chanOk_of_frameOk : chanOk typ rx.channel = true := by
  simp only [State.frameOk, Bool.and_eq_true] at h
  exact h.1.1.2

theorem State.sessOpen_of_frameOk : (s.taken k rx).sessOpen k = true := by
  simp only [State.frameOk, Bool.and_eq_true] at h
  exact h.2

/-- A frame that names no channel brings no acknowledgement. -/
theorem State.openFrame_noChannel (hne : typ ≠ 0x10) (hc : rx.channel = 0xFF) : (s.taken k rx).openFrame k typ rx =
    if typ = 0x13 then (s.taken k rx).sessEnd k 0 17 else s.taken k rx := by
  rw [State.openFrame, dif_neg (by omega)]
  simp only [State.sessOpen_of_frameOk h, Bool.not_true, Bool.false_eq_true, if_false, hne, false_and, dite_false]

end

theorem State.receive_keepalive {s : State} {k : Fin 8} {raw rx : Rx} (h : s.frameOk k 0x12 raw rx = true) :
    s.receive 0x12 raw = s.taken k rx := by
  have hc : rx.channel = 0xFF := by simpa [chanOk] using State.chanOk_of_frameOk h
  rw [State.receive_of_frameOk (by decide) h, State.openFrame_noChannel h (by decide) hc, if_neg (by decide)]

theorem State.receive_close {s : State} {k : Fin 8} {raw rx : Rx} (h : s.frameOk k 0x13 raw rx = true) :
    s.receive 0x13 raw = (s.taken k rx).sessEnd k 0 17 := by
  have hc : rx.channel = 0xFF := by simpa [chanOk] using State.chanOk_of_frameOk h
  rw [State.receive_of_frameOk (by decide) h, State.openFrame_noChannel h (by decide) hc, if_pos rfl]

theorem State.receive_ack {s : State} {k : Fin 8} {c : Fin 7} {raw rx : Rx} (h : s.frameOk k 0x11 raw rx = true)
    (hc : rx.channel = c.val) (hf : bit rx.flags 1 = true) : s.receive 0x11 raw = (s.taken k rx).ackFields k c rx := by
  have hlt : rx.channel < 7 := hc ▸ c.isLt
  rw [State.receive_of_frameOk (by decide) h, State.openFrame, dif_pos ⟨hf, hlt⟩, show (⟨rx.channel, hlt⟩ : Fin 7) = c from Fin.ext hc]
  split
  · rfl
  · rw [dif_neg (by omega), if_neg (by decide)]

/-! ## Timers, and what the device sends of its own (R406, R408, R409, R411, R417, R418) -/

section
variable {s u : State} {k : Fin 8} {c : Fin 7}

theorem State.pendingTimeout_offered {o : Offer} (ho : s.net.sess[k].offer = some o) (hu : u = s.advanceTo (o.at_ + 100 * tuPerMs)) :
    s.pendingTimeout k = (u.setSess k { u.net.sess[k] with offer := none }).sessEnter k o.before := by
  simp only [State.pendingTimeout, ho, ← hu]

theorem State.keepaliveTimer_open (h : s.sessOpen k = true) :
    s.keepaliveTimer k = (s.advanceTo (s.net.sess[k].lastTx + 100 * tuPerMs)).send k 0x12 0xFF 0 [] := if_pos h

theorem State.sessionTimeout_open (h : s.sessOpen k = true) :
    s.sessionTimeout k = (s.advanceTo (s.net.sess[k].lastRx + 300 * tuPerMs)).sessEnd k 3 15 := if_pos h

theorem State.resumeTimeout_detached (h : s.sessState k = 3) : s.resumeTimeout k =
    (s.advanceTo (s.net.sess[k].endAt + s.get NET_RESUME_TMO_ms * tuPerMs)).sessFree k := if_pos h

theorem State.ackTimer_due (h : s.sessOpen k = true) (hdue : (s.chan k c).ackDue ≠ 0) : s.ackTimer k c = s.send k 0x11 c 0 [] :=
  if_pos ⟨h, hdue⟩

theorem State.retransmitTimer_due {x : TxFrame} {l : List TxFrame} (h : s.sessOpen k = true) (hx : (s.chan k c).unacked = x :: l)
    (hs : x.sacked = false) (hu : u = s.advanceTo (x.sentAt + (s.chan k c).rto * max 1 (s.get NET_RTO_us) * tuPerUs)) :
    s.retransmitTimer k c = (u.setChan k c { s.chan k c with rto := min 64 (2 * (s.chan k c).rto) }).resend k c x := by
  simp only [State.retransmitTimer, hx, h, hs, Bool.not_false, and_self, if_true, ← hu]

theorem State.hamperFrame_sent {i off : Nat} {t : Task} {body : List Byte} (hn : s.nextHamper k = some (i, off)) (ht : s.task i = some t)
    (hb : body = beBytes (t.hseq.getD 0) 4 ++ beBytes off 4 ++ ((t.hamper i).drop off).take 8184) (hm : s.maySend k 5 body = true) :
    s.hamperFrame k = (s.setSess k { s.net.sess[k] with
      ham := if (t.hamper i).length ≤ off + 8184 then none else some (i, off + 8184) }).sendData k 5 body
        (if (t.hamper i).length ≤ off + 8184 then some i else none) := by
  simp only [State.hamperFrame, hn, ht, ← hb, hm, if_true, decide_eq_true_eq]

theorem State.eventFrame_sent {body : List Byte} (he : s.net.sess[k].evts ≠ [])
    (hb : body = beBytes (s.net.sess[k].evts.take 511).length 2 ++ List.replicate 6 0 ++ (s.net.sess[k].evts.take 511).flatMap evtRecord)
    (hm : s.maySend k 6 body = true)
    (hu : u = (match s.net.sess[k].lastEvt with | some t => s.advanceTo (t + s.get NET_EVT_MIN_us * tuPerUs) | none => s)) :
    s.eventFrame k = (u.setSess k { u.net.sess[k] with
      evts := s.net.sess[k].evts.drop 511, lastEvt := some u.tmb.clk }).sendData k 6 body none := by
  have ht : s.net.sess[k].evts.take 511 ≠ [] := by simpa using he
  have hgo : ¬(s.net.sess[k].evts.take 511 = [] ∨ (!s.maySend k 6 body) = true) := by
    rw [hm]
    exact fun h => h.elim ht (by decide)
  simp only [State.eventFrame, ← hb, hgo, if_false]
  subst hu
  cases s.net.sess[k].lastEvt <;> rfl

end

/-- Settles O44: HELLO, CONFIRM and the other frames of a session, its timers, and what the device sends of its own. -/
theorem sessionLife : Obligations.SessionLife := by
  refine ⟨⟨?_, ?_, ?_⟩, ?_⟩
  · intro s a b u rx p k hp hlink ha hpol hboot hip hlen hmagic hlife hseal hver hform henc hcred hu hslot href
    refine ⟨congrArg finishSync ?_, u.welcome_offer k hp⟩
    rw [State.receive_hello hp hlink ha hpol hboot hip hlen hmagic, State.hello_welcome hlife hseal hver hform henc hcred hu hslot href]
  · intro s a b u v raw rx p k o hp hlink ha hpol hof hboot hip hlen hmagic hver hsess hpeer henc hhold hplain hu ho hfresh hchan hlen64
      hzero hhash hv
    obtain ⟨l, rfl⟩ : ∃ l, rx = { raw with payload := l } := ⟨_, State.eq_of_plain hplain⟩
    obtain ⟨o', ho'⟩ : ∃ o' : Offer, o' = { o with seen := txcTake o.seen raw.txc } := ⟨_, rfl⟩
    obtain ⟨w, hw⟩ : ∃ w : State, w = u.setSess k { u.net.sess[k] with offer := some o' } := ⟨_, rfl⟩
    have hpeer' : b.fromPeer k raw = true := hpeer
    have hsess' : raw.session = k.val := hsess
    have henc' : b.encMode k = bit raw.flags 0 := henc
    have hcheck := State.checkSession_plain hsess' hpeer' henc' hhold hplain
    have hin : s.receive 0x03 raw = w.confirm k { raw with payload := l } o' := by
      rw [State.receive_unopened (rx := raw) hp hlink ha hpol hboot hip hlen hmagic (by decide) hof hver,
        hcheck, State.checkPlain_confirm hu ho hfresh hchan ho' hw]
    have hq : w.net.sess[k] = { u.net.sess[k] with offer := some o' } := by
      rw [hw]
      exact Vector.getElem_set_self ..
    have hclk : w.tmb.clk = u.tmb.clk := by
      rw [hw]
      rfl
    have hok := State.confirm_ok (v := v) hlen64 hzero (by rw [ho']; exact hhash) hq hclk (by rw [hv, hw, ho'])
    rw [← hin] at hok
    refine congrArg finishSync (hok.trans ?_)
    rw [ho']
  · intro s k raw rx
    exact ⟨fun h => congrArg finishSync (State.receive_keepalive h), fun c h hc hf => congrArg finishSync (State.receive_ack h hc hf),
      fun h => congrArg finishSync (State.receive_close h)⟩
  · intro s k
    exact ⟨fun o u ho hu => congrArg finish (State.pendingTimeout_offered ho hu),
      fun h => ⟨congrArg finish (State.keepaliveTimer_open h), congrArg finish (State.sessionTimeout_open h)⟩,
      fun h => congrArg finish (State.resumeTimeout_detached h), fun c h hd => congrArg finish (State.ackTimer_due h hd),
      fun c x l u h hx hs hu => congrArg finish (State.retransmitTimer_due h hx hs hu),
      fun i off t body hn ht hb hm => congrArg finish (State.hamperFrame_sent hn ht hb hm),
      fun body u he hb hm hu => congrArg finish (State.eventFrame_sent he hb hm hu)⟩

end Sys2Proof.Machine
end

section
/-! PROOFS. What a device-wide reset leaves (R495 to R497, R502, Table 17.4): its stages one by one, each by what it keeps. -/

namespace Sys2Proof.Machine

/-! ## What a stage of a reset keeps of the registers -/

/-- From `s` to `t` the registers stay in canonical form, and those of `P` read as they read. -/
structure RegsKept (P : Nat → Prop) (s t : State) : Prop where
  wf : cellsWf regReset s.csr = true → cellsWf regReset t.csr = true
  rd : cellsWf regReset s.csr = true → ∀ a, P a → t.rd a = s.rd a

section
variable {P : Nat → Prop} {s t u : State}

theorem RegsKept.of_csr_eq (h : t.csr = s.csr) : RegsKept P s t where
  wf hs := h ▸ hs
  rd _ a _ := by rw [State.rd, h, State.rd]

theorem RegsKept.refl (s : State) : RegsKept P s s := .of_csr_eq rfl

theorem RegsKept.trans (hst : RegsKept P s t) (htu : RegsKept P t u) : RegsKept P s u where
  wf hs := htu.wf (hst.wf hs)
  rd hs a ha := (htu.rd (hst.wf hs) a ha).trans (hst.rd hs a ha)

theorem RegsKept.mono {Q : Nat → Prop} (h : RegsKept P s t) (hQ : ∀ a, Q a → P a) : RegsKept Q s t where
  wf := h.wf
  rd hs a ha := h.rd hs a (hQ a ha)

theorem RegsKept.wr (s : State) {a : Nat} (v : Word) (ha : ∀ x, P x → x ≠ a) : RegsKept P s (s.wr a v) where
  wf hs := State.wr_csr_wf hs v
  rd hs x hx := State.rd_wr_ne hs (ha x hx) v

theorem RegsKept.wn (s : State) {a : Nat} (v : Nat) (ha : ∀ x, P x → x ≠ a) : RegsKept P s (s.wn a v) := .wr s _ ha

theorem RegsKept.put (s : State) {f : Fld} (v : Nat) (ha : ∀ x, P x → x ≠ f.addr) : RegsKept P s (s.put f v) := .wr s _ ha

theorem RegsKept.foldl {α : Type} {f : State → α → State} (hf : ∀ s x, RegsKept P s (f s x)) (l : List α) (s : State) :
    RegsKept P s (l.foldl f s) := by
  induction l generalizing s with
  | nil => exact .refl s
  | cons x l ih => exact (hf s x).trans (ih _)

end

/-! ## The near store (R376) -/

/-- From `s` to `t` only the near-store channels change: their state registers, their contents, and their transactions. -/
structure NearReset (s t : State) : Prop where
  shape : ∃ (c : List (Nat × Word)) (m : List Host.Cell) (d : Vector DmcH 4) (h : Vector HopH 7) (f : List FabTx),
    t = { s with csr := c, mem := m, dmc := d, hop := h, fab := f }
  regs : RegsKept (fun a => ∀ c : Fin 4, a ≠ DMC_STATUS c) s t
  mem : Memory.wf s.mem = true → Memory.wf t.mem = true

section
variable {s t u : State}

theorem NearReset.refl (s : State) : NearReset s s := ⟨⟨s.csr, s.mem, s.dmc, s.hop, s.fab, rfl⟩, .refl s, id⟩

theorem NearReset.trans (hst : NearReset s t) (htu : NearReset t u) : NearReset s u where
  shape := by
    obtain ⟨c, m, d, h, f, rfl⟩ := hst.shape
    obtain ⟨c', m', d', h', f', rfl⟩ := htu.shape
    exact ⟨c', m', d', h', f', rfl⟩
  regs := hst.regs.trans htu.regs
  mem h := htu.mem (hst.mem h)

theorem NearReset.setDmc (s : State) (c : Fin 4) (x : DmcH) : NearReset s (s.setDmc c x) :=
  ⟨⟨s.csr, s.mem, s.dmc.set c x, s.hop, s.fab, rfl⟩, .of_csr_eq rfl, id⟩

theorem NearReset.zeroMem (s : State) (a n : Nat) : NearReset s (s.zeroMem a n) :=
  ⟨⟨s.csr, (s.zeroMem a n).mem, s.dmc, s.hop, s.fab, rfl⟩, .of_csr_eq rfl, State.zeroMem_wf⟩

theorem NearReset.put (s : State) (c : Fin 4) (v : Nat) : NearReset s (s.put (DMC_STATUS_state c) v) :=
  ⟨⟨(s.put (DMC_STATUS_state c) v).csr, s.mem, s.dmc, s.hop, s.fab, rfl⟩, .put s v fun _ h => h c, id⟩

theorem NearReset.failTxs (s : State) (p : FabTx → Bool) : NearReset s (s.failTxs p) := by
  obtain ⟨h, f, e⟩ := OnFabric.failTxs s p
  rw [e]
  exact ⟨⟨s.csr, s.mem, s.dmc, h, f, rfl⟩, .of_csr_eq rfl, id⟩

theorem NearReset.zeroMemUnless (s : State) (b : Bool) (a n : Nat) : NearReset s (if b then s else s.zeroMem a n) := by
  cases b
  · exact .zeroMem s a n
  · exact .refl s

theorem NearReset.dmcDown (s : State) (c : Fin 4) : NearReset s (s.dmcDown c) := by
  rw [State.dmcDown]
  extract_lets old s2 s3
  have h2 : NearReset s s2 := .trans (.setDmc s c _) (.zeroMemUnless _ _ _ _)
  have h3 : NearReset s s3 := h2.trans (.zeroMemUnless _ _ _ _)
  split
  · exact h3.trans (.put _ c 5)
  · exact .trans (.trans (.trans (.setDmc s c _) (.zeroMem _ _ _)) (.failTxs _ _)) (.put _ c 0)

theorem NearReset.resetNear (s : State) (keep : Bool) : NearReset s (s.resetNear keep) := by
  rw [State.resetNear]
  generalize List.finRange 4 = l
  induction l generalizing s with
  | nil => exact .refl s
  | cons c l ih =>
    refine NearReset.trans ?_ (ih _)
    dsimp only
    split
    · exact ((NearReset.zeroMem s _ _).trans (.setDmc _ c {})).trans (.put _ c 0)
    · split
      · exact .refl s
      · split
        · exact .dmcDown s c
        · exact (NearReset.dmcDown s c).trans (.setDmc _ c {})

end

/-! ## The register file -/

/-- The registers that the last stage of a reset writes. -/
def resetOwn : List Nat :=
  [SEC_STATUS, SEC_TAMPER, SEC_POLICY, NET_PORT_STATUS 0, NET_PORT_STATUS 1, NET_STATUS, TMB_STATUS, DMC_STATUS 0, DMC_STATUS 1,
    DMC_STATUS 2, DMC_STATUS 3]

theorem ne_of_not_mem {a b : Nat} {l : List Nat} (ha : a ∉ l) (hb : b ∈ l) : a ≠ b := fun e => ha (e ▸ hb)

/-- From `s` to `t` registers of `resetOwn` are written, and occurrences raised. -/
structure WritesOwn (s t : State) : Prop where
  shape : ∃ (c : List (Nat × Word)) (r : List Nat), t = { s with csr := c, raised := r }
  regs : RegsKept (fun x => x ∉ resetOwn) s t

section
variable {s t u : State}

theorem WritesOwn.refl (s : State) : WritesOwn s s := ⟨⟨s.csr, s.raised, rfl⟩, .refl s⟩

theorem WritesOwn.trans (hst : WritesOwn s t) (htu : WritesOwn t u) : WritesOwn s u where
  shape := by
    obtain ⟨c, r, rfl⟩ := hst.shape
    obtain ⟨c', r', rfl⟩ := htu.shape
    exact ⟨c', r', rfl⟩
  regs := hst.regs.trans htu.regs

theorem WritesOwn.wn (s : State) {a : Nat} (v : Nat) (ha : a ∈ resetOwn) : WritesOwn s (s.wn a v) :=
  ⟨⟨(s.wn a v).csr, s.raised, rfl⟩, .wn s v fun _ hx => ne_of_not_mem hx ha⟩

theorem WritesOwn.put (s : State) {f : Fld} (v : Nat) (ha : f.addr ∈ resetOwn) : WritesOwn s (s.put f v) :=
  ⟨⟨(s.put f v).csr, s.raised, rfl⟩, .put s v fun _ hx => ne_of_not_mem hx ha⟩

theorem WritesOwn.evIf (s : State) (b : Bool) (n : Nat) : WritesOwn s (s.evIf b n) := by
  cases b
  · exact .refl s
  · exact ⟨⟨s.csr, s.raised ++ [n], rfl⟩, .of_csr_eq rfl⟩

theorem WritesOwn.showLifecycle (s : State) : WritesOwn s s.showLifecycle := by
  have h : SEC_STATUS_lifecycle.addr ∈ resetOwn := by decide
  exact (WritesOwn.put s _ h).trans (.evIf _ _ _)

theorem WritesOwn.showPolicy (s : State) : WritesOwn s s.showPolicy := by
  have h : SEC_POLICY_flags.addr ∈ resetOwn ∧ SEC_POLICY_tamper_floor.addr ∈ resetOwn := by decide
  exact (WritesOwn.put s _ h.1).trans (.put _ _ h.2)

/-- The status fields of the security block after a reset. -/
def State.resetSec (s : State) : State :=
  ((s.put SEC_STATUS_jtag_open (if s.lifecycle = 0 then 1 else 0)).put SEC_STATUS_owner_lost 0).put SEC_TAMPER_active 0

/-- A warm reset keeps the links that `s` shows. -/
def State.keepLinks (s t : State) : State :=
  let up := fun (p : Nat) => if s.on (NET_PORT_STATUS_link p) then 1 else 0
  ((((t.wn (NET_PORT_STATUS 0) (3 * up 0)).wn (NET_PORT_STATUS 1) (3 * up 1)).put NET_STATUS_a_link (up 0)).put NET_STATUS_b_link (up 1))

/-- The other resets keep of the time base what `s` shows of its reference. -/
def State.keepRef (s t : State) : State :=
  ((t.wn TMB_STATUS 0).put TMB_STATUS_ref_freq (s.get TMB_STATUS_ref_freq)).put TMB_STATUS_ref_valid (s.get TMB_STATUS_ref_valid)

/-- The registers that a reset keeps in part, before the cause is recorded. -/
def State.resetParts (s : State) (k : ResetKind) : State :=
  (List.range 4).foldl (fun (a : State) c => if s.get (DMC_STATUS_state c) = 5 then a.wn (DMC_STATUS c) 5 else a)
    (if k = .warm then s.keepLinks s.resetSec else s.keepRef s.resetSec)

theorem WritesOwn.resetSec (s : State) : WritesOwn s s.resetSec := by
  have hstatus : SEC_STATUS_jtag_open.addr ∈ resetOwn ∧ SEC_STATUS_owner_lost.addr ∈ resetOwn ∧ SEC_TAMPER_active.addr ∈ resetOwn := by
    decide
  obtain ⟨h1, h2, h3⟩ := hstatus
  exact ((WritesOwn.put s _ h1).trans (.put _ _ h2)).trans (.put _ _ h3)

theorem WritesOwn.keepLinks (s t : State) : WritesOwn t (s.keepLinks t) := by
  have hlinks : NET_PORT_STATUS 0 ∈ resetOwn ∧ NET_PORT_STATUS 1 ∈ resetOwn ∧ NET_STATUS_a_link.addr ∈ resetOwn ∧
      NET_STATUS_b_link.addr ∈ resetOwn := by decide
  obtain ⟨h1, h2, h3, h4⟩ := hlinks
  exact (((WritesOwn.wn t _ h1).trans (.wn _ _ h2)).trans (.put _ _ h3)).trans (.put _ _ h4)

theorem WritesOwn.keepRef (s t : State) : WritesOwn t (s.keepRef t) := by
  have href : TMB_STATUS ∈ resetOwn ∧ TMB_STATUS_ref_freq.addr ∈ resetOwn ∧ TMB_STATUS_ref_valid.addr ∈ resetOwn := by decide
  obtain ⟨h1, h2, h3⟩ := href
  exact ((WritesOwn.wn t _ h1).trans (.put _ _ h2)).trans (.put _ _ h3)

theorem mem_resetOwn_dmcStatus {c : Nat} (hc : c ∈ List.range 4) : DMC_STATUS c ∈ resetOwn := by
  revert c
  decide

theorem WritesOwn.resetParts (s : State) (k : ResetKind) : WritesOwn s (s.resetParts k) := by
  have hlinks : WritesOwn s (if k = .warm then s.keepLinks s.resetSec else s.keepRef s.resetSec) := by
    split
    · exact (WritesOwn.resetSec s).trans (.keepLinks s _)
    · exact (WritesOwn.resetSec s).trans (.keepRef s _)
  refine List.foldlRecOn (motive := WritesOwn s) _ _ hlinks fun a ha c hc => ha.trans ?_
  split
  · exact .wn a 5 (mem_resetOwn_dmcStatus hc)
  · exact .refl a

end

theorem State.resetFields_eq (s : State) (k : ResetKind) : s.resetFields k =
    if k = .power then (s.resetParts k).wn GLB_RESET_CAUSE 0
    else ((s.resetParts k).put GLB_RESET_CAUSE_cause k.cause).countF GLB_RESET_CAUSE_count := rfl

/-! ## The whole reset -/

/-- The state before the registers that a reset keeps in part are written. -/
def State.resetCleared (s : State) (k : ResetKind) : State :=
  (((s.resetNear k.retains).zeroMem (bankBase 0) (48 * 0x200000)).resetFile k).resetHidden k

theorem State.deviceReset_eq (s : State) (k : ResetKind) : s.deviceReset k = ((s.resetCleared k).resetFields k).showLifecycle.showPolicy := rfl

/-- From `s` to `t` registers of `resetOwn` and the cause are written, and occurrences raised. -/
structure EndsReset (s t : State) : Prop where
  shape : ∃ (c : List (Nat × Word)) (r : List Nat), t = { s with csr := c, raised := r }
  regs : RegsKept (fun x => x ∉ resetOwn ∧ x ≠ GLB_RESET_CAUSE) s t

theorem EndsReset.resetFields (s : State) (k : ResetKind) : EndsReset s (s.resetFields k) := by
  have hp := WritesOwn.resetParts s k
  obtain ⟨c, r, hs⟩ := hp.shape
  have hregs : RegsKept (fun x => x ∉ resetOwn ∧ x ≠ GLB_RESET_CAUSE) s (s.resetParts k) := hp.regs.mono fun _ h => h.1
  rw [State.resetFields_eq]
  split
  · exact ⟨⟨((s.resetParts k).wn GLB_RESET_CAUSE 0).csr, r, by rw [hs]; rfl⟩, hregs.trans (.wn _ 0 fun _ h => h.2)⟩
  · exact ⟨⟨(((s.resetParts k).put GLB_RESET_CAUSE_cause k.cause).countF GLB_RESET_CAUSE_count).csr, r, by rw [hs]; rfl⟩,
      (hregs.trans (.put _ _ fun _ h => h.2)).trans (.put _ _ fun _ h => h.2)⟩

theorem EndsReset.deviceReset (s : State) (k : ResetKind) : EndsReset (s.resetCleared k) (s.deviceReset k) := by
  rw [State.deviceReset_eq]
  generalize s.resetCleared k = u
  have hf := EndsReset.resetFields u k
  have hshow := (WritesOwn.showLifecycle (u.resetFields k)).trans (.showPolicy _)
  obtain ⟨c, r, hs⟩ := hf.shape
  obtain ⟨c', r', hs'⟩ := hshow.shape
  exact ⟨⟨c', r', by rw [hs', hs]⟩, hf.regs.trans (hshow.regs.mono fun _ h => h.1)⟩

/-- The near store is reset, and SRAM holds zeros. -/
theorem NearReset.memory (s : State) (k : ResetKind) :
    NearReset s ((s.resetNear k.retains).zeroMem (bankBase 0) (48 * 0x200000)) :=
  (NearReset.resetNear s _).trans (.zeroMem _ _ _)

/-- The registers that retained ranks keep lie in the windows of the near-store channels. -/
theorem State.retainReg_of_out (s : State) {a : Nat} (h : a < 0x100000 ∨ 0x140000 ≤ a) : s.retainReg a = false := by
  rw [State.retainReg, List.any_eq_false]
  intro c hc
  have hlt := List.mem_range.mp hc
  have hne : a ≠ DMC_STATUS c ∧ a ≠ DMC_RETAIN c ∧ a ≠ DMC_CAPACITY c := by
    simp only [DMC_STATUS, DMC_RETAIN, DMC_CAPACITY, DMC]
    omega
  simp [hne]

/-- A reset returns the register to its Reset column. -/
def State.clears (s : State) (k : ResetKind) (a : Nat) : Bool :=
  !(fixedReg a || (decide (k = .warm) && warmReg a) || (decide (k ≠ .power) && decide (a = TMB_STATUS)) || s.retainReg a)

theorem State.resetCleared_csr (s : State) (k : ResetKind) : (s.resetCleared k).csr =
    cellsClear (((s.resetNear k.retains).zeroMem (bankBase 0) (48 * 0x200000)).clears k)
      ((s.resetNear k.retains).zeroMem (bankBase 0) (48 * 0x200000)).csr := rfl

section
variable {s : State} (k : ResetKind) (hc : s.canonical = true)
include hc

theorem State.resetCleared_csr_wf : cellsWf regReset (s.resetCleared k).csr = true := by
  rw [State.resetCleared_csr]
  exact cellsClear_wf ((NearReset.memory s k).regs.wf (State.csr_wf_of_canonical hc))

theorem State.rd_resetCleared (a : Nat) : (s.resetCleared k).rd a =
    if ((s.resetNear k.retains).zeroMem (bankBase 0) (48 * 0x200000)).clears k a then regReset a
    else ((s.resetNear k.retains).zeroMem (bankBase 0) (48 * 0x200000)).rd a := by
  rw [State.rd, State.resetCleared_csr]
  exact cellsGet_clear ((NearReset.memory s k).regs.wf (State.csr_wf_of_canonical hc))

/-- A register that nothing keeps, and that the reset does not write, reads its Reset column. -/
theorem State.rd_deviceReset {a : Nat} (hown : a ∉ resetOwn) (hcause : a ≠ GLB_RESET_CAUSE) (hfix : fixedReg a = false)
    (hwarm : k = .warm → warmReg a = false) (hout : a < 0x100000 ∨ 0x140000 ≤ a) : (s.deviceReset k).rd a = regReset a := by
  have hw : (decide (k = .warm) && warmReg a) = false := by
    by_cases h : k = .warm
    · rw [hwarm h, Bool.and_false]
    · rw [decide_eq_false h, Bool.false_and]
  have htmb : a ≠ TMB_STATUS := ne_of_not_mem hown (by decide)
  rw [(EndsReset.deviceReset s k).regs.rd (State.resetCleared_csr_wf k hc) a ⟨hown, hcause⟩, State.rd_resetCleared k hc, State.clears,
    hfix, hw, State.retainReg_of_out _ hout, decide_eq_false htmb, Bool.and_false]
  rfl

/-- SRAM reads zero. -/
theorem State.byte_deviceReset {a : Nat} (h1 : 0x100000000 ≤ a) (h2 : a < 0x106000000) : (s.deviceReset k).byte a = 0 := by
  obtain ⟨c, r, hs⟩ := (EndsReset.deviceReset s k).shape
  have hn : Memory.wf (s.resetNear k.retains).mem = true := (NearReset.resetNear s _).mem (State.mem_wf_of_canonical hc)
  rw [hs]
  change ((s.resetNear k.retains).zeroMem (bankBase 0) (48 * 0x200000)).byte a = 0
  rw [State.byte_zeroMem hn, if_pos (by simp only [bankBase]; omega)]

end

/-! ## The registers of the quadrant windows, and those of the sessions -/

theorem lt_of_mem_resetOwn : ∀ a ∈ resetOwn, a < 0x01000000 := by decide

theorem fixedReg_of_quadrant {a : Nat} (h : 0x01000000 ≤ a) : fixedReg a = false := by
  have hlist : ∀ x ∈ [SEC_SERIAL_LO, SEC_SERIAL_HI, SEC_STATUS, SEC_TAMPER, SEC_ROLLBACK, SEC_TLOG_CNT, NET_MAC_LO 0, NET_MAC_HI 0,
      NET_MAC_LO 1, NET_MAC_HI 1, GLB_RESET_CAUSE], x < 0x01000000 := by decide
  rw [fixedReg, Bool.or_eq_false_iff, List.contains_eq_mem, decide_eq_false_iff_not]
  refine ⟨fun hm => by have := hlist a hm; omega, ?_⟩
  rw [decide_eq_false (show ¬a < CAL + 0x4000 by simp only [CAL]; omega), Bool.and_false]

theorem State.rd_deviceReset_quadrant {s : State} (k : ResetKind) (hc : s.canonical = true) {a : Nat} (h : 0x01000000 ≤ a)
    (hwarm : k = .warm → warmReg a = false) : (s.deviceReset k).rd a = regReset a :=
  State.rd_deviceReset k hc (fun hm => by have := lt_of_mem_resetOwn a hm; omega) (by simp only [GLB_RESET_CAUSE, GLB]; omega)
    (fixedReg_of_quadrant h) hwarm (by omega)

theorem sessStatus_cleared (j : Fin 8) : NET_SESS_STATUS j ∉ resetOwn ∧ NET_SESS_STATUS j ≠ GLB_RESET_CAUSE ∧
    fixedReg (NET_SESS_STATUS j) = false ∧ warmReg (NET_SESS_STATUS j) = false ∧ NET_SESS_STATUS j < 0x100000 ∧
    regReset (NET_SESS_STATUS j) = 0 := by
  revert j
  decide

theorem State.sessOpen_deviceReset {s : State} (k : ResetKind) (hc : s.canonical = true) (j : Fin 8) :
    (s.deviceReset k).sessOpen j = false := by
  obtain ⟨hown, hcause, hfix, hwarm, hlt, hzero⟩ := sessStatus_cleared j
  have hrd := State.rd_deviceReset k hc hown hcause hfix (fun _ => hwarm) (.inl hlt)
  have hget : (s.deviceReset k).sessState j = 0 := by
    rw [State.sessState, State.get, State.rn]
    change bitsOf ((s.deviceReset k).rd (NET_SESS_STATUS j)).toNat 0 2 = 0
    rw [hrd, hzero]
    rfl
  rw [State.sessOpen, hget]
  rfl

/-! ## The cause (Table 17.10) -/

theorem fixedReg_resetCause : fixedReg GLB_RESET_CAUSE = true := by decide

theorem resetCause_not_mem_resetOwn : GLB_RESET_CAUSE ∉ resetOwn := by decide

section
variable {s : State} (hc : s.canonical = true)
include hc

/-- Up to the last stage, a reset keeps the cause. -/
theorem State.rd_resetParts_cause (k : ResetKind) :
    ((s.resetCleared k).resetParts k).rd GLB_RESET_CAUSE = s.rd GLB_RESET_CAUSE := by
  have hne : ∀ c : Fin 4, GLB_RESET_CAUSE ≠ DMC_STATUS c := by decide
  rw [(WritesOwn.resetParts _ k).regs.rd (State.resetCleared_csr_wf k hc) _ resetCause_not_mem_resetOwn, State.rd_resetCleared k hc,
    State.clears, fixedReg_resetCause, Bool.true_or, Bool.true_or, Bool.true_or, Bool.not_true, if_neg Bool.false_ne_true,
    (NearReset.memory s k).regs.rd (State.csr_wf_of_canonical hc) _ hne]

/-- The last stage alone writes the cause. -/
theorem State.rd_deviceReset_cause (k : ResetKind) :
    (s.deviceReset k).rd GLB_RESET_CAUSE = ((s.resetCleared k).resetFields k).rd GLB_RESET_CAUSE := by
  have hwf := (EndsReset.resetFields (s.resetCleared k) k).regs.wf (State.resetCleared_csr_wf k hc)
  rw [State.deviceReset_eq]
  exact ((WritesOwn.showLifecycle _).trans (.showPolicy _)).regs.rd hwf _ resetCause_not_mem_resetOwn

theorem State.rd_cause_power : (s.deviceReset .power).rd GLB_RESET_CAUSE = 0 := by
  have hwf := (WritesOwn.resetParts (s.resetCleared .power) .power).regs.wf (State.resetCleared_csr_wf .power hc)
  rw [State.rd_deviceReset_cause hc, State.resetFields_eq, if_pos rfl]
  exact State.rd_wr_self hwf _

theorem State.get_cause {k : ResetKind} (hk : k ≠ .power) : (s.deviceReset k).get GLB_RESET_CAUSE_cause = k.cause ∧
    (s.deviceReset k).get GLB_RESET_CAUSE_count = min (2 ^ GLB_RESET_CAUSE_count.w - 1) (s.get GLB_RESET_CAUSE_count + 1) := by
  have hwf := (WritesOwn.resetParts (s.resetCleared k) k).regs.wf (State.resetCleared_csr_wf k hc)
  have hparts := State.rd_resetParts_cause hc k
  have hend := State.rd_deviceReset_cause hc k
  rw [State.resetFields_eq, if_neg hk] at hend
  generalize (s.resetCleared k).resetParts k = v at *
  have hget : ∀ f : Fld, f.addr = GLB_RESET_CAUSE → (s.deviceReset k).get f =
      ((v.put GLB_RESET_CAUSE_cause k.cause).countF GLB_RESET_CAUSE_count).get f := fun f hf => by
    rw [State.get, State.rn, hf, hend, State.get, State.rn, hf]
  have hold : v.get GLB_RESET_CAUSE_count = s.get GLB_RESET_CAUSE_count := by
    rw [State.get, State.rn, State.get, State.rn]
    exact congrArg (fun x : Word => bitsOf x.toNat 16 16) hparts
  have hwf' : cellsWf regReset (v.put GLB_RESET_CAUSE_cause k.cause).csr = true := State.put_csr_wf hwf
  have hcount : (v.put GLB_RESET_CAUSE_cause k.cause).get GLB_RESET_CAUSE_count = v.get GLB_RESET_CAUSE_count :=
    State.get_put_ne hwf (show 0 + 3 ≤ 32 by decide) (.inr (.inr (show 0 + 3 ≤ 16 by decide)))
  refine ⟨?_, ?_⟩
  · have hcause : k.cause % 2 ^ GLB_RESET_CAUSE_cause.w = k.cause := by cases k <;> rfl
    rw [hget _ rfl, State.countF, State.get_put_ne hwf' (show 16 + 16 ≤ 32 by decide) (.inr (.inl (show 0 + 3 ≤ 16 by decide))),
      State.get_put_self hwf (show 0 + 3 ≤ 32 by decide), hcause]
  · have hlt : min (s.get GLB_RESET_CAUSE_count + 1) (2 ^ GLB_RESET_CAUSE_count.w - 1) < 2 ^ GLB_RESET_CAUSE_count.w := by
      change min _ (2 ^ 16 - 1) < 2 ^ 16
      omega
    rw [hget _ rfl, State.countF, State.get_put_self hwf' (show 16 + 16 ≤ 32 by decide), hcount, hold, Nat.mod_eq_of_lt hlt, Nat.min_comm]

end

/-- Settles O57: a device-wide reset zeroes SRAM, returns the registers and the units that nothing keeps, and records its cause. -/
theorem resetsReturnTheDevice : Obligations.ResetsReturnTheDevice := by
  intro s t k hc ht
  obtain ⟨c, m, d, h, f, hn⟩ := (NearReset.memory s k).shape
  obtain ⟨c', r', hs⟩ := (EndsReset.deviceReset s k).shape
  have hshape : t = { (State.resetFile { s with csr := c, mem := m, dmc := d, hop := h, fab := f } k).resetHidden k with
      csr := c', raised := r' } := by rw [ht, hs, State.resetCleared, hn]
  refine ⟨fun a h1 h2 => ht ▸ State.byte_deviceReset k hc h1 h2, fun a h1 hw => ht ▸ State.rd_deviceReset_quadrant k hc h1 hw,
    fun j => ht ▸ State.sessOpen_deviceReset k hc j, fun p => ?_, ?_, ?_, ?_, ?_, ?_, ?_, ?_, fun hk => ?_, fun hk => ?_,
    fun hk => ?_, fun hk => ht ▸ State.get_cause hc hk⟩
  · rw [hshape]
    exact Vector.getElem_replicate ..
  · rw [hshape]; rfl
  · rw [hshape]; rfl
  · rw [hshape]; rfl
  · rw [hshape]; rfl
  · rw [hshape]; rfl
  · rw [hshape]; rfl
  · rw [hshape]; rfl
  · rw [hshape]
    exact if_neg (by simpa using hk)
  · rw [hshape]
    exact if_pos (by simpa using hk)
  · rw [ht, hk]
    exact State.rd_cause_power hc

end Sys2Proof.Machine
end

section
/-! PROOFS. When each reset is taken and what follows it (R427, R495, R499 to R501, R519), and the end of a quadrant reset. -/

namespace Sys2Proof.Machine

/-! ## Supplies, RST_N, the watchdog and the response to tamper -/

section
variable {s : State}

/-- The VBAT store's check of a power-on reset, and the scorch that waits. -/
theorem State.storeCheck_eq {u v : State} {ok : Bool} (ht : ok = true → v = u)
    (hf : ok = false → ∀ a : State, a = State.setSec { u with useTab := [] } { u.sec with
        owner := false, ork := 0, oak := [], polFlags := 0, polTamper := 0, credFloor := 0 } →
      v = ((a.put SEC_STATUS_lifecycle a.lifecycle).showPolicy.put SEC_STATUS_owner_lost 1).ev 394) : u.storeCheck ok = v := by
  cases ok with
  | true => exact (ht rfl).symm
  | false => exact (hf rfl _ rfl).symm

theorem State.powerOnReset_eq {f : Option (Fin 4)} {ok : Bool} {u v w : State}
    (hu : u = (s.deviceReset .power).wn TMB_STATUS (match f with | some x => 2 ^ 8 * x.val + 2 ^ 10 | none => 0))
    (hv : u.storeCheck ok = v) (hw : w = (if v.sec.scorchPending then v.scorch else v)) :
    s.powerOnReset f ok = (w.put SEC_STATUS_jtag_open (if w.lifecycle = 0 then 1 else 0)).released := by
  cases f with
  | none =>
    dsimp only at hu
    simp only [State.powerOnReset, ← hu, hv, ← hw]
  | some x =>
    dsimp only at hu
    simp only [State.powerOnReset, ← hu, hv, ← hw]

theorem State.rstNReset_taken {ns : Nat} (h : 100 ≤ ns) (h5 : s.boot.stage ≠ 5) : s.rstNReset ns = (s.deviceReset .rstN).atStage 0 := by
  rw [State.rstNReset, if_neg (by omega)]

theorem State.rstNReset_glitch {ns : Nat} (h : ns < 100) : s.rstNReset ns = s := if_pos (.inl h)

theorem State.rstNRelease_held (h : s.boot.stage = 0) : s.rstNRelease = s.released := if_pos h

theorem State.wdtOn_of (h : s.boot.stage = 4) (hen : s.on GLB_WDT_CTL_en = true) : s.wdtOn = true := by
  rw [State.wdtOn, h, hen]
  rfl

theorem State.wdtHalf_on (h : s.wdtOn = true) : s.wdtHalf = (s.advanceTo (s.boot.serviced + s.wdtMs * tuPerMs / 2)).ev 507 := if_pos h

theorem State.wdtReset_on (h : s.wdtOn = true) :
    s.wdtReset = ((s.advanceTo (s.boot.serviced + s.wdtMs * tuPerMs)).deviceReset .watchdog).released := if_pos h

theorem State.tamperReset_due (h : s.sec.resetDue = true) (hc : s.sec.closing = []) :
    s.tamperReset = (s.deviceReset .tamper).released := if_pos ⟨h, hc⟩

/-! ## The quadrant reset (R500) -/

theorem State.quadrantReset_loading (go : Nat) (h : s.load.isSome = true) : s.quadrantReset go = s := if_pos h

theorem State.quadrantReset_goes {go : Nat} {now : Nat → Bool} (h : s.load = none)
    (hnow : ∀ q, now q = (bit go q && !bit (s.get GLB_QRESET_busy) q)) :
    s.quadrantReset go = ((List.finRange 12).foldl (fun (a : State) (d : Fin 12) =>
        if now (if d.val < 8 then d.val / 2 else d.val - 8) then a.dplRunOff d else a)
      ((List.range 8).foldl (fun (a : State) p => if now (p / 2) then a.closeRegion p false else a)
        (s.stopUnits now))).put GLB_QRESET_busy (s.get GLB_QRESET_busy |||
          ((List.range 4).map fun q => if now q then 2 ^ q else 0).sum) := by
  obtain rfl : now = fun q => bit go q && !bit (s.get GLB_QRESET_busy) q := funext hnow
  rw [State.quadrantReset, h]
  rfl

end

/-! ## The end of a quadrant reset -/

/-- The registers that the end of a quadrant reset leaves in the quadrant windows. -/
theorem RegsKept.wnLow (s : State) {a : Nat} (v : Nat) (ha : a < 0x01000000) : RegsKept (fun x => 0x01000000 ≤ x) s (s.wn a v) :=
  .wn s v fun x hx e => by omega

theorem State.fillRegion_csr (s : State) (p base : Nat) (l : List Byte) (n : Nat) : (s.fillRegion p base l n).csr = s.csr := by
  induction n with
  | zero => rfl
  | succ n ih =>
    rw [State.fillRegion]
    split
    · rw [State.setBytes_csr, State.zeroMem_csr, ih]
    · exact ih

theorem State.csr_evIf (s : State) (b : Bool) (n : Nat) : (s.evIf b n).csr = s.csr := by
  cases b <;> rfl

theorem rkRegisters_low {p : Nat} (hp : p < 8) : SEC_RK_REGION p < 0x01000000 ∧ SEC_RK_ID p < 0x01000000 ∧ SEC_RK_LEFT p < 0x01000000 := by
  simp only [SEC_RK_REGION, SEC_RK_ID, SEC_RK_LEFT, SEC]
  omega

theorem RegsKept.regionZeroed (s : State) {p : Nat} (hp : p < 8) : RegsKept (fun x => 0x01000000 ≤ x) s (s.regionZeroed p) := by
  obtain ⟨h1, h2, h3⟩ := rkRegisters_low hp
  rw [State.regionZeroed]
  split
  · exact .refl s
  · have hfill : RegsKept (fun x => 0x01000000 ≤ x) s
        ((((s.fillRegion p (s.get (SEC_RK_REGION_base p)) [] (s.get (SEC_RK_REGION_size p))).wn (SEC_RK_REGION p) 0).wn
          (SEC_RK_ID p) 0).wn (SEC_RK_LEFT p) 0) :=
      (((RegsKept.of_csr_eq (s.fillRegion_csr _ _ _ _)).trans (.wnLow _ 0 h1)).trans (.wnLow _ 0 h2)).trans (.wnLow _ 0 h3)
    exact hfill.trans (.of_csr_eq (State.csr_evIf _ _ _))

/-- The zeroing of a ring touches memory alone. -/
theorem RegsKept.zeroRing (P : Nat → Prop) (s : State) (d : Fin 12) : RegsKept P s (s.zeroRing d) := by
  obtain ⟨m, hm⟩ := s.zeroRing_eq_mem d
  rw [hm]
  exact .of_csr_eq rfl

/-- The two ports of a quadrant, and their units. -/
def quadPort (q : Fin 4) (i : Fin 2) : Fin 8 := ⟨2 * q.val + i.val, by omega⟩

def quadUnit (q : Fin 4) (i : Fin 2) : Fin 12 := ⟨2 * q.val + i.val, by omega⟩

section
variable {s a b c d : State} {q : Fin 4} {p0 p1 : Fin 8} {d0 d1 d2 : Fin 12} (hp0 : p0.val = 2 * q.val) (hp1 : p1.val = 2 * q.val + 1)
  (hd0 : d0.val = 2 * q.val) (hd1 : d1.val = 2 * q.val + 1) (hd2 : d2.val = 8 + q.val)
  (ha : a = ((((s.regionZeroed p0).regionZeroed p1).zeroRing d0).zeroRing d1).resetRegs (quadReg q))
  (hb : b = (List.finRange 32).foldl (fun (x : State) (t : Fin 32) => if t.val / 8 = q.val then x.setTim t {} else x)
    ((((a.clearPort p0).clearPort p1).setAcq p0 {}).setAcq p1 {}))
  (hc : c = (((b.clearWfg q).setDpl d0 {}).setDpl d1 {}).setDpl d2 {})
  (hd : d = (State.wn { c with x7 := c.x7.set q [] } (EVC_LATCH (2 * q)) 0).wn (EVC_LATCH (2 * q + 1)) 0)

section
include hp0 hp1 hd0 hd1 hd2 ha hb hc hd

theorem State.quadrantResetDone_busy (hbusy : bit (s.get GLB_QRESET_busy) q = true) :
    s.quadrantResetDone q = (d.put GLB_QRESET_busy (s.get GLB_QRESET_busy - 2 ^ q.val)).ev 508 := by
  obtain rfl : p0 = quadPort q 0 := Fin.ext hp0
  obtain rfl : p1 = quadPort q 1 := Fin.ext hp1
  obtain rfl : d0 = quadUnit q 0 := Fin.ext hd0
  obtain rfl : d1 = quadUnit q 1 := Fin.ext hd1
  obtain rfl : d2 = wfgPll q := Fin.ext hd2
  simp only [quadPort, quadUnit, wfgPll, Fin.val_zero, Fin.val_one, Nat.add_zero] at ha hb hc
  simp only [State.quadrantResetDone, hbusy, Bool.not_true, Bool.false_eq_true, if_false, ← ha, ← hb, ← hc, ← hd]

end

/-- The units' own state is no register. -/
theorem foldl_setTim_csr (l : List (Fin 32)) (q : Nat) (s : State) :
    (l.foldl (fun (x : State) (t : Fin 32) => if t.val / 8 = q then x.setTim t {} else x) s).csr = s.csr :=
  List.foldlRecOn (motive := fun x : State => x.csr = s.csr) _ _ rfl fun x hx t _ => by
    split
    · exact hx
    · exact hx

theorem State.clearPort_csr (s : State) (p : Fin 8) : (s.clearPort p).csr = s.csr := rfl

theorem State.clearWfg_csr (s : State) (m : Fin 4) : (s.clearWfg m).csr = s.csr := rfl

section
include hb hc

theorem quadrantUnits_csr : c.csr = a.csr := by
  rw [hc, State.setDpl_csr, State.setDpl_csr, State.setDpl_csr, State.clearWfg_csr, hb, foldl_setTim_csr, State.setAcq_csr,
    State.setAcq_csr, State.clearPort_csr, State.clearPort_csr]

end

end

/-- The latches of the quadrant and the registers of its window read their reset values; the other windows keep theirs. -/
theorem quadrantReset_registers {s a c d : State} {q : Fin 4} {p0 p1 : Fin 8} {d0 d1 : Fin 12}
    (ha : a = ((((s.regionZeroed p0).regionZeroed p1).zeroRing d0).zeroRing d1).resetRegs (quadReg q)) (hca : c.csr = a.csr)
    (hd : d = (State.wn { c with x7 := c.x7.set q [] } (EVC_LATCH (2 * q)) 0).wn (EVC_LATCH (2 * q + 1)) 0)
    (hs : s.canonical = true) : d.rd (EVC_LATCH (2 * q)) = 0 ∧ d.rd (EVC_LATCH (2 * q + 1)) = 0 ∧
      (∀ r, quadReg q r = true → d.rd r = regReset r) ∧
      ∀ r, 0x01000000 ≤ r → (r < 0x01000000 + 0x400000 * q.val ∨ 0x01400000 + 0x400000 * q.val ≤ r) → d.rd r = s.rd r := by
  have hzeroed : RegsKept (fun x => 0x01000000 ≤ x) s ((((s.regionZeroed p0).regionZeroed p1).zeroRing d0).zeroRing d1) :=
    (((RegsKept.regionZeroed s p0.isLt).trans (.regionZeroed _ p1.isLt)).trans (.zeroRing _ _ _)).trans (.zeroRing _ _ _)
  have hwf := hzeroed.wf (State.csr_wf_of_canonical hs)
  have hkeep := hzeroed.rd (State.csr_wf_of_canonical hs)
  generalize ((((s.regionZeroed p0).regionZeroed p1).zeroRing d0).zeroRing d1) = z at *
  have hcwf : cellsWf regReset (State.csr { c with x7 := c.x7.set q [] }) = true := by
    change cellsWf regReset c.csr = true
    rw [hca, ha]
    exact cellsClear_wf hwf
  have hcrd : ∀ r, c.rd r = if quadReg q r then regReset r else z.rd r := fun r => by
    rw [State.rd, hca, ha]
    exact cellsGet_clear hwf
  have hlatch : ∀ i, i < 8 → EVC_LATCH i < 0x01000000 := fun i hi => by
    simp only [EVC_LATCH, EVC]
    omega
  have hlow : ∀ r, 0x01000000 ≤ r → d.rd r = c.rd r := fun r hr => by
    have h0 := hlatch (2 * q) (by omega)
    have h1 := hlatch (2 * q + 1) (by omega)
    rw [hd]
    exact ((RegsKept.wnLow _ 0 h0).trans (.wnLow _ 0 h1)).rd hcwf r hr
  have hne : EVC_LATCH (2 * q) ≠ EVC_LATCH (2 * q + 1) := by
    simp only [EVC_LATCH]
    omega
  refine ⟨?_, ?_, fun r hr => ?_, fun r hr hout => ?_⟩
  · rw [hd]
    exact (State.rd_wr_ne (State.wn_csr_wf hcwf) hne _).trans (State.rd_wr_self hcwf _)
  · rw [hd]
    exact State.rd_wr_self (State.wn_csr_wf hcwf) _
  · have hlo : 0x01000000 ≤ r := by
      simp only [quadReg, Bool.and_eq_true, decide_eq_true_eq] at hr
      omega
    rw [hlow r hlo, hcrd, if_pos hr]
  · have hq : quadReg q r = false := by
      rw [quadReg]
      rcases hout with h | h
      · rw [decide_eq_false (by omega), Bool.false_and, Bool.false_and]
      · rw [decide_eq_false (show ¬r < 0x01400000 + 0x400000 * q.val by omega), Bool.and_false, Bool.false_and]
    rw [hlow r hr, hcrd, hq, if_neg Bool.false_ne_true, hkeep r hr]

/-- Settles O58: each reset is taken in its state, and a quadrant reset ends with its window at reset. -/
theorem resetsAreTaken : Obligations.ResetsAreTaken := by
  intro s
  refine ⟨fun f ok u v w hu ht hf hw => congrArg finish (State.powerOnReset_eq hu (State.storeCheck_eq ht hf) hw), rfl,
    fun ns h h5 => congrArg finish (State.rstNReset_taken h h5), fun ns h => congrArg finish (State.rstNReset_glitch h),
    fun h => congrArg finish (State.rstNRelease_held h), rfl,
    fun h hen => ⟨congrArg finish (State.wdtHalf_on (State.wdtOn_of h hen)), congrArg finish (State.wdtReset_on (State.wdtOn_of h hen))⟩,
    fun h hc => congrArg finish (State.tamperReset_due h hc), fun go he => ⟨fun hl => ?_, fun now hl hnow => ?_⟩,
    fun q p0 p1 d0 d1 d2 a b c d hbusy hp0 hp1 hd0 hd1 hd2 ha hb hc hd => ?_⟩
  · refine congrArg finishSync ?_
    rw [State.atReg_of_csrError_eq_false _ he, State.quadrantReset_loading _ hl]
  · refine congrArg finishSync ?_
    rw [State.atReg_of_csrError_eq_false _ he, State.quadrantReset_goes hl hnow]
  · have hca := quadrantUnits_csr hb hc
    have hdone := State.quadrantResetDone_busy hp0 hp1 hd0 hd1 hd2 ha hb hc hd hbusy
    have hregs := quadrantReset_registers (s := s) (a := a) (c := c) (d := d) (q := q) ha hca hd
    exact ⟨congrArg finish hdone, hregs⟩

end Sys2Proof.Machine
end

section
/-! PROOFS. Start-up and the power domains (R433, R434, R442, R503, R507, R508). -/

namespace Sys2Proof.Machine

/-! ## The boot chain (R433, R434) -/

section
variable {s u v : State}

theorem State.trySlot_good (n : Nat) {l : List (List Byte)} (h : s.slotBad l = none) : s.trySlot n l = (s.authOk, true) := by
  rw [State.trySlot, h]

theorem State.trySlot_bad (n : Nat) {l : List (List Byte)} {stage reason : Nat} (h : s.slotBad l = some (stage, reason))
    (hu : u = (if reason = 4 ∨ reason = 5 then s else s.authFail).evIf (decide (stage = 3)) 434) :
    s.trySlot n l = ({ u with boot := { u.boot with
      secBoot := (stage + 2 ^ 4 * reason + bitsOf s.boot.secBoot 8 2 * 2 ^ 8) ||| 2 ^ (8 + n) } }, false) := by
  simp only [State.trySlot, h, ← hu]

/-- The version of a slot's first image. -/
def slotVersion (l : List (List Byte)) : Nat := imageField (l.getD 0 []) 6 2

/-- Which slot is tried first is the model's choice at equal versions: slot 0. -/
theorem State.bootVerified_eq {l0 l1 first second : List (List Byte)} {n m : Nat} (config : List Byte) (h : s.boot.stage = 1)
    (hsel : slotVersion l1 ≤ slotVersion l0 ∧ n = 0 ∧ m = 1 ∧ first = l0 ∧ second = l1 ∨
      slotVersion l0 < slotVersion l1 ∧ n = 1 ∧ m = 0 ∧ first = l1 ∧ second = l0) : s.bootVerified l0 l1 config =
    if (s.trySlot n first).2 then (s.trySlot n first).1.bootSlot n first config
    else if ((s.trySlot n first).1.trySlot m second).2
      then ((s.trySlot n first).1.trySlot m second).1.bootSlot m second config
    else ((s.trySlot n first).1.trySlot m second).1.atStage 2 := by
  rw [State.bootVerified, if_neg (not_not_intro h)]
  obtain ⟨hv, rfl, rfl, rfl, rfl⟩ | ⟨hv, rfl, rfl, rfl, rfl⟩ := hsel
  · have hsel : (if imageField (first.getD 0 []) 6 2 < imageField (second.getD 0 []) 6 2 then 1 else 0) = 0 :=
      if_neg (Nat.not_lt.mpr hv)
    simp only [hsel]
    rfl
  · have hsel : (if imageField (second.getD 0 []) 6 2 < imageField (first.getD 0 []) 6 2 then 1 else 0) = 1 := if_pos hv
    simp only [hsel]
    rfl

section
variable {l0 l1 first second : List (List Byte)} {n m : Nat} (config : List Byte) (h : s.boot.stage = 1)
  (hsel : slotVersion l1 ≤ slotVersion l0 ∧ n = 0 ∧ m = 1 ∧ first = l0 ∧ second = l1 ∨
    slotVersion l0 < slotVersion l1 ∧ n = 1 ∧ m = 0 ∧ first = l1 ∧ second = l0)
include h hsel

theorem State.bootVerified_first (hg : s.slotBad first = none) :
    s.bootVerified l0 l1 config = s.authOk.bootSlot n first config := by
  rw [State.bootVerified_eq config h hsel, State.trySlot_good n hg]
  simp only [if_true]

theorem State.bootVerified_second (hu : (u, false) = s.trySlot n first) (hg : u.slotBad second = none) :
    s.bootVerified l0 l1 config = u.authOk.bootSlot m second config := by
  rw [State.bootVerified_eq config h hsel, ← hu]
  simp only [State.trySlot_good _ hg, Bool.false_eq_true, if_false, if_true]

theorem State.bootVerified_neither (hu : (u, false) = s.trySlot n first) (hv : (v, false) = u.trySlot m second) :
    s.bootVerified l0 l1 config = v.atStage 2 := by
  rw [State.bootVerified_eq config h hsel, ← hu]
  simp only [← hv, Bool.false_eq_true, if_false]

theorem exec_bootVerified : (s.slotBad first = none → exec (.bootVerified l0 l1 config) s = .next (s.authOk.bootSlot n first config)) ∧
    ∀ u v : State, (u, false) = s.trySlot n first →
      (u.slotBad second = none → exec (.bootVerified l0 l1 config) s = .next (u.authOk.bootSlot m second config)) ∧
      ((v, false) = u.trySlot m second → exec (.bootVerified l0 l1 config) s = .next (v.atStage 2)) :=
  ⟨fun hg => congrArg finish (State.bootVerified_first config h hsel hg), fun _ _ hu =>
    ⟨fun hg => congrArg finish (State.bootVerified_second config h hsel hu hg),
      fun hv => congrArg finish (State.bootVerified_neither config h hsel hu hv)⟩⟩

end

theorem State.bootSlot_eq {a b c d : State} (n : Nat) (l : List (List Byte)) (config : List Byte)
    (ha : a = State.put { s with boot := { s.boot with
      stage := 3
      rollback := l.map fun (x : List Byte) => imageField x 8 1
      serviced := s.tmb.clk } } GLB_STATE_slot n)
    (hb : b = (a.loadPatch (l.getD 2 [])).loadConfig config)
    (hc : c = (List.finRange 2).foldl (fun (x : State) (p : Fin 2) => (x.takeCfg p).startAddr p) b)
    (hd : d = (List.finRange 4).foldl (fun (x : State) (k : Fin 4) =>
      if x.get (DMC_STATUS_state k) = 0 ∧ x.trainRefused k = 0 then x.trainAt k else x) c) :
    s.bootSlot n l config = if d.on CXH_CTL_en = true ∧ d.domainOn 36 = true then d.cxlTrain else d := by
  simp only [State.bootSlot, ← ha, ← hb, ← hc, ← hd]

theorem State.deviceReady_eq (ms : Nat) (h : s.boot.stage = 3)
    (hu : u = ((s.put SEC_ROLLBACK_boot (max (s.get SEC_ROLLBACK_boot) (s.boot.rollback.getD 0 0 % 64))).put SEC_ROLLBACK_house
      (max (s.get SEC_ROLLBACK_house) (s.boot.rollback.getD 1 0 % 64))).put SEC_ROLLBACK_patch
        (max (s.get SEC_ROLLBACK_patch) (s.boot.rollback.getD 2 0 % 64)))
    (hv : v = ((((u.put GLB_STATE_ready 1).put NET_STATUS_ready 1).put GLB_READY_MS_ms (min ms 0xFFFF)).ev 363).evIf
      (decide (s.get GLB_RESET_CAUSE_cause ≠ 0)) 508) :
    s.deviceReady ms = { v with boot := { v.boot with stage := 4, serviced := v.tmb.clk } } := by
  simp only [ne_eq] at hv
  simp only [State.deviceReady, h, ne_eq, not_true_eq_false, if_false, ← hu, ← hv]
  rfl

end

/-! ## Domain switches (R507) -/

section
variable {s u : State} {d : Nat} {on : Bool} (hx : (s.pwr.sw.take 4).find? (fun x => decide (x.1 = d)) = some (d, on))
  (hu : u = { s with pwr := { s.pwr with sw := s.pwr.sw.erase (d, on) } })
include hx hu

theorem State.domainSwitchDone_eq : s.domainSwitchDone d =
    ((if on && u.pwr.sw.contains (d, false) then (if on then u.domainUp d else u).domainDown d
      else if on then u.domainUp d else u).switched).put PWR_STATUS_busy (if u.pwr.sw = [] then 0 else 1) := by
  rw [State.domainSwitchDone, hx, hu]
  rfl

end

/-! ## Domain faults (R508) -/

section
variable {s u v w : State} {d : Fin 44}

/-- A fault stops the units of its domain, which goes down. -/
theorem State.domainFault_eq (hon : s.domainOn d = true)
    (hu : u = (if 38 ≤ d.val ∧ d.val < 42 then s.groupFault (d.val - 38) else if d.val = 36 then s.cxlOff false
      else s.stopDomain d).domainDown d)
    (hv : d.val < 32 ∨ 36 ≤ d.val → v = if d.val = 43 then u.put CAL_STATUS_crypto_hold 1 else u)
    (hv' : ∀ c : Fin 4, d.val = 32 + c.val → v = if u.get (DMC_STATUS_state c) = 5
      then ((u.zeroChan c).failTxs fun t => decide (t.pool = c.val)).put (DMC_STATUS_state c) 0 else u)
    (hw : w = v.setBit (if d.val < 32 then PWR_FAULT_LO else PWR_FAULT_HI) (d.val % 32)) :
    s.domainFault d = (State.count { w with
      pwr := { w.pwr with sw := w.pwr.sw.filter fun x => decide (x ≠ (d.val, false)) } } PWR_FAULT_CNT).ev 505 := by
  have hvm : (if h : 32 ≤ d.val ∧ d.val < 36 then
      if u.get (DMC_STATUS_state (⟨d.val - 32, by omega⟩ : Fin 4)) = 5 then
        ((u.zeroChan ⟨d.val - 32, by omega⟩).failTxs fun t => decide (t.pool = (⟨d.val - 32, by omega⟩ : Fin 4).val)).put
          (DMC_STATUS_state (⟨d.val - 32, by omega⟩ : Fin 4)) 0
      else u
    else if d.val = 43 then u.put CAL_STATUS_crypto_hold 1 else u) = v := by
    by_cases h : 32 ≤ d.val ∧ d.val < 36
    · rw [dif_pos h, hv' ⟨d.val - 32, by omega⟩ (by simp only; omega)]
    · rw [dif_neg h, hv (by omega)]
  have hno : ¬(!s.domainOn d || decide (44 ≤ d.val)) = true := by
    have hlt := d.isLt
    rw [hon, decide_eq_false (by omega)]
    decide
  rw [State.domainFault, if_neg hno]
  simp only [← hu, hvm, ← hw]

end

/-- Settles O59: the better slot boots, READY shows, a switch completes, and a faulting domain goes down. -/
theorem bootAndDomains : Obligations.BootAndDomains := by
  intro s
  refine ⟨fun l0 l1 config h => ⟨fun hv => ?_, fun hv => ?_⟩, fun n l stage reason u h hu => State.trySlot_bad n h hu,
    fun n l config a b c d ha hb hc hd => State.bootSlot_eq n l config ha hb hc hd,
    fun ms u v h hu hv => congrArg finish (State.deviceReady_eq ms h hu hv), fun d on u hx hu => ⟨fun ho => ?_, fun ho hc => ?_, fun ho hc => ?_⟩,
    fun d u v w hon hu hv hv' hw => congrArg (fun t : State => finishSync t.clockGo) (State.domainFault_eq hon hu hv hv' hw)⟩
  · exact exec_bootVerified config h (.inl ⟨hv, rfl, rfl, rfl, rfl⟩)
  · exact exec_bootVerified config h (.inr ⟨hv, rfl, rfl, rfl, rfl⟩)
  all_goals
    have hdone := State.domainSwitchDone_eq hx hu
    subst ho
    refine congrArg (fun t : State => finishSync t.clockGo) (hdone.trans ?_)
  · rfl
  · rw [hc]
    rfl
  · rw [hc]
    rfl

end Sys2Proof.Machine
end

section
/-! PROOFS. Calibration: the samples of the sensors, CAL_RUN, the scan, the end of a run, stale units and the T64 view (chapter 16). -/

namespace Sys2Proof.Machine

/-- What one step of a fold brings about, and no other step of it undoes, holds after the fold over a list without repetition. -/
theorem foldl_establishes {α β : Type} [DecidableEq α] {P Q : β → Prop} {f : β → α → β} {l : List α} {k : α} {b : β} (hnd : l.Nodup)
    (hk : k ∈ l) (hinv : ∀ a n, n ≠ k → P a → P (f a n)) (hget : ∀ a, P a → Q (f a k))
    (hkeep : ∀ a n, n ≠ k → Q a → Q (f a n)) (hb : P b) : Q (l.foldl f b) := by
  induction l generalizing b with
  | nil => cases hk
  | cons j l ih =>
    obtain ⟨hj, hl⟩ := List.nodup_cons.mp hnd
    rcases List.mem_cons.mp hk with rfl | hk
    · exact List.foldlRecOn l f (hget b hb) fun a ha n hn => hkeep a n (ne_of_mem_of_not_mem hn hj) ha
    · exact ih hl hk (hinv b j (ne_of_mem_of_not_mem hk hj).symm hb)

theorem Leaves.foldl {α : Type} {F : Fld → Prop} {f : State → α → State} {l : List α} (hf : ∀ a, ∀ x ∈ l, Leaves F a (f a x)) (s : State) :
    Leaves F s (l.foldl f s) :=
  List.foldlRecOn l f (Leaves.refl s) fun a ha x hx => ha.trans (hf a x hx)

theorem State.get_ev (s : State) (e : Nat) (f : Fld) : (s.ev e).get f = s.get f := State.get_congr rfl f

theorem State.on_ev (s : State) (e : Nat) (f : Fld) : (s.ev e).on f = s.on f := by rw [State.on, State.get_ev, State.on]

/-! ## The samples of the sensors (R460) -/

/-- The reading `x` of sensor `i` is taken. -/
def State.sensorRead (a : State) (i : Nat) (x : Int) : State :=
  if x < -640 ∨ 2400 < x then ((a.put (CAL_TEMP_valid i) 0).put CAL_STATUS_sensor_fault 1).ev 431
  else (a.put (CAL_TEMP_temp i) (ofSigned 13 x)).put (CAL_TEMP_valid i) 1

/-- A unit's drift from its reference is judged (R461). -/
def State.driftJudged (a : State) (u : Nat) : State :=
  match a.cal.ref.find? fun x => decide (x.1 = u) with
  | some x =>
    if a.on (CAL_TEMP_valid (unitSensor u)) then
      let move := (toSigned 13 (a.get (CAL_TEMP_temp (unitSensor u))) - x.2.2).natAbs
      let b := a.put (CAL_UNIT_delta u) (min 0xFFFF (max (a.get (CAL_UNIT_delta u)) move))
      if a.on CAL_CTL_en ∧ clampNat 4 160 (a.get CAL_TEMP_THR_thr) < move ∧ !a.on (CAL_UNIT_pending u) then (b.setPending u).ev 420
      else b
    else a
  | none => a

def State.sensorsRead (s : State) (l : List Int) : State :=
  (List.range 16).foldl (fun (a : State) i => a.sensorRead i (l.getD i 0)) s

theorem State.tempSample_eq (s : State) (l : List Int) :
    s.tempSample l = (List.range 76).foldl State.driftJudged (s.sensorsRead l) := by
  rw [State.tempSample, State.sensorsRead]
  refine congrArg (fun f => List.foldl f (s.sensorsRead l) (List.range 76)) (funext fun a => funext fun u => ?_)
  rw [State.driftJudged]
  cases a.cal.ref.find? fun x => decide (x.1 = u) <;> rfl

/-- What the sample of one sensor shows (R460). -/
def SensorShown (s t : State) (x : Int) (i : Nat) : Prop :=
  (-640 ≤ x ∧ x ≤ 2400 → t.get (CAL_TEMP_valid i) = 1 ∧ t.get (CAL_TEMP_temp i) = ofSigned 13 x) ∧
  (x < -640 ∨ 2400 < x → t.get (CAL_TEMP_valid i) = 0 ∧ t.get CAL_STATUS_sensor_fault = 1 ∧
    t.get (CAL_TEMP_temp i) = s.get (CAL_TEMP_temp i) ∧ 431 ∈ t.raised)

section
variable {s t u : State} {i j : Nat} {x : Int}

theorem SensorShown.of_leaves (h : SensorShown s t x i) (hwf : cellsWf regReset t.csr = true)
    (hl : Leaves (fun g => g.addr = CAL_TEMP i) t u) (hfault : t.get CAL_STATUS_sensor_fault = 1 → u.get CAL_STATUS_sensor_fault = 1) :
    SensorShown s u x i := by
  obtain ⟨hin, hout⟩ := h
  have hvalid := hl.get hwf (CAL_TEMP_valid i) rfl
  have htemp := hl.get hwf (CAL_TEMP_temp i) rfl
  refine ⟨fun hx => ?_, fun hx => ?_⟩
  · rw [hvalid, htemp]
    exact hin hx
  · obtain ⟨hv, hf, ht, hr⟩ := hout hx
    rw [hvalid, htemp]
    exact ⟨hv, hfault hf, ht, hl.raised hr⟩

theorem Leaves.sensorRead {F : Fld → Prop} (hF : ∀ g, F g → g.addr ≠ CAL_TEMP i ∧ g.addr ≠ CAL_STATUS) :
    Leaves F s (s.sensorRead i x) := by
  unfold State.sensorRead
  split
  · exact ((Leaves.put s 0 (show 31 + 1 ≤ 32 by decide) fun g hg => .inl (hF g hg).1).trans
      (.put _ 1 (by decide) fun g hg => .inl (hF g hg).2)).trans (.ev _ 431)
  · exact (Leaves.put s _ (show 0 + 13 ≤ 32 by decide) fun g hg => .inl (hF g hg).1).trans
      (.put _ 1 (show 31 + 1 ≤ 32 by decide) fun g hg => .inl (hF g hg).1)

theorem calTemp_ne_status (i : Nat) : CAL_TEMP i ≠ CAL_STATUS := by
  simp only [CAL_TEMP, CAL_STATUS]
  omega

theorem calTemp_ne (h : j ≠ i) : CAL_TEMP i ≠ CAL_TEMP j := by
  simp only [CAL_TEMP]
  omega

theorem State.sensorRead_csr_wf (h : cellsWf regReset s.csr = true) : cellsWf regReset (s.sensorRead i x).csr = true :=
  (Leaves.sensorRead (F := fun _ => False) fun _ hg => hg.elim).wf h

/-- No sensor's sample clears the fault that another one shows. -/
theorem State.sensorRead_fault (hwf : cellsWf regReset s.csr = true) (h : s.get CAL_STATUS_sensor_fault = 1) :
    (s.sensorRead i x).get CAL_STATUS_sensor_fault = 1 := by
  unfold State.sensorRead
  split
  · rw [State.get_ev, State.get_put_self (State.put_csr_wf hwf) (by decide)]
    rfl
  · have hne (k : Nat) : CAL_STATUS_sensor_fault.addr ≠ CAL_TEMP k := (calTemp_ne_status k).symm
    rw [State.get_put_ne (State.put_csr_wf hwf) (show 31 + 1 ≤ 32 by decide) (.inl (hne i)),
      State.get_put_ne hwf (show 0 + 13 ≤ 32 by decide) (.inl (hne i)), h]

/-- A sensor's own sample shows what it reads. -/
theorem State.sensorRead_shown (hwf : cellsWf regReset s.csr = true) : SensorShown s (s.sensorRead i x) x i := by
  have hfields : (CAL_TEMP_valid i).lo + (CAL_TEMP_valid i).w ≤ 32 := show 31 + 1 ≤ 32 by decide
  have hapart : (CAL_TEMP_temp i).lo + (CAL_TEMP_temp i).w ≤ (CAL_TEMP_valid i).lo := show 0 + 13 ≤ 31 by decide
  refine ⟨fun hin => ?_, fun hout => ?_⟩
  · rw [State.sensorRead, if_neg (by omega)]
    have hwf1 := State.put_csr_wf (f := CAL_TEMP_temp i) (v := ofSigned 13 x) hwf
    refine ⟨State.get_put_self hwf1 hfields, ?_⟩
    rw [State.get_put_ne hwf1 hfields (.inr (.inl hapart)), State.get_put_self hwf (show 0 + 13 ≤ 32 by decide)]
    exact Nat.mod_eq_of_lt (ofSigned_lt 13 x)
  · rw [State.sensorRead, if_pos hout]
    have hwf1 := State.put_csr_wf (f := CAL_TEMP_valid i) (v := 0) hwf
    have hother (f : Fld) (hf : f.addr = CAL_TEMP i) :
        (((s.put (CAL_TEMP_valid i) 0).put CAL_STATUS_sensor_fault 1).ev 431).get f = (s.put (CAL_TEMP_valid i) 0).get f := by
      rw [State.get_ev, State.get_put_ne hwf1 (by decide) (.inl (hf ▸ calTemp_ne_status i))]
    refine ⟨?_, ?_, ?_, by simp⟩
    · rw [hother _ rfl, State.get_put_self hwf hfields]
      rfl
    · rw [State.get_ev, State.get_put_self hwf1 (by decide)]
      rfl
    · rw [hother _ rfl, State.get_put_ne hwf hfields (.inr (.inl hapart))]

/-- After the samples of all sensors each one shows its own. -/
theorem State.sensorsRead_shown {l : List Int} (hwf : cellsWf regReset s.csr = true) (hi : i < 16) :
    SensorShown s (s.sensorsRead l) (l.getD i 0) i := by
  have hapart (a : State) (n : Nat) (hn : n ≠ i) : Leaves (fun g => g.addr = CAL_TEMP i) a (a.sensorRead n (l.getD n 0)) :=
    .sensorRead fun g hg => ⟨hg ▸ calTemp_ne hn, hg ▸ calTemp_ne_status i⟩
  refine (foldl_establishes (P := fun a => cellsWf regReset a.csr = true ∧ a.get (CAL_TEMP_temp i) = s.get (CAL_TEMP_temp i))
    (Q := fun a => cellsWf regReset a.csr = true ∧ SensorShown s a (l.getD i 0) i) List.nodup_range (List.mem_range.mpr hi)
    (fun a n hn ha => ?inv) (fun a ha => ?get) (fun a n hn ha => ?keep) ⟨hwf, rfl⟩).2
  case inv => exact ⟨(hapart a n hn).wf ha.1, ((hapart a n hn).get ha.1 _ rfl).trans ha.2⟩
  case get =>
    refine ⟨State.sensorRead_csr_wf ha.1, ?_⟩
    have hown := State.sensorRead_shown (i := i) (x := l.getD i 0) ha.1
    rwa [SensorShown, ha.2] at hown
  case keep => exact ⟨(hapart a n hn).wf ha.1, ha.2.of_leaves ha.1 (hapart a n hn) (State.sensorRead_fault ha.1)⟩

theorem Leaves.sensorsRead {F : Fld → Prop} {l : List Int} (hF : ∀ g, F g → g.addr ≠ CAL_STATUS ∧ ∀ i < 16, g.addr ≠ CAL_TEMP i) :
    Leaves F s (s.sensorsRead l) :=
  .foldl (fun _ i hi => .sensorRead fun g hg => ⟨(hF g hg).2 i (List.mem_range.mp hi), (hF g hg).1⟩) s

@[simp] theorem State.sensorsRead_cal (s : State) (l : List Int) : (s.sensorsRead l).cal = s.cal :=
  List.foldlRecOn (motive := fun a : State => a.cal = s.cal) _ _ rfl fun a ha i _ => by
    unfold State.sensorRead
    split <;> simpa using ha

end

/-! ## The drift of a unit (R461) -/

section
variable {s t : State} {u v : Nat}

theorem Leaves.setPendingOf {F : Fld → Prop} (hF : ∀ g, F g → g.addr ≠ CAL_UNIT u ∨ g = CAL_UNIT_delta u) :
    Leaves F s (s.setPending u) := by
  unfold State.setPending
  split
  · exact .refl s
  · refine (Leaves.setCal s _).trans (.put _ 1 (show 1 + 1 ≤ 32 by decide) fun g hg => ?_)
    rcases hF g hg with h | rfl
    · exact .inl h
    · exact .inr (.inr (show 1 + 1 ≤ 16 by decide))

@[simp] theorem State.setPending_ref (s : State) (u : Nat) : (s.setPending u).cal.ref = s.cal.ref := by
  unfold State.setPending
  split <;> rfl

theorem Leaves.driftJudged {F : Fld → Prop} (hF : ∀ g, F g → g.addr ≠ CAL_UNIT u) : Leaves F s (s.driftJudged u) := by
  have hput (x : Nat) : Leaves F s (s.put (CAL_UNIT_delta u) x) :=
    .put s x (show 16 + 16 ≤ 32 by decide) fun g hg => .inl (hF g hg)
  unfold State.driftJudged
  split
  · split
    · dsimp only
      split
      · exact ((hput _).trans (.setPendingOf fun g hg => .inl (hF g hg))).trans (.ev _ 420)
      · exact hput _
    · exact .refl s
  · exact .refl s

theorem State.driftJudged_ref (s : State) (u : Nat) : (s.driftJudged u).cal.ref = s.cal.ref := by
  unfold State.driftJudged
  split
  · split
    · dsimp only
      split <;> simp
    · rfl
  · rfl

theorem State.driftJudged_some {x : Nat × Nat × Int} {b : State} {move : Nat}
    (hx : s.cal.ref.find? (fun y => decide (y.1 = u)) = some x) (hv : s.on (CAL_TEMP_valid (unitSensor u)) = true)
    (hm : move = (toSigned 13 (s.get (CAL_TEMP_temp (unitSensor u))) - x.2.2).natAbs)
    (hb : b = s.put (CAL_UNIT_delta u) (min 0xFFFF (max (s.get (CAL_UNIT_delta u)) move))) :
    s.driftJudged u = if s.on CAL_CTL_en = true ∧ clampNat 4 160 (s.get CAL_TEMP_THR_thr) < move ∧ (!s.on (CAL_UNIT_pending u)) = true
      then (b.setPending u).ev 420 else b := by
  simp only [State.driftJudged, hx, hv, if_true, ← hm, ← hb]

/-- What the judgement of a unit's drift by `move` shows. -/
def DriftShown (s t : State) (u move : Nat) : Prop :=
  t.get (CAL_UNIT_delta u) = min 0xFFFF (max (s.get (CAL_UNIT_delta u)) move) ∧
  (s.on CAL_CTL_en = true → clampNat 4 160 (s.get CAL_TEMP_THR_thr) < move → t.on (CAL_UNIT_pending u) = true ∧
    (s.on (CAL_UNIT_pending u) = false → 420 ∈ t.raised))

theorem State.driftJudged_shown {x : Nat × Nat × Int} {move : Nat} (hwf : cellsWf regReset s.csr = true)
    (hx : s.cal.ref.find? (fun y => decide (y.1 = u)) = some x) (hv : s.on (CAL_TEMP_valid (unitSensor u)) = true)
    (hm : move = (toSigned 13 (s.get (CAL_TEMP_temp (unitSensor u))) - x.2.2).natAbs) : DriftShown s (s.driftJudged u) u move := by
  obtain ⟨b, hb⟩ : ∃ b, b = s.put (CAL_UNIT_delta u) (min 0xFFFF (max (s.get (CAL_UNIT_delta u)) move)) := ⟨_, rfl⟩
  have hfield : (CAL_UNIT_delta u).lo + (CAL_UNIT_delta u).w ≤ 32 := show 16 + 16 ≤ 32 by decide
  have hbwf : cellsWf regReset b.csr = true := hb ▸ State.put_csr_wf hwf
  have hdelta : b.get (CAL_UNIT_delta u) = min 0xFFFF (max (s.get (CAL_UNIT_delta u)) move) := by
    rw [hb, State.get_put_self hwf hfield]
    exact Nat.mod_eq_of_lt (Nat.lt_of_le_of_lt (Nat.min_le_left _ _) (show 0xFFFF < 2 ^ 16 by decide))
  have hpend : b.on (CAL_UNIT_pending u) = s.on (CAL_UNIT_pending u) := by
    rw [State.on, hb, State.get_put_ne hwf hfield (.inr (.inl (show 1 + 1 ≤ 16 by decide))), State.on]
  rw [State.driftJudged_some hx hv hm hb]
  split
  · have hrest : Leaves (· = CAL_UNIT_delta u) b ((b.setPending u).ev 420) :=
      (Leaves.setPendingOf fun g hg => .inr hg).trans (.ev _ 420)
    refine ⟨(hrest.get hbwf _ rfl).trans hdelta, fun _ _ => ⟨?_, fun _ => by simp⟩⟩
    rw [State.on_ev, State.on, State.get_setPending u hbwf]
    rfl
  · next hno =>
    refine ⟨hdelta, fun hen hmove => ?_⟩
    have hon : s.on (CAL_UNIT_pending u) = true := by simpa [hen, hmove] using hno
    exact ⟨hpend.trans hon, fun hoff => absurd hon (by rw [hoff]; decide)⟩

theorem calUnit_ne (h : v ≠ u) : CAL_UNIT u ≠ CAL_UNIT v := by
  simp only [CAL_UNIT]
  omega

theorem DriftShown.of_leaves {w : State} {move : Nat} (h : DriftShown s t u move) (hwf : cellsWf regReset t.csr = true)
    (hl : Leaves (fun g => g.addr = CAL_UNIT u) t w) : DriftShown s w u move := by
  obtain ⟨hdelta, hpend⟩ := h
  refine ⟨(hl.get hwf _ rfl).trans hdelta, fun hen hmove => ?_⟩
  obtain ⟨hon, hev⟩ := hpend hen hmove
  refine ⟨?_, fun hoff => hl.raised (hev hoff)⟩
  rw [State.on, hl.get hwf _ rfl]
  exact hon

/-- After the judgement of all units each one shows its own. -/
theorem State.driftsJudged_shown {x : Nat × Nat × Int} {move : Nat} (hwf : cellsWf regReset s.csr = true) (hu : u < 76)
    (hx : s.cal.ref.find? (fun y => decide (y.1 = u)) = some x) (hv : s.on (CAL_TEMP_valid (unitSensor u)) = true)
    (hm : move = (toSigned 13 (s.get (CAL_TEMP_temp (unitSensor u))) - x.2.2).natAbs) :
    DriftShown s ((List.range 76).foldl State.driftJudged s) u move := by
  obtain ⟨F, hF⟩ : ∃ F : Fld → Prop, F = fun g => ∀ n, n ≠ u → g.addr ≠ CAL_UNIT n := ⟨_, rfl⟩
  have hapart (g : Fld) (hg : g.addr < CAL_UNIT 0 ∨ g.addr = CAL_UNIT u) : F g := by
    rw [hF]
    intro n hn
    rcases hg with h | h
    · simp only [CAL_UNIT] at h ⊢
      omega
    · exact h ▸ calUnit_ne hn
  have hlow (i : Nat) (hi : i < 16) : CAL_TEMP i < CAL_UNIT 0 := by
    simp only [CAL_TEMP, CAL_UNIT]
    omega
  have hsensor : unitSensor u < 16 := by
    simp only [unitSensor]
    (repeat' split) <;> omega
  refine (foldl_establishes (P := fun a : State => Leaves F s a ∧ a.cal.ref = s.cal.ref)
    (Q := fun a => cellsWf regReset a.csr = true ∧ DriftShown s a u move) List.nodup_range (List.mem_range.mpr hu)
    (fun a n hn ha => ?inv) (fun a ha => ?get) (fun a n hn ha => ?keep) ⟨.refl s, rfl⟩).2
  case inv =>
    refine ⟨ha.1.trans (.driftJudged fun g hg => ?_), (State.driftJudged_ref a n).trans ha.2⟩
    rw [hF] at hg
    exact hg n hn
  case get =>
    obtain ⟨hl, href⟩ := ha
    have hget (g : Fld) (hg : g.addr < CAL_UNIT 0 ∨ g.addr = CAL_UNIT u) : a.get g = s.get g := hl.get hwf g (hapart g hg)
    have hon (g : Fld) (hg : g.addr < CAL_UNIT 0 ∨ g.addr = CAL_UNIT u) : a.on g = s.on g := by rw [State.on, hget g hg, State.on]
    refine ⟨(Leaves.driftJudged (F := fun _ => False) fun _ hg => hg.elim).wf (hl.wf hwf), ?_⟩
    have hown := State.driftJudged_shown (hl.wf hwf) (href ▸ hx) ((hon _ (.inl (hlow _ hsensor))).trans hv)
      rfl
    rwa [hget (CAL_TEMP_temp (unitSensor u)) (.inl (hlow _ hsensor)), ← hm, DriftShown, hget _ (.inr rfl), hon CAL_CTL_en (.inl (by decide)), hget CAL_TEMP_THR_thr (.inl (by decide)),
      hon _ (.inr rfl)] at hown
  case keep =>
    have hl : Leaves (fun g => g.addr = CAL_UNIT u) a (a.driftJudged n) := .driftJudged fun g hg => hg ▸ calUnit_ne hn
    exact ⟨hl.wf ha.1, ha.2.of_leaves ha.1 hl⟩

end

section
variable {s : State} {temps : List Int}

theorem State.tempSample_sensor (hc : s.canonical = true) {i : Nat} (hi : i < 16) : SensorShown s (s.tempSample temps) (temps.getD i 0) i := by
  have hwf := State.csr_wf_of_canonical hc
  have hlate (g : Fld) (hg : g.addr < CAL_UNIT 0) (u : Nat) : g.addr ≠ CAL_UNIT u := by
    simp only [CAL_UNIT] at hg ⊢
    omega
  have hl {F : Fld → Prop} (hF : ∀ g, F g → g.addr < CAL_UNIT 0) : Leaves F (s.sensorsRead temps) (s.tempSample temps) := by
    rw [State.tempSample_eq]
    exact .foldl (fun _ u _ => .driftJudged fun g hg => hlate g (hF g hg) u) _
  have hwf1 := (Leaves.sensorsRead (F := fun _ => False) (l := temps) fun _ hg => hg.elim).wf hwf
  refine (State.sensorsRead_shown hwf hi).of_leaves hwf1 (hl fun g hg => ?_) fun hf => ?_
  · rw [hg]
    simp only [CAL_TEMP, CAL_UNIT]
    omega
  · rw [(hl (F := (· = CAL_STATUS_sensor_fault)) (by rintro g rfl; decide)).get hwf1 _ rfl, hf]

theorem State.tempSample_drift {t : State} {x : Nat × Nat × Int} {u move : Nat} (hc : s.canonical = true) (ht : t = s.tempSample temps)
    (hu : u < 76) (hx : s.cal.ref.find? (fun y => decide (y.1 = u)) = some x) (hv : t.on (CAL_TEMP_valid (unitSensor u)) = true)
    (hm : move = (toSigned 13 (t.get (CAL_TEMP_temp (unitSensor u))) - x.2.2).natAbs) : DriftShown s t u move := by
  have hwf := State.csr_wf_of_canonical hc
  have hl1 : Leaves (fun g => g.addr ≠ CAL_STATUS ∧ ∀ i < 16, g.addr ≠ CAL_TEMP i) s (s.sensorsRead temps) :=
    .sensorsRead fun _ hg => hg
  have hl2 : Leaves (fun g => g.addr = CAL_TEMP (unitSensor u)) (s.sensorsRead temps) t := by
    rw [ht, State.tempSample_eq]
    refine .foldl (fun _ v _ => .driftJudged fun g hg => ?_) _
    have hsensor : unitSensor u < 16 := by
      simp only [unitSensor]
      (repeat' split) <;> omega
    rw [hg]
    simp only [CAL_TEMP, CAL_UNIT]
    omega
  have hkept (g : Fld) (hg : g.addr = CAL_UNIT u ∨ g.addr = CAL_CTL ∨ g.addr = CAL_TEMP_THR) : (s.sensorsRead temps).get g = s.get g := by
    refine hl1.get hwf g ⟨?_, fun i hi => ?_⟩ <;> rcases hg with h | h | h <;> rw [h] <;>
      simp only [CAL_UNIT, CAL_STATUS, CAL_CTL, CAL_TEMP_THR, CAL_TEMP] <;> omega
  have hwf1 := hl1.wf hwf
  have hread (g : Fld) (hg : g.addr = CAL_TEMP (unitSensor u)) : t.get g = (s.sensorsRead temps).get g := hl2.get hwf1 g hg
  have hshown := State.driftsJudged_shown (move := move) hwf1 hu (by rw [State.sensorsRead_cal]; exact hx)
    (by rw [State.on, ← hread _ rfl]; exact hv) (by rw [← hread _ rfl]; exact hm)
  have hon (g : Fld) (hg : g.addr = CAL_UNIT u ∨ g.addr = CAL_CTL ∨ g.addr = CAL_TEMP_THR) : (s.sensorsRead temps).on g = s.on g := by
    rw [State.on, hkept g hg, State.on]
  rw [← State.tempSample_eq, ← ht, DriftShown, hkept _ (.inl rfl), hon CAL_CTL_en (.inr (.inl rfl)),
    hkept CAL_TEMP_THR_thr (.inr (.inr rfl)), hon _ (.inl rfl)] at hshown
  exact hshown

end

/-! ## CAL_RUN and the scan (R461, R462, R465) -/

section
variable {s : State}

theorem State.setPending_eq : (fun (a : State) (v : Nat) => a.setPending v) = fun (a : State) (v : Nat) =>
    if a.on (CAL_UNIT_pending v) = true then a else
      (a.setCal { a.cal with pendAt := (v, a.tmb.clk) :: a.cal.pendAt.filter fun x => decide (x.1 ≠ v) }).put (CAL_UNIT_pending v) 1 := rfl

theorem State.calRun_unit {u : Nat} (h : u < 76) : s.calRun u = s.setPending u := by
  rw [State.calRun, if_neg (by omega), if_pos h]

theorem State.calRun_all : s.calRun 0x7F = (List.range 76).foldl (fun (a : State) v => a.setPending v) s := if_pos rfl

theorem State.calRun_none {u : Nat} (h : 76 ≤ u) (h7 : u ≠ 0x7F) : s.calRun u = s := by
  rw [State.calRun, if_neg h7, if_neg (by omega)]

/-- The scan may start a run on the unit (R462, R465). -/
def State.calReady (s : State) (u : Nat) : Bool :=
  s.on (CAL_UNIT_pending u) && s.idleWindow u && match s.cal.failAt.lookup u with
    | some t => decide (t + 1000000000 * tuPerNs ≤ s.tmb.clk)
    | none => true

theorem State.calScan_eq (hr : s.cal.run = none) (hf : s.cal.full = none) :
    s.calScan = match (List.range 76).find? s.calReady with | some u => s.calStart u | none => s := by
  rw [State.calScan, hr, hf, if_neg (by simp)]
  rfl

theorem State.calScan_none (hr : s.cal.run = none) (hf : s.cal.full = none) (h : ∀ u < 76, s.calReady u = false) : s.calScan = s := by
  have hnone : (List.range 76).find? s.calReady = none := by
    rw [List.find?_eq_none]
    intro u hu
    rw [h u (List.mem_range.mp hu)]
    exact Bool.false_ne_true
  rw [State.calScan_eq hr hf, hnone]

theorem State.calScan_first {u : Nat} (hr : s.cal.run = none) (hf : s.cal.full = none) (hu : u < 76) (h : s.calReady u = true)
    (hfirst : ∀ v < u, s.calReady v = false) : s.calScan = s.calStart u := by
  have hsome : (List.range 76).find? s.calReady = some u := by
    rw [List.find?_range_eq_some]
    exact ⟨h, List.mem_range.mpr hu, fun v hv => by rw [hfirst v hv]; rfl⟩
  rw [State.calScan_eq hr hf, hsome]

variable {b : State} {u : Nat}

theorem State.calStart_plain (hu : u < 16 ∨ 48 ≤ u ∧ u < 72) (hb : b = (s.put (CAL_UNIT_running u) 1).setCal { s.cal with run := some u }) :
    s.calStart u = b.smeRequest 8 u := by
  simp only [State.calStart, ← hb]
  rw [dif_neg (by omega), if_neg (by omega)]

theorem State.calStart_tim (hl : 16 ≤ u) (hu : u < 48) (hb : b = (s.put (CAL_UNIT_running u) 1).setCal { s.cal with run := some u }) :
    s.calStart u = (b.put (TIM_STATUS_leased (u - 16)) 1).smeRequest 8 u := by
  simp only [State.calStart, ← hb]
  rw [dif_neg (by omega), if_pos ⟨hl, hu⟩]

theorem State.calStart_ddr {c : Fin 4} (hb : b = (s.put (CAL_UNIT_running (72 + c.val)) 1).setCal { s.cal with run := some (72 + c.val) }) :
    s.calStart (72 + c.val) = (b.setDmc c { b.dmc[c] with round := true }).smeRequest 7 c := by
  have hc : (⟨72 + c.val - 72, by omega⟩ : Fin 4) = c := Fin.ext (by simp)
  have hsub : 72 + c.val - 72 = c.val := by omega
  simp only [State.calStart, ← hb, if_neg (show ¬ (16 ≤ 72 + c.val ∧ 72 + c.val < 48) by omega)]
  rw [dif_pos (by omega)]
  exact congr (congrArg (fun (d : Fin 4) n => (b.setDmc d { b.dmc[d] with round := true }).smeRequest 7 n) hc) hsub

/-! ## The end of a run, stale units, and the T64 view (R462 to R465, R468, R470) -/

section
variable {q : List Nat} (hr : s.cal.run = some u) (hu : u < 72)
include hr hu

theorem State.calRunDone_completed (hw : s.idleWindow u = true) (hq : residualFails u q = false) :
    s.calRunDone q = ((s.showQuality u q).calComplete u).calOver u 0 := by
  simp only [State.calRunDone, hr, hw, hq, if_neg (show ¬ 72 ≤ u by omega), Bool.not_true, Bool.false_eq_true, if_false]

theorem State.calRunDone_failed (hw : s.idleWindow u = true) (hq : residualFails u q = true) :
    s.calRunDone q = ((s.showQuality u q).calFail u).calOver u 0 := by
  simp only [State.calRunDone, hr, hw, hq, if_neg (show ¬ 72 ≤ u by omega), Bool.not_true, Bool.false_eq_true, if_false, if_true]

theorem State.calRunDone_abandoned (hw : s.idleWindow u = false) : s.calRunDone q = s.calAbandon u := by
  simp only [State.calRunDone, hr, hw, if_neg (show ¬ 72 ≤ u by omega), Bool.not_false, if_true]

end

theorem State.calStaleMark_of (hu : u < 72) (hp : s.on (CAL_UNIT_pending u) = true) (hs : s.on (CAL_UNIT_stale u) = false) :
    s.calStaleMark u = (((s.advanceTo (s.deferEnd u)).setStale u true).count CAL_STALE_CNT).ev 417 :=
  if_pos ⟨hu, hp, by rw [hs]; rfl⟩

section
variable {p path c : Nat} {x : Int} (hx : x = 4 * toSigned 16 c - toSigned 16 (s.get (factEdge p path)))
include hx

theorem State.t64Write_fits (hl : -32768 ≤ x) (hh : x ≤ 32767) : s.t64Write p path c = s.put (userEdge p path) (ofSigned 16 x) := by
  simp only [State.t64Write, ← hx, if_neg (show ¬ x < -32768 by omega), if_neg (show ¬ 32767 < x by omega), if_true]

theorem State.t64Write_low (hl : x < -32768) : s.t64Write p path c =
    (((s.put (userEdge p path) 0x8000).put CAL_STATUS_t64_clip 1).count CAL_T64_CLIP_CNT).ev 421 := by
  simp only [State.t64Write, ← hx, if_pos hl, if_neg (show ¬ x = -32768 by omega)]
  rfl

theorem State.t64Write_high (hh : 32767 < x) : s.t64Write p path c =
    (((s.put (userEdge p path) 0x7FFF).put CAL_STATUS_t64_clip 1).count CAL_T64_CLIP_CNT).ev 421 := by
  simp only [State.t64Write, ← hx, if_neg (show ¬ x < -32768 by omega), if_pos hh, if_neg (show ¬ x = 32767 by omega)]
  rfl

end

end

/-- Settles O50: a sensor and a unit are touched by one step each of the sample's two folds, and the other commands go by the branch
that their hypotheses name. -/
theorem calibrationRuns : Obligations.CalibrationRuns := by
  intro s
  refine ⟨?sample, ?calRun, ?scan, ?runDone, ?stale, ?t64⟩
  case sample =>
    intro temps t hc ht
    refine ⟨fun i => ht ▸ State.tempSample_sensor hc i.isLt, fun u x move hx hv hm => State.tempSample_drift hc ht u.isLt hx hv hm⟩
  case calRun =>
    intro u p herr hp
    rw [← State.setPending_eq] at hp
    have hexec : exec (.calRun u) s = finish (s.calRun u.toNat) := congrArg finish (State.atReg_of_csrError_eq_false _ herr)
    refine ⟨fun hu => ?_, fun hu => ?_, fun hl h7 => ?_⟩
    · rw [hexec, State.calRun_unit hu, hp]
      rfl
    · rw [hexec, hu, State.calRun_all, hp]
      rfl
    · rw [hexec, State.calRun_none hl h7]
      rfl
  case scan =>
    intro ready hr hf hready
    obtain rfl : ready = s.calReady := hready
    refine ⟨fun h => congrArg finish (State.calScan_none hr hf h), fun u b hu hfirst hb => ?_⟩
    have hexec : exec .calScan s = finish (s.calStart u) := congrArg finish (State.calScan_first hr hf u.isLt hu hfirst)
    refine ⟨fun h => ?_, fun hl hh => ?_, fun c hc => ?_⟩
    · rw [hexec, State.calStart_plain h hb]
      rfl
    · rw [hexec, State.calStart_tim hl hh hb]
      rfl
    · rw [hc] at hb hexec
      rw [hexec, State.calStart_ddr hb]
      rfl
  case runDone =>
    intro u q hr hu
    exact ⟨fun hw hq => congrArg finish (State.calRunDone_completed hr hu hw hq),
      fun hw hq => congrArg finish (State.calRunDone_failed hr hu hw hq),
      fun hw => congrArg finish (State.calRunDone_abandoned hr hu hw)⟩
  case stale =>
    intro u hu hp hs
    exact congrArg finish (State.calStaleMark_of hu hp hs)
  case t64 =>
    intro p path c x a ha herr hx
    have hexec : exec (.calT64Write p path c) s = finish (s.t64Write p path c.toNat) :=
      congrArg finish (State.atReg_of_csrError_eq_false _ (ha ▸ herr))
    refine ⟨fun h => ?_, fun h => ?_, fun h => ?_⟩
    · rw [hexec, State.t64Write_fits hx h.1 h.2]
      rfl
    · rw [hexec, State.t64Write_low hx h]
      rfl
    · rw [hexec, State.t64Write_high hx h]
      rfl

end Sys2Proof.Machine
end

section
/-! PROOFS. The in-service test, the known-answer test and the scrub (R471 to R474), and the service microengine (R476 to R478, R482). -/

namespace Sys2Proof.Machine

/-! ## The cycle of the in-service test (R471, R472) -/

section
variable {s : State}

@[simp] theorem State.showSme_cal (s : State) : s.showSme.cal = s.cal := rfl

@[simp] theorem State.smeNext_cal (s : State) : s.smeNext.cal = s.cal := by
  unfold State.smeNext
  split
  · rfl
  · split
    · rfl
    · rfl
    · rfl
    · split <;> rfl

@[simp] theorem State.smeRequest_cal (s : State) (routine unit : Nat) : (s.smeRequest routine unit).cal = s.cal := State.smeNext_cal _

theorem mem_of_mem_after {x y : Nat × Nat} {l : List (Nat × Nat)} (h : y ∈ after x l) : y ∈ l := by
  induction l with
  | nil => exact h
  | cons z l ih =>
    rw [after] at h
    split at h
    · exact List.mem_cons_of_mem z h
    · exact List.mem_cons_of_mem z (ih h)

theorem State.istFrom_some {l : List (Nat × Nat)} {x : Nat × Nat} (h : (l.find? fun y => s.istEligible y.1 y.2) = some x) :
    s.istFrom l = if x.1 = 1 then ((s.setCal { s.cal with ist := some x }).smeRequest 9 x.2).put (TIM_STATUS_leased (x.2 - 16)) 1
      else (s.setCal { s.cal with ist := some x }).smeRequest 9 x.2 := by
  simp only [State.istFrom, h]

theorem State.istFrom_none {l : List (Nat × Nat)} (h : (l.find? fun y => s.istEligible y.1 y.2) = none) :
    s.istFrom l = (s.setCal { s.cal with ist := none }).ev 422 := by
  simp only [State.istFrom, h]

/-- The slice in progress, if there is one, is of the cycle's list. -/
def InCycle (s : State) : Prop := s.cal.ist.all (fun x => decide (x ∈ istAll)) = true

theorem InCycle.of_slice {x : Nat × Nat} (h : s.cal.ist = some x) (hx : x ∈ istAll) : InCycle s := by
  rw [InCycle, h]
  exact decide_eq_true hx

theorem State.istFrom_inCycle {l : List (Nat × Nat)} (hl : ∀ x ∈ l, x ∈ istAll) : InCycle (s.istFrom l) := by
  cases h : l.find? fun y => s.istEligible y.1 y.2 with
  | none =>
    rw [State.istFrom_none h]
    rfl
  | some x =>
    have hx : x ∈ istAll := hl x (List.mem_of_find?_eq_some h)
    rw [State.istFrom_some h]
    split <;> exact .of_slice (by simp [State.setCal]) hx

theorem State.istCycle_inCycle (h : InCycle s) : InCycle s.istCycle := by
  unfold State.istCycle
  split
  · exact State.istFrom_inCycle fun _ => id
  · exact h

theorem State.istSliceDone_inCycle (h : InCycle s) (outcome : Nat) : InCycle (s.istSliceDone outcome) := by
  unfold State.istSliceDone
  split
  · exact h
  · exact State.istFrom_inCycle fun _ => mem_of_mem_after

theorem State.istCycle_starts {u : State} (hen : s.on CAL_CTL_ist_en = true) (hist : s.cal.ist = none)
    (hu : u = s.afterMs s.cal.istAt (clampNat 100 60000 (s.get CAL_IST_PERIOD_ms))) :
    s.istCycle = (u.setCal { u.cal with istAt := some u.tmb.clk }).istFrom istAll := by
  simp only [State.istCycle, if_pos (And.intro hen hist), ← hu]

theorem State.istSliceDone_goes {t u outcome : Nat} (h : s.cal.ist = some (t, u)) (ho : outcome ≠ 1) :
    s.istSliceDone outcome = (s.istStopped t u).istFrom (after (t, u) istAll) := by
  simp only [State.istSliceDone, h, if_neg ho]
  rfl

end

/-! ## The known-answer test (R473) -/

section
variable {s : State}

theorem State.afterMs_csr (s : State) (t : Option Nat) (ms : Nat) : (s.afterMs t ms).csr = s.csr := by
  cases t with
  | none => rfl
  | some x => exact State.advance_csr s _

theorem State.katDone_held {v : State} {pass : Bool} (h : s.katRetry pass = v) (hv : v.on CAL_STATUS_crypto_hold = true) :
    s.katDone pass = v := by
  simp only [State.katDone, h, hv, if_true]

theorem State.katDone_over {w : State} {pass : Bool} (h : s.katRetry pass = w) (hw : w.on CAL_STATUS_crypto_hold = false) :
    s.katDone pass = (List.finRange 8).foldl (fun (a : State) (k : Fin 8) => a.pumpAll k)
      (w.net.rxWait.foldl (fun (a : State) (x : Nat × Rx) => a.checkSession x.1 x.2) (w.setNet { w.net with rxWait := [] })) := by
  simp only [State.katDone, h, hw, Bool.false_eq_true, if_false]

theorem State.katRetry_held {u : State} {pass : Bool} (h : s.on CAL_STATUS_crypto_hold = true) (hu : u = s.afterMs s.cal.katAt 1000) :
    s.katRetry pass = if pass then ((u.setCal { u.cal with katAt := some u.tmb.clk }).put CAL_STATUS_crypto_hold 0).ev 427
      else u.setCal { u.cal with katAt := some u.tmb.clk } := by
  simp only [State.katRetry, h, if_true, ← hu]

end

/-! ## The scrub (R474) -/

section
variable {s : State} {k : Fin 5} {line o : Nat} {err : BitVec 640}

/-- A line found in error counts in SCRUB_FULL. -/
def State.scrubFound (s : State) : State := s.setCal { s.cal with scrubFull := s.cal.scrubFull.map fun x => (x.1, x.2 + 1) }

/-- The scrub of a line of SRAM, by what the SRAM shows. -/
def State.scrubSram (s : State) (line o : Nat) : State :=
  if o = 2 then ((((s.wn64 CAL_SCRUB_UE_ADDR_LO line).count CAL_SCRUB_UE_CNT).put CAL_STATUS_scrub_ue 1).ev 429).scrubFound
  else if o = 1 then (s.count CAL_SCRUB_CE_CNT).ev 428
  else s

/-- The scrub of a line of channel `c`, by what the read shows. -/
def State.scrubNear (s : State) (c : Fin 4) (line : Nat) (err : BitVec 640) : State :=
  let l := s.lineRead c line err
  let s1 := s.correctAll c line 30 2 (corrections l)
  if uncorrectables l ≠ 0 then (s1.freeze c line 30 2 (uncorrectables l) (decide (corrections l ≠ []))).scrubFound
  else if corrections l = [] then s1
  else (s1.setLine line (s.readData line err l)).setDmc c { s1.dmc[c] with
    patterned := s1.dmc[c].patterned.filter fun y => decide (y.1 ≠ line) }

section
variable (hen : s.on CAL_CTL_scrub_en = true ∨ s.cal.scrubFull.isSome = true) (hline : line = (s.scrubRegion k).1 + s.cal.scrub[k])
  (hserved : s.scrubServed k = true) (hmove : s.mayMove 30 line 64 = true)
include hen hline hserved hmove

theorem State.scrubRead_sram (hk : k = 0) : s.scrubRead k err o = (s.scrubSram line o).scrubNext k := by
  have hgo : (s.on CAL_CTL_scrub_en || s.cal.scrubFull.isSome) = true := Bool.or_eq_true_iff.mpr hen
  simp only [State.scrubRead, ← hline, hgo, hserved, hmove, Bool.not_true, Bool.false_eq_true, if_false,
    dif_pos (show k.val = 0 by rw [hk]; rfl)]
  rfl

theorem State.scrubRead_near {c : Fin 4} (hk : k.val = 1 + c.val) : s.scrubRead k err o = (s.scrubNear c line err).scrubNext k := by
  have hgo : (s.on CAL_CTL_scrub_en || s.cal.scrubFull.isSome) = true := Bool.or_eq_true_iff.mpr hen
  have hlt : k.val - 1 < 4 := by omega
  have hc : c = ⟨k.val - 1, hlt⟩ := Fin.ext (by simp only; omega)
  rw [hc]
  simp only [State.scrubRead, ← hline, hgo, hserved, hmove, Bool.not_true, Bool.false_eq_true, if_false,
    dif_neg (show ¬ k.val = 0 by omega), State.scrubNear, State.scrubFound]
  rw [apply_ite (fun t : State => t.scrubNext k), apply_ite (fun t : State => t.scrubNext k)]

end

section
variable {c : Fin 4} {l : List CwRead} {u : State} (hl : l = s.lineRead c line err) (hu : u = s.correctAll c line 30 2 (corrections l))
include hl hu

theorem State.scrubNear_clean (h0 : uncorrectables l = 0) (h : corrections l = []) : s.scrubNear c line err = u := by
  simp only [State.scrubNear, ← hl, ← hu, h0, if_pos h, ne_eq, not_true_eq_false, if_false]

theorem State.scrubNear_corrected (h0 : uncorrectables l = 0) (h : corrections l ≠ []) : s.scrubNear c line err =
    (u.setLine line (s.readData line err l)).setDmc c { u.dmc[c] with
      patterned := u.dmc[c].patterned.filter fun y => decide (y.1 ≠ line) } := by
  simp only [State.scrubNear, ← hl, ← hu, h0, if_neg h, ne_eq, not_true_eq_false, if_false]

theorem State.scrubNear_uncorrectable {v : State} (h0 : uncorrectables l ≠ 0)
    (hv : v = u.freeze c line 30 2 (uncorrectables l) (decide (corrections l ≠ []))) : s.scrubNear c line err = v.scrubFound := by
  simp only [State.scrubNear, ← hl, ← hu, if_pos h0, ← hv]

end

theorem State.scrubNext_moves {n : Nat} (hn : n = s.cal.scrub[k] + 64) (h : n < (s.scrubRegion k).2) :
    s.scrubNext k = s.setCal { s.cal with scrub := s.cal.scrub.set k n } := by
  simp only [State.scrubNext, ← hn, if_pos h]

theorem State.scrubNext_passes {n : Nat} (hn : n = s.cal.scrub[k] + 64) (h : (s.scrubRegion k).2 ≤ n) :
    s.scrubNext k = ((s.setCal { s.cal with scrub := s.cal.scrub.set k 0 }).ev 430).scrubLeave k := by
  simp only [State.scrubNext, ← hn, if_neg (Nat.not_lt.mpr h)]

end

/-- Settles O53: the cycle goes on along its list only, and each of the other commands goes by the branch that its hypotheses name. -/
theorem selfTestAndScrub : Obligations.SelfTestAndScrub := by
  intro s
  refine ⟨?inv, ?cycle, ?slice, ?kat, ?scrub, ?next⟩
  case inv =>
    rintro c t (rfl | ⟨o, rfl⟩) hist hex
    · obtain rfl : s.istCycle = t := Host.Outcome.next.inj hex
      exact State.istCycle_inCycle hist
    · obtain rfl : s.istSliceDone o = t := Host.Outcome.next.inj hex
      exact State.istSliceDone_inCycle hist o
  case cycle =>
    intro u v hen hist hu hv
    have hstart : s.istCycle = v.istFrom istAll := by rw [State.istCycle_starts hen hist hu, hv]
    exact ⟨fun x hx => congrArg finish (hstart.trans (State.istFrom_some hx)),
      fun h => congrArg finish (hstart.trans (State.istFrom_none h))⟩
  case slice =>
    intro test unit u v hist hu hv
    obtain rfl : u = s.istStopped test unit := hu
    obtain rfl : v = (s.istStopped test unit).istRecorded test unit := hv
    exact ⟨fun o ho => congrArg finish (State.istSliceDone_goes hist fun h => ho (Fin.ext h)),
      congrArg finish (State.istSliceDone_failed hist)⟩
  case kat =>
    intro u v hhold hc hu hv
    have hcsr : v.csr = s.csr := by
      rw [hv, hu]
      exact State.afterMs_csr s _ _
    have hwf : cellsWf regReset v.csr = true := hcsr ▸ State.csr_wf_of_canonical hc
    refine ⟨congrArg finishSync (State.katDone_held ?_ ((State.on_congr hcsr _).trans hhold)), fun w hw =>
      congrArg finishSync (State.katDone_over ?_ ?_)⟩
    · rw [State.katRetry_held hhold hu, hv]
      rfl
    · rw [State.katRetry_held hhold hu, hw, hv]
      rfl
    · rw [hw, State.on_ev, State.on, State.get_put_self hwf (by decide)]
      rfl
  case scrub =>
    intro hen k line err o hline hserved hmove
    refine ⟨fun hk => ?_, fun c l u v hk hl hu => ?_⟩
    · have hexec : exec (.scrubRead k err o) s = finishSync ((s.scrubSram line o).scrubNext k) :=
        congrArg finishSync (State.scrubRead_sram hen hline hserved hmove hk)
      refine ⟨?_, ?_, ?_⟩
      · rintro rfl
        exact hexec
      · rintro rfl
        exact hexec
      · rintro u rfl rfl
        exact hexec
    · have hexec {w : State} (h : s.scrubNear c line err = w) : exec (.scrubRead k err o) s = finishSync (w.scrubNext k) :=
        h ▸ congrArg finishSync (State.scrubRead_near hen hline hserved hmove hk)
      exact ⟨fun h0 h => hexec (State.scrubNear_clean hl hu h0 h), fun h0 h => hexec (State.scrubNear_corrected hl hu h0 h),
        fun h0 hv => hexec (State.scrubNear_uncorrectable hl hu h0 hv)⟩
  case next =>
    intro k n hn
    exact ⟨State.scrubNext_moves hn, State.scrubNext_passes hn⟩

end Sys2Proof.Machine
end

section
/-! PROOFS. The service microengine: commit points, the end of a routine, and faults (R476 to R478, R482). -/

namespace Sys2Proof.Machine

/-! ## Commit points (R477, R478) -/

section
variable {s u : State} {j : SmeJob} {n : Nat} (hrun : s.sme.run = some j) (hatomic : smeAtomic j.routine = false)
  (hu : u = s.put SME_COMMIT_MAX_clocks (min 0xFFFF (max (s.get SME_COMMIT_MAX_clocks) n)))
include hrun hatomic hu

theorem State.smeCommitPoint_suspends {r : SmeJob} (hlease : s.leaseLost j = false) (hr : firstJob s.sme.reqs = some r)
    (hprio : smePrio j.routine < smePrio r.routine ∨ smeAtomic r.routine = true) (hroom : s.sme.susp.length < 8) :
    s.smeCommitPoint n = (((u.setSme { s.sme with
      run := some r
      reqs := s.sme.reqs.erase r
      susp := j :: s.sme.susp }).count SME_SUSPEND_CNT).ev 435).showSme := by
  have hsme : u.sme = s.sme := by rw [hu, State.put_sme]
  simp only [State.smeCommitPoint, hrun, hatomic, hlease, ← hu, hr, hsme, Bool.false_eq_true, if_false, if_pos (And.intro hprio hroom)]

theorem State.smeCommitPoint_goesOn (hlease : s.leaseLost j = false)
    (h : ∀ r, firstJob s.sme.reqs = some r → smePrio r.routine ≤ smePrio j.routine ∧ smeAtomic r.routine = false) :
    s.smeCommitPoint n = u := by
  simp only [State.smeCommitPoint, hrun, hatomic, hlease, ← hu, Bool.false_eq_true, if_false]
  cases hr : firstJob s.sme.reqs with
  | none => rfl
  | some r =>
    obtain ⟨hle, hr1⟩ := h r hr
    have hno : ¬ ((smePrio j.routine < smePrio r.routine ∨ smeAtomic r.routine = true) ∧ s.sme.susp.length < 8) := by
      rintro ⟨hlt | hone, -⟩
      · exact Nat.not_lt.mpr hle hlt
      · rw [hr1] at hone
        cases hone
    exact if_neg hno

theorem State.smeCommitPoint_abandons (hlease : s.leaseLost j = true) (h8 : j.routine = 8) :
    s.smeCommitPoint n = u.calAbandon j.unit := by
  simp only [State.smeCommitPoint, hrun, hatomic, hlease, ← hu, Bool.false_eq_true, if_false, if_true, if_pos h8]

theorem State.smeCommitPoint_yields (hlease : s.leaseLost j = true) (h9 : j.routine = 9) : s.smeCommitPoint n = u.istSliceDone 2 := by
  simp only [State.smeCommitPoint, hrun, hatomic, hlease, ← hu, Bool.false_eq_true, if_false, if_true,
    if_neg (show ¬ j.routine = 8 by omega)]

end

/-! ## The end of a routine (R476) -/

section
variable {u : State} (hrun : u.sme.run = none)
include hrun

theorem State.smeNext_idle (hr : firstJob u.sme.reqs = none) (hs : firstJob u.sme.susp = none) : u.smeNext = u.showSme := by
  simp only [State.smeNext, hrun, hr, hs]

theorem State.smeNext_request {r : SmeJob} (hr : firstJob u.sme.reqs = some r)
    (h : ∀ j, firstJob u.sme.susp = some j → smePrio j.routine < smePrio r.routine) :
    u.smeNext = (u.setSme { u.sme with
      run := some r
      reqs := u.sme.reqs.erase r }).showSme := by
  simp only [State.smeNext, hrun, hr]
  cases hs : firstJob u.sme.susp with
  | none => rfl
  | some j => exact if_pos (h j hs)

theorem State.smeNext_resumes {j : SmeJob} (hs : firstJob u.sme.susp = some j)
    (h : ∀ r, firstJob u.sme.reqs = some r → smePrio r.routine ≤ smePrio j.routine) :
    u.smeNext = ((u.setSme { u.sme with
      run := some j
      susp := u.sme.susp.erase j }).ev 436).showSme := by
  simp only [State.smeNext, hrun, hs]
  cases hr : firstJob u.sme.reqs with
  | none => rfl
  | some r => exact if_neg (Nat.not_lt.mpr (h r hr))

end

/-! ## Faults (R482) -/

/-- The fault is counted; a parity error disables the match registers. -/
def State.smeFaulted (s : State) (parity : Bool) : State :=
  if parity then (List.range 32).foldl (fun (a : State) i => a.put (SME_MATCH_en i) 0) ((s.count SME_FAULT_CNT).ev 432)
  else (s.count SME_FAULT_CNT).ev 432

section
variable {s : State} {parity : Bool}

theorem State.smeFaulted_cal : (s.smeFaulted parity).cal = s.cal := by
  unfold State.smeFaulted
  split
  · exact List.foldlRecOn (motive := fun a : State => a.cal = s.cal) _ _ rfl fun a ha i _ => by rw [State.put_cal, ha]
  · rfl

theorem State.smeFault_atomic (h : (s.sme.run.all fun j => smeAtomic j.routine) = true) : s.smeFault parity = s.smeFaulted parity := by
  rw [State.smeFault]
  cases hrun : s.sme.run with
  | none => rfl
  | some j =>
    rw [hrun] at h
    exact if_pos h

theorem State.smeFault_failed {j : SmeJob} (hrun : s.sme.run = some j) (h : smeAtomic j.routine = false) :
    s.smeFault parity = (s.smeFaulted parity).smeFailed j := by
  simp only [State.smeFault, hrun, h, Bool.false_eq_true, if_false]
  rfl

/-- A fault of any routine but that of a structure load is its own only. -/
theorem State.smeFaultLoad_eq (h : s.sme.run ≠ some { routine := 5, unit := 0 }) : s.smeFaultLoad parity = s.smeFault parity := by
  rw [State.smeFaultLoad]
  cases (s.smeFault parity).load with
  | none => rfl
  | some x => exact if_pos (by rw [decide_eq_false h]; rfl)

theorem State.smeFaultLoad_failed {j : SmeJob} (hrun : s.sme.run = some j) (h6 : 6 ≤ j.routine) :
    s.smeFaultLoad parity = (s.smeFaulted parity).smeFailed j := by
  have hne : s.sme.run ≠ some { routine := 5, unit := 0 } := by
    rw [hrun]
    rintro ⟨rfl⟩
    exact absurd h6 (by decide)
  rw [State.smeFaultLoad_eq hne, State.smeFault_failed hrun]
  simp only [smeAtomic, decide_eq_false (show ¬ j.routine ≤ 4 by omega), Bool.and_false]

end

section
variable {u : State} {j : SmeJob} {c : Fin 4}

theorem State.smeFailed_calibration (h8 : j.routine = 8) (hr : u.cal.run = some j.unit) :
    u.smeFailed j = (u.calFail j.unit).calOver j.unit 0 := by
  rw [State.smeFailed, if_pos h8, if_pos hr]

theorem State.smeFailed_slice (h9 : j.routine = 9) : u.smeFailed j = u.istSliceDone 1 := by
  rw [State.smeFailed, if_neg (by omega), if_pos h9]

theorem State.smeFailed_training : u.smeFailed ⟨6, c.val⟩ = (u.ddrTrainDone c 4 0xFF).smeDone 6 c := by
  rw [State.smeFailed, if_neg (show ¬ 6 = 8 by decide), if_neg (show ¬ 6 = 9 by decide), dif_pos ⟨rfl, c.isLt⟩]

theorem State.smeFailed_retraining (hr : u.cal.run = some (72 + c.val)) : u.smeFailed ⟨7, c.val⟩ =
    ((u.setDmc c { u.dmc[c] with round := false }).calFail (72 + c)).calOver (72 + c) 0 := by
  rw [State.smeFailed, if_neg (show ¬ 7 = 8 by decide), if_neg (show ¬ 7 = 9 by decide),
    dif_neg (show ¬ (7 = 6 ∧ _) by omega), dif_pos ⟨rfl, c.isLt⟩]
  exact if_pos hr

end

/-- Settles O54: each command goes by the branch that its hypotheses name; a fault of none of these routines is one of a load. -/
theorem serviceRoutines : Obligations.ServiceRoutines := by
  intro s
  refine ⟨?commit, ?finish, ?fault⟩
  case commit =>
    intro n j u hrun hatomic hu
    refine ⟨fun hl => ⟨fun r hr hp hroom => ?_, fun h => ?_⟩, fun hl => ⟨fun h8 => ?_, fun h9 => ?_⟩⟩
    · exact congrArg finish (State.smeCommitPoint_suspends hrun hatomic hu hl hr hp hroom)
    · exact congrArg finish (State.smeCommitPoint_goesOn hrun hatomic hu hl h)
    · exact congrArg finish (State.smeCommitPoint_abandons hrun hatomic hu hl h8)
    · exact congrArg finish (State.smeCommitPoint_yields hrun hatomic hu hl h9)
  case finish =>
    rintro u rfl
    have hexec {v : State} (h : (s.setSme { s.sme with run := none }).smeNext = v) : exec .smeRoutineEnd s = finishSync v.netGo :=
      congrArg (fun t : State => finishSync t.netGo) h
    refine ⟨fun hr hs => hexec (State.smeNext_idle rfl ?_ ?_), fun r hr h => hexec (State.smeNext_request rfl hr h),
      fun j hs h => hexec (State.smeNext_resumes rfl hs h)⟩
    · exact congrArg firstJob hr
    · exact congrArg firstJob hs
  case fault =>
    intro parity u hu
    obtain rfl : u = s.smeFaulted parity := hu
    refine ⟨fun h => ?_, fun j hrun => ⟨fun h8 hr => ?_, fun h9 => ?_, fun c hj => ?_, fun c hj hr => ?_⟩⟩
    · have hne : s.sme.run ≠ some { routine := 5, unit := 0 } := by
        intro hrun
        rw [hrun] at h
        exact absurd h (by decide)
      exact congrArg finish ((State.smeFaultLoad_eq hne).trans (State.smeFault_atomic h))
    · exact congrArg finish ((State.smeFaultLoad_failed hrun (by omega)).trans
        (State.smeFailed_calibration h8 (by rw [State.smeFaulted_cal, hr])))
    · exact congrArg finish ((State.smeFaultLoad_failed hrun (by omega)).trans (State.smeFailed_slice h9))
    · rw [hj] at hrun
      exact congrArg finish ((State.smeFaultLoad_failed hrun (show 6 ≤ 6 by decide)).trans State.smeFailed_training)
    · rw [hj] at hrun
      exact congrArg finish ((State.smeFaultLoad_failed hrun (show 6 ≤ 7 by decide)).trans
        (State.smeFailed_retraining (by rw [State.smeFaulted_cal, hr])))

end Sys2Proof.Machine
end

section
/-! PROOFS. The transactions of the pin-electronics buses (R505, R516). -/

namespace Sys2Proof.Machine

/-- A command leaves the fields below its own bit as the host writes them. -/
theorem bitsOf_withBit_of_le {v : Word} {i lo w : Nat} {b : Bool} (h : lo + w ≤ i) (hi : i ≤ 32) :
    bitsOf (withBit v i b).toNat lo w = bitsOf v.toNat lo w := by
  apply Nat.eq_of_testBit_eq
  intro j
  rw [bitsOf_testBit, bitsOf_testBit]
  by_cases hj : j < w
  · rw [← bit_eq_testBit, ← bit_eq_testBit, bit_withBit v b (by omega), if_neg (by omega)]
  · rw [decide_eq_false hj, Bool.false_and, Bool.false_and]

section
variable {s : State} {b : Fin 8}

/-! ## The request and the start of a transaction -/

section
variable {v : Word} {u : State} {n : Nat}

theorem State.pebTxn_busy (hgo : bit v.toNat 31 = true) (h : s.on (PEB_STATUS_busy b) = true) : s.pebTxn b v = s.put (PEB_STATUS_err b) 1 := by
  simp only [State.pebTxn, h, hgo, if_true]

theorem State.pebTxn_idle (hgo : bit v.toNat 31 = true) (h : s.on (PEB_STATUS_busy b) = false)
    (hu : u = (s.put (PEB_TXN_cs b) (bitsOf v.toNat 0 3)).put (PEB_TXN_bytes b) (bitsOf v.toNat 8 6)) :
    s.pebTxn b v = if bitsOf v.toNat 8 6 = 0 ∨ 32 < bitsOf v.toNat 8 6 then u.put (PEB_STATUS_err b) 1 else u.put (PEB_STATUS_busy b) 1 := by
  simp only [State.pebTxn, h, hgo, Bool.false_eq_true, if_false, Bool.not_true, ← hu]

theorem exec_pebTxnGo (herr : s.csrError (PEB_TXN b) true = false) :
    exec (.pebTxnGo b v) s = finish (s.pebTxn b (withBit v 31 true)) := congrArg finish (State.atReg_of_csrError_eq_false _ herr)

theorem bit_go (v : Word) : bit (withBit v 31 true).toNat 31 = true := by rw [bit_withBit v true (by decide), if_pos rfl]

end

theorem State.pebStart_goes (hbusy : s.on (PEB_STATUS_busy b) = true) (hcs : s.peb[b].cs = none) (hready : s.on (PEB_STATUS_ready b) = true)
    (hsecret : s.pebSecret b = false) : s.pebStart b = s.setPeb b { cs := some (s.get (PEB_TXN_cs b)), abort := false } :=
  if_pos (by rw [hbusy, hcs, hready, hsecret]; rfl)

theorem State.pebStart_waits (h : s.on (PEB_STATUS_ready b) = false ∨ s.pebSecret b = true) : s.pebStart b = s :=
  if_neg (by rcases h with h | h <;> simp [h])

/-! ## The bytes received, and the end of a transaction -/

theorem State.pebTake_setPeb (s : State) (x : PebH) (rx : List Byte) : (s.setPeb b x).pebTake b rx = (s.pebTake b rx).setPeb b x := by
  have hget : (s.setPeb b x).get (PEB_TXN_bytes b) = s.get (PEB_TXN_bytes b) := State.get_congr rfl _
  have hfold (l : List Nat) (t : State) : l.foldl (fun (a : State) k => a.put (pebByte b k) (rx.getD k 0).toNat) (t.setPeb b x) =
      (l.foldl (fun (a : State) k => a.put (pebByte b k) (rx.getD k 0).toNat) t).setPeb b x := by
    induction l generalizing t with
    | nil => rfl
    | cons k l ih =>
      rw [List.foldl_cons, List.foldl_cons, ← ih]
      rfl
  rw [State.pebTake, hget, hfold, State.pebTake]

theorem State.setPeb_setPeb (s : State) (x y : PebH) : (s.setPeb b x).setPeb b y = s.setPeb b y := by
  simp only [State.setPeb, Vector.set_set]

theorem State.pebEnd_done {rx : List Byte} (hcs : s.peb[b].cs.isSome = true) (h : s.get (PEB_TXN_bytes b) ≤ rx.length) :
    s.pebEnd b rx = (((s.pebTake b rx).setPeb b {}).put (PEB_STATUS_busy b) 0).put (PEB_STATUS_done b) 1 := by
  have hno : s.peb[b].cs.isNone = false := by rw [← Option.not_isSome, hcs]; rfl
  simp only [State.pebEnd, hno, decide_eq_true h, Bool.false_eq_true, if_false, Bool.not_true, Bool.false_and, if_true]

theorem State.pebAbort_ends {rx : List Byte} (hcs : s.peb[b].cs.isSome = true) (h : rx.length < s.get (PEB_TXN_bytes b)) :
    s.pebAbort b rx = (((s.pebTake b rx).setPeb b {}).put (PEB_STATUS_busy b) 0).put (PEB_STATUS_aborted b) 1 := by
  have hno : s.peb[b].cs.isNone = false := by rw [← Option.not_isSome, hcs]; rfl
  obtain ⟨t, ht⟩ : ∃ t, t = s.setPeb b { s.peb[b] with abort := true } := ⟨_, rfl⟩
  have hpeb : t.peb[b] = { s.peb[b] with abort := true } := by simp [ht, State.setPeb]
  have hget : t.get (PEB_TXN_bytes b) = s.get (PEB_TXN_bytes b) := State.get_congr (ht ▸ rfl) _
  have htake : (t.pebTake b rx).setPeb b {} = (s.pebTake b rx).setPeb b {} := by
    rw [ht, State.pebTake_setPeb, State.setPeb_setPeb]
  simp only [State.pebAbort, hno, ← ht, State.pebEnd, hpeb, hget, decide_eq_false (Nat.not_le.mpr h), Bool.false_eq_true, if_false,
    Bool.not_true, Bool.and_false, htake]

theorem pebByte_apart {k n : Nat} (h : n ≠ k) : (pebByte b k).addr ≠ (pebByte b n).addr ∨
    (pebByte b k).lo + (pebByte b k).w ≤ (pebByte b n).lo ∨ (pebByte b n).lo + (pebByte b n).w ≤ (pebByte b k).lo := by
  simp only [pebByte, PEB_DATA]
  omega

/-- Every byte received within the transaction's length reads as it was received. -/
theorem State.get_pebTake {rx : List Byte} {k : Nat} (hc : s.canonical = true) (hrx : k < rx.length) (hn : k < s.get (PEB_TXN_bytes b)) :
    (s.pebTake b rx).get (pebByte b k) = (rx.getD k 0).toNat := by
  have hfield (n : Nat) : (pebByte b n).lo + (pebByte b n).w ≤ 32 := by
    simp only [pebByte]
    omega
  refine (foldl_establishes (P := fun a : State => cellsWf regReset a.csr = true)
    (Q := fun a => cellsWf regReset a.csr = true ∧ a.get (pebByte b k) = (rx.getD k 0).toNat) List.nodup_range
    (List.mem_range.mpr (Nat.lt_min.mpr ⟨hrx, hn⟩)) (fun a n _ ha => State.put_csr_wf ha) (fun a ha => ?get)
    (fun a n hne ha => ?keep) (State.csr_wf_of_canonical hc)).2
  case get =>
    refine ⟨State.put_csr_wf ha, ?_⟩
    rw [State.get_put_self ha (hfield k)]
    exact Nat.mod_eq_of_lt (rx.getD k 0).isLt
  case keep => exact ⟨State.put_csr_wf ha.1, (State.get_put_ne ha.1 (hfield n) (pebByte_apart hne)).trans ha.2⟩

end

/-- Settles O60: each command goes by the branch that its hypotheses name, and the received bytes lie in fields apart. -/
theorem pinElectronicsBuses : Obligations.PinElectronicsBuses := by
  intro s b
  refine ⟨rfl, rfl, ?go, ?start, ?ends⟩
  case go =>
    intro v u herr hu
    have hcs : bitsOf (withBit v 31 true).toNat 0 3 = bitsOf v.toNat 0 3 := bitsOf_withBit_of_le (by decide) (by decide)
    have hbytes : bitsOf (withBit v 31 true).toNat 8 6 = bitsOf v.toNat 8 6 := bitsOf_withBit_of_le (by decide) (by decide)
    have hidle := State.pebTxn_idle (s := s) (b := b) (u := u) (bit_go v) (hu := by rw [hcs, hbytes, hu])
    rw [hbytes] at hidle
    refine ⟨fun h => ?_, fun h h1 h32 => ?_, fun h hn => ?_⟩
    · rw [exec_pebTxnGo herr, State.pebTxn_busy (bit_go v) h]
      rfl
    · rw [exec_pebTxnGo herr, hidle h, if_neg (by omega)]
      rfl
    · rw [exec_pebTxnGo herr, hidle h, if_pos hn]
      rfl
  case start =>
    intro hbusy hcs
    exact ⟨fun hready hsecret => congrArg finish (State.pebStart_goes hbusy hcs hready hsecret),
      fun h => congrArg finish (State.pebStart_waits h)⟩
  case ends =>
    intro rx u hcs hu
    refine ⟨fun h => ?_, fun h herr => ?_, fun hc k hrx _ hn => ?_⟩
    · rw [hu]
      exact congrArg finish (State.pebEnd_done hcs h)
    · rw [hu]
      exact congrArg finish ((State.atReg_of_csrError_eq_false _ herr).trans (State.pebAbort_ends hcs h))
    · rw [hu, State.get_congr (t := (s.pebTake b rx).setPeb b {}) (s := s.pebTake b rx) rfl]
      exact State.get_pebTake hc hrx hn

end Sys2Proof.Machine
end

section
/-! PROOFS. The host's power mask (R53, R70, R506), and jump requests: the host's own, their registration, and the deadline of a wait
loop (R142, R143, R151). -/

namespace Sys2Proof.Machine

/-! ## The power mask -/

section
variable {s : State} {v : Word} {mask : Nat}

theorem State.pwrDomainWrite_low (h : s.mayPower = true) : s.pwrDomainWrite false v = s.stageLow PWR_DOMAIN_LO v := by
  simp only [State.pwrDomainWrite, h, Bool.not_true, Bool.false_eq_true, if_false, Bool.not_false, if_true]

theorem State.pwrDomainWrite_high (h : s.mayPower = true)
    (hm : mask = s.stagedLow PWR_DOMAIN_LO (s.cs.power % 2 ^ 32) + 2 ^ 32 * (v.toNat % 2 ^ 12)) :
    s.pwrDomainWrite true v = (s.unstage PWR_DOMAIN_LO).powerWrite mask := by
  simp only [State.pwrDomainWrite, h, Bool.not_true, Bool.false_eq_true, if_false, ← hm]

theorem State.powerWrite_valid (hok : powerOk s.cs mask s.lifecycle = true)
    (hidle : ∀ d < 44, s.domainOn d = true → bit mask d = false → s.domainBusy d = false) : s.powerWrite mask = s.powerTo mask := by
  have hbusy : ((List.range 44).any fun d => s.domainOn d && !bit mask d && s.domainBusy d) = false := by
    rw [List.any_eq_false]
    intro d hd h
    simp only [Bool.and_eq_true, Bool.not_eq_true'] at h
    obtain ⟨⟨hon, hoff⟩, hbusy⟩ := h
    rw [hidle d (List.mem_range.mp hd) hon hoff] at hbusy
    cases hbusy
  simp only [State.powerWrite, hok, hbusy, Bool.not_true, Bool.or_self, Bool.false_eq_true, if_false]

theorem State.powerWrite_invalid (hok : powerOk s.cs mask s.lifecycle = false) : s.powerWrite mask = s.put PWR_STATUS_refused 1 := by
  simp only [State.powerWrite, hok, Bool.not_false, Bool.true_or, if_true]

theorem State.domainBusy_unstage (a d : Nat) : (s.unstage a).domainBusy d = s.domainBusy d := rfl

end

/-- Settles O10: the low word only stages; at the high word the mask of both is valid or not. -/
theorem powerMaskWrite : Obligations.PowerMaskWrite := by
  intro s v hload hstate hlife
  have hmay : s.mayPower = true := by
    rw [State.mayPower, hload, decide_eq_true hstate, decide_eq_true hlife]
    rfl
  refine ⟨fun herr => ?_, fun herr mask hmask => ⟨fun ⟨hok, hidle⟩ => ?_, fun hok => ?_⟩⟩
  · rw [exec_pwrDomainWrite v herr, State.pwrDomainWrite_low hmay]
  · rw [exec_pwrDomainWrite v herr, State.pwrDomainWrite_high hmay hmask, State.powerWrite_valid (s := s.unstage PWR_DOMAIN_LO) hok
      fun d hd hon hoff => (State.domainBusy_unstage _ d).trans (hidle d hd hon hoff)]
  · rw [exec_pwrDomainWrite v herr, State.pwrDomainWrite_high hmay hmask, State.powerWrite_invalid (s := s.unstage PWR_DOMAIN_LO) hok]

/-! ## The host's jump requests (R142) -/

theorem seqHostF_portUnit (p : Fin 8) : seqHostF (portUnit p) = PRT_JUMP_HOST_req p := if_pos p.isLt

theorem seqHostF_wfgUnit (m : Fin 4) : seqHostF (wfgUnit m) = WFG_JUMP_HOST_req m := by
  have hge : ¬ (wfgUnit m).val < 8 := by simp only [wfgUnit, wfgPll]; omega
  have hval : (wfgUnit m).val - 8 = m.val := by simp only [wfgUnit, wfgPll]; omega
  rw [seqHostF, if_neg hge, hval]

/-! ## Registration (R143, R174) -/

section
variable {s : State} {d : Fin 12}

/-- A walk asks for head slots and leaves the request that is held. -/
theorem State.askSlots_held (s : State) (d : Fin 12) (x : Nat) (stack : List Nat) (branch : Bool) :
    (s.askSlots d x stack branch).1.seq[d].held = s.seq[d].held := by
  rw [State.askSlots]
  dsimp only
  split
  · rfl
  · simp

theorem State.walk_held (fuel : Nat) (s : State) (d : Fin 12) (branch : Bool) (seen : List (Nat × List Nat)) (stack : List Nat) (x : Nat) :
    (s.walk d branch fuel seen stack x).1.seq[d].held = s.seq[d].held := by
  induction fuel generalizing s seen stack x with
  | zero => rfl
  | succ fuel ih =>
    have hask := s.askSlots_held d x stack branch
    rw [State.walk]
    dsimp only
    split
    · rfl
    · split
      · rfl
      · split
        · exact hask
        · split
          · split <;> exact hask
          · split
            · exact hask
            · rw [ih, hask]

theorem State.openReserve_held (s : State) (d : Fin 12) (dest : Nat) : (s.openReserve d dest).seq[d].held = s.seq[d].held := by
  have hwalk := State.walk_held walkFuel s d true [] (s.retStack d) dest
  simp only [State.openReserve, State.setSeq_seq, Fin.getElem_fin, Vector.getElem_set_self]
  exact hwalk

/-! ### What is shown of a held request leaves the depth of the stack -/

/-- A field's write that leaves a register off its Reset column leaves every other register, whatever the form of the file. -/
theorem State.get_put_of_ne_reset {f g : Fld} {v : Nat} (hv : BitVec.ofNat 32 (bitsPut (s.rn f.addr) f.lo f.w v) ≠ regReset f.addr)
    (hn : g.addr ≠ f.addr) : (s.put f v).get g = s.get g := by
  have hrd : (s.put f v).rd g.addr = s.rd g.addr := cellsGet_set_ne_of_ne_default hn hv s.csr
  rw [State.get, State.rn, hrd, State.get, State.rn]

theorem cellsGet_set_self_of_ne_default {α : Type} [DecidableEq α] {d : Nat → α} {v : α} {k : Nat} (hv : v ≠ d k) (l : List (Nat × α)) :
    cellsGet d (cellsSet d l k v) k = v := by
  induction l with
  | nil => simp [cellsSet, hv, cellsGet]
  | cons x l ih =>
    obtain ⟨j, u⟩ := x
    simp only [cellsSet, hv, if_false]
    split
    · simp [cellsGet]
    · split
      · simp [cellsGet]
      · rwa [cellsGet, if_neg (by assumption), if_neg (by assumption)]

theorem regReset_jumpStatus (p : Fin 8) : regReset (PRT_JUMP_STATUS p) = 0 := by
  decide +revert

/-- The register of a port's held request, once its pending bit is set. -/
theorem ne_regReset_of_pending {p : Fin 8} {x : Nat} (h : x.testBit 0 = true) : BitVec.ofNat 32 x ≠ regReset (PRT_JUMP_STATUS p) := by
  rw [regReset_jumpStatus]
  intro h0
  have hbit := congrArg (fun v : Word => v.getLsbD 0) h0
  rw [BitVec.getLsbD_ofNat, h] at hbit
  cases hbit

section
variable {p : Fin 8} {f g : Fld} {v : Nat}

theorem State.get_put_pending (hf : f.addr = PRT_JUMP_STATUS p) (hbit : (bitsPut (s.rn f.addr) f.lo f.w v).testBit 0 = true)
    (hn : g.addr ≠ PRT_JUMP_STATUS p) : (s.put f v).get g = s.get g :=
  State.get_put_of_ne_reset (hf ▸ ne_regReset_of_pending (hf ▸ hbit)) (hf ▸ hn)

theorem State.testBit_rn_put (hf : f.addr = PRT_JUMP_STATUS p) (hbit : (bitsPut (s.rn f.addr) f.lo f.w v).testBit 0 = true) :
    ((s.put f v).rn (PRT_JUMP_STATUS p)).testBit 0 = true := by
  have hrd : (s.put f v).rd f.addr = BitVec.ofNat 32 (bitsPut (s.rn f.addr) f.lo f.w v) :=
    cellsGet_set_self_of_ne_default (hf ▸ ne_regReset_of_pending (hf ▸ hbit)) s.csr
  rw [State.rn, ← hf, hrd, BitVec.toNat_ofNat, Nat.testBit_mod_two_pow, hbit]
  rfl

end

theorem testBit_bitsPut_of_above {x lo w v : Nat} (h : x.testBit 0 = true) (hlo : 0 < lo) : (bitsPut x lo w v).testBit 0 = true := by
  rw [bitsPut_testBit, if_neg (by omega), h]

theorem State.get_showHeld_port {s : State} {p : Fin 8} {r : JumpReq} {g : Fld} (hn : g.addr ≠ PRT_JUMP_STATUS p) :
    (s.showHeld (portUnit p) (some r)).get g = s.get g := by
  have h1 : (bitsPut (s.rn (PRT_JUMP_STATUS p)) 0 1 1).testBit 0 = true := by
    rw [bitsPut_testBit, if_pos (by decide)]
    rfl
  have h2 := State.testBit_rn_put (s := s) (p := p) (f := PRT_JUMP_STATUS_pending p) rfl h1
  have h2' := testBit_bitsPut_of_above (lo := 1) (w := 4) (v := r.e.cond) h2 (by decide)
  have h3 := State.testBit_rn_put (s := s.put (PRT_JUMP_STATUS_pending p) 1) (p := p) (f := PRT_JUMP_STATUS_cond p) rfl h2'
  have h3' := testBit_bitsPut_of_above (lo := 16) (w := 16) (v := r.producer) h3 (by decide)
  have hshow : s.showHeld (portUnit p) (some r) = ((s.put (PRT_JUMP_STATUS_pending p) 1).put (PRT_JUMP_STATUS_cond p) r.e.cond).put
    (PRT_JUMP_STATUS_producer p) r.producer := if_pos p.isLt
  calc (s.showHeld (portUnit p) (some r)).get g
    _ = ((s.put (PRT_JUMP_STATUS_pending p) 1).put (PRT_JUMP_STATUS_cond p) r.e.cond).get g := by
      rw [hshow]
      exact State.get_put_pending (p := p) (f := PRT_JUMP_STATUS_producer p) rfl h3' hn
    _ = (s.put (PRT_JUMP_STATUS_pending p) 1).get g := State.get_put_pending (p := p) (f := PRT_JUMP_STATUS_cond p) rfl h2' hn
    _ = s.get g := State.get_put_pending (p := p) (f := PRT_JUMP_STATUS_pending p) rfl h1 hn

theorem State.destOf_none_of_depth {t : State} {r : JumpReq} (hdepth : t.get (seqDepthF d) = s.get (seqDepthF d))
    (h : s.destOf d r = none) : t.destOf d r = none := by
  have hhead : s.retStack d = [] → t.retStack d = [] := by
    simp [State.retStack, hdepth]
  rw [State.destOf] at h ⊢
  by_cases hloop : r.e.isLoop = true
  · rw [if_pos hloop] at h ⊢
    by_cases hhalt : r.e.halt = true
    · rw [if_pos hhalt]
    · rw [if_neg hhalt] at h ⊢
      by_cases hret : r.e.ret = true
      · rw [if_pos hret, List.head?_eq_none_iff] at h ⊢
        exact hhead h
      · rw [if_neg hret] at h
        cases h
  · rw [if_neg hloop] at h
    cases h

theorem State.showHeld_seq (s : State) (d : Fin 12) (r : Option JumpReq) : (s.showHeld d r).seq = s.seq := by
  unfold State.showHeld
  split
  · cases r <;> rfl
  · rfl

/-- The request is held and shown; one held before is replaced (R146). -/
def State.requestHeld (s : State) (d : Fin 12) (r : JumpReq) : State :=
  let s1 := if s.seq[d].held.isSome then ((s.dropReserve d).count (seqReplaced d)).ev (unitSrc d 5 60) else s
  (s1.setSeq d { s1.seq[d] with held := some r }).showHeld d (some r)

theorem State.requestHeld_held (s : State) (d : Fin 12) (r : JumpReq) : (s.requestHeld d r).seq[d].held = some r := by
  simp only [State.requestHeld, State.showHeld_seq, State.setSeq_seq, Fin.getElem_fin, Vector.getElem_set_self]

theorem State.register_of_none {r : JumpReq} (h : (s.requestHeld d r).destOf d r = none) : s.register d r = s.requestHeld d r := by
  rw [State.requestHeld] at h
  simp only [State.register, h, State.requestHeld]

theorem State.register_of_some {r : JumpReq} {dest : Nat} (h : (s.requestHeld d r).destOf d r = some dest) :
    s.register d r = (s.requestHeld d r).openReserve d dest := by
  rw [State.requestHeld] at h
  simp only [State.register, h, State.requestHeld]

/-- A registered request is held. -/
theorem State.register_held (s : State) (d : Fin 12) (r : JumpReq) : (s.register d r).seq[d].held = some r := by
  cases h : (s.requestHeld d r).destOf d r with
  | none => rw [State.register_of_none h, State.requestHeld_held]
  | some dest => rw [State.register_of_some h, State.openReserve_held, State.requestHeld_held]

/-- A request that is the first one held and leads to no destination is only held and shown. -/
theorem State.register_plain {r : JumpReq} (hh : s.seq[d].held = none)
    (hdepth : ((s.setSeq d { s.seq[d] with held := some r }).showHeld d (some r)).get (seqDepthF d) = s.get (seqDepthF d))
    (hd : s.destOf d r = none) : s.register d r = (s.setSeq d { s.seq[d] with held := some r }).showHeld d (some r) := by
  have hheld : s.requestHeld d r = (s.setSeq d { s.seq[d] with held := some r }).showHeld d (some r) := by
    simp only [State.requestHeld, hh, Option.isSome_none, Bool.false_eq_true, if_false]
  rw [State.register_of_none (hheld ▸ State.destOf_none_of_depth hdepth hd), hheld]

theorem State.registerDue_one {r : JumpReq} {limit : Nat} (h : s.seq[d].inflight = [r]) (hdue : r.due ≤ limit) :
    s.registerDue d limit = (s.setSeq d { s.seq[d] with inflight := [] }).register d r := by
  simp only [State.registerDue, h, List.filter_cons, decide_eq_true hdue, if_true, Bool.not_true, Bool.false_eq_true, if_false,
    List.filter_nil, List.foldl_cons, List.foldl_nil]

end

/-! ## The deadline of a wait loop (R151) -/

theorem State.waitTimeout_due {s : State} {d : Fin 12} {t n : Nat} (ht : s.seq[d].deadline = some t) (hr : s.unitRuns d = true)
    (hp : (s.seq[d].paused && decide (s.seq[d].passVec = s.seq[d].e.length)) = false)
    (hn : n = t + if h : d.val < 8 then tuPerStep * s.port[(⟨d.val, h⟩ : Fin 8)].comp else 0) :
    s.waitTimeout d = (s.advanceTo n).setSeq d { s.seq[d] with timedOut := true, deadline := none } := by
  simp only [State.waitTimeout, ht, hr, hp, ← hn, Bool.not_true, Bool.false_eq_true, if_false]

/-- Settles O14: a host request goes as its entry asks, a due request leaves the flight and is held, a deadline that has come is over. -/
theorem jumpRequests : Obligations.JumpRequests := by
  refine ⟨⟨fun s p herr hw => ⟨?hostReq, ?hostCancel⟩, fun s m herr hw => ⟨?wfgReq, ?wfgCancel⟩⟩, fun s u p r hst hfl hdue hu => ?port,
    fun s u m r hfl hdue hu => ?wfg, fun s d t ht hr hp => ⟨?portWait, ?wfgWait⟩⟩
  case hostReq =>
    refine (congrArg finish (State.atClock_of_clockWaits_eq_false _ herr hw)).trans ?_
    rw [State.hostReq, seqHostF_portUnit]
    rfl
  case hostCancel =>
    refine (congrArg finish (State.atClock_of_clockWaits_eq_false _ herr hw)).trans ?_
    rw [seqHostF_portUnit]
    rfl
  case wfgReq =>
    refine (congrArg finish (State.atClock_of_clockWaits_eq_false _ herr hw)).trans ?_
    rw [State.hostReq, seqHostF_wfgUnit]
    rfl
  case wfgCancel =>
    refine (congrArg finish (State.atClock_of_clockWaits_eq_false _ herr hw)).trans ?_
    rw [seqHostF_wfgUnit]
    rfl
  case port =>
    refine ⟨?_, u.register_held _ r, fun hh hd => ?_⟩
    · refine congrArg finish ((if_neg hst).trans ?_)
      rw [State.registerDue_one hfl hdue, hu]
    · have hheld : u.seq[portUnit p].held = none := by simpa [hu] using hh
      refine (State.register_plain hheld ((State.get_showHeld_port ?_).trans (State.get_congr rfl _)) hd).trans (if_pos p.isLt)
      rw [show seqDepthF (portUnit p) = PRT_SEQ_ENTRY_depth p from if_pos p.isLt]
      simp only [PRT_SEQ_ENTRY_depth, PRT_SEQ_ENTRY, PRT_JUMP_STATUS]
      omega
  case wfg =>
    refine ⟨?_, u.register_held _ r, fun hh hd => ?_⟩
    · refine congrArg finish ?_
      rw [State.registerDue_one hfl hdue, hu]
    · have hheld : u.seq[wfgUnit m].held = none := by simpa [hu] using hh
      have hshow (t : State) : t.showHeld (wfgUnit m) (some r) = t := if_neg (by simp only [wfgUnit, wfgPll]; omega)
      rw [State.register_plain hheld (by rw [hshow]; exact State.get_congr rfl _) hd, hshow]
  case portWait =>
    rintro p rfl
    exact congrArg finish (State.waitTimeout_due ht hr hp (dif_pos p.isLt ▸ rfl))
  case wfgWait =>
    rintro m rfl
    exact congrArg finish (State.waitTimeout_due ht hr hp (by rw [dif_neg (by simp only [wfgUnit, wfgPll]; omega)]; rfl))

end Sys2Proof.Machine
end

section
/-! PROOFS. Ports: arming and stopping (R84, R156 to R158, R177 to R180), their vectors (R86, R143), timing bands and Ramble programs
(R118, R161), and the end of HOLD (R190, R191). -/

namespace Sys2Proof.Machine

section
variable {s u : State} {p : Fin 8} {v : Word}

@[simp] theorem State.advance_seq (s : State) (n : Nat) : (s.advance n).seq = s.seq := by
  obtain ⟨x, hx⟩ := s.advance_eq n
  rw [hx]

/-! ## Writes of PRT_SEQ_CTL -/

theorem exec_portRun (herr : s.csrError (PRT_SEQ_CTL p) true = false) (hw : s.clockWaits (PRT_SEQ_CTL p) = false)
    (hu : u = s.portCtlFields p (bitsOf (withBit v 0 true).toNat 2 2) (bitsOf (withBit v 0 true).toNat 4 2)) :
    exec (.portRun p v) s = .next (u.portRun p).syncSources := by
  refine (congrArg finish (State.atClock_of_clockWaits_eq_false _ herr hw)).trans ?_
  simp only [State.seqCtl, ← hu, bit_withBit v true (show 0 < 32 by decide), if_true]
  rfl

theorem bit_withBit_run (v : Word) : bit (withBit v 0 false).toNat 0 = false := by
  rw [bit_withBit v false (by decide), if_pos rfl]

/-- A write of run = 0 to an active port does not wait for the port's clocks. -/
theorem State.writeWaits_stop (h : s.clockWaits (PRT_SEQ_CTL p) = false ∨ s.portActive p = true) :
    s.writeWaits (PRT_SEQ_CTL p) (withBit v 0 false) = false := by
  rcases h with h | h
  · exact State.writeWaits_of_clockWaits_eq_false h
  · have hstop : s.stopsNow (PRT_SEQ_CTL p) (withBit v 0 false) = true :=
      List.any_eq_true.mpr ⟨p, List.mem_finRange p, by rw [bit_withBit_run, h, decide_eq_true rfl]; rfl⟩
    rw [State.writeWaits, hstop, Bool.not_true, Bool.and_false]

theorem exec_portStop (herr : s.csrError (PRT_SEQ_CTL p) true = false)
    (hw : s.clockWaits (PRT_SEQ_CTL p) = false ∨ s.portActive p = true)
    (hu : u = s.portCtlFields p (bitsOf (withBit v 0 false).toNat 2 2) (bitsOf (withBit v 0 false).toNat 4 2)) :
    exec (.portStop p v) s = .next (u.portStop p).syncSources := by
  refine (congrArg finish (State.atClock_of_writeWaits_eq_false _ herr (State.writeWaits_stop hw))).trans ?_
  simp only [State.seqCtl, ← hu, bit_withBit_run, Bool.false_eq_true, if_false]
  rfl

/-! ## Arming (R156, R157, R177) -/

section
variable (hidle : u.portActive p = false)
include hidle

theorem State.portRun_pinless (h : u.cs.pinCount p = 0) : u.portRun p =
    (((u.put (PRT_SEQ_STATUS_state p) 5).put (PRT_SEQ_STATUS_cause p) 11).put (PRT_SEQ_STATUS_cancelled p) 1).ev (portSrc p 7) := by
  simp only [State.portRun, hidle, Bool.false_eq_true, if_false, if_pos h]

variable (hpins : u.cs.pinCount p ≠ 0)
include hpins

theorem State.portRun_outOfBand (h : (u.portRate p).inBand (u.get (PRT_TIMING_CTL_band p)) = false) :
    u.portRun p = (((u.portArm p).tmgFail p 11 0xFF 0 0 0).ev (portSrc p 0)).portLeave p 5 2 0 true := by
  simp only [State.portRun, hidle, Bool.false_eq_true, if_false, if_neg hpins, h, Bool.not_false, if_true, State.portCancel]

variable (hband : (u.portRate p).inBand (u.get (PRT_TIMING_CTL_band p)) = true)
include hband

theorem State.portRun_tooNear
    (h : u.get (PRT_SEQ_CTL_start_mode p) = 1 ∧ u.tooNear (u.rn64 (PRT_TRAILHEAD_LO p)) (u.rn (PRT_TRAILHEAD_EP p)) = true) :
    u.portRun p = (u.portArm p).portLeave p 5 7 0 true := by
  simp only [State.portRun, hidle, Bool.false_eq_true, if_false, if_neg hpins, hband, Bool.not_true, if_pos h, State.portCancel]

variable (hfar : ¬(u.get (PRT_SEQ_CTL_start_mode p) = 1 ∧ u.tooNear (u.rn64 (PRT_TRAILHEAD_LO p)) (u.rn (PRT_TRAILHEAD_EP p)) = true))
include hfar

theorem State.portRun_refused {c : Nat} (h : u.admission p = some c) :
    u.portRun p = ((u.portArm p).put (PRT_STRM_STATUS_adm p) c).portLeave p 5 8 0 true := by
  simp only [State.portRun, hidle, Bool.false_eq_true, if_false, if_neg hpins, hband, Bool.not_true, if_neg hfar, h, State.portCancel]

theorem State.portRun_admitted {x : State} (h : u.admission p = none)
    (hx : x = ((u.portArm p).put (PRT_STRM_STATUS_admitted p) 1).planFrom (portPll p) (u.get (PRT_SEQ_START_entry p))) :
    u.portRun p = if u.get (PRT_SEQ_CTL_start_mode p) = 2 ∧ u.evtActive p (u.get (PRT_SEQ_CTL_start_evt p)) = true
      then x.setSeq (portPll p) { x.seq[portPll p] with condMet := true } else x := by
  simp only [State.portRun, hidle, Bool.false_eq_true, if_false, if_neg hpins, hband, Bool.not_true, if_neg hfar, h, ← hx]

end

end

/-- Settles O15: the order of the checks is that of R157 and R177; the first one that refuses decides. -/
theorem portRunArms : Obligations.PortRunArms := by
  intro s u x p v herr hw hu hidle
  have hexec {t : State} (h : u.portRun p = t) : exec (.portRun p v) s = .next t.syncSources := h ▸ exec_portRun herr hw hu
  exact ⟨fun h => hexec (State.portRun_pinless hidle h), fun hpins =>
    ⟨fun h => hexec (State.portRun_outOfBand hidle hpins h), fun hband =>
      ⟨fun h => hexec (State.portRun_tooNear hidle hpins hband h), fun hfar =>
        ⟨fun c h => hexec (State.portRun_refused hidle hpins hband hfar h),
          fun h hx => hexec (State.portRun_admitted hidle hpins hband hfar h hx)⟩⟩⟩⟩

/-! ## The wait for the first vector, and stops (R156, R158, R178, R180, R538) -/

section
variable {s : State} {p : Fin 8}

theorem State.lockedSettled_congr {t : State} (h : t.csr = s.csr) (d : Fin 12) : t.lockedSettled d = s.lockedSettled d := by
  rw [State.lockedSettled, State.get_congr h, State.on_congr h, State.lockedSettled]

theorem State.portTrailhead_met (hst : s.get (PRT_SEQ_STATUS_state p) = 1) (hm : s.get (PRT_SEQ_CTL_start_mode p) = 1)
    (ht : s.seq[portPll p].trailMet = false) (hrun : s.tmb.running = true)
    (hep : s.rn (PRT_TRAILHEAD_EP p) % 2 ^ 16 = s.tmb.epoch % 2 ^ 16) (ha : s.seq[portPll p].admitted = true)
    (hl : s.lockedSettled (portPll p) = true) :
    s.portTrailhead p = (s.advance (instantOf (s.rn64 (PRT_TRAILHEAD_LO p)) - s.tmb.count)).setSeq (portPll p)
      { s.seq[portPll p] with trailMet := true } := by
  have hreach : s.advanceToStamp (s.rn64 (PRT_TRAILHEAD_LO p)) (s.rn (PRT_TRAILHEAD_EP p)) =
      (s.advance (instantOf (s.rn64 (PRT_TRAILHEAD_LO p)) - s.tmb.count), true) := if_pos (by rw [hrun, decide_eq_true hep]; rfl)
  have hlock : (s.advance (instantOf (s.rn64 (PRT_TRAILHEAD_LO p)) - s.tmb.count)).lockedSettled (portPll p) = true :=
    (State.lockedSettled_congr (State.advance_csr s _) _).trans hl
  simp only [State.portTrailhead, hst, hm, ht, hreach, State.advance_seq, ha, hlock, ne_eq, not_true_eq_false, Bool.false_eq_true,
    or_self, if_false, Bool.not_true]

theorem State.startAdmitted_primed (hst : s.get (PRT_SEQ_STATUS_state p) = 1) (ha : s.seq[portPll p].admitted = false)
    (hz : s.seq[portPll p].zeroing = false) (hp : s.primed (portPll p) (s.primeBytes p) = true)
    (hf : s.slotsFilled (portPll p) (s.get (PRT_SEQ_START_entry p)) (fun _ => true) = true) :
    s.startAdmitted p =
      ((s.setSeq (portPll p) { s.seq[portPll p] with admitted := true }).put (PRT_STRM_STATUS_adm p) 1).ev (portSrc p 9) := by
  simp only [State.startAdmitted, hst, ha, hz, hp, hf, decide_true, Bool.not_false, Bool.and_self, if_true]

theorem State.portStop_armed (h : s.get (PRT_SEQ_STATUS_state p) = 1) : s.portStop p = s.portLeave p 5 9 0 true := by
  simp only [State.portStop, h, State.portCancel]

theorem State.portStop_running (h : s.get (PRT_SEQ_STATUS_state p) = 2) (hp : s.seq[portPll p].paused = false) :
    s.portStop p = s.setSeq (portPll p) { s.seq[portPll p] with stopReq := true } := by
  simp only [State.portStop, h, hp, Bool.false_eq_true, if_false]

theorem State.portStop_held (h : s.get (PRT_SEQ_STATUS_state p) = 3) : s.portStop p = s.portLeave p 5 5 0 false := by
  simp only [State.portStop, h]

end

/-- Settles O16: an ARMED port's events each have their condition, and the effect of run = 0 goes by the port's state. -/
theorem portWaitsAndStops : Obligations.PortWaitsAndStops := by
  refine ⟨fun s p hst => ⟨fun hm => ?event, fun hm ht hrun hep ha hl => ?trail, fun ha hz hp hf => ?admitted, fun ha hm ht => ?timeout⟩,
    fun s u p v herr hw hu => ⟨fun h => ?armed, fun h hp => ?running, fun h => ?held⟩⟩
  case event => exact congrArg finish (if_pos ⟨hst, hm⟩)
  case trail => exact congrArg finish (State.portTrailhead_met hst hm ht hrun hep ha hl)
  case admitted => exact congrArg finish (State.startAdmitted_primed hst ha hz hp hf)
  case timeout => exact congrArg finish (if_pos ⟨hst, ha, hm, ht⟩)
  case armed => rw [exec_portStop herr hw hu, State.portStop_armed h]
  case running => rw [exec_portStop herr hw hu, State.portStop_running h hp]
  case held => rw [exec_portStop herr hw hu, State.portStop_held h]

/-! ## Vectors (R86, R143, R156, R157) -/

section
variable {s u : State} {p : Fin 8} {x : Seen} {e b : Bool}

/-- The condition of the port's start mode has come (R156). -/
def State.startCond (s : State) (p : Fin 8) : Bool :=
  match s.get (PRT_SEQ_CTL_start_mode p) with
  | 1 => s.seq[portUnit p].trailMet
  | 2 => s.seq[portUnit p].condMet
  | _ => true

theorem State.startCond_of (h1 : s.get (PRT_SEQ_CTL_start_mode p) = 1 → s.seq[portUnit p].trailMet = true)
    (h2 : s.get (PRT_SEQ_CTL_start_mode p) = 2 → s.seq[portUnit p].condMet = true) : s.startCond p = true := by
  unfold State.startCond
  split
  · exact h1 (by assumption)
  · exact h2 (by assumption)
  · rfl

theorem State.firstVector_goes {phase t c : Nat} (hst : s.get (PRT_SEQ_STATUS_state p) = 1) (ha : s.seq[portUnit p].admitted = true)
    (hl : s.lockedSettled (portUnit p) = true)
    (h1 : s.get (PRT_SEQ_CTL_start_mode p) = 1 → s.seq[portUnit p].trailMet = true)
    (h2 : s.get (PRT_SEQ_CTL_start_mode p) = 2 → s.seq[portUnit p].condMet = true)
    (ht : t = (if s.get (PRT_SEQ_CTL_start_mode p) = 1 then ((s.tmb.clk : Int) + instantOf (s.rn64 (PRT_TRAILHEAD_LO p)) - s.tmb.count).toNat
      else s.tmb.clk) + phase % max 1 (s.portRate p).periodTu)
    (hc : c = if s.get (PRT_SEQ_CTL_start_mode p) = 1 ∧ s.on (PRT_START_COMP_en p) = true then
      compOf (s.portRate p) (phase % max 1 (s.portRate p).periodTu) else 0)
    (hu : u = ((s.setSeq (portUnit p) { s.seq[portUnit p] with at_ := t, frac := 0, fracDen := 1 }).setPort p { s.port[p] with
      comp := c }).advanceTo (t + tuPerStep * c)) :
    s.firstVector p phase x e b = if (u.beginEntry p (s.get (PRT_SEQ_START_entry p)) id e).2 then
      (u.beginEntry p (s.get (PRT_SEQ_START_entry p)) id e).1.passVector p x b
      else (u.beginEntry p (s.get (PRT_SEQ_START_entry p)) id e).1 := by
  rw [State.firstVector]
  refine (if_neg ?_).trans ?_
  · rintro (h | h | h | h)
    · exact h hst
    · rw [ha] at h
      cases h
    · rw [hl] at h
      cases h
    · have hno : (!s.startCond p) = true := h
      rw [State.startCond_of h1 h2] at hno
      cases hno
  · simp only [← ht, ← hc, ← hu]

theorem State.vectorPeriod_goes {j : State} {go : Bool} (hst : s.get (PRT_SEQ_STATUS_state p) = 2)
    (hp : s.seq[portUnit p].paused = false)
    (hu : u = (s.advanceTo (s.seq[portUnit p].at_ + tuPerStep * s.port[p].comp)).flushPort p)
    (hj : (j, go) = u.jumpPoint p s.seq[portUnit p].at_ e) :
    s.vectorPeriod p x e b = if s.seq[portUnit p].passVec = s.seq[portUnit p].e.length ∧ s.port[p].vecs = [] then
        (if go then j.passVector p x b else j)
      else (u.registerDue (portUnit p) (u.seqVec (portUnit p) - 1)).passVector p x b := by
  simp only [State.vectorPeriod, hst, hp, ← hu, ← hj, ne_eq, not_true_eq_false, Bool.false_eq_true, false_and, or_self, if_false]

theorem State.passVector_onChip {w : Vec} {l : List Vec} {t : Nat} (hv : s.port[p].vecs = w :: l) (hd : (s.dataCheck p).1 = .ready)
    (hs : s.seq[portUnit p].stopReq = false) (ht : t = s.timesetOf p s.seq[portUnit p].e w) :
    s.passVector p x false = if s.timesetOk p (s.get (PRT_TIMING_CTL_band p)) t then s.issue p x w t else s.formatAbort p 9 0xFF t 0 := by
  simp only [State.passVector, hd, hs, hv, ← ht, ne_eq, not_true_eq_false, Bool.false_eq_true, false_and, if_false, reduceCtorEq,
    Bool.not_true]

end

/-- Settles O17: the first vector's conditions hold, so its entry begins; a pass that is not over goes on, and a jump point follows
one that is; a vector on chip is judged by its timeset. -/
theorem vectorsPass : Obligations.VectorsPass := by
  refine ⟨fun s u p phase t c x e b hst ha hl h1 h2 ht hc hu => ?first, fun s u j p x e b go hst hp hu hj => ?period,
    fun s p x v l t hv hd hs ht => ⟨fun hok => ?valid, fun hok => ?invalid⟩⟩
  case first => exact congrArg finishSync (State.firstVector_goes hst ha hl h1 h2 ht hc hu)
  case period => exact congrArg finishSync (State.vectorPeriod_goes hst hp hu hj)
  case valid => rw [State.passVector_onChip hv hd hs ht, if_pos hok]
  case invalid => rw [State.passVector_onChip hv hd hs ht, if_neg (by rw [hok]; exact Bool.false_ne_true)]

/-! ## Timing bands and Ramble programs (R118, R161) -/

section
variable {s : State} {p : Fin 8} {r : RamProg}

/-- A move that is not logged. -/
theorem State.ramLog_off {x : RamProg} (kind : Nat) (h : x.logEn = false) (a : State) (ha : a.port[p].ram = some x) : a.ramLog p kind = a := by
  rw [State.ramLog, ha]
  exact if_pos (by rw [h]; rfl)

theorem State.ramMove_within {u : State} {target t : Int} {kind : Nat} (hret : r.ret = false) (hlog : r.logEn = false)
    (ht : t = if r.startOfs ≤ r.limit then min target r.limit else max target r.limit) (hne : t ≠ s.rambleOfs (portPll p))
    (hok : s.offsetOk p t = true) (hlim : t ≠ r.limit) (hu : u = (s.setOffset p t).ramAtLimit p) :
    s.ramMove p r target kind = u.setPort p { u.port[p] with ram := some r } := by
  have hkeep : (u.setPort p { u.port[p] with ram := some r }).port[p].ram = some r := by simp
  simp only [State.ramMove, decide_eq_true_eq, ← ht, if_neg hne, hok, Bool.not_true, Bool.false_eq_true, if_false, ← hu, hret, if_neg hlim]
  exact State.ramLog_off kind hlog _ hkeep

section
variable (hr : s.port[p].ram = some r) (hh : r.held = false) (ha : s.ramAdvances p = true)
include hr hh ha

theorem State.ramStep_moves (hs : r.sweep = false) (hd : r.dwell ≤ r.count) :
    s.ramStep p = s.ramMove p { r with count := r.count - r.dwell } (s.rambleOfs (portPll p) + r.step) 1 := by
  simp only [State.ramStep, hr, hh, ha, hs, decide_eq_false (Nat.not_lt.mpr hd), Bool.not_true, Bool.or_self, Bool.false_eq_true, if_false]

theorem State.ramSweep_moves (hs : r.sweep = true) :
    s.ramSweep p = s.ramMove p { r with updates := r.updates + 1 }
      (if r.startOfs ≤ r.limit then r.startOfs + ((r.updates + 1) * r.slew * 16 / 125 : Nat)
        else r.startOfs - ((r.updates + 1) * r.slew * 16 / 125 : Nat)) 2 := by
  simp only [State.ramSweep, hr, hh, ha, hs, Bool.not_true, Bool.or_self, Bool.false_eq_true, if_false]

end

end

/-- Settles O18: the band of an idle port is taken, a move within the limit takes effect, and a step or a sweep moves as its program
says. -/
theorem bandAndRamble : Obligations.BandAndRamble := by
  refine ⟨fun s p b herr hw hidle hb => ?band, fun s u p r target t kind hret hlog ht hne hok hlim hu => ?move,
    fun s p r hr hh ha => ⟨fun hs hd => ?step, fun hs => ?sweep⟩⟩
  case band =>
    refine congrArg finish ((State.atClock_of_clockWaits_eq_false _ herr hw).trans (if_neg ?_))
    rintro (h | h)
    · rw [hidle] at h
      cases h
    · omega
  case move => exact State.ramMove_within hret hlog ht hne hok hlim hu
  case step => exact congrArg finish (State.ramStep_moves hr hh ha hs hd)
  case sweep => exact congrArg finish (State.ramSweep_moves hr hh ha hs)

/-! ## The end of HOLD (R190, R191) -/

section
variable {s u : State} {p : Fin 8} {phase start : Nat}

theorem State.holdResume_primed (hst : s.get (PRT_SEQ_STATUS_state p) = 3)
    (hpause : s.seq[portPll p].paused = false ∨ s.seq[portPll p].resume = true)
    (hp : s.primed (portPll p) (s.primeBytes p) = true)
    (hf : s.slotsFilled (portPll p) (s.get (PRT_SEQ_ENTRY_entry p)) (fun _ => true) = true)
    (hstart : start = max s.tmb.clk s.seq[portPll p].at_ + (s.portRate p).checkLead * (s.portRate p).periodTu +
      phase % max 1 (s.portRate p).periodTu)
    (hu : u = (s.count (PRT_STRM_HOLD_TOTAL p) ((start - s.port[p].holdAt) / (1000 * tuPerNs))).wn (PRT_STRM_HOLD_LAST p)
      (min ((start - s.port[p].holdAt) / tuPerNs) 0xFFFFFFFF)) :
    s.holdResume p phase = (((u.setSeq (portPll p) { s.seq[portPll p] with
      at_ := start, breakVec := s.seqVec (portPll p) }).put (PRT_SEQ_STATUS_state p) 2).put (PRT_STRM_STATUS_hold p) 0).ev
        (portSrc p 11) := by
  have hgo : (!(s.seq[portPll p].paused && !s.seq[portPll p].resume)) = true := by
    rcases hpause with h | h
    · rw [h]
      rfl
    · rw [h, Bool.not_true, Bool.and_false]
      rfl
  have hseq : u.seq = s.seq := by rw [hu]; rfl
  simp only [State.holdResume, hst, hgo, hp, hf, decide_true, Bool.and_self, if_true, ← hstart, State.countHold, ← hu, hseq]

end

/-- Settles O20: what resumes a hold and what ends it have conditions that their hypotheses give. -/
theorem holdEnds : Obligations.HoldEnds := by
  intro s u p phase start hst
  exact ⟨fun hpause hp hf hstart hu => congrArg finish (State.holdResume_primed hst hpause hp hf hstart hu),
    fun ht => congrArg finishSync (if_pos ⟨hst, ht⟩)⟩

end Sys2Proof.Machine
end

section
/-! PROOFS. The software strobe (Table 2.21): a written bit pulses its source, and the model keeps a pulse in progress in the state. -/

namespace Sys2Proof.Machine

/-- Where no destination of the routing matrix is enabled, no line rises. -/
theorem State.riseWhere_idle {s : State} (p : MLine → Bool) (h : ∀ dst ∈ List.range 96, (s.cs.dests.getD dst {}).enable = false) :
    s.riseWhere p = s := by
  refine List.foldlRecOn (motive := fun a : State => a = s) _ _ rfl fun a ha dst hdst => ?_
  have hoff : ¬ ((s.cs.dests.getD dst {}).enable && a.lineOn (s.cs.dests.getD dst {}).line && p (s.mline (s.cs.dests.getD dst {}).line)) = true := by
    simp only [h dst hdst, Bool.false_and, Bool.false_eq_true, not_false_eq_true]
  exact (if_neg hoff).trans ha

theorem State.reset_dests : ∀ dst ∈ List.range 96, (State.reset.cs.dests.getD dst {}).enable = false := by decide

/-- A pulse on a source without one stands in the state from then on. -/
theorem State.pulse_idle {s : State} {code : Nat} (hp : s.pulses = []) (h : ∀ dst ∈ List.range 96, (s.cs.dests.getD dst {}).enable = false) :
    s.pulse code = { s with pulses := [(code, s.tmb.clk + 2 * tuPerNs)] } := by
  have hoff : s.pulseOn code = false := by rw [State.pulseOn, hp, List.any_nil]
  simp only [State.pulse, hp, hoff, List.filter_nil, Bool.false_eq_true, if_false]
  exact State.riseWhere_idle (s := { s with pulses := _ }) _ h

theorem State.swStrobe_reset : (State.reset.swStrobe 1).pulses = [(0xA0, State.reset.tmb.clk + 2 * tuPerNs)] := by
  have hbits : List.range 8 = 0 :: [1, 2, 3, 4, 5, 6, 7] := by decide
  have hoff : ∀ k ∈ [1, 2, 3, 4, 5, 6, 7], bit 1 k = false := by decide
  have hone : State.reset.swStrobe 1 = State.reset.pulse (0xA0 + 0) := by
    rw [State.swStrobe, hbits, List.foldl_cons, if_pos (by decide)]
    exact List.foldlRecOn (motive := fun a : State => a = State.reset.pulse (0xA0 + 0)) _ _ rfl fun a ha k hk => by rw [hoff k hk, ha]; rfl
  rw [hone, State.pulse_idle rfl State.reset_dests]

/-- The strobe of STC_SWSTROBE bit 0 in the reset state, as the statement has it: no line rises, so nothing changes. -/
theorem State.riseWhere_strobe_reset : (List.range 8).foldl
    (fun (a : State) k => if (1 : BitVec 8).getLsbD k then a.riseWhere fun l => decide (l.source = 0xA0 + k) else a) State.reset = State.reset := by
  refine List.foldlRecOn (motive := fun a : State => a = State.reset) _ _ rfl fun a ha k _ => ?_
  rw [ha]
  split
  · exact State.riseWhere_idle _ State.reset_dests
  · rfl

/-- Refutes O7: its last clause gives a strobe as the rise of its lines alone, but the state keeps the pulse in progress; after reset,
the strobe of bit 0 leaves the pulse on source 0xA0 while no line rises. -/
theorem not_registerWrites : ¬ Obligations.RegisterWrites := by
  rintro ⟨-, -, -, hstrobe⟩
  have hexec := hstrobe State.reset 1 (by decide)
  rw [State.riseWhere_strobe_reset] at hexec
  have hmodel : exec (.stcSwstrobe 1) State.reset = finish (State.reset.swStrobe 1) :=
    congrArg finish (State.atReg_of_csrError_eq_false _ (by decide))
  have hpulses := congrArg State.pulses (Host.Outcome.next.inj (hmodel.symm.trans hexec))
  rw [State.swStrobe_reset] at hpulses
  cases hpulses

end Sys2Proof.Machine
end

section
/-! PROOFS. The states of the domain PLLs (R209, R212, R213, R218 to R220), and of the TBPLL and the time base (R223 to R231, R535). -/

namespace Sys2Proof.Machine

/-! ## Domain PLLs -/

section
variable {s : State} {d : Fin 12}

theorem State.dplLock_first (hst : s.get (DPL_STATUS_state d) = 2) (hr : s.dpl[d].relock = false) :
    s.dplLock d = (s.put (DPL_STATUS_state d) 3).put (DPL_STATUS_locked d) 1 := by
  simp only [State.dplLock, if_pos hst, hr, Bool.false_eq_true, if_false]

theorem State.dplSettled_first {ph : Nat} (hst : s.get (DPL_STATUS_state d) = 3) (hr : s.dpl[d].relock = false)
    (hp : s.seq[d].paused = false) : s.dplSettled d ph =
      ((s.put (DPL_STATUS_state d) 4).put (DPL_STATUS_settling d) 0).setDpl d { s.dpl[d] with relock := false, cur := none } := by
  simp only [State.dplSettled, if_pos hst, hr, State.evIf, State.setDpl_seq, State.put_seq, State.put_dpl, hp, Bool.false_eq_true,
    if_false, Bool.not_false, if_true]

theorem State.dplLoss_handover (hst : s.get (DPL_STATUS_state d) = 2) : s.dplLoss d = (s.dplLost d).count (DPL_RELOCK_CNT d) := by
  simp only [State.dplLoss, hst]

theorem State.acquire_eq {u : State} (hu : u = ((s.put (DPL_STATUS_state d) 1).put (DPL_STATUS_locked d) 0).put (DPL_STATUS_settling d) 0) :
    s.acquire d = u.setDpl d { s.dpl[d] with
      cur := none, acqAt := s.tmb.clk, lfsrAt := s.tmb.clk
      lfsr := if u.get (DPL_SEED_seed d) = 0 then 1 else u.get (DPL_SEED_seed d) } := by
  have hdpl : u.dpl = s.dpl := by rw [hu]; rfl
  have htmb : u.tmb = s.tmb := by rw [hu]; rfl
  simp only [State.acquire, ← hu, State.loadLfsr, State.setDpl, Vector.set_set, Fin.getElem_fin, Vector.getElem_set_self, hdpl, htmb]

theorem State.dplFail_idle (hst : s.get (DPL_STATUS_state d) = 2 ∨ (s.get (DPL_STATUS_state d) = 1 ∧ s.tmb.running = true))
    (hr : s.unitRuns d = false) : s.dplFail d = s.dplEnterFail d := by
  simp only [State.dplFail, if_pos hst]
  by_cases h : d.val < 8
  · rw [State.unitRuns, dif_pos h] at hr
    rw [dif_pos h, hr, if_neg Bool.false_ne_true]
  · rw [State.unitRuns, dif_neg h] at hr
    rw [dif_neg h]
    exact if_neg (of_decide_eq_false hr)

section
variable {c target step : Nat} (hst : s.get (DPL_STATUS_state d) = 5) (hc : s.dpl[d].cur = some c)
  (ht : target = 2 ^ 20 * (s.targetRate d).num / (s.targetRate d).den)
  (hs : step = 2 ^ 20 * (s.word d).rate.num * s.dplSlew d * 128 / ((s.word d).rate.den * 1024000000 * 1000))
include hst hc ht hs

theorem State.dplRampUpdate_up (h : c < target) :
    s.dplRampUpdate d = s.setDpl d { s.dpl[d] with cur := if target ≤ c + step then none else some (c + step) } := by
  simp only [State.dplRampUpdate, hc, if_pos hst, ← ht, ← hs, if_pos h]

theorem State.dplRampUpdate_down (h : target ≤ c) :
    s.dplRampUpdate d = s.setDpl d { s.dpl[d] with cur := if c ≤ target + step then none else some (c - step) } := by
  simp only [State.dplRampUpdate, hc, if_pos hst, ← ht, ← hs, if_neg (Nat.not_lt.mpr h)]

end

end

/-- Settles O23: each event is taken in the state that its hypothesis names. -/
theorem dplStates : Obligations.DplStates := by
  intro s d
  refine ⟨fun hst hrun => ?handover, fun hst hr => ?lock, fun ph u hst hr hp hu => ?settled, fun hst => ?loss, fun u hst hu => ?hold,
    fun hst hr => ?fail, fun c target step hst hc ht hs => ?ramp, fun hst hc => ?rampEnd, rfl, rfl⟩
  case handover => exact congrArg finish (if_pos ⟨hst, hrun⟩)
  case lock => exact congrArg finish (State.dplLock_first hst hr)
  case settled =>
    have hset : s.dplSettled d ph = u := (State.dplSettled_first hst hr hp).trans hu.symm
    refine ⟨fun h8 => ?_, ?_⟩
    · have hgo : s.dplUngate d ph = u := (dif_neg (by omega)).trans hset
      exact congrArg (fun t : State => finish t.clockGo) hgo
    · rintro p rfl
      have hgo : s.dplUngate (portUnit p) ph = ((u.stickyGo p).flushPort p).x9Go p := by
        rw [State.dplUngate, dif_pos ⟨p.isLt, hst⟩, hset]
        rfl
      exact congrArg (fun t : State => finish t.clockGo) hgo
  case loss => exact congrArg finish (State.dplLoss_handover hst)
  case hold => exact congrArg finish ((if_pos hst).trans (State.acquire_eq hu))
  case fail => exact congrArg (fun t : State => finishSync t.clockGo) (State.dplFail_idle hst hr)
  case ramp =>
    exact ⟨fun h => congrArg finish (State.dplRampUpdate_up hst hc ht hs h), fun h => congrArg finish (State.dplRampUpdate_down hst hc ht hs h)⟩
  case rampEnd => exact congrArg finish (if_pos ⟨hst, hc⟩)

/-! ## The reference and the TBPLL (R223 to R229) -/

section
variable {s : State}

theorem State.refAbsent_acquire (hv : s.on TMB_STATUS_ref_valid = true) (hp : s.on TMB_STATUS_ref_present = true)
    (hst : s.get TMB_STATUS_state = 2) :
    s.refAbsent = (((s.put TMB_STATUS_ref_present 0).count TMB_REF_LOSS_CNT).ev 480).put TMB_STATUS_state 1 := by
  simp only [State.refAbsent, hv, hp, hst, Bool.not_true, Bool.false_eq_true, or_self, if_false]

section
variable (hv : s.on TMB_STATUS_ref_valid = true) (hp : s.on TMB_STATUS_ref_present = false)
include hv hp

theorem State.refPresent_plain (hst : s.get TMB_STATUS_state ≠ 1) : s.refPresent = (s.put TMB_STATUS_ref_present 1).ev 481 := by
  simp only [State.refPresent, hv, hp, if_neg hst, Bool.not_true, Bool.false_eq_true, or_self, if_false]

theorem State.refPresent_waiting {u : State} (hst : s.get TMB_STATUS_state = 1)
    (hu : u = ((s.put TMB_STATUS_ref_present 1).ev 481).put TMB_STATUS_state 2) :
    s.refPresent = { u with tmb := { s.tmb with
      lfsr := if s.get TMB_TBPLL_SEED_seed = 0 then 1 else s.get TMB_TBPLL_SEED_seed, lfsrAt := s.tmb.clk } } := by
  simp only [State.refPresent, hv, hp, if_pos hst, Bool.not_true, Bool.false_eq_true, or_self, if_false, ← hu]
  rfl

end

theorem State.tbpllLocked_first (hst : s.get TMB_STATUS_state = 3) (hr : s.tmb.running = false) {u : State}
    (hu : u = ((s.put TMB_STATUS_state 4).put TMB_STATUS_locked 1).ev 483) :
    s.tbpllLocked = { u with tmb := { u.tmb with running := true, count := 0, epoch := 0, clk := 0 } } := by
  simp only [State.tbpllLocked, if_pos hst, hr, Bool.false_eq_true, if_false, ← hu]

theorem State.tbpllUnlocked_locked {u : State} (hl : s.on TMB_STATUS_locked = true) (hst : s.get TMB_STATUS_state = 4)
    (hu : u = (((s.put TMB_STATUS_locked 0).ev 482).put TMB_STATUS_state 5).ev 484) :
    s.tbpllUnlocked = { u with tmb := { s.tmb with holdAt := s.tmb.clk, slewing := false } } := by
  simp only [State.tbpllUnlocked, hl, if_true, if_pos hst, State.enterHoldover, ← hu]
  rw [hu]
  rfl

theorem State.tbpllReturn_small {phi0 phi slew : Int} {a u : State} (hst : s.get TMB_STATUS_state = 5)
    (hp : s.on TMB_STATUS_ref_present = true) (ha : a = s.advanceTo (s.tmb.holdAt + 100000 * tuPerNs)) (hphi : phi = a.reducePhi phi0)
    (hs : phi.natAbs ≤ 131072)
    (hu : u = ((((a.wn TMB_PHASE_ERR (ofSigned 32 phi)).wn TMB_HOLD_TIME a.holdUs).put TMB_STATUS_state 6).slewTowards
      (clampInt (-10240) 10240 slew))) :
    s.tbpllReturn phi0 slew = { u with tmb := { u.tmb with slewing := true } } := by
  simp only [State.tbpllReturn, if_pos (And.intro hst hp), ← ha, ← hphi, decide_eq_true hs, Bool.not_true, Bool.false_and,
    Bool.false_eq_true, if_false, if_true, State.evIf, ← hu]

theorem State.tbpllAligned_small {u : State} (hst : s.get TMB_STATUS_state = 6) (hsl : s.tmb.slewing = true)
    (hs : (toSigned 32 (s.rn TMB_PHASE_ERR)).natAbs ≤ 131072) (hu : u = (s.put TMB_STATUS_state 3).slewTowards 0) :
    s.tbpllAligned = { u with tmb := { u.tmb with slewing := false } } := by
  simp only [State.tbpllAligned, if_pos (And.intro hst hsl), decide_eq_false (Nat.not_lt.mpr hs), State.evIf, Bool.false_eq_true,
    if_false, ← hu]

end

/-! ## The count and the Trailhead (R230, R231, R535) -/

section
variable {s : State}

theorem State.advance_of_running (h : s.tmb.running = true) (n : Nat) :
    s.advance n = { s with tmb := { s.tmb with count := s.tmb.count + n, clk := s.tmb.clk + n } } := if_pos h

/-- At the wrap the count, the epoch and the scheduler's tick move, and source 491 is raised. -/
theorem State.timestampWrap_eq (hr : s.tmb.running = true) {a : State} (ha : a = (s.advance (wrapTu - s.tmb.count)).keepClock) :
    s.timestampWrap = ({ a with tmb := { a.tmb with count := a.tmb.count - wrapTu, epoch := (a.tmb.epoch + 1) % 2 ^ 16 }
                                sch := { a.sch with tickBase := a.tmb.clk } } : State).ev 491 := by
  simp only [State.timestampWrap, hr, if_true, ← ha]

theorem State.keepClock_advance {a : State} (hr : s.tmb.running = true) {n : Nat} (ha : a = (s.advance n).keepClock) :
    a.tmb.count = s.tmb.count + n ∧ a.tmb.epoch = s.tmb.epoch ∧ a.raised = s.raised ∧ a.csr = s.csr ∧ a.mem = s.mem := by
  rw [ha, State.advance_of_running hr]
  exact ⟨rfl, rfl, rfl, rfl, rfl⟩

/-- The state in which a zeroing of mode 2 leaves the count, before the starts that wait for a Trailhead are cancelled. -/
def State.zeroedNext (s : State) : State :=
  ({ s.keepClock with
    tmb := { s.keepClock.tmb with count := 0, epoch := (s.tmb.epoch + 1) % 2 ^ 16, static := 0, zeroMode := 0 }
    sch := { s.sch with tickBase := s.tmb.clk } } : State).put TMB_STATUS_step_flag 0

theorem State.timeBaseZero_next (h : s.tmb.zeroMode = 2) : s.timeBaseZero false = s.zeroedNext.cancelTrailheads := by
  have hmode : s.keepClock.tmb.zeroMode = 2 := h
  simp only [State.timeBaseZero, hmode, if_neg (show ¬ s.tmb.zeroMode = 0 by omega), decide_eq_false (show ¬ (2 = 1) by decide),
    Bool.false_eq_true, if_false]
  rfl

theorem State.trailheadReached_due (hon : s.on TMB_TRAILHEAD_CTL_arm = true) (hr : s.tmb.running = true)
    (hep : s.tmb.armEp % 2 ^ 16 = s.tmb.epoch % 2 ^ 16) :
    s.trailheadReached = ((s.advance (instantOf s.tmb.armTs - s.tmb.count)).put TMB_TRAILHEAD_CTL_arm 0).pulse 0x91 := by
  have hreach : s.advanceToStamp s.tmb.armTs s.tmb.armEp = (s.advance (instantOf s.tmb.armTs - s.tmb.count), true) :=
    if_pos (by rw [hr, decide_eq_true hep]; rfl)
  simp only [State.trailheadReached, hon, hreach, if_true]

end

/-- Settles O24: each event is taken in the state that its hypothesis names; the count moves to the wrap or starts at 0 with the next
epoch. -/
theorem timeBaseStates : Obligations.TimeBaseStates := by
  refine ⟨fun s => ⟨fun hst => ?mdll, fun hv hp hst => ?absent, fun hv hp hst _ => ?present, fun u hv hp hst hu => ?waiting,
    fun hst hr => ?locked, fun u hl _ hst hu => ?unlocked, fun phi0 phi slew a u hst hp ha hphi hs hu => ?returns,
    fun u hst hsl hs hu => ?aligned, fun hst => ?long⟩, fun s => ⟨fun hr hc => ?wrap, fun hz => ?zero, fun herr => ⟨fun hpast => ?past, fun hpast => ?armed⟩,
    fun hon hr hep => ?reached⟩⟩
  case mdll => exact congrArg finish (if_pos hst)
  case absent => exact ⟨_, congrArg finish (State.refAbsent_acquire hv hp hst), rfl⟩
  case present => exact congrArg finish (State.refPresent_plain hv hp hst)
  case waiting => exact congrArg finish (State.refPresent_waiting hv hp hst hu)
  case locked => exact ⟨_, congrArg finish (State.tbpllLocked_first hst hr rfl), rfl⟩
  case unlocked => exact congrArg finish (State.tbpllUnlocked_locked hl hst hu)
  case returns => exact congrArg finish (State.tbpllReturn_small hst hp ha hphi hs hu)
  case aligned => exact congrArg finish (State.tbpllAligned_small hst hsl hs hu)
  case long => exact congrArg finish (if_pos hst)
  case wrap =>
    obtain ⟨a, ha⟩ : ∃ a, a = (s.advance (wrapTu - s.tmb.count)).keepClock := ⟨_, rfl⟩
    obtain ⟨hcount, hepoch, hraised, hcsr, hmem⟩ := State.keepClock_advance hr ha
    refine ⟨_, congrArg finish (State.timestampWrap_eq hr ha), ?_, ?_, ?_, hcsr, hmem⟩
    · show a.tmb.count - wrapTu = 0
      omega
    · show (a.tmb.epoch + 1) % 2 ^ 16 = _
      rw [hepoch]
    · show a.raised ++ [491] = _
      rw [hraised]
  case zero => exact ⟨s.zeroedNext, congrArg finish (State.timeBaseZero_next hz), rfl, rfl, rfl, rfl⟩
  case past => exact congrArg finish ((State.atReg_of_csrError_eq_false _ herr).trans (if_pos hpast))
  case armed => exact ⟨_, congrArg finish ((State.atReg_of_csrError_eq_false _ herr).trans (if_neg hpast)), rfl⟩
  case reached => exact congrArg finish (State.trailheadReached_due hon hr hep)

end Sys2Proof.Machine
end

section
/-! PROOFS. The acquisition engines: arming, stopping and forcing, the drain's read pointer, and the publishing of records (R247, R252,
R259, R261, R265). -/

namespace Sys2Proof.Machine

/-- A command leaves the fields above its own bit as the host writes them. -/
theorem bitsOf_withBit_of_lt {v : Word} {i lo w : Nat} {b : Bool} (h : i < lo) (hw : lo + w ≤ 32) :
    bitsOf (withBit v i b).toNat lo w = bitsOf v.toNat lo w := by
  apply Nat.eq_of_testBit_eq
  intro j
  rw [bitsOf_testBit, bitsOf_testBit]
  by_cases hj : j < w
  · rw [← bit_eq_testBit, ← bit_eq_testBit, bit_withBit v b (by omega), if_neg (by omega)]
  · rw [decide_eq_false hj, Bool.false_and, Bool.false_and]

/-! ## What only shows in registers and events -/

/-- From `s` to `t` only registers and events change, and the registers of `P` read as they read. -/
structure ShowsOnly (P : Nat → Prop) (s t : State) : Prop where
  shape : ∃ (c : List (Nat × Word)) (r : List Nat), t = { s with csr := c, raised := r }
  regs : RegsKept P s t

section
variable {P : Nat → Prop} {s t u : State}

theorem ShowsOnly.refl (s : State) : ShowsOnly P s s := ⟨⟨s.csr, s.raised, rfl⟩, .refl s⟩

theorem ShowsOnly.trans (hst : ShowsOnly P s t) (htu : ShowsOnly P t u) : ShowsOnly P s u where
  shape := by
    obtain ⟨c, r, rfl⟩ := hst.shape
    obtain ⟨c', r', rfl⟩ := htu.shape
    exact ⟨c', r', rfl⟩
  regs := hst.regs.trans htu.regs

theorem ShowsOnly.put (s : State) {f : Fld} (v : Nat) (hf : ∀ a, P a → a ≠ f.addr) : ShowsOnly P s (s.put f v) :=
  ⟨⟨_, s.raised, rfl⟩, .put s v hf⟩

theorem ShowsOnly.wn (s : State) {a : Nat} (v : Nat) (ha : ∀ x, P x → x ≠ a) : ShowsOnly P s (s.wn a v) := ⟨⟨_, s.raised, rfl⟩, .wn s v ha⟩

theorem ShowsOnly.ev (s : State) (n : Nat) : ShowsOnly P s (s.ev n) := ⟨⟨s.csr, _, rfl⟩, .of_csr_eq rfl⟩

theorem ShowsOnly.evIf (s : State) (b : Bool) (n : Nat) : ShowsOnly P s (s.evIf b n) := by
  cases b with
  | true => exact .ev s n
  | false => exact .refl s

theorem ShowsOnly.mem (h : ShowsOnly P s t) : t.mem = s.mem := by
  obtain ⟨c, r, rfl⟩ := h.shape
  rfl

theorem ShowsOnly.acq (h : ShowsOnly P s t) : t.acq = s.acq := by
  obtain ⟨c, r, rfl⟩ := h.shape
  rfl

end

section
variable {s u : State} {e : Fin 8} {v : Word}

theorem ShowsOnly.acqPanic {P : Nat → Prop} (s : State) (hP : ∀ a, P a → a ≠ ACQ_STG_FREE e ∧ a ≠ ACQ_STATUS e) :
    ShowsOnly P s (s.acqPanic e) := by
  have hfree : ShowsOnly P s (s.put (ACQ_STG_FREE_bytes e) (s.stagingFree e)) := .put s _ fun a ha => (hP a ha).1
  unfold State.acqPanic
  dsimp only
  split
  · exact (hfree.trans (.put _ 1 fun a ha => (hP a ha).2)).trans (.ev _ _)
  · split
    · exact hfree.trans (.put _ 0 fun a ha => (hP a ha).2)
    · exact hfree

/-! ## Arming (R247) -/

theorem State.acqArmCode_range (s : State) (e : Fin 8) : 1 ≤ s.acqArmCode e ∧ s.acqArmCode e ≤ 11 := by
  unfold State.acqArmCode
  dsimp only
  (repeat' split) <;> decide

theorem regReset_acqStatus (e : Fin 8) : regReset (ACQ_STATUS e) = 0 := by
  decide +revert

/-- Showing the arm code leaves the engine's state, whatever the form of the register file: the code is not 0. -/
theorem State.get_state_put_armCode {c : Nat} (h1 : 1 ≤ c) (h2 : c ≤ 11) :
    (s.put (ACQ_STATUS_arm_code e) c).get (ACQ_STATUS_state e) = s.get (ACQ_STATUS_state e) := by
  obtain ⟨x, hx⟩ : ∃ x, x = bitsPut (s.rn (ACQ_STATUS e)) 4 4 c := ⟨_, rfl⟩
  have hlt : x < 2 ^ 32 := hx ▸ bitsPut_lt (s.rn_lt _) (by decide)
  have hcode : bitsOf x 4 4 = c := by rw [hx, bitsOf_bitsPut, Nat.mod_eq_of_lt (by omega)]
  have hne : BitVec.ofNat 32 x ≠ regReset (ACQ_STATUS e) := by
    rw [regReset_acqStatus]
    intro h0
    have hzero : x = 0 := by
      have hn := congrArg BitVec.toNat h0
      rwa [BitVec.toNat_ofNat, Nat.mod_eq_of_lt hlt] at hn
    rw [hzero] at hcode
    have : bitsOf 0 4 4 = 0 := rfl
    omega
  have hrn : (s.put (ACQ_STATUS_arm_code e) c).rn (ACQ_STATUS e) = x := by
    have hrd : (s.put (ACQ_STATUS_arm_code e) c).rd (ACQ_STATUS e) = BitVec.ofNat 32 x :=
      (congrArg (fun y => (s.wn (ACQ_STATUS e) y).rd (ACQ_STATUS e)) hx.symm).trans (cellsGet_set_self_of_ne_default hne s.csr)
    rw [State.rn, hrd, BitVec.toNat_ofNat, Nat.mod_eq_of_lt hlt]
  calc bitsOf ((s.put (ACQ_STATUS_arm_code e) c).rn (ACQ_STATUS e)) 0 3
    _ = bitsOf x 0 3 := by rw [hrn]
    _ = bitsOf (s.rn (ACQ_STATUS e)) 0 3 := by rw [hx, bitsOf_bitsPut_of_disjoint (.inl (by decide))]

theorem State.acqRuns_congr {t : State} (h : t.get (ACQ_STATUS_state e) = s.get (ACQ_STATUS_state e)) : t.acqRuns e = s.acqRuns e := by
  rw [State.acqRuns, h, State.acqRuns]

theorem State.acqForce_idle (h : s.acqRuns e = false) : s.acqForce e = s := if_neg (by rw [h]; exact Bool.false_ne_true)

theorem State.acqForce_runs (h : s.acqRuns e = true) : s.acqForce e = s.setAcq e { s.acq[e] with latch := s.acq[e].latch ||| 8 } := if_pos h

theorem State.acqArm_runs (h : s.acqRuns e = true) : s.acqArm e = s := if_pos h

theorem State.acqArm_refused (hidle : s.acqRuns e = false) (hc : s.acqArmCode e ≠ 1) :
    s.acqArm e = (s.put (ACQ_STATUS_arm_code e) (s.acqArmCode e)).ev (acqSrc e 3) := by
  simp only [State.acqArm, hidle, Bool.false_eq_true, if_false, if_pos hc]

/-- A refused arm leaves the engine idle, so that a force with it does nothing. -/
theorem State.acqRuns_acqArm_refused (hidle : s.acqRuns e = false) (hc : s.acqArmCode e ≠ 1) : (s.acqArm e).acqRuns e = false := by
  obtain ⟨h1, h2⟩ := s.acqArmCode_range e
  rw [State.acqArm_refused hidle hc, State.acqRuns_congr ((State.get_ev _ _ _).trans (State.get_state_put_armCode h1 h2)), hidle]

theorem State.acqArm_armed {t : State} (hidle : s.acqRuns e = false) (hc : s.acqArmCode e = 1)
    (ht : t = ((((((((s.put (ACQ_STATUS_arm_code e) 1).setAcq e { recSeq := s.acq[e].recSeq }).put (ACQ_CTL_arm e)
      1).put (ACQ_STATUS_state e) 1).put (ACQ_STATUS_end e) 0).put (ACQ_SEG_DONE_count e) 0).put (ACQ_RUN_run e)
      (s.get (ACQ_RUN_run e) + 1))).acqPanic e) : s.acqArm e = t := by
  simp only [State.acqArm, hidle, Bool.false_eq_true, if_false, hc, ne_eq, not_true_eq_false, ht]

/-! ## Writes of ACQ_CTL -/

/-- What a write of ACQ_CTL whose clocks run does, once its stop_with_port is taken. -/
theorem exec_acqCtl {i : Nat} {b : Bool} (hi : i < 2) (herr : s.csrError (ACQ_CTL e) true = false)
    (hw : s.clockWaits (ACQ_CTL e) = false) (hu : u = s.put (ACQ_CTL_stop_with_port e) (bitsOf v.toNat 2 1)) :
    finish (s.atClock (ACQ_CTL e) (withBit v i b) fun s => s.acqCtl e (withBit v i b)) =
      .next (if bit (withBit v i b).toNat 1 then
        (if bit (withBit v i b).toNat 0 then u.acqArm e else u.acqStop e).acqForce e
        else (if bit (withBit v i b).toNat 0 then u.acqArm e else u.acqStop e)).syncSources := by
  refine (congrArg finish (State.atClock_of_clockWaits_eq_false _ herr hw)).trans ?_
  simp only [State.acqCtl, bitsOf_withBit_of_lt hi (show 2 + 1 ≤ 32 by decide), ← hu]
  rfl

theorem exec_acqArm (herr : s.csrError (ACQ_CTL e) true = false) (hw : s.clockWaits (ACQ_CTL e) = false)
    (hu : u = s.put (ACQ_CTL_stop_with_port e) (bitsOf v.toNat 2 1)) :
    exec (.acqArm e v) s = .next (if bit v.toNat 1 then (u.acqArm e).acqForce e else u.acqArm e).syncSources := by
  refine (exec_acqCtl (i := 0) (by decide) herr hw hu).trans ?_
  rw [bit_withBit v true (by decide), bit_withBit v true (by decide), if_neg (show ¬ 0 = 1 by decide), if_pos rfl, if_pos rfl]

theorem exec_acqStop (herr : s.csrError (ACQ_CTL e) true = false) (hw : s.clockWaits (ACQ_CTL e) = false)
    (hu : u = s.put (ACQ_CTL_stop_with_port e) (bitsOf v.toNat 2 1)) :
    exec (.acqStop e v) s = .next (if bit v.toNat 1 then (u.acqEnd e 5 2 1).acqForce e else u.acqEnd e 5 2 1).syncSources := by
  refine (exec_acqCtl (i := 0) (by decide) herr hw hu).trans ?_
  rw [bit_withBit v false (by decide), bit_withBit v false (by decide), if_neg (show ¬ 0 = 1 by decide), if_pos rfl,
    if_neg Bool.false_ne_true, State.acqStop]

theorem exec_acqForce (herr : s.csrError (ACQ_CTL e) true = false) (hw : s.clockWaits (ACQ_CTL e) = false)
    (hu : u = s.put (ACQ_CTL_stop_with_port e) (bitsOf v.toNat 2 1)) :
    exec (.acqForce e v) s = .next ((if bit v.toNat 0 then u.acqArm e else u.acqEnd e 5 2 1).acqForce e).syncSources := by
  refine (exec_acqCtl (i := 1) (by decide) herr hw hu).trans ?_
  rw [bit_withBit v true (by decide), bit_withBit v true (by decide), if_pos rfl, if_pos rfl, if_neg (show ¬ 1 = 0 by decide), State.acqStop]

/-! ## The end of a run (R252) -/

theorem State.flushX6_nil (h : s.acq[e].x6 = []) : s.flushX6 e = s := by
  have hself : { s.acq[e] with x6 := [] } = s.acq[e] := by rw [← h]
  have hset : s.acq.set e s.acq[e] = s.acq := by simp
  simp only [State.flushX6, h]
  rw [hself, State.setAcq, hset]
  rfl

/-- A stop of a run with no trigger, segment or span open only ends it. -/
theorem State.acqEnd_bare {t : State} (hr : s.acqRuns e = true) (hx : s.acq[e].x6 = []) (hc : s.acq[e].cubic = none)
    (hg : s.acq[e].seg = none) (hs : s.acq[e].span = none)
    (ht : t = (((s.put (ACQ_STATUS_state e) 5).put (ACQ_STATUS_end e) 2).ev (acqSrc e 4)).put (ACQ_CTL_arm e) 0) :
    s.acqEnd e 5 2 1 = (t.setAcq e { s.acq[e] with hist := [], latch := 0 }).acqPanic e := by
  have hresolve : s.acqResolve e none = s := by simp only [State.acqResolve, hc]
  have hseg : s.closeSeg e 1 0 = s := by simp only [State.closeSeg, hg]
  have hspan : s.closeSpan e = s := by simp only [State.closeSpan, hs]
  simp only [State.acqEnd, hr, Bool.not_true, Bool.false_eq_true, if_false, State.flushX6_nil hx, hresolve, hseg, hspan, if_true, ← ht]
  rfl

/-! ## The drain (R259, R261) -/

theorem State.drainRdWrite_within (h : (s.rn (ACQ_DRAIN_WR e) + 2 ^ 32 - v.toNat) % 2 ^ 32 ≤ s.drainSize e) :
    s.drainRdWrite e v.toNat = ((s.wn (ACQ_DRAIN_RD e) v.toNat).acqPanic e).releaseItems ⟨e.val, by omega⟩ := by
  rw [State.drainRdWrite, State.acqDrainRd, Nat.mod_eq_of_lt v.isLt, if_pos h]

theorem State.drainWrite_csr (s : State) (e : Fin 8) (n : Nat) (l : List Byte) : (s.drainWrite e n l).csr = s.csr :=
  State.setBytes_csr.trans State.setBytes_csr

/-- The write pointer moves to `wr`, and the queue of records becomes `l`. -/
def State.drained (s : State) (e : Fin 8) (wr : Nat) (l : List AcqRec) : State :=
  (s.wn (ACQ_DRAIN_WR e) wr).setAcq e { s.acq[e] with recs := l }

section
variable {wr : Nat} {l : List AcqRec}

theorem State.drained_csr_wf (h : cellsWf regReset s.csr = true) : cellsWf regReset (s.drained e wr l).csr = true :=
  State.wn_csr_wf h

theorem State.drained_recs : (s.drained e wr l).acq[e].recs = l := by
  simp [State.drained]

theorem State.rn_drained (h : cellsWf regReset s.csr = true) (hw : wr < 2 ^ 32) : (s.drained e wr l).rn (ACQ_DRAIN_WR e) = wr :=
  State.rn_wn_self h hw

/-- The bytes of a record stand in the ring, and its queue has moved on. -/
theorem State.drained_of_drainWrite {a : State} {bytes : List Byte} (ha : a = s.drainWrite e (s.rn (ACQ_DRAIN_WR e)) bytes) :
    (a.wn (ACQ_DRAIN_WR e) wr).setAcq e { (a.wn (ACQ_DRAIN_WR e) wr).acq[e] with recs := l } = a.drained e wr l ∧ a.csr = s.csr :=
  ⟨rfl, by rw [ha, State.drainWrite_csr]⟩

end

/-- The registers of an engine that publishing shows in, beside its write pointer. -/
theorem drainWr_ne (e : Fin 8) : ACQ_DRAIN_WR e ≠ ACQ_SEG_DONE e ∧ ACQ_DRAIN_WR e ≠ ACQ_STATUS e ∧ ACQ_DRAIN_WR e ≠ ACQ_STG_FREE e := by
  simp only [ACQ_DRAIN_WR, ACQ_SEG_DONE, ACQ_STATUS, ACQ_STG_FREE]
  omega

section
variable {r : AcqRec} {l : List AcqRec} (hrecs : s.acq[e].recs = r :: l)
include hrecs

/-- Publishing a record that fits drains it; what else it does shows in other registers and in events. -/
theorem State.acqPublish_drained (hfree : ¬ s.drainFree e < r.bytes.length / 64) {a : State}
    (ha : a = s.drainWrite e (s.rn (ACQ_DRAIN_WR e)) r.bytes) :
    ShowsOnly (· = ACQ_DRAIN_WR e) (a.drained e ((s.rn (ACQ_DRAIN_WR e) + r.bytes.length / 64) % 2 ^ 32) l) (s.acqPublish e) := by
  obtain ⟨hdone, hstatus, hstg⟩ := drainWr_ne e
  obtain ⟨hdrained, -⟩ := State.drained_of_drainWrite (wr := (s.rn (ACQ_DRAIN_WR e) + r.bytes.length / 64) % 2 ^ 32) (l := l) ha
  simp only [State.acqPublish, hrecs, if_neg hfree, ← ha, hdrained]
  generalize a.drained e ((s.rn (ACQ_DRAIN_WR e) + r.bytes.length / 64) % 2 ^ 32) l = t
  have hseg : ShowsOnly (· = ACQ_DRAIN_WR e) t (if r.isSeg then
      ((t.put (ACQ_SEG_DONE_count e) (t.get (ACQ_SEG_DONE_count e) + 1)).put (ACQ_STATUS_seg_closed e) 1).ev (acqSrc e 1) else t) := by
    split
    · exact ((ShowsOnly.put _ _ fun a ha => ha ▸ hdone).trans (.put _ 1 fun a ha => ha ▸ hstatus)).trans (.ev _ _)
    · exact .refl _
  exact ((hseg.trans (.evIf _ _ _)).trans (.evIf _ _ _)).trans (.acqPanic _ fun a ha => ⟨ha ▸ hstg, ha ▸ hstatus⟩)

theorem State.acqPublish_full (hfull : s.drainFree e < r.bytes.length / 64) : s.acqPublish e = s := by
  simp only [State.acqPublish, hrecs, if_pos hfull]

theorem State.rn_acqPublish (hc : s.canonical = true) (hfree : ¬ s.drainFree e < r.bytes.length / 64) :
    (s.acqPublish e).rn (ACQ_DRAIN_WR e) = (s.rn (ACQ_DRAIN_WR e) + r.bytes.length / 64) % 2 ^ 32 := by
  obtain ⟨a, ha⟩ : ∃ a, a = s.drainWrite e (s.rn (ACQ_DRAIN_WR e)) r.bytes := ⟨_, rfl⟩
  have hwf : cellsWf regReset a.csr = true := by
    rw [ha, State.drainWrite_csr]
    exact State.csr_wf_of_canonical hc
  rw [State.rn, (State.acqPublish_drained hrecs hfree ha).regs.rd (State.drained_csr_wf hwf) _ rfl]
  exact State.rn_drained hwf (Nat.mod_lt _ (by decide))

section
variable (hf : s.acq[e].frozenWait = false) (hd : s.on (DMC_STATUS_frozen (e / 2)) = false) (hg : s.writerGo e (s.drainAddr e) = true)
include hf hd hg

theorem State.acqRecordPublish_eq : s.acqRecordPublish e =
    if (s.acqPublish e).rn (ACQ_DRAIN_WR e) = s.rn (ACQ_DRAIN_WR e) then s.acqPublish e
    else (s.acqPublish e).schPublished e (s.rn (ACQ_DRAIN_WR e)) (s.rn (ACQ_DRAIN_WR e) + r.bytes.length / 64) r.isSeg := by
  simp only [State.acqRecordPublish, hf, hd, hg, hrecs, Bool.not_true, Bool.or_self, Bool.false_eq_true, if_false]

end

end

end

/-- Settles O25: the commands go by the engine's state and the code of the arm's check; a record that fits the ring is drained, and one
that does not waits. -/
theorem acquisitionRuns : Obligations.AcquisitionRuns := by
  refine ⟨fun s u t e v => ⟨fun herr hw hu => ⟨fun hidle => ⟨fun hc => ?refused, fun hc ht => ?armed⟩, exec_acqStop herr hw hu,
    fun hr hx hcub hg hs ht => State.acqEnd_bare hr hx hcub hg hs ht, fun h0 hr => ?force, fun h0 => ?stopForce⟩,
    fun herr hw hsize => ?drainRd⟩, fun s e r l hc hrecs => ⟨fun hf hd hg => ⟨fun hpos hfit hlt => ?publish, fun hfull => ?full⟩, fun hf => ?frozen⟩⟩
  case refused =>
    rw [exec_acqArm herr hw hu, State.acqForce_idle (State.acqRuns_acqArm_refused hidle hc), ite_self, State.acqArm_refused hidle hc]
  case armed => rw [exec_acqArm herr hw hu, State.acqArm_armed hidle hc ht]
  case force => rw [exec_acqForce herr hw hu, if_pos h0, State.acqArm_runs hr, State.acqForce_runs hr]
  case stopForce => rw [exec_acqForce herr hw hu, if_neg (by rw [h0]; exact Bool.false_ne_true)]
  case drainRd =>
    exact congrArg finishSync ((State.atClock_of_clockWaits_eq_false _ herr hw).trans (State.drainRdWrite_within hsize))
  case publish =>
    have hfree : ¬ s.drainFree e < r.bytes.length / 64 := Nat.not_lt.mpr hfit
    have hdrained := State.acqPublish_drained hrecs hfree rfl
    have hrn := State.rn_acqPublish hrecs hc hfree
    have hmoved : (s.acqPublish e).rn (ACQ_DRAIN_WR e) ≠ s.rn (ACQ_DRAIN_WR e) := by
      have hwr := s.rn_lt (ACQ_DRAIN_WR e)
      rw [hrn]
      omega
    refine ⟨congrArg finish ((State.acqRecordPublish_eq hrecs hf hd hg).trans (if_neg hmoved)), ?_, ?_, hrn⟩
    · rw [hdrained.acq, State.drained_recs]
    · rw [hdrained.mem, State.drained, State.setAcq_mem, State.wn_mem]
  case full =>
    refine congrArg finish ((State.acqRecordPublish_eq hrecs hf hd hg).trans ?_)
    rw [State.acqPublish_full hrecs hfull, if_pos rfl]
  case frozen =>
    refine congrArg finish (if_pos ?_)
    rw [hf]
    rfl

end Sys2Proof.Machine
end

section
/-! PROOFS. Commands and states of a TIM channel (R272 to R280), and the end of a secret period (R276, R440). -/

namespace Sys2Proof.Machine

section
variable {s u : State} {t : Fin 32} {v : Word} {v1 v2 : BitVec 12}

/-! ## Writes of TIM_CTL -/

/-- The settings that an idle channel takes from a write of TIM_CTL (R277); a change to DLL mode starts the DLL lock. -/
def State.timSettings (s : State) (t : Fin 32) (x : Nat) : State :=
  let b := ((((s.put (TIM_CTL_mode t) (bitsOf x 1 1)).put (TIM_CTL_kind t) (bitsOf x 2 2)).put (TIM_CTL_edge t)
    (bitsOf x 4 2)).put (TIM_CTL_arm_src t) (bitsOf x 6 1)).put (TIM_CTL_partner t) (bitsOf x 8 3)
  if bit x 1 && !s.on (TIM_CTL_mode t) then b.put (TIM_STATUS_dll_locked t) 0 else b

theorem State.timSettings_withBit (s : State) (t : Fin 32) (v : Word) (b : Bool) :
    s.timSettings t (withBit v 0 b).toNat = s.timSettings t v.toNat := by
  simp only [State.timSettings, bitsOf_withBit_of_lt (i := 0) (show 0 < 1 by decide) (show 1 + 1 ≤ 32 by decide),
    bitsOf_withBit_of_lt (i := 0) (show 0 < 2 by decide) (show 2 + 2 ≤ 32 by decide),
    bitsOf_withBit_of_lt (i := 0) (show 0 < 4 by decide) (show 4 + 2 ≤ 32 by decide),
    bitsOf_withBit_of_lt (i := 0) (show 0 < 6 by decide) (show 6 + 1 ≤ 32 by decide),
    bitsOf_withBit_of_lt (i := 0) (show 0 < 8 by decide) (show 8 + 3 ≤ 32 by decide), bit_withBit v b (show 1 < 32 by decide),
    if_neg (show ¬ 0 = 1 by decide)]

theorem State.timSettings_idle {w : State} (hidle : s.timActive t = false)
    (hw : w = ((((s.put (TIM_CTL_mode t) (bitsOf v.toNat 1 1)).put (TIM_CTL_kind t) (bitsOf v.toNat 2 2)).put (TIM_CTL_edge t)
      (bitsOf v.toNat 4 2)).put (TIM_CTL_arm_src t) (bitsOf v.toNat 6 1)).put (TIM_CTL_partner t) (bitsOf v.toNat 8 3))
    (hu : u = if bit v.toNat 1 && !s.on (TIM_CTL_mode t) then w.put (TIM_STATUS_dll_locked t) 0 else w) :
    u = if s.timActive t then s else s.timSettings t v.toNat := by
  rw [if_neg (by rw [hidle]; exact Bool.false_ne_true), State.timSettings, ← hw, hu]

theorem State.timCtlPair_arm (hu : u = if s.timActive t then s else s.timSettings t v.toNat) :
    s.timCtlPair t (withBit v 0 true) v1 v2 = (u.timArm t v1 v2).syncSources := by
  have hx : (if s.timActive t then s else s.timSettings t (withBit v 0 true).toNat) = u := by rw [State.timSettings_withBit, hu]
  have hbit : bit (withBit v 0 true).toNat 0 = true := by rw [bit_withBit v true (by decide), if_pos rfl]
  rw [State.timSettings] at hx
  simp only [State.timCtlPair, hx, hbit, if_true]

theorem State.timCtlPair_stop (hu : u = if s.timActive t then s else s.timSettings t v.toNat) :
    s.timCtlPair t (withBit v 0 false) v1 v2 = (u.timStop t).syncSources := by
  have hx : (if s.timActive t then s else s.timSettings t (withBit v 0 false).toNat) = u := by rw [State.timSettings_withBit, hu]
  have hbit : bit (withBit v 0 false).toNat 0 = false := by rw [bit_withBit v false (by decide), if_pos rfl]
  rw [State.timSettings] at hx
  simp only [State.timCtlPair, hx, hbit, Bool.false_eq_true, if_false]

/-! ## Arms and stops (R278, R279) -/

theorem State.timActive_iff : s.timActive t = true ↔ s.get (TIM_STATUS_state t) = 2 ∨ s.get (TIM_STATUS_state t) = 3 := by
  simp [State.timActive]

theorem State.timArm_active (h : s.timActive t = true) : s.timArm t v1 v2 = s := by
  have hst := State.timActive_iff.mp h
  rw [State.timArm]
  exact if_neg (by omega)

theorem State.timStop_active (h : s.timActive t = true) : s.timStop t = ((s.put (TIM_STATUS_state t) 5).put (TIM_CTL_arm t) 0).setTim t
    { s.tim[t] with met := false, gBad := s.tim[t].gate :: s.tim[t].gBad } := if_pos (State.timActive_iff.mp h)

theorem State.timStop_idle (h : s.timActive t = false) : s.timStop t = s :=
  if_neg fun hst => Bool.false_ne_true (h.symm.trans (State.timActive_iff.mpr hst))

section
variable (hst : s.get (TIM_STATUS_state t) = 1 ∨ s.get (TIM_STATUS_state t) = 4 ∨ s.get (TIM_STATUS_state t) = 5)
include hst

theorem State.timArm_refused (hc : s.timArmCode t ≠ 1) :
    s.timArm t v1 v2 = (s.put (TIM_STATUS_arm_code t) (s.timArmCode t)).ev (64 * (t / 8) + 54) := by
  simp only [State.timArm, if_pos hst, if_pos hc]

theorem State.timArm_armed {x : State} (hc : s.timArmCode t = 1)
    (hx : x = (((((((s.put (TIM_STATUS_arm_code t) 1).put (TIM_CTL_arm t) 1).put (TIM_STATUS_state t) 2).wn
      (TIM_RESULTS t) 0).wn64 (TIM_EDGES_LO t) 0).setTim t {
        cal := s.timCal t, lastMeas := s.tim[t].lastMeas,
        pend := s.tim[t].pend.map (fun (y : TimPend) => { y with old := true }), wait := s.tim[t].wait.map (fun (y : TimPend × TimConv) =>
          ({ y.1 with old := true }, y.2)),
        old := if s.tim[t].pend.all (·.old) then s.tim[t].old
          else { prev := s.tim[t].prev, edges := s.tim[t].edges, lost := s.tim[t].lost } }).sourceArmed (timTaskSource t) true)) :
    s.timArm t v1 v2 = if s.get (TIM_CTL_mode t) = 0 then (x.put (TIM_BRACKET_v1 t) v1.toNat).put (TIM_BRACKET_v2 t) v2.toNat else x := by
  rw [timTaskSource] at hx
  simp only [State.timArm, if_pos hst, hc, ne_eq, not_true_eq_false, if_false, ← hx]

end

/-! ## Measuring, the delay line, and the secret period (R276, R280, R440) -/

theorem State.timMeasStart_goes (hst : s.get (TIM_STATUS_state t) = 2) (hm : s.on (TIM_CTL_arm_src t) = false ∨ s.tim[t].met = true)
    (hd : s.on (TIM_CTL_mode t) = false ∨ s.on (TIM_STATUS_dll_locked t) = true) (hl : s.on (TIM_STATUS_leased t) = false) :
    s.timMeasStart t = (s.put (TIM_STATUS_state t) 3).setTim t { s.tim[t] with
      met := false, gAt := s.tmb.clk, gate := 0, gOf := 0, gFirst := none, gLast := none
      gBad := if s.on (TIM_STATUS_blanked t) then [0] else [] } := by
  have hmet : (!s.on (TIM_CTL_arm_src t) || s.tim[t].met) = true := by
    rcases hm with h | h
    · rw [h]
      rfl
    · rw [h, Bool.or_true]
  have hdll : (!s.on (TIM_CTL_mode t) || s.on (TIM_STATUS_dll_locked t)) = true := by
    rcases hd with h | h
    · rw [h]
      rfl
    · rw [h, Bool.or_true]
  exact if_pos (by rw [hmet, hdll, hl, decide_eq_true hst]; rfl)

end

/-- Settles O26: a write of TIM_CTL takes the settings of an idle channel, and arm or stop go by its state. -/
theorem timChannelStates : Obligations.TimChannelStates := by
  intro s t
  refine ⟨fun v v1 v2 herr hact => ⟨?armActive, ?stopActive⟩, fun u w x v v1 v2 herr hidle hw hu => ⟨fun hui => ?stopIdle,
    fun hst => ⟨fun hc => ?refused, fun hc hx => ?armed⟩⟩, fun hst hm hd hl => ?meas, fun hm hst => ?lock, fun hd => ?unlock,
    fun p hp hr => ?secret⟩
  case armActive =>
    refine congrArg finish ((State.atReg_of_csrError_eq_false _ herr).trans ?_)
    rw [State.timCtlPair_arm (u := s) (if_pos hact).symm, State.timArm_active hact]
  case stopActive =>
    refine congrArg finish ((State.atReg_of_csrError_eq_false _ herr).trans ?_)
    rw [State.timCtlPair_stop (u := s) (if_pos hact).symm, State.timStop_active hact]
  case stopIdle =>
    refine congrArg finish ((State.atReg_of_csrError_eq_false _ herr).trans ?_)
    rw [State.timCtlPair_stop (State.timSettings_idle hidle hw hu), State.timStop_idle hui]
  case refused =>
    refine congrArg finish ((State.atReg_of_csrError_eq_false _ herr).trans ?_)
    rw [State.timCtlPair_arm (State.timSettings_idle hidle hw hu), State.timArm_refused hst hc]
  case armed =>
    refine congrArg finish ((State.atReg_of_csrError_eq_false _ herr).trans ?_)
    rw [State.timCtlPair_arm (State.timSettings_idle hidle hw hu), State.timArm_armed hst hc hx]
  case meas => exact congrArg finishSync (State.timMeasStart_goes hst hm hd hl)
  case lock => exact congrArg finish (if_pos (by rw [hm, decide_eq_true hst]; rfl))
  case unlock => exact congrArg finish (if_pos hd)
  case secret => exact congrArg finish (if_pos (by rw [hp, hr]; rfl))

end Sys2Proof.Machine
end

section
/-! PROOFS. The waveform generators: control, start, WD cycles and output samples (R289, R292, R293, R298 to R302). -/

namespace Sys2Proof.Machine

/-! ## Writes of WFG_CTL (R298, R301) -/

section
variable {s u : State} {m : Fin 4} {v : Word}

theorem seqDepthF_wfgUnit (m : Fin 4) : seqDepthF (wfgUnit m) = WFG_ENTRY_depth m := by
  have hge : ¬ (wfgUnit m).val < 8 := by simp only [wfgUnit, wfgPll]; omega
  have hval : (wfgUnit m).val - 8 = m.val := by simp only [wfgUnit, wfgPll]; omega
  rw [seqDepthF, if_neg hge, hval]

section
variable {a b : State} (ha : a = if bitsOf v.toNat 2 2 = 3 then s else s.put (WFG_CTL_start_mode m) (bitsOf v.toNat 2 2))
  (hb : b = a.put (WFG_CTL_out_en m) (bitsOf v.toNat 4 1)) (hu : u = if bit v.toNat 4 then b else b.wfgMarkers m 0 s.tmb.clk)
include ha hb hu

/-- The start mode and out_en are taken first, then run. -/
theorem State.wfgCtl_eq (r : Bool) : s.wfgCtl m (withBit v 0 r) = if r then u.wfgRun m else u.wfgStop m := by
  have hmode := bitsOf_withBit_of_lt (v := v) (i := 0) (b := r) (show 0 < 2 by decide) (show 2 + 2 ≤ 32 by decide)
  have hout := bitsOf_withBit_of_lt (v := v) (i := 0) (b := r) (show 0 < 4 by decide) (show 4 + 1 ≤ 32 by decide)
  have hrun : bit (withBit v 0 r).toNat 0 = r := by rw [bit_withBit v r (by decide), if_pos rfl]
  have hbit : bit (withBit v 0 r).toNat 4 = bit v.toNat 4 := by rw [bit_withBit v r (by decide), if_neg (by decide)]
  simp only [State.wfgCtl, hmode, hout, hrun, hbit, ← ha, ← hb, ← hu]

variable (herr : s.csrError (WFG_CTL m) true = false) (hw : s.clockWaits (WFG_CTL m) = false)
include herr hw

theorem exec_wfgRun : exec (.wfgRun m v) s = .next (u.wfgRun m) :=
  congrArg finish ((State.atClock_of_clockWaits_eq_false _ herr hw).trans (State.wfgCtl_eq ha hb hu true))

theorem exec_wfgStop : exec (.wfgStop m v) s = .next (u.wfgStop m) :=
  congrArg finish ((State.atClock_of_clockWaits_eq_false _ herr hw).trans (State.wfgCtl_eq ha hb hu false))

end

theorem State.wfgRun_active (h : u.wfgActive m = true) : u.wfgRun m = u := if_pos h

section
variable {x : State} (hidle : u.wfgActive m = false)
  (hx : x = (((((((u.put (WFG_ENTRY_depth m) 0).wn64 (WFG_SAMPLE_LO m) 0).put (WFG_STATUS_code m) 0).wn (WFG_WAIT_STATUS m) 0).wn
    (WFG_WAIT_PASSES m) 0).put (WFG_STATUS_state m) 1).put (WFG_CTL_run m) 1).setSeq (wfgUnit m)
      { condMet := decide (u.get (WFG_CTL_start_mode m) = 2) && u.inTbCycle u.wfg[m].evtAt })
include hidle hx

theorem State.wfgRun_refused {c : Nat} (h : x.wfgRefusal m = some c) : u.wfgRun m = x.wfgEnd m 5 c true := by
  simp only [State.wfgRun, hidle, Bool.false_eq_true, if_false, seqDepthF_wfgUnit, ← hx, h]

theorem State.wfgRun_armed (h : x.wfgRefusal m = none) : u.wfgRun m =
    (x.setWfg m { mkr := u.wfg[m].mkr, mkrAt := u.wfg[m].mkrAt, evtAt := u.wfg[m].evtAt
                  ofs := (u.wfgCal m).1, gain := (u.wfgCal m).2 }).planFrom (wfgUnit m) (u.get (WFG_START_entry m)) := by
  simp only [State.wfgRun, hidle, Bool.false_eq_true, if_false, seqDepthF_wfgUnit, ← hx, h]

end

theorem State.wfgStop_armed (h : u.get (WFG_STATUS_state m) = 1) : u.wfgStop m = u.wfgEnd m 5 0 true := by
  simp only [State.wfgStop, h]

theorem State.wfgStop_running (h : u.get (WFG_STATUS_state m) = 2) (hp : u.seq[wfgUnit m].paused = false) :
    u.wfgStop m = u.setSeq (wfgUnit m) { u.seq[wfgUnit m] with stopReq := true } := by
  simp only [State.wfgStop, h, hp, Bool.false_eq_true, if_false]

theorem State.wfgStop_paused (h : u.get (WFG_STATUS_state m) = 2) (hp : u.seq[wfgUnit m].paused = true) :
    u.wfgStop m = u.wfgEnd m 5 0 false := by
  simp only [State.wfgStop, h, hp, if_true]

theorem State.wfgStop_idle (h : u.wfgActive m = false) : u.wfgStop m = u := by
  have h1 : u.get (WFG_STATUS_state m) ≠ 1 := fun h1 => by simp [State.wfgActive, h1] at h
  have h2 : u.get (WFG_STATUS_state m) ≠ 2 := fun h2 => by simp [State.wfgActive, h2] at h
  unfold State.wfgStop
  split
  · exact absurd (by assumption) h1
  · exact absurd (by assumption) h2
  · rfl

/-! ## An ARMED generator (R292, R293, R298, R300) -/

theorem State.wfgTrailhead_met (hst : s.get (WFG_STATUS_state m) = 1) (hm : s.get (WFG_CTL_start_mode m) = 1)
    (ht : s.seq[wfgUnit m].trailMet = false) (hrun : s.tmb.running = true)
    (hep : s.rn (WFG_TRAILHEAD_EP m) % 2 ^ 16 = s.tmb.epoch % 2 ^ 16) (ha : s.seq[wfgUnit m].admitted = true)
    (hl : s.lockedSettled (wfgUnit m) = true) :
    s.wfgTrailhead m = (s.advance (instantOf (s.rn64 (WFG_TRAILHEAD_LO m)) - s.tmb.count)).setSeq (wfgUnit m)
      { s.seq[wfgUnit m] with trailMet := true } := by
  have hreach : s.advanceToStamp (s.rn64 (WFG_TRAILHEAD_LO m)) (s.rn (WFG_TRAILHEAD_EP m)) =
      (s.advance (instantOf (s.rn64 (WFG_TRAILHEAD_LO m)) - s.tmb.count), true) := if_pos (by rw [hrun, decide_eq_true hep]; rfl)
  have hlock : (s.advance (instantOf (s.rn64 (WFG_TRAILHEAD_LO m)) - s.tmb.count)).lockedSettled (wfgUnit m) = true :=
    (State.lockedSettled_congr (State.advance_csr s _) _).trans hl
  simp only [State.wfgTrailhead, hst, hm, ht, hreach, State.advance_seq, ha, hlock, ne_eq, not_true_eq_false, Bool.false_eq_true,
    or_self, if_false, Bool.not_true, Bool.or_self]

/-- The condition of the generator's start mode has come (R300). -/
def State.wfgStartCond (s : State) (m : Fin 4) : Bool :=
  match s.get (WFG_CTL_start_mode m) with
  | 1 => s.seq[wfgUnit m].trailMet
  | 2 => s.seq[wfgUnit m].condMet
  | _ => true

theorem State.wfgStartCond_of (h1 : s.get (WFG_CTL_start_mode m) = 1 → s.seq[wfgUnit m].trailMet = true)
    (h2 : s.get (WFG_CTL_start_mode m) = 2 → s.seq[wfgUnit m].condMet = true) : s.wfgStartCond m = true := by
  unfold State.wfgStartCond
  split
  · exact h1 (by assumption)
  · exact h2 (by assumption)
  · rfl

/-- The run begins at instant `t` with the resampler cleared (R292, R293). -/
def State.wfgStarted (w : State) (m : Fin 4) (t rho : Nat) : State :=
  let x := ((w.put (WFG_STATUS_state m) 2).wn64 (WFG_START_TS_LO m) (w.stampAt t)).put (WFG_START_EP_epoch m) (w.epochAt t)
  (x.setWfg m { x.wfg[m] with
    acc := 2 ^ 48 - rho, m := -1, n := 0, hist := List.replicate 32 (0, 0), flush := none }).ev (wfgSrc m 56)

theorem State.wfgFirst_goes {phase t : Nat} {err : Bool} (hst : s.get (WFG_STATUS_state m) = 1)
    (h1 : s.get (WFG_CTL_start_mode m) = 1 → s.seq[wfgUnit m].trailMet = true)
    (h2 : s.get (WFG_CTL_start_mode m) = 2 → s.seq[wfgUnit m].condMet = true) (ha : s.seq[wfgUnit m].admitted = true)
    (hl : s.lockedSettled (wfgUnit m) = true) (hle : s.unitLeased (48 + m) = false)
    (ht : t = (if s.get (WFG_CTL_start_mode m) = 1 then ((s.tmb.clk : Int) + instantOf (s.rn64 (WFG_TRAILHEAD_LO m)) - s.tmb.count).toNat
      else s.tmb.clk) + phase % max 1 (16 * (s.rate (wfgPll m)).periodTu))
    (hu : u = (s.setSeq (wfgUnit m) { s.seq[wfgUnit m] with at_ := t, frac := 0, fracDen := 1 }).advanceTo t) :
    s.wfgFirst m phase err = if (u.wfgBegin m (s.get (WFG_START_entry m)) t id).2 then
        ((u.wfgBegin m (s.get (WFG_START_entry m)) t id).1.wfgStarted m t (s.wfgRho m)).wfgCycle m err
      else (u.wfgBegin m (s.get (WFG_START_entry m)) t id).1 := by
  rw [State.wfgFirst]
  refine (if_neg ?_).trans ?_
  · rintro (h | h | h | h | h)
    · exact h hst
    · rw [ha] at h
      cases h
    · rw [hl] at h
      cases h
    · have hno : (!s.wfgStartCond m) = true := h
      rw [State.wfgStartCond_of h1 h2] at hno
      cases hno
    · rw [hle] at h
      cases h
  · simp only [← ht, ← hu]
    cases (u.wfgBegin m (s.get (WFG_START_entry m)) t id).2 <;> rfl

theorem State.wfgBegin_invalid {dest t : Nat} {f : State → State} (h : (u.entryAt dest).wfgValid = false) :
    u.wfgBegin m dest t f = (u.wfgEnd m 6 8 false, false) := by
  simp only [State.wfgBegin, h, Bool.not_false, if_true]

theorem State.wfgBegin_valid {dest t : Nat} {e : Entry} (he : e = u.entryAt dest) (hv : e.wfgValid = true) (ho : e.dataOffset % 64 = 0)
    (hw : e.dataOffset < u.windowSize (wfgUnit m) e.tier) (hs : u.wfgShort m e = false) :
    u.wfgBegin m dest t id = (((u.put (WFG_ENTRY_entry m) dest).setSeq (wfgUnit m) { u.seq[wfgUnit m] with
      e := e, timedOut := false
      deadline := if e.isLoop ∧ e.tmo ≠ 0 then some (t + e.tmoNs * tuPerNs) else none }).wfgBeginPass m 0 t, true) := by
  have hin : ¬ (e.dataOffset % 64 ≠ 0 ∨ u.windowSize (wfgUnit m) e.tier ≤ e.dataOffset) := by omega
  simp only [State.wfgBegin, ← he, hv, Bool.not_true, Bool.false_eq_true, if_false, if_neg hin, hs, id_eq, State.put_seq]

/-! ## WD cycles and output samples (R289, R292, R295, R301, R302) -/

section
variable {err : Bool} (hst : s.get (WFG_STATUS_state m) = 2) (hp : s.seq[wfgUnit m].paused = true → s.seq[wfgUnit m].resume = true)
  (hu : u = if s.seq[wfgUnit m].paused then ((s.advanceTo s.seq[wfgUnit m].at_).count (WFG_PAUSE_CNT m)).setSeq (wfgUnit m)
    { s.seq[wfgUnit m] with paused := false, resume := false, frac := 0 } else s.advanceTo s.seq[wfgUnit m].at_)
include hst hp hu

theorem State.wfgCycle_goes : s.wfgCycle m err = if s.seq[wfgUnit m].stopReq then u.wfgEnd m 5 0 false
    else (u.setWfg m { u.wfg[m] with out := [] }).wfgSamples m (s.rate (wfgPll m)) err 16 := by
  have hgo : ¬ (s.get (WFG_STATUS_state m) ≠ 2 ∨ (s.seq[wfgUnit m].paused = true ∧ (!s.seq[wfgUnit m].resume) = true)) := by
    rintro (h | ⟨h, hr⟩)
    · exact h hst
    · rw [hp h] at hr
      cases hr
  simp only [State.wfgCycle, if_neg hgo, ← hu]

end

theorem State.setWfg_setWfg (s : State) (m : Fin 4) (x y : WfgH) : (s.setWfg m x).setWfg m y = s.setWfg m y := by
  simp only [State.setWfg, Vector.set_set]

theorem State.setWfg_wfg_self (s : State) (m : Fin 4) (x : WfgH) : (s.setWfg m x).wfg[m] = x := by
  simp [State.setWfg]

/-- The source sample `x` leaves the frame, whose rest is `l`, at instant `t`. -/
def State.wfgTaken (s : State) (m : Fin 4) (t : Nat) (x : Int × Nat) (l : List (Int × Nat)) : State :=
  let s3 := (s.setWfg m { s.wfg[m] with frame := l, lastAt := t }).wfgPush m x
  let s4 := s3.setSeq (wfgUnit m) { s3.seq[wfgUnit m] with passVec := s3.seq[wfgUnit m].passVec + 1 }
  (s4.wn64 (WFG_SAMPLE_LO m) ((s4.seqVec (wfgUnit m) + 1) % 2 ^ 64)).registerDue (wfgUnit m) t

/-- Without a flush, the next source sample of a frame is taken. -/
theorem State.wfgTake_frame {t : Nat} {err : Bool} {x : Int × Nat} {l : List (Int × Nat)} (hf : s.wfg[m].flush = none)
    (hx : s.wfg[m].frame = x :: l) : s.wfgTake m t err = (s.wfgTaken m t x l, true) := by
  simp only [State.wfgTake, State.wfgTaken, hf, hx, reduceCtorEq, and_false, if_false, Bool.not_true, Bool.false_eq_true]

theorem State.wfgTaken_eq {t : Nat} {x : Int × Nat} {l : List (Int × Nat)} {a : State} (ha : a = (s.setWfg m { s.wfg[m] with
      frame := l, lastAt := t, hist := (x :: s.wfg[m].hist).take 64, m := s.wfg[m].m + 1 }).setSeq (wfgUnit m)
        { s.seq[wfgUnit m] with passVec := s.seq[wfgUnit m].passVec + 1 }) :
    s.wfgTaken m t x l = (a.wn64 (WFG_SAMPLE_LO m) ((a.seqVec (wfgUnit m) + 1) % 2 ^ 64)).registerDue (wfgUnit m) t := by
  have hpush : (s.setWfg m { s.wfg[m] with frame := l, lastAt := t }).wfgPush m x = s.setWfg m { s.wfg[m] with
      frame := l, lastAt := t, hist := (x :: s.wfg[m].hist).take 64, m := s.wfg[m].m + 1 } := by
    rw [State.wfgPush, State.setWfg_setWfg, State.setWfg_wfg_self]
  rw [State.wfgTaken, hpush, ha]
  rfl

theorem State.wfgSample_plain {t : Nat} {err : Bool} {a b c : State} (hen : s.on (WFG_RS_CTL_en m) = false)
    (ha : a = s.setWfg m { s.wfg[m] with acc := 0 }) (hb : a.wfgTake m t err = (b, true)) (hc : c = b.wfgMarkers m (b.wfgValue m).2 t) :
    s.wfgSample m t err = (c.setWfg m { c.wfg[m] with n := c.wfg[m].n + 1, out := c.wfg[m].out ++ [(b.wfgValue m).1] }, true) := by
  simp only [State.wfgSample, hen, Bool.false_eq_true, if_false, Nat.mod_self, ← ha, Nat.le_refl, if_true, hb, Bool.not_true, ← hc]

end

/-- Settles O29: control, start and cycle go by the generator's state; a sample without resampling takes the next one of its frame. -/
theorem waveformGenerators : Obligations.WaveformGenerators := by
  refine ⟨fun s a b u x m v herr hw ha hb hu => ⟨fun hact => ?active, fun hidle hx => ⟨fun c hc => ?refused, fun hc => ?armed⟩,
      fun hst => ?stopArmed, fun hst hp => ?stopRunning, fun hst hp => ?stopPaused, fun hidle => ?stopIdle⟩,
    fun s m hst => ⟨fun hp hf => ?admitted, fun ha hm ht => ?timeout, fun hm ht hrun hep ha hl => ?trail,
      fun phase t err e u w x h1 h2 ha hl hle ht hu he => ⟨fun hv => ?invalid, fun hv ho hwin hs hw hx => ?first⟩⟩,
    fun s u m err => ⟨fun hst hp hu => ⟨fun hs => ?stops, fun hs => ?cycle⟩, fun t x l a b c hen hf hx ha hb hc => ?sample⟩⟩
  case active => rw [exec_wfgRun ha hb hu herr hw, State.wfgRun_active hact]
  case refused => rw [exec_wfgRun ha hb hu herr hw, State.wfgRun_refused hidle hx hc]
  case armed => rw [exec_wfgRun ha hb hu herr hw, State.wfgRun_armed hidle hx hc]
  case stopArmed => rw [exec_wfgStop ha hb hu herr hw, State.wfgStop_armed hst]
  case stopRunning => rw [exec_wfgStop ha hb hu herr hw, State.wfgStop_running hst hp]
  case stopPaused => rw [exec_wfgStop ha hb hu herr hw, State.wfgStop_paused hst hp]
  case stopIdle => rw [exec_wfgStop ha hb hu herr hw, State.wfgStop_idle hidle]
  case admitted => exact congrArg finish (if_pos ⟨hst, hp, hf⟩)
  case timeout => exact congrArg finish (if_pos ⟨hst, ha, hm, ht⟩)
  case trail => exact congrArg finish (State.wfgTrailhead_met hst hm ht hrun hep ha hl)
  case invalid =>
    refine congrArg finish ((State.wfgFirst_goes hst h1 h2 ha hl hle ht hu).trans ?_)
    rw [State.wfgBegin_invalid (he ▸ hv)]
    exact if_neg Bool.false_ne_true
  case first =>
    refine congrArg finish ((State.wfgFirst_goes hst h1 h2 ha hl hle ht hu).trans ?_)
    rw [State.wfgBegin_valid he hv ho hwin hs, ← hw]
    refine (if_pos rfl).trans ?_
    rw [State.wfgStarted, ← hx, wfgSrc]
  case stops => exact congrArg finish ((State.wfgCycle_goes hst hp hu).trans (if_pos hs))
  case cycle => exact congrArg finish ((State.wfgCycle_goes hst hp hu).trans (if_neg (by rw [hs]; exact Bool.false_ne_true)))
  case sample =>
    obtain ⟨y, hy⟩ : ∃ y, y = s.setWfg m { s.wfg[m] with acc := 0 } := ⟨_, rfl⟩
    have hself : y.wfg[m] = { s.wfg[m] with acc := 0 } := by rw [hy, State.setWfg_wfg_self]
    have hseq : y.seq = s.seq := by rw [hy]; rfl
    have hframe : y.wfg[m].frame = x :: l := by rw [hself]; exact hx
    have hflush : y.wfg[m].flush = none := by rw [hself]; exact hf
    have hset : a = (y.setWfg m { y.wfg[m] with
        frame := l, lastAt := t, hist := (x :: y.wfg[m].hist).take 64, m := y.wfg[m].m + 1 }).setSeq (wfgUnit m)
          { y.seq[wfgUnit m] with passVec := y.seq[wfgUnit m].passVec + 1 } := by
      rw [ha, hself, hseq, hy, State.setWfg_setWfg]
    have htake : y.wfgTake m t err = (b, true) := by rw [State.wfgTake_frame hflush hframe, State.wfgTaken_eq hset, ← hb]
    exact State.wfgSample_plain hen hy htake hc

end Sys2Proof.Machine
end

section
/-! PROOFS. The states of the site link and the frames it makes of its own (R311, R312, R314, R318, R319, R321). -/

namespace Sys2Proof.Machine

/-! ## Registers of the site link -/

theorem locate_slk {a : Nat} (h : 0x90000 ≤ a) (h' : a < 0xA0000) : locate a = some (.slk, 0, a - 0x90000) := by
  have hk : a / 0x10000 = 9 := by omega
  have ho : a % 0x10000 = a - 0x90000 := by omega
  rw [locate, if_pos (by omega), hk, ho]
  rfl

/-- The site link runs on no domain PLL. -/
theorem State.clockWaits_slk (s : State) {a : Nat} (h : 0x90000 ≤ a) (h' : a < 0xA0000) : s.clockWaits a = false := by
  rw [State.clockWaits, State.clockAt, locate_slk h h']

/-- A write of a register of the site link is made where no other waits. -/
theorem State.regCmd_slk {s : State} {a u o : Nat} {r : Reg} {v : Word} (h : 0x90000 ≤ a) (h' : a < 0xA0000)
    (he : s.csrError a true = false) (hw : s.waits = []) (hr : regAt a = some (.slk, u, o, r)) (hp : pairAt .slk o ≠ some true)
    (hp' : pairHigh .slk o = false) : s.regCmd a v = s.slkWrite o a r v := by
  obtain ⟨hfreeze, hclock⟩ := not_goes_of_global (show 0x10000 ≤ a by omega) (show a < 0xA0000 by omega)
  rw [State.regCmd_of_plain he hfreeze hclock,
    State.regWrite_of_goes hw he (State.writeWaits_of_clockWaits_eq_false (s.clockWaits_slk h h')) hr, State.csrPut, if_neg hp,
    if_neg (by rw [hp']; exact Bool.false_ne_true), State.blkWrite]

section
variable {s u : State} {v : Word}

/-! ## Writes of SLK_CTL (R311, R314) -/

section
variable (herr : s.csrError SLK_CTL true = false) (hen : s.on SLK_CTL_en = false)
  (hu : u = (s.put SLK_CTL_position (bitsOf v.toNat 8 5)).put SLK_CTL_members (bitsOf v.toNat 16 6))
include hen hu

/-- While en is 0, position and members are taken first. -/
theorem State.slkCtl_off (r : Bool) : s.slkCtl (withBit v 0 r) = if r then u.slkEnable else u := by
  have hpos := bitsOf_withBit_of_lt (v := v) (i := 0) (b := r) (show 0 < 8 by decide) (show 8 + 5 ≤ 32 by decide)
  have hmem := bitsOf_withBit_of_lt (v := v) (i := 0) (b := r) (show 0 < 16 by decide) (show 16 + 6 ≤ 32 by decide)
  have hrun : bit (withBit v 0 r).toNat 0 = r := by rw [bit_withBit v r (by decide), if_pos rfl]
  simp only [State.slkCtl, hen, Bool.false_eq_true, if_false, hpos, hmem, hrun, ← hu]

include herr

theorem exec_slkEnable_off : exec (.slkEnable v) s =
    .next (if u.get SLK_STATUS_state = 0 then (u.put SLK_CTL_en 1).put SLK_STATUS_state 1 else u.put SLK_CTL_en 1) :=
  congrArg finish ((State.atReg_of_csrError_eq_false _ herr).trans (State.slkCtl_off hen hu true))

theorem exec_slkDisable_off : exec (.slkDisable v) s = .next u :=
  congrArg finish ((State.atReg_of_csrError_eq_false _ herr).trans (State.slkCtl_off hen hu false))

end

section
variable (herr : s.csrError SLK_CTL true = false) (hen : s.on SLK_CTL_en = true)
include hen

/-- While en is 1, a write only can clear it. -/
theorem State.slkCtl_on (r : Bool) : s.slkCtl (withBit v 0 r) = if r then s else s.slkDisable.x9All := by
  have hrun : bit (withBit v 0 r).toNat 0 = r := by rw [bit_withBit v r (by decide), if_pos rfl]
  simp only [State.slkCtl, hen, if_true, hrun]

include herr

theorem exec_slkEnable_on : exec (.slkEnable v) s = .next s :=
  congrArg finish ((State.atReg_of_csrError_eq_false _ herr).trans (State.slkCtl_on hen true))

theorem exec_slkDisable_on : exec (.slkDisable v) s = .next s.slkDisable.x9All :=
  congrArg finish ((State.atReg_of_csrError_eq_false _ herr).trans (State.slkCtl_on hen false))

end

theorem State.slkDisable_eq (hu : u = ((((s.put SLK_CTL_en 0).put SLK_STATUS_state 0).put SLK_STATUS_fault_code 0).put
      SLK_STATUS_aligned 0).setSlk { s.slk with breakDue := false, own := [] }) :
    s.slkDisable = if s.get SLK_STATUS_state = 3 then u.slkLeaveUp else u := by
  simp only [State.slkDisable, State.put_slk, ← hu, decide_eq_true_eq]

/-! ## Alignment of the input (R311, R314) -/

theorem State.slkEnterForm_breakDue (s : State) : s.slkEnterForm.slk.breakDue = s.slk.breakDue := rfl

section
variable (hst : s.get SLK_STATUS_state = 1) (hu : u = (s.put SLK_STATUS_aligned 1).slkEnterForm)
include hst hu

theorem State.slkAligned_lost : s.slkAligned = if s.slk.breakDue then (u.setSlk { u.slk with breakDue := false }).slkOwn 4 [0] else u := by
  have hdue : u.slk.breakDue = s.slk.breakDue := by rw [hu, State.slkEnterForm_breakDue, State.put_slk]
  simp only [State.slkAligned, hst, ← hu, hdue, Nat.one_ne_zero, if_false, ne_eq, not_true_eq_false]

end

theorem State.slkInputLost_form (hst : s.get SLK_STATUS_state = 2) (hu : u = s.put SLK_STATUS_aligned 0) :
    s.slkInputLost = (u.setSlk { u.slk with own := [] }).put SLK_STATUS_state 1 := by
  simp only [State.slkInputLost, hst, ← hu]

theorem State.slkInputLost_up (hst : s.get SLK_STATUS_state = 3) (hu : u = (s.put SLK_STATUS_aligned 0).put SLK_STATUS_state 1) :
    s.slkInputLost = (u.setSlk { u.slk with breakDue := true }).slkLeaveUp := by
  simp only [State.slkInputLost, hst, hu, State.put_slk]

/-! ## Local votes and open rounds (R318, R319) -/

section
variable {p round : Nat} {fail : Bool} {rest : List (Nat × Nat × Bool)} {site : Nat} {others : List SlkLocal} {y : SlkLocal}
  (hq : s.voteQ = (p, round, fail) :: rest) (hsite : site = s.cs.site.getD p 0)
  (hothers : others = s.slk.locals.filter (fun x => !(decide (x.site = site) && decide (x.round = round))))
  (hy : y = (s.slk.locals.find? (fun x => decide (x.site = site) && decide (x.round = round))).getD
    { site := site, round := round, ports := 0, fail := false })
include hq hsite hothers hy

theorem State.slkLocalVote_open (h : (y.ports ||| 2 ^ p) &&& s.slkMembersOf site ≠ s.slkMembersOf site) :
    s.slkLocalVote = { s with voteQ := rest, slk := { s.slk with
      locals := others ++ [{ y with ports := y.ports ||| 2 ^ p, fail := y.fail || fail }] } } := by
  simp only [State.slkLocalVote, hq, ← hsite, ← hothers, ← hy, if_pos h, State.setSlk]

theorem State.slkLocalVote_full (h : (y.ports ||| 2 ^ p) &&& s.slkMembersOf site = s.slkMembersOf site)
    (hu : u = { s with voteQ := rest, slk := { s.slk with locals := others } }) :
    s.slkLocalVote = (if s.get SLK_STATUS_state = 3 then u.slkOwn 1 (leBytes site 1 ++ leBytes round 1 ++
      leBytes (if y.fail || fail then 1 else 0) 1) else u).slkHold site round s.slkPos (y.fail || fail) := by
  simp only [State.slkLocalVote, hq, ← hsite, ← hothers, ← hy, h, ne_eq, not_true_eq_false, if_false, State.setSlk, ← hu]

end

theorem State.slkRoundTimeout_open {site round : Nat} {r : SlkRound}
    (hr : s.slk.rounds.find? (fun r => decide (r.site = site) && decide (r.round = round)) = some r)
    (hu : u = (s.advanceTo (r.openAt + s.slkTmo)).slkForm site round true 1) :
    s.slkRoundTimeout site round = if s.get SLK_STATUS_state = 3 then u.slkOwn 5 (leBytes site 1 ++ leBytes round 1) else u := by
  simp only [State.slkRoundTimeout, hr, ← hu]

/-! ## A write of SLK_TH_CTL.send = 1 (R321) -/

theorem State.slkWrite_send {a : Nat} {r : Reg} : s.slkWrite 0x024 a r (withBit v 0 true) =
    (s.plainWrite a r (withBit v 0 true)).slkThSend := by
  have hrun : bit (withBit v 0 true).toNat 0 = true := by rw [bit_withBit v true (by decide), if_pos rfl]
  rw [State.slkWrite, if_neg (by decide), if_neg (fun h => absurd h.1 (by decide)), if_neg (fun h => absurd h.1 (by decide)), if_pos rfl,
    hrun]
  exact if_pos rfl

theorem State.slkThSend_up (hst : u.get SLK_STATUS_state = 3) (hb : u.on SLK_TH_CTL_busy = false) :
    u.slkThSend = (u.put SLK_TH_CTL_busy 1).slkOwn 3 (leBytes (u.get SLK_TH_CTL_site) 1 ++
      leBytes (u.get SLK_TH_CTL_arm) 1 ++ beBytes (u.rn64 SLK_TH_TS_LO) 8 ++ beBytes (u.get SLK_TH_EP_epoch) 2) :=
  if_pos ⟨hst, by rw [hb]; rfl⟩

end

/-- Settles O31: each event goes by the link's state, which the hypotheses give. -/
theorem siteLinkStates : Obligations.SiteLinkStates := by
  refine fun s u v => ⟨fun herr hen hu => ⟨exec_slkEnable_off herr hen hu, exec_slkDisable_off herr hen hu⟩,
    fun herr hen hu => ⟨exec_slkEnable_on herr hen, ?disable⟩, fun hst hu => ⟨fun hd => ?aligned, fun hd => ?alignedBreak⟩,
    fun hst hu => congrArg (fun t : State => finish t.x9All) (State.slkInputLost_form hst hu),
    fun hst hu => congrArg (fun t : State => finish t.x9All) (State.slkInputLost_up hst hu),
    fun hst => congrArg finish (if_pos hst),
    fun p round fail rest site others y hq hsite hothers hy =>
      ⟨fun h => congrArg (fun t : State => finish t.x9All) (State.slkLocalVote_open hq hsite hothers hy h),
        fun h hu => congrArg (fun t : State => finish t.x9All) (State.slkLocalVote_full hq hsite hothers hy h hu)⟩,
    fun site round r hr hu => congrArg (fun t : State => finish t.x9All) (State.slkRoundTimeout_open hr hu),
    fun r herr hw hr hu hst hb => ?send, fun site round => rfl, fun hb => congrArg finish (if_pos hb)⟩
  case disable => rw [exec_slkDisable_on herr hen, State.slkDisable_eq hu]
  case aligned => exact congrArg finish ((State.slkAligned_lost hst hu).trans (if_neg (by rw [hd]; exact Bool.false_ne_true)))
  case alignedBreak => exact congrArg finish ((State.slkAligned_lost hst hu).trans (if_pos hd))
  case send =>
    have hreg : s.regCmd SLK_TH_CTL (withBit v 0 true) = u.slkThSend :=
      (State.regCmd_slk (by decide) (by decide) herr hw hr (by decide) (by decide)).trans (State.slkWrite_send.trans (by rw [hu]))
    exact congrArg finish (hreg.trans (State.slkThSend_up hst hb))

end Sys2Proof.Machine
end

section
/-! PROOFS. Received frames of the site link, the rounds it holds, and the verdicts that form (R312 to R316, R319 to R321). -/

namespace Sys2Proof.Machine

/-! ## Received frames (R313, R315, R316) -/

section
variable {s u : State} {typ : Nat} {l : List Byte}

/-- What a received frame does to the link's state before its effect: own frames go, and the frame is forwarded with its error mark. -/
def State.slkPassed (s : State) (l : List Byte) (err : Bool) : State :=
  if s.slkDrain.slkForwards l && decide (byteAt l 2 % 64 + 1 < s.slkDrain.slkMembers) && decide (3 < l.length) then
    s.slkDrain.slkForward (forwarded l) err
  else s.slkDrain

/-- A frame in which an error is found is counted and has no other effect. -/
theorem State.slkFrame_bad {clean : Bool} (hst : 2 ≤ s.get SLK_STATUS_state)
    (hbad : clean = false ∨ crc16 l ≠ 0 ∨ l.length ≠ frameLength typ) :
    s.slkFrame typ l clean = ((s.slkPassed l true).count SLK_CRC_ERR).ev 500 := by
  have hb : (!clean || decide (crc16 l ≠ 0) || decide (l.length ≠ frameLength typ)) = true := by
    rcases hbad with h | h | h <;> simp [h]
  have hgo : ¬ (s.get SLK_STATUS_state < 2 ∨ ((!true) = true ∧ byteAt l 0 ≠ typ)) := by
    rintro (h | ⟨h, -⟩)
    · omega
    · cases h
  simp only [State.slkFrame, hb, if_neg hgo, if_true, State.slkPassed]

/-- The effect of a clean frame that matches, by its type. -/
def State.slkEffect (s : State) (typ : Nat) (l : List Byte) : State :=
  match typ with
  | 1 => s.slkHold (byteAt l 3) (byteAt l 4) (byteAt l 1 % 32) (bit (byteAt l 5) 0)
  | 2 => s.slkAnnounce l
  | 3 => s.slkTrailhead l
  | 4 => s.slkBreak
  | _ => s.slkAbandon l

section
variable (hst : s.get SLK_STATUS_state = 2 ∨ s.get SLK_STATUS_state = 3) (htyp : byteAt l 0 = typ) (hcrc : crc16 l = 0)
  (hlen : l.length = frameLength typ) (hmis : s.slkMismatch l = none) (hhops : byteAt l 2 % 64 < s.slkMembers)
include hst htyp hcrc hlen hmis hhops

theorem State.slkFrame_clean : s.slkFrame typ l true = (s.slkPassed l false).slkEffect typ l := by
  have hgood : (!true || decide (crc16 l ≠ 0) || decide (l.length ≠ frameLength typ)) = false := by simp [hcrc, hlen]
  have hgo : ¬ (s.get SLK_STATUS_state < 2 ∨ ((!false) = true ∧ byteAt l 0 ≠ typ)) := by
    rintro (h | ⟨-, h⟩)
    · omega
    · exact h htyp
  have hfault : ¬ s.get SLK_STATUS_state = 4 := by omega
  have hin : ¬ s.slkMembers ≤ byteAt l 2 % 64 := by omega
  simp only [State.slkFrame, hgood, if_neg hgo, if_neg hfault, hmis, if_neg hin, Bool.false_eq_true, if_false]
  rfl

/-- Every frame of Table 10.2 is long enough to be forwarded. -/
theorem State.slkFrame_effect (hu : u = if s.slkDrain.slkForwards l = true ∧ byteAt l 2 % 64 + 1 < s.slkDrain.slkMembers
      then s.slkDrain.slkForward (forwarded l) false else s.slkDrain) (hlong : 3 < frameLength typ) :
    s.slkFrame typ l true = u.slkEffect typ l := by
  have hpass : s.slkPassed l false = u := by
    simp only [State.slkPassed, hu, hlen, hlong, decide_true, Bool.and_true, Bool.and_eq_true, decide_eq_true_eq]
  rw [State.slkFrame_clean hst htyp hcrc hlen hmis hhops, hpass]

end

/-! ## The effects, by type (R312, R314, R319, R321) -/

theorem State.slkAnnounce_own (h : byteAt l 1 % 32 = u.slkPos) : u.slkAnnounce l = (u.setSlk { u.slk with
    ownBack := true, rtt := min ((u.tmb.clk - u.slk.annAt) / tuPerNs) 0xFFFFFFFF }).slkFormed := by
  simp only [State.slkAnnounce, if_pos h]

theorem State.slkAnnounce_other (h : byteAt l 1 % 32 ≠ u.slkPos) :
    u.slkAnnounce l = (u.setSlk { u.slk with seen := u.slk.seen ||| 2 ^ (byteAt l 1 % 32) }).slkFormed := by
  simp only [State.slkAnnounce, if_neg h]

theorem State.slkTrailhead_other (h : byteAt l 1 % 32 ≠ u.slkPos) : u.slkTrailhead l =
    u.slkApply (byteAt l 3) (ofBe ((l.drop 5).take 8)) (ofBe ((l.drop 13).take 2)) (bit (byteAt l 4) 0) := by
  simp only [State.slkTrailhead, decide_eq_false h, Bool.false_eq_true, if_false]

theorem State.slkTrailhead_own (h : byteAt l 1 % 32 = u.slkPos) (hb : u.on SLK_TH_CTL_busy = true) : u.slkTrailhead l =
    (((u.slkApply (byteAt l 3) (ofBe ((l.drop 5).take 8)) (ofBe ((l.drop 13).take 2)) (bit (byteAt l 4) 0)).put
      SLK_TH_CTL_busy 0).put SLK_TH_CTL_done 1).ev 501 := by
  simp only [State.slkTrailhead, decide_eq_true h, hb, if_true]

theorem State.slkAbandon_open (h : (byteAt l 3, byteAt l 4) ∉ u.slk.closed) :
    u.slkAbandon l = u.slkForm (byteAt l 3) (byteAt l 4) true 4 :=
  if_neg fun hc => h (List.contains_iff_mem.mp hc)

end

/-! ## Rounds (R319, R320) -/

section
variable {s u : State} {site round pos : Nat} {fail : Bool}

theorem State.slkJudge_full {r : SlkRound} (h : r.votes &&& r.mask = r.mask) : u.slkJudge r = u.slkForm r.site r.round r.fail 0 :=
  if_pos h

theorem State.slkJudge_waits {r : SlkRound} (h : r.votes &&& r.mask ≠ r.mask) (hst : u.get SLK_STATUS_state = 3) : u.slkJudge r = u :=
  (if_neg h).trans (if_neg fun hne => hne.1 hst)

section
variable {r r1 : SlkRound}
  (hr : s.slk.rounds.find? (fun r => decide (r.site = site) && decide (r.round = round)) = some r)
include hr

theorem State.slkHold_outside (h : bit r.mask pos = false) : s.slkHold site round pos fail = s.count SLK_LATE := by
  simp only [State.slkHold, hr, h, Bool.not_false, if_true]

/-- A vote for a round that is held is added to it. -/
theorem State.slkHold_held (hr1 : r1 = { r with votes := r.votes ||| 2 ^ pos, fail := r.fail || fail })
    (hu : u = s.setSlk { s.slk with rounds := s.slk.rounds.map fun x => if x = r then r1 else x }) (h : bit r.mask pos = true) :
    s.slkHold site round pos fail = u.slkJudge r1 := by
  simp only [State.slkHold, hr, h, Bool.not_true, Bool.false_eq_true, if_false, ← hr1, ← hu]

theorem SlkRound.names_of_find? : r.site = site ∧ r.round = round := by
  have h := List.find?_some hr
  simpa using h

end

section
variable {mask : Nat} (hr : s.slk.rounds.find? (fun r => decide (r.site = site) && decide (r.round = round)) = none)
  (hmask : mask = s.rn (SLK_SITE_MASK site))
include hr hmask

theorem State.slkHold_late (h : (site, round) ∈ s.slk.closed ∨ bit mask pos = false) :
    s.slkHold site round pos fail = s.count SLK_LATE := by
  have hlate : s.slk.closed.contains (site, round) = true ∨ (!bit mask pos) = true :=
    h.imp List.contains_iff_mem.mpr fun h => by rw [h]; rfl
  simp only [State.slkHold, hr, ← hmask, if_pos hlate]

/-- A vote for a round that is new opens it, where there is room. -/
theorem State.slkHold_new (hroom : s.slk.rounds.length < 64) (hc : (site, round) ∉ s.slk.closed) (h : bit mask pos = true)
    (hu : u = s.setSlk { s.slk with rounds := s.slk.rounds ++ [{
      site := site, round := round, openAt := s.tmb.clk, mask := mask, votes := 2 ^ pos, fail := fail }] }) :
    s.slkHold site round pos fail = u.slkJudge {
      site := site, round := round, openAt := s.tmb.clk, mask := mask, votes := 2 ^ pos, fail := fail } := by
  have hgo : ¬ (s.slk.closed.contains (site, round) = true ∨ (!bit mask pos) = true) := by
    rintro (hin | hno)
    · exact hc (List.contains_iff_mem.mp hin)
    · rw [h] at hno
      cases hno
  simp only [State.slkHold, hr, ← hmask, if_neg hgo, if_neg (show ¬ 64 ≤ s.slk.rounds.length by omega), ← hu]

end

/-! ## Verdicts (R319, R320) -/

/-- A verdict reaches port `p`, where it listens. -/
def State.slkDeliverTo (site : Nat) (fail : Bool) (a : State) (p : Fin 8) : State :=
  if a.on (SLK_PORT_CFG_listen_en p) ∧ a.get (SLK_PORT_CFG_listen_site p) = site then
    if 16 ≤ a.port[p].x9.length then (a.count SLK_DELIV_DROP).ev 503
    else a.setPort p { a.port[p] with x9 := a.port[p].x9 ++ [(site, fail)] }
  else a

theorem State.slkDeliver_eq : s.slkDeliver site fail = (List.finRange 8).foldl (State.slkDeliverTo site fail) s := rfl

theorem State.slkDeliverTo_slk (a : State) (p : Fin 8) : (a.slkDeliverTo site fail p).slk = a.slk := by
  unfold State.slkDeliverTo
  split
  · split <;> rfl
  · rfl

theorem RegsKept.slkDeliverTo (a : State) (p : Fin 8) : RegsKept (· ≠ SLK_DELIV_DROP) a (a.slkDeliverTo site fail p) := by
  unfold State.slkDeliverTo
  split
  · split
    · exact (RegsKept.wn a _ fun x hx => hx).trans (.of_csr_eq rfl)
    · exact .of_csr_eq rfl
  · exact .refl a

theorem State.slkDeliverTo_port_ne (a : State) {p n : Fin 8} (h : n ≠ p) : (a.slkDeliverTo site fail n).port[p] = a.port[p] := by
  have hne : n.val ≠ p.val := fun hv => h (Fin.ext hv)
  unfold State.slkDeliverTo
  split
  · split
    · rfl
    · exact Vector.getElem_set_ne n.isLt p.isLt hne
  · rfl

theorem State.slkDeliverTo_listens {a : State} {p : Fin 8} (hen : a.on (SLK_PORT_CFG_listen_en p) = true)
    (hsite : a.get (SLK_PORT_CFG_listen_site p) = site) (hroom : a.port[p].x9.length < 16) :
    (a.slkDeliverTo site fail p).port[p].x9 = a.port[p].x9 ++ [(site, fail)] := by
  rw [State.slkDeliverTo, if_pos ⟨hen, hsite⟩, if_neg (by omega)]
  exact congrArg PortH.x9 (Vector.getElem_set_self _)

theorem RegsKept.get {P : Nat → Prop} {t : State} (h : RegsKept P s t) (hwf : cellsWf regReset s.csr = true) {f : Fld} (hf : P f.addr) :
    t.get f = s.get f := by
  rw [State.get, State.rn, h.rd hwf _ hf, State.get, State.rn]

theorem State.slkDeliver_slk : (s.slkDeliver site fail).slk = s.slk :=
  List.foldlRecOn (motive := fun a : State => a.slk = s.slk) (List.finRange 8) (State.slkDeliverTo site fail) rfl
    fun a ha p _ => (a.slkDeliverTo_slk p).trans ha

theorem RegsKept.slkDeliver : RegsKept (· ≠ SLK_DELIV_DROP) s (s.slkDeliver site fail) :=
  RegsKept.foldl RegsKept.slkDeliverTo _ s

/-- A verdict enters X9 of every port that listens to its site and has room. -/
theorem State.slkDeliver_listens {p : Fin 8} (hwf : cellsWf regReset s.csr = true) (hen : s.on (SLK_PORT_CFG_listen_en p) = true)
    (hsite : s.get (SLK_PORT_CFG_listen_site p) = site) (hroom : s.port[p].x9.length < 16) :
    (s.slkDeliver site fail).port[p].x9 = s.port[p].x9 ++ [(site, fail)] := by
  have hcfg : SLK_PORT_CFG p ≠ SLK_DELIV_DROP := by simp only [SLK_PORT_CFG, SLK_DELIV_DROP]; omega
  have hget (a : State) (hk : RegsKept (· ≠ SLK_DELIV_DROP) s a) (hp : a.port[p] = s.port[p]) :
      (a.slkDeliverTo site fail p).port[p].x9 = s.port[p].x9 ++ [(site, fail)] := by
    have hen' : a.on (SLK_PORT_CFG_listen_en p) = true := by
      rw [State.on, hk.get hwf (f := SLK_PORT_CFG_listen_en p) hcfg]
      exact hen
    rw [State.slkDeliverTo_listens hen' ((hk.get hwf (f := SLK_PORT_CFG_listen_site p) hcfg).trans hsite) (by rw [hp]; exact hroom), hp]
  rw [State.slkDeliver_eq]
  exact foldl_establishes (P := fun a : State => RegsKept (· ≠ SLK_DELIV_DROP) s a ∧ a.port[p] = s.port[p])
    (Q := fun a : State => a.port[p].x9 = s.port[p].x9 ++ [(site, fail)]) (List.nodup_finRange 8) (List.mem_finRange p)
    (fun a n hn ha => ⟨ha.1.trans (.slkDeliverTo a n), (a.slkDeliverTo_port_ne hn).trans ha.2⟩) (fun a ha => hget a ha.1 ha.2)
    (fun a n hn ha => (congrArg PortH.x9 (a.slkDeliverTo_port_ne hn)).trans ha) ⟨.refl s, rfl⟩

/-- What SLK_LAST_VERDICT shows of a verdict (Table 10.8). -/
def verdictWord (site round : Nat) (fail : Bool) (cause : Nat) : Nat :=
  site % 256 + 256 * (round % 256) + (if fail then 0x10000 else 0) + 0x20000 * (cause % 8)

theorem verdictWord_lt (cause : Nat) : verdictWord site round fail cause < 2 ^ 32 := by
  unfold verdictWord
  split <;> omega

/-- A round that forms is closed, shown and counted, before its verdict is delivered. -/
def State.slkRecorded (s : State) (site round : Nat) (fail : Bool) (cause : Nat) : State :=
  let a := (s.setSlk { s.slk with
    rounds := s.slk.rounds.filter fun r => !(decide (r.site = site) && decide (r.round = round))
    closed := s.slk.closed ++ [(site, round)] }).wn SLK_LAST_VERDICT (verdictWord site round fail cause)
  if cause = 0 then a else (a.count SLK_TMO_CNT).ev 499

theorem State.slkForm_eq (cause : Nat) : s.slkForm site round fail cause = (s.slkRecorded site round fail cause).slkDeliver site fail := rfl

theorem State.slkRecorded_slk (cause : Nat) : (s.slkRecorded site round fail cause).slk = { s.slk with
    rounds := s.slk.rounds.filter fun r => !(decide (r.site = site) && decide (r.round = round))
    closed := s.slk.closed ++ [(site, round)] } := by
  unfold State.slkRecorded
  split <;> rfl

theorem State.slkRecorded_port (cause : Nat) : (s.slkRecorded site round fail cause).port = s.port := by
  unfold State.slkRecorded
  split <;> rfl

theorem RegsKept.slkRecorded (cause : Nat) :
    RegsKept (fun a => a ≠ SLK_LAST_VERDICT ∧ a ≠ SLK_TMO_CNT) s (s.slkRecorded site round fail cause) := by
  have hshown (x : SlkH) : RegsKept (fun a => a ≠ SLK_LAST_VERDICT ∧ a ≠ SLK_TMO_CNT) s
      ((s.setSlk x).wn SLK_LAST_VERDICT (verdictWord site round fail cause)) := by
    have hset : RegsKept (fun a => a ≠ SLK_LAST_VERDICT ∧ a ≠ SLK_TMO_CNT) s (s.setSlk x) := .of_csr_eq rfl
    exact hset.trans (.wn _ _ fun a ha => ha.1)
  unfold State.slkRecorded
  split
  · exact hshown _
  · exact ((hshown _).trans (.wn _ _ fun a ha => ha.2)).trans (.of_csr_eq rfl)

theorem State.slkRecorded_shows (cause : Nat) (hwf : cellsWf regReset s.csr = true) :
    (s.slkRecorded site round fail cause).rn SLK_LAST_VERDICT = verdictWord site round fail cause := by
  have hshown (x : SlkH) : ((s.setSlk x).wn SLK_LAST_VERDICT (verdictWord site round fail cause)).rn SLK_LAST_VERDICT =
      verdictWord site round fail cause := State.rn_wn_self (s := s.setSlk x) hwf (verdictWord_lt cause)
  have hcounted (x : SlkH) : cellsWf regReset ((s.setSlk x).wn SLK_LAST_VERDICT (verdictWord site round fail cause)).csr = true :=
    State.wn_csr_wf (s := s.setSlk x) hwf
  unfold State.slkRecorded
  split
  · exact hshown _
  · exact (State.rn_congr rfl _).trans ((State.rn_wn_ne (hcounted _) (by decide)).trans (hshown _))

section
variable {t : State} {cause : Nat} (ht : t = s.slkForm site round fail cause)
include ht

theorem State.slkForm_slk : t.slk = { s.slk with
    rounds := s.slk.rounds.filter fun r => !(decide (r.site = site) && decide (r.round = round))
    closed := s.slk.closed ++ [(site, round)] } := by
  rw [ht, State.slkForm_eq, State.slkDeliver_slk, State.slkRecorded_slk]

theorem State.slkForm_closes : (site, round) ∈ t.slk.closed := by
  rw [State.slkForm_slk ht]
  exact List.mem_append_right _ (List.mem_singleton_self _)

theorem State.slkForm_rounds {r : SlkRound} (hr : r ∈ t.slk.rounds) : r ∈ s.slk.rounds ∧ (r.site, r.round) ≠ (site, round) := by
  rw [State.slkForm_slk ht] at hr
  obtain ⟨hmem, hother⟩ := List.mem_filter.mp hr
  refine ⟨hmem, fun heq => ?_⟩
  obtain ⟨hsite, hround⟩ := Prod.mk.inj heq
  simp [hsite, hround] at hother

theorem State.slkForm_shows (hwf : cellsWf regReset s.csr = true) : t.rn SLK_LAST_VERDICT = verdictWord site round fail cause := by
  have hrec : cellsWf regReset (s.slkRecorded site round fail cause).csr = true := (RegsKept.slkRecorded cause).wf hwf
  rw [ht, State.slkForm_eq, State.rn, RegsKept.slkDeliver.rd hrec _ (by decide)]
  exact State.slkRecorded_shows cause hwf

theorem State.slkForm_listens {p : Fin 8} (hwf : cellsWf regReset s.csr = true) (hen : s.on (SLK_PORT_CFG_listen_en p) = true)
    (hsite : s.get (SLK_PORT_CFG_listen_site p) = site) (hroom : s.port[p].x9.length < 16) :
    t.port[p].x9 = s.port[p].x9 ++ [(site, fail)] := by
  have hk : RegsKept (fun a => a ≠ SLK_LAST_VERDICT ∧ a ≠ SLK_TMO_CNT) s (s.slkRecorded site round fail cause) := .slkRecorded cause
  have hcfg : SLK_PORT_CFG p ≠ SLK_LAST_VERDICT ∧ SLK_PORT_CFG p ≠ SLK_TMO_CNT := by
    constructor <;> simp only [SLK_PORT_CFG, SLK_LAST_VERDICT, SLK_TMO_CNT] <;> omega
  have hport : (s.slkRecorded site round fail cause).port[p].x9 = s.port[p].x9 := by rw [State.slkRecorded_port]
  have hen' : (s.slkRecorded site round fail cause).on (SLK_PORT_CFG_listen_en p) = true := by
    rw [State.on, hk.get hwf (f := SLK_PORT_CFG_listen_en p) hcfg]
    exact hen
  rw [ht, State.slkForm_eq, State.slkDeliver_listens (hk.wf hwf) hen'
    ((hk.get hwf (f := SLK_PORT_CFG_listen_site p) hcfg).trans hsite) (by rw [hport]; exact hroom), hport]

end

end

/-- Settles O32: a clean frame that matches has its type's effect; votes open, fill or miss a round; a formed round leaves and is shown. -/
theorem siteLinkReceives : Obligations.SiteLinkReceives := by
  refine ⟨fun s u typ l hst htyp hcrc hlen hu hmis hhops => ?frames,
    fun s site round pos fail => ⟨fun r r1 u hr hr1 hu => ⟨fun h => ?outside, fun h hf => ?fills, fun h hw hst => ?added⟩,
      fun mask u hr hmask hroom hu => ⟨fun h => ?late, fun hc h hf => ?formsAtOnce, fun hc h hw hst => ?opens⟩,
      fun cause t ht => ⟨State.slkForm_closes ht, fun r hr => State.slkForm_rounds ht hr,
        fun hc => State.slkForm_shows ht (State.csr_wf_of_canonical hc),
        fun p hen hsite hc hroom => State.slkForm_listens ht (State.csr_wf_of_canonical hc) hen hsite hroom⟩⟩,
    fun s l clean hst t ht => ?bad⟩
  case frames =>
    have heff (hlong : 3 < frameLength typ) : s.slkFrame typ l true = u.slkEffect typ l :=
      State.slkFrame_effect hst htyp hcrc hlen hmis hhops hu hlong
    refine ⟨?vote, ?annOwn, ?annOther, ?thOther, ?thOwn, ?brk, ?abandon⟩
    case vote => rintro rfl; exact congrArg (fun a : State => finish a.x9All) (heff (by decide))
    case annOwn =>
      rintro rfl ho
      exact congrArg (fun a : State => finish a.x9All) ((heff (by decide)).trans (State.slkAnnounce_own ho))
    case annOther =>
      rintro rfl ho
      exact congrArg (fun a : State => finish a.x9All) ((heff (by decide)).trans (State.slkAnnounce_other ho))
    case thOther =>
      rintro rfl ho
      exact congrArg (fun a : State => finish a.x9All) ((heff (by decide)).trans (State.slkTrailhead_other ho))
    case thOwn =>
      rintro rfl ho hb
      exact congrArg (fun a : State => finish a.x9All) ((heff (by decide)).trans (State.slkTrailhead_own ho hb))
    case brk => rintro rfl hup; exact congrArg (fun a : State => finish a.x9All) ((heff (by decide)).trans (if_pos hup))
    case abandon =>
      rintro rfl ho
      exact congrArg (fun a : State => finish a.x9All) ((heff (by decide)).trans (State.slkAbandon_open ho))
  case outside => exact State.slkHold_outside hr h
  case fills =>
    obtain ⟨hsite, hround⟩ := SlkRound.names_of_find? hr
    have hfull : r1.votes &&& r1.mask = r1.mask := by rw [show r1.mask = r.mask by rw [hr1]]; exact hf
    rw [State.slkHold_held hr hr1 hu h, State.slkJudge_full hfull, hr1, hsite, hround]
  case added =>
    have hwait : r1.votes &&& r1.mask ≠ r1.mask := by rw [show r1.mask = r.mask by rw [hr1]]; exact hw
    rw [State.slkHold_held hr hr1 hu h]
    exact State.slkJudge_waits hwait (by rw [hu]; exact hst)
  case late => exact State.slkHold_late hr hmask h
  case formsAtOnce => exact (State.slkHold_new hr hmask hroom hc h hu).trans (State.slkJudge_full hf)
  case opens => exact (State.slkHold_new hr hmask hroom hc h hu).trans (State.slkJudge_waits hw (by rw [hu]; exact hst))
  case bad =>
    have hbad (typ : Nat) (h : clean = false ∨ crc16 l ≠ 0 ∨ l.length ≠ frameLength typ) : (s.slkFrame typ l clean).x9All = t := by
      rw [State.slkFrame_bad hst h, ht, State.slkPassed]
    exact ⟨fun h => congrArg finish (hbad 1 h), fun h => congrArg finish (hbad 2 h), fun h => congrArg finish (hbad 3 h),
      fun h => congrArg finish (hbad 4 h), fun h => congrArg finish (hbad 5 h)⟩

end Sys2Proof.Machine
end

section
/-! PROOFS. The task pool, templates, bindings and ticks of the scheduler (R324 to R330, R336). -/

namespace Sys2Proof.Machine

section
variable {s u : State} {i : Nat}

/-! ## A read of SCH_ALLOC (R326) -/

theorem State.csrRead_alloc (m : Nat) (h : s.csrError SCH_ALLOC false = false) : (s.csrRead m SCH_ALLOC).2 = s.schAlloc := by
  obtain ⟨r, hr⟩ := regAt_of_csrError_eq_false (locate_sch (a := SCH_ALLOC) (by decide) (by decide)) h
  simp only [State.csrRead, h, hr, Bool.false_eq_true, if_false, if_true]

/-! ## Writes of SCH_SUBMIT (R326, R336) -/

section
variable {slot : BitVec 13} (herr : s.csrError SCH_SUBMIT true = false) (hi : i = slot.toNat)
include herr hi

theorem exec_taskSubmit : exec (.taskSubmit slot) s = .next (s.taskSubmit i) :=
  hi ▸ congrArg finish (State.atReg_of_csrError_eq_false (fun s : State => s.taskSubmit slot.toNat) herr)

theorem exec_taskCancel : exec (.taskCancel slot) s = .next (s.taskCancel i) :=
  hi ▸ congrArg finish (State.atReg_of_csrError_eq_false (fun s : State => s.taskCancel slot.toNat) herr)

theorem exec_slotReturn : exec (.slotReturn slot) s = .next (s.slotReturn i) :=
  hi ▸ congrArg finish (State.atReg_of_csrError_eq_false (fun s : State => s.slotReturn slot.toNat) herr)

end

/-! ## Creation (R327, R348) -/

theorem State.createTask_eq {n : Nat} {d : Desc} {par : List Byte} {t : Task} (hu : (n, u) = s.takeSeq d.flow)
    (ht : t = { st := 4, d := d, param := par, seq := n, group := d.group, ord := u.sch.ord }) : s.createTask i d par =
      if d.wait = 0 then u.nextOrd.becomeReady i t else (u.nextOrd.putTask i t).serveSource d.source := by
  simp only [State.createTask, ← hu, ← ht, ne_eq, ite_not]

/-! ## A write of SCH_SUBMIT with op 1 (R326) -/

/-- The code of the first check that a submission fails (Table 11.2, log entry 20). -/
def State.submitCode (s : State) (i : Nat) (d : Desc) (par : List Byte) (tmpl : Bool) : Option Nat :=
  if s.slotState i ≠ 1 then some 1 else if s.descOk (s.bytes (s.slotAddr i) 64) par = false then some 2
  else if d.group < 4 ∧ s.groupOn d.group = false then some 4
  else if d.flow ≠ 0xFFFF ∧ (256 ≤ d.flow ∨ s.on (SCH_FLOW_CFG_en d.flow) = false) then some 5
  else if tmpl = false ∧ d.flow < 256 ∧ 128 ≤ s.flowHeld d.flow then some 3 else none

/-- What an accepted submission does: a template, a delayed task, or a task created at once. -/
def State.submitted (s : State) (i : Nat) (d : Desc) (par : List Byte) (tmpl : Bool) : State :=
  if tmpl then s.putTask i { st := 2, d := d, param := par, group := d.group, left := d.delay }
  else if d.start = 2 then
    let x := s.takeSeq d.flow
    (x.2.putTask i { st := 3, d := d, param := par, seq := x.1, group := d.group, left := d.delay, ord := x.2.sch.ord }).nextOrd
  else s.createTask i d par

section
variable {d : Desc} {par : List Byte} {tmpl : Bool} (hd : d = Desc.ofBytes (s.bytes (s.slotAddr i) 64))
  (hpar : par = s.bytes d.param (min d.plen 8200)) (htmpl : tmpl = (decide (d.start = 1) || (decide (d.start = 2) && decide (1 ≤ d.period))))
include hd hpar htmpl

/-- A submission is judged, then made. -/
theorem State.taskSubmit_eq : s.taskSubmit i = match s.submitCode i d par tmpl with
    | some c => ((s.count SCH_REFUSE_CNT).ev 450).schResult i c
    | none => (s.submitted i d par tmpl).schResult i 0 := by
  by_cases h1 : s.slotState i ≠ 1
  · simp only [State.taskSubmit, State.submitCode, if_pos h1]
  by_cases h2 : s.descOk (s.bytes (s.slotAddr i) 64) par = false
  · simp only [State.taskSubmit, State.submitCode, ← hd, ← hpar, if_neg h1, Bool.not_eq_true', if_pos h2]
  by_cases h4 : d.group < 4 ∧ s.groupOn d.group = false
  · simp only [State.taskSubmit, State.submitCode, ← hd, ← hpar, if_neg h1, Bool.not_eq_true', if_neg h2, if_pos h4]
  by_cases h5 : d.flow ≠ 0xFFFF ∧ (256 ≤ d.flow ∨ s.on (SCH_FLOW_CFG_en d.flow) = false)
  · simp only [State.taskSubmit, State.submitCode, ← hd, ← hpar, if_neg h1, Bool.not_eq_true', if_neg h2, if_neg h4, if_pos h5]
  by_cases h3 : tmpl = false ∧ d.flow < 256 ∧ 128 ≤ s.flowHeld d.flow
  · simp only [State.taskSubmit, State.submitCode, ← hd, ← hpar, ← htmpl, if_neg h1, Bool.not_eq_true', if_neg h2, if_neg h4, if_neg h5,
      if_pos h3]
  simp only [State.taskSubmit, State.submitCode, ← hd, ← hpar, ← htmpl, if_neg h1, Bool.not_eq_true', if_neg h2, if_neg h4, if_neg h5,
    if_neg h3, State.submitted]
  cases tmpl
  · by_cases hs : d.start = 2
    · simp only [if_pos hs, Bool.false_eq_true, if_false]
    · simp only [if_neg hs, Bool.false_eq_true, if_false]
  · simp only [if_true]

theorem State.taskSubmit_refused {c : Nat} (h : s.submitCode i d par tmpl = some c) :
    s.taskSubmit i = ((s.count SCH_REFUSE_CNT).ev 450).schResult i c := by
  rw [State.taskSubmit_eq hd hpar htmpl, h]

theorem State.taskSubmit_accepted (h : s.submitCode i d par tmpl = none) :
    s.taskSubmit i = (s.submitted i d par tmpl).schResult i 0 := by
  rw [State.taskSubmit_eq hd hpar htmpl, h]

end

section
variable {d : Desc} {par : List Byte}

theorem State.submitted_template : s.submitted i d par true =
    s.putTask i { st := 2, d := d, param := par, group := d.group, left := d.delay } := if_pos rfl

theorem State.submitted_delayed {n : Nat} (hs : d.start = 2) (hu : (n, u) = s.takeSeq d.flow) : s.submitted i d par false =
    (u.putTask i { st := 3, d := d, param := par, seq := n, group := d.group, left := d.delay, ord := u.sch.ord }).nextOrd := by
  simp only [State.submitted, Bool.false_eq_true, if_false, if_pos hs, ← hu]

theorem State.submitted_created (hs : d.start ≠ 2) : s.submitted i d par false = s.createTask i d par := by
  simp only [State.submitted, Bool.false_eq_true, if_false, if_neg hs]

end

/-! ## A write of SCH_SUBMIT with op 2 (R336) -/

section
variable {t : Task} (ht : s.task i = some t)
include ht

theorem State.taskCancel_template (h : t.st = 2) : s.taskCancel i = (((s.freeSlot i).count SCH_CANCEL_CNT).ev 449).schResult i 0 := by
  simp only [State.taskCancel, ht, h]

theorem State.taskCancel_delayed (h : t.st = 3) :
    s.taskCancel i = (((s.taskDone i { t with hole := true } 2).count SCH_CANCEL_CNT).ev 449).schResult i 0 := by
  simp only [State.taskCancel, ht, h]

theorem State.taskCancel_ready (h : t.st = 5) : s.taskCancel i =
    (((s.taskDone i { t with hole := true, started := false } 2).count SCH_CANCEL_CNT).ev 449).schResult i 0 := by
  simp only [State.taskCancel, ht, h]

theorem State.taskCancel_running (h : t.st = 6) :
    s.taskCancel i = ((((s.coreFree t.core 0).taskDone i t 2).count SCH_CANCEL_CNT).ev 449).schResult i 0 := by
  simp only [State.taskCancel, ht, h]

theorem State.taskCancel_done (h : t.st = 7) : s.taskCancel i = s.schResult i 6 := by
  simp only [State.taskCancel, ht, h]

end

theorem State.taskCancel_free (h : s.task i = none) : s.taskCancel i = s.schResult i 6 := by
  simp only [State.taskCancel, h]

/-! ## Bindings (R328, R329) -/

section
variable {k : Nat} {x : Nat × Option Nat} {t : Task} (hx : s.sch.binds.find? (fun x => decide (x.1 = k)) = some x)
  (hfirst : ∀ y, y ∈ s.sch.binds → y.1 < k → x.2 = none ∨ y.2 ≠ x.2)
  (hu : u = { s with sch := { s.sch with binds := s.sch.binds.erase x } })
  (ht : u.task (u.get (SCH_BIND_slot k)) = some t) (hst : t.st = 2)
include hx hfirst hu ht hst

/-- With no lower binding of the same cycle before it, the oldest occurrence fires its template. -/
theorem State.bindingFire_first : s.bindingFire k = u.cloneTask t := by
  have hgo : (x.2.isSome && s.sch.binds.any fun y => decide (y.1 < k) && decide (y.2 = x.2)) = false := by
    rw [Bool.and_eq_false_imp]
    intro hsome
    rw [List.any_eq_false]
    intro y hy
    rw [Bool.and_eq_true, decide_eq_true_eq, decide_eq_true_eq]
    rintro ⟨hlt, heq⟩
    rcases hfirst y hy hlt with hnone | hne
    · rw [hnone] at hsome
      cases hsome
    · exact hne heq
  simp only [State.bindingFire, hx, hgo, Bool.false_eq_true, if_false, State.setSch, ← hu, ht, if_pos hst]

end

theorem State.cloneTask_room {t : Task} (hfree : lowestFree 0 u.sch.tasks < 8192) (hflow : ¬(t.d.flow < 256 ∧ 128 ≤ u.flowHeld t.d.flow)) :
    u.cloneTask t = u.createTask (lowestFree 0 u.sch.tasks) t.d t.param :=
  if_neg fun h => h.elim (by omega) hflow

theorem State.cloneTask_full {t : Task} (hfull : 8192 ≤ lowestFree 0 u.sch.tasks) : u.cloneTask t = (u.count SCH_CLONE_FAIL).ev 451 :=
  if_pos (.inl hfull)

/-! ## Ticks (R330) -/

theorem State.schTick_runs (h : s.tmb.running = true) (hu : u = s.advanceTo s.nextTick) :
    s.schTick = (u.sch.tasks.map (·.1)).foldl (fun (a : State) i => a.tickSlot i)
      { u with sch := { u.sch with lastTick := some s.nextTick } } := by
  simp only [State.schTick, h, if_true, State.setSch, ← hu]

section
variable {t : Task} (ht : s.task i = some t) (hst : t.st = 3)
include ht hst

theorem State.tickSlot_counts (h : 1 < t.left) : s.tickSlot i = s.putTask i { t with left := t.left - 1 } := by
  simp only [State.tickSlot, ht, if_pos (Or.inl hst), if_pos h]

theorem State.tickSlot_ends (h : t.left ≤ 1) : s.tickSlot i = s.becomeReady i { t with left := 0 } := by
  simp only [State.tickSlot, ht, if_pos (Or.inl hst), if_neg (Nat.not_lt.mpr h), if_pos hst]

end

end

/-- Settles O33: a submission goes by the first check it fails and by its start, a cancel by the task's state. -/
theorem taskPoolAndTemplates : Obligations.TaskPoolAndTemplates := by
  refine ⟨fun s slot i hi => ⟨fun herr => congrArg finish (State.csrRead_alloc 8 herr), fun herr =>
      ⟨fun d par tmpl code hd hpar htmpl hcode => ⟨fun c hc => ?refused, fun hc ht => ?template, fun n u hc ht hs hu => ?delayed,
          fun n u hc ht hs hw hu => ?ready, fun n u hc ht hs hw hu => ?waits⟩,
        ?returned, fun t ht => ⟨fun h => ?cancelTemplate, fun h => ?cancelDelayed, fun h => ?cancelReady, fun h => ?cancelDone,
          fun h => ?cancelRunning⟩, fun ht => ?cancelFree⟩⟩,
    fun s u k x t hx hfirst hu ht hst => ⟨fun hfree hflow => ?fires, fun hfull => ?fails⟩,
    fun s u i n d par t hu ht => State.createTask_eq hu ht, fun s u hrun hu => congrArg finish (State.schTick_runs hrun hu),
    fun s i t ht hst => ⟨State.tickSlot_counts ht hst, State.tickSlot_ends ht hst⟩⟩
  case refused => rw [exec_taskSubmit herr hi, State.taskSubmit_refused hd hpar htmpl (hcode.symm.trans hc)]
  case template =>
    rw [exec_taskSubmit herr hi, State.taskSubmit_accepted hd hpar htmpl (hcode.symm.trans hc), ht, State.submitted_template]
  case delayed =>
    rw [exec_taskSubmit herr hi, State.taskSubmit_accepted hd hpar htmpl (hcode.symm.trans hc), ht, State.submitted_delayed hs hu]
  case ready =>
    rw [exec_taskSubmit herr hi, State.taskSubmit_accepted hd hpar htmpl (hcode.symm.trans hc), ht, State.submitted_created hs,
      State.createTask_eq hu rfl, if_pos hw]
  case waits =>
    rw [exec_taskSubmit herr hi, State.taskSubmit_accepted hd hpar htmpl (hcode.symm.trans hc), ht, State.submitted_created hs,
      State.createTask_eq hu rfl, if_neg hw]
  case returned => rw [exec_slotReturn herr hi, State.slotReturn]
  case cancelTemplate => rw [exec_taskCancel herr hi, State.taskCancel_template ht h]
  case cancelDelayed => rw [exec_taskCancel herr hi, State.taskCancel_delayed ht h]
  case cancelReady => rw [exec_taskCancel herr hi, State.taskCancel_ready ht h]
  case cancelDone => rw [exec_taskCancel herr hi, State.taskCancel_done ht h]
  case cancelRunning => rw [exec_taskCancel herr hi, State.taskCancel_running ht h]
  case cancelFree => rw [exec_taskCancel herr hi, State.taskCancel_free ht]
  case fires => exact congrArg finish ((State.bindingFire_first hx hfirst hu ht hst).trans (State.cloneTask_room hfree hflow))
  case fails => exact congrArg finish ((State.bindingFire_first hx hfirst hu ht hst).trans (State.cloneTask_full hfull))

end Sys2Proof.Machine
end

section
/-! PROOFS. Tasks that wait, are dispatched, finish and fail (R332, R335, R338, R341, R347, R349). -/

namespace Sys2Proof.Machine

section
variable {s u x : State} {i : Nat} {t : Task}

/-! ## The time-out of a wait (R332) -/

section
variable {j : Fin 48} {t2 : Task} (hhead : s.headOf j = some (i, t)) (htmo : t.d.wtmo ≠ 0)
  (hu : u = s.advanceTo (t.headAt.getD s.tmb.clk + t.d.wtmo * 8 * tuPerNs)) (hx : (x, t2) = u.claim j i t)
include hhead htmo hu hx

theorem State.taskTimeout_head : s.taskTimeout j = if t.d.wcount ≤ t2.items then (x.becomeReady i t2).serveSource j
    else (((x.becomeReady i { t2 with timedOut := true }).count SCH_TMO_CNT).ev 452).serveSource j := by
  simp only [State.taskTimeout, hhead, if_neg htmo, ← hu, ← hx]

end

/-! ## Dispatch (R335, R349) -/

section
variable {g room : Nat} (hen : s.on SCH_CTL_en = true) (hon : s.groupOn g = true)
  (hnext : s.blockedSlot g = some (i, t) ∨ s.blockedSlot g = none ∧ s.nextReady g = some (i, t))
  (hroom : room = if t.room = 0 then largestHamper t.d t.param else t.room)

include hnext in
/-- The task for which the group waits comes before the next READY one. -/
theorem State.dispatch_next : (s.blockedSlot g).orElse (fun _ => s.nextReady g) = some (i, t) := by
  rcases hnext with h | ⟨h, hr⟩
  · rw [h]
    rfl
  · rw [h]
    exact hr

include hen hon hnext hroom

section
variable (hfits : t.room ≠ 0 ∨ s.hamperUsed + room ≤ 0x10000 * s.get SCH_HAMPER_AREA_size)
include hfits

theorem State.dispatch_idle {c : Nat} (hc : s.idleCore g = some c) : s.dispatch g = (s.setBlocked g none).runOn i t g c room := by
  have hspace : ¬ (t.room = 0 ∧ 0x10000 * s.get SCH_HAMPER_AREA_size < s.hamperUsed + room) := by omega
  simp only [State.dispatch, hen, hon, Bool.not_true, Bool.or_self, Bool.false_eq_true, if_false, State.dispatch_next hnext, ← hroom,
    if_neg hspace, hc]

theorem State.dispatch_preempts {c : Nat} (hc : s.idleCore g = none) (hv : s.victim g t.d.prio = some c) :
    s.dispatch g = (((s.setBlocked g none).unrun c).count SCH_PREEMPT_CNT).runOn i t g c room := by
  have hspace : ¬ (t.room = 0 ∧ 0x10000 * s.get SCH_HAMPER_AREA_size < s.hamperUsed + room) := by omega
  simp only [State.dispatch, hen, hon, Bool.not_true, Bool.or_self, Bool.false_eq_true, if_false, State.dispatch_next hnext, ← hroom,
    if_neg hspace, hc, hv]

theorem State.dispatch_busy (hc : s.idleCore g = none) (hv : s.victim g t.d.prio = none) : s.dispatch g = s.setBlocked g none := by
  have hspace : ¬ (t.room = 0 ∧ 0x10000 * s.get SCH_HAMPER_AREA_size < s.hamperUsed + room) := by omega
  simp only [State.dispatch, hen, hon, Bool.not_true, Bool.or_self, Bool.false_eq_true, if_false, State.dispatch_next hnext, ← hroom,
    if_neg hspace, hc, hv]

end

theorem State.dispatch_waits (hr : t.room = 0) (hshort : 0x10000 * s.get SCH_HAMPER_AREA_size < s.hamperUsed + room)
    (hb : s.sch.blocked.lookup g ≠ some i) : s.dispatch g = (s.setBlocked g (some i)).ev 454 := by
  simp only [State.dispatch, hen, hon, Bool.not_true, Bool.or_self, Bool.false_eq_true, if_false, State.dispatch_next hnext, ← hroom,
    if_pos (And.intro hr hshort), if_neg hb]

end

/-! ## Ends of tasks (R341, R342, R347) -/

theorem State.taskFinish_done {c : Nat} {bad : List Nat} (hst : s.get (SCH_CORE_state c) = 1) (hi : i = s.get (SCH_CORE_slot c))
    (ht : s.task i = some t) (hchans : t.inputChans &&& s.frozenMask = 0) (hclocks : s.limitWaits t = false)
    (hmove : ∀ x, x ∈ s.jobSpans t → s.mayMove (22 + c / 4) x.1 x.2 = true) :
    s.taskFinish c bad = ((s.job i t bad).s.coreFree c 0).taskDone i { t with
        body := (s.job i t bad).body, records := (s.job i t bad).records, partialSpec := (s.job i t bad).partialSpec }
      (if (s.job i t bad).status = 0 ∧ t.items < t.d.wcount then 1 else (s.job i t bad).status) := by
  have hall : (s.jobSpans t).any (fun x => !s.mayMove (22 + c / 4) x.1 x.2) = false := by
    rw [List.any_eq_false]
    intro x hx
    rw [hmove x hx]
    decide
  rw [State.taskFinish, if_neg (not_not_intro hst), ← hi]
  simp only [ht, hchans, ne_eq, not_true_eq_false, if_false, hclocks, hall, Bool.or_self, Bool.false_eq_true]

theorem State.job_failCount {bad : List Nat} (h : t.d.kind = 1) : s.job i t bad = s.jobFailCount t := by
  simp only [State.job, h]

theorem State.taskError_running {c code detail addr : Nat} (hst : s.get (SCH_CORE_state c) = 1)
    (ht : s.task (s.get (SCH_CORE_slot c)) = some t) : s.taskError c code detail addr =
      ((((s.coreFree c (if code = 7 then 3 else 0)).taskDone (s.get (SCH_CORE_slot c))
        { t with body := errorRecord code detail addr, records := 1 } code).count SCH_ERR_CNT).put SCH_STATUS_error_seen 1).ev 448 := by
  simp only [State.taskError, if_pos hst, ht]

end

/-- Settles O34: each end of a task is one step of the scheduler, by its core, its room and its items. -/
theorem tasksRun : Obligations.TasksRun := by
  refine fun s => ⟨fun j i t u x t2 hhead htmo hu hx => ⟨fun h => ?timesOut, fun h => ?served⟩,
    fun g i t u room hen hon hnext hroom hu => ⟨fun hfits => ⟨fun c hc => ?idle, fun c hc hv => ?preempts, fun hc hv => ?busy⟩,
      fun hr hshort hb => congrArg finish (State.dispatch_waits hen hon hnext hroom hr hshort hb)⟩,
    fun c bad i t hst hi ht hchans hclocks hmove => congrArg finish (State.taskFinish_done hst hi ht hchans hclocks hmove),
    fun i t bad l n hk hl hn => ⟨?keeps, ?counts⟩, fun c trap detail addr t hst ht => ?error,
    fun c h => congrArg finish (if_pos h)⟩
  case timesOut => exact congrArg finish ((State.taskTimeout_head hhead htmo hu hx).trans (if_neg (Nat.not_le.mpr h)))
  case served => exact congrArg finish ((State.taskTimeout_head hhead htmo hu hx).trans (if_pos h))
  case idle => rw [hu]; exact congrArg finish (State.dispatch_idle hen hon hnext hroom hfits hc)
  case preempts => rw [hu]; exact congrArg finish (State.dispatch_preempts hen hon hnext hroom hfits hc hv)
  case busy => rw [hu]; exact congrArg finish (State.dispatch_busy hen hon hnext hroom hfits hc hv)
  case keeps => rw [State.job_failCount hk]; rfl
  case counts => rw [State.job_failCount hk, hl, hn]; rfl
  case error =>
    have hcore : (if (if trap then 7 else 3) = 7 then 3 else 0) = if trap then 3 else 0 := by cases trap <;> rfl
    rw [← hcore]
    exact congrArg finish (State.taskError_running hst ht)

end Sys2Proof.Machine
end

section
/-! PROOFS. The Ethernet ports below a session (R394 to R396, R421). -/

namespace Sys2Proof.Machine

section
variable {s u : State} {p : Fin 2}

/-! ## Requests for an own address (R395) -/

section
variable {mac ip target : Nat} (hl : s.linkUp p = true) (hu : (u, true) = (s.rxCount p).police p mac)
include hl hu

theorem State.arpRequest_own (hv : u.on (NET_PORT_STATUS_v4_valid p) = true) (ht : target = u.ip4Of p) :
    s.arpRequest p target mac ip = u.transmit p (.arpReply p mac ip) := by
  simp only [State.arpRequest, hl, ← hu, hv, decide_eq_true ht, Bool.not_true, Bool.false_eq_true, if_false, Bool.and_true, if_true]

theorem State.neighbourSolicitation_own (ho : u.ownIp6 p target = true) :
    s.neighbourSolicitation p target mac ip = u.transmit p (.advert p mac ip) := by
  simp only [State.neighbourSolicitation, hl, ← hu, ho, Bool.not_true, Bool.false_eq_true, if_false, Bool.and_true, if_true]

theorem State.icmpEcho_own {v6 : Bool} {l : List Byte} (hr : u.boot.stage = 4) (ho : u.ownIp p v6 target = true) :
    s.icmpEcho p v6 target mac ip l = u.transmit p (.echo { port := p, mac := mac, v6 := v6, ip := ip, uport := 0 } l) := by
  simp only [State.icmpEcho, hl, ← hu, ho, hr, Bool.not_true, Bool.false_eq_true, if_false, ne_eq, not_true_eq_false, if_true]

end

/-! ## Leases and duplicate address detection (R395, R396) -/

theorem State.dhcpRenew_leased {ip : Nat} (hon : s.dhcpOn p = true) (hip : s.net.port[p].lease = some ip) : s.dhcpRenew p =
    (s.advanceTo (s.net.port[p].leaseAt + s.net.port[p].leaseSecs * 500000000 * tuPerNs)).transmit p (.dhcpRenew p ip) := by
  simp only [State.dhcpRenew, hip, hon, if_true]

theorem State.dhcpLease_obtained {ip secs : Word} (hon : s.dhcpOn p = true) (hu : u = s.setNetPort p { s.net.port[p] with
      lease := some ip.toNat, leaseAt := s.tmb.clk, leaseSecs := secs.toNat }) :
    s.dhcpLease p ip.toNat secs.toNat = (u.transmit p (.gratuitousArp p (u.ip4Of p))).showAddr p true := by
  have hip : ip.toNat % 2 ^ 32 = ip.toNat := Nat.mod_eq_of_lt ip.isLt
  simp only [State.dhcpLease, hon, if_true, hip, ← hu, State.v4Valid]

theorem State.dhcpLost_leased {ip : Nat} (hip : s.net.port[p].lease = some ip) :
    s.dhcpLost p = ((s.setNetPort p { s.net.port[p] with lease := none }).showAddr p false).portSessions p 15 := by
  simp only [State.dhcpLost, hip]

section
variable (hl : s.linkUp p = true) (hd : bit s.net.port[p].cfg 3 = true)
include hl hd

theorem State.dadDone_duplicate : s.dadDone p false true = s.put (NET_PORT_STATUS_conflict p) 1 := by
  simp only [State.dadDone, hl, hd, Bool.not_true, Bool.false_and, Bool.or_self, Bool.false_eq_true, if_false, if_true]

theorem State.dadDone_linkLocal : s.dadDone p false false =
    (s.setNetPort p { s.net.port[p] with llOk := true }).showAddr p (s.on (NET_PORT_STATUS_v4_valid p)) := by
  simp only [State.dadDone, hl, hd, Bool.not_true, Bool.false_and, Bool.or_self, Bool.false_eq_true, if_false]

theorem State.dadDone_global (h6 : s.net.port[p].ip6 ≠ 0) : s.dadDone p true false =
    (s.setNetPort p { s.net.port[p] with glOk := true }).showAddr p (s.on (NET_PORT_STATUS_v4_valid p)) := by
  simp only [State.dadDone, hl, hd, decide_eq_false h6, Bool.not_true, Bool.and_false, Bool.or_self, Bool.false_eq_true, if_false, if_true]

end

/-! ## Links and the staged configuration (R394, R421) -/

theorem State.ethLinkUp_on (hon : s.ethOn p = true) (hl : s.linkUp p = false)
    (hu : u = (s.put (NET_PORT_STATUS_link p) 1).put (NET_PORT_STATUS_fec_lock p) 1) : s.ethLinkUp p =
      ((if p = 0 then u.put NET_STATUS_a_link 1 else u.put NET_STATUS_b_link 1).startAddr p).ev (352 + 2 * p.val) := by
  simp only [State.ethLinkUp, hon, hl, Bool.not_true, Bool.or_self, Bool.false_eq_true, if_false, ← hu]

/-- The ports are enabled and disabled first; then the staged configuration is taken. -/
theorem State.netCtl_apply {v : Word} {a b : State}
    (ha : a = (s.put NET_CTL_a_en (bitsOf v.toNat 0 1)).put NET_CTL_b_en (bitsOf v.toNat 1 1))
    (hb : b = if bit v.toNat 0 then a else a.ethLinkDown 0) :
    s.netCtl (withBit v 2 true).toNat = (if bit v.toNat 1 then b else b.ethLinkDown 1).netApply := by
  have henA := bitsOf_withBit_of_le (v := v) (b := true) (show 0 + 1 ≤ 2 by decide) (by decide)
  have henB := bitsOf_withBit_of_le (v := v) (b := true) (show 1 + 1 ≤ 2 by decide) (by decide)
  have hbitA : bit (withBit v 2 true).toNat 0 = bit v.toNat 0 := by rw [bit_withBit v true (by decide), if_neg (by decide)]
  have hbitB : bit (withBit v 2 true).toNat 1 = bit v.toNat 1 := by rw [bit_withBit v true (by decide), if_neg (by decide)]
  have happly : bit (withBit v 2 true).toNat 2 = true := by rw [bit_withBit v true (by decide), if_pos rfl]
  simp only [State.netCtl, henA, henB, hbitA, hbitB, happly, if_true, ← ha, ← hb]

end

/-- Settles O45: each event of a port goes by its link, its lease and its configuration. -/
theorem ethernetPorts : Obligations.EthernetPorts := by
  refine fun s p => ⟨fun hl u target mac ip hu => ⟨fun hv ht => congrArg finish (State.arpRequest_own hl hu hv ht),
      fun ho => congrArg finish (State.neighbourSolicitation_own hl hu ho),
      fun v6 l hr ho => congrArg finish (State.icmpEcho_own hl hu hr ho)⟩,
    fun hon => ⟨fun ip hip => congrArg finish (State.dhcpRenew_leased hon hip),
      fun ip secs u hu => congrArg finish (State.dhcpLease_obtained hon hu)⟩,
    fun ip hip => congrArg finish (State.dhcpLost_leased hip),
    fun hl hd => ⟨congrArg finish (State.dadDone_duplicate hl hd), congrArg finish (State.dadDone_linkLocal hl hd),
      fun h6 => congrArg finish (State.dadDone_global hl hd h6)⟩,
    fun hl => ⟨congrArg finish (if_pos hl), congrArg finish (if_pos hl)⟩,
    fun hon hl u hu => congrArg finish (State.ethLinkUp_on hon hl hu), fun v a b herr ha hb => ?apply⟩
  case apply =>
    refine congrArg finish ((State.atReg_of_csrError_eq_false _ herr).trans ((State.netCtl_apply ha hb).trans ?_))
    simp only [State.netApply, State.takeCfg]

end Sys2Proof.Machine
end

section
/-! PROOFS. Tamper sensors, the JTAG lock and the test access port (R441, R444, R447, R450 to R452, R531). -/

namespace Sys2Proof.Machine

section
variable {s u v : State}

/-! ## Tamper sensors (R444, R447) -/

/-- One sensor fires: it is logged unless its condition was present before, and its class decides the response. -/
theorem State.fireSensors_one {k : Nat} {old off : Bool} {aon : Nat} (hv : v = if old then u else u.logTamper k off aon) :
    u.fireSensors [k] (if old then [] else [k]) off aon =
      if u.sensorClass k = 0 ∨ (u.sensorClass k = 1 ∧ u.on SEC_STATUS_sealed) then v
      else if u.sensorClass k = 1 then v.seal
      else if u.sensorClass k = 2 then v.seal.eraseResponse
      else if off then v.seal.eraseResponse.setSec { v.seal.eraseResponse.sec with scorchPending := true }
      else v.seal.eraseResponse.scorch := by
  have hlog : (if old then [] else [k]).foldl (fun (a : State) k => a.logTamper k off aon) u = v := by
    rw [hv]
    cases old <;> rfl
  simp only [State.fireSensors, hlog, List.foldl_cons, List.foldl_nil, Nat.zero_max]

theorem filter_range_self : ∀ k : Fin 7, (List.range 7).filter (fun j => decide (j = k.val)) = [k.val] := by decide

theorem filter_range_eq {k : Fin 7} {f : Nat → Bool} (hf : ∀ j < 7, f j = decide (j = k.val)) : (List.range 7).filter f = [k.val] :=
  (List.filter_congr fun j hj => hf j (List.mem_range.mp hj)).trans (filter_range_self k)

section
variable {k : Fin 7} {fired active : BitVec 8} {off : Bool} {aon : Nat}
  (hk : ∀ j < 7, (s.sensed fired off j && s.sensorArmed j aon) = decide (j = k.val))
  (hu : u = (s.put SEC_TAMPER_active (((List.range 7).filter (s.sensed active off)).foldl (fun (m : Nat) j => m + 2 ^ j) 0)).setSec
    { s.sec with
      coolAt := if bit (((List.range 7).filter (s.sensed active off)).foldl (fun (m : Nat) j => m + 2 ^ j) 0) 2 then none
        else if bit (s.get SEC_TAMPER_active) 2 then some aon else s.sec.coolAt })
  (hv : v = if bit (s.get SEC_TAMPER_active) k then u else u.logTamper k off aon)
include hk hu

theorem State.tamperFire_one : s.tamperFire fired active off aon =
    u.fireSensors [k.val] (if bit (s.get SEC_TAMPER_active) k then [] else [k.val]) off aon := by
  have hnew : [k.val].filter (fun j => !bit (s.get SEC_TAMPER_active) j) = if bit (s.get SEC_TAMPER_active) k then [] else [k.val] := by
    cases h : bit (s.get SEC_TAMPER_active) k <;> simp [h]
  simp only [State.tamperFire, ← hu, filter_range_eq hk, hnew]

include hv

theorem State.tamperFire_none (hc : u.sensorClass k = 0 ∨ u.sensorClass k = 1 ∧ u.on SEC_STATUS_sealed = true) :
    s.tamperFire fired active off aon = v := by
  rw [State.tamperFire_one hk hu, State.fireSensors_one hv, if_pos hc]

theorem State.tamperFire_seals (hc : u.sensorClass k = 1) (hs : u.on SEC_STATUS_sealed = false) :
    s.tamperFire fired active off aon = v.seal := by
  rw [State.tamperFire_one hk hu, State.fireSensors_one hv, if_neg (by simp [hc, hs]), if_pos hc]

theorem State.tamperFire_erases (hc : u.sensorClass k = 2) : s.tamperFire fired active off aon = v.seal.eraseResponse := by
  rw [State.tamperFire_one hk hu, State.fireSensors_one hv, if_neg (by omega), if_neg (by omega), if_pos hc]

theorem State.tamperFire_scorches (hc : u.sensorClass k = 3) (ho : off = false) :
    s.tamperFire fired active off aon = v.seal.eraseResponse.scorch := by
  rw [State.tamperFire_one hk hu, State.fireSensors_one hv, if_neg (by omega), if_neg (by omega), if_neg (by omega),
    if_neg (by rw [ho]; exact Bool.false_ne_true)]

end

/-! ## SEC_UNLOCK (R451, R452) -/

section
variable {sig : List Byte} (hu : u = { s with jtag := { s.jtag with ir := 0x21, chal := none } })
include hu

theorem State.jtagUnlock_refused (hr : s.unlockRefused = true) : s.jtagUnlock sig = (u.ev 402).fireInside 4 := by
  simp only [State.jtagUnlock, State.setJtag, ← hu, hr, if_true]

theorem State.jtagUnlock_unsigned (hr : s.unlockRefused = false) (hs : s.unlockSigned sig = false) :
    s.jtagUnlock sig = (u.authFail.ev 402).fireInside 4 := by
  simp only [State.jtagUnlock, State.setJtag, ← hu, hr, hs, Bool.false_eq_true, if_false, Bool.not_false, if_true]

/-- In OWNED the secrets go before the port opens. -/
theorem State.jtagUnlock_signed (hr : s.unlockRefused = false) (hs : s.unlockSigned sig = true) : s.jtagUnlock sig =
    ((if s.lifecycle = 2 then ((u.authOk.stopSecrets.endOpen 4).clearKeys).closeRegions else u.authOk).put SEC_STATUS_jtag_open 1).ev
      403 := by
  have hlife : u.authOk.lifecycle = s.lifecycle := by rw [hu]; rfl
  simp only [State.jtagUnlock, State.setJtag, ← hu, hr, hs, Bool.false_eq_true, if_false, Bool.not_true, hlife]

end

/-! ## Instructions of the test access port (R450, R531) -/

section
variable {code dr : Nat}

theorem State.jtagSelect_acts (h : s.jtagOpen = true ∨ code ∈ [0x01, 0x20, 0x21, 0x22, 0xFF]) :
    s.jtagSelect code dr = { s with jtag := { s.jtag with ir := code, dr := dr } } :=
  if_pos (Bool.or_eq_true_iff.mpr (h.imp_right List.contains_iff_mem.mpr))

theorem State.jtagSelect_bypass (ho : s.jtagOpen = false) (h : code ∉ [0x01, 0x20, 0x21, 0x22, 0xFF]) :
    s.jtagSelect code dr = { s with jtag := { s.jtag with ir := 0xFF, dr := 0 } } :=
  if_neg fun hc => (Bool.or_eq_true_iff.mp hc).elim (by rw [ho]; exact Bool.false_ne_true) fun hm => h (List.contains_iff_mem.mp hm)

variable {balls load : BitVec 3507}

theorem State.jtagScan_open (ho : s.jtagOpen = true) : s.jtagScan code balls load =
    { s with jtag := { s.jtag with ir := code, dr := balls.toNat, boundary := load } } := by
  simp only [State.jtagScan, State.jtagSelect_acts (.inl ho), ho, if_true, State.setJtag]

theorem State.jtagScan_locked (ho : s.jtagOpen = false) (h : code ∉ [0x01, 0x20, 0x21, 0x22, 0xFF]) :
    s.jtagScan code balls load = { s with jtag := { s.jtag with ir := 0xFF, dr := 0 } } := by
  simp only [State.jtagScan, State.jtagSelect_bypass ho h, ho, Bool.false_eq_true, if_false]

end

end

/-- Settles O49: a sensor's class in force decides its response; an unlock is judged, and in LOCKED only five instructions act. -/
theorem sensorsAndJtag : Obligations.SensorsAndJtag := by
  refine fun s => ⟨fun k fired active off aon u v hk hu hv => ⟨fun hc => ?none, fun hc hs => ?seals, fun hc => ?erases, fun hc ho => ?scorches⟩,
    rfl, fun sig u hu => ⟨fun hr hs => ⟨fun hl => ?opens, fun hl => ?opensOwned⟩, fun hr hs => ?unsigned, fun hr => ?refused⟩,
    congrArg finish (State.jtagSelect_acts (.inr (by decide))), congrArg finish (State.jtagSelect_acts (.inr (by decide))),
    congrArg finish (State.jtagSelect_acts (.inr (by decide))),
    fun ho => ⟨congrArg finish (State.jtagSelect_acts (.inl ho)), congrArg finish (State.jtagSelect_acts (.inl ho)),
      fun balls load => ⟨congrArg finish (State.jtagScan_open ho), congrArg finish (State.jtagScan_open ho)⟩⟩,
    fun ho => ⟨congrArg finish (State.jtagSelect_bypass ho (by decide)), congrArg finish (State.jtagSelect_bypass ho (by decide)),
      fun balls load => ⟨congrArg finish (State.jtagScan_locked ho (by decide)), congrArg finish (State.jtagScan_locked ho (by decide))⟩⟩⟩
  case none => exact congrArg (fun t : State => finishSync t.netGo) (State.tamperFire_none hk hu hv hc)
  case seals => exact congrArg (fun t : State => finishSync t.netGo) (State.tamperFire_seals hk hu hv hc hs)
  case erases => exact congrArg (fun t : State => finishSync t.netGo) (State.tamperFire_erases hk hu hv hc)
  case scorches => exact congrArg (fun t : State => finishSync t.netGo) (State.tamperFire_scorches hk hu hv hc ho)
  case opens =>
    have h := State.jtagUnlock_signed hu hr hs
    rw [if_neg hl] at h
    exact congrArg (fun t : State => finishSync t.netGo) h
  case opensOwned =>
    have h := State.jtagUnlock_signed hu hr hs
    rw [if_pos hl] at h
    exact congrArg (fun t : State => finishSync t.netGo) h
  case unsigned => exact congrArg (fun t : State => finishSync t.netGo) (State.jtagUnlock_unsigned hu hr hs)
  case refused => exact congrArg (fun t : State => finishSync t.netGo) (State.jtagUnlock_refused hu hr)

end Sys2Proof.Machine
end
